-- ==== Sys2Proof/Word.lean ====
section
/-! DEFINITION. The words of Kezen: 32-bit Control Space words (R6), 64-byte lines, and the two halves. -/

namespace Sys2Proof

/-- A Control Space register word (spec 00, "Control Space registers"). -/
abbrev Word := BitVec 32

/-- A 64-byte line of data. -/
abbrev Line := BitVec 512

/-- The two fabric dies (R14). -/
inductive Half where
  | east | west
  deriving DecidableEq, Repr

/-- East 0, West 1: the order of the two bases of a block (spec 00). -/
def Half.idx : Half → Nat
  | .east => 0
  | .west => 1

/-- The other half. -/
def Half.other : Half → Half
  | .east => .west
  | .west => .east

/-- A value kept once per half. -/
structure Pair (α : Type) where
  east : α
  west : α
  deriving DecidableEq, Repr

/-- The copy of half `h`. -/
def Pair.get {α : Type} (p : Pair α) : Half → α
  | .east => p.east
  | .west => p.west

/-- Replace the copy of half `h`. -/
def Pair.set {α : Type} (p : Pair α) (h : Half) (x : α) : Pair α :=
  match h with
  | .east => { p with east := x }
  | .west => { p with west := x }

end Sys2Proof
end

