-- ==== Sys2Proof/Syntax.lean ====
section
/-! DEFINITION. The commands: one constructor of `Instr` for each row of the spec's table of operations and
events (opcode_table.json), with the operands that the command carries. What the environment decides (a
measurement, a detector's outcome, a message that arrives) is an operand. -/

namespace Sys2Proof

/-- The CS masters of R11 (each with a read latch of its own), the Dome serving an I3C master before the
halves run (R451), and a host reaching the Service Function's registers through a BAR0 (R345). -/
inductive Master where
  | obs (h : Half) (core : Nat)
  | tirop (h : Half)
  | dap
  | mctp
  | dome
  | host (t fn : Nat)
  deriving DecidableEq, Repr

/-- What an ECC check finds in a word it reads (R508, R134). -/
inductive Ecc where
  | clean | corrected | double
  deriving DecidableEq, Repr

/-- A Tirop register w0-w15 (R497). -/
abbrev Reg := BitVec 4

/-- The special values of MOVS (R502). -/
inductive Special where
  | tn | bc | half | split
  deriving DecidableEq, Repr

/-- A Tirop immediate: the 14 bits of the one-word form, or the 40-bit constant K of the X-form (R500). -/
inductive Imm where
  | short (v : BitVec 14)
  | x (k : BitVec 40)
  deriving DecidableEq, Repr

/-- An event as its source reports it (R409, R411): class, cause, instance, the unit of R425 it belongs to
(kind and index) if any, the DETAIL of R417, and the number of occurrences it stands for. -/
structure EvSpec where
  cls : Nat
  cause : Nat
  inst : Nat
  unit : Option (Nat × Nat)
  detail : Nat
  count : Nat
  deriving DecidableEq, Repr

/-- What a half measures at a Transit boundary: Tj (R430), the witness balls (R183), and one
bit a port of the half, 1 with the SLOT_PRSNT_L of that port low (R211). -/
structure BoundaryIn where
  tj : Int
  witE : Bool
  witW : Bool
  prsnt : Nat
  deriving DecidableEq, Repr

/-- The messages of a link that Kezen tells apart (R20, R104, R135). -/
inductive Op where
  | mWr | msg | mRd | atomic | cfgRd | cfgWr | cpl
  | memRd | memRdData | memInv | memSpecRd | memClnEvct | memWr | memWrPtl
  | biSnp | biRsp | d2hReq | d2hRsp | d2hData | h2dReq | h2dRsp | h2dData
  | ndr | drs | mctp
  deriving DecidableEq, Repr

/-- MetaField and MetaValue of a CXL.mem request (R229), and what a snoop response leaves the holder with
(R236): `i` nothing, `s` shared, `a` exclusive. -/
inductive Hold where
  | noop | i | s | a
  deriving DecidableEq, Repr

/-- The snoop of a CXL.mem request (R229) or of a BISnp (R236). -/
inductive Snp where
  | none | data | inv | cur
  deriving DecidableEq, Repr

/-- A piece of a request after HDM decode (R298, R305): target kind, target index, checked address. -/
structure Piece where
  kind : Nat
  idx : Nat
  addr : Nat
  deriving DecidableEq, Repr

/-- Where a request goes once its ingress has decoded it (R19): a vPPB's own configuration space (vPPB 32 is
U), a function on the bus below a vPPB, each with the register's offset (`dec`: it lies in the device's HDM or BI decoder capability structure, R228), a PTM request (R102), memory pieces, Kezen's own MCTP endpoint, or nothing that any decoder claims. -/
inductive Tgt where
  | cfgVppb (v off : Nat)
  | cfgBelow (v fn off : Nat) (dec : Bool)
  | ptm
  | pieces (l : List Piece)
  | mctp
  | none
  deriving DecidableEq, Repr

/-- A request as it arrives at an ingress sub-port, with what its decoders answered. `attr`: No-Snoop, Relaxed Ordering and
ID-Based Ordering as bits 0, 1 and 2; `otherId`: its requester ID differs from those of the posted requests before it (R108);
`flit`: the number of the link flit it came in, 0 for a flit of its own (R132). -/
structure ReqIn where
  op : Op
  tag : Nat
  ld : Nat
  tgt : Tgt
  len : Nat
  data : Nat
  poison : Bool
  hold : Hold
  snp : Snp
  tlpTc : Nat
  attr : BitVec 3
  otherId : Bool
  twoSlots : Bool
  unsupported : Bool
  flit : Nat
  deriving DecidableEq, Repr

/-- A response as it arrives at the sub-port that sent the request (R22, R105): the tag field of its link,
whether the tag is an internal one, the bytes it carries, whether it is the last part, an error status, what a
snoop response leaves the holder with, the device's DevLoad, and for an internal CXL.io tag the function of the requester ID
it came under (tenant * 256 + function); attributes and flit as those of a request. -/
structure RspIn where
  op : Op
  tagField : Nat
  internal : Bool
  bytes : Nat
  final : Bool
  error : Bool
  poison : Bool
  data : Nat
  hold : Hold
  devLoad : Nat
  req : Nat
  attr : BitVec 3
  otherId : Bool
  flit : Nat
  deriving DecidableEq, Repr

/-- A logical device of a trained device (R200, R227): its LD-ID (0 for an SLD), whether it is a DCD, its
bytes of memory, and whether it reports HDM-H memory. -/
structure LdInfo where
  ld : Nat
  dcd : Bool
  size : Nat
  hdmH : Bool
  deriving DecidableEq, Repr

/-- The partner that training identified: whether it speaks CXL or PCI Express alone (R102), an MLD or not, and its logical
devices. -/
structure DevInfo where
  cxl : Bool
  mld : Bool
  lds : List LdInfo
  deriving DecidableEq, Repr

/-- A coefficient set: C-1, C0 and C+1 as magnitudes (R85). -/
abbrev Coeff := Nat × Nat × Nat

/-- The phase in which Kezen's receiver tunes the partner's transmitter at one rate (R88): the preset at which an upstream
port's partner starts, the grades its settings have, and how many are measured before 75 % of the time limit has passed. -/
structure EqRun where
  rate : Nat
  start : Nat
  grades : List (Coeff × Nat)
  trials : Nat
  deriving DecidableEq, Repr

/-- Why a lane is to be failed (R96): symbol lock or deskew is lost, or FEC has corrected n more of its symbols. -/
inductive LaneLoss where
  | lock
  | fec (n : Nat)
  deriving DecidableEq, Repr

/-- A change of a link that one end asks for (R98): an L0p width, a change of rate, a repeat of equalisation. -/
inductive LinkAsk where
  | width
  | rate
  | reeq
  deriving DecidableEq, Repr

/-- How a training attempt ends (R73, R74, R78, R95, R102). -/
inductive TrainOut where
  /-- The link runs: rate code of PRT_LNK_STAT, width, reversal, whether the partner supports L0p, its device, what Kezen's
  search found at the rates equalised (R88), and the link credits the partner grants at first, by cell class. -/
  | up (rate width : Nat) (rev l0p : Bool) (dev : DevInfo) (eqs : List EqRun) (cred : List (Nat × Nat))
  /-- 32 GT/s was not reached. -/
  | noRate
  /-- The partner does not negotiate 256-byte flits (R102). -/
  | noFlit
  /-- The link enters Polling.Compliance (R78). -/
  | compliance
  /-- Training ends by the standard's timeouts and the sub-port is back in Detect. -/
  | detect
  deriving DecidableEq, Repr

/-- What SECDED finds in the cells that a step reads (R134): the bank or pseudo-channel, and which of the messages read, counted
from 0, has the error. -/
inductive CellEcc where
  | clean
  | corrected (unit : Nat)
  | payload (unit i : Nat)
  | descriptor (unit i : Nat)
  deriving DecidableEq, Repr

/-- What ECC finds in the Catalogue entry or set that a lookup reads (R244): nothing, a corrected word of a
cache bank or of a pseudo-channel that holds the image, or an uncorrectable error in way `way` of the cached set or of the
image. -/
inductive CatEcc where
  | clean
  | corrected (bank : Nat)
  | image (pc : Nat)
  | double (way : Nat) (image : Bool)
  deriving DecidableEq, Repr

/-- A part of a COPY (R364): its bytes, its source and destination address, and where each goes by the tenant's own
decoders: a piece of memory or of CXL.io space, or none for the tenant's host. -/
structure CopySeg where
  len : Nat
  src : Nat
  dst : Nat
  rd : Option Piece
  wr : Option Piece
  deriving DecidableEq, Repr

/-- Where a word of a frame or context lies (R293, R425): a bank of the Stack SRAM, or a pseudo-channel that holds a spill frame. -/
inductive StkUnit where
  | sram (bank : Nat)
  | spill (pc : Nat)
  deriving DecidableEq, Repr

/-- What SECDED finds in the Stack SRAM or spill frame as a line is applied (R293): nothing, a corrected word, an uncorrectable
accumulator of an element of the chunk, or an uncorrectable word of the chunk's state or the job's context. -/
inductive StkEcc where
  | clean
  | corrected (unit : StkUnit)
  | acc (unit : StkUnit) (elem : Nat)
  | state (unit : StkUnit)
  deriving DecidableEq, Repr

/-- One conversion of a Shutter channel (R379, R400): the five voltages in 2^-16 V, the main and auxiliary shunt voltages in
2^-16 µV, all before calibration and clamping, and whether the gate-to-source voltage of QH exceeds 8 V (R386). -/
structure Conv where
  vout : Nat
  vmid : Nat
  va : Nat
  vb : Nat
  vx : Nat
  sh : Int
  xsh : Int
  vgs8 : Bool
  deriving DecidableEq, Repr

/-- Where an SPDM message is exchanged (R481): the upstream vPPB of a tenant, its Service Function PF, a downstream sub-port. -/
inductive SpdmPlace where
  | usp (t : BitVec 6)
  | pf (t : BitVec 6)
  | dsp (p : BitVec 5) (k : BitVec 2)
  deriving DecidableEq, Repr

/-- The SPDM requests that Kezen tells apart: a measurement by its index, a certificate chain by its slot, SET_CERTIFICATE with the
chain and whether the FM sends it, the start and the end of a session, and any other by its code. -/
inductive SpdmReq where
  | measurement (i : Nat)
  | certificate (slot : Nat)
  | setCertificate (slot chain : Nat) (fm : Bool)
  | startSession (id : Nat)
  | endSession (id : Nat)
  | other (code : Nat)
  deriving DecidableEq, Repr

/-- What a debugger may ask of an Observer core (R492). -/
inductive CoreOp where
  | halt | resume | step | abstract
  deriving DecidableEq, Repr

inductive Instr where
  /-- LOW_WORD_READ (R11): A read of the low word of a 64-bit register returns it and latches the high word for that CS master. -/
  | lowWordRead (m : Master) (a : Nat)
  /-- HIGH_WORD_WRITE (R12): A write to the high word of a 64-bit register applies it together with the held low word. -/
  | highWordWrite (m : Master) (a : Nat) (v : Word)
  /-- SNAPSHOT_WRITE (R13): A write to a block's snapshot control copies all four words of a 128-bit accumulator at one instant. -/
  | snapshotWrite (m : Master) (a : Nat) (v : Word)
  /-- RC_COUNTER_READ (R7): A read of an RC field returns its value and clears it, keeping any addition that coincides with the read. -/
  | rcCounterRead (m : Master) (a : Nat) (coinc : Word)
  /-- REGISTER_WRITE (R6): A CS write to a register with no row of its own is applied by its field access types, or discarded where a rule forbids it. -/
  | registerWrite (m : Master) (a : Nat) (v : Word)
  /-- CS_STOP_TIMEOUT (R487): A Config Ring stop that has not answered within 10 µs ends the access as CS unreachable. -/
  | csStopTimeout (m : Master) (a : Nat) (wr : Bool)
  /-- TRANSIT_BOUNDARY (R35): At each Transit boundary the half updates TN, applies the sealed commits, closes the handler list, strobes the Shutter samples and starts the program. -/
  | transitBoundary (h : Half) (x : BoundaryIn)
  /-- SHUTTER_SAMPLES_READY (R48): At cycle 120 the boundary's Shutter samples become readable by Tirop and waiting readers proceed. -/
  | shutterSamplesReady (h : Half)
  /-- TIROP_CUTOFF (R57): When BC reaches 960 while the pair still runs, the Transit's outputs are discarded and dispatched events return to the head of the list. -/
  | tiropCutoff (h : Half)
  /-- TRANSIT_SEAL (R55): In cycles 960-999 the pair's outputs are compared and, if all checks hold, released in issue order. -/
  | transitSeal (h : Half) (mismatch : Bool)
  /-- HANDLER_BACKLOG (R53): An event deferred for 64 consecutive Transits raises a handler-backlog event. -/
  | handlerBacklog (h : Half)
  /-- TRP_RUN_SET (R43): A write of 1 to TRP_CTL.RUN requests that the pair run the active bank from the next boundary. -/
  | trpRunSet (m : Master) (h : Half)
  /-- TRP_RUN_CLEAR (R43): A write of 0 to TRP_CTL.RUN makes the pair idle from the next boundary. -/
  | trpRunClear (m : Master) (h : Half)
  /-- TRP_SEL_WRITE (R43): A write to TRP_CTL.SEL chooses the active bank while RUN is 0, and is discarded otherwise. -/
  | trpSelWrite (m : Master) (h : Half) (sel : Bool)
  /-- BANK_WRITE (R43): A CS write to a Program Store bank is stored if the bank is standby and no takeover is pending, else discarded and logged. -/
  | bankWrite (m : Master) (h : Half) (b : Bool) (i : BitVec 14) (v : Word)
  /-- SWAP_REQUEST (R65): A write of 1 to TRP_SWAP_CTL.REQ requests a bank takeover at a target Transit or aborts it at once. -/
  | swapRequest (m : Master) (h : Half) (pair mode abort : Bool)
  /-- SWAP_ABORT (R67): A write of 1 to TRP_SWAP_CTL.ABORT aborts a pending takeover or is too late after the commit point. -/
  | swapAbort (m : Master) (h : Half) (pair mode : Bool)
  /-- MSYNC_FRAME_SEND (R38): At each boundary whose TN is a multiple of 1,000 a leader or locked follower sends an MSYNC frame. -/
  | msyncFrameSend (h : Half)
  /-- MSYNC_FRAME_RECEIVED (R39): A follower takes a received MSYNC frame, computes the phase error and corrects phase and frequency. -/
  | msyncFrameReceived (h : Half) (tn : Nat) (crc : BitVec 8) (arr : Nat)
  /-- MSYNC_LOSS (R40): Three consecutive missing frames clear LOCKED, set LOSS and raise an event. -/
  | msyncLoss (h : Half)
  /-- PORT_ENABLE (R75): A write setting PRT_CFG.EN applies the other fields and lets the sub-ports train. -/
  | portEnable (m : Master) (p : BitVec 5) (v : Word)
  /-- PORT_DISABLE (R75): A write clearing PRT_CFG.EN takes every sub-port to Disabled with flush and tenant resets. -/
  | portDisable (m : Master) (p : BitVec 5) (v : Word)
  /-- LINK_TRAINED (R74): A sub-port's training completes at a rate and width, or ends Disabled on a rate or width failure. -/
  | linkTrained (p : BitVec 5) (k : BitVec 2) (r : TrainOut)
  /-- PARTNER_COEFF_REQUEST (R88): A partner coefficient request is applied within 500 ns or rejected and counted. -/
  | partnerCoeffRequest (p : BitVec 5) (n : BitVec 4) (rate : Nat) (cm1 c0 cp1 : BitVec 6)
  /-- L0P_WIDTH_WRITE (R93): A write to PRT_LNK_CTL.L0P_W requests an L0p width change or is held until the link returns to L0. -/
  | l0pWidthWrite (m : Master) (p : BitVec 5) (k : BitVec 2) (w : BitVec 3)
  /-- COMPLIANCE_WRITE (R78): A write to PRT_LNK_CTL.COMPL makes the next training enter Polling.Compliance. -/
  | complianceWrite (m : Master) (p : BitVec 5) (k : BitVec 2) (on : Bool)
  /-- REEQ_WRITE (R100): A write of 1 to REEQ redoes equalisation at the current rate or is held. -/
  | reeqWrite (m : Master) (p : BitVec 5) (k : BitVec 2)
  /-- RETRAIN_WRITE (R100): A write of 1 to RETRAIN directs the link to Recovery or is held. -/
  | retrainWrite (m : Master) (p : BitVec 5) (k : BitVec 2)
  /-- SUBPORT_DISABLE_WRITE (R75): A write to PRT_LNK_CTL.DISABLE holds the sub-port in Disabled or releases it. -/
  | subportDisableWrite (m : Master) (p : BitVec 5) (k : BitVec 2) (on : Bool)
  /-- HELD_LINK_WRITE_APPLY (R100): A held RETRAIN, REEQ or L0P_W write takes effect when the link returns to L0 or L0p. -/
  | heldLinkWriteApply (p : BitVec 5) (k : BitVec 2)
  /-- PARTNER_L0P_REQUEST (R93): A partner's L0p request is granted unless it would activate a failed lane. -/
  | partnerL0pRequest (p : BitVec 5) (k : BitVec 2) (w : Nat)
  /-- L1_ENTRY (R94): The link enters L1 when allowed and every protocol agrees through the ARB/MUX. -/
  | l1Entry (p : BitVec 5) (k : BitVec 2)
  /-- L1_EXIT (R94): The link exits L1 when traffic waits for it, within the reported exit latency. -/
  | l1Exit (p : BitVec 5) (k : BitVec 2)
  /-- LANE_FAILED (R96): A lane losing lock or exceeding its correction threshold is failed and the sub-port narrowed. -/
  | laneFailed (p : BitVec 5) (n : BitVec 4) (why : LaneLoss)
  /-- LANE_CLEAR (R97): A write of 1 to PRT_LANE_CLR returns lanes to service and widens the link. -/
  | laneClear (m : Master) (p : BitVec 5) (v : BitVec 16)
  /-- CHANGE_REQUEST_REISSUE (R99): A withdrawn link request that still applies is issued again once the link is back in L0. -/
  | changeRequestReissue (p : BitVec 5) (k : BitVec 2)
  /-- REFERENCE_LOST (R82): A lost selected reference makes Kezen switch every PLL and PCLK_OUT to the other reference. -/
  | referenceLost (r : BitVec 1)
  /-- EYE_START (R91): A write of 1 to PRT_EYE_CTL.START clears the counts and starts a one-point scan. -/
  | eyeStart (m : Master) (p : BitVec 5) (v : Word)
  /-- EYE_ABORT (R91): A write of 1 to PRT_EYE_CTL.ABORT ends the running scan as ABORTED. -/
  | eyeAbort (m : Master) (p : BitVec 5) (cnt err : Nat)
  /-- EYE_SCAN_DONE (R91): A scan ends DONE when its compared count reaches 2^LIMIT. -/
  | eyeScanDone (p : BitVec 5) (err : Nat)
  /-- REQUEST_INGRESS (R19): A request arriving at an ingress station is tenant-identified, decoded, Umpire-checked and formed into cells or answered. -/
  | requestIngress (p : BitVec 5) (k : BitVec 2) (r : ReqIn)
  /-- REQUEST_EGRESS (R104): A non-posted request leaving a port takes a tag entry and starts its timer. -/
  | requestEgress (p : BitVec 5) (k : BitVec 2) (cls : Nat) (ecc : CellEcc)
  /-- RESPONSE_RECEIVED (R22): A response is matched by tag and returned to the requester under its own tag. -/
  | responseReceived (p : BitVec 5) (k : BitVec 2) (r : RspIn)
  /-- COMPLETION_TIMEOUT (R112): An entry whose age reaches its timeout at a boundary is ended with a synthetic completion and quarantined. -/
  | completionTimeout (h : Half)
  /-- QUARANTINE_EXPIRY (R117): An entry leaves quarantine at the first boundary after twice its timeout. -/
  | quarantineExpiry (h : Half)
  /-- FLIT_RECEIVED (R121): A received link flit is checked and its messages delivered, or discarded as a replayed duplicate. -/
  | flitReceived (p : BitVec 5) (k : BitVec 2) (seq : BitVec 10) (fec : Bool) (cred : List (Nat × Nat))
  /-- FLIT_ACK_RECEIVED (R123): An acknowledgement frees replay buffer space and lets a stalled sub-port send again. -/
  | flitAckReceived (p : BitVec 5) (k : BitVec 2) (n : Nat) (nak : Bool)
  /-- IDE_KEY_PROGRAM (R124): IDE_KM over DOE sets or refreshes a sub-port's IDE stream keys. -/
  | ideKeyProgram (p : BitVec 5) (k : BitVec 2) (stream : BitVec 1) (skid : Bool) (key : Nat)
  /-- IDE_CHECK_FAILED (R126): An integrity failure discards traffic, makes the stream Insecure and reports to the tenant. -/
  | ideCheckFailed (p : BitVec 5) (k : BitVec 2) (stream : BitVec 1)
  /-- DEVLOAD_SAMPLE (R127): Every 8 ns the queue depth is sampled and the marking level updated. -/
  | devloadSample (p : BitVec 5) (k : BitVec 2)
  /-- CELL_ARRIVAL (R141): An arriving cell is admitted by the first applicable pool case, spilled, pushed out or held. -/
  | cellArrival (h : Half) (st : Nat)
  /-- HELD_CELL_ADMIT (R142): A held cell rechecked in a later slot is admitted and its credits or XON released. -/
  | heldCellAdmit (h : Half) (st cls : Nat)
  /-- VOLLEY_DECISION (R146): A Volley matcher runs three request-grant-accept iterations and the matched cells cross the crossbar. -/
  | volleyDecision (h : Half) (blocked : List Nat) (ecc queue : CellEcc)
  /-- SPILL_WRITE (R150): Station 29 appends a spilled cell to its VOQ's deep segment, or at its head if pushed out. -/
  | spillWrite (h : Half) (st : Nat)
  /-- DEEP_FIELD_RETURN (R151): A page read from a deep segment lands and its cells join the on-chip segment tail. -/
  | deepFieldReturn (h : Half) (k : Nat) (ecc : CellEcc)
  /-- LINK_DOWN (R162): A sub-port entering Detect or Disabled leaves service and its queued messages are flushed. -/
  | linkDown (p : BitVec 5) (k : BitVec 2)
  /-- CORE_LOCK_SET (R143): A write of 1 to CORE_CTL.LOCK locks the core's RWL fields until cold reset. -/
  | coreLockSet (m : Master) (h : Half)
  /-- DF_ENABLE (R154): A write of 1 to CORE_CTL.DF_EN allows the Deep Field to be used. -/
  | dfEnable (m : Master) (h : Half)
  /-- BRIDGE_FLIT_RECEIVED (R168): A Coudé flit is checked and its cells delivered, or a NAK is sent on a CRC failure. -/
  | bridgeFlitReceived (h : Half) (g : BitVec 3) (flips : List Nat)
  /-- BRIDGE_NAK_RECEIVED (R168): A NAK makes the sender resend its replay buffer from ACK + 1. -/
  | bridgeNakReceived (h : Half) (g : BitVec 3)
  /-- WIRE_FAILED (R171): A failed Coudé wire is replaced by a spare, or the group narrows. -/
  | wireFailed (h : Half) (g : BitVec 3) (w : Nat) (lost : Bool)
  /-- WIRE_RETURN (R173): A write of 1 to a CDB_WMAP bit returns a wire to service and widens its group. -/
  | wireReturn (m : Master) (h : Half) (g : BitVec 3) (w : BitVec 7)
  /-- DOZE_ENTER (R177): An idle group transmitter enters Doze after DOZE_IDLE. -/
  | dozeEnter (h : Half) (g : BitVec 3)
  /-- DOZE_EXIT (R178): A transmitter leaves Doze with a 16-UI burst when it has something to send. -/
  | dozeExit (h : Half) (g : BitVec 3)
  /-- BRIDGE_DOWN (R180): When the bridge goes down each half drops bridge cells and ends every crossing entry. -/
  | bridgeDown
  /-- BRIDGE_RETRAINED (R182): All groups retrained within 15 µs, so cross-half traffic resumes and dropped snoops are resent. -/
  | bridgeRetrained
  /-- SPLIT_DECLARED (R182): At 15 µs without retraining each half declares a split, quarantines lines and records the time. -/
  | splitDeclared
  /-- CROSSING_QUARANTINE_EXPIRY (R181): A crossing entry leaves quarantine after twice the XQ timeout. -/
  | crossingQuarantineExpiry (h : Half)
  /-- REJOIN_REQUEST (R190): A write of 1 to CDB_CTL.REJOIN starts a rejoin attempt at the next boundary. -/
  | rejoinRequest (m : Master) (h : Half)
  /-- REJOIN_AUTO_ATTEMPT (R190): At every boundary whose TN is a multiple of 100,000 an automatic rejoin attempt starts. -/
  | rejoinAutoAttempt (h : Half)
  /-- REJOIN_TRAINED (R191): The bridge trains during a rejoin and the halves enter LOCK. -/
  | rejoinTrained
  /-- REJOIN_LOCK_DONE (R191): The Meridians agree within 2 ns and LOCK ends. -/
  | rejoinLockDone
  /-- REJOIN_RECONCILED (R191): CDB_QLINES reaches 0 in both halves and UP follows at the next boundary. -/
  | rejoinReconciled
  /-- MIRROR_RESYNC_DONE (R194): Mirror resynchronisation ends and MIRROR_UNPROT clears. -/
  | mirrorResyncDone (h : Half)
  /-- BIND (R510): The BIND instruction copies n staged rows and holds their commit until the seal. -/
  | bind (h : Half) (rs : Reg) (n : BitVec 14)
  /-- UNBIND (R510): The UNBIND instruction copies n staged binding rows to be unbound at the seal. -/
  | unbind (h : Half) (rs : Reg) (n : BitVec 14)
  /-- ROW_CANCEL (R204): Setting a staged row's CANCEL aborts it if set before cycle 960 of the releasing Transit. -/
  | rowCancel (m : Master) (a : Nat)
  /-- HP_WAIT_EXPIRY (R210): HP_WAIT expiring in a managed hot-remove turns it into a surprise unbind. -/
  | hpWaitExpiry (t : BitVec 6) (v : BitVec 5)
  /-- SLOT_POWER (R213): Vendor command 0xC010 stages a power change for a port's slot. -/
  | slotPower (cci : Nat) (p : BitVec 5) (on : Bool) (tk : BitVec 16)
  /-- HOST_POWER_CONTROL_WRITE (R213): A host write to Power Controller Control in Dn stages a power change if Dn owns the slot, or triggers a managed unbind. -/
  | hostPowerControlWrite (t : BitVec 6) (v : BitVec 5) (off : Bool) (tk : BitVec 16)
  /-- PRESENCE_ACCEPTED (R211): A presence change stable for DEBOUNCE ms is accepted and reported to bound vPPBs and the FM. -/
  | presenceAccepted (p : BitVec 5) (here : Bool)
  /-- PERST_RELEASE (R214): SLOT_PERST_L goes high 100 ms after power good unless the FM holds it low. -/
  | perstRelease (p : BitVec 5)
  /-- SURPRISE_REMOVAL (R215): A loss of presence or link drop on a powered slot flushes queues and reports the removal. -/
  | surpriseRemoval (p : BitVec 5) (lost : Bool)
  /-- HOT_RESET_RECEIVED (R217): A hot reset on a tenant's upstream sub-port starts a tenant reset. -/
  | hotResetReceived (p : BitVec 5) (k : BitVec 2)
  /-- SBR_UPSTREAM (R217): Secondary Bus Reset set in U starts a tenant reset. -/
  | sbrUpstream (t : BitVec 6)
  /-- TENANT_RESET_WRITE (R217): A write of 1 to SF_TEN_RST.START starts a tenant reset. -/
  | tenantResetWrite (m : Master) (t : BitVec 6) (v : Word)
  /-- TENANT_RESET_END (R218): The reset ends at the first boundary at which the tenant has no cell queued. -/
  | tenantResetEnd (t : BitVec 6)
  /-- SBR_DOWNSTREAM (R220): Secondary Bus Reset in a downstream vPPB resets only what it is bound to. -/
  | sbrDownstream (t : BitVec 6) (v : BitVec 5)
  /-- CATALOGUE_REQUEST (R234): A request to a window line takes the line lock and is served by the transition table. -/
  | catalogueRequest (h : Half) (ecc : CatEcc)
  /-- WAIT_POOL_RESUME (R233): A request waiting for a locked line or a way is taken from the wait pool when it frees. -/
  | waitPoolResume (h : Half)
  /-- SNOOP_RESPONSE_RECEIVED (R236): A snoop response updates the holders and, when the last arrives, completes the transaction. -/
  | snoopResponseReceived (h : Half)
  /-- WRITE_BACK_RECEIVED (R237): A holder's full-line MemWr before its BIRsp is absorbed into the transaction. -/
  | writeBackReceived (h : Half)
  /-- DEVICE_WRITE_COMPLETE (R250): The device's NDR or timeout for a Catalogue write frees a slot or way, or keeps the data on failure. -/
  | deviceWriteComplete (h : Half)
  /-- BICONFLICT_RECEIVED (R239): A host's BIConflict is answered with BI-ConflictAck behind earlier responses. -/
  | biconflictReceived (h : Half) (t k : Nat)
  /-- TAINT_LIFT (R245): A write of 1 to CAT_TAINT(i).VALID lifts a set's taint. -/
  | taintLift (m : Master) (h : Half) (i : BitVec 4)
  /-- PASS_START (R254): The Catalogue walker starts a pass carrying every queued scrub, recall and disable job. -/
  | passStart (h : Half)
  /-- PASS_END (R254): The walker finishes every set and disabled windows leave use. -/
  | passEnd (h : Half)
  /-- IMAGE_ENABLE (R258): A write of 1 to CAT_CTL.IMG_EN starts copying the on-chip store to the HBM image and mirror. -/
  | imageEnable (m : Master) (h : Half)
  /-- IMAGE_COPY_DONE (R258): The copy ends, IMG becomes 1 and the on-chip store becomes the cache. -/
  | imageCopyDone (h : Half)
  /-- STACKER_LINE_RECEIVED (R272): A contribution line is rejected, discarded as a duplicate, or accepted and applied. -/
  | stackerLineReceived (h : Half) (q : BitVec 2) (ecc : StkEcc)
  /-- PARTIAL_RECEIVED (R274): The home half adds a partial into its frame or discards it as a duplicate. -/
  | partialReceived (j : BitVec 10) (k : BitVec 14)
  /-- CHUNK_WRITTEN (R286): All result writes of a chunk are acknowledged; WBASE advances and the frame is cleared. -/
  | chunkWritten (j : BitVec 10)
  /-- RESULT_WRITE_RETRY (R287): A failed result line is retried once in the next Transit, and a second failure aborts with DEST. -/
  | resultWriteRetry (j : BitVec 10)
  /-- JOB_TIMEOUT (R289): A job whose age reaches its TMO at a boundary ends ABORTED with TIMEOUT. -/
  | jobTimeout (j : BitVec 10)
  /-- STACKER_ENABLE (R269): A write of 1 to STK_CTL.EN lets the Stacker run jobs. -/
  | stackerEnable (m : Master) (h : Half)
  /-- STAGED_RULE_WRITE (R299): A write to a staged rule word re-evaluates whether the rule is malformed. -/
  | stagedRuleWrite (m : Master) (n : BitVec 15) (k : BitVec 3) (v : Word)
  /-- STAGED_PAGE_COPY_DONE (R310): The copy of the active page into the staged page ends and the freeze lifts. -/
  | stagedPageCopyDone (h : Half)
  /-- UMPIRE_FAULT_LOG_CLEAR (R316): A write of 1 to UMP_FLOG_INFO.VALID clears VALID and MORE. -/
  | umpireFaultLogClear (m : Master) (h : Half)
  /-- EPHEMERIS_ENTRY_START (R332): The next Ephemeris entry's gates take effect at the start of its span. -/
  | ephemerisEntryStart (p : BitVec 5)
  /-- QOS_LOCK_SET (R321): A write of 1 to QOS_CTL.LOCK locks the half's QOS RWL fields. -/
  | qosLockSet (m : Master) (h : Half)
  /-- ROTATION_WINDOW_START (R337): At each Rotation window start the HIGH requesters receive their quotas. -/
  | rotationWindowStart (h : Half) (pc : BitVec 5)
  /-- ROTATION_GRANT (R337): The arbiter grants one 64-byte access by quota and rotating order. -/
  | rotationGrant (h : Half) (pc : BitVec 5) (waiting : List Nat)
  /-- ROTATION_WATCHDOG (R340): A grant held for 6 µs fences its requester and restarts the stack front end. -/
  | rotationWatchdog (h : Half) (pc : BitVec 5)
  /-- FRONT_END_RESTART_DONE (R340): The front-end restart ends, held requests are reissued and the fence lifted if allowed. -/
  | frontEndRestartDone (h : Half)
  /-- QUEUE_ENABLE (R354): A write setting SF_QCFG.EN allocates and zeroes the queue or sets QERR. -/
  | queueEnable (t : BitVec 6) (fn : BitVec 8) (q : BitVec 2) (v : Word)
  /-- QUEUE_DISABLE (R354): A write clearing SF_QCFG.EN discards the queue and frees its entries. -/
  | queueDisable (t : BitVec 6) (fn : BitVec 8) (q : BitVec 2) (v : Word)
  /-- QUEUE_FLUSH (R358): A write of 1 to FLUSH discards the queue's entries at the next message boundary. -/
  | queueFlush (t : BitVec 6) (fn : BitVec 8) (q : BitVec 2) (v : Word)
  /-- QUEUE_HEAD_WRITE (R355): A host HEAD write consumes CQ or RQ entries, or is discarded as a pointer error. -/
  | queueHeadWrite (t : BitVec 6) (fn : BitVec 8) (q : BitVec 2) (v : Word)
  /-- SQ_PUSH (R360): A full aligned 64-byte write to the push window appends an SQ entry. -/
  | sqPush (t : BitVec 6) (fn : BitVec 8) (off : BitVec 10) (len : Nat) (data : Line)
  /-- DESC_NOP (R362): A NOP descriptor is taken and completed. -/
  | descNop (t : BitVec 6) (fn : BitVec 8) (ecc : CellEcc)
  /-- DESC_COPY (R364): A COPY descriptor starts reading SRC and writing DST by the tenant's decoders. -/
  | descCopy (t : BitVec 6) (fn : BitVec 8) (segs : List CopySeg) (ecc : CellEcc)
  /-- COPY_COMPLETE (R364): When every write has left and every read returned, the COPY completion is written. -/
  | copyComplete (t : BitVec 6) (fn : BitVec 8)
  /-- DESC_PASS (R366): A PASS descriptor meters and sends a multicast datagram and writes its completion. -/
  | descPass (t : BitVec 6) (fn : BitVec 8) (ecc : CellEcc)
  /-- DATAGRAM_RECEIVED (R366): A datagram copy is written to the receiving RQ or dropped or refused. -/
  | datagramReceived (h : Half)
  /-- SF_POOL_QUOTA_WRITE (R348): A QUOTA write is applied or discarded when the total exceeds 4,096 or VF Enable is set. -/
  | sfPoolQuotaWrite (m : Master) (t : BitVec 6) (v : Word)
  /-- VF_ENABLE_WRITE (R349): A host write to VF Enable or NumVFs sets VFE_REQ and raises a Service Function event. -/
  | vfEnableWrite (t : BitVec 6) (en : Bool) (n : BitVec 16)
  /-- VF_FROZEN (R374): A freezing VF becomes FROZEN once none of its entries is live. -/
  | vfFrozen (t : BitVec 6) (fn : BitVec 8)
  /-- BME_CLEAR (R369): Clearing Bus Master Enable stops new requests and halts the function's queues. -/
  | bmeClear (t : BitVec 6) (fn : BitVec 8)
  /-- FLR_START (R370): An FLR stops new requests and quarantines entries whose requests have not left. -/
  | flrStart (t : BitVec 6) (fn : BitVec 8)
  /-- FLR_TIMEOUT (R370): At the first boundary 900 µs after the FLR every still-live entry is quarantined. -/
  | flrTimeout (t : BitVec 6) (fn : BitVec 8)
  /-- FLR_COMPLETE (R370): Queues and registers are reset and Transactions Pending clears. -/
  | flrComplete (t : BitVec 6) (fn : BitVec 8)
  /-- MIG_FREEZE (R373): The FREEZE command stages a function row OP 4. -/
  | migFreeze (t : BitVec 6) (vf : BitVec 8) (n : BitVec 4) (ticket : BitVec 16)
  /-- MIG_SAVE (R373): The SAVE command writes a frozen VF's image to host memory. -/
  | migSave (t : BitVec 6) (vf : BitVec 8)
  /-- SAVE_HEADER_WRITE (R373): At the first boundary after the image body has left, the header line is written. -/
  | saveHeaderWrite (t : BitVec 6)
  /-- MIG_RESTORE (R373): The RESTORE command stages a function row OP 5. -/
  | migRestore (t : BitVec 6) (vf : BitVec 8) (n : BitVec 4) (ticket : BitVec 16)
  /-- RESTORE_CHECK_DONE (R375): The read image is checked and the restore completes or aborts. -/
  | restoreCheckDone (t : BitVec 6)
  /-- MIG_THAW (R373): The THAW command stages a function row OP 6. -/
  | migThaw (t : BitVec 6) (vf : BitVec 8) (n : BitVec 4) (ticket : BitVec 16)
  /-- MIG_ABORT (R373): SF_MIG_CTL.ABORT aborts the pending migration command before its commit point. -/
  | migAbort (t : BitVec 6)
  /-- SHUT (R510): The SHUT instruction copies n channels' staged power rows to commit at the seal. -/
  | shut (h : Half) (rs : Reg) (n : BitVec 14)
  /-- SHUTTER_CONVERSION (R379): Every 100 ns each channel converts and updates its breaker, FET integrator and energy accumulators. -/
  | shutterConversion (c : BitVec 5) (x : Conv)
  /-- FAST_TRIP (R388): Current above I_FAST turns QH off within 1 µs. -/
  | fastTrip (c : BitVec 5)
  /-- RAMP_TIMEOUT (R386): A ramp not reaching PG_TH within RAMP_TMO trips with kind RAMP. -/
  | rampTimeout (c : BitVec 5)
  /-- GATE_FAULT (R387): A QH gate below 1 V for 200 µs trips the channel to GFAULT. -/
  | gateFault (c : BitVec 5)
  /-- FET_SHORT (R387): A shorted QH turns QA and QB off and takes the channel to GFAULT. -/
  | fetShort (c : BitVec 5)
  /-- STOP_GATE_OFF (R380): 10 µs after a commanded off the QH gate turns off and PG clears. -/
  | stopGateOff (c : BitVec 5)
  /-- RETRY_WAIT_EXPIRY (R393): After 63 × D Transits a new ramp starts as the next attempt. -/
  | retryWaitExpiry (c : BitVec 5)
  /-- ATTEMPT_RESET (R393): ATTEMPT returns to 0 after PG has held for 1 s. -/
  | attemptReset (c : BitVec 5)
  /-- REVERSE_TURN_OFF (R395): An ORing FET is turned off when VMID exceeds its feed by more than 10 mV. -/
  | reverseTurnOff (c : BitVec 5) (feed : BitVec 1)
  /-- FEED_BAD (R396): A main feed out of limits for 10 µs is bad and may trip the channel to FEED_WAIT. -/
  | feedBad (c : BitVec 5) (feed : BitVec 1)
  /-- FEED_GOOD (R396): A feed within limits for 10 ms is good again and may restart the ramp. -/
  | feedGood (c : BitVec 5) (feed : BitVec 1)
  /-- AUX_SWITCHOVER (R397): An auxiliary feed below AUX_UV for 2 µs is switched break-before-make to the other feed. -/
  | auxSwitchover (c : BitVec 5) (good : Bool)
  /-- AUX_RETURN (R397): The output returns to the preferred feed once it has been good for AUX_RET ms. -/
  | auxReturn (c : BitVec 5)
  /-- AUX_FAST_TRIP (R398): Auxiliary current above AUX_IFAST turns both switches off and clears AUX_ON. -/
  | auxFastTrip (c : BitVec 5)
  /-- ENERGY_SNAPSHOT (R403): A write of 1 to SHT_ESNAP.SNAP copies both accumulators as at the last boundary. -/
  | energySnapshot (m : Master) (c : BitVec 5)
  /-- REFEREE_EVENT (R409): An event is reacted to in hardware, stamped, recorded, alerted and placed for handling. -/
  | refereeEvent (h : Half) (e : EvSpec)
  /-- LEAKY_COUNT_LEAK (R424): At boundaries whose TN is a multiple of 2^LEAK_EXP each leaky count falls by 1. -/
  | leakyCountLeak (h : Half)
  /-- BANK_RETIRE_DONE (R425): A draining bank becomes empty and a spare takes its place. -/
  | bankRetireDone (h : Half) (k i : Nat)
  /-- PSEUDO_CHANNEL_COPY_DONE (R426): The copy of a retired pseudo-channel into the spare region finishes. -/
  | pseudoChannelCopyDone (h : Half) (pc : Nat) (slots badSlots badWays : List Nat)
  /-- EVQ_HEAD_WRITE (R419): A HEAD write consumes event queue records or is discarded. -/
  | evqHeadWrite (m : Master) (h : Half) (v : Word)
  /-- SCOREBOOK_UNFREEZE (R418): A write of 1 to REF_STAT.SB_FROZEN unfreezes the Scorebook. -/
  | scorebookUnfreeze (m : Master) (h : Half)
  /-- SOFT_EVENT_RAISE (R411): A write to REF_RAISE raises a SOFT event with the given cause. -/
  | softEventRaise (m : Master) (h : Half) (v : Word)
  /-- UNFENCE (R416): A write to REF_UNFENCE lifts a Rotation requester's fence at the next boundary. -/
  | unfence (m : Master) (h : Half) (v : Word)
  /-- REQUAL_START (R428): A write of 1 to REF_REQUAL.START runs the pair in shadow for 1,000 Transits. -/
  | requalStart (m : Master) (h : Half) (bank : Bool)
  /-- REQUAL_END (R428): The requalification run passes and ends control hold, or fails. -/
  | requalEnd (h : Half) (selfTest : Bool)
  /-- ALIVE_TOGGLE (R422): In alive modes ALERT_L falls and rises at boundaries at 1 kHz. -/
  | aliveToggle (h : Half)
  /-- AGEING_MEASURE (R432): Once per million Transits the ring oscillator slowdown is measured. -/
  | ageingMeasure (h : Half) (slow : BitVec 16)
  /-- PLATE_LATCH (R441): A due plate latches every counter at the boundary and begins its writes. -/
  | plateLatch (h : Half)
  /-- PLATE_HEADER_WRITE (R444): Once every body line is acknowledged the header line is written at the next boundary. -/
  | plateHeaderWrite (h : Half)
  /-- BW_WINDOW_CLOSE (R446): At each 2^WEXP boundary the bandwidth registers take the window's averages. -/
  | bwWindowClose (h : Half)
  /-- PORT_PROMOTE (R466): A write of 1 to an MRD_PROMOTE bit withholds non-posted grants to the port's sub-ports. -/
  | portPromote (m : Master) (p : BitVec 5)
  /-- PROMOTE_RATE_CHANGE (R466): When drained or after 2 ms the sub-port is directed to its highest rate. -/
  | promoteRateChange (p : BitVec 5) (k : BitVec 2)
  /-- HANDOVER_REQUEST (R477): A write of 1 to OBS_CTL.HANDOVER starts a planned handover or is refused. -/
  | handoverRequest (m : Master) (h : Half)
  /-- HANDOVER_DONE (R477): The standby becomes primary after the journal is flushed. -/
  | handoverDone
  /-- MCTP_MESSAGE (R480): An assembled MCTP message is accepted into its class queue or answered with an error. -/
  | mctpMessage (b typ code len : Nat) (eid : Option Nat)
  /-- NOP (R501): NOP does nothing for one cycle. -/
  | nop (h : Half) (ecc : Ecc)
  /-- HALT (R47): HALT ends the main program or a handler and empties the loop stack. -/
  | halt (h : Half)
  /-- MOV (R503): MOV copies a register. -/
  | mov (h : Half) (rd rs : Reg)
  /-- MOVS (R502): MOVS copies TN, BC, HALF or SPLIT into a register. -/
  | movs (h : Half) (rd : Reg) (sel : Special)
  /-- MOVI (R503): MOVI loads an immediate. -/
  | movi (h : Half) (rd : Reg) (x : Imm)
  /-- ADD (R503): ADD adds two registers and sets flags. -/
  | add (h : Half) (rd rs rt : Reg)
  /-- SUB (R503): SUB subtracts two registers and sets flags. -/
  | sub (h : Half) (rd rs rt : Reg)
  /-- AND (R503): AND combines two registers bitwise. -/
  | tand (h : Half) (rd rs rt : Reg)
  /-- OR (R503): OR combines two registers bitwise. -/
  | tor (h : Half) (rd rs rt : Reg)
  /-- XOR (R503): XOR combines two registers bitwise. -/
  | txor (h : Half) (rd rs rt : Reg)
  /-- SHL (R503): SHL shifts a register left. -/
  | shl (h : Half) (rd rs rt : Reg)
  /-- SHR (R503): SHR shifts a register right with zero fill. -/
  | shr (h : Half) (rd rs rt : Reg)
  /-- SAR (R503): SAR shifts a register right with sign fill. -/
  | sar (h : Half) (rd rs rt : Reg)
  /-- CMP (R503): CMP subtracts two registers for the flags only. -/
  | cmp (h : Half) (rs rt : Reg)
  /-- TST (R503): TST ANDs two registers for the flags only. -/
  | tst (h : Half) (rs rt : Reg)
  /-- MUL (R503): MUL multiplies two registers in 4 cycles. -/
  | mul (h : Half) (rd rs rt : Reg)
  /-- ADDI (R503): ADDI adds an immediate. -/
  | addi (h : Half) (rd rs : Reg) (x : Imm)
  /-- SUBI (R503): SUBI subtracts an immediate. -/
  | subi (h : Half) (rd rs : Reg) (x : Imm)
  /-- ANDI (R503): ANDI ANDs an immediate. -/
  | andi (h : Half) (rd rs : Reg) (x : Imm)
  /-- ORI (R503): ORI ORs an immediate. -/
  | ori (h : Half) (rd rs : Reg) (x : Imm)
  /-- XORI (R503): XORI XORs an immediate. -/
  | xori (h : Half) (rd rs : Reg) (x : Imm)
  /-- SHLI (R503): SHLI shifts left by an immediate. -/
  | shli (h : Half) (rd rs : Reg) (n : BitVec 6)
  /-- SHRI (R503): SHRI shifts right by an immediate with zero fill. -/
  | shri (h : Half) (rd rs : Reg) (n : BitVec 6)
  /-- SARI (R503): SARI shifts right by an immediate with sign fill. -/
  | sari (h : Half) (rd rs : Reg) (n : BitVec 6)
  /-- CMPI (R503): CMPI compares a register with an immediate. -/
  | cmpi (h : Half) (rs : Reg) (x : Imm)
  /-- TSTI (R503): TSTI tests a register against an immediate. -/
  | tsti (h : Half) (rs : Reg) (x : Imm)
  /-- BFX (R503): BFX extracts a bit field. -/
  | bfx (h : Half) (rd rs : Reg) (pos len1 : BitVec 6)
  /-- BFI (R503): BFI inserts a bit field. -/
  | bfi (h : Half) (rd rs : Reg) (pos len1 : BitVec 6)
  /-- LD_CS (R506): LD with S clear loads one or two CS words at a fixed cost. -/
  | ldCs (h : Half) (rd rs : Reg) (nobase d : Bool) (x : Imm) (late : Bool)
  /-- LD_SCRATCH (R506): LD with S set loads a scratch word. -/
  | ldScratch (h : Half) (rd rs : Reg) (nobase d : Bool) (off : BitVec 14) (ecc : Ecc)
  /-- ST_CS (R506): ST with S clear holds a CS store until the seal. -/
  | stCs (h : Half) (rd rs : Reg) (nobase d : Bool) (x : Imm)
  /-- ST_SCRATCH (R506): ST with S set holds a scratch store until the seal. -/
  | stScratch (h : Half) (rd rs : Reg) (nobase d : Bool) (off : BitVec 14)
  /-- SMP (R509): SMP reads one value of a channel's last sample record. -/
  | smp (h : Half) (rd rs : Reg) (k : BitVec 14)
  /-- BRANCH (R504): Bcc branches forward when its condition holds. -/
  | branch (h : Half) (cond : BitVec 4) (off : BitVec 14)
  /-- LOOP (R505): LOOP pushes a counted loop onto the loop stack. -/
  | loop (h : Half) (len : BitVec 12) (count : BitVec 14)
  /-- ENDL (R505): ENDL decrements the innermost loop count and loops or falls through. -/
  | endl (h : Half)
  /-- REFILL (R322): REFILL copies n staged shaper rows to commit at the seal. -/
  | refill (h : Half) (rs : Reg) (n : BitVec 14)
  /-- FENCE (R313): FENCE sets Z when no older-generation access is in flight and C when not UP. -/
  | fence (h : Half) (rs : Reg)
  /-- PLATE (R512): PLATE requests a plate with a tag at the next boundary. -/
  | plate (h : Half) (tag : BitVec 8)
  /-- SCAN (R511): SCAN reads a field of n channels' sample records as levels or changes. -/
  | scan (h : Half) (rd rs : Reg) (n : BitVec 14)
  /-- ARM (R514): ARM commits n alarm rows from scratch. -/
  | arm (h : Half) (rs : Reg) (n : BitVec 14)
  /-- SEND (R513): SEND holds a message of registers for the outbox until the seal. -/
  | send (h : Half) (rs : Reg) (n : BitVec 14)
  /-- ALARM_FIRE (R514): An armed alarm whose delay expires fires at its boundary and sets its TRP_ALARM bit. -/
  | alarmFire (h : Half) (a : BitVec 5)
  /-- OBOX_HEAD_WRITE (R513): A HEAD write consumes outbox entries or is discarded. -/
  | oboxHeadWrite (m : Master) (h : Half) (v : Word)
  /-- REFERENCE_RESTORED (R82): The clock monitor finds a lost reference present and in range again and sets its A_OK or B_OK. -/
  | referenceRestored (r : BitVec 1)
  /-- LINK_RECOVERY (R91): A sub-port enters Recovery because the partner directs it or link errors force it, counting RECOV_CNT and aborting an eye scan with reason LINK. -/
  | linkRecovery (p : BitVec 5) (k : BitVec 2) (why : Option LinkAsk)
  /-- L0P_WIDTH_CHANGED (R93): An L0p width change finishes and the active width AWIDTH takes its new value. -/
  | l0pWidthChanged (p : BitVec 5) (k : BitVec 2)
  /-- WIRE_REMAP_DONE (R171): A Coudé group finishes its remap to a spare, narrower or wider set of wires and starts sending flits again. -/
  | wireRemapDone (h : Half) (g : BitVec 3)
  /-- AUXILIARY_FEED_GOOD (R397): An auxiliary feed rises above AUX_UV while no auxiliary feed is supplying the output, and Kezen turns that feed on. -/
  | auxiliaryFeedGood (c : BitVec 5) (feed : BitVec 1)
  /-- SHUTTER_LINK_LOST (R406): A half's Shutter link is lost, so its channels keep their state and no power row is applied. -/
  | shutterLinkLost (h : Half)
  /-- SHUTTER_LINK_RESTORED (R406): A lost Shutter link returns, and power rows for its channels can be applied again. -/
  | shutterLinkRestored (h : Half)
  /-- LOOPBACK_REFUSED (R95): A partner's Loopback direction is not followed and is counted. -/
  | loopbackRefused (p : BitVec 5) (k : BitVec 2)
  /-- BOTH_REFERENCES_LOST (R84): Loss of both references leaves PLLs in holdover and raises a fatal clock event. -/
  | bothReferencesLost
  /-- FM_IDENTIFY (R205): The FM API Identify command returns Kezen's identity. -/
  | fmIdentify (cci : Nat)
  /-- FM_BACKGROUND_OPERATION_STATUS (R206): Background Operation Status reports the running background operation's outcome. -/
  | fmBackgroundOperationStatus (cci : Nat)
  /-- FM_GET_RESPONSE_MESSAGE_LIMIT (R205): Get Response Message Limit returns the response limit. -/
  | fmGetResponseMessageLimit (cci : Nat)
  /-- FM_SET_RESPONSE_MESSAGE_LIMIT (R205): Set Response Message Limit sets the response limit. -/
  | fmSetResponseMessageLimit (cci n : Nat)
  /-- FM_REQUEST_ABORT_BACKGROUND_OP (R206): Request Abort Background Operation sets the row's CANCEL and R204 decides. -/
  | fmRequestAbortBackgroundOp (cci : Nat)
  /-- FM_GET_EVENT_RECORDS (R205): Get Event Records returns event records including port and slot events. -/
  | fmGetEventRecords (cci : Nat)
  /-- FM_CLEAR_EVENT_RECORDS (R205): Clear Event Records clears event records. -/
  | fmClearEventRecords (cci : Nat) (all : Bool) (n : Nat)
  /-- FM_GET_EVENT_INTERRUPT_POLICY (R205): Get Event Interrupt Policy returns the policy. -/
  | fmGetEventInterruptPolicy (cci : Nat)
  /-- FM_SET_EVENT_INTERRUPT_POLICY (R205): Set Event Interrupt Policy sets the policy. -/
  | fmSetEventInterruptPolicy (cci w : Nat)
  /-- FM_IDENTIFY_SWITCH_DEVICE (R205): Identify Switch Device returns the switch description. -/
  | fmIdentifySwitchDevice (cci : Nat)
  /-- FM_GET_PHYSICAL_PORT_STATE (R205): Get Physical Port State returns the state of physical ports. -/
  | fmGetPhysicalPortState (cci : Nat) (ps : List (BitVec 5))
  /-- PPC_ASSERT_PERST (R214): Physical Port Control assert PERST drives SLOT_PERST_L of the port low. -/
  | ppcAssertPerst (cci : Nat) (p : BitVec 5)
  /-- PPC_DEASSERT_PERST (R214): Physical Port Control deassert PERST releases the FM's hold on SLOT_PERST_L. -/
  | ppcDeassertPerst (cci : Nat) (p : BitVec 5)
  /-- PPC_RESET_PPB (R205): Physical Port Control Reset PPB takes the sub-port to Detect. -/
  | ppcResetPpb (cci : Nat) (p : BitVec 5) (k : BitVec 2)
  /-- FM_SEND_PPB_CONFIG_REQUEST (R205): Send PPB CXL.io Configuration Request performs a configuration access on a PPB. -/
  | fmSendPpbConfigRequest (cci : Nat) (p : BitVec 5) (k : BitVec 2) (wr : Bool) (off data : Nat)
  /-- FM_GET_VCS_INFO (R205): Get Virtual CXL Switch Info returns VCS information. -/
  | fmGetVcsInfo (cci : Nat) (t : BitVec 6)
  /-- BIND_VPPB (R206): Bind vPPB stages a binding row and runs as a background operation. -/
  | bindVppb (cci : Nat) (t : BitVec 6) (v : BitVec 5) (p : BitVec 5) (k : BitVec 2) (ld : Option (BitVec 4)) (n : BitVec 6) (tk : BitVec 16)
  /-- UNBIND_VPPB_WAIT_LINK_DOWN (R209): Unbind vPPB with wait for port link down commits the UNBIND when the sub-port next goes down. -/
  | unbindVppbWaitLinkDown (cci : Nat) (t : BitVec 6) (v : BitVec 5) (n : BitVec 6) (tk : BitVec 16)
  /-- UNBIND_VPPB_MANAGED (R209): Unbind vPPB as a managed hot-remove reports presence loss and waits for the host or HP_WAIT. -/
  | unbindVppbManaged (cci : Nat) (t : BitVec 6) (v : BitVec 5) (n : BitVec 6) (tk : BitVec 16)
  /-- UNBIND_VPPB_SURPRISE (R209): Unbind vPPB as a surprise hot-remove reports both changes and commits at once. -/
  | unbindVppbSurprise (cci : Nat) (t : BitVec 6) (v : BitVec 5) (n : BitVec 6) (tk : BitVec 16)
  /-- FM_GENERATE_AER_EVENT (R205): Generate AER Event produces an AER event on a vPPB. -/
  | fmGenerateAerEvent (cci : Nat) (t v : BitVec 6) (kind : Nat)
  /-- FM_TUNNEL_MANAGEMENT_COMMAND (R205): Tunnel Management Command is passed to the device on the sub-port. -/
  | fmTunnelManagementCommand (cci : Nat) (p : BitVec 5) (k : BitVec 2) (payload : List Nat)
  /-- FM_SEND_LD_CONFIG_REQUEST (R205): Send LD CXL.io Configuration Request is passed to the LD. -/
  | fmSendLdConfigRequest (cci : Nat) (p : BitVec 5) (k : BitVec 2) (ld : BitVec 4) (payload : List Nat)
  /-- FM_SEND_LD_MEMORY_REQUEST (R205): Send LD CXL.io Memory Request is passed to the LD. -/
  | fmSendLdMemoryRequest (cci : Nat) (p : BitVec 5) (k : BitVec 2) (ld : BitVec 4) (payload : List Nat)
  /-- FM_TUNNELLED_COMMAND (R205): MLD component, multi-headed and other DCD commands are tunnelled to the device unchanged. -/
  | fmTunnelledCommand (cci code : Nat) (p : BitVec 5) (k : BitVec 2) (payload : List Nat)
  /-- INITIATE_DYNAMIC_CAPACITY_ADD (R207): Kezen commits an extent BIND row before forwarding the add to the device. -/
  | initiateDynamicCapacityAdd (cci : Nat) (t : BitVec 6) (p : BitVec 5) (k : BitVec 2) (ld : BitVec 4) (base len : Nat) (share : Bool) (n : BitVec 6) (tk : BitVec 16)
  /-- INITIATE_DYNAMIC_CAPACITY_RELEASE (R207): Kezen forwards the release and commits the extent UNBIND after the device reports it released. -/
  | initiateDynamicCapacityRelease (cci : Nat) (done : Bool) (t : BitVec 6) (p : BitVec 5) (k : BitVec 2) (ld : BitVec 4) (base len : Nat) (n : BitVec 6) (tk : BitVec 16)
  /-- FM_PBR_COMMAND (R205): A mandatory port-based-routing command is handled as the standard defines. -/
  | fmPbrCommand (cci code : Nat) (mandatory : Bool) (tbl idx : Nat) (v : Option Nat)
  /-- FM_UNSUPPORTED_COMMAND (R205): Any other FM API command returns Unsupported. -/
  | fmUnsupportedCommand (cci code : Nat)
  /-- GET_BINDING_STATE (R208): Vendor command 0xC000 returns a tenant's live bindings and extents. -/
  | getBindingState (cci : Nat) (t : BitVec 6)
  /-- STAGE_BINDING_ROWS (R208): Vendor command 0xC001 writes binding rows with an optional earliest Transit. -/
  | stageBindingRows (cci : Nat) (t : BitVec 6) (rows : List (BitVec 6 × List Word)) (tk : BitVec 16) (at_ : Option Nat)
  /-- GET_SLOT_STATE (R208): Vendor command 0xC011 returns slot and Shutter channel state. -/
  | getSlotState (cci : Nat) (p : BitVec 5)
  /-- TENANT_RESET_COMMAND (R208): Vendor command 0xC020 starts a tenant reset. -/
  | tenantResetCommand (cci : Nat) (t : BitVec 6)
  /-- GET_TENANT_STATE (R208): Vendor command 0xC021 returns SF_TEN_STAT and SF_TEN_ERRCNT. -/
  | getTenantState (cci : Nat) (t : BitVec 6)
  /-- SET_SWITCH_CCI_TENANT (R208): Vendor command 0xC022 writes FM_CCI of one tenant. -/
  | setSwitchCciTenant (cci : Nat) (t : BitVec 6) (on : Bool)
  /-- FM_CCI_WRITE (R208): Setting SF_TEN_CTL.FM_CCI in one tenant clears it in every other. -/
  | fmCciWrite (m : Master) (t : BitVec 6) (v : Word)
  /-- ALERT_PULSE_END (R421): 2 µs after the last alerting request ALERT_L follows HOLD. -/
  | alertPulseEnd
  /-- ALERT_RESUME (R422): A write of 1 to STOPPED resumes the alive toggle at its next edge. -/
  | alertResume (m : Master)
  /-- ALERT_MODE_WRITE (R423): A write to MRD_ALERT_CTL.MODE changes the ALERT_L mode. -/
  | alertModeWrite (m : Master) (mode : BitVec 2)
  /-- LIFE_COUNT_UPDATE (R431): At every millionth Transit MRD_LIFE rises by 10 or 16. -/
  | lifeCountUpdate
  /-- DOME_POWER_UP (R448): The standby feed rising after a loss resets all state. -/
  | domePowerUp
  /-- DOME_START (R450): With standby good for 1 ms the Dome starts and begins the alive toggle. -/
  | domeStart
  /-- STRAP_SAMPLE (R452): The straps are sampled 2 ms after the Dome starts and at each POR_L rise. -/
  | strapSample (prim boot auto_ finder : Bool) (i3c : BitVec 3)
  /-- POR_RESET (R448): POR_L low for 10 µs causes a cold reset. -/
  | porReset
  /-- COLD_RESET (R448): A write of 1 to MRD_RST_CTL.COLD causes a cold reset. -/
  | coldReset (m : Master)
  /-- WARM_RESET (R448): A write of 1 to MRD_RST_CTL.WARM resets and reboots both halves. -/
  | warmReset (m : Master)
  /-- RAIL_GO (R455): A write of 1 to MRD_PWR_CTL.GO starts or restarts the rail sequence. -/
  | railGo (m : Master)
  /-- RAIL_DOWN_WRITE (R457): A write of 1 to MRD_PWR_CTL.DOWN takes the rails down. -/
  | railDownWrite (m : Master)
  /-- RAIL_ENABLE_NEXT (R454): After PWR_GOOD[n] has held for GAP ms, rail n + 1 is enabled. -/
  | railEnableNext (n : BitVec 3)
  /-- RAIL_PG_TIMEOUT (R455): A rail not good within PG_TMO fails the sequence. -/
  | railPgTimeout (n : BitVec 3)
  /-- RAIL_RETRY (R455): 1 s after a failed sequence the Dome tries again or enters LOCKOUT. -/
  | railRetry
  /-- PWR_GOOD_FALL (R457): A PWR_GOOD falling with its rail enabled takes the rails down and sets FAULT. -/
  | pwrGoodFall (n : BitVec 3)
  /-- STANDBY_LOW (R529): VSTBY_12 below 10.5 V for 10 µs raises POWER cause 1. -/
  | standbyLow
  /-- DOME_STOP (R529): VSTBY_12 below 9.0 V stops the Dome. -/
  | domeStop
  /-- DOME_I3C_ACCESS (R451): Before the halves run the Dome serves device global block accesses on I3C bus 0. -/
  | domeI3cAccess (a : Nat) (w : Option Word)
  /-- HALVES_RELEASE (R458): 1 ms after main power good both halves leave reset and the Meridians start. -/
  | halvesRelease
  /-- BOOT_IMAGE_CHECK (R459): The boot ROM checks and boots the preferred or the other flash image. -/
  | bootImageCheck (ra rb : BitVec 3) (va vb : BitVec 16)
  /-- UART_IMAGE_LOAD (R460): A signed image received by the UART loader is checked and booted. -/
  | uartImageLoad (r : BitVec 3) (v : BitVec 16)
  /-- FINDER_REQUEST (R462): A write of 1 to MRD_SVC_CTL.FINDER begins Finder service at the next boundary. -/
  | finderRequest (m : Master)
  /-- HBM_TRAINING_DONE (R465): An HBM stack training ends, or after three failures leaves the device in Finder. -/
  | hbmTrainingDone (h : Half) (ok : Bool)
  /-- TRIM_REQUEST (R465): A write of 1 to MRD_SVC_CTL.TRIM applies the fused Shutter trims at the next boundary. -/
  | trimRequest (m : Master)
  /-- OBS_WATCHDOG_KICK (R476): A write of 1 to OBS_WDOG.KICK restarts the cluster's watchdog. -/
  | obsWatchdogKick (m : Master) (h : Half)
  /-- OBS_WATCHDOG_EXPIRY (R476): An expired watchdog holds the cluster in reset and fails over to the standby. -/
  | obsWatchdogExpiry (h : Half)
  /-- CLUSTER_RESTART_DONE (R476): A restarted cluster becomes standby and STANDBY_READY sets. -/
  | clusterRestartDone (h : Half)
  /-- JOURNAL_REBUILD_DONE (R475): After a split the standby's journal is rebuilt and JOURNAL_OK sets. -/
  | journalRebuildDone
  /-- SPDM_MESSAGE (R481): An SPDM or IDE_KM message is served in Kezen's responder or requester role. -/
  | spdmMessage (pl : SpdmPlace) (q : SpdmReq)
  /-- GET_FW_INFO (R488): Get FW Info returns the firmware slots. -/
  | getFwInfo (cci : Nat)
  /-- TRANSFER_FW (R488): Transfer FW writes the image to the slot not running. -/
  | transferFw (cci slot off len : Nat) (last : Bool) (v : BitVec 16)
  /-- ACTIVATE_FW (R489): Activate FW checks the image and activates it online or at the next cold reset. -/
  | activateFw (cci slot : Nat) (online : Bool) (r : BitVec 3) (v : BitVec 16) (compat : Bool)
  /-- COMMIT_SECURITY_VERSION (R490): Vendor command 0xC032 raises the fused minimum security version. -/
  | commitSecurityVersion (cci : Nat) (v : BitVec 16)
  /-- DBG_NONCE_READ (R491): A read of MRD_DBG_NONCE(0) draws a fresh nonce. -/
  | dbgNonceRead (m : Master)
  /-- DBG_AUTH_SIGNATURE (R491): A shifted-in signature authenticates debug or counts a failure. -/
  | dbgAuthSignature (good : Bool)
  /-- DBG_DEAUTH (R491): A write of 1 to MRD_DBG_CTL.DEAUTH ends debug authentication. -/
  | dbgDeauth (m : Master)
  /-- JTAG_IDCODE (R492): The IDCODE instruction returns the stepping's ID code. -/
  | jtagIdcode
  /-- JTAG_BYPASS (R492): The BYPASS instruction selects the bypass register. -/
  | jtagBypass
  /-- JTAG_SAMPLE_PRELOAD (R492): SAMPLE/PRELOAD samples or preloads the boundary scan cells. -/
  | jtagSamplePreload (balls cells : List Bool)
  /-- JTAG_EXTEST (R492): EXTEST drives the boundary when authenticated in DOME or RAILS. -/
  | jtagExtest
  /-- JTAG_CLAMP (R492): CLAMP holds the boundary when authenticated in DOME or RAILS. -/
  | jtagClamp
  /-- JTAG_HIGHZ (R492): HIGHZ floats outputs when authenticated in DOME or RAILS. -/
  | jtagHighz
  /-- DBG_CORE_CONTROL (R492): Halt, step and abstract commands act on standby Observer cores when authenticated. -/
  | dbgCoreControl (h : Half) (c : BitVec 2) (op : CoreOp)
  /-- FREEZE (R493): FREEZE_L accepted stops the clocks of both halves and both stacks. -/
  | freeze
  /-- FREEZE_SCAN (R495): The FREEZE_SCAN instruction shifts the freeze set out on TDO. -/
  | freezeScan
  deriving DecidableEq, Repr

end Sys2Proof
end

