-- ==== Sys2Proof/Decode.lean ====
section
/-! DEFINITION. The opcode table of this block gives no row any bits, so no word spells a command
(`decodeTableWord`). The Tirop rows do have words of their own in the spec (R499-R501): this file holds their
decoder, total on any pair of words, and the encoder written from the same table. -/

namespace Sys2Proof

/-- The command that a word spells by the table's bits: the table gives no bits, so none. -/
def decodeTableWord (_nbits _w : Nat) : Option Instr := none

/-- The fields of an instruction word (spec 18, "Instruction words"). -/
def fOp (w : Word) : BitVec 6 := w.extractLsb' 26 6
def fRd (w : Word) : Reg := w.extractLsb' 22 4
def fRs (w : Word) : Reg := w.extractLsb' 18 4
def fRt (w : Word) : Reg := w.extractLsb' 14 4
def fImm (w : Word) : BitVec 14 := w.extractLsb' 0 14
/-- The mode bits M of the I-form: X, then the three bits per instruction. -/
def fX (w : Word) : Bool := w.getLsbD 17
def fM (w : Word) : BitVec 3 := w.extractLsb' 14 3
/-- The constant word of an X-form carries K[25:0] (R500). -/
def fK (w : Word) : BitVec 26 := w.extractLsb' 0 26

/-- A word from its fields. -/
def mkWord (op : BitVec 6) (rd rs rt : Reg) (imm : BitVec 14) : Word := op ++ rd ++ rs ++ rt ++ imm

/-- The rt field of the I-form: X and the bits per instruction. -/
def mkM (x : Bool) (m : BitVec 3) : Reg := BitVec.ofBool x ++ m

/-- A constant word (R500). -/
def mkConst (k : BitVec 40) : Word := (0x3F : BitVec 6) ++ (k.extractLsb' 0 26 : BitVec 26)

/-- The immediate of an I-form instruction that allows the X-form; in the X-form the next word must be a
constant word, or the fetch is ILLEGAL (R500). -/
def decImm (w nxt : Word) : Option Imm :=
  if fX w then
    if fOp nxt = 0x3F then some (.x (fImm w ++ fK nxt)) else none
  else some (.short (fImm w))


/-- An X-form instruction with no other mode bits.
[log 19, DEDUCED] -/
def decI (w nxt : Word) (f : Imm → Instr) : Option Instr :=
  if fM w = 0 then (decImm w nxt).map f else none

/-- A shift by an immediate: no X-form, imm[13:6] zero (R503). -/
def decSh (w : Word) (f : BitVec 6 → Instr) : Option Instr :=
  if fRt w = 0 ∧ (fImm w).extractLsb' 6 8 = 0 then some (f ((fImm w).extractLsb' 0 6)) else none

/-- BFX and BFI: imm[13:12] zero, pos in [11:6], len - 1 in [5:0], pos + len at most 64 (R503). -/
def decBf (w : Word) (f : BitVec 6 → BitVec 6 → Instr) : Option Instr :=
  let pos := (fImm w).extractLsb' 6 6
  let len1 := (fImm w).extractLsb' 0 6
  if fRt w = 0 ∧ (fImm w).extractLsb' 12 2 = 0 ∧ pos.toNat + len1.toNat + 1 ≤ 64 then some (f pos len1) else none

/-- A table instruction that names rows: rd and rt fields zero. -/
def decRows (w : Word) (f : Reg → BitVec 14 → Instr) : Option Instr :=
  if fRd w = 0 ∧ fRt w = 0 then some (f (fRs w) (fImm w)) else none

/-- An R-form instruction: the immediate is zero (R499).
[log 19, DEDUCED] -/
def decR (w : Word) (i : Instr) : Option Instr := if fImm w = 0 then some i else none

/-- An instruction whose every field is zero. -/
def decZero (w : Word) (i : Instr) : Option Instr :=
  if w.extractLsb' 0 26 = 0 then some i else none

/-- The word of a special value (R502). -/
def decSpecial (v : BitVec 14) : Option Special :=
  if v = 0 then some .tn else if v = 1 then some .bc else if v = 2 then some .half
  else if v = 3 then some .split else none

/-- The Tirop instruction that the words `w` and `nxt` (the word after it) spell in half `h` (R499-R513);
`none` is an ILLEGAL fault (R515). What the environment adds to a command (an ECC outcome, late data) is
the clean one.
[log 19, DEDUCED] -/
def decodeTirop (h : Half) (w nxt : Word) : Option Instr :=
  let rd := fRd w
  let rs := fRs w
  let rt := fRt w
  match (fOp w).toNat with
  | 0x01 => decZero w (.nop h .clean)
  | 0x02 => decZero w (.halt h)
  | 0x04 => decR w (.mov h rd rs)
  | 0x05 => if fRt w = 0 then (decSpecial (fImm w)).map (.movs h rd) else none
  | 0x06 => decI w nxt (.movi h rd)
  | 0x08 => decR w (.add h rd rs rt)
  | 0x09 => decR w (.sub h rd rs rt)
  | 0x0A => decR w (.tand h rd rs rt)
  | 0x0B => decR w (.tor h rd rs rt)
  | 0x0C => decR w (.txor h rd rs rt)
  | 0x0D => decR w (.shl h rd rs rt)
  | 0x0E => decR w (.shr h rd rs rt)
  | 0x0F => decR w (.sar h rd rs rt)
  | 0x10 => if rd = 0 then decR w (.cmp h rs rt) else none
  | 0x11 => if rd = 0 then decR w (.tst h rs rt) else none
  | 0x12 => decR w (.mul h rd rs rt)
  | 0x18 => decI w nxt (.addi h rd rs)
  | 0x19 => decI w nxt (.subi h rd rs)
  | 0x1A => decI w nxt (.andi h rd rs)
  | 0x1B => decI w nxt (.ori h rd rs)
  | 0x1C => decI w nxt (.xori h rd rs)
  | 0x1D => decSh w (.shli h rd rs)
  | 0x1E => decSh w (.shri h rd rs)
  | 0x1F => decSh w (.sari h rd rs)
  | 0x20 => if rd = 0 then decI w nxt (.cmpi h rs) else none
  | 0x21 => if rd = 0 then decI w nxt (.tsti h rs) else none
  | 0x22 => decBf w (.bfx h rd rs)
  | 0x23 => decBf w (.bfi h rd rs)
  | 0x24 =>
    if (fM w).getLsbD 2 then
      if fX w then none else some (.ldScratch h rd rs ((fM w).getLsbD 1) ((fM w).getLsbD 0) (fImm w) .clean)
    else (decImm w nxt).map fun x => .ldCs h rd rs ((fM w).getLsbD 1) ((fM w).getLsbD 0) x false
  | 0x25 =>
    if (fM w).getLsbD 2 then
      if fX w then none else some (.stScratch h rd rs ((fM w).getLsbD 1) ((fM w).getLsbD 0) (fImm w))
    else (decImm w nxt).map fun x => .stCs h rd rs ((fM w).getLsbD 1) ((fM w).getLsbD 0) x
  | 0x26 => if rt = 0 then some (.smp h rd rs (fImm w)) else none
  | 0x28 => if rs = 0 ∧ rt = 0 ∧ rd ≠ 15 then some (.branch h rd (fImm w)) else none
  | 0x29 => some (.loop h (w.extractLsb' 14 12) (fImm w))
  | 0x2A => decZero w (.endl h)
  | 0x30 => decRows w (.refill h)
  | 0x31 => decRows w (.bind h)
  | 0x32 => decRows w (.unbind h)
  | 0x33 => decRows w (.shut h)
  | 0x34 => if rd = 0 ∧ rt = 0 ∧ fImm w = 0 then some (.fence h rs) else none
  | 0x35 => if rt = 0 ∧ fImm w = 1 then some (.plate h (w.extractLsb' 18 8)) else none
  | 0x36 => if rt = 0 then some (.scan h rd rs (fImm w)) else none
  | 0x37 => decRows w (.arm h)
  | 0x38 =>
    if rd = 0 ∧ rt = 0 ∧ 1 ≤ (fImm w).toNat ∧ (fImm w).toNat ≤ 6 ∧ rs.toNat + (fImm w).toNat ≤ 16
    then some (.send h rs (fImm w)) else none
  | _ => none

/-- The words of an I-form instruction: one word, or two in the X-form (R500). -/
def encI (op : BitVec 6) (rd rs : Reg) (m : BitVec 3) (x : Imm) : List Word :=
  match x with
  | .short v => [mkWord op rd rs (mkM false m) v]
  | .x k => [mkWord op rd rs (mkM true m) (k.extractLsb' 26 14), mkConst k]

/-- The mode bits of a load or store: S, NOBASE, D (R506). -/
def mkSND (sc nb d : Bool) : BitVec 3 := BitVec.ofBool sc ++ BitVec.ofBool nb ++ BitVec.ofBool d

/-- The code of a special value (R502). -/
def encSpecial : Special → BitVec 14
  | .tn => 0
  | .bc => 1
  | .half => 2
  | .split => 3

/-- The words of a Tirop instruction, written from R499-R513; a command that is no Tirop instruction has
none. -/
def encodeTirop : Instr → List Word
  | .nop _ _ => [mkWord 0x01 0 0 0 0]
  | .halt _ => [mkWord 0x02 0 0 0 0]
  | .mov _ rd rs => [mkWord 0x04 rd rs 0 0]
  | .movs _ rd sel => [mkWord 0x05 rd 0 0 (encSpecial sel)]
  | .movi _ rd x => encI 0x06 rd 0 0 x
  | .add _ rd rs rt => [mkWord 0x08 rd rs rt 0]
  | .sub _ rd rs rt => [mkWord 0x09 rd rs rt 0]
  | .tand _ rd rs rt => [mkWord 0x0A rd rs rt 0]
  | .tor _ rd rs rt => [mkWord 0x0B rd rs rt 0]
  | .txor _ rd rs rt => [mkWord 0x0C rd rs rt 0]
  | .shl _ rd rs rt => [mkWord 0x0D rd rs rt 0]
  | .shr _ rd rs rt => [mkWord 0x0E rd rs rt 0]
  | .sar _ rd rs rt => [mkWord 0x0F rd rs rt 0]
  | .cmp _ rs rt => [mkWord 0x10 0 rs rt 0]
  | .tst _ rs rt => [mkWord 0x11 0 rs rt 0]
  | .mul _ rd rs rt => [mkWord 0x12 rd rs rt 0]
  | .addi _ rd rs x => encI 0x18 rd rs 0 x
  | .subi _ rd rs x => encI 0x19 rd rs 0 x
  | .andi _ rd rs x => encI 0x1A rd rs 0 x
  | .ori _ rd rs x => encI 0x1B rd rs 0 x
  | .xori _ rd rs x => encI 0x1C rd rs 0 x
  | .shli _ rd rs n => [mkWord 0x1D rd rs 0 ((0 : BitVec 8) ++ n)]
  | .shri _ rd rs n => [mkWord 0x1E rd rs 0 ((0 : BitVec 8) ++ n)]
  | .sari _ rd rs n => [mkWord 0x1F rd rs 0 ((0 : BitVec 8) ++ n)]
  | .cmpi _ rs x => encI 0x20 0 rs 0 x
  | .tsti _ rs x => encI 0x21 0 rs 0 x
  | .bfx _ rd rs pos len1 => [mkWord 0x22 rd rs 0 ((0 : BitVec 2) ++ pos ++ len1)]
  | .bfi _ rd rs pos len1 => [mkWord 0x23 rd rs 0 ((0 : BitVec 2) ++ pos ++ len1)]
  | .ldCs _ rd rs nb d x _ => encI 0x24 rd rs (mkSND false nb d) x
  | .ldScratch _ rd rs nb d off _ => [mkWord 0x24 rd rs (mkM false (mkSND true nb d)) off]
  | .stCs _ rd rs nb d x => encI 0x25 rd rs (mkSND false nb d) x
  | .stScratch _ rd rs nb d off => [mkWord 0x25 rd rs (mkM false (mkSND true nb d)) off]
  | .smp _ rd rs k => [mkWord 0x26 rd rs 0 k]
  | .branch _ cond off => [mkWord 0x28 cond 0 0 off]
  | .loop _ len count => [(0x29 : BitVec 6) ++ len ++ count]
  | .endl _ => [mkWord 0x2A 0 0 0 0]
  | .refill _ rs n => [mkWord 0x30 0 rs 0 n]
  | .bind _ rs n => [mkWord 0x31 0 rs 0 n]
  | .unbind _ rs n => [mkWord 0x32 0 rs 0 n]
  | .shut _ rs n => [mkWord 0x33 0 rs 0 n]
  | .fence _ rs => [mkWord 0x34 0 rs 0 0]
  | .plate _ tag => [(0x35 : BitVec 6) ++ tag ++ (0 : BitVec 4) ++ (1 : BitVec 14)]
  | .scan _ rd rs n => [mkWord 0x36 rd rs 0 n]
  | .arm _ rs n => [mkWord 0x37 0 rs 0 n]
  | .send _ rs n => [mkWord 0x38 0 rs 0 n]
  | _ => []

/-- The command as its words alone give it: what the environment adds at run time (an ECC outcome, data
that came too late) set to the clean one. -/
def Instr.clean : Instr → Instr
  | .nop h _ => .nop h .clean
  | .ldCs h rd rs nb d x _ => .ldCs h rd rs nb d x false
  | .ldScratch h rd rs nb d off _ => .ldScratch h rd rs nb d off .clean
  | i => i

/-- The half whose pair a Tirop instruction runs on; none for another command. -/
def tiropHalf : Instr → Option Half
  | .nop h _ | .halt h | .mov h _ _ | .movs h _ _ | .movi h _ _ | .add h _ _ _ | .sub h _ _ _
  | .tand h _ _ _ | .tor h _ _ _ | .txor h _ _ _ | .shl h _ _ _ | .shr h _ _ _ | .sar h _ _ _
  | .cmp h _ _ | .tst h _ _ | .mul h _ _ _ | .addi h _ _ _ | .subi h _ _ _ | .andi h _ _ _
  | .ori h _ _ _ | .xori h _ _ _ | .shli h _ _ _ | .shri h _ _ _ | .sari h _ _ _ | .cmpi h _ _
  | .tsti h _ _ | .bfx h _ _ _ _ | .bfi h _ _ _ _ | .ldCs h _ _ _ _ _ _ | .ldScratch h _ _ _ _ _ _
  | .stCs h _ _ _ _ _ | .stScratch h _ _ _ _ _ | .smp h _ _ _ | .branch h _ _ | .loop h _ _ | .endl h
  | .refill h _ _ | .bind h _ _ | .unbind h _ _ | .shut h _ _ | .fence h _ | .plate h _ | .scan h _ _ _
  | .arm h _ _ | .send h _ _ => some h
  | _ => none

end Sys2Proof
end

