-- ==== Sys2Proof/Config.lean ====
section
/-! DEFINITION. What the spec leaves open: free values, each a constant with no body, so that no proof can
see its value. -/

namespace Sys2Proof.Config

/-- A choice that the spec leaves to Kezen with no value stated (R105's choice of a free entry, R491's
nonce, R88's search, ...): the step applies it to the state's counter of free values and advances the counter.
[log 5, DESIGN CHOICE] -/
opaque freeNat : Nat → Nat

/-- The UNIT and leaky-count fields of the record of an event that belongs to no unit of R425 (R417 states
neither), by class and cause.
[log 35, DESIGN CHOICE] -/
opaque noUnit : Nat → Nat → Nat

/-- The de-emphasis and the preshoot of a preset at 64 or 128 GT/s, by rate code and preset, in 10^-9 dB (R87): the standard
defines them and the spec does not list them.
[log 98, DESIGN CHOICE] -/
opaque presetDb : Nat → Nat → Int × Int

/-- A result for which the spec states no value, by the place that asks.
[log 5, DESIGN CHOICE] -/
opaque unstated : Nat → Nat

/-- Word k of a staging-ring entry about something, as the Observer's firmware writes it (R64): the spec leaves the meaning of an
entry's bytes to the program and the firmware.
[log 91, DESIGN CHOICE] -/
opaque ringWord : List Nat → Nat → BitVec 32

/-- The SHA-384 digest of a sequence of words (R481), as a number: a function of the words that no statement needs to
evaluate.
[log 108, DESIGN CHOICE] -/
opaque digest : List Nat → Nat

/-- The SECDED code over bits [127:8] of a Catalogue entry (R240): the spec gives its strength and not its matrix.
[log 147, DESIGN CHOICE] -/
opaque secded : BitVec 120 → BitVec 8

end Sys2Proof.Config
end

