-- ==== Sys2Proof/Machine/RegMap.lean ====
section
/-! DEFINITION. The Control Space register map: every register of the spec's register tables, its
address function, its fields (place, width, access type of R6, reset value of R8, RS), and the table
`regTable` by which an address is decoded (R10, R24). A block that the spec keeps in both halves under
one address (the Meridian registers of R30, the Umpire of R26) has its West copy 2^32 above the East
copy; the Service Function registers that a host reaches through BAR0 (R376) stand from 2 * 2^32. -/

namespace Sys2Proof.Machine

/-- The access types of R6 (RS is a flag of the field, not a type). -/
inductive Acc where
  | ro | rw | rw1c | rw1s | wo | rc | rwl
  deriving DecidableEq, Repr

/-- A register field: lowest bit, width, access type, reset value, kept across a warm reset (RS). -/
structure Fld where
  lo : Nat
  width : Nat
  acc : Acc
  reset : Nat
  rs : Bool
  deriving DecidableEq, Repr

/-- A row of the register table: the address of the first instance, the stride and count of each index,
the reset word, the fields, and whether it is the low word of a 64-bit register (R11). -/
structure RegDesc where
  base : Nat
  dims : List (Nat × Nat)
  resetWord : Nat
  flds : List Fld
  lo64 : Bool
  deriving DecidableEq, Repr

/-- A word of a raw table (R9): stored exactly as written. -/
def rawRW : Fld := ⟨0, 32, .rw, 0, false⟩
/-- A word of a table that only Kezen writes. -/
def rawRO : Fld := ⟨0, 32, .ro, 0, false⟩
/-- A word of a table that only Kezen writes and that a warm reset keeps. -/
def rawROS : Fld := ⟨0, 32, .ro, 0, true⟩
/-- Word 2 of a staged row of eight words: STATUS is written by Kezen alone (R199), the rest as written. -/
def rowHigh : Fld := ⟨20, 12, .rw, 0, false⟩
def rowStatus : Fld := ⟨16, 4, .ro, 0, false⟩
def rowTicket : Fld := ⟨0, 16, .rw, 0, false⟩

/-- MRD_NOW_LO: R30 (01). -/
def MRD_NOW_LO (h : Half) : Nat := 0x100 + 0x100000000 * h.idx
def MRD_NOW_LO_NS : Fld := ⟨0, 32, .ro, 0, false⟩
/-- MRD_NOW_HI: R30 (01). -/
def MRD_NOW_HI (h : Half) : Nat := 0x104 + 0x100000000 * h.idx
def MRD_NOW_HI_NS : Fld := ⟨0, 32, .ro, 0, false⟩
/-- MRD_FRAC: R30 (01). -/
def MRD_FRAC (h : Half) : Nat := 0x108 + 0x100000000 * h.idx
def MRD_FRAC_FRAC : Fld := ⟨0, 16, .ro, 0, false⟩
/-- MRD_INC: R30 (01). -/
def MRD_INC (h : Half) : Nat := 0x10c + 0x100000000 * h.idx
def MRD_INC_INC : Fld := ⟨0, 18, .rw, 131072, false⟩
/-- MRD_TN_LO: R30 (01). -/
def MRD_TN_LO (h : Half) : Nat := 0x110 + 0x100000000 * h.idx
def MRD_TN_LO_TN : Fld := ⟨0, 32, .ro, 0, false⟩
/-- MRD_TN_HI: R30 (01). -/
def MRD_TN_HI (h : Half) : Nat := 0x114 + 0x100000000 * h.idx
def MRD_TN_HI_TN : Fld := ⟨0, 32, .ro, 0, false⟩
/-- MRD_SYNC_CTL: R38 (01). -/
def MRD_SYNC_CTL (h : Half) : Nat := 0x120 + 0x100000000 * h.idx
def MRD_SYNC_CTL_OUT_EN : Fld := ⟨3, 1, .rw, 0, false⟩
def MRD_SYNC_CTL_STEP_EN : Fld := ⟨2, 1, .rw, 0, false⟩
def MRD_SYNC_CTL_ROLE : Fld := ⟨0, 2, .rw, 0, false⟩
/-- MRD_SYNC_DLY: R38 (01). -/
def MRD_SYNC_DLY (h : Half) : Nat := 0x124 + 0x100000000 * h.idx
def MRD_SYNC_DLY_DLY : Fld := ⟨0, 16, .rw, 0, false⟩
/-- MRD_SYNC_STAT: R38 (01). -/
def MRD_SYNC_STAT (h : Half) : Nat := 0x128 + 0x100000000 * h.idx
def MRD_SYNC_STAT_ERR : Fld := ⟨16, 16, .ro, 0, false⟩
def MRD_SYNC_STAT_STEPPED : Fld := ⟨3, 1, .rw1c, 0, false⟩
def MRD_SYNC_STAT_CRC_ERR : Fld := ⟨2, 1, .rw1c, 0, false⟩
def MRD_SYNC_STAT_LOSS : Fld := ⟨1, 1, .rw1c, 0, false⟩
def MRD_SYNC_STAT_LOCKED : Fld := ⟨0, 1, .ro, 0, false⟩
/-- TRP_CTL: R68 (02). -/
def TRP_CTL (h : Half) : Nat := 0xb030000 + 0x800000 * h.idx
def TRP_CTL_SEL : Fld := ⟨1, 1, .rw, 0, false⟩
def TRP_CTL_RUN : Fld := ⟨0, 1, .rw, 0, false⟩
/-- TRP_STAT: R68 (02). -/
def TRP_STAT (h : Half) : Nat := 0xb030004 + 0x800000 * h.idx
def TRP_STAT_LAST_BC : Fld := ⟨12, 10, .ro, 0, false⟩
def TRP_STAT_HOLD : Fld := ⟨3, 1, .ro, 0, false⟩
def TRP_STAT_MISMATCH : Fld := ⟨2, 1, .rw1c, 0, false⟩
def TRP_STAT_CUTOFF : Fld := ⟨1, 1, .rw1c, 0, false⟩
def TRP_STAT_ACTIVE : Fld := ⟨0, 1, .ro, 0, false⟩
/-- TRP_ERRCNT: R68 (02). -/
def TRP_ERRCNT (h : Half) : Nat := 0xb030008 + 0x800000 * h.idx
def TRP_ERRCNT_MISMATCH_CNT : Fld := ⟨16, 16, .rc, 0, false⟩
def TRP_ERRCNT_CUTOFF_CNT : Fld := ⟨0, 16, .rc, 0, false⟩
/-- TRP_DEFER: R68 (02). -/
def TRP_DEFER (h : Half) : Nat := 0xb03000c + 0x800000 * h.idx
def TRP_DEFER_DEFER_CNT : Fld := ⟨16, 16, .rc, 0, false⟩
def TRP_DEFER_LOST_CNT : Fld := ⟨0, 16, .rc, 0, false⟩
/-- TRP_SRING_HEAD: R68 (02). -/
def TRP_SRING_HEAD (h : Half) : Nat := 0xb030010 + 0x800000 * h.idx
def TRP_SRING_HEAD_PTR : Fld := ⟨0, 8, .ro, 0, false⟩
/-- TRP_SRING_TAIL: R68 (02). -/
def TRP_SRING_TAIL (h : Half) : Nat := 0xb030014 + 0x800000 * h.idx
def TRP_SRING_TAIL_PTR : Fld := ⟨0, 8, .rw, 0, false⟩
/-- TRP_SWAP_CTL: R68 (02). -/
def TRP_SWAP_CTL (h : Half) : Nat := 0xb030020 + 0x800000 * h.idx
def TRP_SWAP_CTL_PAIR : Fld := ⟨3, 1, .rw, 0, false⟩
def TRP_SWAP_CTL_MODE : Fld := ⟨2, 1, .rw, 0, false⟩
def TRP_SWAP_CTL_ABORT : Fld := ⟨1, 1, .wo, 0, false⟩
def TRP_SWAP_CTL_REQ : Fld := ⟨0, 1, .wo, 0, false⟩
/-- TRP_SWAP_AT_LO: R68 (02). -/
def TRP_SWAP_AT_LO (h : Half) : Nat := 0xb030024 + 0x800000 * h.idx
def TRP_SWAP_AT_LO_AT : Fld := ⟨0, 32, .rw, 0, false⟩
/-- TRP_SWAP_AT_HI: R68 (02). -/
def TRP_SWAP_AT_HI (h : Half) : Nat := 0xb030028 + 0x800000 * h.idx
def TRP_SWAP_AT_HI_AT : Fld := ⟨0, 32, .rw, 0, false⟩
/-- TRP_SWAP_STAT: R68 (02). -/
def TRP_SWAP_STAT (h : Half) : Nat := 0xb03002c + 0x800000 * h.idx
def TRP_SWAP_STAT_REASON : Fld := ⟨8, 8, .ro, 0, false⟩
def TRP_SWAP_STAT_TOO_LATE : Fld := ⟨4, 1, .ro, 0, false⟩
def TRP_SWAP_STAT_STATE : Fld := ⟨0, 4, .ro, 0, false⟩
/-- PRT_CFG: R77 (03). -/
def PRT_CFG (p : Nat) : Nat := 0x1000000 + 0x40000 * p
def PRT_CFG_PCLK_GATE : Fld := ⟨15, 1, .rw, 1, false⟩
def PRT_CFG_PCLK_EN : Fld := ⟨14, 1, .rw, 1, false⟩
def PRT_CFG_L0P_EN : Fld := ⟨13, 1, .rw, 1, false⟩
def PRT_CFG_L1_EN : Fld := ⟨12, 1, .rw, 0, false⟩
def PRT_CFG_MINW : Fld := ⟨8, 3, .rw, 0, false⟩
def PRT_CFG_ROLE : Fld := ⟨6, 2, .rw, 1, false⟩
def PRT_CFG_MAXRATE : Fld := ⟨4, 2, .rw, 2, false⟩
def PRT_CFG_MODE : Fld := ⟨2, 2, .rw, 0, false⟩
def PRT_CFG_EN : Fld := ⟨0, 1, .rw, 0, false⟩
/-- PRT_LNK_STAT: R77 (03). -/
def PRT_LNK_STAT (p : Nat) (s : Nat) : Nat := 0x1001000 + 0x40000 * p + 0x100 * s
def PRT_LNK_STAT_RATE_FAIL : Fld := ⟨31, 1, .rw1c, 0, false⟩
def PRT_LNK_STAT_MINW_FAIL : Fld := ⟨30, 1, .rw1c, 0, false⟩
def PRT_LNK_STAT_TWIDTH : Fld := ⟨16, 5, .ro, 0, false⟩
def PRT_LNK_STAT_AWIDTH : Fld := ⟨8, 5, .ro, 0, false⟩
def PRT_LNK_STAT_REV : Fld := ⟨7, 1, .ro, 0, false⟩
def PRT_LNK_STAT_PM : Fld := ⟨4, 3, .ro, 0, false⟩
def PRT_LNK_STAT_RATE : Fld := ⟨0, 4, .ro, 0, false⟩
/-- PRT_LNK_CTL: R77 (03). -/
def PRT_LNK_CTL (p : Nat) (s : Nat) : Nat := 0x1001004 + 0x40000 * p + 0x100 * s
def PRT_LNK_CTL_L0P_W : Fld := ⟨5, 3, .rw, 0, false⟩
def PRT_LNK_CTL_COMPL : Fld := ⟨4, 1, .rw, 0, false⟩
def PRT_LNK_CTL_REEQ : Fld := ⟨3, 1, .wo, 0, false⟩
def PRT_LNK_CTL_RETRAIN : Fld := ⟨2, 1, .wo, 0, false⟩
def PRT_LNK_CTL_DISABLE : Fld := ⟨0, 1, .rw, 0, false⟩
/-- MRD_REF_CTL: R84 (03). -/
def MRD_REF_CTL : Nat := 0x140
def MRD_REF_CTL_SEL : Fld := ⟨0, 1, .rw, 0, false⟩
/-- MRD_REF_STAT: R84 (03). -/
def MRD_REF_STAT : Nat := 0x144
def MRD_REF_STAT_SWITCHED : Fld := ⟨3, 1, .rw1c, 0, false⟩
def MRD_REF_STAT_B_OK : Fld := ⟨2, 1, .ro, 0, false⟩
def MRD_REF_STAT_A_OK : Fld := ⟨1, 1, .ro, 0, false⟩
def MRD_REF_STAT_ACTIVE : Fld := ⟨0, 1, .ro, 0, false⟩
/-- PRT_EQ_CFG: R89 (03). -/
def PRT_EQ_CFG (p : Nat) : Nat := 0x1000010 + 0x40000 * p
def PRT_EQ_CFG_RQ128 : Fld := ⟨20, 4, .rw, 4, false⟩
def PRT_EQ_CFG_RQ64 : Fld := ⟨16, 4, .rw, 4, false⟩
def PRT_EQ_CFG_RQ32 : Fld := ⟨12, 4, .rw, 4, false⟩
def PRT_EQ_CFG_TX128 : Fld := ⟨8, 4, .rw, 4, false⟩
def PRT_EQ_CFG_TX64 : Fld := ⟨4, 4, .rw, 4, false⟩
def PRT_EQ_CFG_TX32 : Fld := ⟨0, 4, .rw, 4, false⟩
/-- PRT_TXC: R89 (03). -/
def PRT_TXC (p : Nat) (n : Nat) : Nat := 0x1000100 + 0x40000 * p + 0x4 * n
def PRT_TXC_CM1 : Fld := ⟨12, 6, .ro, 0, false⟩
def PRT_TXC_C0 : Fld := ⟨6, 6, .ro, 48, false⟩
def PRT_TXC_CP1 : Fld := ⟨0, 6, .ro, 0, false⟩
/-- PRT_EYE_CTL: R91 (03). -/
def PRT_EYE_CTL (p : Nat) : Nat := 0x1000200 + 0x40000 * p
def PRT_EYE_CTL_START : Fld := ⟨31, 1, .wo, 0, false⟩
def PRT_EYE_CTL_ABORT : Fld := ⟨30, 1, .wo, 0, false⟩
def PRT_EYE_CTL_LIMIT : Fld := ⟨24, 6, .rw, 20, false⟩
def PRT_EYE_CTL_EYE : Fld := ⟨22, 2, .rw, 1, false⟩
def PRT_EYE_CTL_VOFF : Fld := ⟨15, 7, .rw, 0, false⟩
def PRT_EYE_CTL_TOFF : Fld := ⟨8, 7, .rw, 0, false⟩
def PRT_EYE_CTL_LANE : Fld := ⟨0, 4, .rw, 0, false⟩
/-- PRT_EYE_STAT: R91 (03). -/
def PRT_EYE_STAT (p : Nat) : Nat := 0x1000204 + 0x40000 * p
def PRT_EYE_STAT_REASON : Fld := ⟨4, 4, .ro, 0, false⟩
def PRT_EYE_STAT_STATE : Fld := ⟨0, 4, .ro, 0, false⟩
/-- PRT_EYE_CNT_LO: R91 (03). -/
def PRT_EYE_CNT_LO (p : Nat) : Nat := 0x1000208 + 0x40000 * p
def PRT_EYE_CNT_LO_CNT : Fld := ⟨0, 32, .ro, 0, false⟩
/-- PRT_EYE_CNT_HI: R91 (03). -/
def PRT_EYE_CNT_HI (p : Nat) : Nat := 0x100020c + 0x40000 * p
def PRT_EYE_CNT_HI_CNT : Fld := ⟨0, 32, .ro, 0, false⟩
/-- PRT_EYE_ERR: R91 (03). -/
def PRT_EYE_ERR (p : Nat) : Nat := 0x1000210 + 0x40000 * p
def PRT_EYE_ERR_ERR : Fld := ⟨0, 32, .ro, 0, false⟩
/-- PRT_LANE_STAT: R97 (03). -/
def PRT_LANE_STAT (p : Nat) : Nat := 0x1000080 + 0x40000 * p
def PRT_LANE_STAT_FAILED : Fld := ⟨0, 16, .ro, 0, false⟩
/-- PRT_LANE_CLR: R97 (03). -/
def PRT_LANE_CLR (p : Nat) : Nat := 0x1000084 + 0x40000 * p
def PRT_LANE_CLR_CLR : Fld := ⟨0, 16, .wo, 0, false⟩
/-- PRT_LANE_THR: R97 (03). -/
def PRT_LANE_THR (p : Nat) : Nat := 0x1000088 + 0x40000 * p
def PRT_LANE_THR_THR : Fld := ⟨0, 16, .rw, 4096, false⟩
/-- PRT_LERRCNT0: R100 (03). -/
def PRT_LERRCNT0 (p : Nat) (s : Nat) : Nat := 0x1001008 + 0x40000 * p + 0x100 * s
def PRT_LERRCNT0_RECOV_CNT : Fld := ⟨16, 16, .rc, 0, false⟩
def PRT_LERRCNT0_LFAIL_CNT : Fld := ⟨0, 16, .rc, 0, false⟩
/-- PRT_LERRCNT1: R100 (03). -/
def PRT_LERRCNT1 (p : Nat) (s : Nat) : Nat := 0x100100c + 0x40000 * p + 0x100 * s
def PRT_LERRCNT1_EQREJ_CNT : Fld := ⟨16, 16, .rc, 0, false⟩
def PRT_LERRCNT1_LPBK_CNT : Fld := ⟨0, 16, .rc, 0, false⟩
/-- PRT_TAG_RES: R107 (04). -/
def PRT_TAG_RES (p : Nat) : Nat := 0x1000300 + 0x40000 * p
def PRT_TAG_RES_RES3 : Fld := ⟨24, 8, .rw, 1, false⟩
def PRT_TAG_RES_RES2 : Fld := ⟨16, 8, .rw, 1, false⟩
def PRT_TAG_RES_RES1 : Fld := ⟨8, 8, .rw, 1, false⟩
def PRT_TAG_RES_RES0 : Fld := ⟨0, 8, .rw, 1, false⟩
/-- PRT_TAG_STAT: R107 (04). -/
def PRT_TAG_STAT (p : Nat) (s : Nat) : Nat := 0x1001020 + 0x40000 * p + 0x100 * s
def PRT_TAG_STAT_QUAR : Fld := ⟨16, 14, .ro, 0, false⟩
def PRT_TAG_STAT_LIVE : Fld := ⟨0, 14, .ro, 0, false⟩
/-- PRT_CTO: R112 (04). -/
def PRT_CTO (p : Nat) (s : Nat) : Nat := 0x1001024 + 0x40000 * p + 0x100 * s
def PRT_CTO_MEM : Fld := ⟨4, 4, .rw, 3, false⟩
def PRT_CTO_IO : Fld := ⟨0, 4, .rw, 6, false⟩
/-- CORE_CTO_INT: R112 (04). -/
def CORE_CTO_INT (h : Half) : Nat := 0x2000400 + 0x1000000 * h.idx
def CORE_CTO_INT_MEM : Fld := ⟨4, 4, .rw, 3, false⟩
def CORE_CTO_INT_IO : Fld := ⟨0, 4, .rw, 6, false⟩
/-- PRT_IDE: R126 (04). -/
def PRT_IDE (p : Nat) (s : Nat) : Nat := 0x1001028 + 0x40000 * p + 0x100 * s
def PRT_IDE_SKID : Fld := ⟨4, 1, .ro, 0, false⟩
def PRT_IDE_MEM_SEC : Fld := ⟨3, 1, .ro, 0, false⟩
def PRT_IDE_IO_SEC : Fld := ⟨2, 1, .ro, 0, false⟩
def PRT_IDE_REQUIRED : Fld := ⟨0, 1, .rw, 0, false⟩
/-- PRT_DLD_CFG: R129 (04). -/
def PRT_DLD_CFG (p : Nat) (s : Nat) : Nat := 0x100102c + 0x40000 * p + 0x100 * s
def PRT_DLD_CFG_HYS : Fld := ⟨24, 8, .rw, 2, false⟩
def PRT_DLD_CFG_MARK3 : Fld := ⟨16, 8, .rw, 64, false⟩
def PRT_DLD_CFG_MARK2 : Fld := ⟨8, 8, .rw, 16, false⟩
def PRT_DLD_CFG_MARK1 : Fld := ⟨0, 8, .rw, 4, false⟩
/-- PRT_TXERRCNT0: R129 (04). -/
def PRT_TXERRCNT0 (p : Nat) (s : Nat) : Nat := 0x1001030 + 0x40000 * p + 0x100 * s
def PRT_TXERRCNT0_LATE_CNT : Fld := ⟨16, 16, .rc, 0, false⟩
def PRT_TXERRCNT0_CTO_CNT : Fld := ⟨0, 16, .rc, 0, false⟩
/-- PRT_TXERRCNT1: R129 (04). -/
def PRT_TXERRCNT1 (p : Nat) (s : Nat) : Nat := 0x1001034 + 0x40000 * p + 0x100 * s
def PRT_TXERRCNT1_UNEXP_CNT : Fld := ⟨16, 16, .rc, 0, false⟩
def PRT_TXERRCNT1_TAGWAIT_CNT : Fld := ⟨0, 16, .rc, 0, false⟩
/-- PRT_TXERRCNT2: R129 (04). -/
def PRT_TXERRCNT2 (p : Nat) (s : Nat) : Nat := 0x1001038 + 0x40000 * p + 0x100 * s
def PRT_TXERRCNT2_REPLAY_DUP_CNT : Fld := ⟨16, 16, .rc, 0, false⟩
def PRT_TXERRCNT2_REPLAY_STALL_CNT : Fld := ⟨0, 16, .rc, 0, false⟩
/-- PRT_TXERRCNT3: R129 (04). -/
def PRT_TXERRCNT3 (p : Nat) (s : Nat) : Nat := 0x100103c + 0x40000 * p + 0x100 * s
def PRT_TXERRCNT3_IDE_FAIL_CNT : Fld := ⟨0, 16, .rc, 0, false⟩
/-- CORE_CTL: R164 (05). -/
def CORE_CTL (h : Half) : Nat := 0x2000000 + 0x1000000 * h.idx
def CORE_CTL_LOCK : Fld := ⟨2, 1, .rw1s, 0, false⟩
def CORE_CTL_DF_EN : Fld := ⟨1, 1, .rw1s, 0, false⟩
def CORE_CTL_PUSH_EN : Fld := ⟨0, 1, .rwl, 1, false⟩
/-- CORE_STAT: R164 (05). -/
def CORE_STAT (h : Half) : Nat := 0x2000004 + 0x1000000 * h.idx
def CORE_STAT_SPILLED : Fld := ⟨16, 16, .ro, 0, false⟩
def CORE_STAT_DF_READY : Fld := ⟨2, 1, .ro, 0, false⟩
def CORE_STAT_DF_FULL : Fld := ⟨1, 1, .ro, 0, false⟩
def CORE_STAT_HOLDING : Fld := ⟨0, 1, .ro, 0, false⟩
/-- CORE_POOL: R164 (05). -/
def CORE_POOL (h : Half) : Nat := 0x2000010 + 0x1000000 * h.idx
def CORE_POOL_PROT : Fld := ⟨24, 8, .rwl, 64, false⟩
def CORE_POOL_STAGE : Fld := ⟨16, 8, .rwl, 16, false⟩
def CORE_POOL_PUSH : Fld := ⟨8, 8, .rwl, 8, false⟩
def CORE_POOL_GUAR : Fld := ⟨0, 4, .rwl, 1, false⟩
/-- CORE_ALPHA: R164 (05). -/
def CORE_ALPHA (h : Half) : Nat := 0x2000014 + 0x1000000 * h.idx
def CORE_ALPHA_HI : Fld := ⟨4, 4, .rwl, 5, false⟩
def CORE_ALPHA_LO : Fld := ⟨0, 4, .rwl, 3, false⟩
/-- CORE_BAND: R164 (05). -/
def CORE_BAND (h : Half) : Nat := 0x2000018 + 0x1000000 * h.idx
def CORE_BAND_HIGH : Fld := ⟨0, 8, .rwl, 192, false⟩
/-- CORE_DF_CTL: R164 (05). -/
def CORE_DF_CTL (h : Half) : Nat := 0x2000020 + 0x1000000 * h.idx
def CORE_DF_CTL_VOQ_MAX : Fld := ⟨16, 16, .rwl, 64, false⟩
def CORE_DF_CTL_RET_LOW : Fld := ⟨0, 8, .rwl, 32, false⟩
/-- CORE_DF_STAT: R164 (05). -/
def CORE_DF_STAT (h : Half) : Nat := 0x2000024 + 0x1000000 * h.idx
def CORE_DF_STAT_USED : Fld := ⟨0, 22, .ro, 0, false⟩
/-- CORE_DF_PEAK: R164 (05). -/
def CORE_DF_PEAK (h : Half) : Nat := 0x2000028 + 0x1000000 * h.idx
def CORE_DF_PEAK_PEAK : Fld := ⟨0, 22, .rc, 0, false⟩
/-- CORE_ERRCNT0: R164 (05). -/
def CORE_ERRCNT0 (h : Half) : Nat := 0x2000040 + 0x1000000 * h.idx
def CORE_ERRCNT0_ECC_UNC : Fld := ⟨16, 16, .rc, 0, false⟩
def CORE_ERRCNT0_ECC_CORR : Fld := ⟨0, 16, .rc, 0, false⟩
/-- CORE_ERRCNT1: R164 (05). -/
def CORE_ERRCNT1 (h : Half) : Nat := 0x2000044 + 0x1000000 * h.idx
def CORE_ERRCNT1_FLUSH_CNT : Fld := ⟨16, 16, .rc, 0, false⟩
def CORE_ERRCNT1_HOLD_CNT : Fld := ⟨0, 16, .rc, 0, false⟩
/-- CORE_ERRCNT2: R164 (05). -/
def CORE_ERRCNT2 (h : Half) : Nat := 0x2000048 + 0x1000000 * h.idx
def CORE_ERRCNT2_DFFULL_CNT : Fld := ⟨0, 16, .rc, 0, false⟩
/-- CDB_CTL: R194 (06). -/
def CDB_CTL (h : Half) : Nat := 0xf100000 + 0x800000 * h.idx
def CDB_CTL_XQ : Fld := ⟨16, 4, .rw, 6, false⟩
def CDB_CTL_HR : Fld := ⟨12, 4, .rw, 12, false⟩
def CDB_CTL_DOZE_IDLE : Fld := ⟨4, 8, .rw, 8, false⟩
def CDB_CTL_REJOIN : Fld := ⟨2, 1, .wo, 0, false⟩
def CDB_CTL_REJOIN_AUTO : Fld := ⟨1, 1, .rw, 1, false⟩
def CDB_CTL_DOZE_EN : Fld := ⟨0, 1, .rw, 1, false⟩
/-- CDB_STAT: R194 (06). -/
def CDB_STAT (h : Half) : Nat := 0xf100004 + 0x800000 * h.idx
def CDB_STAT_PHASE : Fld := ⟨12, 4, .ro, 0, false⟩
def CDB_STAT_AUTH : Fld := ⟨10, 1, .ro, 0, false⟩
def CDB_STAT_MIRROR_UNPROT : Fld := ⟨9, 1, .ro, 0, false⟩
def CDB_STAT_ISLANDED : Fld := ⟨8, 1, .ro, 0, false⟩
def CDB_STAT_DOZE : Fld := ⟨0, 8, .ro, 0, false⟩
/-- CDB_WIRE_THR: R194 (06). -/
def CDB_WIRE_THR (h : Half) : Nat := 0xf100008 + 0x800000 * h.idx
def CDB_WIRE_THR_THR : Fld := ⟨0, 16, .rw, 16, false⟩
/-- CDB_SPLIT_AT_LO: R194 (06). -/
def CDB_SPLIT_AT_LO (h : Half) : Nat := 0xf100010 + 0x800000 * h.idx
def CDB_SPLIT_AT_LO_NS : Fld := ⟨0, 32, .ro, 0, true⟩
/-- CDB_SPLIT_AT_HI: R194 (06). -/
def CDB_SPLIT_AT_HI (h : Half) : Nat := 0xf100014 + 0x800000 * h.idx
def CDB_SPLIT_AT_HI_NS : Fld := ⟨0, 32, .ro, 0, true⟩
/-- CDB_QLINES: R194 (06). -/
def CDB_QLINES (h : Half) : Nat := 0xf100018 + 0x800000 * h.idx
def CDB_QLINES_QLINES : Fld := ⟨0, 32, .ro, 0, false⟩
/-- CDB_GRP: R194 (06). -/
def CDB_GRP (h : Half) (g : Nat) : Nat := 0xf100100 + 0x800000 * h.idx + 0x4 * g
def CDB_GRP_FAILED : Fld := ⟨8, 8, .ro, 0, false⟩
def CDB_GRP_WIDTH : Fld := ⟨0, 2, .ro, 0, false⟩
/-- CDB_WMAP: R194 (06). -/
def CDB_WMAP (h : Half) (g : Nat) (k : Nat) : Nat := 0xf100200 + 0x800000 * h.idx + 0x10 * g + 0x4 * k
def CDB_WMAP_FAIL : Fld := ⟨0, 32, .rw1c, 0, false⟩
/-- CDB_ERRCNT0: R194 (06). -/
def CDB_ERRCNT0 (h : Half) : Nat := 0xf100020 + 0x800000 * h.idx
def CDB_ERRCNT0_NAK_CNT : Fld := ⟨16, 16, .rc, 0, false⟩
def CDB_ERRCNT0_STALL_CNT : Fld := ⟨0, 16, .rc, 0, false⟩
/-- CDB_ERRCNT1: R194 (06). -/
def CDB_ERRCNT1 (h : Half) : Nat := 0xf100024 + 0x800000 * h.idx
def CDB_ERRCNT1_REMAP_CNT : Fld := ⟨16, 16, .rc, 0, false⟩
def CDB_ERRCNT1_DOWN_CNT : Fld := ⟨0, 16, .rc, 0, false⟩
/-- CDB_ERRCNT2: R194 (06). -/
def CDB_ERRCNT2 (h : Half) : Nat := 0xf100028 + 0x800000 * h.idx
def CDB_ERRCNT2_LATEX_CNT : Fld := ⟨16, 16, .rc, 0, false⟩
def CDB_ERRCNT2_XEND_CNT : Fld := ⟨0, 16, .rc, 0, false⟩
/-- SF_TEN_CTL: R222 (07). -/
def SF_TEN_CTL (t : Nat) : Nat := 0xa000000 + 0x10000 * t
def SF_TEN_CTL_HP_WAIT : Fld := ⟨8, 16, .rw, 1000, false⟩
def SF_TEN_CTL_FM_CCI : Fld := ⟨0, 1, .rw, 0, false⟩
/-- SF_TEN_STAT: R222 (07). -/
def SF_TEN_STAT (t : Nat) : Nat := 0xa000004 + 0x10000 * t
def SF_TEN_STAT_EXTENTS : Fld := ⟨16, 16, .ro, 0, false⟩
def SF_TEN_STAT_USP : Fld := ⟨8, 8, .ro, 0, false⟩
def SF_TEN_STAT_VIRAL : Fld := ⟨2, 1, .rw1c, 0, false⟩
def SF_TEN_STAT_HP_WAITING : Fld := ⟨1, 1, .ro, 0, false⟩
def SF_TEN_STAT_RST : Fld := ⟨0, 1, .ro, 0, false⟩
/-- SF_TEN_RST: R222 (07). -/
def SF_TEN_RST (t : Nat) : Nat := 0xa000008 + 0x10000 * t
def SF_TEN_RST_START : Fld := ⟨0, 1, .wo, 0, false⟩
/-- SF_TEN_ERRCNT: R222 (07). -/
def SF_TEN_ERRCNT (t : Nat) : Nat := 0xa00000c + 0x10000 * t
def SF_TEN_ERRCNT_HPWAIT_CNT : Fld := ⟨16, 16, .rc, 0, false⟩
def SF_TEN_ERRCNT_EXT_MISS : Fld := ⟨0, 16, .rc, 0, false⟩
/-- SF_VPPB: R222 (07). -/
def SF_VPPB (t : Nat) (v : Nat) : Nat := 0xa002000 + 0x10000 * t + 0x4 * v
def SF_VPPB_KIND : Fld := ⟨30, 2, .ro, 0, false⟩
def SF_VPPB_PORT : Fld := ⟨8, 5, .ro, 0, false⟩
def SF_VPPB_SUB : Fld := ⟨6, 2, .ro, 0, false⟩
def SF_VPPB_LD : Fld := ⟨0, 4, .ro, 0, false⟩
/-- PRT_SLOT_CTL: R222 (07). -/
def PRT_SLOT_CTL (p : Nat) : Nat := 0x1000400 + 0x40000 * p
def PRT_SLOT_CTL_DEBOUNCE : Fld := ⟨8, 8, .rw, 16, false⟩
def PRT_SLOT_CTL_SURPRISE_OFF : Fld := ⟨1, 1, .rw, 1, false⟩
def PRT_SLOT_CTL_HOST_PWR : Fld := ⟨0, 1, .rw, 0, false⟩
/-- PRT_SLOT_STAT: R222 (07). -/
def PRT_SLOT_STAT (p : Nat) : Nat := 0x1000404 + 0x40000 * p
def PRT_SLOT_STAT_OWNER_V : Fld := ⟨15, 1, .ro, 0, false⟩
def PRT_SLOT_STAT_OWNER_T : Fld := ⟨9, 6, .ro, 0, false⟩
def PRT_SLOT_STAT_OWNER_D : Fld := ⟨4, 5, .ro, 0, false⟩
def PRT_SLOT_STAT_PERST : Fld := ⟨3, 1, .ro, 1, false⟩
def PRT_SLOT_STAT_PG : Fld := ⟨2, 1, .ro, 0, false⟩
def PRT_SLOT_STAT_PWR : Fld := ⟨1, 1, .ro, 0, false⟩
def PRT_SLOT_STAT_PRSNT : Fld := ⟨0, 1, .ro, 0, false⟩
/-- PRT_BIND: R222 (07). -/
def PRT_BIND (p : Nat) (s : Nat) : Nat := 0x1001040 + 0x40000 * p + 0x100 * s
def PRT_BIND_KIND : Fld := ⟨30, 2, .ro, 0, false⟩
def PRT_BIND_TENANT : Fld := ⟨16, 6, .ro, 0, false⟩
def PRT_BIND_LDMAP : Fld := ⟨0, 16, .ro, 0, false⟩
/-- CAT_CTL: R261 (08). -/
def CAT_CTL (h : Half) : Nat := 0x4000000 + 0x1000000 * h.idx
def CAT_CTL_IMG_EN : Fld := ⟨1, 1, .rw1s, 0, false⟩
def CAT_CTL_LS_GLOBAL : Fld := ⟨0, 1, .rw, 1, false⟩
/-- CAT_STAT: R261 (08). -/
def CAT_STAT (h : Half) : Nat := 0x4000004 + 0x1000000 * h.idx
def CAT_STAT_TAINTED : Fld := ⟨2, 1, .ro, 0, false⟩
def CAT_STAT_PASS : Fld := ⟨1, 1, .ro, 0, false⟩
def CAT_STAT_IMG : Fld := ⟨0, 1, .ro, 0, false⟩
/-- CAT_OCC: R261 (08). -/
def CAT_OCC (h : Half) : Nat := 0x4000008 + 0x1000000 * h.idx
def CAT_OCC_ENTRIES : Fld := ⟨0, 29, .ro, 0, false⟩
/-- CAT_LSOCC: R261 (08). -/
def CAT_LSOCC (h : Half) : Nat := 0x400000c + 0x1000000 * h.idx
def CAT_LSOCC_SLOTS : Fld := ⟨0, 26, .ro, 0, false⟩
/-- CAT_REMOTE: R261 (08). -/
def CAT_REMOTE (h : Half) : Nat := 0x4000010 + 0x1000000 * h.idx
def CAT_REMOTE_LINES : Fld := ⟨0, 29, .ro, 0, false⟩
/-- CAT_TRK: R261 (08). -/
def CAT_TRK (h : Half) : Nat := 0x4000014 + 0x1000000 * h.idx
def CAT_TRK_WAIT : Fld := ⟨16, 16, .ro, 0, false⟩
def CAT_TRK_LOCKED : Fld := ⟨0, 15, .ro, 0, false⟩
/-- CAT_SCRUB_LO: R261 (08). -/
def CAT_SCRUB_LO (h : Half) : Nat := 0x4000018 + 0x1000000 * h.idx
def CAT_SCRUB_LO_TEN : Fld := ⟨0, 32, .ro, 0, false⟩
/-- CAT_SCRUB_HI: R261 (08). -/
def CAT_SCRUB_HI (h : Half) : Nat := 0x400001c + 0x1000000 * h.idx
def CAT_SCRUB_HI_TEN : Fld := ⟨0, 32, .ro, 0, false⟩
/-- CAT_WIN_CTL: R261 (08). -/
def CAT_WIN_CTL (h : Half) (w : Nat) : Nat := 0x4001000 + 0x1000000 * h.idx + 0x10 * w
def CAT_WIN_CTL_VALID : Fld := ⟨31, 1, .ro, 0, false⟩
def CAT_WIN_CTL_LS_EN : Fld := ⟨30, 1, .ro, 0, false⟩
def CAT_WIN_CTL_DRAIN : Fld := ⟨29, 1, .ro, 0, false⟩
def CAT_WIN_CTL_SIZE : Fld := ⟨18, 6, .ro, 0, false⟩
def CAT_WIN_CTL_PORT : Fld := ⟨13, 5, .ro, 0, false⟩
def CAT_WIN_CTL_SUB : Fld := ⟨11, 2, .ro, 0, false⟩
def CAT_WIN_CTL_LD : Fld := ⟨0, 4, .ro, 0, false⟩
/-- CAT_WIN_BASE_LO: R261 (08). -/
def CAT_WIN_BASE_LO (h : Half) (w : Nat) : Nat := 0x4001004 + 0x1000000 * h.idx + 0x10 * w
def CAT_WIN_BASE_LO_BASE : Fld := ⟨0, 32, .ro, 0, false⟩
/-- CAT_WIN_BASE_HI: R261 (08). -/
def CAT_WIN_BASE_HI (h : Half) (w : Nat) : Nat := 0x4001008 + 0x1000000 * h.idx + 0x10 * w
def CAT_WIN_BASE_HI_BASE : Fld := ⟨0, 32, .ro, 0, false⟩
/-- CAT_TAINT: R261 (08). -/
def CAT_TAINT (h : Half) (i : Nat) : Nat := 0x4003000 + 0x1000000 * h.idx + 0x4 * i
def CAT_TAINT_VALID : Fld := ⟨31, 1, .rw1c, 0, false⟩
def CAT_TAINT_SET : Fld := ⟨0, 24, .ro, 0, false⟩
/-- CAT_ERRCNT0: R261 (08). -/
def CAT_ERRCNT0 (h : Half) : Nat := 0x4000040 + 0x1000000 * h.idx
def CAT_ERRCNT0_ECC_UNC : Fld := ⟨16, 16, .rc, 0, false⟩
def CAT_ERRCNT0_ECC_CORR : Fld := ⟨0, 16, .rc, 0, false⟩
/-- CAT_ERRCNT1: R261 (08). -/
def CAT_ERRCNT1 (h : Half) : Nat := 0x4000044 + 0x1000000 * h.idx
def CAT_ERRCNT1_REPAIR_CNT : Fld := ⟨16, 16, .rc, 0, false⟩
def CAT_ERRCNT1_SNPTO_CNT : Fld := ⟨0, 16, .rc, 0, false⟩
/-- CAT_ERRCNT2: R261 (08). -/
def CAT_ERRCNT2 (h : Half) : Nat := 0x4000048 + 0x1000000 * h.idx
def CAT_ERRCNT2_LSWB_FAIL : Fld := ⟨16, 16, .rc, 0, false⟩
def CAT_ERRCNT2_PROTO_CNT : Fld := ⟨0, 16, .rc, 0, false⟩
/-- CAT_ERRCNT3: R261 (08). -/
def CAT_ERRCNT3 (h : Half) : Nat := 0x400004c + 0x1000000 * h.idx
def CAT_ERRCNT3_POISON_CNT : Fld := ⟨0, 16, .rc, 0, false⟩
/-- STK_CTL: R294 (09). -/
def STK_CTL (h : Half) : Nat := 0x6000000 + 0x1000000 * h.idx
def STK_CTL_EN : Fld := ⟨0, 1, .rw1s, 0, false⟩
/-- STK_STAT: R294 (09). -/
def STK_STAT (h : Half) : Nat := 0x6000004 + 0x1000000 * h.idx
def STK_STAT_SPILL_FREE : Fld := ⟨18, 14, .ro, 0, false⟩
def STK_STAT_CHIP_FREE : Fld := ⟨9, 9, .ro, 0, false⟩
/-- STK_RUN: R294 (09). -/
def STK_RUN (h : Half) : Nat := 0x6000008 + 0x1000000 * h.idx
def STK_RUN_RUNNING : Fld := ⟨0, 10, .ro, 0, false⟩
/-- STK_JOB_STAT: R294 (09). -/
def STK_JOB_STAT (h : Half) (j : Nat) : Nat := 0x6100000 + 0x1000000 * h.idx + 0x40 * j
def STK_JOB_STAT_TOO_LATE : Fld := ⟨31, 1, .ro, 0, false⟩
def STK_JOB_STAT_REASON : Fld := ⟨24, 4, .ro, 0, false⟩
def STK_JOB_STAT_STATE : Fld := ⟨16, 4, .ro, 0, false⟩
def STK_JOB_STAT_WBASE : Fld := ⟨0, 15, .ro, 0, false⟩
/-- STK_JOB_CNT0: R294 (09). -/
def STK_JOB_CNT0 (h : Half) (j : Nat) : Nat := 0x6100004 + 0x1000000 * h.idx + 0x40 * j
def STK_JOB_CNT0_RANGE_COUNT : Fld := ⟨0, 32, .ro, 0, false⟩
/-- STK_JOB_CNT1: R294 (09). -/
def STK_JOB_CNT1 (h : Half) (j : Nat) : Nat := 0x6100008 + 0x1000000 * h.idx + 0x40 * j
def STK_JOB_CNT1_OVF_COUNT : Fld := ⟨0, 32, .ro, 0, false⟩
/-- STK_JOB_CNT2: R294 (09). -/
def STK_JOB_CNT2 (h : Half) (j : Nat) : Nat := 0x610000c + 0x1000000 * h.idx + 0x40 * j
def STK_JOB_CNT2_DUP_CNT : Fld := ⟨0, 16, .ro, 0, false⟩
/-- STK_JOB_END_LO: R294 (09). -/
def STK_JOB_END_LO (h : Half) (j : Nat) : Nat := 0x6100010 + 0x1000000 * h.idx + 0x40 * j
def STK_JOB_END_LO_NS : Fld := ⟨0, 32, .ro, 0, false⟩
/-- STK_JOB_END_HI: R294 (09). -/
def STK_JOB_END_HI (h : Half) (j : Nat) : Nat := 0x6100014 + 0x1000000 * h.idx + 0x40 * j
def STK_JOB_END_HI_NS : Fld := ⟨0, 32, .ro, 0, false⟩
/-- STK_ERRCNT0: R294 (09). -/
def STK_ERRCNT0 (h : Half) : Nat := 0x6000040 + 0x1000000 * h.idx
def STK_ERRCNT0_NOTC_CNT : Fld := ⟨16, 16, .rc, 0, false⟩
def STK_ERRCNT0_NOJOB_CNT : Fld := ⟨0, 16, .rc, 0, false⟩
/-- STK_ERRCNT1: R294 (09). -/
def STK_ERRCNT1 (h : Half) : Nat := 0x6000044 + 0x1000000 * h.idx
def STK_ERRCNT1_WINMISS_CNT : Fld := ⟨16, 16, .rc, 0, false⟩
def STK_ERRCNT1_BADWR_CNT : Fld := ⟨0, 16, .rc, 0, false⟩
/-- STK_ERRCNT2: R294 (09). -/
def STK_ERRCNT2 (h : Half) : Nat := 0x6000048 + 0x1000000 * h.idx
def STK_ERRCNT2_EARLY_CNT : Fld := ⟨16, 16, .rc, 0, false⟩
def STK_ERRCNT2_NOTSENT_CNT : Fld := ⟨0, 16, .rc, 0, false⟩
/-- STK_ERRCNT3: R294 (09). -/
def STK_ERRCNT3 (h : Half) : Nat := 0x600004c + 0x1000000 * h.idx
def STK_ERRCNT3_ECC_UNC : Fld := ⟨16, 16, .rc, 0, false⟩
def STK_ERRCNT3_ECC_CORR : Fld := ⟨0, 16, .rc, 0, false⟩
/-- UMP_CTL: R317 (10). -/
def UMP_CTL (h : Half) : Nat := 0x8000000 + 0x100000000 * h.idx
def UMP_CTL_EVT_EN : Fld := ⟨0, 1, .rw, 1, false⟩
/-- UMP_STAT: R317 (10). -/
def UMP_STAT (h : Half) : Nat := 0x8000004 + 0x100000000 * h.idx
def UMP_STAT_BADCNT : Fld := ⟨16, 16, .ro, 0, false⟩
def UMP_STAT_DBG_AUTH : Fld := ⟨2, 1, .ro, 0, false⟩
def UMP_STAT_STG_BUSY : Fld := ⟨1, 1, .ro, 0, false⟩
/-- UMP_GEN: R317 (10). -/
def UMP_GEN (h : Half) : Nat := 0x8000008 + 0x100000000 * h.idx
def UMP_GEN_GEN : Fld := ⟨0, 16, .ro, 0, false⟩
/-- UMP_LIVE: R317 (10). -/
def UMP_LIVE (h : Half) : Nat := 0x8000100 + 0x40 * h.idx
def UMP_LIVE_OLDEST : Fld := ⟨0, 16, .ro, 0, false⟩
/-- UMP_FLOG_INFO: R317 (10). -/
def UMP_FLOG_INFO (h : Half) : Nat := 0x8000104 + 0x40 * h.idx
def UMP_FLOG_INFO_VALID : Fld := ⟨31, 1, .rw1c, 0, false⟩
def UMP_FLOG_INFO_MORE : Fld := ⟨30, 1, .ro, 0, false⟩
def UMP_FLOG_INFO_TENANT : Fld := ⟨24, 6, .ro, 0, false⟩
def UMP_FLOG_INFO_DBG : Fld := ⟨23, 1, .ro, 0, false⟩
def UMP_FLOG_INFO_NEED : Fld := ⟨19, 4, .ro, 0, false⟩
def UMP_FLOG_INFO_GEN : Fld := ⟨0, 16, .ro, 0, false⟩
/-- UMP_FLOG_TGT: R317 (10). -/
def UMP_FLOG_TGT (h : Half) : Nat := 0x8000108 + 0x40 * h.idx
def UMP_FLOG_TGT_NOMATCH : Fld := ⟨31, 1, .ro, 0, false⟩
def UMP_FLOG_TGT_TKIND : Fld := ⟨28, 3, .ro, 0, false⟩
def UMP_FLOG_TGT_TIDX : Fld := ⟨16, 12, .ro, 0, false⟩
def UMP_FLOG_TGT_RULE : Fld := ⟨0, 15, .ro, 0, false⟩
/-- UMP_FLOG_ADDR_LO: R317 (10). -/
def UMP_FLOG_ADDR_LO (h : Half) : Nat := 0x800010c + 0x40 * h.idx
def UMP_FLOG_ADDR_LO_ADDR : Fld := ⟨0, 32, .ro, 0, false⟩
/-- UMP_FLOG_ADDR_HI: R317 (10). -/
def UMP_FLOG_ADDR_HI (h : Half) : Nat := 0x8000110 + 0x40 * h.idx
def UMP_FLOG_ADDR_HI_ADDR : Fld := ⟨0, 32, .ro, 0, false⟩
/-- UMP_ERRCNT0: R317 (10). -/
def UMP_ERRCNT0 (h : Half) : Nat := 0x8000114 + 0x40 * h.idx
def UMP_ERRCNT0_DBG_DENY_CNT : Fld := ⟨16, 16, .rc, 0, false⟩
def UMP_ERRCNT0_FAULT_CNT : Fld := ⟨0, 16, .rc, 0, false⟩
/-- UMP_ERRCNT1: R317 (10). -/
def UMP_ERRCNT1 (h : Half) : Nat := 0x8000118 + 0x40 * h.idx
def UMP_ERRCNT1_STGDISC_CNT : Fld := ⟨0, 16, .rc, 0, false⟩
/-- QOS_CTL: R321 (11). -/
def QOS_CTL (h : Half) : Nat := 0x9000000 + 0x800000 * h.idx
def QOS_CTL_LOCK : Fld := ⟨0, 1, .rw1s, 0, false⟩
/-- QOS_INT_TC: R321 (11). -/
def QOS_INT_TC (h : Half) : Nat := 0x9000004 + 0x800000 * h.idx
def QOS_INT_TC_STK_TC : Fld := ⟨4, 3, .rwl, 0, false⟩
def QOS_INT_TC_SNP_TC : Fld := ⟨0, 3, .rwl, 6, false⟩
/-- QOS_TEN_TC: R321 (11). -/
def QOS_TEN_TC (h : Half) (t : Nat) : Nat := 0x9060000 + 0x800000 * h.idx + 0x10 * t
def QOS_TEN_TC_PASS_TC : Fld := ⟨12, 3, .rw, 0, false⟩
def QOS_TEN_TC_SF_TC : Fld := ⟨8, 3, .rw, 0, false⟩
def QOS_TEN_TC_CACHE_TC : Fld := ⟨4, 3, .rw, 0, false⟩
def QOS_TEN_TC_MEM_TC : Fld := ⟨0, 3, .rw, 0, false⟩
/-- QOS_TEN_IOMAP: R321 (11). -/
def QOS_TEN_IOMAP (h : Half) (t : Nat) : Nat := 0x9060004 + 0x800000 * h.idx + 0x10 * t
def QOS_TEN_IOMAP_MAP : Fld := ⟨0, 24, .rw, 16434824, false⟩
/-- QOS_SHP_TOK: R326 (11). -/
def QOS_SHP_TOK (h : Half) (n : Nat) : Nat := 0x9012000 + 0x800000 * h.idx + 0x4 * n
def QOS_SHP_TOK_TOKENS : Fld := ⟨0, 32, .ro, 0, false⟩
/-- QOS_VF_CNT: R331 (11). -/
def QOS_VF_CNT (h : Half) (v : Nat) : Nat := 0x9070000 + 0x800000 * h.idx + 0x4 * v
def QOS_VF_CNT_RED_CNT : Fld := ⟨16, 16, .rc, 0, false⟩
def QOS_VF_CNT_YEL_CNT : Fld := ⟨0, 16, .rc, 0, false⟩
/-- QOS_TEN_DROP: R331 (11). -/
def QOS_TEN_DROP (h : Half) (t : Nat) : Nat := 0x9060008 + 0x800000 * h.idx + 0x10 * t
def QOS_TEN_DROP_DROP_CNT : Fld := ⟨0, 16, .rc, 0, false⟩
/-- QOS_ELIST: R336 (11). -/
def QOS_ELIST (h : Half) (p : Nat) (e : Nat) : Nat := 0x9030000 + 0x800000 * h.idx + 0x100 * p + 0x4 * e
def QOS_ELIST_GATES : Fld := ⟨24, 8, .rw, 255, false⟩
def QOS_ELIST_INTERVAL : Fld := ⟨0, 24, .rw, 0, false⟩
/-- QOS_EPH_STAT: R336 (11). -/
def QOS_EPH_STAT (h : Half) (p : Nat) : Nat := 0x9050000 + 0x800000 * h.idx + 0x10 * p
def QOS_EPH_STAT_TOO_LATE : Fld := ⟨31, 1, .ro, 0, false⟩
def QOS_EPH_STAT_OUTCOME : Fld := ⟨16, 2, .ro, 0, false⟩
def QOS_EPH_STAT_COUNT : Fld := ⟨0, 7, .ro, 0, false⟩
/-- QOS_ROT_CFG: R340 (11). -/
def QOS_ROT_CFG (h : Half) : Nat := 0x9000010 + 0x800000 * h.idx
def QOS_ROT_CFG_HIGH : Fld := ⟨16, 7, .rwl, 14, false⟩
def QOS_ROT_CFG_WIN : Fld := ⟨0, 8, .rwl, 8, false⟩
/-- QOS_ROT_QUOTA0: R340 (11). -/
def QOS_ROT_QUOTA0 (h : Half) : Nat := 0x9000014 + 0x800000 * h.idx
def QOS_ROT_QUOTA0_Q3 : Fld := ⟨24, 8, .rwl, 48, false⟩
def QOS_ROT_QUOTA0_Q2 : Fld := ⟨16, 8, .rwl, 32, false⟩
def QOS_ROT_QUOTA0_Q1 : Fld := ⟨8, 8, .rwl, 96, false⟩
def QOS_ROT_QUOTA0_Q0 : Fld := ⟨0, 8, .rwl, 0, false⟩
/-- QOS_ROT_QUOTA1: R340 (11). -/
def QOS_ROT_QUOTA1 (h : Half) : Nat := 0x9000018 + 0x800000 * h.idx
def QOS_ROT_QUOTA1_Q6 : Fld := ⟨16, 8, .rwl, 0, false⟩
def QOS_ROT_QUOTA1_Q5 : Fld := ⟨8, 8, .rwl, 0, false⟩
def QOS_ROT_QUOTA1_Q4 : Fld := ⟨0, 8, .rwl, 0, false⟩
/-- QOS_ROT_STAT: R340 (11). -/
def QOS_ROT_STAT (h : Half) : Nat := 0x900001c + 0x800000 * h.idx
def QOS_ROT_STAT_RESTART : Fld := ⟨31, 1, .ro, 0, false⟩
def QOS_ROT_STAT_FENCED : Fld := ⟨16, 7, .ro, 0, false⟩
def QOS_ROT_STAT_LAST_PC : Fld := ⟨0, 5, .ro, 0, false⟩
/-- QOS_ERRCNT0: R340 (11). -/
def QOS_ERRCNT0 (h : Half) : Nat := 0x9000040 + 0x800000 * h.idx
def QOS_ERRCNT0_WDOG_CNT : Fld := ⟨16, 16, .rc, 0, false⟩
def QOS_ERRCNT0_SHPBAD_CNT : Fld := ⟨0, 16, .rc, 0, false⟩
/-- SF_ALIVE: R376 (12). -/
def SF_ALIVE (t : Nat) (fn : Nat) : Nat := 0x200000000 + 0x100000 * t + 0x1000 * fn
def SF_ALIVE_STATE : Fld := ⟨28, 3, .ro, 0, false⟩
def SF_ALIVE_BEAT : Fld := ⟨0, 16, .ro, 0, false⟩
/-- SF_FN_STAT: R376 (12). -/
def SF_FN_STAT (t : Nat) (fn : Nat) : Nat := 0x200000004 + 0x100000 * t + 0x1000 * fn
def SF_FN_STAT_FLR : Fld := ⟨15, 1, .ro, 0, false⟩
def SF_FN_STAT_FROZEN : Fld := ⟨14, 1, .ro, 0, false⟩
def SF_FN_STAT_HALTED : Fld := ⟨13, 1, .ro, 0, false⟩
def SF_FN_STAT_WITHDRAWN : Fld := ⟨12, 1, .ro, 0, false⟩
def SF_FN_STAT_POOL : Fld := ⟨0, 12, .ro, 0, false⟩
/-- SF_FN_ERRCNT0: R376 (12). -/
def SF_FN_ERRCNT0 (t : Nat) (fn : Nat) : Nat := 0x200000008 + 0x100000 * t + 0x1000 * fn
def SF_FN_ERRCNT0_ECC_UNC : Fld := ⟨16, 16, .rc, 0, false⟩
def SF_FN_ERRCNT0_ECC_CORR : Fld := ⟨0, 16, .rc, 0, false⟩
/-- SF_FN_ERRCNT1: R376 (12). -/
def SF_FN_ERRCNT1 (t : Nat) (fn : Nat) : Nat := 0x20000000c + 0x100000 * t + 0x1000 * fn
def SF_FN_ERRCNT1_PTR_ERR : Fld := ⟨24, 8, .rc, 0, false⟩
def SF_FN_ERRCNT1_FRZ_WR : Fld := ⟨16, 8, .rc, 0, false⟩
def SF_FN_ERRCNT1_SQ_DISC : Fld := ⟨0, 16, .rc, 0, false⟩
/-- SF_QCFG: R376 (12). -/
def SF_QCFG (t : Nat) (fn : Nat) (q : Nat) : Nat := 0x200000040 + 0x100000 * t + 0x1000 * fn + 0x10 * q
def SF_QCFG_STATE : Fld := ⟨30, 2, .ro, 0, false⟩
def SF_QCFG_QERR : Fld := ⟨29, 1, .rw1c, 0, false⟩
def SF_QCFG_SIZE : Fld := ⟨16, 4, .rw, 4, false⟩
def SF_QCFG_IE : Fld := ⟨7, 1, .rw, 0, false⟩
def SF_QCFG_FLUSH : Fld := ⟨1, 1, .wo, 0, false⟩
def SF_QCFG_EN : Fld := ⟨0, 1, .rw, 0, false⟩
/-- SF_QPTR: R376 (12). -/
def SF_QPTR (t : Nat) (fn : Nat) (q : Nat) : Nat := 0x200000044 + 0x100000 * t + 0x1000 * fn + 0x10 * q
def SF_QPTR_TAIL : Fld := ⟨16, 16, .ro, 0, false⟩
def SF_QPTR_HEAD : Fld := ⟨0, 16, .rw, 0, false⟩
/-- SF_QWM: R376 (12). -/
def SF_QWM (t : Nat) (fn : Nat) (q : Nat) : Nat := 0x200000048 + 0x100000 * t + 0x1000 * fn + 0x10 * q
def SF_QWM_LEVEL : Fld := ⟨31, 1, .ro, 0, false⟩
def SF_QWM_HIGH : Fld := ⟨16, 13, .rw, 0, false⟩
def SF_QWM_LOW : Fld := ⟨0, 13, .rw, 0, false⟩
/-- SF_MIG_CTL: R376 (12). -/
def SF_MIG_CTL (t : Nat) (fn : Nat) : Nat := 0x200000100 + 0x100000 * t + 0x1000 * fn
def SF_MIG_CTL_VF : Fld := ⟨8, 8, .rw, 0, false⟩
def SF_MIG_CTL_CMD : Fld := ⟨1, 3, .wo, 0, false⟩
def SF_MIG_CTL_ABORT : Fld := ⟨0, 1, .wo, 0, false⟩
/-- SF_MIG_STAT: R376 (12). -/
def SF_MIG_STAT (t : Nat) (fn : Nat) : Nat := 0x200000104 + 0x100000 * t + 0x1000 * fn
def SF_MIG_STAT_TOO_LATE : Fld := ⟨31, 1, .ro, 0, false⟩
def SF_MIG_STAT_REASON : Fld := ⟨24, 4, .ro, 0, false⟩
def SF_MIG_STAT_STATE : Fld := ⟨16, 4, .ro, 0, false⟩
def SF_MIG_STAT_ROWSTAT : Fld := ⟨8, 4, .ro, 0, false⟩
/-- SF_MIG_ADDR_LO: R376 (12). -/
def SF_MIG_ADDR_LO (t : Nat) (fn : Nat) : Nat := 0x200000108 + 0x100000 * t + 0x1000 * fn
def SF_MIG_ADDR_LO_ADDR : Fld := ⟨0, 32, .rw, 0, false⟩
/-- SF_MIG_ADDR_HI: R376 (12). -/
def SF_MIG_ADDR_HI (t : Nat) (fn : Nat) : Nat := 0x20000010c + 0x100000 * t + 0x1000 * fn
def SF_MIG_ADDR_HI_ADDR : Fld := ⟨0, 32, .rw, 0, false⟩
/-- SF_MIG_LEN: R376 (12). -/
def SF_MIG_LEN (t : Nat) (fn : Nat) : Nat := 0x200000110 + 0x100000 * t + 0x1000 * fn
def SF_MIG_LEN_LEN : Fld := ⟨0, 20, .ro, 192, false⟩
/-- SF_POOL: R376 (12). -/
def SF_POOL (t : Nat) : Nat := 0xa004000 + 0x10000 * t
def SF_POOL_QUOTA : Fld := ⟨0, 13, .rw, 0, false⟩
/-- SF_PF_STAT: R376 (12). -/
def SF_PF_STAT (t : Nat) : Nat := 0xa004004 + 0x10000 * t
def SF_PF_STAT_VFE_ERR : Fld := ⟨9, 1, .rw1c, 0, false⟩
def SF_PF_STAT_VFE_REQ : Fld := ⟨8, 1, .rw1c, 0, false⟩
def SF_PF_STAT_NUMVF : Fld := ⟨0, 8, .ro, 0, false⟩
/-- SF_PASS_LIVE_SEND_LO: R376 (12). -/
def SF_PASS_LIVE_SEND_LO (t : Nat) : Nat := 0xa004010 + 0x10000 * t
def SF_PASS_LIVE_SEND_LO_MASK : Fld := ⟨0, 32, .ro, 0, false⟩
/-- SF_PASS_LIVE_SEND_HI: R376 (12). -/
def SF_PASS_LIVE_SEND_HI (t : Nat) : Nat := 0xa004014 + 0x10000 * t
def SF_PASS_LIVE_SEND_HI_MASK : Fld := ⟨0, 32, .ro, 0, false⟩
/-- SF_PASS_LIVE_ACC_LO: R376 (12). -/
def SF_PASS_LIVE_ACC_LO (t : Nat) : Nat := 0xa004018 + 0x10000 * t
def SF_PASS_LIVE_ACC_LO_MASK : Fld := ⟨0, 32, .ro, 0, false⟩
/-- SF_PASS_LIVE_ACC_HI: R376 (12). -/
def SF_PASS_LIVE_ACC_HI (t : Nat) : Nat := 0xa00401c + 0x10000 * t
def SF_PASS_LIVE_ACC_HI_MASK : Fld := ⟨0, 32, .ro, 0, false⟩
/-- SHT_CTL: R407 (13). -/
def SHT_CTL (c : Nat) : Nat := 0xc000000 + 0x1000 * c
def SHT_CTL_GANG : Fld := ⟨8, 1, .rw, 0, false⟩
def SHT_CTL_AUTO_FEED : Fld := ⟨4, 1, .rw, 1, false⟩
def SHT_CTL_AUX_PREF : Fld := ⟨3, 1, .rw, 0, false⟩
def SHT_CTL_RETRY_EN : Fld := ⟨2, 1, .rw, 1, false⟩
/-- SHT_STAT: R407 (13). -/
def SHT_STAT (c : Nat) : Nat := 0xc000004 + 0x1000 * c
def SHT_STAT_STATE : Fld := ⟨28, 4, .ro, 0, false⟩
def SHT_STAT_TRIP : Fld := ⟨24, 4, .ro, 0, false⟩
def SHT_STAT_ATTEMPT : Fld := ⟨20, 4, .ro, 0, false⟩
def SHT_STAT_RSEQ : Fld := ⟨18, 2, .ro, 0, false⟩
def SHT_STAT_RWHY : Fld := ⟨16, 2, .ro, 0, false⟩
def SHT_STAT_PGQ : Fld := ⟨12, 4, .ro, 0, false⟩
def SHT_STAT_TOO_LATE : Fld := ⟨11, 1, .ro, 0, false⟩
def SHT_STAT_FET_SHORT : Fld := ⟨10, 1, .ro, 0, false⟩
def SHT_STAT_AUX_ON : Fld := ⟨9, 1, .ro, 0, false⟩
def SHT_STAT_AUX_SRC : Fld := ⟨8, 1, .ro, 0, false⟩
def SHT_STAT_AUX_OK : Fld := ⟨7, 1, .ro, 0, false⟩
def SHT_STAT_FEED_B_OK : Fld := ⟨5, 1, .ro, 0, false⟩
def SHT_STAT_FEED_A_OK : Fld := ⟨4, 1, .ro, 0, false⟩
def SHT_STAT_RAMP_DONE : Fld := ⟨3, 1, .ro, 0, false⟩
def SHT_STAT_BRK_RUN : Fld := ⟨2, 1, .ro, 0, false⟩
def SHT_STAT_PG : Fld := ⟨0, 1, .ro, 0, false⟩
/-- SHT_RAMP: R407 (13). -/
def SHT_RAMP (c : Nat) : Nat := 0xc000008 + 0x1000 * c
def SHT_RAMP_RAMP_TMO : Fld := ⟨16, 16, .rw, 80, false⟩
def SHT_RAMP_DVDT : Fld := ⟨0, 16, .rw, 3000, false⟩
/-- SHT_ILIM: R407 (13). -/
def SHT_ILIM (c : Nat) : Nat := 0xc00000c + 0x1000 * c
def SHT_ILIM_I_FAST : Fld := ⟨16, 16, .rw, 400, false⟩
def SHT_ILIM_I_RLIM : Fld := ⟨0, 16, .rw, 32, false⟩
/-- SHT_BRK: R407 (13). -/
def SHT_BRK (c : Nat) : Nat := 0xc000010 + 0x1000 * c
def SHT_BRK_I_NOM : Fld := ⟨16, 16, .rw, 160, false⟩
/-- SHT_HTRIP: R407 (13). -/
def SHT_HTRIP (c : Nat) : Nat := 0xc000014 + 0x1000 * c
def SHT_HTRIP_H_TRIP : Fld := ⟨0, 32, .rw, 10240, false⟩
/-- SHT_SOA: R407 (13). -/
def SHT_SOA (c : Nat) : Nat := 0xc000018 + 0x1000 * c
def SHT_SOA_E_COOL : Fld := ⟨16, 16, .rw, 10, false⟩
def SHT_SOA_E_SOA : Fld := ⟨0, 16, .rw, 50, false⟩
/-- SHT_RSH: R407 (13). -/
def SHT_RSH (c : Nat) : Nat := 0xc00001c + 0x1000 * c
def SHT_RSH_AUX_RSH : Fld := ⟨16, 16, .rw, 10000, false⟩
def SHT_RSH_RSH : Fld := ⟨0, 16, .rw, 500, false⟩
/-- SHT_VTH: R407 (13). -/
def SHT_VTH (c : Nat) : Nat := 0xc000020 + 0x1000 * c
def SHT_VTH_FEED_UV : Fld := ⟨24, 8, .rw, 108, false⟩
def SHT_VTH_FEED_OV : Fld := ⟨16, 8, .rw, 140, false⟩
def SHT_VTH_PG_TH : Fld := ⟨8, 8, .rw, 90, false⟩
def SHT_VTH_AUX_UV : Fld := ⟨0, 8, .rw, 150, false⟩
/-- SHT_AUX: R407 (13). -/
def SHT_AUX (c : Nat) : Nat := 0xc000024 + 0x1000 * c
def SHT_AUX_AUX_RET : Fld := ⟨16, 16, .rw, 100, false⟩
def SHT_AUX_AUX_IFAST : Fld := ⟨8, 8, .rw, 48, false⟩
/-- SHT_CAL: R407 (13). -/
def SHT_CAL (c : Nat) : Nat := 0xc000028 + 0x1000 * c
def SHT_CAL_IGAIN : Fld := ⟨16, 16, .rw, 0, false⟩
def SHT_CAL_VGAIN : Fld := ⟨0, 16, .rw, 0, false⟩
/-- SHT_M: R407 (13). -/
def SHT_M (c : Nat) (k : Nat) : Nat := 0xc000040 + 0x1000 * c + 0x4 * k
def SHT_M_VAL : Fld := ⟨0, 32, .ro, 0, false⟩
/-- SHT_ESNAP: R407 (13). -/
def SHT_ESNAP (c : Nat) : Nat := 0xc000080 + 0x1000 * c
def SHT_ESNAP_SNAP : Fld := ⟨0, 1, .wo, 0, false⟩
/-- SHT_E: R407 (13). -/
def SHT_E (c : Nat) (k : Nat) : Nat := 0xc000090 + 0x1000 * c + 0x4 * k
def SHT_E_ACC : Fld := ⟨0, 32, .ro, 0, false⟩
/-- SHT_ERRCNT0: R407 (13). -/
def SHT_ERRCNT0 (c : Nat) : Nat := 0xc0000c0 + 0x1000 * c
def SHT_ERRCNT0_FAST_CNT : Fld := ⟨16, 16, .rc, 0, false⟩
def SHT_ERRCNT0_I2T_CNT : Fld := ⟨0, 16, .rc, 0, false⟩
/-- SHT_ERRCNT1: R407 (13). -/
def SHT_ERRCNT1 (c : Nat) : Nat := 0xc0000c4 + 0x1000 * c
def SHT_ERRCNT1_SOA_CNT : Fld := ⟨16, 16, .rc, 0, false⟩
def SHT_ERRCNT1_RAMP_CNT : Fld := ⟨0, 16, .rc, 0, false⟩
/-- SHT_ERRCNT2: R407 (13). -/
def SHT_ERRCNT2 (c : Nat) : Nat := 0xc0000c8 + 0x1000 * c
def SHT_ERRCNT2_GATE_CNT : Fld := ⟨16, 16, .rc, 0, false⟩
def SHT_ERRCNT2_RETRY_CNT : Fld := ⟨0, 16, .rc, 0, false⟩
/-- SHT_ERRCNT3: R407 (13). -/
def SHT_ERRCNT3 (c : Nat) : Nat := 0xc0000cc + 0x1000 * c
def SHT_ERRCNT3_REV_CNT : Fld := ⟨16, 16, .rc, 0, false⟩
def SHT_ERRCNT3_AUXSW_CNT : Fld := ⟨0, 16, .rc, 0, false⟩
/-- REF_CTL: R432 (14). -/
def REF_CTL (h : Half) : Nat := 0xe000000 + 0x800000 * h.idx
def REF_CTL_SB_FREEZE : Fld := ⟨1, 1, .rw, 1, false⟩
def REF_CTL_EVQ_EN : Fld := ⟨0, 1, .rw, 1, false⟩
/-- REF_STAT: R432 (14). -/
def REF_STAT (h : Half) : Nat := 0xe000004 + 0x800000 * h.idx
def REF_STAT_FATAL_DEV : Fld := ⟨2, 1, .rw1c, 0, true⟩
def REF_STAT_SB_FROZEN : Fld := ⟨1, 1, .rw1c, 0, true⟩
def REF_STAT_EVQ_HI : Fld := ⟨0, 1, .ro, 0, false⟩
/-- REF_SB_PTR: R432 (14). -/
def REF_SB_PTR (h : Half) : Nat := 0xe000008 + 0x800000 * h.idx
def REF_SB_PTR_WRAPPED : Fld := ⟨6, 1, .ro, 0, true⟩
def REF_SB_PTR_NEXT : Fld := ⟨0, 6, .ro, 0, true⟩
/-- REF_SEQ: R432 (14). -/
def REF_SEQ (h : Half) : Nat := 0xe00000c + 0x800000 * h.idx
def REF_SEQ_SEQ : Fld := ⟨0, 32, .ro, 0, false⟩
/-- REF_EVQ_PTR: R432 (14). -/
def REF_EVQ_PTR (h : Half) : Nat := 0xe000010 + 0x800000 * h.idx
def REF_EVQ_PTR_TAIL : Fld := ⟨16, 16, .ro, 0, false⟩
def REF_EVQ_PTR_HEAD : Fld := ⟨0, 16, .rw, 0, false⟩
/-- REF_EVQ_WM: R432 (14). -/
def REF_EVQ_WM (h : Half) : Nat := 0xe000014 + 0x800000 * h.idx
def REF_EVQ_WM_HIGH : Fld := ⟨16, 11, .rw, 768, false⟩
def REF_EVQ_WM_LOW : Fld := ⟨0, 11, .rw, 256, false⟩
/-- REF_RAISE: R432 (14). -/
def REF_RAISE (h : Half) : Nat := 0xe000018 + 0x800000 * h.idx
def REF_RAISE_SEV : Fld := ⟨16, 3, .wo, 0, false⟩
def REF_RAISE_CAUSE : Fld := ⟨0, 16, .wo, 0, false⟩
/-- REF_UNFENCE: R432 (14). -/
def REF_UNFENCE (h : Half) : Nat := 0xe00001c + 0x800000 * h.idx
def REF_UNFENCE_KIND : Fld := ⟨24, 8, .wo, 0, false⟩
def REF_UNFENCE_INSTANCE : Fld := ⟨0, 16, .wo, 0, false⟩
/-- REF_REQUAL: R432 (14). -/
def REF_REQUAL (h : Half) : Nat := 0xe000020 + 0x800000 * h.idx
def REF_REQUAL_BANK : Fld := ⟨3, 1, .rw, 0, false⟩
def REF_REQUAL_RESULT : Fld := ⟨1, 2, .ro, 0, false⟩
def REF_REQUAL_START : Fld := ⟨0, 1, .wo, 0, false⟩
/-- REF_THERM: R432 (14). -/
def REF_THERM (h : Half) : Nat := 0xe000030 + 0x800000 * h.idx
def REF_THERM_GRADE : Fld := ⟨25, 1, .ro, 0, false⟩
def REF_THERM_TRIP_EN : Fld := ⟨24, 1, .rw, 1, false⟩
def REF_THERM_CRIT : Fld := ⟨16, 8, .rw, 110, false⟩
def REF_THERM_WARN : Fld := ⟨8, 8, .rw, 95, false⟩
def REF_THERM_TJ : Fld := ⟨0, 8, .ro, 0, false⟩
/-- REF_AGE: R432 (14). -/
def REF_AGE (h : Half) : Nat := 0xe000034 + 0x800000 * h.idx
def REF_AGE_THR : Fld := ⟨16, 16, .rw, 300, false⟩
def REF_AGE_SLOW : Fld := ⟨0, 16, .ro, 0, false⟩
/-- REF_ERRCNT0: R432 (14). -/
def REF_ERRCNT0 (h : Half) : Nat := 0xe000040 + 0x800000 * h.idx
def REF_ERRCNT0_CSUNR_CNT : Fld := ⟨16, 16, .rc, 0, false⟩
def REF_ERRCNT0_CSDEC_CNT : Fld := ⟨0, 16, .rc, 0, false⟩
/-- REF_ERRCNT1: R432 (14). -/
def REF_ERRCNT1 (h : Half) : Nat := 0xe000044 + 0x800000 * h.idx
def REF_ERRCNT1_EVQ_DROP_CNT : Fld := ⟨16, 16, .rc, 0, false⟩
def REF_ERRCNT1_WDISC_CNT : Fld := ⟨0, 16, .rc, 0, false⟩
/-- REF_CLS: R432 (14). -/
def REF_CLS (h : Half) (n : Nat) : Nat := 0xe000100 + 0x800000 * h.idx + 0x4 * n
def REF_CLS_SB : Fld := ⟨31, 1, .rw, 1, false⟩
def REF_CLS_EVQ : Fld := ⟨30, 1, .rw, 1, false⟩
def REF_CLS_ALERT : Fld := ⟨29, 1, .rw, 1, false⟩
def REF_CLS_MIN_SEV : Fld := ⟨0, 3, .rw, 3, false⟩
/-- REF_LEAK: R432 (14). -/
def REF_LEAK (h : Half) (k : Nat) : Nat := 0xe000200 + 0x800000 * h.idx + 0x4 * k
def REF_LEAK_THRESH : Fld := ⟨24, 8, .rw, 0, false⟩
def REF_LEAK_W_UNC : Fld := ⟨16, 8, .rw, 0, false⟩
def REF_LEAK_W_CORR : Fld := ⟨8, 8, .rw, 0, false⟩
def REF_LEAK_LEAK_EXP : Fld := ⟨0, 8, .rw, 0, false⟩
/-- REF_LCNT: R432 (14). -/
def REF_LCNT (h : Half) (k : Nat) (i : Nat) : Nat := 0xe008000 + 0x800000 * h.idx + 0x800 * k + 0x4 * i
def REF_LCNT_FENCED : Fld := ⟨9, 1, .ro, 0, false⟩
def REF_LCNT_RETIRED : Fld := ⟨8, 1, .ro, 0, false⟩
def REF_LCNT_COUNT : Fld := ⟨0, 8, .ro, 0, false⟩
/-- MRD_ALERT_CTL: R432 (14). -/
def MRD_ALERT_CTL : Nat := 0x180
def MRD_ALERT_CTL_LATCH : Fld := ⟨4, 1, .rw, 1, false⟩
def MRD_ALERT_CTL_STOPPED : Fld := ⟨3, 1, .rw1c, 0, false⟩
def MRD_ALERT_CTL_HOLD : Fld := ⟨2, 1, .rw, 0, false⟩
def MRD_ALERT_CTL_MODE : Fld := ⟨0, 2, .rw, 1, false⟩
/-- MRD_LIFE_LO: R432 (14). -/
def MRD_LIFE_LO : Nat := 0x188
def MRD_LIFE_LO_LIFE : Fld := ⟨0, 32, .rwl, 0, false⟩
/-- MRD_LIFE_HI: R432 (14). -/
def MRD_LIFE_HI : Nat := 0x18c
def MRD_LIFE_HI_LIFE : Fld := ⟨0, 32, .rwl, 0, false⟩
/-- PHM_CTL: R446 (15). -/
def PHM_CTL (h : Half) : Nat := 0xd000000 + 0x800000 * h.idx
def PHM_CTL_WEXP : Fld := ⟨8, 5, .rw, 10, false⟩
def PHM_CTL_CAD_EN : Fld := ⟨0, 1, .rw, 0, false⟩
/-- PHM_GRP: R446 (15). -/
def PHM_GRP (h : Half) : Nat := 0xd000004 + 0x800000 * h.idx
def PHM_GRP_CLR : Fld := ⟨16, 16, .wo, 0, false⟩
def PHM_GRP_EN : Fld := ⟨0, 16, .rw, 0, false⟩
/-- PHM_STAT: R446 (15). -/
def PHM_STAT (h : Half) : Nat := 0xd000008 + 0x800000 * h.idx
def PHM_STAT_BUSY : Fld := ⟨0, 1, .ro, 0, false⟩
/-- PHM_SEQ: R446 (15). -/
def PHM_SEQ (h : Half) : Nat := 0xd00000c + 0x800000 * h.idx
def PHM_SEQ_SEQ : Fld := ⟨0, 32, .ro, 0, false⟩
/-- PHM_CAD: R446 (15). -/
def PHM_CAD (h : Half) : Nat := 0xd000010 + 0x800000 * h.idx
def PHM_CAD_PERIOD : Fld := ⟨16, 16, .rw, 1000, false⟩
def PHM_CAD_PHASE : Fld := ⟨0, 16, .rw, 0, false⟩
/-- PHM_DEST: R446 (15). -/
def PHM_DEST (h : Half) : Nat := 0xd000014 + 0x800000 * h.idx
def PHM_DEST_KIND : Fld := ⟨31, 1, .rw, 0, false⟩
def PHM_DEST_RING : Fld := ⟨27, 4, .rw, 0, false⟩
def PHM_DEST_OWNER : Fld := ⟨21, 6, .rw, 0, false⟩
def PHM_DEST_PORT : Fld := ⟨16, 5, .rw, 0, false⟩
def PHM_DEST_SUB : Fld := ⟨14, 2, .rw, 0, false⟩
def PHM_DEST_LD : Fld := ⟨10, 4, .rw, 0, false⟩
/-- PHM_ADDR_LO: R446 (15). -/
def PHM_ADDR_LO (h : Half) : Nat := 0xd000018 + 0x800000 * h.idx
def PHM_ADDR_LO_ADDR : Fld := ⟨0, 32, .rw, 0, false⟩
/-- PHM_ADDR_HI: R446 (15). -/
def PHM_ADDR_HI (h : Half) : Nat := 0xd00001c + 0x800000 * h.idx
def PHM_ADDR_HI_ADDR : Fld := ⟨0, 32, .rw, 0, false⟩
/-- PHM_ERRCNT: R446 (15). -/
def PHM_ERRCNT (h : Half) : Nat := 0xd000020 + 0x800000 * h.idx
def PHM_ERRCNT_PLFAIL_CNT : Fld := ⟨16, 16, .rc, 0, false⟩
def PHM_ERRCNT_MISS_CNT : Fld := ⟨0, 16, .rc, 0, false⟩
/-- PHM_CNT_LO: R446 (15). -/
def PHM_CNT_LO (h : Half) (n : Nat) : Nat := 0xd000040 + 0x800000 * h.idx + 0x8 * n
def PHM_CNT_LO_VAL : Fld := ⟨0, 32, .ro, 0, false⟩
/-- PHM_CNT_HI: R446 (15). -/
def PHM_CNT_HI (h : Half) (n : Nat) : Nat := 0xd000044 + 0x800000 * h.idx + 0x8 * n
def PHM_CNT_HI_VAL : Fld := ⟨0, 32, .ro, 0, false⟩
/-- PHM_SEL: R446 (15). -/
def PHM_SEL (h : Half) (n : Nat) : Nat := 0xd001000 + 0x800000 * h.idx + 0x4 * n
def PHM_SEL_MODE : Fld := ⟨30, 2, .rw, 0, false⟩
def PHM_SEL_WEVT : Fld := ⟨24, 1, .rw, 0, false⟩
def PHM_SEL_UNIT : Fld := ⟨16, 8, .rw, 0, false⟩
def PHM_SEL_EVENT : Fld := ⟨8, 8, .rw, 0, false⟩
def PHM_SEL_INST : Fld := ⟨0, 8, .rw, 0, false⟩
/-- PHM_WRAP: R446 (15). -/
def PHM_WRAP (h : Half) (i : Nat) : Nat := 0xd001400 + 0x800000 * h.idx + 0x4 * i
def PHM_WRAP_WRAP : Fld := ⟨0, 32, .rw1c, 0, false⟩
/-- PHM_BW_RX: R446 (15). -/
def PHM_BW_RX (h : Half) (s : Nat) : Nat := 0xd001800 + 0x800000 * h.idx + 0x8 * s
def PHM_BW_RX_MBPS : Fld := ⟨0, 32, .ro, 0, false⟩
/-- PHM_BW_TX: R446 (15). -/
def PHM_BW_TX (h : Half) (s : Nat) : Nat := 0xd001804 + 0x800000 * h.idx + 0x8 * s
def PHM_BW_TX_MBPS : Fld := ⟨0, 32, .ro, 0, false⟩
/-- MRD_STRAP: R470 (16). -/
def MRD_STRAP : Nat := 0x40
def MRD_STRAP_I3C_ADDR : Fld := ⟨5, 3, .ro, 0, false⟩
def MRD_STRAP_PWR_AUTO : Fld := ⟨4, 1, .ro, 0, false⟩
def MRD_STRAP_FINDER_ONLY : Fld := ⟨3, 1, .ro, 0, false⟩
def MRD_STRAP_BOOT : Fld := ⟨2, 1, .ro, 0, false⟩
def MRD_STRAP_PRIM_SEL : Fld := ⟨1, 1, .ro, 0, false⟩
/-- MRD_PWR_CTL: R470 (16). -/
def MRD_PWR_CTL : Nat := 0x44
def MRD_PWR_CTL_PG_TMO : Fld := ⟨16, 8, .rw, 20, false⟩
def MRD_PWR_CTL_GAP : Fld := ⟨8, 8, .rw, 1, false⟩
def MRD_PWR_CTL_DOWN : Fld := ⟨1, 1, .wo, 0, false⟩
def MRD_PWR_CTL_GO : Fld := ⟨0, 1, .wo, 0, false⟩
/-- MRD_PWR_STAT: R470 (16). -/
def MRD_PWR_STAT : Nat := 0x48
def MRD_PWR_STAT_EN : Fld := ⟨24, 8, .ro, 0, false⟩
def MRD_PWR_STAT_PG : Fld := ⟨16, 8, .ro, 0, false⟩
def MRD_PWR_STAT_STATE : Fld := ⟨12, 4, .ro, 0, false⟩
def MRD_PWR_STAT_FAIL_RAIL : Fld := ⟨8, 3, .ro, 0, false⟩
def MRD_PWR_STAT_ATTEMPTS : Fld := ⟨0, 2, .ro, 0, false⟩
/-- MRD_RST_CTL: R470 (16). -/
def MRD_RST_CTL : Nat := 0x4c
def MRD_RST_CTL_COLD : Fld := ⟨1, 1, .wo, 0, false⟩
def MRD_RST_CTL_WARM : Fld := ⟨0, 1, .wo, 0, false⟩
/-- MRD_BOOT_CTL: R470 (16). -/
def MRD_BOOT_CTL : Nat := 0x50
def MRD_BOOT_CTL_PREF_V : Fld := ⟨1, 1, .rw, 0, false⟩
def MRD_BOOT_CTL_PREF : Fld := ⟨0, 1, .rw, 0, false⟩
/-- MRD_BOOT_STAT: R470 (16). -/
def MRD_BOOT_STAT : Nat := 0x54
def MRD_BOOT_STAT_SVN : Fld := ⟨16, 16, .ro, 0, false⟩
def MRD_BOOT_STAT_BOOT_FAIL : Fld := ⟨9, 1, .ro, 0, false⟩
def MRD_BOOT_STAT_RUNNING : Fld := ⟨8, 1, .ro, 0, false⟩
def MRD_BOOT_STAT_RES_B : Fld := ⟨4, 3, .ro, 0, false⟩
def MRD_BOOT_STAT_RES_A : Fld := ⟨0, 3, .ro, 0, false⟩
/-- MRD_SVC_CTL: R470 (16). -/
def MRD_SVC_CTL : Nat := 0x58
def MRD_SVC_CTL_TRIM : Fld := ⟨1, 1, .rw1s, 0, false⟩
def MRD_SVC_CTL_FINDER : Fld := ⟨0, 1, .rw1s, 0, false⟩
/-- MRD_SVC_STAT: R470 (16). -/
def MRD_SVC_STAT : Nat := 0x5c
def MRD_SVC_STAT_TRIMMED : Fld := ⟨3, 1, .ro, 0, false⟩
def MRD_SVC_STAT_PHASE : Fld := ⟨0, 3, .ro, 0, false⟩
/-- MRD_PROMOTE: R470 (16). -/
def MRD_PROMOTE : Nat := 0x60
def MRD_PROMOTE_PORT : Fld := ⟨0, 32, .rw1s, 0, false⟩
/-- MRD_PROMOTED: R470 (16). -/
def MRD_PROMOTED : Nat := 0x64
def MRD_PROMOTED_PORT : Fld := ⟨0, 32, .ro, 0, false⟩
/-- OBS_CTL: R495 (17). -/
def OBS_CTL (h : Half) : Nat := 0xf000000 + 0x800000 * h.idx
def OBS_CTL_HANDOVER : Fld := ⟨0, 1, .wo, 0, false⟩
/-- OBS_STAT: R495 (17). -/
def OBS_STAT (h : Half) : Nat := 0xf000004 + 0x800000 * h.idx
def OBS_STAT_JOURNAL_OK : Fld := ⟨3, 1, .ro, 0, false⟩
def OBS_STAT_STANDBY_READY : Fld := ⟨2, 1, .ro, 0, false⟩
def OBS_STAT_ACTING : Fld := ⟨1, 1, .ro, 0, false⟩
def OBS_STAT_ROLE : Fld := ⟨0, 1, .ro, 0, false⟩
/-- OBS_WDOG: R495 (17). -/
def OBS_WDOG (h : Half) : Nat := 0xf000008 + 0x800000 * h.idx
def OBS_WDOG_KICK : Fld := ⟨31, 1, .wo, 0, false⟩
def OBS_WDOG_TMO : Fld := ⟨0, 8, .rw, 20, false⟩
/-- OBS_ERRCNT: R495 (17). -/
def OBS_ERRCNT (h : Half) : Nat := 0xf00000c + 0x800000 * h.idx
def OBS_ERRCNT_HO_REFUSED_CNT : Fld := ⟨16, 16, .rc, 0, false⟩
def OBS_ERRCNT_FAILOVER_CNT : Fld := ⟨0, 16, .rc, 0, true⟩
/-- OBS_SHARE: R495 (17). -/
def OBS_SHARE (h : Half) (c : Nat) : Nat := 0xf000100 + 0x800000 * h.idx + 0x4 * c
def OBS_SHARE_QUANTA : Fld := ⟨0, 9, .rw, 0, false⟩
/-- OBS_CLS_STAT: R495 (17). -/
def OBS_CLS_STAT (h : Half) (c : Nat) : Nat := 0xf000200 + 0x800000 * h.idx + 0x4 * c
def OBS_CLS_STAT_BUSY_CNT : Fld := ⟨16, 16, .rc, 0, false⟩
def OBS_CLS_STAT_QUEUED : Fld := ⟨0, 5, .ro, 0, false⟩
/-- MRD_DBG_CTL: R495 (17). -/
def MRD_DBG_CTL : Nat := 0x1c0
def MRD_DBG_CTL_DEAUTH : Fld := ⟨0, 1, .wo, 0, false⟩
/-- MRD_DBG_STAT: R495 (17). -/
def MRD_DBG_STAT : Nat := 0x1c4
def MRD_DBG_STAT_DISABLED : Fld := ⟨7, 1, .ro, 0, false⟩
def MRD_DBG_STAT_LOCKOUT : Fld := ⟨6, 1, .ro, 0, false⟩
def MRD_DBG_STAT_AUTHFAIL : Fld := ⟨2, 4, .ro, 0, false⟩
def MRD_DBG_STAT_AUTH : Fld := ⟨0, 1, .ro, 0, false⟩
/-- MRD_FRZ_CTL: R495 (17). -/
def MRD_FRZ_CTL : Nat := 0x210
def MRD_FRZ_CTL_EN : Fld := ⟨0, 1, .rw, 1, false⟩
/-- MRD_FRZ_STAT: R495 (17). -/
def MRD_FRZ_STAT : Nat := 0x214
def MRD_FRZ_STAT_READOUT : Fld := ⟨8, 8, .ro, 0, false⟩
def MRD_FRZ_STAT_FROZEN : Fld := ⟨0, 1, .ro, 0, false⟩
/-- TRP_FAULT: R518 (18). -/
def TRP_FAULT (h : Half) : Nat := 0xb030030 + 0x800000 * h.idx
def TRP_FAULT_VALID : Fld := ⟨31, 1, .rw1c, 0, false⟩
def TRP_FAULT_CODE : Fld := ⟨16, 8, .ro, 0, false⟩
def TRP_FAULT_PC : Fld := ⟨0, 14, .ro, 0, false⟩
/-- TRP_FAULT_TN_LO: R518 (18). -/
def TRP_FAULT_TN_LO (h : Half) : Nat := 0xb030034 + 0x800000 * h.idx
def TRP_FAULT_TN_LO_TN : Fld := ⟨0, 32, .ro, 0, false⟩
/-- TRP_FAULT_TN_HI: R518 (18). -/
def TRP_FAULT_TN_HI (h : Half) : Nat := 0xb030038 + 0x800000 * h.idx
def TRP_FAULT_TN_HI_TN : Fld := ⟨0, 32, .ro, 0, false⟩
/-- TRP_ALARM: R518 (18). -/
def TRP_ALARM (h : Half) : Nat := 0xb030040 + 0x800000 * h.idx
def TRP_ALARM_FIRED : Fld := ⟨0, 32, .rw1c, 0, false⟩
/-- TRP_ALARM_ARM: R518 (18). -/
def TRP_ALARM_ARM (h : Half) : Nat := 0xb030044 + 0x800000 * h.idx
def TRP_ALARM_ARM_ARMED : Fld := ⟨0, 32, .ro, 0, false⟩
/-- TRP_OBOX_PTR: R518 (18). -/
def TRP_OBOX_PTR (h : Half) : Nat := 0xb030048 + 0x800000 * h.idx
def TRP_OBOX_PTR_TAIL : Fld := ⟨16, 16, .ro, 0, false⟩
def TRP_OBOX_PTR_HEAD : Fld := ⟨0, 16, .rw, 0, false⟩
/-- TRP_ERRCNT1: R518 (18). -/
def TRP_ERRCNT1 (h : Half) : Nat := 0xb03004c + 0x800000 * h.idx
def TRP_ERRCNT1_SENDDROP_CNT : Fld := ⟨16, 16, .rc, 0, false⟩
def TRP_ERRCNT1_FAULT_CNT : Fld := ⟨0, 16, .rc, 0, false⟩
/-- TRP_BANK: R42 (02). -/
def TRP_BANK (h : Half) (b : Nat) (i : Nat) : Nat := 0xb000000 + 0x800000 * h.idx + 0x10000 * b + 0x4 * i
/-- TRP_SCRATCH: R42 (02). -/
def TRP_SCRATCH (h : Half) (i : Nat) : Nat := 0xb020000 + 0x800000 * h.idx + 0x4 * i
/-- TRP_OBOX: R513 (18). -/
def TRP_OBOX (h : Half) (i : Nat) (k : Nat) : Nat := 0xb030800 + 0x800000 * h.idx + 0x40 * i + 0x4 * k
/-- TRP_SRING: R42 (02). -/
def TRP_SRING (h : Half) (i : Nat) (k : Nat) : Nat := 0xb040000 + 0x800000 * h.idx + 0x20 * i + 0x4 * k
/-- SF_BSTAGE: R199 (07). -/
def SF_BSTAGE (t : Nat) (n : Nat) (k : Nat) : Nat := 0xa001000 + 0x10000 * t + 0x20 * n + 0x4 * k
/-- SF_FSTAGE: R350 (12). -/
def SF_FSTAGE (t : Nat) (n : Nat) (k : Nat) : Nat := 0xa003000 + 0x10000 * t + 0x20 * n + 0x4 * k
/-- CAT_WSTAGE: R226 (08). -/
def CAT_WSTAGE (h : Half) (n : Nat) (k : Nat) : Nat := 0x4002000 + 0x1000000 * h.idx + 0x20 * n + 0x4 * k
/-- STK_JROW: R268 (09). -/
def STK_JROW (h : Half) (n : Nat) (k : Nat) : Nat := 0x6001000 + 0x1000000 * h.idx + 0x20 * n + 0x4 * k
/-- STK_CTX: R267 (09). -/
def STK_CTX (h : Half) (j : Nat) (k : Nat) : Nat := 0x6200000 + 0x1000000 * h.idx + 0x800 * j + 0x4 * k
/-- UMP_GSTAGE: R308 (10). -/
def UMP_GSTAGE (h : Half) (k : Nat) : Nat := 0x8001000 + 0x100000000 * h.idx + 0x4 * k
/-- UMP_RULE: R297 (10). -/
def UMP_RULE (h : Half) (n : Nat) (k : Nat) : Nat := 0x8100000 + 0x100000000 * h.idx + 0x20 * n + 0x4 * k
/-- UMP_ACTIVE: R297 (10). -/
def UMP_ACTIVE (h : Half) (n : Nat) (k : Nat) : Nat := 0x8200000 + 0x100000000 * h.idx + 0x20 * n + 0x4 * k
/-- QOS_SHP_STAGE: R322 (11). -/
def QOS_SHP_STAGE (h : Half) (n : Nat) (k : Nat) : Nat := 0x9010000 + 0x800000 * h.idx + 0x10 * n + 0x4 * k
/-- QOS_SHP_LIVE: R322 (11). -/
def QOS_SHP_LIVE (h : Half) (n : Nat) (k : Nat) : Nat := 0x9011000 + 0x800000 * h.idx + 0x10 * n + 0x4 * k
/-- QOS_MSTAGE: R331 (11). -/
def QOS_MSTAGE (h : Half) (n : Nat) (k : Nat) : Nat := 0x9020000 + 0x800000 * h.idx + 0x20 * n + 0x4 * k
/-- QOS_ESTAGE: R334 (11). -/
def QOS_ESTAGE (h : Half) (n : Nat) (k : Nat) : Nat := 0x9021000 + 0x800000 * h.idx + 0x20 * n + 0x4 * k
/-- QOS_EACT: R336 (11). -/
def QOS_EACT (h : Half) (p : Nat) (e : Nat) : Nat := 0x9040000 + 0x800000 * h.idx + 0x100 * p + 0x4 * e
def QOS_EACT_GATES : Fld := ⟨24, 8, .ro, 255, false⟩
def QOS_EACT_INTERVAL : Fld := ⟨0, 24, .ro, 0, false⟩
/-- QOS_EPH_AT_LO: R336 (11). -/
def QOS_EPH_AT_LO (h : Half) (p : Nat) : Nat := 0x9050004 + 0x800000 * h.idx + 0x10 * p
/-- QOS_EPH_AT_HI: R336 (11). -/
def QOS_EPH_AT_HI (h : Half) (p : Nat) : Nat := 0x9050008 + 0x800000 * h.idx + 0x10 * p
/-- SHT_PSTAGE: R381 (13). -/
def SHT_PSTAGE (c : Nat) (k : Nat) : Nat := 0xc000800 + 0x1000 * c + 0x4 * k
/-- REF_SB: R418 (14). -/
def REF_SB (h : Half) (i : Nat) (k : Nat) : Nat := 0xe001000 + 0x800000 * h.idx + 0x20 * i + 0x4 * k
/-- REF_EVQ: R419 (14). -/
def REF_EVQ (h : Half) (i : Nat) (k : Nat) : Nat := 0xe010000 + 0x800000 * h.idx + 0x20 * i + 0x4 * k
/-- MRD_DBG_SERIAL: R491 (17). -/
def MRD_DBG_SERIAL (i : Nat) : Nat := 0x1c8 + 0x4 * i
/-- MRD_DBG_NONCE: R491 (17). -/
def MRD_DBG_NONCE (i : Nat) : Nat := 0x1d8 + 0x4 * i

/-- Rows of the register table. -/
def regTable0 : List RegDesc := [
  ⟨0x100, [(0x100000000, 2)], 0x0, [MRD_NOW_LO_NS], true⟩,
  ⟨0x104, [(0x100000000, 2)], 0x0, [MRD_NOW_HI_NS], false⟩,
  ⟨0x108, [(0x100000000, 2)], 0x0, [MRD_FRAC_FRAC], false⟩,
  ⟨0x10c, [(0x100000000, 2)], 0x20000, [MRD_INC_INC], false⟩,
  ⟨0x110, [(0x100000000, 2)], 0x0, [MRD_TN_LO_TN], true⟩,
  ⟨0x114, [(0x100000000, 2)], 0x0, [MRD_TN_HI_TN], false⟩,
  ⟨0x120, [(0x100000000, 2)], 0x0, [MRD_SYNC_CTL_OUT_EN, MRD_SYNC_CTL_STEP_EN, MRD_SYNC_CTL_ROLE], false⟩,
  ⟨0x124, [(0x100000000, 2)], 0x0, [MRD_SYNC_DLY_DLY], false⟩,
  ⟨0x128, [(0x100000000, 2)], 0x0, [MRD_SYNC_STAT_ERR, MRD_SYNC_STAT_STEPPED, MRD_SYNC_STAT_CRC_ERR, MRD_SYNC_STAT_LOSS, MRD_SYNC_STAT_LOCKED], false⟩,
  ⟨0xb030000, [(0x800000, 2)], 0x0, [TRP_CTL_SEL, TRP_CTL_RUN], false⟩,
  ⟨0xb030004, [(0x800000, 2)], 0x0, [TRP_STAT_LAST_BC, TRP_STAT_HOLD, TRP_STAT_MISMATCH, TRP_STAT_CUTOFF, TRP_STAT_ACTIVE], false⟩,
  ⟨0xb030008, [(0x800000, 2)], 0x0, [TRP_ERRCNT_MISMATCH_CNT, TRP_ERRCNT_CUTOFF_CNT], false⟩,
  ⟨0xb03000c, [(0x800000, 2)], 0x0, [TRP_DEFER_DEFER_CNT, TRP_DEFER_LOST_CNT], false⟩,
  ⟨0xb030010, [(0x800000, 2)], 0x0, [TRP_SRING_HEAD_PTR], false⟩,
  ⟨0xb030014, [(0x800000, 2)], 0x0, [TRP_SRING_TAIL_PTR], false⟩,
  ⟨0xb030020, [(0x800000, 2)], 0x0, [TRP_SWAP_CTL_PAIR, TRP_SWAP_CTL_MODE, TRP_SWAP_CTL_ABORT, TRP_SWAP_CTL_REQ], false⟩,
  ⟨0xb030024, [(0x800000, 2)], 0x0, [TRP_SWAP_AT_LO_AT], true⟩,
  ⟨0xb030028, [(0x800000, 2)], 0x0, [TRP_SWAP_AT_HI_AT], false⟩,
  ⟨0xb03002c, [(0x800000, 2)], 0x0, [TRP_SWAP_STAT_REASON, TRP_SWAP_STAT_TOO_LATE, TRP_SWAP_STAT_STATE], false⟩,
  ⟨0x1000000, [(0x40000, 32)], 0xe060, [PRT_CFG_PCLK_GATE, PRT_CFG_PCLK_EN, PRT_CFG_L0P_EN, PRT_CFG_L1_EN, PRT_CFG_MINW, PRT_CFG_ROLE, PRT_CFG_MAXRATE, PRT_CFG_MODE, PRT_CFG_EN], false⟩,
  ⟨0x1001000, [(0x40000, 32), (0x100, 4)], 0x0, [PRT_LNK_STAT_RATE_FAIL, PRT_LNK_STAT_MINW_FAIL, PRT_LNK_STAT_TWIDTH, PRT_LNK_STAT_AWIDTH, PRT_LNK_STAT_REV, PRT_LNK_STAT_PM, PRT_LNK_STAT_RATE], false⟩,
  ⟨0x1001004, [(0x40000, 32), (0x100, 4)], 0x0, [PRT_LNK_CTL_L0P_W, PRT_LNK_CTL_COMPL, PRT_LNK_CTL_REEQ, PRT_LNK_CTL_RETRAIN, PRT_LNK_CTL_DISABLE], false⟩,
  ⟨0x140, [], 0x0, [MRD_REF_CTL_SEL], false⟩,
  ⟨0x144, [], 0x0, [MRD_REF_STAT_SWITCHED, MRD_REF_STAT_B_OK, MRD_REF_STAT_A_OK, MRD_REF_STAT_ACTIVE], false⟩,
  ⟨0x1000010, [(0x40000, 32)], 0x444444, [PRT_EQ_CFG_RQ128, PRT_EQ_CFG_RQ64, PRT_EQ_CFG_RQ32, PRT_EQ_CFG_TX128, PRT_EQ_CFG_TX64, PRT_EQ_CFG_TX32], false⟩]

/-- Rows of the register table. -/
def regTable1 : List RegDesc := [
  ⟨0x1000100, [(0x40000, 32), (0x4, 16)], 0xc00, [PRT_TXC_CM1, PRT_TXC_C0, PRT_TXC_CP1], false⟩,
  ⟨0x1000200, [(0x40000, 32)], 0x14400000, [PRT_EYE_CTL_START, PRT_EYE_CTL_ABORT, PRT_EYE_CTL_LIMIT, PRT_EYE_CTL_EYE, PRT_EYE_CTL_VOFF, PRT_EYE_CTL_TOFF, PRT_EYE_CTL_LANE], false⟩,
  ⟨0x1000204, [(0x40000, 32)], 0x0, [PRT_EYE_STAT_REASON, PRT_EYE_STAT_STATE], false⟩,
  ⟨0x1000208, [(0x40000, 32)], 0x0, [PRT_EYE_CNT_LO_CNT], true⟩,
  ⟨0x100020c, [(0x40000, 32)], 0x0, [PRT_EYE_CNT_HI_CNT], false⟩,
  ⟨0x1000210, [(0x40000, 32)], 0x0, [PRT_EYE_ERR_ERR], false⟩,
  ⟨0x1000080, [(0x40000, 32)], 0x0, [PRT_LANE_STAT_FAILED], false⟩,
  ⟨0x1000084, [(0x40000, 32)], 0x0, [PRT_LANE_CLR_CLR], false⟩,
  ⟨0x1000088, [(0x40000, 32)], 0x1000, [PRT_LANE_THR_THR], false⟩,
  ⟨0x1001008, [(0x40000, 32), (0x100, 4)], 0x0, [PRT_LERRCNT0_RECOV_CNT, PRT_LERRCNT0_LFAIL_CNT], false⟩,
  ⟨0x100100c, [(0x40000, 32), (0x100, 4)], 0x0, [PRT_LERRCNT1_EQREJ_CNT, PRT_LERRCNT1_LPBK_CNT], false⟩,
  ⟨0x1000300, [(0x40000, 32)], 0x1010101, [PRT_TAG_RES_RES3, PRT_TAG_RES_RES2, PRT_TAG_RES_RES1, PRT_TAG_RES_RES0], false⟩,
  ⟨0x1001020, [(0x40000, 32), (0x100, 4)], 0x0, [PRT_TAG_STAT_QUAR, PRT_TAG_STAT_LIVE], false⟩,
  ⟨0x1001024, [(0x40000, 32), (0x100, 4)], 0x36, [PRT_CTO_MEM, PRT_CTO_IO], false⟩,
  ⟨0x2000400, [(0x1000000, 2)], 0x36, [CORE_CTO_INT_MEM, CORE_CTO_INT_IO], false⟩,
  ⟨0x1001028, [(0x40000, 32), (0x100, 4)], 0x0, [PRT_IDE_SKID, PRT_IDE_MEM_SEC, PRT_IDE_IO_SEC, PRT_IDE_REQUIRED], false⟩,
  ⟨0x100102c, [(0x40000, 32), (0x100, 4)], 0x2401004, [PRT_DLD_CFG_HYS, PRT_DLD_CFG_MARK3, PRT_DLD_CFG_MARK2, PRT_DLD_CFG_MARK1], false⟩,
  ⟨0x1001030, [(0x40000, 32), (0x100, 4)], 0x0, [PRT_TXERRCNT0_LATE_CNT, PRT_TXERRCNT0_CTO_CNT], false⟩,
  ⟨0x1001034, [(0x40000, 32), (0x100, 4)], 0x0, [PRT_TXERRCNT1_UNEXP_CNT, PRT_TXERRCNT1_TAGWAIT_CNT], false⟩,
  ⟨0x1001038, [(0x40000, 32), (0x100, 4)], 0x0, [PRT_TXERRCNT2_REPLAY_DUP_CNT, PRT_TXERRCNT2_REPLAY_STALL_CNT], false⟩,
  ⟨0x100103c, [(0x40000, 32), (0x100, 4)], 0x0, [PRT_TXERRCNT3_IDE_FAIL_CNT], false⟩,
  ⟨0x2000000, [(0x1000000, 2)], 0x1, [CORE_CTL_LOCK, CORE_CTL_DF_EN, CORE_CTL_PUSH_EN], false⟩,
  ⟨0x2000004, [(0x1000000, 2)], 0x0, [CORE_STAT_SPILLED, CORE_STAT_DF_READY, CORE_STAT_DF_FULL, CORE_STAT_HOLDING], false⟩,
  ⟨0x2000010, [(0x1000000, 2)], 0x40100801, [CORE_POOL_PROT, CORE_POOL_STAGE, CORE_POOL_PUSH, CORE_POOL_GUAR], false⟩,
  ⟨0x2000014, [(0x1000000, 2)], 0x53, [CORE_ALPHA_HI, CORE_ALPHA_LO], false⟩]

/-- Rows of the register table. -/
def regTable2 : List RegDesc := [
  ⟨0x2000018, [(0x1000000, 2)], 0xc0, [CORE_BAND_HIGH], false⟩,
  ⟨0x2000020, [(0x1000000, 2)], 0x400020, [CORE_DF_CTL_VOQ_MAX, CORE_DF_CTL_RET_LOW], false⟩,
  ⟨0x2000024, [(0x1000000, 2)], 0x0, [CORE_DF_STAT_USED], false⟩,
  ⟨0x2000028, [(0x1000000, 2)], 0x0, [CORE_DF_PEAK_PEAK], false⟩,
  ⟨0x2000040, [(0x1000000, 2)], 0x0, [CORE_ERRCNT0_ECC_UNC, CORE_ERRCNT0_ECC_CORR], false⟩,
  ⟨0x2000044, [(0x1000000, 2)], 0x0, [CORE_ERRCNT1_FLUSH_CNT, CORE_ERRCNT1_HOLD_CNT], false⟩,
  ⟨0x2000048, [(0x1000000, 2)], 0x0, [CORE_ERRCNT2_DFFULL_CNT], false⟩,
  ⟨0xf100000, [(0x800000, 2)], 0x6c083, [CDB_CTL_XQ, CDB_CTL_HR, CDB_CTL_DOZE_IDLE, CDB_CTL_REJOIN, CDB_CTL_REJOIN_AUTO, CDB_CTL_DOZE_EN], false⟩,
  ⟨0xf100004, [(0x800000, 2)], 0x0, [CDB_STAT_PHASE, CDB_STAT_AUTH, CDB_STAT_MIRROR_UNPROT, CDB_STAT_ISLANDED, CDB_STAT_DOZE], false⟩,
  ⟨0xf100008, [(0x800000, 2)], 0x10, [CDB_WIRE_THR_THR], false⟩,
  ⟨0xf100010, [(0x800000, 2)], 0x0, [CDB_SPLIT_AT_LO_NS], true⟩,
  ⟨0xf100014, [(0x800000, 2)], 0x0, [CDB_SPLIT_AT_HI_NS], false⟩,
  ⟨0xf100018, [(0x800000, 2)], 0x0, [CDB_QLINES_QLINES], false⟩,
  ⟨0xf100100, [(0x800000, 2), (0x4, 8)], 0x0, [CDB_GRP_FAILED, CDB_GRP_WIDTH], false⟩,
  ⟨0xf100200, [(0x800000, 2), (0x10, 8), (0x4, 3)], 0x0, [CDB_WMAP_FAIL], false⟩,
  ⟨0xf100020, [(0x800000, 2)], 0x0, [CDB_ERRCNT0_NAK_CNT, CDB_ERRCNT0_STALL_CNT], false⟩,
  ⟨0xf100024, [(0x800000, 2)], 0x0, [CDB_ERRCNT1_REMAP_CNT, CDB_ERRCNT1_DOWN_CNT], false⟩,
  ⟨0xf100028, [(0x800000, 2)], 0x0, [CDB_ERRCNT2_LATEX_CNT, CDB_ERRCNT2_XEND_CNT], false⟩,
  ⟨0xa000000, [(0x10000, 64)], 0x3e800, [SF_TEN_CTL_HP_WAIT, SF_TEN_CTL_FM_CCI], false⟩,
  ⟨0xa000004, [(0x10000, 64)], 0x0, [SF_TEN_STAT_EXTENTS, SF_TEN_STAT_USP, SF_TEN_STAT_VIRAL, SF_TEN_STAT_HP_WAITING, SF_TEN_STAT_RST], false⟩,
  ⟨0xa000008, [(0x10000, 64)], 0x0, [SF_TEN_RST_START], false⟩,
  ⟨0xa00000c, [(0x10000, 64)], 0x0, [SF_TEN_ERRCNT_HPWAIT_CNT, SF_TEN_ERRCNT_EXT_MISS], false⟩,
  ⟨0xa002000, [(0x10000, 64)], 0x40000000, [SF_VPPB_KIND, SF_VPPB_PORT, SF_VPPB_SUB, SF_VPPB_LD], false⟩,
  ⟨0xa002004, [(0x10000, 64), (0x4, 31)], 0, [SF_VPPB_KIND, SF_VPPB_PORT, SF_VPPB_SUB, SF_VPPB_LD], false⟩,
  ⟨0x1000400, [(0x40000, 32)], 0x1002, [PRT_SLOT_CTL_DEBOUNCE, PRT_SLOT_CTL_SURPRISE_OFF, PRT_SLOT_CTL_HOST_PWR], false⟩]

/-- Rows of the register table. -/
def regTable3 : List RegDesc := [
  ⟨0x1000404, [(0x40000, 32)], 0x8, [PRT_SLOT_STAT_OWNER_V, PRT_SLOT_STAT_OWNER_T, PRT_SLOT_STAT_OWNER_D, PRT_SLOT_STAT_PERST, PRT_SLOT_STAT_PG, PRT_SLOT_STAT_PWR, PRT_SLOT_STAT_PRSNT], false⟩,
  ⟨0x1001040, [(0x40000, 32), (0x100, 4)], 0x0, [PRT_BIND_KIND, PRT_BIND_TENANT, PRT_BIND_LDMAP], false⟩,
  ⟨0x4000000, [(0x1000000, 2)], 0x1, [CAT_CTL_IMG_EN, CAT_CTL_LS_GLOBAL], false⟩,
  ⟨0x4000004, [(0x1000000, 2)], 0x0, [CAT_STAT_TAINTED, CAT_STAT_PASS, CAT_STAT_IMG], false⟩,
  ⟨0x4000008, [(0x1000000, 2)], 0x0, [CAT_OCC_ENTRIES], false⟩,
  ⟨0x400000c, [(0x1000000, 2)], 0x0, [CAT_LSOCC_SLOTS], false⟩,
  ⟨0x4000010, [(0x1000000, 2)], 0x0, [CAT_REMOTE_LINES], false⟩,
  ⟨0x4000014, [(0x1000000, 2)], 0x0, [CAT_TRK_WAIT, CAT_TRK_LOCKED], false⟩,
  ⟨0x4000018, [(0x1000000, 2)], 0x0, [CAT_SCRUB_LO_TEN], true⟩,
  ⟨0x400001c, [(0x1000000, 2)], 0x0, [CAT_SCRUB_HI_TEN], false⟩,
  ⟨0x4001000, [(0x1000000, 2), (0x10, 64)], 0x0, [CAT_WIN_CTL_VALID, CAT_WIN_CTL_LS_EN, CAT_WIN_CTL_DRAIN, CAT_WIN_CTL_SIZE, CAT_WIN_CTL_PORT, CAT_WIN_CTL_SUB, CAT_WIN_CTL_LD], false⟩,
  ⟨0x4001004, [(0x1000000, 2), (0x10, 64)], 0x0, [CAT_WIN_BASE_LO_BASE], true⟩,
  ⟨0x4001008, [(0x1000000, 2), (0x10, 64)], 0x0, [CAT_WIN_BASE_HI_BASE], false⟩,
  ⟨0x4003000, [(0x1000000, 2), (0x4, 16)], 0x0, [CAT_TAINT_VALID, CAT_TAINT_SET], false⟩,
  ⟨0x4000040, [(0x1000000, 2)], 0x0, [CAT_ERRCNT0_ECC_UNC, CAT_ERRCNT0_ECC_CORR], false⟩,
  ⟨0x4000044, [(0x1000000, 2)], 0x0, [CAT_ERRCNT1_REPAIR_CNT, CAT_ERRCNT1_SNPTO_CNT], false⟩,
  ⟨0x4000048, [(0x1000000, 2)], 0x0, [CAT_ERRCNT2_LSWB_FAIL, CAT_ERRCNT2_PROTO_CNT], false⟩,
  ⟨0x400004c, [(0x1000000, 2)], 0x0, [CAT_ERRCNT3_POISON_CNT], false⟩,
  ⟨0x6000000, [(0x1000000, 2)], 0x0, [STK_CTL_EN], false⟩,
  ⟨0x6000004, [(0x1000000, 2)], 0x0, [STK_STAT_SPILL_FREE, STK_STAT_CHIP_FREE], false⟩,
  ⟨0x6000008, [(0x1000000, 2)], 0x0, [STK_RUN_RUNNING], false⟩,
  ⟨0x6100000, [(0x1000000, 2), (0x40, 512)], 0x0, [STK_JOB_STAT_TOO_LATE, STK_JOB_STAT_REASON, STK_JOB_STAT_STATE, STK_JOB_STAT_WBASE], false⟩,
  ⟨0x6100004, [(0x1000000, 2), (0x40, 512)], 0x0, [STK_JOB_CNT0_RANGE_COUNT], false⟩,
  ⟨0x6100008, [(0x1000000, 2), (0x40, 512)], 0x0, [STK_JOB_CNT1_OVF_COUNT], false⟩,
  ⟨0x610000c, [(0x1000000, 2), (0x40, 512)], 0x0, [STK_JOB_CNT2_DUP_CNT], false⟩]

/-- Rows of the register table. -/
def regTable4 : List RegDesc := [
  ⟨0x6100010, [(0x1000000, 2), (0x40, 512)], 0x0, [STK_JOB_END_LO_NS], true⟩,
  ⟨0x6100014, [(0x1000000, 2), (0x40, 512)], 0x0, [STK_JOB_END_HI_NS], false⟩,
  ⟨0x6000040, [(0x1000000, 2)], 0x0, [STK_ERRCNT0_NOTC_CNT, STK_ERRCNT0_NOJOB_CNT], false⟩,
  ⟨0x6000044, [(0x1000000, 2)], 0x0, [STK_ERRCNT1_WINMISS_CNT, STK_ERRCNT1_BADWR_CNT], false⟩,
  ⟨0x6000048, [(0x1000000, 2)], 0x0, [STK_ERRCNT2_EARLY_CNT, STK_ERRCNT2_NOTSENT_CNT], false⟩,
  ⟨0x600004c, [(0x1000000, 2)], 0x0, [STK_ERRCNT3_ECC_UNC, STK_ERRCNT3_ECC_CORR], false⟩,
  ⟨0x8000000, [(0x100000000, 2)], 0x1, [UMP_CTL_EVT_EN], false⟩,
  ⟨0x8000004, [(0x100000000, 2)], 0x0, [UMP_STAT_BADCNT, UMP_STAT_DBG_AUTH, UMP_STAT_STG_BUSY], false⟩,
  ⟨0x8000008, [(0x100000000, 2)], 0x0, [UMP_GEN_GEN], false⟩,
  ⟨0x8000100, [(0x40, 2)], 0x0, [UMP_LIVE_OLDEST], false⟩,
  ⟨0x8000104, [(0x40, 2)], 0x0, [UMP_FLOG_INFO_VALID, UMP_FLOG_INFO_MORE, UMP_FLOG_INFO_TENANT, UMP_FLOG_INFO_DBG, UMP_FLOG_INFO_NEED, UMP_FLOG_INFO_GEN], false⟩,
  ⟨0x8000108, [(0x40, 2)], 0x0, [UMP_FLOG_TGT_NOMATCH, UMP_FLOG_TGT_TKIND, UMP_FLOG_TGT_TIDX, UMP_FLOG_TGT_RULE], false⟩,
  ⟨0x800010c, [(0x40, 2)], 0x0, [UMP_FLOG_ADDR_LO_ADDR], true⟩,
  ⟨0x8000110, [(0x40, 2)], 0x0, [UMP_FLOG_ADDR_HI_ADDR], false⟩,
  ⟨0x8000114, [(0x40, 2)], 0x0, [UMP_ERRCNT0_DBG_DENY_CNT, UMP_ERRCNT0_FAULT_CNT], false⟩,
  ⟨0x8000118, [(0x40, 2)], 0x0, [UMP_ERRCNT1_STGDISC_CNT], false⟩,
  ⟨0x9000000, [(0x800000, 2)], 0x0, [QOS_CTL_LOCK], false⟩,
  ⟨0x9000004, [(0x800000, 2)], 0x6, [QOS_INT_TC_STK_TC, QOS_INT_TC_SNP_TC], false⟩,
  ⟨0x9060000, [(0x800000, 2), (0x10, 32)], 0x0, [QOS_TEN_TC_PASS_TC, QOS_TEN_TC_SF_TC, QOS_TEN_TC_CACHE_TC, QOS_TEN_TC_MEM_TC], false⟩,
  ⟨0x9060004, [(0x800000, 2), (0x10, 32)], 0xfac688, [QOS_TEN_IOMAP_MAP], false⟩,
  ⟨0x9012000, [(0x800000, 2), (0x4, 256)], 0x0, [QOS_SHP_TOK_TOKENS], false⟩,
  ⟨0x9070000, [(0x800000, 2), (0x4, 4096)], 0x0, [QOS_VF_CNT_RED_CNT, QOS_VF_CNT_YEL_CNT], false⟩,
  ⟨0x9060008, [(0x800000, 2), (0x10, 32)], 0x0, [QOS_TEN_DROP_DROP_CNT], false⟩,
  ⟨0x9030000, [(0x800000, 2), (0x100, 16), (0x4, 64)], 0xff000000, [QOS_ELIST_GATES, QOS_ELIST_INTERVAL], false⟩,
  ⟨0x9050000, [(0x800000, 2), (0x10, 16)], 0x0, [QOS_EPH_STAT_TOO_LATE, QOS_EPH_STAT_OUTCOME, QOS_EPH_STAT_COUNT], false⟩]

/-- Rows of the register table. -/
def regTable5 : List RegDesc := [
  ⟨0x9000010, [(0x800000, 2)], 0xe0008, [QOS_ROT_CFG_HIGH, QOS_ROT_CFG_WIN], false⟩,
  ⟨0x9000014, [(0x800000, 2)], 0x30206000, [QOS_ROT_QUOTA0_Q3, QOS_ROT_QUOTA0_Q2, QOS_ROT_QUOTA0_Q1, QOS_ROT_QUOTA0_Q0], false⟩,
  ⟨0x9000018, [(0x800000, 2)], 0x0, [QOS_ROT_QUOTA1_Q6, QOS_ROT_QUOTA1_Q5, QOS_ROT_QUOTA1_Q4], false⟩,
  ⟨0x900001c, [(0x800000, 2)], 0x0, [QOS_ROT_STAT_RESTART, QOS_ROT_STAT_FENCED, QOS_ROT_STAT_LAST_PC], false⟩,
  ⟨0x9000040, [(0x800000, 2)], 0x0, [QOS_ERRCNT0_WDOG_CNT, QOS_ERRCNT0_SHPBAD_CNT], false⟩,
  ⟨0x200000000, [(0x100000, 64), (0x1000, 256)], 0x0, [SF_ALIVE_STATE, SF_ALIVE_BEAT], false⟩,
  ⟨0x200000004, [(0x100000, 64), (0x1000, 256)], 0x0, [SF_FN_STAT_FLR, SF_FN_STAT_FROZEN, SF_FN_STAT_HALTED, SF_FN_STAT_WITHDRAWN, SF_FN_STAT_POOL], false⟩,
  ⟨0x200000008, [(0x100000, 64), (0x1000, 256)], 0x0, [SF_FN_ERRCNT0_ECC_UNC, SF_FN_ERRCNT0_ECC_CORR], false⟩,
  ⟨0x20000000c, [(0x100000, 64), (0x1000, 256)], 0x0, [SF_FN_ERRCNT1_PTR_ERR, SF_FN_ERRCNT1_FRZ_WR, SF_FN_ERRCNT1_SQ_DISC], false⟩,
  ⟨0x200000040, [(0x100000, 64), (0x1000, 256), (0x10, 3)], 0x40000, [SF_QCFG_STATE, SF_QCFG_QERR, SF_QCFG_SIZE, SF_QCFG_IE, SF_QCFG_FLUSH, SF_QCFG_EN], false⟩,
  ⟨0x200000044, [(0x100000, 64), (0x1000, 256), (0x10, 3)], 0x0, [SF_QPTR_TAIL, SF_QPTR_HEAD], false⟩,
  ⟨0x200000048, [(0x100000, 64), (0x1000, 256), (0x10, 3)], 0x0, [SF_QWM_LEVEL, SF_QWM_HIGH, SF_QWM_LOW], false⟩,
  ⟨0x200000100, [(0x100000, 64), (0x1000, 256)], 0x0, [SF_MIG_CTL_VF, SF_MIG_CTL_CMD, SF_MIG_CTL_ABORT], false⟩,
  ⟨0x200000104, [(0x100000, 64), (0x1000, 256)], 0x0, [SF_MIG_STAT_TOO_LATE, SF_MIG_STAT_REASON, SF_MIG_STAT_STATE, SF_MIG_STAT_ROWSTAT], false⟩,
  ⟨0x200000108, [(0x100000, 64), (0x1000, 256)], 0x0, [SF_MIG_ADDR_LO_ADDR], true⟩,
  ⟨0x20000010c, [(0x100000, 64), (0x1000, 256)], 0x0, [SF_MIG_ADDR_HI_ADDR], false⟩,
  ⟨0x200000110, [(0x100000, 64), (0x1000, 256)], 0xc0, [SF_MIG_LEN_LEN], false⟩,
  ⟨0xa004000, [(0x10000, 64)], 0x0, [SF_POOL_QUOTA], false⟩,
  ⟨0xa004004, [(0x10000, 64)], 0x0, [SF_PF_STAT_VFE_ERR, SF_PF_STAT_VFE_REQ, SF_PF_STAT_NUMVF], false⟩,
  ⟨0xa004010, [(0x10000, 64)], 0x0, [SF_PASS_LIVE_SEND_LO_MASK], true⟩,
  ⟨0xa004014, [(0x10000, 64)], 0x0, [SF_PASS_LIVE_SEND_HI_MASK], false⟩,
  ⟨0xa004018, [(0x10000, 64)], 0x0, [SF_PASS_LIVE_ACC_LO_MASK], true⟩,
  ⟨0xa00401c, [(0x10000, 64)], 0x0, [SF_PASS_LIVE_ACC_HI_MASK], false⟩,
  ⟨0xc000000, [(0x1000, 32)], 0x14, [SHT_CTL_GANG, SHT_CTL_AUTO_FEED, SHT_CTL_AUX_PREF, SHT_CTL_RETRY_EN], false⟩,
  ⟨0xc000004, [(0x1000, 32)], 0x0, [SHT_STAT_STATE, SHT_STAT_TRIP, SHT_STAT_ATTEMPT, SHT_STAT_RSEQ, SHT_STAT_RWHY, SHT_STAT_PGQ, SHT_STAT_TOO_LATE, SHT_STAT_FET_SHORT, SHT_STAT_AUX_ON, SHT_STAT_AUX_SRC, SHT_STAT_AUX_OK, SHT_STAT_FEED_B_OK, SHT_STAT_FEED_A_OK, SHT_STAT_RAMP_DONE, SHT_STAT_BRK_RUN, SHT_STAT_PG], false⟩]

/-- Rows of the register table. -/
def regTable6 : List RegDesc := [
  ⟨0xc000008, [(0x1000, 32)], 0x500bb8, [SHT_RAMP_RAMP_TMO, SHT_RAMP_DVDT], false⟩,
  ⟨0xc00000c, [(0x1000, 32)], 0x1900020, [SHT_ILIM_I_FAST, SHT_ILIM_I_RLIM], false⟩,
  ⟨0xc000010, [(0x1000, 32)], 0xa00000, [SHT_BRK_I_NOM], false⟩,
  ⟨0xc000014, [(0x1000, 32)], 0x2800, [SHT_HTRIP_H_TRIP], false⟩,
  ⟨0xc000018, [(0x1000, 32)], 0xa0032, [SHT_SOA_E_COOL, SHT_SOA_E_SOA], false⟩,
  ⟨0xc00001c, [(0x1000, 32)], 0x271001f4, [SHT_RSH_AUX_RSH, SHT_RSH_RSH], false⟩,
  ⟨0xc000020, [(0x1000, 32)], 0x6c8c5a96, [SHT_VTH_FEED_UV, SHT_VTH_FEED_OV, SHT_VTH_PG_TH, SHT_VTH_AUX_UV], false⟩,
  ⟨0xc000024, [(0x1000, 32)], 0x643000, [SHT_AUX_AUX_RET, SHT_AUX_AUX_IFAST], false⟩,
  ⟨0xc000028, [(0x1000, 32)], 0x0, [SHT_CAL_IGAIN, SHT_CAL_VGAIN], false⟩,
  ⟨0xc000040, [(0x1000, 32), (0x4, 10)], 0x0, [SHT_M_VAL], false⟩,
  ⟨0xc000080, [(0x1000, 32)], 0x0, [SHT_ESNAP_SNAP], false⟩,
  ⟨0xc000090, [(0x1000, 32), (0x4, 8)], 0x0, [SHT_E_ACC], false⟩,
  ⟨0xc0000c0, [(0x1000, 32)], 0x0, [SHT_ERRCNT0_FAST_CNT, SHT_ERRCNT0_I2T_CNT], false⟩,
  ⟨0xc0000c4, [(0x1000, 32)], 0x0, [SHT_ERRCNT1_SOA_CNT, SHT_ERRCNT1_RAMP_CNT], false⟩,
  ⟨0xc0000c8, [(0x1000, 32)], 0x0, [SHT_ERRCNT2_GATE_CNT, SHT_ERRCNT2_RETRY_CNT], false⟩,
  ⟨0xc0000cc, [(0x1000, 32)], 0x0, [SHT_ERRCNT3_REV_CNT, SHT_ERRCNT3_AUXSW_CNT], false⟩,
  ⟨0xe000000, [(0x800000, 2)], 0x3, [REF_CTL_SB_FREEZE, REF_CTL_EVQ_EN], false⟩,
  ⟨0xe000004, [(0x800000, 2)], 0x0, [REF_STAT_FATAL_DEV, REF_STAT_SB_FROZEN, REF_STAT_EVQ_HI], false⟩,
  ⟨0xe000008, [(0x800000, 2)], 0x0, [REF_SB_PTR_WRAPPED, REF_SB_PTR_NEXT], false⟩,
  ⟨0xe00000c, [(0x800000, 2)], 0x0, [REF_SEQ_SEQ], false⟩,
  ⟨0xe000010, [(0x800000, 2)], 0x0, [REF_EVQ_PTR_TAIL, REF_EVQ_PTR_HEAD], false⟩,
  ⟨0xe000014, [(0x800000, 2)], 0x3000100, [REF_EVQ_WM_HIGH, REF_EVQ_WM_LOW], false⟩,
  ⟨0xe000018, [(0x800000, 2)], 0x0, [REF_RAISE_SEV, REF_RAISE_CAUSE], false⟩,
  ⟨0xe00001c, [(0x800000, 2)], 0x0, [REF_UNFENCE_KIND, REF_UNFENCE_INSTANCE], false⟩,
  ⟨0xe000020, [(0x800000, 2)], 0x0, [REF_REQUAL_BANK, REF_REQUAL_RESULT, REF_REQUAL_START], false⟩]

/-- Rows of the register table. REF_LEAK(6) and REF_LEAK(7) reset to 0, for which R425 gives no value (log 130, DESIGN CHOICE). -/
def regTable7 : List RegDesc := [
  ⟨0xe000030, [(0x800000, 2)], 0x16e5f00, [REF_THERM_GRADE, REF_THERM_TRIP_EN, REF_THERM_CRIT, REF_THERM_WARN, REF_THERM_TJ], false⟩,
  ⟨0xe000034, [(0x800000, 2)], 0x12c0000, [REF_AGE_THR, REF_AGE_SLOW], false⟩,
  ⟨0xe000040, [(0x800000, 2)], 0x0, [REF_ERRCNT0_CSUNR_CNT, REF_ERRCNT0_CSDEC_CNT], false⟩,
  ⟨0xe000044, [(0x800000, 2)], 0x0, [REF_ERRCNT1_EVQ_DROP_CNT, REF_ERRCNT1_WDISC_CNT], false⟩,
  ⟨0xe000100, [(0x800000, 2), (0x4, 32)], 0xe0000003, [REF_CLS_SB, REF_CLS_EVQ, REF_CLS_ALERT, REF_CLS_MIN_SEV], false⟩,
  ⟨0xe000200, [(0x800000, 2)], 0x10080114, [REF_LEAK_THRESH, REF_LEAK_W_UNC, REF_LEAK_W_CORR, REF_LEAK_LEAK_EXP], false⟩,
  ⟨0xe000204, [(0x800000, 2)], 0x40200110, [REF_LEAK_THRESH, REF_LEAK_W_UNC, REF_LEAK_W_CORR, REF_LEAK_LEAK_EXP], false⟩,
  ⟨0xe000208, [(0x800000, 2)], 0x40200110, [REF_LEAK_THRESH, REF_LEAK_W_UNC, REF_LEAK_W_CORR, REF_LEAK_LEAK_EXP], false⟩,
  ⟨0xe00020c, [(0x800000, 2)], 0x40200110, [REF_LEAK_THRESH, REF_LEAK_W_UNC, REF_LEAK_W_CORR, REF_LEAK_LEAK_EXP], false⟩,
  ⟨0xe000210, [(0x800000, 2)], 0x40200110, [REF_LEAK_THRESH, REF_LEAK_W_UNC, REF_LEAK_W_CORR, REF_LEAK_LEAK_EXP], false⟩,
  ⟨0xe000214, [(0x800000, 2)], 0x8010010c, [REF_LEAK_THRESH, REF_LEAK_W_UNC, REF_LEAK_W_CORR, REF_LEAK_LEAK_EXP], false⟩,
  ⟨0xe000218, [(0x800000, 2)], 0x0, [REF_LEAK_THRESH, REF_LEAK_W_UNC, REF_LEAK_W_CORR, REF_LEAK_LEAK_EXP], false⟩,
  ⟨0xe00021c, [(0x800000, 2)], 0x0, [REF_LEAK_THRESH, REF_LEAK_W_UNC, REF_LEAK_W_CORR, REF_LEAK_LEAK_EXP], false⟩,
  ⟨0xe008000, [(0x800000, 2), (0x800, 8), (0x4, 512)], 0x0, [REF_LCNT_FENCED, REF_LCNT_RETIRED, REF_LCNT_COUNT], false⟩,
  ⟨0x180, [], 0x11, [MRD_ALERT_CTL_LATCH, MRD_ALERT_CTL_STOPPED, MRD_ALERT_CTL_HOLD, MRD_ALERT_CTL_MODE], false⟩,
  ⟨0x188, [], 0x0, [MRD_LIFE_LO_LIFE], true⟩,
  ⟨0x18c, [], 0x0, [MRD_LIFE_HI_LIFE], false⟩,
  ⟨0xd000000, [(0x800000, 2)], 0xa00, [PHM_CTL_WEXP, PHM_CTL_CAD_EN], false⟩,
  ⟨0xd000004, [(0x800000, 2)], 0x0, [PHM_GRP_CLR, PHM_GRP_EN], false⟩,
  ⟨0xd000008, [(0x800000, 2)], 0x0, [PHM_STAT_BUSY], false⟩,
  ⟨0xd00000c, [(0x800000, 2)], 0x0, [PHM_SEQ_SEQ], false⟩,
  ⟨0xd000010, [(0x800000, 2)], 0x3e80000, [PHM_CAD_PERIOD, PHM_CAD_PHASE], false⟩,
  ⟨0xd000014, [(0x800000, 2)], 0x0, [PHM_DEST_KIND, PHM_DEST_RING, PHM_DEST_OWNER, PHM_DEST_PORT, PHM_DEST_SUB, PHM_DEST_LD], false⟩,
  ⟨0xd000018, [(0x800000, 2)], 0x0, [PHM_ADDR_LO_ADDR], true⟩,
  ⟨0xd00001c, [(0x800000, 2)], 0x0, [PHM_ADDR_HI_ADDR], false⟩]

/-- Rows of the register table. -/
def regTable8 : List RegDesc := [
  ⟨0xd000020, [(0x800000, 2)], 0x0, [PHM_ERRCNT_PLFAIL_CNT, PHM_ERRCNT_MISS_CNT], false⟩,
  ⟨0xd000040, [(0x800000, 2), (0x8, 256)], 0x0, [PHM_CNT_LO_VAL], true⟩,
  ⟨0xd000044, [(0x800000, 2), (0x8, 256)], 0x0, [PHM_CNT_HI_VAL], false⟩,
  ⟨0xd001000, [(0x800000, 2), (0x4, 256)], 0x0, [PHM_SEL_MODE, PHM_SEL_WEVT, PHM_SEL_UNIT, PHM_SEL_EVENT, PHM_SEL_INST], false⟩,
  ⟨0xd001400, [(0x800000, 2), (0x4, 8)], 0x0, [PHM_WRAP_WRAP], false⟩,
  ⟨0xd001800, [(0x800000, 2), (0x8, 16)], 0x0, [PHM_BW_RX_MBPS], false⟩,
  ⟨0xd001804, [(0x800000, 2), (0x8, 16)], 0x0, [PHM_BW_TX_MBPS], false⟩,
  ⟨0x40, [], 0x0, [MRD_STRAP_I3C_ADDR, MRD_STRAP_PWR_AUTO, MRD_STRAP_FINDER_ONLY, MRD_STRAP_BOOT, MRD_STRAP_PRIM_SEL], false⟩,
  ⟨0x44, [], 0x140100, [MRD_PWR_CTL_PG_TMO, MRD_PWR_CTL_GAP, MRD_PWR_CTL_DOWN, MRD_PWR_CTL_GO], false⟩,
  ⟨0x48, [], 0x0, [MRD_PWR_STAT_EN, MRD_PWR_STAT_PG, MRD_PWR_STAT_STATE, MRD_PWR_STAT_FAIL_RAIL, MRD_PWR_STAT_ATTEMPTS], false⟩,
  ⟨0x4c, [], 0x0, [MRD_RST_CTL_COLD, MRD_RST_CTL_WARM], false⟩,
  ⟨0x50, [], 0x0, [MRD_BOOT_CTL_PREF_V, MRD_BOOT_CTL_PREF], false⟩,
  ⟨0x54, [], 0x0, [MRD_BOOT_STAT_SVN, MRD_BOOT_STAT_BOOT_FAIL, MRD_BOOT_STAT_RUNNING, MRD_BOOT_STAT_RES_B, MRD_BOOT_STAT_RES_A], false⟩,
  ⟨0x58, [], 0x0, [MRD_SVC_CTL_TRIM, MRD_SVC_CTL_FINDER], false⟩,
  ⟨0x5c, [], 0x0, [MRD_SVC_STAT_TRIMMED, MRD_SVC_STAT_PHASE], false⟩,
  ⟨0x60, [], 0x0, [MRD_PROMOTE_PORT], false⟩,
  ⟨0x64, [], 0x0, [MRD_PROMOTED_PORT], false⟩,
  ⟨0xf000000, [(0x800000, 2)], 0x0, [OBS_CTL_HANDOVER], false⟩,
  ⟨0xf000004, [(0x800000, 2)], 0x0, [OBS_STAT_JOURNAL_OK, OBS_STAT_STANDBY_READY, OBS_STAT_ACTING, OBS_STAT_ROLE], false⟩,
  ⟨0xf000008, [(0x800000, 2)], 0x14, [OBS_WDOG_KICK, OBS_WDOG_TMO], false⟩,
  ⟨0xf00000c, [(0x800000, 2)], 0x0, [OBS_ERRCNT_HO_REFUSED_CNT, OBS_ERRCNT_FAILOVER_CNT], false⟩,
  ⟨0xf000100, [(0x800000, 2), (0x4, 1)], 100, [OBS_SHARE_QUANTA], false⟩,
  ⟨0xf000104, [(0x800000, 2), (0x4, 1)], 50, [OBS_SHARE_QUANTA], false⟩,
  ⟨0xf000108, [(0x800000, 2), (0x4, 1)], 58, [OBS_SHARE_QUANTA], false⟩,
  ⟨0xf00010c, [(0x800000, 2), (0x4, 64)], 3, [OBS_SHARE_QUANTA], false⟩]

/-- Rows of the register table. -/
def regTable9 : List RegDesc := [
  ⟨0xf000200, [(0x800000, 2), (0x4, 67)], 0x0, [OBS_CLS_STAT_BUSY_CNT, OBS_CLS_STAT_QUEUED], false⟩,
  ⟨0x1c0, [], 0x0, [MRD_DBG_CTL_DEAUTH], false⟩,
  ⟨0x1c4, [], 0x0, [MRD_DBG_STAT_DISABLED, MRD_DBG_STAT_LOCKOUT, MRD_DBG_STAT_AUTHFAIL, MRD_DBG_STAT_AUTH], false⟩,
  ⟨0x210, [], 0x1, [MRD_FRZ_CTL_EN], false⟩,
  ⟨0x214, [], 0x0, [MRD_FRZ_STAT_READOUT, MRD_FRZ_STAT_FROZEN], false⟩,
  ⟨0xb030030, [(0x800000, 2)], 0x0, [TRP_FAULT_VALID, TRP_FAULT_CODE, TRP_FAULT_PC], false⟩,
  ⟨0xb030034, [(0x800000, 2)], 0x0, [TRP_FAULT_TN_LO_TN], true⟩,
  ⟨0xb030038, [(0x800000, 2)], 0x0, [TRP_FAULT_TN_HI_TN], false⟩,
  ⟨0xb030040, [(0x800000, 2)], 0x0, [TRP_ALARM_FIRED], false⟩,
  ⟨0xb030044, [(0x800000, 2)], 0x0, [TRP_ALARM_ARM_ARMED], false⟩,
  ⟨0xb030048, [(0x800000, 2)], 0x0, [TRP_OBOX_PTR_TAIL, TRP_OBOX_PTR_HEAD], false⟩,
  ⟨0xb03004c, [(0x800000, 2)], 0x0, [TRP_ERRCNT1_SENDDROP_CNT, TRP_ERRCNT1_FAULT_CNT], false⟩,
  ⟨0xb000000, [(0x800000, 2), (0x10000, 2), (0x4, 16384)], 0x0, [rawRW], false⟩,
  ⟨0xb020000, [(0x800000, 2), (0x4, 4096)], 0x0, [rawRO], false⟩,
  ⟨0xb030800, [(0x800000, 2), (0x40, 32), (0x4, 16)], 0x0, [rawRO], false⟩,
  ⟨0xb040000, [(0x800000, 2), (0x20, 256), (0x4, 8)], 0x0, [rawRW], false⟩,
  ⟨0xa001000, [(0x10000, 64), (0x20, 64), (0x4, 2)], 0, [rawRW], false⟩,
  ⟨0xa001008, [(0x10000, 64), (0x20, 64)], 0, [rowHigh, rowStatus, rowTicket], false⟩,
  ⟨0xa00100c, [(0x10000, 64), (0x20, 64), (0x4, 5)], 0, [rawRW], false⟩,
  ⟨0xa003000, [(0x10000, 64), (0x20, 16), (0x4, 2)], 0, [rawRW], false⟩,
  ⟨0xa003008, [(0x10000, 64), (0x20, 16)], 0, [rowHigh, rowStatus, rowTicket], false⟩,
  ⟨0xa00300c, [(0x10000, 64), (0x20, 16), (0x4, 5)], 0, [rawRW], false⟩,
  ⟨0x4002000, [(0x1000000, 2), (0x20, 16), (0x4, 2)], 0, [rawRW], false⟩,
  ⟨0x4002008, [(0x1000000, 2), (0x20, 16)], 0, [rowHigh, rowStatus, rowTicket], false⟩,
  ⟨0x400200c, [(0x1000000, 2), (0x20, 16), (0x4, 5)], 0, [rawRW], false⟩]

/-- Rows of the register table. -/
def regTable10 : List RegDesc := [
  ⟨0x6001000, [(0x1000000, 2), (0x20, 16), (0x4, 2)], 0, [rawRW], false⟩,
  ⟨0x6001008, [(0x1000000, 2), (0x20, 16)], 0, [rowHigh, rowStatus, rowTicket], false⟩,
  ⟨0x600100c, [(0x1000000, 2), (0x20, 16), (0x4, 5)], 0, [rawRW], false⟩,
  ⟨0x6200000, [(0x1000000, 2), (0x800, 512), (0x4, 512)], 0x0, [rawRW], false⟩,
  ⟨0x8001000, [(0x100000000, 2), (0x4, 2)], 0, [rawRW], false⟩,
  ⟨0x8001008, [(0x100000000, 2)], 0, [rowHigh, rowStatus, rowTicket], false⟩,
  ⟨0x800100c, [(0x100000000, 2), (0x4, 5)], 0, [rawRW], false⟩,
  ⟨0x8100000, [(0x100000000, 2), (0x20, 32768), (0x4, 8)], 0x0, [rawRW], false⟩,
  ⟨0x8200000, [(0x100000000, 2), (0x20, 32768), (0x4, 8)], 0x0, [rawRO], false⟩,
  ⟨0x9010000, [(0x800000, 2), (0x10, 256)], 0x0, [rawRW], false⟩,
  ⟨0x9010004, [(0x800000, 2), (0x10, 256)], 0x0, [rawRW], true⟩,
  ⟨0x9010008, [(0x800000, 2), (0x10, 256), (0x4, 2)], 0x0, [rawRW], false⟩,
  ⟨0x9011000, [(0x800000, 2), (0x10, 256), (0x4, 4)], 0x0, [rawRO], false⟩,
  ⟨0x9020000, [(0x800000, 2), (0x20, 16), (0x4, 2)], 0, [rawRW], false⟩,
  ⟨0x9020008, [(0x800000, 2), (0x20, 16)], 0, [rowHigh, rowStatus, rowTicket], false⟩,
  ⟨0x902000c, [(0x800000, 2), (0x20, 16), (0x4, 5)], 0, [rawRW], false⟩,
  ⟨0x9021000, [(0x800000, 2), (0x20, 16), (0x4, 2)], 0, [rawRW], false⟩,
  ⟨0x9021008, [(0x800000, 2), (0x20, 16)], 0, [rowHigh, rowStatus, rowTicket], false⟩,
  ⟨0x902100c, [(0x800000, 2), (0x20, 16), (0x4, 5)], 0, [rawRW], false⟩,
  ⟨0x9040000, [(0x800000, 2), (0x100, 16), (0x4, 64)], 0xff000000, [QOS_EACT_GATES, QOS_EACT_INTERVAL], false⟩,
  ⟨0x9050004, [(0x800000, 2), (0x10, 16)], 0x0, [rawRO], true⟩,
  ⟨0x9050008, [(0x800000, 2), (0x10, 16)], 0x0, [rawRO], false⟩,
  ⟨0xc000800, [(0x1000, 32), (0x4, 2)], 0, [rawRW], false⟩,
  ⟨0xc000808, [(0x1000, 32)], 0, [rowHigh, rowStatus, rowTicket], false⟩,
  ⟨0xc00080c, [(0x1000, 32), (0x4, 5)], 0, [rawRW], false⟩,
  ⟨0xe001000, [(0x800000, 2), (0x20, 64), (0x4, 8)], 0x0, [rawROS], false⟩,
  ⟨0xe010000, [(0x800000, 2), (0x20, 1024), (0x4, 8)], 0x0, [rawRO], false⟩]

/-- Rows of the register table. -/
def regTable11 : List RegDesc := [
  ⟨0x1c8, [(0x4, 4)], 0x0, [rawRO], false⟩,
  ⟨0x1d8, [(0x4, 12)], 0x0, [rawRO], false⟩]

/-- The register table (R24 and the register tables of every chapter). -/
def regTable : List RegDesc :=
  regTable0 ++ regTable1 ++ regTable2 ++ regTable3 ++ regTable4 ++ regTable5 ++ regTable6 ++ regTable7 ++ regTable8 ++ regTable9 ++ regTable10 ++ regTable11

/-- Does the offset `off` from a register's base fall on one of its instances? Strides fall. -/
def hits : List (Nat × Nat) → Nat → Bool
  | [], off => off == 0
  | (st, n) :: ds, off => decide (off / st < n) && hits ds (off % st)

/-- The register at address `a`, if the map has one (R10). -/
def descAt (a : Nat) : Option RegDesc :=
  regTable.find? fun d => decide (d.base ≤ a) && hits d.dims (a - d.base)

/-- What an unwritten register reads as: its reset value (R8), 0 where no register is. -/
def resetWord (a : Nat) : Word :=
  match descAt a with
  | some d => BitVec.ofNat 32 d.resetWord
  | none => 0

end Sys2Proof.Machine
end

