-- ==== Sys2Proof/Machine/Sparse.lean ====
section
/-! DEFINITION. Sparse tables as plain data: a list of (key, value) pairs with strictly rising keys.
It is the one form in which the model keeps register words, memories and tables. -/

namespace Sys2Proof.Machine

/-- A sparse table. `SMap.wf` is its canonical form. -/
abbrev SMap (α : Type) := List (Nat × α)

/-- The entry at key `k`. -/
def mfind {α : Type} (m : SMap α) (k : Nat) : Option α :=
  match m with
  | [] => none
  | (j, x) :: r => if k = j then some x else mfind r k

/-- Put `x` at key `k`, keeping the keys rising. -/
def minsert {α : Type} (m : SMap α) (k : Nat) (x : α) : SMap α :=
  match m with
  | [] => [(k, x)]
  | (j, y) :: r =>
    if k < j then (k, x) :: (j, y) :: r
    else if k = j then (k, x) :: r
    else (j, y) :: minsert r k x

/-- Take key `k` away. -/
def merase {α : Type} (m : SMap α) (k : Nat) : SMap α :=
  match m with
  | [] => []
  | (j, y) :: r => if k = j then merase r k else (j, y) :: merase r k

/-- The canonical form: strictly rising keys. -/
def SMap.wf {α : Type} (m : SMap α) : Bool :=
  match m with
  | [] => true
  | (j, _) :: r => (r.all fun e => decide (j < e.1)) && SMap.wf r

/-- Read key `k` of a table whose unlisted keys read as `d k`. -/
def mget {α : Type} (d : Nat → α) (m : SMap α) (k : Nat) : α :=
  (mfind m k).getD (d k)

/-- Write key `k` of a table whose unlisted keys read as `d k`: an entry equal to what an unlisted key
reads as is removed, so that equal tables are equal data. -/
def mset {α : Type} [DecidableEq α] (d : Nat → α) (m : SMap α) (k : Nat) (x : α) : SMap α :=
  if x = d k then merase m k else minsert m k x

/-- The canonical form of a table with a default: rising keys, no entry equal to the default. -/
def canon {α : Type} [DecidableEq α] (d : Nat → α) (m : SMap α) : Bool :=
  SMap.wf m && m.all fun e => decide (e.2 ≠ d e.1)

/-- Change every value for which the function answers a new one; `none` takes the entry away. -/
def mmapOpt {α : Type} (m : SMap α) (f : Nat → α → Option α) : SMap α :=
  match m with
  | [] => []
  | (k, x) :: r =>
    match f k x with
    | some y => (k, y) :: mmapOpt r f
    | none => mmapOpt r f

end Sys2Proof.Machine
end

