-- ==== Sys2Proof/Machine/State.lean ====
section
/-! DEFINITION. The state of Kezen as plain data. Every register of the register map is a word of `State.regs`;
what the spec gives the engines beside their registers stands in one structure per unit, once per half where
the spec has the unit in both halves. -/

namespace Sys2Proof.Machine

open Sys2Proof

/-- An event record (R417) as the Referee keeps it, with the places its copies were written to. -/
structure Evt where
  cls : Nat
  cause : Nat
  sev : Nat
  inst : Nat
  unitKind : Nat
  half : Half
  lost : Bool
  seq : Nat
  ns : Nat
  count : Nat
  leaky : Nat
  detail : Nat
  sbSlot : Option Nat
  evqIdx : Option Nat
  deriving DecidableEq, Repr

/-- An event of a handler list (R50) with the number of consecutive Transits it was deferred (R53). -/
structure HEvt where
  evt : Evt
  deferred : Nat
  told : Bool
  deriving DecidableEq, Repr

/-- What a committed row is (R510). -/
inductive RowKind where
  | shaper | binding | unbinding | window | job | meter | eph | fn | gen | power | alarm | plate
  deriving DecidableEq, Repr

/-- A committed row: its kind, its index in its staged table, the address it was copied from, and its words
as copied at issue (R63, R510). -/
structure Row where
  kind : RowKind
  idx : Nat
  addr : Nat
  words : List Word
  deriving DecidableEq, Repr

/-- An output that a pair holds until the seal (R54): a CS store, a scratch store, a SEND message, a row, or
a SCAN reference update (R511). -/
inductive TOut where
  | cs (a : Nat) (v : Word)
  | scr (i : Nat) (v : BitVec 64)
  | send (ws : List (BitVec 64))
  | row (r : Row)
  | ref (k v : Nat)
  deriving DecidableEq, Repr

/-- An active loop (R505). -/
structure LoopRec where
  start : Nat
  stop : Nat
  count : Nat
  deriving DecidableEq, Repr

/-- What the pair is doing in this Transit (R46, R47, R57, R59): running the main program or a handler, idle,
or stopped with its outputs discarded. -/
inductive TPhase where
  | idle | main | handler | stopped
  deriving DecidableEq, Repr

/-- The Tirop sequencer pair of a half (R497) and its handler list, held outputs and commit queue. `rows`: the rows released at
this Transit's seal and not yet settled (R200); `done`: the seal has taken place; `rel`: it released the outputs; `items`: in
East the device-wide items its rows of Transit `itemsTn` name, in West those it lost to a conflict (R34). -/
structure Trp where
  w : Vector (BitVec 64) 16
  zf : Bool
  nf : Bool
  cf : Bool
  vf : Bool
  tn : Nat
  bc : Nat
  pc : Nat
  loops : List LoopRec
  phase : TPhase
  ran : Bool
  splitAt : Bool
  samplesReady : Bool
  held : List TOut
  dispatched : List HEvt
  hlist : List HEvt
  arrivals : List Evt
  rows : List Row
  commits : List Row
  done : Bool
  rel : Bool
  items : List (List Nat)
  itemsTn : Nat
  refills : List Row
  scanRef : SMap Nat
  alarms : SMap Nat
  oboxSeq : Nat
  runPend : Option Bool
  swapGo : Bool
  swapT : Nat
  swapPair : Bool
  sealed : Bool
  requal : Option (Bool × Nat)
  requalBad : Bool
  requalPass : Option Bool
  deriving DecidableEq, Repr

/-- The Meridian engine of a half: the settings in force (R30), the MSYNC correction (R39, R40), whether a good frame has come
since reset, and the bits of MRD_SYNC_STAT that a write clears at the next boundary (R30). -/
structure Mrd where
  inc : Nat
  ctl : Nat
  dly : Nat
  adj : Int
  phaseErr : Int
  good : Nat
  step : Int
  hold : Nat
  seen : Bool
  clr : Nat
  deriving DecidableEq, Repr

/-- The Referee engine of a half: the records stamped in this Transit (R410), the units being retired
(R425, R426), and which boundaries have leaked. -/
structure Ref where
  recent : List Evt
  draining : List (Nat × Nat)
  sparesUsed : SMap Nat
  banksLost : SMap Nat
  hbmCopy : List Nat
  hbmRetired : List Nat
  spareUsed : Bool
  leakTn : Option Nat
  warned : Bool
  crit : Bool
  unfence : List Nat
  ruleBad : List Nat
  deriving DecidableEq, Repr

/-- A latched plate (R441) on its way to memory: what its lines say, where it goes, the body lines not yet sent, and those sent
that await their outcome. -/
structure PlateImg where
  seq : Nat
  tn : Nat
  tag : Nat
  tir : Bool
  cad : Bool
  missed : Nat
  groups : Nat
  wrap : List Word
  cnts : SMap Nat
  bw : List Word
  dest : Word
  addr : Nat
  todo : List Nat
  waiting : List Nat
  deriving DecidableEq, Repr

/-- The Photometer engine of a half: the selections and groups in force and the groups to be cleared (R437), the window's bytes (R446),
and the plate being written. -/
structure Phm where
  sel : SMap Nat
  grp : Nat
  clr : Nat
  wexp : Nat
  rxBytes : SMap Nat
  txBytes : SMap Nat
  missed : Nat
  plate : Option PlateImg
  tirTag : Option Nat
  latched : Option Nat
  bwTn : Option Nat
  deriving DecidableEq, Repr

/-- The Dome's ALERT_L output (R421, R422): its level, and whether the 2 µs pulse is running; the EVQ_HI_L
output (R420). -/
structure Alert where
  low : Bool
  pulse : Bool
  evqHiLow : Bool
  deriving DecidableEq, Repr

/-- What Kezen has sent out of the package, newest first: indications and answers, recorded so that a
statement can name them.
[log 7, DESIGN CHOICE] -/
inductive Sent where
  /-- The Viral indication on a tenant's upstream sub-port (R414). -/
  | viral (t : Nat)
  /-- An MSYNC frame (R38): the levels of MSYNC_OUT in half cells of 10 ns, the first at the boundary instant. -/
  | msync (line : List Bool)
  /-- A response or synthetic completion to sub-port `dst` under the requester's tag (R114), with its kind and DevLoad, the
  Catalogue's grant (R235), its LD-ID on CXL.mem or the vPPB (tenant * 64 + vPPB) that a synthetic CXL.io completion names as
  its completer, its bytes, its attributes (R108) and its data. -/
  | rsp (dst : Nat) (op : Op) (tag : Nat) (kind : Nat) (devLoad : Nat) (grant : Hold) (id len : Nat) (attr : BitVec 3) (data : Nat)
  /-- A request or posted message on sub-port `dst` under Kezen's tag field (R105): its LD, address and length, its
  MetaValue and snoop, its TC, its attributes (R108), its poison, and the data it carries. -/
  | req (dst : Nat) (op : Op) (tagField ld addr len : Nat) (hold : Hold) (snp : Snp) (tc : Nat) (attr : BitVec 3) (poison : Bool)
      (data : Nat)
  /-- An error logged in the AER registers of vPPB `v` of tenant `t` (32 is U), with the request that its header log holds
  (R115): operation, tag, LD, address, length. -/
  | aer (t v kind : Nat) (hdr : List Nat)
  /-- A hot-plug or presence report of vPPB `v` of tenant `t`. -/
  | vppb (t v : Nat) (what : Nat)
  /-- The answer to an FM API, vendor, CCI, MCTP or SPDM message: command code, return code, data words. -/
  | ans (code ret : Nat) (data : List Nat)
  /-- Anything else that leaves, by a code and its numbers. -/
  | out (code : Nat) (args : List Nat)
  deriving DecidableEq, Repr

/-- The Umpire engine of a half: accesses in flight per generation (R312), the other half's OLDEST as last
reported (R313), the freeze of the staged page between the issue of East's or West's BIND and its outcome, and the copy after an
applied row (R310). -/
structure Ump where
  inflight : SMap Nat
  otherOldest : Nat
  freezeE : Bool
  freezeW : Bool
  copying : Bool
  deriving DecidableEq, Repr

/-- A Shutter channel (spec 13). `smp` is the sample record that the last boundary delivered: SHT_M(0-9),
SHT_STAT and PRSNT; `ready` the record that Tirop may read (R48). `force`: the settings in force by offset (R405). Of the
Transit so far: the sums of its conversions (V_OUT, V_MID, V_A, V_B, I, P, V_X, I_X), their number, whether one exceeded
I_NOM, and whether RAMP_DONE was set before its last instant. Then the last current, the heat H in 2^-32 A² · 100 ns, E_FET and
the two energy accumulators in 2^-32 · 100 nJ, as they are and as they stood at the last boundary; when the ramp under way
started, when a retry's wait ends, when a commanded off was applied, in nanoseconds; which auxiliary feeds are known good;
whether the output has reached PG_TH in the ramp under way (R386), and the main feeds whose FET is off in reverse (R395). -/
structure Chan where
  smp : List Word
  ready : List Word
  force : SMap Word
  sums : List Int
  n : Nat
  hot : Bool
  early : Bool
  cur : Int
  heat : Nat
  efet : Nat
  accM : Int
  accX : Int
  accMB : Int
  accXB : Int
  rampAt : Nat
  waitTo : Nat
  stopAt : Nat
  auxA : Bool
  auxB : Bool
  reached : Bool
  rev : List Nat
  deriving DecidableEq, Repr

/-- The Dome's own state: whether it runs (R450), whether a second with Tj above 95 °C is under way and which boundary last stepped
MRD_LIFE (R431); the port promotions in force (R466), and the reference a write of MRD_REF_CTL selects at the next boundary
(R83); the halves whose Shutter link is lost (R406); whether a failed rail sequence waits for its next attempt (R455), whether
the halves are released (R458), failed trainings of each half's HBM stack and the halves whose stack is trained (R465), and
whether a debug nonce is live (R491); while the rails go down, the MRD_PWR_STAT.STATE that they end in and whether they are then
sequenced again (R456). -/
structure Dome where
  run : Bool
  hot : Bool
  lifeTn : Option Nat
  promo : Nat
  refNext : Option Nat
  linkLost : List Nat
  retry : Bool
  released : Bool
  hbmFails : SMap Nat
  hbmOk : List Nat
  nonce : Bool
  down : Option (Nat × Bool)
  deriving DecidableEq, Repr

-- UNIT STRUCTURES
/-- A sub-port's link state beside its registers (spec 03, 04): whether it has reached L0 since it last left
Detect, failed attempts to reach 32 GT/s, the change in progress (R100) and the width an L0p change goes to,
the held writes of R100, whether an equalisation is under way and the rate whose start presets are in use (R88), Kezen's own
request under way and those withdrawn with their Transits (R98, R99), the corrected symbols of the last 1,000 Transits by port
lane and Transit (R96), the partner's L0p support, the
trained device, unacknowledged flits (R123), the last accepted flit, the DevLoad level (R127), the Transit a promotion's
rate change is waited for since (R466), whether a wait for a free tag entry is under way (R107), whether Kezen holds it in
Disabled (R73, R74), the link credits that the partner has granted and Kezen has not used and those that Kezen has returned
since the link trained, by cell class (R120-R122), and the IDE keys of its two streams (R124). -/
structure Sub where
  reached : Bool
  fails : Nat
  change : Bool
  l0pTo : Option Nat
  heldRetrain : Bool
  heldReeq : Bool
  heldWidth : Bool
  eq : Bool
  eqRate : Nat
  ask : Option LinkAsk
  withdrawn : List (Nat × LinkAsk)
  corr : List (Nat × Nat × Nat)
  l0pOk : Bool
  dev : Option DevInfo
  unacked : Nat
  stalled : Bool
  rxSeq : Nat
  level : Nat
  rateTo : Option Nat
  waiting : Bool
  off : Bool
  txCred : SMap Nat
  rxCred : SMap Nat
  keyIo : Option Nat
  keyMem : Option Nat
  deriving DecidableEq, Repr

/-- A message inside Kezen: what it is, who asked and under which tag, its tenant and target, its size and
data, its TC, its generation, its payload slots, its destination, its posted-order stamp (R131-R139), its CXL.io attributes
(R108), and whether it is a configuration request or its completion (R125). Nodes
0-127 are sub-ports 4p + s; 128 + 32h + k is station k of half h. -/
structure Msg where
  op : Op
  src : Nat
  tag : Nat
  tenant : Nat
  ld : Nat
  tgt : Piece
  len : Nat
  data : Nat
  poison : Bool
  deny : Bool
  hold : Hold
  snp : Snp
  tc : Nat
  gen : Nat
  slots : Nat
  dst : Nat
  mc : List Nat
  stamp : Option Nat
  attr : BitVec 3
  cfg : Bool
  final : Bool
  error : Bool
  itag : Option Nat
  checked : Bool
  yellow : Bool
  deriving DecidableEq, Repr

/-- The pool a cell is charged to (R140); the guarantee is that of a station. -/
inductive Pool where
  | none | prot | shared | head | stage
  | guar (st : Nat)
  deriving DecidableEq, Repr

/-- A cell (R131): the messages packed in it, its payload slots, LAST, the flit its messages came in, PO, its
pool, and the band it counts as. -/
structure Cell where
  msgs : List Nat
  slots : Nat
  last : Bool
  flit : Nat
  po : Bool
  pool : Pool
  deriving DecidableEq, Repr

/-- A virtual output queue (R137): its on-chip segment, its deep segment page by page, the pages of a return
in flight, and whether it is spilled (R149). -/
structure Voq where
  chip : List Cell
  deep : List (List Cell)
  ret : List (List Cell)
  spilled : Bool
  deriving DecidableEq, Repr

/-- The switch core of a half (spec 05): queues by key ((station * 80 + destination) * 9 + class) * 2 + band,
formed cells that have not arrived and held cells by station, spill queues, multicast queues by station * 2 +
band, egress buffers by destination * 9 + class, the posted counts of R139, the matchers' pointers, pairs
held by long messages by (matcher * 32 + ingress) * 32 + egress, the slot number, the units' inputs, and the cells that have
crossed to station 29's writer and await their page (R150). -/
structure Core where
  voqs : SMap Voq
  formed : SMap (List (Nat × Cell))
  held : SMap (List (Nat × Cell))
  spill : SMap (List (Nat × Cell))
  mcq : SMap (List Cell)
  egr : SMap (List (Nat × Nat))
  posted : SMap Nat
  sentPosted : SMap Nat
  grantPtr : SMap Nat
  acceptPtr : SMap Nat
  rr : SMap Nat
  busy : SMap Nat
  slot : Nat
  inbox : SMap (List Nat)
  writer : SMap (List (Nat × Cell))
  deriving DecidableEq, Repr

/-- A live or quarantined tag entry (R104-R117): the request, when it was taken, its timeout, the time at
which it timed out, and the bytes still to come. -/
structure TagEnt where
  msg : Msg
  sub : Nat
  start : Nat
  tmo : Nat
  quar : Option Nat
  left : Nat
  dead : Bool
  deriving DecidableEq, Repr

/-- What an internal tag serves (R23, R104): a Catalogue snoop, what it sends a device for a request (`catRead`) and a write
of its own, a Stacker result line, a Service Function read or write, a line of an image, a plate line. -/
inductive IOwner where
  | snoop (line holder : Nat)
  | catRead (line : Nat)
  | catWrite (line id : Nat)
  | stk (job chunk line copy : Nat)
  | sf (fn q idx : Nat) (rd : Bool)
  | image (fn line : Nat)
  | pass (fn idx : Nat)
  | plate (line : Nat)
  deriving DecidableEq, Repr

/-- A live or quarantined internal tag entry; `out`: its request has left its egress, at sub-port `sub` (128: none yet). -/
structure ITag where
  out : Bool
  own : IOwner
  half : Half
  tenant : Nat
  gen : Option Nat
  start : Nat
  tmo : Nat
  quar : Option Nat
  sub : Nat
  deriving DecidableEq, Repr

/-- An internal request that has ended: its owner, half and tenant, whether it succeeded, data read and its Poison. -/
structure IDone where
  own : IOwner
  half : Half
  tenant : Nat
  ok : Bool
  data : Nat
  poison : Bool
  deriving DecidableEq, Repr

/-- The messages and tags of the package: messages by number, port tags by port * 8192 + entry with the uses
of each entry, internal tags, and the internal requests that have ended and that their units have not yet
acted on. -/
structure Net where
  idone : List IDone
  msgs : SMap Msg
  next : Nat
  tags : SMap TagEnt
  uses : SMap Nat
  itags : SMap ITag
  deriving DecidableEq, Repr

/-- A slot of a Coudé flit's body (R167): the descriptor of a cell that starts there, a payload slot of the cell begun last, or
a filler descriptor. -/
inductive BSlot where
  | desc (dest : Nat) (c : Cell)
  | pay
  | fill
  deriving DecidableEq, Repr

/-- A Coudé flit of a wire group (R166, R167): its SEQ and the slots of its body. -/
structure BFlit where
  seq : Nat
  body : List BSlot
  deriving DecidableEq, Repr

/-- One direction of a wire group as its transmitting half keeps it (R168-R174): cells waiting at the bridge station, the
replay buffer, the place in it of the next flit to send, the next SEQ, consecutive NAKs for one SEQ, whether a stall counts
already, a remap under way, a remap that West withdrew with its Transit (R174), the payload slots still to send of the cell
begun last (R167), the failed wires that the group runs without (R171), and since when it has had nothing to send (R177). -/
structure BGrp where
  wait : List (Nat × Cell)
  replay : List BFlit
  pos : Nat
  seq : Nat
  naks : Nat
  stalled : Bool
  remap : Bool
  want : Option Nat
  rest : Nat
  map : Nat
  idle : Nat
  deriving DecidableEq, Repr

/-- An entry of a crossing table (R179-R181): the request, and the time it ended. -/
structure CrossEnt where
  m : Msg
  quar : Option Nat
  deriving DecidableEq, Repr

/-- The bridge as a half sees it (spec 06): its transmit groups, the last SEQ accepted per group, the crossing table by
message number, XOFF as sent and as seen per VC, when the bridge went down, when a rejoin attempt began, a requested
attempt, regions of the image written while the mirror is unprotected (R261), whether they are being copied, the time LOCK
ended, whether UP comes at the next boundary, the Catalogue's dropped snoop copies by line and sub-port (R253); per group the
cell that is arriving with the payload slots still to come (R167), whether a NAK is to be sent (R168), and the WPAR mismatches
of the last 1,000 Transits by group, wire and Transit (R171); and the Transit in which UP last returned (R184). -/
structure Cdb where
  grps : SMap BGrp
  rxSeq : SMap Nat
  cross : SMap CrossEnt
  xoffTx : List Nat
  xoffRx : List Nat
  downAt : Option Nat
  attempt : Option Nat
  attemptReq : Bool
  regions : List Nat
  resync : Bool
  lockEnd : Option Nat
  upNext : Bool
  resend : List (Nat × Nat)
  part : SMap ((Nat × Cell) × Nat)
  naking : List Nat
  wpar : List (Nat × Nat × Nat)
  upTn : Option Nat
  deriving DecidableEq, Repr

/-- A binding of a downstream vPPB (R196, R199): an SLD or an LD, the sub-port, the LD-ID, SHARE. -/
structure VBind where
  ld : Option Nat
  sub : Nat
  share : Bool
  deriving DecidableEq, Repr

/-- An extent binding (R199, R201). -/
structure Ext where
  tenant : Nat
  sub : Nat
  ld : Nat
  base : Nat
  len : Nat
  share : Bool
  deriving DecidableEq, Repr

/-- The bindings and extents as a half holds them (R191, R198): the upstream sub-port by tenant, the vPPB
bindings by tenant * 32 + vPPB, and the extents. -/
structure BindTab where
  usp : SMap Nat
  vb : SMap VBind
  ext : List Ext
  deriving DecidableEq, Repr

/-- A two-rate three-colour meter, or a policer with its committed part alone (R327, R329), tokens and rates in
units of 2^-16 bytes. -/
structure Meter where
  on : Bool
  cbs : Nat
  pbs : Nat
  cir : Nat
  pir : Nat
  tc : Nat
  tp : Nat
  deriving DecidableEq, Repr

/-- A pending or active Ephemeris list (R332-R335), with the entry in force. -/
structure EphList where
  entries : List Nat
  base : Nat
  guard : Nat
  tAt : Nat
  cur : Nat
  deriving DecidableEq, Repr

/-- The Rotation arbiter of a pseudo-channel (R337, R340): the rotating pointer, the quotas left, the waiting
requesters, the grant held. -/
structure Arb where
  ptr : Nat
  quota : List Nat
  waiting : List Nat
  granted : Option Nat
  deriving DecidableEq, Repr

/-- The QOS unit of a half (spec 11): tenants' held TC words (R320), shaper tokens in units of 2^-16 bytes,
meters by VF pool index, policers by tenant, active and pending Ephemeris lists by port, arbiters by
pseudo-channel; the Transit of each Rotation requester's last bite, the requesters that stay fenced, and the one that the
restart under way belongs to (R340, R416). -/
structure Qos where
  tenTc : SMap (Nat × Nat)
  tokens : SMap Int
  meters : SMap Meter
  policers : SMap Meter
  active : SMap EphList
  pendl : SMap EphList
  arbs : SMap Arb
  lastBite : SMap Nat
  sticky : List Nat
  biter : Option Nat
  deriving DecidableEq, Repr

/-- A transaction of the Catalogue: the request kinds of R229, and Kezen's own (R247, R249, R254, R260); `recall` also stands
for a line locked by the write of poison alone, `capEvict` with no request for a disabled line. -/
inductive CatKind where
  | rdS | rdAny | rdOwn | own | rdCur | evict | wb | wr | capEvict | lsEvict | recall | reconcile
  deriving DecidableEq, Repr

/-- A Catalogue entry (R240): its line, its holders as a 64-bit map, whether the one holder is exclusive, its
Line Store way when it has a slot, PSN, AGE. STATE follows from the exclusive holder and the slot (R232). -/
structure CatEnt where
  win : Nat
  l : Nat
  hold : Nat
  excl : Bool
  slot : Option Nat
  psn : Bool
  age : Nat
  deriving DecidableEq, Repr

/-- A Line Store slot: its line, its data, when it was last used, and the Transit until which its way is
barred (R250). -/
structure LsSlot where
  win : Nat
  l : Nat
  data : Nat
  lru : Nat
  barred : Nat
  deriving DecidableEq, Repr

/-- Why the Catalogue writes a line to its device: absorbed data with the write-back that it answers (R235, R238), a slot that
is evicted or disabled (R247, R249, R254), poison (R251). -/
inductive WrUse where
  | absorb (m : Option Msg)
  | slot
  | poison
  deriving DecidableEq, Repr

/-- A write of the Catalogue's own to a device, outstanding: its number, its data and Poison, which are kept until the device
has completed it (R250), and its use. -/
structure CatWr where
  id : Nat
  data : Nat
  bad : Bool
  use : WrUse
  deriving DecidableEq, Repr

/-- A transaction in progress on a locked line (R233): its request, the holders whose snoop responses it
awaits and the snoop, what the exclusive holder keeps, a write-back's data, the Catalogue's own writes outstanding, the device
read (0 not asked, 1 outstanding, 2 the slot's data instead, 3 answered), the data so far with Poison and DevLoad, the request's write outstanding at the
device, whether a holder's changes were lost, whether the write of a request or of a victim's slot has been made, and whether
the request is handled as in state I (R234). -/
structure Txn where
  kind : CatKind
  msg : Option Msg
  pend : List Nat
  snp : Snp
  keep : Hold
  wb : Option Nat
  writes : List CatWr
  devRd : Nat
  data : Nat
  poison : Bool
  load : Nat
  devWr : Bool
  lost : Bool
  done : Bool
  asI : Bool
  deriving DecidableEq, Repr

/-- A job of the Catalogue walker (R254). -/
inductive CatJob where
  | scrub (t : Nat)
  | recall (t w : Nat)
  | disable (w : Nat) (late : Bool)
  deriving DecidableEq, Repr

/-- The Catalogue of a half (spec 08): entries by set * 16 + way, Line Store slots by set * 8 + way, transactions
by window * 2^36 + line, the wait pool, queued jobs, the running pass with the sets it has done, the sets
in the on-chip cache most recent first, an image copy in progress, the taint list found full, the mirror in the other half's
stack as 128-bit entries and its pending writes in order (R243). -/
structure Cat where
  ents : SMap CatEnt
  slots : SMap LsSlot
  txns : SMap Txn
  wait : List Nat
  jobs : List CatJob
  pass : Option (List CatJob)
  passDone : List Nat
  cache : List Nat
  clk : Nat
  copying : Bool
  taintFull : Bool
  mirror : SMap (BitVec 128)
  mirQ : List (Nat × BitVec 128)
  deriving DecidableEq, Repr

/-- A descriptor in progress (R361-R366): its SQ count, UTAG and TYPE, the parts of a copy by offset, the reads and writes of it still to be
formed with their offset (a write with its data), the bytes of the copy, requests outstanding, the first failure as offset and STATUS, the receivers of a datagram,
whether its local copy is undecided, the number of its message, its internal entry, and whether its next part has been counted red. -/
structure Desc where
  idx : Nat
  utag : Nat
  typ : Nat
  parts : List (Nat × CopySeg)
  todo : List (Nat × CopySeg × Option Nat)
  done : Nat
  out : Nat
  fail : Option (Nat × Nat)
  nlocal : Nat
  nfull : Nat
  nref : Nat
  nfar : Nat
  wait : Bool
  mid : Option Nat
  ent : Option Nat
  red : Bool
  deriving DecidableEq, Repr

/-- A migration command of a PF (R373): the command, its VF and address, the staged row of a row-based one, requests
outstanding, whether a transfer failed, the lines read, the lines still to be transferred, and the stage: 0 row, 1 body,
2 header, 3 an image that has passed its check. -/
structure Mig where
  cmd : Nat
  vf : Nat
  row : Option Nat
  out : Nat
  bad : Bool
  lines : SMap Nat
  todo : List Nat
  stage : Nat
  deriving DecidableEq, Repr

/-- A function of a tenant's Service Function (spec 12): Bus Master Enable, when its FLR began, whether the FLR's live
entries have been quarantined, whether it is to be withdrawn or removed when the reset ends, whether the datagram at the
head of its SQ has been counted red, frozen (R374), a restore pending, queue
entries by q * 65536 + slot as 64-byte numbers, pending flushes, the queues whose newest entry is a gap marker (R357), descriptors in progress, the MSI-X table, Function Mask
and pending bits, VF Enable with NumVFs and TotalVFs (PF), the migration command under way (PF). -/
structure Fn where
  bme : Bool
  flr : Option Nat
  flrOut : Bool
  withdraw : Bool
  remove : Bool
  red : Bool
  freeze : Bool
  restoring : Bool
  ents : SMap Nat
  flush : List Nat
  gap : List Nat
  prog : List Desc
  msix : SMap Nat
  fmask : Bool
  pbits : Nat
  vfe : Bool
  numvfs : Nat
  totalVfs : Nat
  mig : Option Mig
  deriving DecidableEq, Repr

/-- An open chunk (R264): contributor bitmaps by line, accumulators and special states by element. -/
structure Chunk where
  lines : SMap Nat
  acc : SMap Int
  spec : SMap Nat
  deriving DecidableEq, Repr

/-- A job (spec 09): its copied context, the boundary that started it, frames on chip and in spill here and in the
other half, exponent-line bitmaps and largest bytes, open chunks, complete chunks with the writes outstanding of each,
result lines not yet sent with the Umpire generation that allowed each (R287), lines that have failed once with the Transit they failed in, chunks written, SEQ, chunks written
since the last status line, the commit point, the ending boundary, and what ends it at the next boundary. -/
structure Job where
  ctx : List Nat
  start : Nat
  chip : Nat
  spill : Nat
  farChip : Nat
  farSpill : Nat
  expLines : SMap Nat
  expMax : SMap Nat
  chunks : SMap Chunk
  complete : SMap Nat
  todo : List (Nat × Nat)
  retried : SMap Nat
  written : List Nat
  nWritten : Nat
  seq : Nat
  since : Nat
  commit : Option Nat
  endAt : Option Nat
  early : Bool
  lost : Bool
  dest : Bool
  deriving DecidableEq, Repr

/-- The Stacker of a half: its jobs by number mod 512, the shadow frames it holds for jobs of the other half by job and
chunk (R274), and the context each job number last started with, which the egress addresses its copies by (R286). -/
structure Stk where
  jobs : SMap Job
  shadow : SMap (SMap Chunk)
  ctxs : SMap (List Nat)
  deriving DecidableEq, Repr

/-- What a vPPB reports of its slot and link (R197, R209-R212): Presence Detect State and Changed, Data Link Layer Link
Active and State Changed, and Power Controller Control (true: off).
[log 116, DESIGN CHOICE] -/
structure Vp where
  pds : Bool
  pdc : Bool
  dlla : Bool
  dllsc : Bool
  off : Bool
  deriving DecidableEq, Repr

/-- A background operation of a CCI (R206): its opcode, the staged rows it waits for by address, its tenant, whether an
abort came too late, and the payload of a DCD command (R207): sub-port, LD, base, length and sharing of the extent. -/
structure BgOp where
  code : Nat
  rows : List Nat
  tenant : Nat
  late : Bool
  fwd : List Nat
  deriving DecidableEq, Repr

/-- The Observer's service of the CCIs and of binding (spec 07): background operations and the last outcome by CCI (opcode,
return code, extended status), response limits, event records, interrupt policy, ports whose PERST the FM holds low, managed
hot-removes waiting (tenant, vPPB, row address, start), rows made under "wait for port link down" with their sub-port,
the Transit in which each tenant's reset began, vPPB states by tenant * 32 + vPPB, when each
port's slot last got power good and when its PCLK_OUT last started, the rows in whose CANCEL a write came too late in
this Transit (R204), and the configuration registers of the vPPBs that differ from their reset values (R115, R196, R212), by
(tenant * 64 + vPPB) * 1024 + offset / 4, those of the PPB of sub-port k of port p as vPPB 33 + k of tenant 64 + p; the level of
SLOT_PRSNT_L as last sampled and since when, by port (R211); what port-based routing commands have set, by table and index
(R205). -/
structure Mgt where
  bg : SMap BgOp
  last : SMap (Nat × Nat × Nat)
  limit : SMap Nat
  events : List (Nat × Nat × Nat)
  policy : Nat
  perst : List Nat
  managed : List (Nat × Nat × Nat × Nat)
  waitDown : List (Nat × Nat)
  rstAt : SMap Nat
  vpp : SMap Vp
  pgAt : SMap Nat
  pclkAt : SMap Nat
  lateCancel : List Nat
  prs : SMap (Bool × Nat)
  pbr : SMap Nat
  cfg : SMap Nat
  deriving DecidableEq, Repr

/-- The Observer cluster of a half (R472-R478, R492): when its watchdog was last restarted, whether it is held in reset or
restarting, its cores halted by debug, and the image it runs (0 A, 1 B, 2 one loaded through the UART). -/
structure Obs where
  kick : Nat
  held : Bool
  halted : List Nat
  img : Nat
  deriving DecidableEq, Repr

/-- An online activation (R489): its CCI, the new slot and its security version, and whether the standby already runs it. -/
structure Activation where
  cci : Nat
  slot : Nat
  svn : Nat
  ready : Bool
  deriving DecidableEq, Repr

/-- Firmware of the device (R477, R488-R490): the half whose planned handover is under way, the activation under way, a transfer
(slot and next offset), the security versions of the flash images, the fused minimum. -/
structure Fw where
  handover : Option Half
  act : Option Activation
  xfer : Option (Nat × Nat)
  svn : SMap Nat
  minSvn : Nat
  deriving DecidableEq, Repr

/-- Security protocols (R481): established SPDM sessions by place and identifier, and the certificate chains that the FM
provisioned in slots 1-7 by the digest of their chain. -/
structure Spdm where
  sessions : List (Nat × Nat)
  certs : SMap Nat
  deriving DecidableEq, Repr

/-- What the JTAG TAP holds (R492, R495): its instruction, the boundary cells as last sampled or preloaded, and whether they
drive the balls, hold them, or float them. -/
inductive TapIr where
  | idcode | bypass | sample | extest | clamp | highz | freezeScan
  deriving DecidableEq, Repr

structure Tap where
  ir : TapIr
  cells : List Bool
  deriving DecidableEq, Repr

/-- MCTP endpoint identifiers by binding (R480). -/
structure Mctp where
  eids : SMap Nat
  deriving DecidableEq, Repr

/-- Who raises a fault: no command of this block stops the machine. -/
inductive Fault where
  /-- Raised by no command (the type needs a constructor): safe. -/
  | none
  deriving DecidableEq, Repr

/-- Why a command is refused. -/
inductive Refusal where
  /-- A command that has no meaning yet: safe. -/
  | notModelled (mnemonic : String)
  deriving DecidableEq, Repr

/-- The state of Kezen. -/
structure State where
  /-- Every register of Control Space and of BAR0 by its key, one not at its reset value (R5, R8; log 8). -/
  regs : SMap Word
  /-- High words that a master's low-word read latched, by master and key (R11). -/
  latches : List (Master × Nat × Word)
  /-- Low words that wait for their high word, by key (R12; log 41). -/
  heldLow : SMap Word
  /-- The Meridian of each half (R28-R31). -/
  mrd : Pair Mrd
  /-- The Tirop pair of each half (R46-R61). -/
  trp : Pair Trp
  /-- The Referee of each half (R409-R429). -/
  ref : Pair Ref
  /-- The Photometer of each half (R434-R447). -/
  phm : Pair Phm
  /-- The Umpire of each half (R296-R318). -/
  ump : Pair Ump
  /-- The sub-ports by number (R70-R101). -/
  subs : SMap Sub
  /-- The cell core of each half (R131-R165). -/
  core : Pair Core
  /-- Messages under way and the tag tables (R102-R130). -/
  net : Net
  /-- The die bridge, by the half that sends (R166-R195, R537). -/
  cdb : Pair Cdb
  /-- The binding tables of each half (R196-R228). -/
  binds : Pair BindTab
  /-- Shapers, meters, policers and gates of each half (R319-R341). -/
  qos : Pair Qos
  /-- The Catalogue of each half (R224-R262). -/
  cat : Pair Cat
  /-- The service functions by tenant and function (R342-R377). -/
  fns : SMap Fn
  /-- The Stacker of each half (R263-R295). -/
  stk : Pair Stk
  /-- What management holds: vPPBs, slots, background operations (R196-R223, R481-R487). -/
  mgt : Mgt
  /-- The Shutter's channels by number (R378-R408). -/
  chans : SMap Chan
  /-- The ALERT_L and ALIVE outputs (R430-R432). -/
  alert : Alert
  /-- The Dome's sequencing (R448-R471). -/
  dome : Dome
  /-- The Observer cluster of each half (R472-R478). -/
  obs : Pair Obs
  /-- Firmware handover, activation and transfer (R477, R488-R490). -/
  fw : Fw
  /-- SPDM sessions and certificates (R481). -/
  spdm : Spdm
  /-- The JTAG TAP (R492, R495). -/
  tap : Tap
  /-- MCTP endpoint identifiers (R480). -/
  mctp : Mctp
  /-- Tenants in Viral (R414). -/
  viral : List Nat
  /-- What left the package, newest first (log 7). -/
  sent : List Sent
  /-- The model's own counter of free values (log 6, DESIGN CHOICE). -/
  fresh : Nat
  /-- The commands that wait, first in first out (log 1). -/
  pending : List Instr
  deriving DecidableEq, Repr

/-- Units of a half after reset.
[log 10, DESIGN CHOICE] -/
def mrdReset : Mrd := { inc := 0x20000, ctl := 0, dly := 0, adj := 0, phaseErr := 0, good := 0, step := 0, hold := 0, seen := false, clr := 0 }
/-- The Tirop pair after reset (log 10).
[log 10, DESIGN CHOICE] -/
def trpReset : Trp :=
  { w := Vector.replicate 16 0, zf := false, nf := false, cf := false, vf := false, tn := 0, bc := 0, pc := 0, loops := [],
    phase := .idle, ran := false, splitAt := false, samplesReady := false, held := [], dispatched := [], hlist := [],
    arrivals := [], rows := [], commits := [], done := false, rel := false, items := [], itemsTn := 0, refills := [], scanRef := [], alarms := [], oboxSeq := 0, runPend := none, swapGo := false,
    swapT := 0, swapPair := false, sealed := false, requal := none, requalBad := false, requalPass := none }
/-- The Referee after reset (log 10).
[log 10, DESIGN CHOICE] -/
def refReset : Ref :=
  { recent := [], draining := [], sparesUsed := [], banksLost := [], hbmCopy := [], hbmRetired := [], spareUsed := false,
    leakTn := none, warned := false, crit := false, unfence := [], ruleBad := [] }
/-- The Photometer; PHM_WEXP is 10 after reset (log 10). -/
def phmReset : Phm :=
  { sel := [], grp := 0, clr := 0, wexp := 10, rxBytes := [], txBytes := [], missed := 0, plate := none, tirTag := none, latched := none,
    bwTn := none }
/-- The Umpire after reset (log 10). -/
def umpReset : Ump := { inflight := [], otherOldest := 0, freezeE := false, freezeW := false, copying := false }
/-- The cell core after reset (log 10).
[log 10, DESIGN CHOICE] -/
def coreReset : Core :=
  { voqs := [], formed := [], held := [], spill := [], mcq := [], egr := [], posted := [], sentPosted := [], grantPtr := [],
    acceptPtr := [], rr := [], busy := [], slot := 0, inbox := [], writer := [] }
/-- Messages and tags after reset (log 10).
[log 10, DESIGN CHOICE] -/
def netReset : Net := { idone := [], msgs := [], next := 0, tags := [], uses := [], itags := [] }
/-- The die bridge after reset (log 10).
[log 10, DESIGN CHOICE] -/
def cdbReset : Cdb :=
  { grps := [], rxSeq := [], cross := [], xoffTx := [], xoffRx := [], downAt := none, attempt := none, attemptReq := false,
    regions := [], resync := false, lockEnd := none, upNext := false, resend := [], part := [], naking := [], wpar := [], upTn := none }
/-- Shapers and meters after reset (log 10). -/
def qosReset : Qos :=
  { tenTc := [], tokens := [], meters := [], policers := [], active := [], pendl := [], arbs := [], lastBite := [], sticky := [],
    biter := none }
/-- The Catalogue after reset (log 10).
[log 10, DESIGN CHOICE] -/
def catReset : Cat :=
  { ents := [], slots := [], txns := [], wait := [], jobs := [], pass := none, passDone := [], cache := [], clk := 0,
    copying := false, taintFull := false, mirror := [], mirQ := [] }
/-- Management after reset (log 10).
[log 10, DESIGN CHOICE] -/
def mgtReset : Mgt :=
  { bg := [], last := [], limit := [], events := [], policy := 0, perst := [], managed := [], waitDown := [], rstAt := [], vpp := [],
    pgAt := [], pclkAt := [], lateCancel := [], prs := [], pbr := [], cfg := [] }
/-- The Dome after reset (log 10). -/
def domeReset : Dome :=
  { run := false, hot := false, lifeTn := none, promo := 0, refNext := none, linkLost := [], retry := false, released := false,
    hbmFails := [], hbmOk := [], nonce := false, down := none }
/-- The Observer cluster after reset (log 10). -/
def obsReset : Obs := { kick := 0, held := false, halted := [], img := 0 }
/-- The firmware after reset (log 10). -/
def fwReset : Fw := { handover := none, act := none, xfer := none, svn := [], minSvn := 0 }

/-- Both halves alike. -/
def pairOf {α : Type} (x : α) : Pair α := ⟨x, x⟩

/-- Kezen after Dome power-up (R448): every register reads its reset value (R8), and no unit holds anything.
[log 6, DESIGN CHOICE; log 9, DESIGN CHOICE; log 10, DESIGN CHOICE; log 11, DEDUCED; log 117, DESIGN CHOICE] -/
def State.reset : State :=
  { regs := [], latches := [], heldLow := [], mrd := pairOf mrdReset, trp := pairOf trpReset, ref := pairOf refReset,
    phm := pairOf phmReset, ump := pairOf umpReset, subs := [], core := pairOf coreReset, net := netReset, cdb := pairOf cdbReset,
    binds := pairOf ⟨[], [], []⟩, qos := pairOf qosReset, cat := pairOf catReset, fns := [], stk := pairOf ⟨[], [], []⟩, mgt := mgtReset,
    chans := [], alert := ⟨false, false, false⟩, dome := domeReset, obs := pairOf obsReset, fw := fwReset, spdm := ⟨[], []⟩,
    tap := ⟨.idcode, []⟩, mctp := ⟨[]⟩, viral := [], sent := [], fresh := 0, pending := [] }

end Sys2Proof.Machine
end

