-- ==== Sys2Proof/Machine/Ops.lean ====
section
/-! DEFINITION. The named operations over the state: register words and fields, error counters, time, the
free values, and the copies of the two halves. Every change of a register goes through `State.wr`. -/

namespace Sys2Proof.Machine

open Sys2Proof

/-- The word of the register at address `a`: what was last written there, or its reset value (R8). -/
def State.rd (s : State) (a : Nat) : Word := mget resetWord s.regs a

/-- Put `v` into the register at address `a`. -/
def State.wr (s : State) (a : Nat) (v : Word) : State := { s with regs := mset resetWord s.regs a v }

/-- The bits of field `f` in a word. -/
def fldGet (v : Word) (f : Fld) : Nat := (v.toNat >>> f.lo) % 2 ^ f.width

/-- The mask of field `f`. -/
def fldMask (f : Fld) : Word := BitVec.ofNat 32 ((2 ^ f.width - 1) <<< f.lo)

/-- A word with field `f` set to `n` modulo its width. -/
def fldPut (v : Word) (f : Fld) (n : Nat) : Word :=
  (v &&& ~~~ fldMask f) ||| (BitVec.ofNat 32 ((n % 2 ^ f.width) <<< f.lo))

/-- Field `f` of the register at `a`. -/
def State.fget (s : State) (a : Nat) (f : Fld) : Nat := fldGet (s.rd a) f

/-- Is field `f` of the register at `a` nonzero? -/
def State.flag (s : State) (a : Nat) (f : Fld) : Bool := s.fget a f != 0

/-- Set field `f` of the register at `a`. -/
def State.fset (s : State) (a : Nat) (f : Fld) (n : Nat) : State := s.wr a (fldPut (s.rd a) f n)

/-- Set a one-bit field. -/
def State.fsetB (s : State) (a : Nat) (f : Fld) (b : Bool) : State := s.fset a f b.toNat

/-- Add to a counter field that sticks at its largest value (the counter rules of every chapter, such as
R69, R101, R433). -/
def State.fbump (s : State) (a : Nat) (f : Fld) (n : Nat) : State :=
  s.fset a f (min (s.fget a f + n) (2 ^ f.width - 1))

/-- Several fields of one register, in order. -/
def State.fsets (s : State) (a : Nat) (l : List (Fld × Nat)) : State :=
  l.foldl (fun s e => s.fset a e.1 e.2) s

/-- A 64-bit register, low word at `a` (R11). -/
def State.rd64 (s : State) (a : Nat) : Nat := (s.rd a).toNat + (s.rd (a + 4)).toNat * 2 ^ 32

/-- Put a 64-bit value into the register pair at `a`. -/
def State.wr64 (s : State) (a v : Nat) : State :=
  (s.wr a (BitVec.ofNat 32 v)).wr (a + 4) (BitVec.ofNat 32 (v / 2 ^ 32))

/-- Put words at consecutive word addresses. -/
def State.wrWords (s : State) (a : Nat) (ws : List Word) : State :=
  match ws with
  | [] => s
  | w :: r => (s.wr a w).wrWords (a + 4) r

/-- `n` words at consecutive word addresses. -/
def State.rdWords (s : State) (a n : Nat) : List Word := (List.range n).map fun k => s.rd (a + 4 * k)

/-- Word `k` of a row. -/
def rowW (ws : List Word) (k : Nat) : Nat := (ws.getD k 0).toNat

/-- Bits [hi:lo] of a number. -/
def bits (n hi lo : Nat) : Nat := (n >>> lo) % 2 ^ (hi + 1 - lo)

/-- Bit `i` of a number as a Bool. -/
def bitB (n i : Nat) : Bool := n.testBit i

/-- A two's complement number of `w` bits. -/
def sx (w n : Nat) : Int := if n % 2 ^ w < 2 ^ (w - 1) then (n % 2 ^ w : Nat) else (n % 2 ^ w : Nat) - (2 ^ w : Nat)

/-- Draw a free value: a choice the spec leaves open.
[log 5, DESIGN CHOICE] -/
def State.draw (s : State) : Nat × State := (Config.freeNat s.fresh, { s with fresh := s.fresh + 1 })

/-- Apply a change to the pair engine of half `h`. -/
def State.modTrp (s : State) (h : Half) (f : Trp → Trp) : State := { s with trp := s.trp.set h (f (s.trp.get h)) }
def State.modMrd (s : State) (h : Half) (f : Mrd → Mrd) : State := { s with mrd := s.mrd.set h (f (s.mrd.get h)) }
def State.modRef (s : State) (h : Half) (f : Ref → Ref) : State := { s with ref := s.ref.set h (f (s.ref.get h)) }
def State.modPhm (s : State) (h : Half) (f : Phm → Phm) : State := { s with phm := s.phm.set h (f (s.phm.get h)) }
def State.modUmp (s : State) (h : Half) (f : Ump → Ump) : State := { s with ump := s.ump.set h (f (s.ump.get h)) }

/-- A Shutter channel before its first sample. -/
def chanReset : Chan :=
  ⟨[], [], [], [0, 0, 0, 0, 0, 0, 0, 0], 0, false, false, 0, 0, 0, 0, 0, 0, 0, 0, 0, 0, false, false, false, []⟩

/-- Shutter channel c. -/
def State.chan (s : State) (c : Nat) : Chan := (mfind s.chans c).getD chanReset

/-- Change Shutter channel c. -/
def State.modChan (s : State) (c : Nat) (f : Chan → Chan) : State := { s with chans := minsert s.chans c (f (s.chan c)) }

/-- The Meridian of a half in nanoseconds, and in units of 2^-16 ns (R29, R30).
 -/
def State.now (s : State) (h : Half) : Nat := s.rd64 (MRD_NOW_LO h)
def State.mer (s : State) (h : Half) : Nat := s.now h * 65536 + s.fget (MRD_FRAC h) MRD_FRAC_FRAC

/-- Put the Meridian of a half, given in units of 2^-16 ns. -/
def State.setMer (s : State) (h : Half) (m : Nat) : State :=
  (s.wr64 (MRD_NOW_LO h) (m / 65536)).fset (MRD_FRAC h) MRD_FRAC_FRAC (m % 65536)

/-- The Transit number of a half. -/
def State.tn (s : State) (h : Half) : Nat := s.rd64 (MRD_TN_LO h)

/-- CDB_STAT.PHASE codes (R191).
[log 11, DEDUCED] -/
def phUP : Nat := 0
def phRETRAIN : Nat := 1
def phSPLIT : Nat := 2
def phLOCK : Nat := 3
def phSYNC : Nat := 4
def phRECONCILE : Nat := 5

/-- The bridge phase a half sees.
[log 11, DEDUCED] -/
def State.phase (s : State) (h : Half) : Nat := s.fget (CDB_STAT h) CDB_STAT_PHASE

/-- Are device-wide commits carried to the other half (R34, R187): while the halves are joined, and once SYNC has ended? -/
def State.carries (s : State) : Bool := s.phase .east == phUP || s.phase .east == phRECONCILE

/-- The half that holds authority, as half `h` sees it (R183). -/
def State.auth (s : State) (h : Half) : Half :=
  if s.fget (CDB_STAT h) CDB_STAT_AUTH = 0 then .east else .west

/-- Apply a change to the Observer's management state. -/
def State.modMgt (s : State) (f : Mgt → Mgt) : State := { s with mgt := f s.mgt }

/-- CANCEL of a staged row that half h's program takes, whose word 2 is at `a` (R204): set once half h's Transit has
reached cycle 960, it is too late for this seal. -/
def rowCancel (s : State) (h : Half) (a : Nat) : State :=
  if (s.rd a).toNat.testBit 31 then s
  else
    let s := s.wr a (s.rd a ||| 0x80000000)
    if (s.trp.get h).sealed then s.modMgt fun m => { m with lateCancel := a :: m.lateCancel } else s

/-- A half from its index. -/
def halfOf (n : Nat) : Half := if n = 0 then .east else .west

/-- The half of a port (R5), of a tenant's block (R24), of a Shutter channel (R15). -/
def portHalf (p : Nat) : Half := if p < 16 then .east else .west
def tenantHalf (t : Nat) : Half := if t < 32 then .east else .west
def chanHalf (c : Nat) : Half := if c < 16 then .east else .west

/-- The half a CS master works from: its own, or the authority half for the debug access port, the in-band
MCTP endpoint (R26, R30, R536) and the Dome. -/
def State.masterHalf (s : State) (m : Master) : Half :=
  match m with
  | .obs h _ => h
  | .tirop h => h
  | .dap => s.auth .east
  | .mctp => s.auth .east
  | .dome => s.auth .east
  | .host t _ => tenantHalf t

end Sys2Proof.Machine
end

