-- ==== Sys2Proof/Machine/Referee.lean ====
section
/-! DEFINITION. The Referee (spec 14): from detection to record. `raise` is the one operation by which every
unit reports an event: leaky count, merge or new record, Scorebook, event queue, ALERT_L, handler list, and
the retirement of a unit whose count reaches its threshold. -/

namespace Sys2Proof.Machine

open Sys2Proof

/-- The severity of an event by class and cause (R411, codes of R412). -/
def sevOf (cls cause : Nat) : Nat :=
  match cls with
  | 0 => if cause = 1 then 5 else 3
  | 1 => if cause = 2 then 0 else 3
  | 2 => match cause with
    | 0 => 1
    | 1 => 1
    | 2 => 3
    | 3 => 4
    | _ => 0
  | 3 => 3
  | 4 => 0
  | 5 => 3
  | 6 => 2
  | 7 => 2
  | 8 => if cause = 0 then 2 else 1
  | 9 => match cause with
    | 0 => 1
    | 1 => 3
    | 2 => 3
    | 3 => 4
    | 4 => 3
    | 5 => 0
    | 6 => 2
    | _ => 0
  | 10 => match cause with
    | 4 => 4
    | 5 => 1
    | _ => 2
  | 11 => if cause = 0 then 2 else 1
  | 12 => 0
  | 13 => if cause = 0 then 2 else 4
  | 14 => 2
  | 15 => match cause with
    | 0 => 0
    | 1 => 2
    | 2 => 4
    | _ => 1
  | 16 => match cause with
    | 0 => 2
    | 5 => 1
    | _ => 3
  | 17 => if cause = 1 then 1 else 3
  | 18 => if cause = 0 then 0 else 3
  | 19 => if cause = 2 then 2 else 0
  | 20 => if cause = 1 then 5 else 3
  | 21 => if cause = 0 then 5 else 3
  | 22 => if cause = 0 then 0 else 2
  | 23 => 3
  | 24 => 0
  | 25 => if cause = 1 ∨ cause = 3 then 0 else 3
  | 26 => if cause = 0 ∨ cause = 1 then 0 else 3
  | 27 => 4
  | _ => 0

/-- An event of a class and cause at an instance, with no unit of R425. -/
def evt (cls cause inst detail : Nat) : EvSpec := ⟨cls, cause, inst, none, detail, 1⟩

/-- An event of unit `i` of kind `k` (R425). -/
def evtU (cls cause inst k i detail : Nat) : EvSpec := ⟨cls, cause, inst, some (k, i), detail, 1⟩

/-- The eight words of a record (R417).
[log 35, DESIGN CHOICE] -/
def recWords (e : Evt) : List Word :=
  [BitVec.ofNat 32 (e.cls % 32 * 2 ^ 27 + e.sev % 8 * 2 ^ 24 + e.half.idx * 2 ^ 23 + e.lost.toNat * 2 ^ 22
      + e.unitKind % 64 * 2 ^ 16 + e.inst % 2 ^ 16),
   BitVec.ofNat 32 e.seq,
   BitVec.ofNat 32 e.ns, BitVec.ofNat 32 (e.ns / 2 ^ 32),
   BitVec.ofNat 32 (e.cause % 2 ^ 16 * 2 ^ 16 + e.count % 2 ^ 16),
   BitVec.ofNat 32 (e.sev % 256 * 2 ^ 24 + e.leaky % 256 * 2 ^ 16),
   BitVec.ofNat 32 e.detail, BitVec.ofNat 32 (e.detail / 2 ^ 32)]

/-- Event queue occupancy (R419). -/
def evqOcc (s : State) (h : Half) : Nat :=
  (s.fget (REF_EVQ_PTR h) REF_EVQ_PTR_TAIL + 2 ^ 16 - s.fget (REF_EVQ_PTR h) REF_EVQ_PTR_HEAD) % 2 ^ 16

/-- Is this half's queue at or above HIGH? 0 disables (R420). -/
def evqAtHigh (s : State) (h : Half) : Bool :=
  s.fget (REF_EVQ_WM h) REF_EVQ_WM_HIGH != 0 && decide (s.fget (REF_EVQ_WM h) REF_EVQ_WM_HIGH ≤ evqOcc s h)

/-- EVQ_HI and EVQ_HI_L follow the occupancies (R420). -/
def evqLevel (s : State) (h : Half) : State :=
  let s := s.fsetB (REF_STAT h) REF_STAT_EVQ_HI (evqAtHigh s h)
  if evqAtHigh s .east || evqAtHigh s .west then { s with alert := { s.alert with evqHiLow := true } }
  else if evqOcc s .east ≤ s.fget (REF_EVQ_WM .east) REF_EVQ_WM_LOW
      ∧ evqOcc s .west ≤ s.fget (REF_EVQ_WM .west) REF_EVQ_WM_LOW then
    { s with alert := { s.alert with evqHiLow := false } }
  else s

/-- Write an event queue slot and advance TAIL. -/
def evqPush (s : State) (h : Half) (ws : List Word) : State :=
  let t := s.fget (REF_EVQ_PTR h) REF_EVQ_PTR_TAIL
  evqLevel ((s.wrWords (REF_EVQ h (t % 1024) 0) ws).fset (REF_EVQ_PTR h) REF_EVQ_PTR_TAIL (t + 1)) h

/-- The record in a queue slot is a gap record: class 31 (R411, R419). -/
def isGap (s : State) (h : Half) (slot : Nat) : Bool := (s.rd (REF_EVQ h slot 0)).toNat / 2 ^ 27 == 31

/-- Write a record to the event queue, or drop it into the gap record (R419). Answers the slot taken.
[log 35, DESIGN CHOICE] -/
def evqRecord (s : State) (h : Half) (e : Evt) : State × Option Nat :=
  let t := s.fget (REF_EVQ_PTR h) REF_EVQ_PTR_TAIL
  if evqOcc s h ≤ 1022 then (evqPush s h (recWords e), some (t % 1024))
  else
    let s := s.fbump (REF_ERRCNT1 h) REF_ERRCNT1_EVQ_DROP_CNT 1
    let last := (t + 1023) % 1024
    if isGap s h last then
      let c := (s.rd (REF_EVQ h last 4)).toNat
      (s.wr (REF_EVQ h last 4) (BitVec.ofNat 32 (c / 2 ^ 16 * 2 ^ 16 + min (c % 2 ^ 16 + 1) 0xFFFF)), none)
    else
      (evqPush s h (recWords { e with cls := 31, sev := 0, lost := false, inst := 0, cause := 0, count := 1, leaky := 0,
                                      unitKind := 0, detail := 0 }), none)

/-- Write a record to the Scorebook unless it is frozen (R418). Answers the slot taken. -/
def sbRecord (s : State) (h : Half) (e : Evt) : State × Option Nat :=
  if s.flag (REF_STAT h) REF_STAT_SB_FROZEN then (s, none)
  else
    let n := s.fget (REF_SB_PTR h) REF_SB_PTR_NEXT
    let s := s.wrWords (REF_SB h n 0) (recWords e)
    let s := if n = 63 then s.fset (REF_SB_PTR h) REF_SB_PTR_WRAPPED 1 else s
    (s.fset (REF_SB_PTR h) REF_SB_PTR_NEXT (n + 1), some n)

/-- Does the event alert (R421)? -/
def alerts (s : State) (h : Half) (cls sev : Nat) : Bool :=
  s.flag (REF_CLS h cls) REF_CLS_ALERT && decide (s.fget (REF_CLS h cls) REF_CLS_MIN_SEV ≤ sev)

/-- An alerting request reaches the Dome (R421, R422): SERVICE pulses and latches HOLD, an alive mode stops
its toggle. -/
def alertRequest (s : State) : State :=
  if s.fget MRD_ALERT_CTL MRD_ALERT_CTL_MODE = 0 then
    let s := { s with alert := { s.alert with low := true, pulse := true } }
    if s.flag MRD_ALERT_CTL MRD_ALERT_CTL_LATCH then s.fset MRD_ALERT_CTL MRD_ALERT_CTL_HOLD 1 else s
  else
    { s with alert := { s.alert with low := true } }.fset MRD_ALERT_CTL MRD_ALERT_CTL_STOPPED 1

/-- The leaky count of a unit, 0-255 (R424). -/
def leakyOf (s : State) (h : Half) (u : Option (Nat × Nat)) (cls cause : Nat) : Nat :=
  match u with
  | some (k, i) => s.fget (REF_LCNT h k i) REF_LCNT_COUNT
  | none => Config.noUnit cls cause / 64 % 256

/-- May a later occurrence merge into record `e` (R410)? -/
def mergeable (e : Evt) (sp : EvSpec) (sev : Nat) : Bool :=
  e.cls == sp.cls && e.inst == sp.inst && e.cause == sp.cause && decide (sev < 4) && decide (e.sev < 4)
    && sp.cls != 12 && sp.cls != 14

/-- Rewrite the Scorebook's, or the event queue's, copy of a record that Kezen still holds (R410): a slot is a copy while it
carries the record's SEQ. -/
def sbCopy (s : State) (h : Half) (e : Evt) : State :=
  match e.sbSlot with
  | some n => if (s.rd (REF_SB h (n % 64) 1)).toNat = e.seq then s.wrWords (REF_SB h (n % 64) 0) (recWords e) else s
  | none => s
def evqCopy (s : State) (h : Half) (e : Evt) : State :=
  match e.evqIdx with
  | some n =>
    if (s.rd (REF_EVQ h (n % 1024) 1)).toNat = e.seq ∧ isGap s h (n % 1024) = false
    then s.wrWords (REF_EVQ h (n % 1024) 0) (recWords e) else s
  | none => s

/-- Rewrite every copy of a record, the handler list's too (R410). -/
def updateCopies (s : State) (h : Half) (e : Evt) : State :=
  (evqCopy (sbCopy s h e) h e).modTrp h fun t => { t with arrivals := t.arrivals.map fun a => if a.seq = e.seq then e else a }

/-- Does event `e` go before the recorded event `x` (R410)? They share a stamp, and its class, or in one class its instance, is the
smaller. -/
def goesBefore (e x : Evt) : Bool := e.ns == x.ns && (decide (e.cls < x.cls) || (e.cls == x.cls && decide (e.inst < x.inst)))

/-- Does the event queue still hold record `e` in a slot that nobody has consumed (R419)? -/
def evqHolds (s : State) (h : Half) (e : Evt) : Bool :=
  match e.evqIdx with
  | some n => decide ((n + 1024 - s.fget (REF_EVQ_PTR h) REF_EVQ_PTR_HEAD % 1024) % 1024 < evqOcc s h)
      && (s.rd (REF_EVQ h (n % 1024) 1)).toNat == e.seq && !isGap s h (n % 1024)
  | none => true

/-- Does the Scorebook still hold record `e`? -/
def sbHolds (s : State) (h : Half) (e : Evt) : Bool :=
  match e.sbSlot with
  | some n => (s.rd (REF_SB h (n % 64) 1)).toNat == e.seq
  | none => true

/-- May a new record `e` change places with the record `x` before it? While every copy of `x` is still held, and `e` was not
dropped where `x` was not (R419).
[log 155, DESIGN CHOICE] -/
def mayTrade (s : State) (h : Half) (e x : Evt) : Bool :=
  sbHolds s h x && evqHolds s h x && (x.evqIdx.isNone || e.evqIdx.isSome || !s.flag (REF_CLS h e.cls) REF_CLS_EVQ)

/-- `e` with the SEQ of `x`, and with its places where both have one. -/
def takePlace (e x : Evt) : Evt :=
  { e with seq := x.seq, sbSlot := if e.sbSlot.isSome ∧ x.sbSlot.isSome then x.sbSlot else e.sbSlot,
           evqIdx := if e.evqIdx.isSome ∧ x.evqIdx.isSome then x.evqIdx else e.evqIdx }

/-- Write a record where the Scorebook and the event queue have its places. -/
def putRecord (s : State) (h : Half) (e : Evt) : State :=
  let s := match e.sbSlot with
    | some n => s.wrWords (REF_SB h (n % 64) 0) (recWords e)
    | none => s
  match e.evqIdx with
  | some n => s.wrWords (REF_EVQ h (n % 1024) 0) (recWords e)
  | none => s

/-- Two records of one stamp change places, in the Scorebook, the event queue and the next handler list (R410). -/
def tradePlaces (s : State) (h : Half) (e x : Evt) : State :=
  let e' := takePlace e x
  let x' := takePlace x e
  (putRecord (putRecord s h e') h x').modTrp h fun t =>
    { t with arrivals := t.arrivals.map fun a => if a.seq = x.seq then x' else if a.seq = e.seq then e' else a }

/-- Put the newest record `e` in its order among those of its stamp, newest first (R410).
[log 155, DESIGN CHOICE] -/
def inOrder (s : State) (h : Half) (e : Evt) : List Evt → State × List Evt
  | [] => (s, [e])
  | x :: l =>
    if goesBefore e x && mayTrade s h e x then
      let r := inOrder (tradePlaces s h e x) h (takePlace e x) l
      (r.1, takePlace x e :: r.2)
    else (s, e :: x :: l)

/-- The handler list's places in use: those closed in, those dispatched that may return (R57, R59), and those that wait for the
next boundary (R53).
[log 121, DEDUCED] -/
def hlistLen (s : State) (h : Half) : Nat :=
  (s.trp.get h).hlist.length + (s.trp.get h).dispatched.length + (s.trp.get h).arrivals.length

/-- Does a new event find the list full (R53)? Not where the next boundary closes none into it: in control hold, or with RUN 0
then in force.
[log 121, DEDUCED] -/
def hlistFull (s : State) (h : Half) : Bool :=
  !s.flag (TRP_STAT h) TRP_STAT_HOLD && (s.trp.get h).runPend.getD (s.flag (TRP_CTL h) TRP_CTL_RUN) && decide (512 ≤ hlistLen s h)

/-- A new record (R409 steps 2 to 5): SEQ, Scorebook, event queue, ALERT_L, and the next handler list, in the order of R410; an
event that finds the list full is marked HANDLER_LOST (R53).
[log 3, DESIGN CHOICE; log 34, DEDUCED; log 155, DESIGN CHOICE] -/
def newRecord (s : State) (h : Half) (sp : EvSpec) (sev : Nat) : State :=
  let cl := REF_CLS h sp.cls
  let lost := hlistFull s h
  let uk := match sp.unit with
    | some (k, _) => k
    | none => Config.noUnit sp.cls sp.cause % 64
  let e : Evt := ⟨sp.cls, sp.cause, sev, sp.inst, uk, h, lost, s.fget (REF_SEQ h) REF_SEQ_SEQ, s.now h,
    min sp.count 0xFFFF, leakyOf s h sp.unit sp.cls sp.cause, sp.detail, none, none⟩
  let s := s.fset (REF_SEQ h) REF_SEQ_SEQ (e.seq + 1)
  let s := if lost then s.fbump (TRP_DEFER h) TRP_DEFER_LOST_CNT 1 else s
  let r := if s.flag cl REF_CLS_SB then sbRecord s h e else (s, none)
  let q := if s.flag cl REF_CLS_EVQ && s.flag (REF_CTL h) REF_CTL_EVQ_EN then evqRecord r.1 h e else (r.1, none)
  let e := { e with sbSlot := r.2, evqIdx := q.2 }
  let s := if alerts q.1 h sp.cls sev then alertRequest q.1 else q.1
  let s := if lost then s else s.modTrp h fun t => { t with arrivals := t.arrivals ++ [e] }
  let o := inOrder s h e (s.ref.get h).recent
  o.1.modRef h fun x => { x with recent := o.2 }

/-- Record an event: merge it into the record of the same kind stamped in this Transit (R410), or write a
new one. -/
def record (s : State) (h : Half) (sp : EvSpec) (sev : Nat) : State :=
  match (s.ref.get h).recent.find? fun e => mergeable e sp sev with
  | some e =>
    let e' := { e with count := min (e.count + sp.count) 0xFFFF, leaky := leakyOf s h sp.unit sp.cls sp.cause }
    updateCopies (s.modRef h fun x => { x with recent := x.recent.map fun y => if y.seq = e.seq then e' else y }) h e'
  | none => newRecord s h sp sev

/-- Set Viral on a tenant's VCS (R414): nothing where it is Viral already. -/
def setViral (s : State) (t : Nat) : State :=
  if t ∈ s.viral then s
  else
    let s := { s with viral := t :: s.viral, sent := .viral t :: s.sent }
    record (s.fset (SF_TEN_STAT t) SF_TEN_STAT_VIRAL 1) (tenantHalf t) (evt 19 2 t 0) 2

/-- Viral on every VCS (R415).
[log 34, DEDUCED] -/
def setViralAll (s : State) : State := (List.range 64).foldl setViral s

/-- The FATAL_DEVICE reaction of a half (R415). The Scorebook freezes first, so that the history before the
event is what it keeps (R418 leaves the event itself out).
[log 34, DEDUCED] -/
def fatalDevice (s : State) (h : Half) : State :=
  let s := s.fset (REF_STAT h) REF_STAT_FATAL_DEV 1
  let s := if s.flag (REF_CTL h) REF_CTL_SB_FREEZE then s.fset (REF_STAT h) REF_STAT_SB_FROZEN 1 else s
  setViralAll s

/-- A pending bank takeover ends ABORTED with a reason (R65). -/
def swapAbortWith (s : State) (h : Half) (reason : Nat) : State :=
  (s.fset (TRP_SWAP_STAT h) TRP_SWAP_STAT_STATE 3).fset (TRP_SWAP_STAT h) TRP_SWAP_STAT_REASON reason

/-- The half enters control hold (R61): the pair stops, the handler list empties, a pending takeover ends
with HOLD, but one committed at the seal completes at its boundary (R65); ALERT_L goes to RECOVERY (R423).
[log 33, DEDUCED; log 122, DEDUCED] -/
def enterHold (s : State) (h : Half) : State :=
  let s := s.fset (TRP_STAT h) TRP_STAT_HOLD 1
  let s := if s.fget (TRP_SWAP_STAT h) TRP_SWAP_STAT_STATE = 1 ∧ (s.trp.get h).swapGo = false
    then swapAbortWith s h 6 else s
  let s := s.modTrp h fun t => { t with phase := .stopped, held := [], hlist := [], arrivals := [], dispatched := [] }
  s.fset MRD_ALERT_CTL MRD_ALERT_CTL_MODE 3

/-- A unit whose leaky count reached its threshold is retired (R427): its count stops, its event is raised,
and its bank drains, its pseudo-channel is mapped away with a restart of the stack's front end, or its pair enters control hold (R425, R426). -/
def retireUnit (s : State) (h : Half) (k i : Nat) : State :=
  let s := s.fset (REF_LCNT h k i) REF_LCNT_RETIRED 1
  match k with
  | 0 => record (enterHold s h) h (evtU 2 3 0 0 0 0) 4
  | 5 =>
    let spare := (s.ref.get h).spareUsed
    let s := s.modRef h fun x => { x with spareUsed := true, hbmRetired := i :: x.hbmRetired, hbmCopy := i :: x.hbmCopy }
    let s := (s.fset (QOS_ROT_STAT h) QOS_ROT_STAT_RESTART 1).fset (CORE_STAT h) CORE_STAT_DF_READY 0
    record s h (evtU 16 (if spare then 3 else 2) i 5 i 0) 3
  | _ =>
    record (s.modRef h fun x => { x with draining := x.draining ++ [(k, i)] }) h (evtU 17 0 i k i 0) 3

/-- The weight an event adds to its unit's leaky count (R424). -/
def leakWeight (s : State) (h : Half) (k sev : Nat) : Nat :=
  if sev = 1 then s.fget (REF_LEAK h k) REF_LEAK_W_CORR
  else if sev = 2 ∨ sev = 3 then s.fget (REF_LEAK h k) REF_LEAK_W_UNC
  else 0

/-- Add an event to the leaky count of its unit: kinds 0 to 5 are counted, a retired unit's count stops
(R424, R425, R427).
[log 160, DEDUCED] -/
def leakyAdd (s : State) (h : Half) (sp : EvSpec) (sev : Nat) : State :=
  match sp.unit with
  | some (k, i) =>
    if k ≤ 5 ∧ s.flag (REF_LCNT h k i) REF_LCNT_RETIRED = false then
      s.fset (REF_LCNT h k i) REF_LCNT_COUNT
        (min (s.fget (REF_LCNT h k i) REF_LCNT_COUNT + sp.count * leakWeight s h k sev) 255)
    else s
  | none => s

/-- Does the unit's count reach its threshold now (THRESH 0 treated as 1, R424)?
[log 160, DEDUCED] -/
def atThresh (s : State) (h : Half) (sp : EvSpec) : Option (Nat × Nat) :=
  match sp.unit with
  | some (k, i) =>
    if k ≤ 5 ∧ s.flag (REF_LCNT h k i) REF_LCNT_RETIRED = false
        ∧ max 1 (s.fget (REF_LEAK h k) REF_LEAK_THRESH) ≤ s.fget (REF_LCNT h k i) REF_LCNT_COUNT
    then some (k, i) else none
  | none => none

/-- Do the halves run: out of reset (R458), their clocks not stopped by a freeze (R493)?
[log 159, DEDUCED] -/
def halvesRun (s : State) : Bool := s.dome.released && !s.flag MRD_FRZ_STAT MRD_FRZ_STAT_FROZEN

/-- What a Referee does with an event (R409): the default reaction, the leaky count, the record, a retirement. -/
def raiseLive (s : State) (h : Half) (sp : EvSpec) (sev : Nat) : State :=
  let s := if sev = 5 then fatalDevice s h else s
  let s := leakyAdd s h sp sev
  let s := record s h sp sev
  match atThresh s h sp with
  | some (k, i) => retireUnit s h k i
  | none => s

/-- Report an event to a half's Referee with a severity of the caller's (R409); a half in reset or frozen records none (R493). -/
def raiseSev (s : State) (h : Half) (sp : EvSpec) (sev : Nat) : State := if halvesRun s then raiseLive s h sp sev else s

/-- Report an event to a half's Referee (R409, severity of R411).
[log 159, DEDUCED] -/
def raise (s : State) (h : Half) (sp : EvSpec) : State := raiseSev s h sp (sevOf sp.cls sp.cause)

/-- A device-wide detection: each half raises the event for itself (R536).
[log 47, DEDUCED; log 159, DEDUCED] -/
def raiseBoth (s : State) (sp : EvSpec) : State := raise (raise s .east sp) .west sp

/-- A write that a rule of its block discards: CS cause 2 and WDISC_CNT (R411, REF_ERRCNT1).
[log 37, DEDUCED] -/
def writeDiscarded (s : State) (h : Half) (a : Nat) : State :=
  raise (s.fbump (REF_ERRCNT1 h) REF_ERRCNT1_WDISC_CNT 1) h (evt 4 2 0 a)

/-- An access to an undecoded address: CS cause 0 and CSDEC_CNT (R10). -/
def csDecodeError (s : State) (h : Half) (a : Nat) : State :=
  raise (s.fbump (REF_ERRCNT0 h) REF_ERRCNT0_CSDEC_CNT 1) h (evt 4 0 0 a)

/-- An access that cannot reach its register: CS cause 1 and CSUNR_CNT (R27).
[log 38, DEDUCED] -/
def csUnreachable (s : State) (h : Half) (a : Nat) : State :=
  raise (s.fbump (REF_ERRCNT0 h) REF_ERRCNT0_CSUNR_CNT 1) h (evt 4 1 0 a)

end Sys2Proof.Machine
end

