-- ==== Sys2Proof/Machine/Count.lean ====
section
/-! DEFINITION. How an event counts in the Photometer (R434-R438): the operation every unit calls when one of
the occurrences or states of R436 comes about. -/

namespace Sys2Proof.Machine

open Sys2Proof

/-- PHM_SEL fields of a selection word. -/
def selMode (w : Nat) : Nat := bits w 31 30
def selUnit (w : Nat) : Nat := bits w 23 16
def selEvent (w : Nat) : Nat := bits w 15 8
def selInst (w : Nat) : Nat := bits w 7 0

/-- Add to counter `c` of the 256 (R438): past 2^48 - 1 it goes on from the remainder, WCNT steps and WRAP sets, and a
wrap raises PHOTOMETER cause 0 when WEVT is set. -/
def phmAdd (s : State) (h : Half) (c k : Nat) : State :=
  let n := c % 256
  let v := s.rd64 (PHM_CNT_LO h n)
  let x := v % 2 ^ 48 + k
  if x < 2 ^ 48 then s.wr64 (PHM_CNT_LO h n) (v + k)
  else
    let wc := (v / 2 ^ 48 + 1) % 2 ^ 16
    let s := s.wr64 (PHM_CNT_LO h n) (wc * 2 ^ 48 + (x - 2 ^ 48))
    let w := s.rd (PHM_WRAP h (n / 32))
    let s := s.wr (PHM_WRAP h (n / 32)) (w ||| BitVec.ofNat 32 (2 ^ (n % 32)))
    if bitB ((mfind (s.phm.get h).sel n).getD 0) 24 then raise s h (evt 22 0 n 0) else s

/-- Does a selection name this event (R436)? INST 0xFF names every instance of the Catalogue and the Stacker. -/
def selNames (w unit event inst : Nat) : Bool :=
  selUnit w == unit && selEvent w == event &&
    (selInst w == inst || ((unit == 3 || unit == 4) && selInst w == 0xFF))

/-- What an occurrence of weight `k` adds under a selection: EDGE its weight, LEVEL 1 (R435). -/
def occAdds (w k : Nat) : Nat :=
  if selMode w = 1 then k else if selMode w = 2 then min k 1 else 0

/-- An occurrence of a countable event (R434, R435): every enabled counter that selects it counts it.
[log 43, DESIGN CHOICE] -/
def tally (s : State) (h : Half) (unit event inst k : Nat) : State :=
  (s.phm.get h).sel.foldl (fun s e =>
    if bitB (s.phm.get h).grp (e.1 / 16) && selNames e.2 unit event inst then
      (if occAdds e.2 k = 0 then s else phmAdd s h e.1 (occAdds e.2 k))
    else s) s

/-- A countable state turns from false to true (R435, EDGE of a state). -/
def tallyRise (s : State) (h : Half) (unit event inst : Nat) : State :=
  (s.phm.get h).sel.foldl (fun s e =>
    if bitB (s.phm.get h).grp (e.1 / 16) && selNames e.2 unit event inst && selMode e.2 == 1 then phmAdd s h e.1 1
    else s) s

end Sys2Proof.Machine
end

