-- ==== Sys2Proof/Machine/UmpRules.lean ====
section
/-! DEFINITION. The Umpire's rules and their check (spec 10, R297-R303), the fault log and what a denied access counts
(R315, R316). -/

namespace Sys2Proof.Machine

open Sys2Proof

/-- The generation in force in a half. -/
def State.gen (s : State) (h : Half) : Nat := s.fget (UMP_GEN h) UMP_GEN_GEN

/-- Who asks: a tenant or DBG (R301, R302). -/
inductive Accessor where
  | tenant (t : Nat)
  | dbg
  deriving DecidableEq, Repr

/-- The Umpire's verdict: allowed, or denied by a rule or by no match. -/
inductive Verdict where
  | allow
  | deny (rule : Option Nat)
  deriving DecidableEq, Repr

/-- Permission bits as a rule holds them: R 1, W 2, COH 4, STK 8 (R297). -/
def pR : Nat := 1
def pW : Nat := 2
def pCOH : Nat := 4
def pSTK : Nat := 8

/-- Word k of active rule n of half h. -/
def ruleW (s : State) (h : Half) (n k : Nat) : Nat := (s.rd (UMP_ACTIVE h n k)).toNat

/-- BASE of a rule given by its words 0 and 1 (R297). -/
def ruleBase (w0 w1 : Nat) : Nat := w0 / 4096 * 4096 + w1 % 2 ^ 20 * 2 ^ 32

/-- The valid rules of the active page, in ascending index. -/
def activeRules (s : State) (h : Half) : List Nat :=
  s.regs.filterMap fun e =>
    let b := UMP_ACTIVE h 0 0
    if b ≤ e.1 ∧ e.1 < b + 0x100000 ∧ (e.1 - b) % 32 = 8 ∧ bitB e.2.toNat 31 then some ((e.1 - b) / 32) else none

/-- Does a rule cover a piece (R298)? Its target kind and index equal the target's and the address lies in its
range. -/
def covers (s : State) (h : Half) (n : Nat) (p : Piece) : Bool :=
  let w2 := ruleW s h n 2
  let base := ruleBase (ruleW s h n 0) (ruleW s h n 1)
  bits w2 30 28 == p.kind && bits w2 27 16 == p.idx && decide (base ≤ p.addr) && decide (p.addr < base + 2 ^ bits w2 13 8)

/-- Is the accessor in a rule's set (R301)? -/
def inSet (s : State) (h : Half) (n : Nat) (a : Accessor) : Bool :=
  match a with
  | .tenant t => bitB (ruleW s h n 3 + ruleW s h n 4 * 2 ^ 32) t
  | .dbg => bitB (ruleW s h n 2) 4 && !bitB (ruleW s h n 2) 5

/-- Is every needed permission in a rule's? -/
def permits (s : State) (h : Half) (n need : Nat) : Bool := (ruleW s h n 2 % 16) &&& need == need

/-- The first covering rule whose set holds the accessor decides (R301). -/
def firstRule (s : State) (h : Half) (a : Accessor) (p : Piece) (need : Nat) (l : List Nat) : Verdict :=
  match l with
  | [] => .deny none
  | n :: r =>
    if covers s h n p && inSet s h n a then (if permits s h n need then .allow else .deny (some n))
    else firstRule s h a p need r

/-- The check of one piece in half h (R301). While a rule word waits for its repair, every check is denied (R413). -/
def check (s : State) (h : Half) (a : Accessor) (p : Piece) (need : Nat) : Verdict :=
  if (s.ref.get h).ruleBad ≠ [] then .deny none
  else
    let rules := activeRules s h
    match a with
    | .dbg =>
      match rules.find? fun n => bitB (ruleW s h n 2) 5 && covers s h n p with
      | some n => .deny (some n)
      | none => if s.flag (UMP_STAT h) UMP_STAT_DBG_AUTH then .allow else firstRule s h a p need rules
    | .tenant _ => firstRule s h a p need rules

/-- The lowest-addressed denied piece of a request (R305). -/
def deniedPiece (s : State) (h : Half) (a : Accessor) (need : Nat) (l : List Piece) : Option (Piece × Option Nat) :=
  l.foldl (fun b p =>
    match check s h a p need with
    | .allow => b
    | .deny r => match b with
      | none => some (p, r)
      | some x => if p.addr < x.1.addr then some (p, r) else some x) none

/-- Record a fault in half h's fault log unless it is held; a fault while VALID is 1 sets MORE (R316). -/
def faultLog (s : State) (h : Half) (a : Accessor) (need : Nat) (p : Piece) (rule : Option Nat) : State :=
  let i := UMP_FLOG_INFO h
  if s.flag i UMP_FLOG_INFO_VALID then s.fset i UMP_FLOG_INFO_MORE 1
  else
    let t := match a with
      | .tenant t => t
      | .dbg => 0
    let s := s.fsets i [(UMP_FLOG_INFO_VALID, 1), (UMP_FLOG_INFO_TENANT, t),
      (UMP_FLOG_INFO_DBG, (a = .dbg : Bool).toNat), (UMP_FLOG_INFO_NEED, need), (UMP_FLOG_INFO_GEN, s.gen h)]
    let s := s.fsets (UMP_FLOG_TGT h) [(UMP_FLOG_TGT_NOMATCH, (rule.isNone).toNat), (UMP_FLOG_TGT_TKIND, p.kind),
      (UMP_FLOG_TGT_TIDX, p.idx), (UMP_FLOG_TGT_RULE, rule.getD 0)]
    s.wr64 (UMP_FLOG_ADDR_LO h) p.addr

/-- A denied request of a tenant: FAULT_CNT, the fault log, and with EVT_EN the Transit's one Umpire-fault
event, whose later faults merge into its COUNT (R316, R410). -/
def umpFault (s : State) (h : Half) (t need : Nat) (p : Piece) (rule : Option Nat) : State :=
  let s := s.fbump (UMP_ERRCNT0 h) UMP_ERRCNT0_FAULT_CNT 1
  let s := faultLog s h (.tenant t) need p rule
  if s.flag (UMP_CTL h) UMP_CTL_EVT_EN then raise s h (evt 13 0 0 0) else s

/-- A denied DBG access counts in both counters and raises its own event (R316). -/
def dbgDenied (s : State) (h : Half) (need : Nat) (p : Piece) (rule : Option Nat) : State :=
  let s := (s.fbump (UMP_ERRCNT0 h) UMP_ERRCNT0_FAULT_CNT 1).fbump (UMP_ERRCNT0 h) UMP_ERRCNT0_DBG_DENY_CNT 1
  raise (faultLog s h .dbg need p rule) h (evt 14 0 0 p.addr)

end Sys2Proof.Machine
end

