-- ==== Sys2Proof/Machine/Cs.lean ====
section
/-! DEFINITION. Control Space access (R6-R13, R24-R27): where an address is held, what a read answers and
does, and how a written word changes a register by its field access types. -/

namespace Sys2Proof.Machine

open Sys2Proof

/-- Who holds a register (R24): a half, or no one half (the device global block, the Shutter die, and what has a copy in each
half: the Umpire block but for the registers of one half, R317). -/
def homeOf (a : Nat) : Option Half :=
  if a < 0x01000000 then none
  else if a < 0x01800000 then some (portHalf ((a - 0x01000000) / 0x40000))
  else if a < 0x02000000 then none
  else if a < 0x08000000 then (if a / 0x1000000 % 2 = 0 then some .east else some .west)
  else if a < 0x09000000 then
    (if 0x08000100 ≤ a ∧ a < 0x08000180 then (if a < 0x08000140 then some .east else some .west) else none)
  else if a < 0x0A000000 then (if a < 0x09800000 then some .east else some .west)
  else if a < 0x0A400000 then some (tenantHalf ((a - 0x0A000000) / 0x10000))
  else if a < 0x0B000000 then none
  else if a < 0x0C000000 then (if a < 0x0B800000 then some .east else some .west)
  else if a < 0x0D000000 then none
  else if a < 0x10000000 then (if a / 0x800000 % 2 = 0 then some .east else some .west)
  else none

/-- The address a master's access names: a host works in the BAR0 of its function (R345), every other master
in the Control Space. -/
def accessAddr (m : Master) (a : Nat) : Nat :=
  match m with
  | .host t fn => 0x200000000 + 0x100000 * t + 0x1000 * fn + a % 0x1000
  | _ => a / 4 * 4

/-- The key of the copy that half `h` reads: a block kept in both halves under one address has its West
copy 2^32 above (R26, R30).
[log 8, DESIGN CHOICE] -/
def copyKey (h : Half) (a : Nat) : Nat :=
  if h = .west ∧ a < 0x10000000 ∧ (descAt (a + 0x100000000)).isSome then a + 0x100000000 else a

/-- Is the address kept in both halves (R26, R30)? -/
def bothCopies (a : Nat) : Bool := decide (a < 0x10000000) && (descAt (a + 0x100000000)).isSome

/-- Is a register held in the Shutter die (R24): a Shutter channel's, or one of the device global block but for the Meridian's?
[log 119, DEDUCED] -/
def inShutter (a : Nat) : Bool :=
  (decide (a < 0x01000000) && !bothCopies a) || (decide (0x0C000000 ≤ a) && decide (a < 0x0D000000))

/-- Can a master in half `mh` reach address `a`: in the other half while VC7 crosses the bridge (R27, R537), in the Shutter die
while the half's own Shutter link stands, since no other path leads there (R15, R16)?
[log 119, DEDUCED] -/
def reaches (s : State) (mh : Half) (a : Nat) : Bool :=
  match homeOf a with
  | some h => decide (h = mh) || !(decide (s.phase mh = phRETRAIN) || decide (s.phase mh = phSPLIT))
  | none => !(inShutter a && s.dome.linkLost.contains mh.idx)

/-- The half whose Referee records an access (R536): that of the block, or the master's for the device
global block, the Shutter and addresses of no block.
[log 38, DEDUCED] -/
def recHalf (s : State) (m : Master) (a : Nat) : Half := (homeOf a).getD (s.masterHalf m)

/-- The fields of a register that a read clears, as a mask (RC, R6). -/
def rcMask (fs : List Fld) : Word :=
  fs.foldl (fun w f => if f.acc = .rc then w ||| fldMask f else w) 0

/-- What a clearing read leaves: the RC fields 0, the rest as it was. -/
def rcCleared (d : RegDesc) (v : Word) : Word := v &&& ~~~ rcMask d.flds

/-- What a read leaves of a register with RC fields: CORE_DF_PEAK starts again from the pages in use now (R165). -/
def rcLeft (s : State) (d : RegDesc) (k : Nat) : Word :=
  let f (h : Half) : Word := fldPut (s.rd k) CORE_DF_PEAK_PEAK (s.fget (CORE_DF_STAT h) CORE_DF_STAT_USED)
  if k = CORE_DF_PEAK .east then f .east else if k = CORE_DF_PEAK .west then f .west else rcCleared d (s.rd k)

/-- A read of the debug nonce's first word draws a fresh nonce of twelve words (R491).
[log 107, DEDUCED] -/
def drawNonce (s : State) : State :=
  let s := { s with dome := { s.dome with nonce := true } }
  (List.range 12).foldl (fun s k =>
    let r := s.draw
    r.2.wr (MRD_DBG_NONCE k) (BitVec.ofNat 32 r.1)) s

/-- The latched high word a master still has for the register at `k` (R11). -/
def latched (s : State) (m : Master) (k : Nat) : Option Word :=
  (s.latches.find? fun e => e.1 = m ∧ e.2.1 = k).map fun e => e.2.2

/-- Take a master's latch for the register at `k` away. -/
def dropLatch (s : State) (m : Master) (k : Nat) : State :=
  { s with latches := s.latches.filter fun e => ¬ (e.1 = m ∧ e.2.1 = k) }

/-- A low-word read latches the high word for the master, and MRD_NOW_LO latches MRD_FRAC too (R11, R30). The master has one latch,
so a low-word read of another register takes the place of what it held.
[log 120, DEDUCED] -/
def latchHigh (s : State) (m : Master) (k : Nat) : State :=
  let rest := s.latches.filter fun e => e.1 ≠ m
  let l := (m, k + 4, s.rd (k + 4)) :: rest
  { s with latches := if k = MRD_NOW_LO .east ∨ k = MRD_NOW_LO .west then (m, k + 8, s.rd (k + 8)) :: l else l }

/-- A read of a decoded register by a master (R6, R11): the value, and the read's own effects. -/
def readReg (s : State) (m : Master) (d : RegDesc) (k : Nat) : Word × State :=
  match latched s m k with
  | some v => (v, dropLatch s m k)
  | none =>
    let s := if k = MRD_DBG_NONCE 0 then drawNonce s else s
    let v := s.rd k
    let s := if d.lo64 then latchHigh s m k else s
    (v, if rcMask d.flds = 0 then s else s.wr k (rcLeft s d k))

/-- An access of the debug access port is checked as DBG (R301, R302) in the half it works from; any other master's is not.
[log 107, DEDUCED] -/
def dbgGate {α : Type} (s : State) (m : Master) (a need : Nat) (denied : State → α) (f : State → α) : α :=
  match m with
  | .dap =>
    let h := s.masterHalf m
    match check s h .dbg ⟨5, 0, a⟩ need with
    | .allow => f s
    | .deny rule => denied (dbgDenied s h need ⟨5, 0, a⟩ rule)
  | _ => f s

/-- The register that a master's access at `a'` decodes to, in the copy at `k` (R10): the Control Space ends below 2^28.
[log 8, DESIGN CHOICE] -/
def decodeAt (m : Master) (a' k : Nat) : Option RegDesc :=
  match m with
  | .host _ _ => descAt k
  | _ => if a' < 0x10000000 then descAt k else none

/-- A CS read (R6, R10, R11, R27, R302): the word the master gets, and the state after.
[log 38, DEDUCED; log 119, DEDUCED] -/
def csRead (s : State) (m : Master) (a : Nat) : Word × State :=
  let a' := accessAddr m a
  let mh := s.masterHalf m
  let k := copyKey mh a'
  match decodeAt m a' k with
  | none => (0, csDecodeError s (recHalf s m a') a')
  | some d =>
    dbgGate s m a' pR (fun s => (0xFFFFFFFF, s)) fun s =>
      if reaches s mh a' then readReg s m d k else (0xFFFFFFFF, csUnreachable s mh a')

/-- May the block's RWL fields still be written (R6): the core and QOS locks, and MRD_LIFE only while MODE is
STARTUP (R431)? -/
def rwlOpen (s : State) (k : Nat) : Bool :=
  if k < 0x1000000 then s.fget MRD_ALERT_CTL MRD_ALERT_CTL_MODE == 1
  else if k < 0x3000000 then !s.flag (CORE_CTL .east) CORE_CTL_LOCK
  else if k < 0x4000000 then !s.flag (CORE_CTL .west) CORE_CTL_LOCK
  else if k < 0x9800000 then !s.flag (QOS_CTL .east) QOS_CTL_LOCK
  else !s.flag (QOS_CTL .west) QOS_CTL_LOCK

/-- One field of a register after a write of `v` (R6). -/
def fldWrite (opn : Bool) (old v : Word) (f : Fld) : Word :=
  match f.acc with
  | .ro | .wo | .rc => old &&& fldMask f
  | .rw => v &&& fldMask f
  | .rw1c => old &&& ~~~ v &&& fldMask f
  | .rw1s => (old ||| v) &&& fldMask f
  | .rwl => (if opn then v else old) &&& fldMask f

/-- A register word after a write of `v`, field by field; reserved bits stay 0 (R6, R9). -/
def wordWrite (opn : Bool) (d : RegDesc) (old v : Word) : Word :=
  d.flds.foldl (fun w f => w ||| fldWrite opn old v f) 0

/-- A write of a decoded register by its field access types alone. -/
def plainWrite (s : State) (d : RegDesc) (k : Nat) (v : Word) : State :=
  s.wr k (wordWrite (rwlOpen s k) d (s.rd k) v)

/-- The low word of a 64-bit register is held until the high word is written (R12).
[log 41, DESIGN CHOICE] -/
def holdLow (s : State) (k : Nat) (v : Word) : State := { s with heldLow := minsert s.heldLow k v }

/-- The high word of a 64-bit register is written: the held low word and it are applied together (R12).
[log 41, DESIGN CHOICE] -/
def applyHigh (s : State) (d dl : RegDesc) (k : Nat) (v : Word) : State :=
  let s := match mfind s.heldLow (k - 4) with
    | some lo => { plainWrite s dl (k - 4) lo with heldLow := merase s.heldLow (k - 4) }
    | none => s
  plainWrite s d k v

/-- Do what a write does if the master can reach the register; else it is discarded and logged as CS
unreachable (R27). A write that the Umpire denies DBG is discarded (R302, R315).
[log 119, DEDUCED] -/
def csGate (s : State) (m : Master) (a : Nat) (f : State → State) : State :=
  dbgGate s m a pW (fun s => s) fun s =>
    if reaches s (s.masterHalf m) a then f s else csUnreachable s (s.masterHalf m) a

/-- Is the device held in Finder service (R464)? -/
def finderOnly (s : State) : Bool := s.flag MRD_STRAP MRD_STRAP_FINDER_ONLY

/-- A write of 1 to an enable that Finder service forbids is ignored and logged (R464).
[log 37, DEDUCED] -/
def finderGate (s : State) (h : Half) (a : Nat) (f : State → State) : State :=
  if finderOnly s then writeDiscarded s h a else f s

end Sys2Proof.Machine
end

