-- ==== Sys2Proof/Machine/Meridian.lean ====
section
/-! DEFINITION. The Meridian and MSYNC (spec 01): the count on each MRD_x clock, its frames, and how a follower
corrects itself. Times are kept in units of 2^-16 ns. -/

namespace Sys2Proof.Machine

open Sys2Proof

/-- Nanoseconds in units of 2^-16 ns. -/
def nsU : Nat := 65536

/-- What one MRD_x clock adds (R29, R39): the increment in force, its frequency correction, and one unit of
phase correction against the sign of the error that remains. -/
def merInc (r : Mrd) : Int :=
  (r.inc : Int) + r.adj - (if 0 < r.phaseErr then 1 else if r.phaseErr < 0 then -1 else 0)

/-- `n` clocks' worth of phase correction taken off the error that remains. -/
def phaseDown (e : Int) (n : Nat) : Int :=
  if 0 ≤ e then max 0 (e - n) else min 0 (e + n)

/-- One MRD_x clock of a half (R29): the Meridian moves on, or stands still during a follower's hold (R39).
The clock that reaches the next boundary belongs to the boundary's own command, so it is not taken here. -/
def merTick (s : State) (h : Half) : State :=
  let r := s.mrd.get h
  if 0 < r.hold then s.modMrd h fun r => { r with hold := r.hold - r.inc }
  else
    let m := ((s.mer h : Int) + max 0 (merInc r)).toNat
    if m < (s.tn h + 1) * 1000 * nsU then
      (s.setMer h m).modMrd h fun r => { r with phaseErr := phaseDown r.phaseErr 1 }
    else s

/-- The first value of the Meridian at or past `target` from `m` on, and the MRD_x clocks until then (R29, R39): the first |e|
clocks add `a`, the increment with the phase correction, the later ones `b`, the increment without it. An increment that never
gets there leaves the target to the command that says it has been reached. -/
def merCross (r : Mrd) (m target : Nat) : Nat × Nat :=
  let b := (r.inc : Int) + r.adj
  let a := merInc r
  let k := r.phaseErr.natAbs
  if target ≤ m then (m, 0)
  else if a ≤ 0 ∨ b ≤ 0 then (target, 0)
  else
    let d := target - m
    let a := a.toNat
    let b := b.toNat
    if d ≤ a * k then
      let n := (d + a - 1) / a
      (m + n * a, n)
    else
      let n := (d - a * k + b - 1) / b
      (m + a * k + n * b, k + n)

/-- One bit of the CRC-8 of R38 (polynomial 0x07, most significant bit first). -/
def crc8Bit (c : BitVec 8) (b : Bool) : BitVec 8 :=
  if (c.msb ^^ b) then (c <<< 1) ^^^ 0x07 else c <<< 1

/-- The CRC-8 over a 64-bit TN, most significant bit first (R38). -/
def crc8 (tn : Nat) : BitVec 8 :=
  (List.range 64).foldl (fun c i => crc8Bit c (tn.testBit (63 - i))) 0

/-- MRD_SYNC_CTL fields in force: ROLE (11 treated as 00), STEP_EN, OUT_EN (R38). -/
def roleOf (r : Mrd) : Nat := if r.ctl % 4 = 3 then 0 else r.ctl % 4
def stepEn (r : Mrd) : Bool := bitB r.ctl 2
def outEn (r : Mrd) : Bool := bitB r.ctl 3

/-- The 73 bits of the frame for a TN (R38): the start bit, TN and its CRC-8, most significant bit first. -/
def frameBits (tn : Nat) : List Bool :=
  true :: (List.range 64).map (fun i => tn.testBit (63 - i)) ++ (List.range 8).map fun i => (crc8 tn).getLsbD (7 - i)

/-- Manchester code (R38): a 1 is high, then low, a 0 low, then high. -/
def manchester (l : List Bool) : List Bool := l.flatMap fun b => [b, !b]

/-- MSYNC_FRAME_SEND (R38, R41): at a boundary whose TN is a multiple of 1,000, the half with authority sends
a frame for a leader or a locked follower with OUT_EN set. -/
def execMsyncFrameSend (h : Half) (s : State) : Host.Outcome State Fault Refusal :=
  let r := s.mrd.get h
  if s.tn h % 1000 = 0 ∧ outEn r ∧ s.auth h = h ∧
      (roleOf r = 1 ∨ (roleOf r = 2 ∧ s.flag (MRD_SYNC_STAT h) MRD_SYNC_STAT_LOCKED)) then
    .next { s with sent := .msync (manchester (frameBits (s.tn h))) :: s.sent }
  else .next s

/-- The phase error e = M - DLY - TN x 1,000 in units of 2^-16 ns (R39); DLY counts 1/16 ns. -/
def phaseErrOf (r : Mrd) (arr tn : Nat) : Int := (arr : Int) - r.dly * 4096 - tn * 1000 * nsU

/-- ERR: e in units of 0.25 ns, saturating at 16 bits signed (MRD_SYNC_STAT).
[log 42, DESIGN CHOICE] -/
def errField (e : Int) : Nat :=
  let q := max (-32767) (min 32767 (Int.tdiv e 16384))
  (if q < 0 then q + 65536 else q).toNat

/-- Lock is lost: LOCKED clears and TIME cause 1 is raised (R40). -/
def loseLock (s : State) (h : Half) : State :=
  if s.flag (MRD_SYNC_STAT h) MRD_SYNC_STAT_LOCKED then
    raise (s.fset (MRD_SYNC_STAT h) MRD_SYNC_STAT_LOCKED 0) h (evt 1 1 0 0)
  else s

/-- Is the follower's clock measured as faster than the leader's, or as slower (R39)? At equal rates a frame's error is what the
corrections have left of the last one's; nothing is known before the second good frame.
[log 42, DESIGN CHOICE] -/
def rateSeen (r : Mrd) (e : Int) : Option Bool :=
  let left := r.phaseErr - r.step + r.hold
  if r.seen = false ∨ e = left then none else some (decide (left < e))

/-- The increment moves one step toward the leader's rate, within ±66 steps (R39). `faster`: whether the
follower's clock is measured as faster than the leader's. -/
def adjStep (a : Int) (faster : Option Bool) : Int :=
  match faster with
  | some true => max (-66) (a - 1)
  | some false => min 66 (a + 1)
  | none => a

/-- May the follower step (R39): STEP_EN, |e| above 500 ns, and Finder service? -/
def maySteps (s : State) (r : Mrd) (e : Int) : Bool :=
  stepEn r && decide (500 * nsU < e.natAbs) && s.fget MRD_SVC_STAT MRD_SVC_STAT_PHASE == 3

/-- MSYNC_FRAME_RECEIVED (R39, R40): a bad CRC sets CRC_ERR and raises TIME cause 2, and leaves the run of good frames as it is; a
good frame gives the phase error, which the follower slews away or, in Finder service, steps away from the next boundary. In LOCK
neither half steps, and the Islanded half follows the authority half (R191).
[log 42, DESIGN CHOICE] -/
def execMsyncFrameReceived (h : Half) (tn : Nat) (crc : BitVec 8) (arr : Nat) (s : State) :
    Host.Outcome State Fault Refusal :=
  let r := s.mrd.get h
  if roleOf r ≠ 2 then .next s
  else if crc ≠ crc8 tn then
    .next (raise (s.fset (MRD_SYNC_STAT h) MRD_SYNC_STAT_CRC_ERR 1) h (evt 1 2 0 0))
  else
    let e := phaseErrOf r arr tn
    let good := if e.natAbs ≤ 4 * nsU then r.good + 1 else 0
    let s := s.fset (MRD_SYNC_STAT h) MRD_SYNC_STAT_ERR (errField e)
    let lock := s.phase h == phLOCK
    let own := lock && s.flag (CDB_STAT h) CDB_STAT_ISLANDED
    let steps := maySteps s r e && !lock
    let s := s.modMrd h fun r =>
      { r with good := good, adj := if own then r.adj else adjStep r.adj (rateSeen r e), seen := true,
               step := if steps then -e else r.step,
               phaseErr := if own then r.phaseErr else if steps then 0 else e }
    if 16 * nsU < e.natAbs then .next (loseLock s h)
    else if 8 ≤ good then .next (s.fset (MRD_SYNC_STAT h) MRD_SYNC_STAT_LOCKED 1)
    else .next s

/-- MSYNC_LOSS (R40): three consecutive frames are missing.
[log 42, DESIGN CHOICE] -/
def execMsyncLoss (h : Half) (s : State) : Host.Outcome State Fault Refusal :=
  if roleOf (s.mrd.get h) ≠ 2 then .next s
  else
    let s := s.modMrd h fun r => { r with good := 0 }
    .next ((loseLock s h).fset (MRD_SYNC_STAT h) MRD_SYNC_STAT_LOSS 1)

/-- A write of MRD_SYNC_STAT: the bits it clears are cleared at the next boundary (R30). -/
def syncStatWrite (s : State) (h : Half) (v : Word) : State :=
  s.modMrd h fun r => { r with clr := r.clr ||| v.toNat % 16 }

/-- The settings written to MRD_INC and MRD_SYNC_ come into force at a boundary (R30). -/
def merSettings (s : State) (h : Half) : State :=
  let c := (s.mrd.get h).clr
  let s := if c = 0 then s else s.wr (MRD_SYNC_STAT h) (s.rd (MRD_SYNC_STAT h) &&& ~~~ BitVec.ofNat 32 (c &&& 14))
  s.modMrd h fun r =>
    { r with clr := 0, inc := s.fget (MRD_INC h) MRD_INC_INC, ctl := (s.rd (MRD_SYNC_CTL h)).toNat,
             dly := s.fget (MRD_SYNC_DLY h) MRD_SYNC_DLY_DLY }

/-- The Meridian reaches the boundary (R29, R35, R39): at its first clock at or past the next multiple of 1,000 ns, and beyond it
by a forward step; a follower that is ahead begins its hold there. STEPPED sets. -/
def merBoundary (s : State) (h : Half) : State :=
  let target := (s.tn h + 1) * 1000 * nsU
  let r := s.mrd.get h
  let x := merCross r (s.mer h) target
  let m := x.1 + r.step.toNat
  let s := s.setMer h m
  let s := s.wr64 (MRD_TN_LO h) (m / nsU / 1000)
  let s := if r.step = 0 then s else s.fset (MRD_SYNC_STAT h) MRD_SYNC_STAT_STEPPED 1
  s.modMrd h fun r => { r with phaseErr := phaseDown r.phaseErr x.2, hold := (-r.step).toNat, step := 0 }

end Sys2Proof.Machine
end

