-- ==== Sys2Proof/Machine/CfgSpace.lean ====
section
/-! DEFINITION. The configuration space of the vPPBs (R4, R94, R196, R197, R212, R228) and their AER registers (R115): what the
spec states of it, at the places that PCI Express gives the registers. -/

namespace Sys2Proof.Machine

open Sys2Proof

/-- Something leaves the package.
[log 7, DESIGN CHOICE] -/
def State.emit (s : State) (x : Sent) : State := { s with sent := x :: s.sent }

/-- A number kept in a sparse table, 0 when not listed. -/
def nget (m : SMap Nat) (k : Nat) : Nat := mget (fun _ => 0) m k
def nset (m : SMap Nat) (k v : Nat) : SMap Nat := mset (fun _ => 0) m k v

/-- The key of vPPB v of tenant t, and a vPPB before anything is bound to it. -/
def vpKey (t v : Nat) : Nat := 32 * t + v
/-- A vPPB before anything is bound to it.
[log 116, DESIGN CHOICE] -/
def vpReset : Vp := ⟨false, false, false, false, false⟩
def State.vp (s : State) (t v : Nat) : Vp := (mfind s.mgt.vpp (vpKey t v)).getD vpReset
def State.setVp (s : State) (t v : Nat) (x : Vp) : State := s.modMgt fun m => { m with vpp := minsert m.vpp (vpKey t v) x }

/-- The words of the configuration space that a write or an error changes: Command, the bus numbers, Device Control and Status,
Slot Control, Power Management Control and Status, the AER Uncorrectable Error Status, Mask and Severity, the Header Log. -/
def cfgCMD : Nat := 0x04
def cfgBUS : Nat := 0x18
def cfgDEV : Nat := 0x48
def cfgSLOT : Nat := 0x58
def cfgPM : Nat := 0x94
def cfgAERSTS : Nat := 0x104
def cfgAERMSK : Nat := 0x108
def cfgAERSEV : Nat := 0x10C
def cfgAERHDR : Nat := 0x11C

/-- The stored word at `off` of vPPB v of tenant t; only the severity of errors does not reset to 0. -/
def cfgKey (t v off : Nat) : Nat := (t * 64 + v) * 1024 + off / 4 % 1024
/-- The reset value of a stored configuration register.
[log 57, PRESUMED] -/
def cfgDefault (k : Nat) : Nat := if k % 1024 = cfgAERSEV / 4 then 0x00462030 else 0
def cfgGet (s : State) (t v off : Nat) : Nat := mget cfgDefault s.mgt.cfg (cfgKey t v off)
def cfgPut (s : State) (t v off x : Nat) : State :=
  s.modMgt fun m => { m with cfg := mset cfgDefault m.cfg (cfgKey t v off) x }

/-- AER kinds: Completion Timeout, Uncorrectable Internal Error, ACS Violation, Unsupported Request, Unexpected
Completion, IDE Check Failed. -/
def aerCTO : Nat := 1
def aerUIE : Nat := 2
def aerACS : Nat := 3
def aerUR : Nat := 4
def aerUNEXP : Nat := 5
def aerIDE : Nat := 6

/-- The bit of each kind in the Uncorrectable Error registers.
[log 57, PRESUMED] -/
def aerBit (kind : Nat) : Nat :=
  match kind with
  | 1 => 14
  | 2 => 22
  | 3 => 21
  | 4 => 20
  | 5 => 16
  | _ => 28

/-- An error message to a tenant's host (R115): tenant, vPPB, message code. -/
def outERR : Nat := 40

/-- The code of an error message; `viral` stands for the Viral indication, which is no message code. -/
def errCor : Nat := 0x30
def errNonfatal : Nat := 0x31
def errFatal : Nat := 0x33
/-- The Viral indication of a device.
[log 115, DEDUCED] -/
def errViral : Nat := 0x100

/-- Put the words of a header into the Header Log.
[log 57, PRESUMED] -/
def aerHeader (s : State) (t v : Nat) (hdr : List Nat) : State :=
  (hdr.zip (List.range 4)).foldl (fun s e => cfgPut s t v (cfgAERHDR + 4 * e.2) (e.1 % 2 ^ 32)) s

/-- Log an error at vPPB v of tenant t (R115); 32 is the upstream vPPB. Its status bit is set, the header log takes the request
when it holds none, and the host is told as its mask, its severity and its reporting bits say. -/
def aerLog (s : State) (t v kind : Nat) (hdr : List Nat) : State :=
  let b := aerBit kind
  let st := cfgGet s t v cfgAERSTS
  let masked := bitB (cfgGet s t v cfgAERMSK) b
  let fatal := bitB (cfgGet s t v cfgAERSEV) b
  let s := s.emit (.aer t v kind hdr)
  let s := if st = 0 ∧ masked = false then aerHeader s t v hdr else s
  let s := cfgPut s t v cfgAERSTS (st ||| 2 ^ b)
  let s := cfgPut s t v cfgDEV (cfgGet s t v cfgDEV ||| (if fatal then 2 ^ 18 else 2 ^ 17) ||| (if kind = aerUR then 2 ^ 19 else 0))
  let told := bitB (cfgGet s t v cfgCMD) 8 || bitB (cfgGet s t v cfgDEV) (if fatal then 2 else 1)
  if told && !masked then s.emit (.out outERR [t, v, if fatal then errFatal else errNonfatal]) else s

/-- What the vPPB at v is: the upstream vPPB U (32), D0 before the Service Function, or a downstream vPPB. -/
def cfgType (v : Nat) : Nat := if v = 32 then 5 else 6

/-- What the spec states of the register at `off`, as fields (high bit, low bit, value): the identity (R4), header Type 1 and
Device/Port Type (R196), ARI Forwarding of D0 (R342), the L1 exit latency of 4 µs (R94), the slot's capabilities and states (R197, R212), and what a host
has written; from 0x1000 the component registers, of which the BI Route Table and the BI decoder, with BI forwarding on, are
stated (R228).
[log 12, DESIGN CHOICE; log 57, PRESUMED] -/
def cfgFields (s : State) (t v off : Nat) : List (Nat × Nat × Nat) :=
  let x := s.vp t v
  let hp := decide (1 ≤ v) && decide (v < 32)
  match off / 4 with
  | 0 => [(31, 0, 0x5120CAE5)]
  | 1 => [(15, 0, cfgGet s t v off), (20, 20, 1)]
  | 2 => [(7, 0, 1), (31, 8, 0x060400)]
  | 3 => [(22, 16, 1)]
  | 6 => [(23, 0, cfgGet s t v off)]
  | 13 => [(7, 0, 0x40)]
  | 36 => [(15, 0, 1)]
  | 37 => [(8, 8, cfgGet s t v off / 2 ^ 8), (15, 15, cfgGet s t v off / 2 ^ 15)]
  | 16 => [(15, 0, 0x9010), (23, 20, cfgType v), (24, 24, (decide (v < 32)).toNat)]
  | 18 => [(19, 0, cfgGet s t v off)]
  | 19 => if v = 32 then [(17, 15, 3)] else [(17, 15, 3), (20, 20, 1)]
  | 25 => if v = 0 then [(5, 5, 1)] else []
  | 20 => if hp then [(29, 29, x.dlla.toNat)] else []
  | 21 => if hp then [(0, 0, 0), (1, 1, 1), (4, 2, 0), (6, 5, 3), (17, 17, 0), (18, 18, 1)] else if v = 0 then [(6, 5, 0)] else []
  | 22 => if hp then [(9, 0, cfgGet s t v off % 1024), (10, 10, x.off.toNat), (12, 11, cfgGet s t v off / 2048), (19, 19, x.pdc.toNat),
      (22, 22, x.pds.toNat), (24, 24, x.dllsc.toNat)] else []
  | 64 => [(15, 0, 1)]
  | 65 => [(31, 0, cfgGet s t v off)]
  | 66 => [(31, 0, cfgGet s t v off)]
  | 67 => [(31, 0, cfgGet s t v off)]
  | 71 => [(31, 0, cfgGet s t v off)]
  | 72 => [(31, 0, cfgGet s t v off)]
  | 73 => [(31, 0, cfgGet s t v off)]
  | 74 => [(31, 0, cfgGet s t v off)]
  | 1024 => [(15, 0, 1), (31, 24, 2)]
  | 1025 => [(15, 0, 0x0B), (31, 20, 0x20)]
  | 1026 => [(15, 0, 0x0C), (31, 20, 0x40)]
  | 1041 => [(0, 0, 1)]
  | _ => []

/-- Put a field's value into a word. -/
def cfgIns (w : Nat) (f : Nat × Nat × Nat) : Nat :=
  w - bits w f.1 f.2.1 * 2 ^ f.2.1 + f.2.2 % 2 ^ (f.1 + 1 - f.2.1) * 2 ^ f.2.1

/-- A register as it is read: the stated fields over a free value for what the standards put in the rest.
[log 55, DESIGN CHOICE] -/
def cfgOver (l : List (Nat × Nat × Nat)) (s : State) : Nat × State :=
  let r := s.draw
  (l.foldl cfgIns (r.1 % 2 ^ 32), r.2)
def cfgRead (s : State) (t v off : Nat) : Nat × State := cfgOver (cfgFields s t v off) s

/-- A host's write of a configuration register of a vPPB: control fields take the value, status bits written 1 clear. Power
Controller Control is a command of its own (HOST_POWER_CONTROL_WRITE).
[log 57, PRESUMED] -/
def cfgWrite (s : State) (t v off x : Nat) : State :=
  match off / 4 with
  | 1 => cfgPut s t v off (x &&& 0x0547)
  | 6 => cfgPut s t v off (x % 2 ^ 24)
  | 18 => cfgPut s t v off ((x % 2 ^ 16) ||| (cfgGet s t v off &&& (0xF0000 - (x &&& 0xF0000))))
  | 22 =>
    let p := s.vp t v
    if 1 ≤ v ∧ v < 32 then
      (cfgPut s t v off (x &&& 0x1BFF)).setVp t v { p with pdc := p.pdc && !bitB x 19, dllsc := p.dllsc && !bitB x 24 }
    else s
  | 37 => cfgPut s t v off ((x &&& 0x100) ||| (cfgGet s t v off &&& (0x8000 - (x &&& 0x8000))))
  | 65 => cfgPut s t v off (cfgGet s t v off &&& (2 ^ 32 - 1 - x % 2 ^ 32))
  | 66 => cfgPut s t v off (x % 2 ^ 32)
  | 67 => cfgPut s t v off (x % 2 ^ 32)
  | _ => s

end Sys2Proof.Machine
end

