-- ==== Sys2Proof/Machine/QosBase.lean ====
section
/-! DEFINITION. Traffic classes, shapers and gates as the switch core asks for them (R319-R333). -/

namespace Sys2Proof.Machine

open Sys2Proof

/-- Apply a change to the QOS unit of half `h`. -/
def State.modQos (s : State) (h : Half) (f : Qos → Qos) : State := { s with qos := s.qos.set h (f (s.qos.get h)) }

/-- The TC words that tenant t holds since its last USP binding was applied; the Reset values before the
first (R320). -/
def heldTc (s : State) (t : Nat) : Nat × Nat := (mfind (s.qos.get (tenantHalf t)).tenTc t).getD (0, 0xFAC688)

/-- A USP binding of t is applied: QOS_TEN_TC and QOS_TEN_IOMAP are read (R320). -/
def holdTc (s : State) (t : Nat) : State :=
  let h := tenantHalf t
  let v := ((s.rd (QOS_TEN_TC h (t % 32))).toNat, (s.rd (QOS_TEN_IOMAP h (t % 32))).toNat)
  s.modQos h fun q => { q with tenTc := minsert q.tenTc t v }

/-- The kinds of link message: CXL.io, CXL.cache, MCTP; CXL.mem otherwise. -/
def opIsIo : Op → Bool
  | .mWr | .msg | .mRd | .atomic | .cfgRd | .cfgWr | .cpl => true
  | _ => false
def opIsCache : Op → Bool
  | .d2hReq | .d2hRsp | .d2hData | .h2dReq | .h2dRsp | .h2dData => true
  | _ => false

/-- The TC of a message of tenant t (R319): CXL.io through the tenant's map, CXL.cache, CXL.mem, MG 7. -/
def tcOf (s : State) (t : Nat) (op : Op) (tlpTc : Nat) : Nat :=
  let w := heldTc s t
  if op = .mctp then 7
  else if opIsIo op then w.2 >>> (3 * (tlpTc % 8)) % 8
  else if opIsCache op then bits w.1 6 4
  else bits w.1 2 0

/-- The TC of Service Function DMA and of Pass datagrams of tenant t, of Catalogue and of Stacker traffic. -/
def tcSf (s : State) (t : Nat) : Nat := bits (heldTc s t).1 10 8
def tcPass (s : State) (t : Nat) : Nat := bits (heldTc s t).1 14 12
def tcCat (s : State) (h : Half) : Nat := s.fget (QOS_INT_TC h) QOS_INT_TC_SNP_TC
def tcStk (s : State) (h : Half) : Nat := s.fget (QOS_INT_TC h) QOS_INT_TC_STK_TC

/-- The shaper row in force (QOS_SHP_LIVE). -/
def shpWord (s : State) (h : Half) (n k : Nat) : Nat := (s.rd (QOS_SHP_LIVE h n k)).toNat

/-- Does shaper n govern TC t toward destination d (R325)? -/
def shpGoverns (s : State) (h : Half) (n d t : Nat) : Bool :=
  let w := shpWord s h n 0
  bitB w 31 && bits w 5 0 == d && bitB (bits w 23 16) t

/-- The lowest-numbered enabled shaper that governs TC t toward destination d (R325). -/
def governing (s : State) (h : Half) (d t : Nat) : Option Nat :=
  (List.range 256).find? fun n => shpGoverns s h n d t

/-- Tokens of a shaper in units of 2^-16 bytes. -/
def tokens (s : State) (h : Half) (n : Nat) : Int := mget (fun _ => 0) (s.qos.get h).tokens n

/-- The two's complement word of a number. -/
def wordOfInt (v : Int) : Word := BitVec.ofInt 32 v

/-- Put a shaper's tokens; QOS_SHP_TOK shows them in whole bytes toward minus infinity. -/
def setTokens (s : State) (h : Half) (n : Nat) (v : Int) : State :=
  (s.modQos h fun q => { q with tokens := mset (fun _ => 0) q.tokens n v }).wr (QOS_SHP_TOK h n) (wordOfInt (v / 65536))

/-- Deduct bytes from the governing shaper; TOKENS saturates at -16,777,216 bytes (R325, R326). -/
def deduct (s : State) (h : Half) (d t bytes : Nat) : State :=
  match governing s h d t with
  | none => s
  | some n => setTokens s h n (max (tokens s h n - bytes * 65536) (-16777216 * 65536))

/-- A request class is eligible while its governing shaper has tokens (R325). -/
def shaperOpen (s : State) (h : Half) (d t : Nat) : Bool :=
  match governing s h d t with
  | none => true
  | some n => decide (0 < tokens s h n)

/-- The cycle of a list: the sum of its intervals (spec 11). -/
def ephCycle (l : EphList) : Nat := (l.entries.map fun e => e % 2 ^ 24).sum

/-- The phase of a list at Meridian time m (R332). -/
def ephPhase (l : EphList) (m : Nat) : Nat := (((m : Int) - l.base) % (ephCycle l : Int)).toNat

/-- Where entry i's span begins. -/
def ephStart (l : EphList) (i : Nat) : Nat := ((l.entries.take i).map fun e => e % 2 ^ 24).sum

/-- The entry whose span holds phase ph (R332). -/
def ephIndex (es : List Nat) (ph : Nat) : Nat :=
  match es with
  | [] => 0
  | e :: r => if ph < e % 2 ^ 24 then 0 else ephIndex r (ph - e % 2 ^ 24) + 1

/-- What is left of the span of the entry in force at phase ph. -/
def ephLeft (l : EphList) (ph : Nat) : Nat :=
  let a := ephStart l l.cur
  let b := a + l.entries.getD l.cur 0 % 2 ^ 24
  if a ≤ ph ∧ ph < b then b - ph else 0

/-- How long gate t stays open through the entries that follow, up to `need`. -/
def openFor (es : List Nat) (t need : Nat) : Bool :=
  match es with
  | [] => need == 0
  | e :: r => need == 0 || (bitB e (24 + t) && openFor r t (need - e % 2 ^ 24))

/-- Entries enough to cover GUARD after the one in force, across the wrap: the list repeated. -/
def ephAhead (l : EphList) : List Nat :=
  l.entries.drop (l.cur + 1) ++ (List.replicate (l.guard / max 1 (ephCycle l) + 2) l.entries).flatten

/-- Is gate t of port p open, and will it stay open for at least GUARD ns (R332, R333)? A list of no entries, or none,
has every gate open. -/
def gateOpen (s : State) (p t : Nat) : Bool :=
  let h := portHalf p
  match mfind (s.qos.get h).active p with
  | none => true
  | some l =>
    if l.entries = [] ∨ ephCycle l = 0 then true
    else
      bitB (l.entries.getD l.cur 0) (24 + t)
        && openFor (ephAhead l) t (l.guard - ephLeft l (ephPhase l (s.now h)))

/-- Is Rotation requester r of half h fenced (R340, R416)? -/
def rotFenced (s : State) (h : Half) (r : Nat) : Bool := bitB (s.fget (QOS_ROT_STAT h) QOS_ROT_STAT_FENCED) r

end Sys2Proof.Machine
end

