-- ==== Sys2Proof/Machine/UmpBase.lean ====
section
/-! DEFINITION. The Umpire's generations (R307-R313): which are older, how many accesses are in flight under
each, and the freeze of the staged page. -/

namespace Sys2Proof.Machine

open Sys2Proof

/-- Generation g is older than generation n when (n - g) mod 2^16 lies in 1-32,767 (R307). -/
def olderGen (g n : Nat) : Bool :=
  let d := (n + 2 ^ 16 - g % 2 ^ 16) % 2 ^ 16
  decide (1 ≤ d) && decide (d ≤ 32767)

/-- Is an access of a generation older than n in flight in half h (R313)? -/
def inFlightOlder (s : State) (h : Half) (n : Nat) : Bool :=
  (s.ump.get h).inflight.any fun e => decide (0 < e.2) && olderGen e.1 n

/-- The oldest generation of half h with an access in flight, GEN when there is none (R312). -/
def oldestGen (s : State) (h : Half) : Nat :=
  (s.ump.get h).inflight.foldl (fun m e => if 0 < e.2 ∧ olderGen e.1 m then e.1 else m) (s.gen h)

/-- UMP_LIVE follows the counts (R312). -/
def setLive (s : State) (h : Half) : State := s.fset (UMP_LIVE h) UMP_LIVE_OLDEST (oldestGen s h)

/-- An access checked under generation g begins its flight, or ends it (R312). -/
def flightBegin (s : State) (h : Half) (g : Nat) : State :=
  setLive (s.modUmp h fun u => { u with inflight := mset (fun _ => 0) u.inflight g (mget (fun _ => 0) u.inflight g + 1) }) h
def flightEnd (s : State) (h : Half) (g : Nat) : State :=
  setLive (s.modUmp h fun u => { u with inflight := mset (fun _ => 0) u.inflight g (mget (fun _ => 0) u.inflight g - 1) }) h

/-- STG_BUSY of a copy follows its freezes and its copy (R310). -/
def setBusy (s : State) (h : Half) : State :=
  let u := s.ump.get h
  s.fsetB (UMP_STAT h) UMP_STAT_STG_BUSY (u.freezeE || u.freezeW || u.copying)

/-- Set or clear, in one copy, the freeze of half b's BIND (R310). -/
def setFreeze (s : State) (h b : Half) (v : Bool) : State :=
  setBusy (s.modUmp h fun u => if b = .east then { u with freezeE := v } else { u with freezeW := v }) h

/-- A BIND of half b that names UMP_GSTAGE freezes the staged page, in both copies while the bridge carries
the commit (R310, R314). -/
def freezePage (s : State) (b : Half) : State :=
  let s := setFreeze s b b true
  if s.carries then setFreeze s b.other b true else s

/-- The freeze of half b's BIND ends (R310). -/
def unfreezePage (s : State) (b : Half) : State := setFreeze (setFreeze s .east b false) .west b false

/-- FENCE's answer: no access of a generation older than n in flight in either half, the other half by its
last report; the local half alone while the bridge is not UP (R313). -/
def fenceZ (s : State) (h : Half) (n : Nat) : Bool :=
  !inFlightOlder s h n && (decide (s.phase h ≠ phUP) || !olderGen (s.ump.get h).otherOldest n)

end Sys2Proof.Machine
end

