-- ==== Sys2Proof/Machine/Net.lean ====
section
/-! DEFINITION. Messages and cells (spec 04, 05): where a message is bound, its class and slots (R131-R137), the
forming of cells at an ingress station, synthetic error completions (R114), and tag entries (R104-R107). -/

namespace Sys2Proof.Machine

open Sys2Proof

/-- Apply a change to the switch core or the bridge end of half `h`, or to the message tables. -/
def State.modCore (s : State) (h : Half) (f : Core → Core) : State := { s with core := s.core.set h (f (s.core.get h)) }
/-- Apply a change to the Catalogue of half `h`. -/
def State.modCat (s : State) (h : Half) (f : Cat → Cat) : State := { s with cat := s.cat.set h (f (s.cat.get h)) }

def State.modCdb (s : State) (h : Half) (f : Cdb → Cdb) : State := { s with cdb := s.cdb.set h (f (s.cdb.get h)) }
def State.modNet (s : State) (f : Net → Net) : State := { s with net := f s.net }

/-- A sub-port that has never trained. -/
def subReset : Sub :=
  ⟨false, 0, false, none, false, false, false, false, 0, none, [], [], false, none, 0, false, 0, 0, none, false, false, [], [],
    none, none⟩

/-- The node of sub-port Pp.s, and of station k of half h. -/
def subNode (p s : Nat) : Nat := 4 * p + s
def unitNode (h : Half) (k : Nat) : Nat := 128 + 32 * h.idx + k

/-- The sub-port and LD of a MEM target index (R298). -/
def memSub (idx : Nat) : Nat := 4 * bits idx 11 7 + bits idx 6 5
def memLd (idx : Nat) : Nat := bits idx 4 1

/-- The half and the station of a node (R17). -/
def nodeHalf (n : Nat) : Half := if n < 128 then portHalf (n / 4) else halfOf ((n - 128) / 32)
def nodeStation (n : Nat) : Nat := if n < 128 then n / 4 % 16 else (n - 128) % 32

/-- Sub-port d's engine state. -/
def State.sub (s : State) (d : Nat) : Sub := (mfind s.subs d).getD subReset
def State.modSub (s : State) (d : Nat) (f : Sub → Sub) : State := { s with subs := minsert s.subs d (f (s.sub d)) }

/-- Is the device split as half h sees it (R182, R191)? From the split until UP. -/
def isSplit (s : State) (h : Half) : Bool := s.phase h != phUP && s.phase h != phRETRAIN

/-- The destination index by which half h queues a message for node n: its sub-ports 0-63, its stations 64-79,
and the wire-group station of R18 for a node of the other half (spec 05). -/
def destIn (h : Half) (n : Nat) : Nat :=
  if nodeHalf n = h then (if n < 128 then n % 64 else 64 + (nodeStation n - 16)) else 64 + nodeStation n % 8

/-- The node of destination d of half h. -/
def destNode (h : Half) (d : Nat) : Nat := if d < 64 then 64 * h.idx + d else unitNode h (d - 48)

/-- The egress station of a destination. -/
def destStation (d : Nat) : Nat := if d < 64 then d / 4 else d - 48

/-- Is node n a Stacker ingest lane (R17)? -/
def isStkNode (n : Nat) : Bool := decide (128 ≤ n) && decide (24 ≤ nodeStation n) && decide (nodeStation n ≤ 27)

/-- The cell class of a message (R135): 0 PW, 1 NP, 2 CP, 3 MQ, 4 MS, 5 SN, 6 SR, 7 ST, 8 MG. -/
def opClass : Op → Nat
  | .mWr | .msg => 0
  | .mRd | .atomic | .cfgRd | .cfgWr => 1
  | .cpl => 2
  | .memRd | .memRdData | .memInv | .memSpecRd | .memClnEvct | .memWr | .memWrPtl | .d2hReq => 3
  | .ndr | .drs | .h2dRsp | .h2dData | .d2hData => 4
  | .biSnp | .h2dReq => 5
  | .biRsp | .d2hRsp => 6
  | .mctp => 8
def clsOf (m : Msg) : Nat := if isStkNode m.dst then 7 else opClass m.op

/-- The Coudé VC of a class (R135). -/
def vcOf (c : Nat) : Nat := if c ≤ 1 then c else c - 1

/-- Protected classes CP, MS, SN, SR, MG (R135). -/
def protectedCls (c : Nat) : Bool := c == 2 || c == 4 || c == 5 || c == 6 || c == 8

/-- Does a message carry data, and in which form (R132)? -/
def opHasLine : Op → Bool
  | .drs | .memWr | .memWrPtl | .d2hData | .h2dData => true
  | _ => false

/-- Payload slots of a message (R132): one for the header, two with prefixes; four for a line; CXL.io payload in
16-byte slots. -/
def msgSlots (op : Op) (len : Nat) (two : Bool) : Nat :=
  (if two then 2 else 1) + (if opHasLine op then 4
    else if op = .mWr ∨ op = .cpl ∨ op = .msg ∨ op = .atomic ∨ op = .cfgWr ∨ op = .mctp then (len + 15) / 16 else 0)

/-- Non-posted requests: those that take a tag (R104). -/
def nonPosted : Op → Bool
  | .mRd | .atomic | .cfgRd | .cfgWr => true
  | .memRd | .memRdData | .memInv | .memSpecRd | .memClnEvct | .memWr | .memWrPtl => true
  | .d2hReq | .h2dReq | .biSnp => true
  | _ => false

/-- Does the standard give the request a response? MemSpecRd has none: its entry is free again as soon as it is taken (R116).
[log 135, DEDUCED] -/
def awaits (op : Op) : Bool := nonPosted op && op != .memSpecRd

/-- Responses and snoop responses. -/
def isRsp : Op → Bool
  | .cpl | .ndr | .drs | .h2dRsp | .h2dData | .d2hRsp | .d2hData | .biRsp => true
  | _ => false

/-- The memory writes. -/
def opWrites (op : Op) : Bool := op == .mWr || op == .memWr || op == .memWrPtl

/-- The band of a TC in half h: High when its bit of CORE_BAND.HIGH is 1 (R136). -/
def bandOf (s : State) (h : Half) (tc : Nat) : Nat := (bitB (s.fget (CORE_BAND h) CORE_BAND_HIGH) tc).toNat

/-- The key of a VOQ (R137): ingress station, destination, class, band. -/
def voqKey (st d c b : Nat) : Nat := ((st * 80 + d) * 9 + c) * 2 + b
def keyBand (k : Nat) : Nat := k % 2
def keyCls (k : Nat) : Nat := k / 2 % 9
def keyDest (k : Nat) : Nat := k / 18 % 80
def keyStation (k : Nat) : Nat := k / 1440

/-- The VOQ key under which half h queues message m that enters at station st. -/
def msgKey (s : State) (h : Half) (st : Nat) (m : Msg) : Nat := voqKey st (destIn h m.dst) (clsOf m) (bandOf s h m.tc)

/-- An empty VOQ. -/
def voqReset : Voq := ⟨[], [], [], false⟩
def Core.voq (c : Core) (k : Nat) : Voq := (mfind c.voqs k).getD voqReset
def Core.setVoq (c : Core) (k : Nat) (v : Voq) : Core := { c with voqs := mset (fun _ => voqReset) c.voqs k v }

/-- A list kept in a sparse table; the empty list is not listed. -/
def lget {α : Type} (m : SMap (List α)) (k : Nat) : List α := (mfind m k).getD []
def lset {α : Type} (m : SMap (List α)) (k : Nat) (l : List α) : SMap (List α) :=
  match l with
  | [] => merase m k
  | a :: r => minsert m k (a :: r)

/-- Message n. -/
def State.msg (s : State) (n : Nat) : Option Msg := mfind s.net.msgs n

/-- Enter a message into the tables. -/
def newMsg (s : State) (m : Msg) : Nat × State :=
  (s.net.next, s.modNet fun n => { n with msgs := minsert n.msgs n.next m, next := n.next + 1 })

/-- Take a message out of the tables. -/
def dropMsg (s : State) (n : Nat) : State := s.modNet fun x => { x with msgs := merase x.msgs n }

/-- The cells of a message of `slots` slots: full cells of eight slots, the last with the rest (R131). -/
def cellsOf (n slots flit : Nat) : List Cell :=
  (List.range ((slots + 7) / 8)).map fun i =>
    ⟨[n], min 8 (slots - 8 * i), decide ((slots + 7) / 8 = i + 1), flit, false, .none⟩

/-- The tenant of a cell's messages (R131). -/
def cellTenant (s : State) (c : Cell) : Option Nat := (c.msgs.head?.bind fun n => s.msg n).map fun m => m.tenant

/-- May message n of tenant t and VOQ k join cell c (R132)? It comes from the same flit, shares destination, class, band and
tenant, and fits. -/
def mayPack (s : State) (e : Nat × Cell) (k t slots flit : Nat) : Bool :=
  e.1 == k && e.2.flit == flit && e.2.last && cellTenant s e.2 == some t && decide (e.2.slots + slots ≤ 8)

/-- Pack a message into the last formed cell it may join; else append its cells (R132). -/
def packInto (s : State) (l : List (Nat × Cell)) (k n t slots flit : Nat) (pack : Bool) : List (Nat × Cell) :=
  match l.reverse with
  | e :: r =>
    if pack && mayPack s e k t slots flit then
      ((e.1, { e.2 with msgs := e.2.msgs ++ [n], slots := e.2.slots + slots }) :: r).reverse
    else l ++ (cellsOf n slots flit).map fun c => (k, c)
  | [] => (cellsOf n slots flit).map fun c => (k, c)

/-- Form a message's cells at station st of half h: they wait there for their arrival (R132, R133). -/
def formCells (s : State) (h : Half) (st n flit : Nat) (pack : Bool) : State :=
  match s.msg n with
  | none => s
  | some m =>
    let k := msgKey s h st m
    s.modCore h fun c => { c with formed := lset c.formed st (packInto s (lget c.formed st) k n m.tenant m.slots flit pack) }

/-- A message that starts at a station: it is entered and its cells are formed. A multicast message joins the
station's multicast queue of its band (R159). -/
def originate (s : State) (h : Half) (st : Nat) (m : Msg) : State :=
  let r := newMsg s m
  formCells r.2 h st r.1 0 false

/-- A message with nothing set but its kind, target and place. -/
def blankMsg (op : Op) (src dst tag tenant tc : Nat) : Msg :=
  ⟨op, src, tag, tenant, 0, ⟨0, 0, 0⟩, 0, 0, false, false, .noop, .none, tc, 0, msgSlots op 64 false, dst, [], none, 0,
   op == .cfgRd || op == .cfgWr, true, false, none, false, false⟩

/-- Kinds of response: data or completion, Completer Abort, Unsupported Request, poisoned all ones, Cmp,
GO-Err, BIRsp-I, and one whose form the spec leaves open. -/
def rkOK : Nat := 0
def rkCA : Nat := 1
def rkUR : Nat := 2
def rkPOISON : Nat := 3
def rkCMP : Nat := 4
def rkGOERR : Nat := 5
def rkBIRSPI : Nat := 6

/-- All ones in a line of 64 bytes. -/
def allOnes : Nat := 2 ^ 512 - 1

/-- The response that answers a request first (R103, R114). The spec names none for an H2D Req; MemSpecRd is answered by an NDR
where R103 asks for a completion. -/
def rspOp : Op → Op
  | .memRd | .memRdData => .drs
  | .memInv | .memClnEvct | .memWr | .memWrPtl | .memSpecRd => .ndr
  | .d2hReq => .h2dRsp
  | .biSnp => .biRsp
  | .h2dReq => .d2hRsp
  | _ => .cpl

/-- The synthetic error completion of a request (R114): each response with its kind. MemSpecRd needs none, a MemRd that asks
for coherence needs an NDR beside its DRS. The spec names no form for an H2D Req: a D2H Rsp whose kind is a free value.
[log 63, DESIGN CHOICE; log 135, DEDUCED] -/
def synthOf (m : Msg) : List (Op × Nat) :=
  match m.op with
  | .mRd | .atomic | .cfgRd | .cfgWr => [(.cpl, rkCA)]
  | .memRd => if m.snp = .none then [(.drs, rkPOISON)] else [(.ndr, rkCMP), (.drs, rkPOISON)]
  | .memRdData => [(.drs, rkPOISON)]
  | .memInv | .memClnEvct | .memWr | .memWrPtl => [(.ndr, rkCMP)]
  | .d2hReq => if m.len = 0 then [(.h2dRsp, rkGOERR)] else [(.h2dRsp, rkGOERR), (.h2dData, rkOK)]
  | .biSnp => [(.biRsp, rkBIRSPI)]
  | .h2dReq => [(.d2hRsp, Config.unstated 0)]
  | _ => []

/-- How R115 logs a request that ended: a lost write as an Uncorrectable Internal Error, anything read as a
Completion Timeout.
[log 62, DEDUCED] -/
def aerOf : Op → Nat
  | .memWr | .memWrPtl | .mWr | .cfgWr | .memInv | .memClnEvct => aerUIE
  | _ => aerCTO

/-- The request as the header log holds it (R115): operation and length, tag, address.
[log 57, PRESUMED] -/
def hdrOf (op : Op) (tag addr len : Nat) : List Nat := [op.ctorIdx * 2 ^ 16 + len, tag, addr / 2 ^ 32, addr % 2 ^ 32]
def reqHdr (m : Msg) : List Nat := hdrOf m.op m.tag m.tgt.addr m.len

/-- Log the end of a message at a vPPB, with the request. -/
def aerMsg (s : State) (t v kind : Nat) (m : Msg) : State := aerLog s t v kind (reqHdr m)

/-- Is a tenant in reset (R218)? -/
def inReset (s : State) (t : Nat) : Bool := s.flag (SF_TEN_STAT t) SF_TEN_STAT_RST

/-- Is sub-port d, where a request of tenant t entered, no longer t's upstream sub-port? What is bound for it is discarded,
as during the reset that its unbinding caused (R218).
[log 70, DEDUCED] -/
def hostGone (s : State) (t d : Nat) : Bool :=
  s.fget (PRT_CFG (d / 4)) PRT_CFG_ROLE == 0 && decide (mfind (s.binds.get (nodeHalf d)).usp t ≠ some d)

/-- DevLoad level that Kezen holds for a node's sub-port (R127).
[log 137, DEDUCED] -/
def devLoadOf (s : State) (n : Nat) : Nat := if n < 128 then (s.sub n).level else 0

/-- The level of a request's egress sub-port (R114): that of the device whose memory or space it asks for, whether it goes
there itself or to the line's Catalogue.
[log 136, DEDUCED] -/
def levelOf (s : State) (m : Msg) : Nat := devLoadOf s (if m.tgt.kind ≤ 1 ∧ 128 ≤ m.dst then memSub m.tgt.idx else m.dst)

/-- Flits of 256 bytes that a message of some slots takes on the link: fifteen slots of sixteen bytes each (PRESUMED, the CXL
flit). -/
def flitsIn (slots : Nat) : Nat := (slots + 14) / 15

/-- What a message that leaves sub-port d takes there: its flits in the replay buffer (R123) and one of the partner's credits for
its class (R145).
[log 75, DESIGN CHOICE] -/
def linkTake (s : State) (d c n : Nat) : State :=
  s.modSub d fun x => { x with unacked := x.unacked + n, txCred := nset x.txCred c (nget x.txCred c - 1) }

/-- Return a credit of class c to the partner of sub-port d (R120).
[log 75, DESIGN CHOICE] -/
def creditBack (s : State) (d c : Nat) : State := s.modSub d fun x => { x with rxCred := nset x.rxCred c (nget x.rxCred c + 1) }

/-- A response that Kezen makes itself leaves toward sub-port d at once.
[log 75, DESIGN CHOICE] -/
def sendOwn (s : State) (d : Nat) (op : Op) (n : Nat) (x : Sent) : State := linkTake (s.emit x) d (opClass op) n

/-- The identifier that a response of Kezen's own carries: the LD-ID on CXL.mem, the completer on CXL.io, which is the tenant's
upstream vPPB (R114).
[log 136, DEDUCED] -/
def rspId (m : Msg) (op : Op) : Nat :=
  if op = .cpl then m.tenant * 64 + 32 else if op = .ndr ∨ op = .drs ∨ op = .biRsp then m.ld else 0

/-- A response of Kezen's own to request m under the requester's tag (R114); data goes with a DRS or H2D Data alone.
[log 136, DEDUCED] -/
def sendRsp (s : State) (m : Msg) (op : Op) (kind dl : Nat) : State :=
  sendOwn s m.src op (flitsIn (msgSlots op 0 false)) (.rsp m.src op m.tag kind (if op = .ndr ∨ op = .drs then dl else 0) .noop (rspId m op) m.len m.attr
    (if op = .drs ∨ op = .h2dData then allOnes else 0))

/-- A request or posted message as it leaves sub-port `d` under tag field `f` (R105). -/
def reqSent (d : Nat) (m : Msg) (f : Nat) : Sent := .req d m.op f m.ld m.tgt.addr m.len m.hold m.snp m.tc m.attr m.poison m.data

/-- The flight of a checked access ends in the half that checked it (R312): its requester's, which a response is bound for. -/
def endFlight (s : State) (m : Msg) : State :=
  if m.checked && (!isRsp m.op || m.final) then flightEnd s (nodeHalf (if isRsp m.op then m.dst else m.src)) m.gen else s

/-- A request ends with the synthetic error completion of R114, sent at once unless its tenant is in reset
(R218); an answerless BISnp also sets Viral when `viral` says so. -/
def synthEnd (s : State) (m : Msg) (dl : Nat) : State :=
  endFlight (if 128 ≤ m.src ∨ inReset s m.tenant = true ∨ hostGone s m.tenant m.src = true then s
    else (synthOf m).foldl (fun s e => sendRsp s m e.1 e.2 dl) s) m

/-- A request that Kezen ends is reported at its requester's upstream vPPB (R115).
[log 62, DEDUCED; log 115, DEDUCED] -/
def synthReport (s : State) (m : Msg) (dl : Nat) : State :=
  if m.src < 128 then aerMsg (synthEnd s m dl) m.tenant 32 (aerOf m.op) m else synthEnd s m dl

/-- The sub-ports of a port in its mode (R70): mode 3 counts as 0. -/
def subsOf (s : State) (p : Nat) : List Nat :=
  match s.fget (PRT_CFG p) PRT_CFG_MODE with
  | 1 => [0, 2]
  | 2 => [0, 1, 2, 3]
  | _ => [0]

/-- Does sub-port d exist in its port's mode? -/
def subExists (s : State) (d : Nat) : Bool := (subsOf s (d / 4)).contains (d % 4)

/-- PRT_LNK_STAT.PM codes. -/
def pmDOWN : Nat := 0
def pmTRAIN : Nat := 1
def pmL0 : Nat := 2
def pmL0P : Nat := 3
def pmL1 : Nat := 4
def pmRECOV : Nat := 5
def pmCOMPL : Nat := 6

/-- The link state of sub-port d. -/
def linkPm (s : State) (d : Nat) : Nat := s.fget (PRT_LNK_STAT (d / 4) (d % 4)) PRT_LNK_STAT_PM

/-- A sub-port in service: not in Detect or Disabled, its link has trained (R162). -/
def inService (s : State) (d : Nat) : Bool := decide (2 ≤ linkPm s d) && decide (linkPm s d ≤ 5)

/-- A sub-port that moves messages now: L0 or L0p. -/
def linkUp (s : State) (d : Nat) : Bool := linkPm s d == pmL0 || linkPm s d == pmL0P

/-- A partner that a sub-port with REQUIRED set may serve only once both streams are Secure (R125). -/
def ideOpen (s : State) (d : Nat) : Bool :=
  let a := PRT_IDE (d / 4) (d % 4)
  !s.flag a PRT_IDE_REQUIRED || (s.flag a PRT_IDE_MEM_SEC && s.flag a PRT_IDE_IO_SEC)

/-- What such a sub-port carries before then (R125): configuration requests and their completions, which bring the DOE mailbox
with SPDM and IDE_KM, and management messages. -/
def ideCarries (m : Msg) : Bool := m.cfg || m.op == .mctp

/-- The tag key of entry e of port p. -/
def tagKey (p e : Nat) : Nat := p * 8192 + e

/-- Entries of sub-port d in use, live and quarantined (PRT_TAG_STAT, R117). -/
def tagsUsed (s : State) (d : Nat) : Nat :=
  let a := PRT_TAG_STAT (d / 4) (d % 4)
  s.fget a PRT_TAG_STAT_LIVE + s.fget a PRT_TAG_STAT_QUAR

/-- A sub-port's reserve: RES in units of 32, at least 32 for one that exists (R106). -/
def tagRes (s : State) (d : Nat) : Nat :=
  max 32 (32 * bits (s.rd (PRT_TAG_RES (d / 4))).toNat (8 * (d % 4) + 7) (8 * (d % 4)))

/-- Entries that sub-port d may still take: its own reserve first, then the shared part (R106). -/
def tagAllowed (s : State) (used : Nat → Nat) (d : Nat) : Bool :=
  let ds := (subsOf s (d / 4)).map fun k => 4 * (d / 4) + k
  let total := (ds.map (tagRes s)).sum
  let excess := (ds.map fun e => used e - tagRes s e).sum
  decide (used d < tagRes s d) || decide (excess + total < 8192)

/-- Does a message take a port entry as it leaves (R104)? A non-posted request that Kezen forwards; Kezen's own take internal
tags. -/
def takesTag (m : Msg) : Bool := nonPosted m.op && decide (m.src < 128)

/-- Requests of a port granted to sub-port d that have not taken their entries yet. -/
def tagPend (s : State) (d : Nat) : Nat :=
  ((List.range 9).map fun c => ((lget (s.core.get (nodeHalf d)).egr (d % 64 * 9 + c)).filter fun e =>
    (s.msg e.1).any takesTag).length).sum

/-- The entries a kind of request may use: the first 4,096 alone for CXL.cache and BISnp (R105). -/
def tagRange (op : Op) : Nat := if opIsCache op || op == .biSnp then 4096 else 8192

/-- The first free entry of port p at or after e, among n.
[log 48, DESIGN CHOICE] -/
def freeEntry (s : State) (p n : Nat) : Nat → Nat → Option Nat
  | 0, _ => none
  | fuel + 1, e =>
    if (mfind s.net.tags (tagKey p (e % n))).isNone then some (e % n) else freeEntry s p n fuel (e + 1)

/-- Is there an entry for a request of sub-port d (R106, R107)? -/
def tagFree (s : State) (d : Nat) (op : Op) : Bool :=
  tagAllowed s (tagsUsed s) d && decide ((s.net.tags.filter fun e => decide (tagKey (d / 4) 0 ≤ e.1)
    && decide (e.1 < tagKey (d / 4) (tagRange op))).length < tagRange op)

/-- Is there one for a request that still waits for its grant, with n others of its cell (R107)? Those granted before it come
first. -/
def tagGrant (s : State) (d n : Nat) (op : Op) : Bool :=
  tagAllowed s (fun e => tagsUsed s e + tagPend s e + if e = d then n else 0) d
    && decide ((s.net.tags.filter fun e => decide (tagKey (d / 4) 0 ≤ e.1) && decide (e.1 < tagKey (d / 4) (tagRange op))).length
      + ((subsOf s (d / 4)).map fun k => tagPend s (4 * (d / 4) + k)).sum + n < tagRange op)

/-- The tag field that a request carries (R105): the generation counts the uses of its entry. -/
def tagField (op : Op) (gen e : Nat) : Nat :=
  if opIsIo op then gen % 2 * 8192 + e
  else if opIsCache op || op == .biSnp then e
  else gen % 4 * 8192 + e

/-- Timeouts in nanoseconds (R112). -/
def toNs (code : Nat) : Nat :=
  match code with
  | 0 => 64000
  | 1 => 128000
  | 2 => 256000
  | 3 => 1000000
  | 4 => 4000000
  | 5 => 16000000
  | 7 => 100000000
  | 8 => 250000000
  | 9 => 1000000000
  | 10 => 4000000000
  | 11 => 16000000000
  | 12 => 64000000000
  | _ => 50000000

/-- The timeout of a port entry when it is taken (R111). -/
def portTmo (s : State) (d : Nat) (op : Op) : Nat :=
  let a := PRT_CTO (d / 4) (d % 4)
  toNs (if opIsIo op then s.fget a PRT_CTO_IO else s.fget a PRT_CTO_MEM)

/-- The timeout of an internal entry of half h (R111). -/
def intTmo (s : State) (h : Half) (io : Bool) : Nat :=
  toNs (if io then s.fget (CORE_CTO_INT h) CORE_CTO_INT_IO else s.fget (CORE_CTO_INT h) CORE_CTO_INT_MEM)

/-- Change the live or quarantined count of a sub-port. -/
def tagStat (s : State) (d : Nat) (dl dq : Int) : State :=
  let a := PRT_TAG_STAT (d / 4) (d % 4)
  let s := s.fset a PRT_TAG_STAT_LIVE ((s.fget a PRT_TAG_STAT_LIVE : Int) + dl).toNat
  s.fset a PRT_TAG_STAT_QUAR ((s.fget a PRT_TAG_STAT_QUAR : Int) + dq).toNat

/-- Take an entry of port d / 4 for a request that leaves sub-port d: any free entry, as a free value, since
the spec does not say which (R105); its generation is the number of its earlier uses. One whose request has no response is free
again at once.
[log 48, DESIGN CHOICE; log 135, DEDUCED] -/
def takeTag (s : State) (d : Nat) (m : Msg) : Option (Nat × State) :=
  let r := s.draw
  match freeEntry s (d / 4) (tagRange m.op) (tagRange m.op) r.1 with
  | none => none
  | some e =>
    let k := tagKey (d / 4) e
    let g := nget s.net.uses k
    let s := r.2.modNet fun n =>
      { n with tags := if awaits m.op then minsert n.tags k ⟨m, d, r.2.now (nodeHalf d), portTmo r.2 d m.op, none, m.len, false⟩ else n.tags,
               uses := nset n.uses k (g + 1) }
    some (tagField m.op g e, if awaits m.op then tagStat s d 1 0 else s)

/-- An entry becomes free. -/
def freeTag (s : State) (k : Nat) : State :=
  match mfind s.net.tags k with
  | none => s
  | some e =>
    let s := s.modNet fun n => { n with tags := merase n.tags k }
    if e.quar.isNone then tagStat s e.sub (-1) 0 else tagStat s e.sub 0 (-1)

/-- The function that an internal entry belongs to. -/
def ownFn (o : IOwner) : Option Nat :=
  match o with
  | .sf f _ _ _ => some f
  | .image f _ => some f
  | .pass f _ => some f
  | _ => none

/-- The holder that a snoop's entry belongs to. -/
def ownHolder (o : IOwner) : Option Nat :=
  match o with
  | .snoop _ t => some t
  | _ => none

/-- May entry e be taken for `own` (R105)? It is free; on CXL.io no live entry of the same function shares its 14 bits; and
no live snoop to the same host shares its 12 bits. -/
def itagOk (s : State) (own : IOwner) (io : Bool) (e : Nat) : Bool :=
  (mfind s.net.itags e).isNone
    && (!io || (ownFn own).isNone || !(s.net.itags.any fun x => x.1 % 16384 == e % 16384 && ownFn x.2.own == ownFn own))
    && ((ownHolder own).isNone || !(s.net.itags.any fun x => x.1 % 4096 == e % 4096 && ownHolder x.2.own == ownHolder own))

/-- The first internal tag at or after e that may be taken.
[log 48, DESIGN CHOICE] -/
def freeItag (s : State) (own : IOwner) (io : Bool) : Nat → Nat → Option Nat
  | 0, _ => none
  | fuel + 1, e => if itagOk s own io (e % 32768) then some (e % 32768) else freeItag s own io fuel (e + 1)

/-- Take an internal tag (R23); `out`: the request leaves its egress now, and its timer starts.
[log 48, DESIGN CHOICE] -/
def takeItag (s : State) (h : Half) (own : IOwner) (t : Nat) (gen : Option Nat) (io out : Bool) : Option (Nat × State) :=
  let r := s.draw
  match freeItag s own io 32768 r.1 with
  | none => none
  | some e => some (e, r.2.modNet fun n =>
      { n with itags := minsert n.itags e ⟨out, own, h, t, gen, r.2.now h, intTmo r.2 h io, none, 128⟩ })

/-- An internal entry becomes free. -/
def freeItagEnt (s : State) (e : Nat) : State := s.modNet fun n => { n with itags := merase n.itags e }

end Sys2Proof.Machine
end

