-- ==== Sys2Proof/Machine/Court.lean ====
section
/-! DEFINITION. The switch core's commands (spec 05): admission to the Court buffer (R140-R143), held cells,
spill and return (R148-R154), push-out (R155-R158), multicast (R159-R161) and the Volley matchers
(R144-R147). -/

namespace Sys2Proof.Machine

open Sys2Proof

/-- Cells of a unit of CORE_POOL. -/
def poolUnit : Nat := 1024

/-- Sizes of the pools in cells (R140): the shared pool is what remains, less the banks retired beyond the spares. -/
def protSize (s : State) (h : Half) : Nat := poolUnit * s.fget (CORE_POOL h) CORE_POOL_PROT
def stageSize (s : State) (h : Half) : Nat := poolUnit * s.fget (CORE_POOL h) CORE_POOL_STAGE
def headSize (s : State) (h : Half) : Nat := poolUnit * s.fget (CORE_POOL h) CORE_POOL_PUSH
def guarSize (s : State) (h : Half) : Nat := poolUnit * s.fget (CORE_POOL h) CORE_POOL_GUAR
def sharedUnits (prot stage push guar lost : Nat) : Nat := 384 - prot - stage - push - 32 * guar - lost
def sharedSize (s : State) (h : Half) : Nat :=
  poolUnit * sharedUnits (s.fget (CORE_POOL h) CORE_POOL_PROT) (s.fget (CORE_POOL h) CORE_POOL_STAGE)
    (s.fget (CORE_POOL h) CORE_POOL_PUSH) (s.fget (CORE_POOL h) CORE_POOL_GUAR)
    (mget (fun _ => 0) (s.ref.get h).banksLost 1)

/-- The unicast cells in the Court buffer of a half, with their VOQ keys: on-chip segments with the returns in flight, which hold
their charge (R151), and spill queues. -/
def uniCells (c : Core) : List (Nat × Cell) :=
  (c.voqs.flatMap fun e => (e.2.chip ++ e.2.ret.flatten).map fun x => (e.1, x)) ++ (c.spill.flatMap fun e => e.2)

/-- Every cell in the Court buffer of a half; a multicast queue is keyed by its station and band. -/
def courtCells (c : Core) : List (Nat × Cell) :=
  uniCells c ++ (c.mcq.flatMap fun e => e.2.map fun x => (voqKey (e.1 / 2) 0 0 (e.1 % 2), x))

/-- Cells charged to a pool (R141). -/
def poolUsed (c : Core) (p : Pool) : Nat := ((courtCells c).filter fun e => e.2.pool = p).length

/-- The destinations of a multicast message in half h: its local nodes, and one wire-group station for the
remote ones, that of the first (R159). -/
def mcDests (h : Half) (m : Msg) : List Nat :=
  ((m.mc.filter fun n => nodeHalf n = h).map (destIn h))
    ++ (match m.mc.find? fun n => nodeHalf n ≠ h with
        | some n => [destIn h n]
        | none => [])

/-- The destinations of a multicast cell. -/
def cellDests (s : State) (h : Half) (c : Cell) : List Nat :=
  (c.msgs.filterMap fun n => s.msg n).flatMap fun m => mcDests h m

/-- "Shared used by d" (R141): every cell for destination d in the shared pool; a multicast cell counts for each of its
destinations.
[log 73, DEDUCED] -/
def sharedUsed (s : State) (h : Half) (d : Nat) : Nat :=
  let c := s.core.get h
  ((uniCells c).filter fun e => e.2.pool = .shared ∧ keyDest e.1 = d).length
    + ((c.mcq.flatMap fun e => e.2).filter fun x => x.pool = .shared ∧ (cellDests s h x).contains d).length

/-- Eight times alpha for a band (R141): alpha is 2^(x - 3), x above 6 treated as 6. -/
def alpha8 (s : State) (h : Half) (high : Bool) : Nat :=
  2 ^ min 6 (if high then s.fget (CORE_ALPHA h) CORE_ALPHA_HI else s.fget (CORE_ALPHA h) CORE_ALPHA_LO)

/-- The three cases of R141 that charge Court buffer space without moving anything else: the protected reserve,
the guarantee, the shared pool below the threshold of every destination in `ds`.
[log 73, DEDUCED] -/
def plainPool (s : State) (h : Half) (k : Nat) (ds : List Nat) (yellow : Bool) : Option Pool :=
  let c := s.core.get h
  let st := keyStation k
  let free := sharedSize s h - poolUsed c .shared
  if protectedCls (keyCls k) && decide (poolUsed c .prot < protSize s h) then some .prot
  else if poolUsed c (.guar st) < guarSize s h then some (.guar st)
  else if ds.all fun d => decide (sharedUsed s h d * 8 < alpha8 s h (keyBand k == 1 && !yellow) * free) then some .shared
  else none

/-- Pages of a VOQ's deep segment, and the limit of R152 (VOQ_MAX 0 treated as 1). -/
def voqPages (v : Voq) : Nat := v.deep.length + v.ret.length
def voqPageMax (s : State) (h : Half) : Nat := 256 * max 1 (s.fget (CORE_DF_CTL h) CORE_DF_CTL_VOQ_MAX)

/-- Pages of the Deep Field: 3,145,728, less those on pseudo-channels retired with no spare (R426). -/
def dfPages (s : State) (h : Half) : Nat := 3145728 - 196608 * ((s.ref.get h).hbmRetired.length - 1)
def dfUsed (s : State) (h : Half) : Nat := s.fget (CORE_DF_STAT h) CORE_DF_STAT_USED

/-- The Deep Field is ready (R153); it can take a spill while it is not full either (R152). -/
def dfReady (s : State) (h : Half) : Bool := s.flag (CORE_STAT h) CORE_STAT_DF_READY
def dfOpen (s : State) (h : Half) : Bool := dfReady s h && decide (dfUsed s h < dfPages s h)

/-- Room in spill staging. -/
def stageFree (s : State) (h : Half) : Bool := decide (poolUsed (s.core.get h) .stage < stageSize s h)

/-- A VOQ that may be a victim (R155): Low, of a class that may spill, with a message on chip, the newest of them whole, and no
return in flight.
[log 132, DESIGN CHOICE] -/
def mayBeVictim (k : Nat) (v : Voq) : Bool :=
  keyBand k == 0 && !protectedCls (keyCls k) && (v.chip.getLast?.any fun c => c.last) && v.ret.isEmpty

/-- Is VOQ j a better victim than VOQ i (R155)?
[log 132, DESIGN CHOICE] -/
def betterVictim (s : State) (h : Half) (i j : Nat) : Bool :=
  let a := sharedUsed s h (keyDest i)
  let b := sharedUsed s h (keyDest j)
  decide (a < b) || (a == b && (decide (keyDest j < keyDest i)
    || (keyDest j == keyDest i && decide (keyStation j < keyStation i))))

/-- The victim VOQ (R155). Of two that differ in class alone the rule does not say which: the first by key.
[log 132, DESIGN CHOICE] -/
def victimOf (s : State) (h : Half) : Option Nat :=
  (s.core.get h).voqs.foldl (fun b e =>
    if mayBeVictim e.1 e.2 then
      match b with
      | none => some e.1
      | some i => if betterVictim s h i e.1 then some e.1 else some i
    else b) none

/-- A spill that the full Deep Field stops sets DF_FULL and counts the episode (R152). -/
def dfFullMark (s : State) (h : Half) : State :=
  if dfReady s h && decide (dfPages s h ≤ dfUsed s h) && !s.flag (CORE_STAT h) CORE_STAT_DF_FULL
  then tallyRise ((s.fset (CORE_STAT h) CORE_STAT_DF_FULL 1).fbump (CORE_ERRCNT2 h) CORE_ERRCNT2_DFFULL_CNT 1) h 2 4 0
  else s

/-- The number of VOQs now spilled follows the queues (CORE_STAT.SPILLED). -/
def spilledStat (s : State) (h : Half) : State :=
  s.fset (CORE_STAT h) CORE_STAT_SPILLED (((s.core.get h).voqs.filter fun e => e.2.spilled).length)

/-- Change a VOQ. -/
def modVoq (s : State) (h : Half) (k : Nat) (f : Voq → Voq) : State :=
  spilledStat (s.modCore h fun c => c.setVoq k (f (c.voq k))) h

/-- Append a cell to its station's spill queue (R150). -/
def spillPush (s : State) (h : Half) (k : Nat) (c : Cell) : State :=
  s.modCore h fun x => { x with spill := lset x.spill (keyStation k) (lget x.spill (keyStation k) ++ [(k, c)]) }

/-- The cells of the newest message of an on-chip segment, and what stays before them. -/
def newestOf (l : List Cell) : List Cell × List Cell :=
  match l.getLast? with
  | none => ([], [])
  | some c => (l.filter fun x => x.msgs = c.msgs, l.filter fun x => x.msgs ≠ c.msgs)

/-- Push out the newest message of VOQ v (R155, R156). -/
def pushOut (s : State) (h : Half) (v : Nat) : State :=
  let p := newestOf ((s.core.get h).voq v).chip
  let s := modVoq s h v fun q => { q with chip := p.2, spilled := true }
  let s := p.1.foldl (fun s c => spillPush s h v { c with po := true }) s
  tally s h 2 2 0 p.1.length

/-- A cell enters the on-chip segment of its VOQ. -/
def chipPush (s : State) (h : Half) (k : Nat) (c : Cell) (p : Pool) : State :=
  modVoq s h k fun q => { q with chip := q.chip ++ [{ c with pool := p }] }

/-- Is a message of the cell yellow (R328)? -/
def cellYellow (s : State) (c : Cell) : Bool :=
  c.msgs.any fun n => match s.msg n with
    | some m => m.yellow
    | none => false

/-- May an arrival push a Low cell out (R141, R155)? -/
def mayPush (s : State) (h : Half) (k : Nat) (yellow : Bool) : Bool :=
  keyBand k == 1 && !yellow && s.flag (CORE_CTL h) CORE_CTL_PUSH_EN && s.flag (CORE_CTL h) CORE_CTL_DF_EN
    && dfReady s h && decide (poolUsed (s.core.get h) .head < headSize s h)

/-- May an arrival for VOQ k go to spill staging (R141, R150, R152)? -/
def mayStage (s : State) (h : Half) (k : Nat) : Bool :=
  dfOpen s h && stageFree s h && decide (voqPages ((s.core.get h).voq k) < voqPageMax s h)

/-- A cell goes to spill staging; its VOQ is or becomes spilled. -/
def stageCell (s : State) (h : Half) (k : Nat) (c : Cell) : State :=
  modVoq (spillPush s h k { c with pool := .stage }) h k fun q => { q with spilled := true }

/-- Admit a cell by the first case of R141 that applies; none: it is held. -/
def admitCell (s : State) (h : Half) (k : Nat) (c : Cell) : Option State :=
  let y := cellYellow s c
  let victim := victimOf s h
  if ((s.core.get h).voq k).spilled then (if mayStage s h k then some (stageCell s h k c) else none)
  else match plainPool s h k [keyDest k] y with
    | some p => some (chipPush s h k c p)
    | none =>
      if mayPush s h k y ∧ victim.isSome then
        some (chipPush (pushOut s h (victim.getD 0)) h k c .head)
      else if !protectedCls (keyCls k) && s.flag (CORE_CTL h) CORE_CTL_DF_EN && mayStage s h k then
        some (stageCell s h k c)
      else none

/-- CORE_STAT.HOLDING follows the held cells (R142). -/
def holdStat (s : State) (h : Half) : State :=
  s.fsetB (CORE_STAT h) CORE_STAT_HOLDING (!(s.core.get h).held.isEmpty)

/-- The sub-port that a cell at a port station came from (R142); at any other station, all cells of a class come alike. -/
def cellSrc (s : State) (st : Nat) (c : Cell) : Nat :=
  if st < 16 then ((c.msgs.head?.bind fun n => s.msg n).map fun m => m.src).getD 0 else 0

/-- Does a cell's source hold a cell of its class already? A later cell of the class waits behind it. -/
def behindHeld (s : State) (st : Nat) (l : List (Nat × Cell)) (k : Nat) (c : Cell) : Bool :=
  l.any fun e => keyCls e.1 == keyCls k && cellSrc s st e.2 == cellSrc s st c
def classHeld (s : State) (h : Half) (st k : Nat) (c : Cell) : Bool := behindHeld s st (lget (s.core.get h).held st) k c

/-- A cell begins to be held: an episode counts (R142). -/
def holdCell (s : State) (h : Half) (st k : Nat) (c : Cell) : State :=
  let fresh := !classHeld s h st k c
  let s := s.modCore h fun x => { x with held := lset x.held st (lget x.held st ++ [(k, c)]) }
  let s := if fresh then tallyRise (s.fbump (CORE_ERRCNT1 h) CORE_ERRCNT1_HOLD_CNT 1) h 1 3 st else s
  dfFullMark (holdStat s h) h

/-- Photometer and bandwidth counts of a cell in (R436, R446). -/
def countIn (s : State) (h : Half) (st : Nat) (c : Cell) : State :=
  let s := tally s h 1 0 st 1
  if st < 16 then s.modPhm h fun p => { p with rxBytes := nset p.rxBytes st (nget p.rxBytes st + 16 * c.slots) } else s

/-- The multicast message of a cell, if it is one. -/
def cellMc (s : State) (c : Cell) : Bool :=
  c.msgs.any fun n => match s.msg n with
    | some m => !m.mc.isEmpty
    | none => false

/-- A multicast cell is admitted by the protected, guarantee and shared cases only (R159). -/
def admitMc (s : State) (h : Half) (k : Nat) (c : Cell) : Option State :=
  match plainPool s h k (cellDests s h c) false with
  | some p =>
    let q := keyStation k * 2 + keyBand k
    some (s.modCore h fun x => { x with mcq := lset x.mcq q (lget x.mcq q ++ [{ c with pool := p }]) })
  | none => none

/-- Are the locks and the wait pool of half h short of full (R233)? -/
def catRoom (s : State) (h : Half) : Bool :=
  decide ((s.cat.get h).txns.length < 16384) && decide ((s.cat.get h).wait.length < 32768)

/-- Does a cell bring a request for the windows of a half whose locks or wait pool are full (R233)?
[log 152, DEDUCED] -/
def catFull (s : State) (c : Cell) : Bool :=
  c.msgs.any fun n => (s.msg n).any fun m => decide (128 ≤ m.dst) && nodeStation m.dst == 30 && !isRsp m.op && m.op != .biRsp
    && !catRoom s (nodeHalf m.dst)

/-- Admit a cell, unicast or multicast. -/
def admitAny (s : State) (h : Half) (k : Nat) (c : Cell) : Option State :=
  if catFull s c then none else if cellMc s c then admitMc s h k c else admitCell s h k c

/-- The messages of the link whose last cell has been admitted: the buffer space they came through is free, and their credits go
back (R120, R142). A request that became several messages gives its one credit back with the last of them. -/
def creditCell (s : State) (st : Nat) (c : Cell) : State :=
  if st < 16 ∧ c.last then
    (c.msgs.filterMap fun n => s.msg n).foldl (fun s m =>
      if m.src < 128 ∧ (isRsp m.op ∨ m.final) then creditBack s m.src (opClass m.op) else s) s
  else s

/-- The next formed cell of a station arrives (R141). -/
def cellArrive (s : State) (h : Half) (st : Nat) : State :=
  match lget (s.core.get h).formed st with
  | [] => s
  | (k, c) :: r =>
    let s := s.modCore h fun x => { x with formed := lset x.formed st r }
    let s := countIn s h st c
    if classHeld s h st k c then holdCell s h st k c
    else match admitAny s h k c with
      | some s => creditCell s st c
      | none => holdCell s h st k c

/-- The first held cell of a class at a station that a case of R141 now admits, of those that are the oldest of their source. -/
def heldTry (s : State) (h : Half) (st cls : Nat) : List (Nat × Cell) → List (Nat × Cell) → Option ((Nat × Cell) × State)
  | _, [] => none
  | seen, e :: r =>
    if keyCls e.1 = cls ∧ behindHeld s st seen e.1 e.2 = false then
      match admitAny s h e.1 e.2 with
      | some s' => some (e, s')
      | none => heldTry s h st cls (e :: seen) r
    else heldTry s h st cls seen r

/-- A held cell of a class is rechecked and admitted when a case of R141 now applies (R142). -/
def heldAdmit (s : State) (h : Half) (st cls : Nat) : State :=
  match heldTry s h st cls [] (lget (s.core.get h).held st) with
  | none => s
  | some (e, s') => creditCell (holdStat (s'.modCore h fun x =>
      { x with held := lset x.held st ((lget x.held st).erase e) }) h) st e.2

/-- The cells of the head message of a segment, when all of them are there (R133). -/
def headGroup (l : List Cell) : Option (List Cell × List Cell) :=
  match l with
  | [] => none
  | c :: r =>
    if c.last then some ([c], r)
    else match headGroup r with
      | some (g, t) => some (c :: g, t)
      | none => none

/-- The messages of cells. -/
def groupMsgs (s : State) (g : List Cell) : List Msg :=
  ((g.flatMap fun c => c.msgs).dedup).filterMap fun n => s.msg n

/-- The key of a pair of sub-ports in the posted counts (R139). -/
def pairKey (src dst : Nat) : Nat := src * 256 + dst

/-- Posted messages that egress sub-port dst has sent of those from src (R139).
[log 138, DESIGN CHOICE] -/
def postedSent (s : State) (m : Msg) : Nat := nget (s.core.get (nodeHalf m.dst)).sentPosted (pairKey m.src m.dst)

/-- The posted-order condition of R139: a stamped message waits for the egress count; a posted one is never 2^15 - 1 ahead of
it. The counts are kept unwrapped: with that bound, the comparison modulo 2^16 is this one.
[log 138, DESIGN CHOICE] -/
def stampMet (s : State) (m : Msg) : Bool :=
  match m.stamp with
  | none => true
  | some t => if clsOf m = 0 then decide (t < postedSent s m + (2 ^ 15 - 1)) else decide (t ≤ postedSent s m)

/-- A posted message that the egress has sent, or never will, counts as sent in the posted order, so that what waits behind it
goes on (R139).
[log 138, DESIGN CHOICE] -/
def postedGone (s : State) (m : Msg) : State :=
  if m.stamp.isSome ∧ clsOf m = 0 then
    let k := pairKey m.src m.dst
    s.modCore (nodeHalf m.dst) fun c => { c with sentPosted := nset c.sentPosted k (nget c.sentPosted k + 1) }
  else s

/-- A group before anything is sent on it. -/
def grpReset : BGrp := ⟨[], [], 0, 0, 0, false, false, none, 0, 0, 0⟩
def bgrp (s : State) (h : Half) (g : Nat) : BGrp := (mfind (s.cdb.get h).grps g).getD grpReset
def putBgrp (s : State) (h : Half) (g : Nat) (x : BGrp) : State := s.modCdb h fun b => { b with grps := minsert b.grps g x }

/-- The cell class of a cell. -/
def cellCls (s : State) (c : Cell) : Nat := ((c.msgs.head?.bind fun n => s.msg n).map clsOf).getD 0

/-- Cells of egress buffer in use for a destination and class; each has 64 (R145): what a sub-port has not sent, what waits at a
bridge station, what a unit has not taken. -/
def egrUsed (s : State) (h : Half) (d cls : Nat) : Nat :=
  let c := s.core.get h
  if d < 64 then ((lget c.egr (d * 9 + cls)).map fun e => e.2).sum
  else if d < 72 then ((bgrp s h (d - 64)).wait.filter fun e => cellCls s e.2 == cls).length
  else (((lget c.inbox (d - 48)).filterMap fun n => s.msg n).map fun m => if clsOf m = cls then (m.slots + 7) / 8 else 0).sum

/-- Credits of a class that the partner has granted and no message takes that has been granted the crossbar already (R145).
[log 75, DESIGN CHOICE] -/
def credFree (s : State) (h : Half) (d cls : Nat) : Nat :=
  nget (s.sub (destNode h d)).txCred cls - (lget (s.core.get h).egr (d * 9 + cls)).length

/-- Does a request wait for a port's tag entries (R107)? Every non-posted request bound there does while none is free. -/
def tagReady (s : State) (n k : Nat) (m : Msg) : Bool := !nonPosted m.op || tagGrant s n k m.op

/-- A BI-ConflictAck leaves behind every response to its host that its Catalogue sent before it (R239).
[log 148, DEDUCED] -/
def ackReady (s : State) (n : Nat) (m : Msg) : Bool :=
  !(m.op == .ndr && m.snp == .cur) || s.net.msgs.all fun e =>
    !(decide (e.1 < m.gen) && (e.2.op == .ndr || e.2.op == .drs) && e.2.src == m.src && e.2.dst == n)

/-- A port sub-port is ready for a message with k others of its cell (R145): link, tags, IDE, promotion, posted order, shaper
and gate. -/
def portReady (s : State) (h : Half) (d k : Nat) (m : Msg) : Bool :=
  let n := destNode h d
  linkUp s n && (ideOpen s n || ideCarries m) && stampMet s m && tagReady s n k m
    && (!takesTag m || (s.sub n).rateTo.isNone) && ackReady s n m
    && (protectedCls (clsOf m) || (shaperOpen s h d m.tc && gateOpen s (n / 4) m.tc))

/-- What crosses the bridge in a phase: all while UP; during the rejoin VC7 and the Catalogue's snoops and their responses
alone (R191), a holder's write-back and its completion among these (R260).
[log 79, DEDUCED] -/
def bridgeCarries (s : State) (h : Half) (m : Msg) : Bool :=
  let ph := s.phase h
  ph == phUP || (decide (3 ≤ ph) && (clsOf m == 8
    || ((m.op = .biSnp || m.op = .biRsp || m.op = .memWr || m.op = .ndr) && (nodeStation m.src == 30 || nodeStation m.dst == 30))))

/-- Does a message take an entry of the crossing table of half h (R179)? -/
def crossTakes (h : Half) (m : Msg) : Bool :=
  awaits m.op && m.itag.isNone && decide (nodeHalf m.src = h) && decide (m.src < 128) && m.mc.isEmpty

/-- A wire-group station is ready (R139, R145, R176, R179): the class in XON, a posted message within its bound, and for a
request with k others of its cell room in the crossing table. -/
def bridgeReady (s : State) (h : Half) (k : Nat) (m : Msg) : Bool :=
  bridgeCarries s h m && !(s.cdb.get h).xoffRx.contains (vcOf (clsOf m)) && (clsOf m != 0 || stampMet s m)
    && (!crossTakes h m || decide ((s.cdb.get h).cross.length + k < 131072))

/-- Is destination d ready for the messages of a group of n cells (R145)? `blocked` lists the stations and classes
(d * 9 + class) at which the unit accepts no input or station 29's writer has no room.
[log 75, DESIGN CHOICE] -/
def destReady (s : State) (h : Half) (blocked : List Nat) (d n : Nat) (ms : List Msg) : Bool :=
  let k := ms.length - 1
  ms.all fun m =>
    let c := clsOf m
    decide (egrUsed s h d c + n ≤ 64)
      && (if d < 64 then decide (k < credFree s h d c) && portReady s h d k m
          else if d < 72 then bridgeReady s h k m else !blocked.contains (d * 9 + c))

/-- What requests an egress station (R146, R150, R160): the head of a VOQ, of a multicast queue, of a spill queue. -/
inductive VKind where
  | uni | mc | spill
  deriving DecidableEq, Repr

/-- A request of an ingress station to an egress station (R146): the band, and the key of its queue. -/
structure VReq where
  inp : Nat
  out : Nat
  band : Nat
  key : Nat
  kind : VKind
  deriving DecidableEq, Repr

/-- The requests of the unicast queues. -/
def voqReqs (s : State) (h : Half) (blocked : List Nat) : List VReq :=
  (s.core.get h).voqs.filterMap fun e =>
    match headGroup e.2.chip with
    | none => none
    | some (g, _) =>
      if destReady s h blocked (keyDest e.1) g.length (groupMsgs s g) then
        some ⟨keyStation e.1, destStation (keyDest e.1), keyBand e.1, e.1, .uni⟩
      else none

/-- The requests of the spill queues to station 29, each like a VOQ of its head cell's class and band (R150): none while the
Deep Field is not ready or full (R152, R153), or its writer has no room (R145). -/
def spillReqs (s : State) (h : Half) (blocked : List Nat) : List VReq :=
  if dfOpen s h = false then []
  else (s.core.get h).spill.filterMap fun e =>
    match e.2 with
    | [] => none
    | (k, _) :: _ => if blocked.contains (77 * 9 + keyCls k) then none else some ⟨e.1, 29, keyBand k, e.1, .spill⟩

/-- A multicast message as its copy for destination d is: the local node alone, or the remote destinations (R161). It keeps no
order with other messages.
[log 73, DEDUCED] -/
def mcAt (h : Half) (m : Msg) (d : Nat) : Msg :=
  if 64 ≤ d ∧ d < 72 then
    let l := m.mc.filter fun n => nodeHalf n ≠ h
    { m with mc := l, dst := l.headD 0, stamp := none }
  else { m with mc := [], dst := destNode h d, stamp := none }

/-- The requests of the head multicast message of each queue (R160).
[log 73, DEDUCED] -/
def mcReqs (s : State) (h : Half) (blocked : List Nat) : List VReq :=
  (s.core.get h).mcq.flatMap fun e =>
    match headGroup e.2 with
    | none => []
    | some (g, _) =>
      (groupMsgs s g).flatMap fun m =>
        ((mcDests h m).filter fun d => destReady s h blocked d g.length [mcAt h m d]).map fun d =>
          ⟨e.1 / 2, destStation d, e.1 % 2, e.1, .mc⟩

/-- The best of some requests: High before Low, then the first at or after a pointer (R146).
[log 73, DEDUCED] -/
def bestReq (ptr : Nat) (f : VReq → Nat) (l : List VReq) : Option VReq :=
  l.foldl (fun b r =>
    match b with
    | none => some r
    | some x =>
      let dr := (f r + 32 - ptr % 32) % 32
      let dx := (f x + 32 - ptr % 32) % 32
      if x.band < r.band ∨ (x.band = r.band ∧ (dr < dx ∨ (dr = dx ∧ r.kind = .mc ∧ x.kind ≠ .mc))) then some r else some x) none

/-- Pointers of matcher m at a station. -/
def ptrKey (m st : Nat) : Nat := m * 32 + st

/-- One iteration of request, grant and accept (R146): the accepted requests among unmatched stations. -/
def vIter (c : Core) (m : Nat) (reqs : List VReq) (done : List VReq) : List VReq :=
  let open_ := reqs.filter fun r => (done.all fun x => x.inp ≠ r.inp) ∧ (done.all fun x => x.out ≠ r.out)
  let grants := (List.range 32).filterMap fun o =>
    bestReq (nget c.grantPtr (ptrKey m o)) VReq.inp (open_.filter fun r => r.out = o)
  let acc := (List.range 32).flatMap fun i =>
    let g := grants.filter fun r => r.inp = i
    match bestReq (nget c.acceptPtr (ptrKey m i)) VReq.out g with
    | none => []
    | some r => if r.kind = .mc then g.filter fun x => x.kind = .mc ∧ x.key = r.key else [r]
  acc

/-- Advance the pointers past matches made in the first iteration (R146). -/
def vPointers (s : State) (h : Half) (m : Nat) (l : List VReq) : State :=
  l.foldl (fun s r => s.modCore h fun c =>
    { c with grantPtr := nset c.grantPtr (ptrKey m r.out) ((r.inp + 1) % 32),
             acceptPtr := nset c.acceptPtr (ptrKey m r.inp) ((r.out + 1) % 32) }) s

/-- Stations that a long message still holds at this matcher (R147). -/
def vHeld (c : Core) (m : Nat) : List VReq :=
  c.busy.filterMap fun e => if e.1 / 1024 = m then some ⟨e.1 / 32 % 32, e.1 % 32, 0, 0, .uni⟩ else none

/-- The place of class c in its round robin: requests PW, NP, MQ, ST; protected CP, MS, SN, SR, MG. -/
def rrPlace (c : Nat) : Nat :=
  match c with
  | 0 => 0
  | 1 => 1
  | 3 => 2
  | 7 => 3
  | 2 => 0
  | 4 => 1
  | 5 => 2
  | 6 => 3
  | _ => 4

/-- The rank of an eligible VOQ of an accepted pair (R147): band, protected first, class round robin, then
sub-port round robin. The least is sent.
[log 131, DESIGN CHOICE] -/
def rrRank (c : Core) (r : VReq) : Nat :=
  let cls := keyCls r.key
  let p := (protectedCls cls).toNat
  let pair := (r.inp * 32 + r.out) * 4
  let rc := (rrPlace cls + 5 - nget c.rr (pair + p) % 5) % 5
  let rs := (keyDest r.key % 4 + 4 - nget c.rr (pair + 2) % 4) % 4
  ((1 - r.band) * 2 + (1 - p)) * 64 + rc * 8 + rs

/-- The VOQ to send from for an accepted pair (R147). -/
def chooseVoq (c : Core) (reqs : List VReq) (r : VReq) : VReq :=
  (reqs.filter fun x => x.inp = r.inp ∧ x.out = r.out ∧ x.kind = .uni).foldl
    (fun b x => if rrRank c x < rrRank c b then x else b) r

/-- A cell's charge is released when it leaves the Court buffer. When the cell was pushed out, the charge of
one High cell moves from headroom to the pool it frees (R158).
[log 133, DESIGN CHOICE] -/
def recharge (l : List Cell) (p : Pool) : Option (List Cell) :=
  match l with
  | [] => none
  | c :: r => if c.pool = .head then some ({ c with pool := p } :: r) else (recharge r p).map fun r => c :: r

/-- Move one headroom charge to pool p.
[log 133, DESIGN CHOICE] -/
def rechargeCore (vs : SMap Voq) (p : Pool) : SMap Voq :=
  match vs with
  | [] => []
  | (k, v) :: r =>
    match recharge v.chip p with
    | some l => (k, { v with chip := l }) :: r
    | none => (k, v) :: rechargeCore r p

/-- Photometer and bandwidth counts of cells out at an egress station (R436, R446). -/
def countOut (s : State) (h : Half) (st : Nat) (g : List Cell) : State :=
  let slots := (g.map fun c => c.slots).sum
  let s := tally (tally s h 1 1 st g.length) h 1 2 st slots
  if st < 16 then s.modPhm h fun p => { p with txBytes := nset p.txBytes st (nget p.txBytes st + 16 * slots) } else s

/-- A non-posted request that leaves the half takes a crossing entry; internal requests take none (R179).
[log 77, DEDUCED] -/
def crossTake (s : State) (h : Half) (n : Nat) : State :=
  match s.msg n with
  | none => s
  | some m =>
    if crossTakes h m then
      s.modCdb h fun b => { b with cross := minsert b.cross n ⟨m, none⟩ }
    else s

/-- A message reaches its destination's egress: a sub-port's egress buffer, the bridge station, or a unit's
input.
[log 74, DESIGN CHOICE] -/
def deliver (s : State) (h : Half) (d : Nat) (g : List Cell) : State :=
  let ids := (g.flatMap fun c => c.msgs).dedup
  if d < 64 then
    ids.foldl (fun s n => match s.msg n with
      | none => s
      | some m =>
        let s := deduct s h d m.tc (16 * m.slots)
        let q := d * 9 + clsOf m
        s.modCore h fun c => { c with egr := lset c.egr q (lget c.egr q ++ [(n, if ids.getLast? = some n then g.length else 0)]) }) s
  else if d < 72 then
    let x := bgrp s h (d - 64)
    putBgrp (ids.foldl (fun s n => crossTake s h n) s) h (d - 64) { x with wait := x.wait ++ g.map fun c => (d, c) }
  else s.modCore h fun c => { c with inbox := lset c.inbox (d - 48) (lget c.inbox (d - 48) ++ ids) }

/-- A word error in a cell that is read (R134). -/
def poisonMsg (ms : SMap Msg) (i : Nat) : SMap Msg :=
  match mfind ms i with
  | some m => minsert ms i { m with poison := true }
  | none => ms
def eccPoison (s : State) (ids : List Nat) : State :=
  s.modNet fun n => { n with msgs := ids.foldl poisonMsg n.msgs }

/-- A corrected word of the Court buffer or an egress buffer, and an uncorrectable one (R134): CORE causes 1 and 0. -/
def eccCount (s : State) (h : Half) (bad : Bool) (u : Nat) : State :=
  if bad then raise (s.fbump (CORE_ERRCNT0 h) CORE_ERRCNT0_ECC_UNC 1) h (evtU 8 0 u 1 u 0)
  else raise (s.fbump (CORE_ERRCNT0 h) CORE_ERRCNT0_ECC_CORR 1) h (evtU 8 1 u 1 u 0)

/-- The tenant whose upstream sub-port is d, as half h knows it. -/
def uspTenant (s : State) (h : Half) (d : Nat) : Option Nat :=
  ((s.binds.get h).usp.find? fun e => e.2 = d).map fun e => e.1

/-- Whom an internal entry of a Catalogue message belongs to. -/
def catOwner (s : State) (m : Msg) : IOwner :=
  if m.op = .biSnp then .snoop m.tag ((uspTenant s (nodeHalf m.src) m.dst).getD 64)
  else if m.tgt.idx = 1 then .catRead m.tag else .catWrite m.tag (m.tgt.idx - 2)

/-- A message that the Catalogue sends under an internal tag it takes as it leaves (R23). -/
def catTagged (m : Msg) : Bool := decide (128 ≤ m.src) && nodeStation m.src == 30 && (m.op == .biSnp || m.itag.isSome)

/-- The internal entry e leaves at sub-port d: its timer starts (R111). -/
def itagStart (s : State) (e d : Nat) : State :=
  match mfind s.net.itags e with
  | none => s
  | some x => s.modNet fun n => { n with itags := minsert n.itags e { x with out := true, start := s.now x.half, sub := d } }

/-- A datagram's internal entry is free once no copy of the datagram is left (R361).
[log 157, DEDUCED] -/
def passFree (s : State) (e : Nat) : State :=
  if s.net.msgs.any fun x => x.2.itag == some e then s else s.modNet fun n => { n with itags := merase n.itags e }

/-- A copy of a datagram is lost: the sender learns of the one for its own half, whose receivers it counts as not reached (R366).
[log 157, DEDUCED] -/
def passLost (s : State) (m : Msg) (e : Nat) : State :=
  match mfind s.net.itags e with
  | none => s
  | some x =>
    passFree (if nodeHalf m.dst = nodeHalf m.src then
      s.modNet fun n => { n with idone := n.idone ++ [⟨x.own, x.half, x.tenant, false, m.tgt.addr, false⟩] } else s) e

/-- A posted request of a unit's that is discarded is done with, as one that has left: nothing would have answered it.
[log 134, DEDUCED; log 157, DEDUCED] -/
def postedLost (s : State) (e : Nat) : State :=
  match mfind s.net.itags e with
  | none => s
  | some x =>
    let s := s.modNet fun n => { n with itags := merase n.itags e, idone := n.idone ++ [⟨x.own, x.half, x.tenant, true, 0, false⟩] }
    match x.gen with
    | some g => flightEnd s x.half g
    | none => s

/-- A message that a descriptor's error discards (R134). A non-posted request ends by completion timeout: its entry, its crossing
entry with it, is taken as though it had left, and nothing answers it. One bound for a unit, which has no entry, ends at once; a
posted message counts as sent in the posted order.
[log 134, DEDUCED] -/
def eccGone (s : State) (m : Msg) : State :=
  if catTagged m then
    match if awaits m.op then takeItag s (nodeHalf m.src) (catOwner s m) 0 none false true else none with
    | some (e, s) => itagStart s e m.dst
    | none => s
  else match m.itag with
    | some e =>
      if m.tgt.kind = 10 then passLost s m e else if opClass m.op = 0 then postedLost (postedGone s m) e else itagStart s e m.dst
    | none =>
      if nonPosted m.op then
        if m.dst < 128 then ((takeTag s m.dst m).map fun r => r.2).getD s else synthReport s m (levelOf s m)
      else endFlight (postedGone s m) m

/-- A message as the copies it stands for: itself, or one for each destination of a multicast message. -/
def mcEach (m : Msg) : List Msg := if m.mc = [] then [m] else m.mc.map fun d => { m with mc := [], dst := d }

/-- The messages of a cell with a bad descriptor are discarded (R134).
[log 134, DEDUCED] -/
def eccDiscard (s : State) (h : Half) (ids : List Nat) : State :=
  let ms := ids.filterMap fun n => s.msg n
  let s := ids.foldl (fun s n => if (s.msg n).any fun m => nodeHalf m.dst ≠ h then crossTake s h n else s) s
  (ms.flatMap mcEach).foldl eccGone (ids.foldl dropMsg s)

/-- The effect of SECDED on the messages of a group that is read (R134), the error being in message i of them: which of them go
on, and the state.
[log 134, DEDUCED] -/
def eccRead (s : State) (h : Half) (e : CellEcc) (ids : List Nat) : Bool × State :=
  match e with
  | .clean => (true, s)
  | .corrected u => (true, eccCount s h false u)
  | .payload u i => (true, eccPoison (eccCount s h true u) (ids.drop i |>.take 1))
  | .descriptor u _ => (false, eccDiscard (eccCount s h true u) h ids)

/-- The error that a step finds, as one of the groups it reads sees it: the groups are read in turn, and j messages have been read
before this one's n.
[log 134, DEDUCED] -/
def eccAt (e : CellEcc) (j n : Nat) : CellEcc :=
  match e with
  | .clean => .clean
  | .corrected u => if j = 0 then .corrected u else .clean
  | .payload u i => if j ≤ i ∧ i < j + n then .payload u (i - j) else .clean
  | .descriptor u i => if j ≤ i ∧ i < j + n then .descriptor u (i - j) else .clean

/-- A pair of stations that a message of n cells holds at matcher mt (R147). -/
def holdPair (c : Core) (mt inp out n : Nat) : Core :=
  if 1 < n then { c with busy := minsert c.busy ((mt * 32 + inp) * 32 + out) (n - 1) } else c

/-- The messages at the head of a VOQ. -/
def headIds (s : State) (h : Half) (k : Nat) : List Nat :=
  match headGroup ((s.core.get h).voq k).chip with
  | none => []
  | some (g, _) => (g.flatMap fun c => c.msgs).dedup

/-- Send the head message of a VOQ across (R147), if what crosses before it in the slot has left its destination ready.
[log 131, DESIGN CHOICE] -/
def sendVoq (s : State) (h : Half) (blocked : List Nat) (mt : Nat) (r : VReq) (e : CellEcc) : State :=
  match headGroup ((s.core.get h).voq r.key).chip with
  | none => s
  | some (g, rest) =>
    if destReady s h blocked (keyDest r.key) g.length (groupMsgs s g) = false then s
    else
      let s := modVoq s h r.key fun v => { v with chip := rest }
      let pr := (r.inp * 32 + r.out) * 4
      let pc := (protectedCls (keyCls r.key)).toNat
      let s := s.modCore h fun c =>
        let rr := nset (nset c.rr (pr + pc) (rrPlace (keyCls r.key) + 1)) (pr + 2) (keyDest r.key % 4 + 1)
        holdPair { c with rr := rr } mt r.inp r.out g.length
      let q := eccRead s h e (g.flatMap fun c => c.msgs).dedup
      if q.1 then deliver (countOut q.2 h r.out g) h (keyDest r.key) g else q.2

/-- One copy of a multicast message for destination d (R160, R161): a message of its own with the destinations
it serves. -/
def mcCopy (s : State) (h : Half) (m : Msg) (g : List Cell) (d : Nat) : State :=
  let r := newMsg s (mcAt h m d)
  deliver r.2 h d (g.map fun c => { c with msgs := [r.1] })

/-- Clear from a multicast message the destinations served (R160). -/
def mcServed (h : Half) (ds : List Nat) (m : Msg) : Msg :=
  { m with mc := m.mc.filter fun n => ¬ ds.contains (destIn h n) ∧ ¬ (nodeHalf n ≠ h ∧ ds.any fun d => decide (64 ≤ d) && decide (d < 72)) }

/-- The head message of a multicast queue. -/
def mcHead (s : State) (h : Half) (q : Nat) : Option (List Cell × List Cell × Nat × Msg) :=
  (headGroup (lget (s.core.get h).mcq q)).bind fun x =>
    (x.1.flatMap fun c => c.msgs).head?.bind fun n => (s.msg n).map fun m => (x.1, x.2, n, m)

/-- Send the head multicast message of a queue to the stations that granted it (R160); what remains is the
residue, and the message is freed when none does. Each pair is held as by a unicast message (R147). -/
def sendMc (s : State) (h : Half) (blocked : List Nat) (mt q : Nat) (outs : List Nat) (e : CellEcc) : State :=
  match mcHead s h q with
  | none => s
  | some (g, rest, n, m) =>
    let x := eccRead s h e [n]
    if x.1 = false then x.2.modCore h fun c => { c with mcq := lset c.mcq q rest }
    else
      let s := x.2
      let m := (s.msg n).getD m
      let ds := (mcDests h m).filter fun d => outs.contains (destStation d) && destReady s h blocked d g.length [mcAt h m d]
      let s := ds.foldl (fun s d => mcCopy (countOut s h (destStation d) g) h m g d) s
      let s := s.modCore h fun c => (ds.map destStation).foldl (fun c o => holdPair c mt (q / 2) o g.length) c
      let m' := mcServed h ds m
      if m'.mc = [] then
        (dropMsg s n).modCore h fun c => { c with mcq := lset c.mcq q rest }
      else tally (s.modNet fun x => { x with msgs := minsert x.msgs n m' }) h 2 3 0 1

/-- The head cell of a spill queue crosses to station 29 and leaves the Court buffer: its charge is released, and for a pushed-out
cell the charge of one High cell moves from headroom to the pool it frees (R150, R158). -/
def sendSpill (s : State) (h : Half) (st : Nat) (e : CellEcc) : State :=
  match lget (s.core.get h).spill st with
  | [] => s
  | (k, c) :: r =>
    let s := s.modCore h fun x => { x with spill := lset x.spill st r }
    let s := if c.po then s.modCore h fun x => { x with voqs := rechargeCore x.voqs c.pool } else s
    let q := eccRead s h e c.msgs
    if q.1 then
      (countOut q.2 h 29 [c]).modCore h fun x => { x with writer := lset x.writer st (lget x.writer st ++ [(k, { c with pool := .none })]) }
    else q.2

/-- A slot passes for the pairs that long messages hold at matcher m.
[log 74, DESIGN CHOICE] -/
def busyStep (c : Core) (m : Nat) : Core :=
  { c with busy := mmapOpt c.busy fun k v => if k / 1024 = m then (if v ≤ 1 then none else some (v - 1)) else some v }

/-- The matching of a slot: three iterations (R146), with the requests it was made from.
[log 74, DESIGN CHOICE] -/
def vMatch (s : State) (h : Half) (blocked : List Nat) : List VReq × List VReq × List VReq :=
  let c := s.core.get h
  let m := c.slot % 8
  let reqs := voqReqs s h blocked ++ mcReqs s h blocked ++ spillReqs s h blocked
  let held := vHeld c m
  let a1 := vIter c m reqs held
  let a2 := vIter c m reqs (held ++ a1)
  let a3 := vIter c m reqs (held ++ a1 ++ a2)
  (reqs, a1, a1 ++ a2 ++ a3)

/-- Send the unicast messages of a matching, in the order of their pairs. -/
def sendUni (s : State) (h : Half) (blocked : List Nat) (mt : Nat) (reqs : List VReq) (e : CellEcc) (j : Nat) : List VReq → State × Nat
  | [] => (s, j)
  | r :: l =>
    let x := chooseVoq (s.core.get h) reqs r
    let n := (headIds s h x.key).length
    sendUni (sendVoq s h blocked mt x (eccAt e j n)) h blocked mt reqs e (j + n) l

/-- Send what a matching accepted: unicast, multicast and spilled cells. -/
def vSend (s : State) (h : Half) (blocked : List Nat) (mt : Nat) (reqs acc : List VReq) (e : CellEcc) : State :=
  let u := sendUni s h blocked mt reqs e 0 (acc.filter fun r => r.kind = .uni)
  let qs := ((acc.filter fun r => r.kind = .mc).map fun r => r.key).dedup
  let s := (qs.zip (List.range qs.length)).foldl (fun s q =>
    sendMc s h blocked mt q.1 ((acc.filter fun r => r.kind = .mc ∧ r.key = q.1).map VReq.out) (eccAt e (u.2 + q.2) 1)) u.1
  let j := u.2 + qs.length
  (acc.filter fun r => r.kind = .spill).foldl (fun s r =>
    sendSpill s h r.key (eccAt e j ((lget (s.core.get h).spill r.key).headD (0, ⟨[], 0, false, 0, false, .none⟩)).2.msgs.length)) s

/-- Pages in use change; PEAK keeps the highest (CORE_DF_STAT, CORE_DF_PEAK); DF_FULL clears with a free page. -/
def dfUse (s : State) (h : Half) (n : Nat) : State :=
  let s := s.fset (CORE_DF_STAT h) CORE_DF_STAT_USED n
  let s := if s.fget (CORE_DF_PEAK h) CORE_DF_PEAK_PEAK < n then s.fset (CORE_DF_PEAK h) CORE_DF_PEAK_PEAK n else s
  if n < dfPages s h then s.fset (CORE_STAT h) CORE_STAT_DF_FULL 0 else dfFullMark s h

/-- Append a cell to a deep segment: into its last page of at most 28 cells, or a new one (R148). -/
def deepAppend (l : List (List Cell)) (c : Cell) : List (List Cell) :=
  match l with
  | [] => [[c]]
  | [p] => if p.length < 28 then [p ++ [c]] else [p, [c]]
  | p :: q :: r => p :: deepAppend (q :: r) c

/-- Cells of a message pushed out earlier stay in order: a pushed-out cell goes behind the pushed-out cells of
its own message at the head of the deep segment, else before everything (R150, R157). -/
def deepPushOut (l : List (List Cell)) (c : Cell) : List (List Cell) :=
  match l with
  | p :: r =>
    if p.all fun x => x.po ∧ x.msgs = c.msgs then (if p.length < 28 then (p ++ [c]) :: r else p :: deepPushOut r c)
    else [c] :: p :: r
  | [] => [[c]]

/-- The staged cells of a VOQ's station: in its spill queue, and crossed to station 29 but not yet in their page. -/
def staged (s : State) (h : Half) (k : Nat) : List (Nat × Cell) :=
  lget (s.core.get h).spill (keyStation k) ++ lget (s.core.get h).writer (keyStation k)

/-- A VOQ stops being spilled when its deep segment is empty, nothing of it is staged and no return is in
flight (R149). -/
def unspill (s : State) (h : Half) (k : Nat) : State :=
  let v := (s.core.get h).voq k
  if v.deep.isEmpty && v.ret.isEmpty && !((staged s h k).any fun e => e.1 == k)
  then modVoq s h k fun v => { v with spilled := false } else s

/-- SPILL_WRITE (R150): station 29 writes the oldest cell that has crossed to it from station st: a pushed-out cell goes to
the head of its VOQ's deep segment (R157), any other to the tail. With no free page, while the Deep Field is not ready, or where
it would take its VOQ past its limit of pages, the cell waits (R152, R153). -/
def execSpillWrite (h : Half) (st : Nat) (s : State) : Host.Outcome State Fault Refusal :=
  match lget (s.core.get h).writer st with
  | [] => .next s
  | (k, c) :: r =>
    let v := (s.core.get h).voq k
    let new := if c.po then deepPushOut v.deep c else deepAppend v.deep c
    if dfReady s h = false ∨ dfPages s h + v.deep.length < dfUsed s h + new.length then .next (dfFullMark s h)
    else if voqPageMax s h + v.deep.length < voqPages v + new.length then .next s
    else
      let s := s.modCore h fun x => { x with writer := lset x.writer st r }
      let s := modVoq s h k fun v => { v with deep := new }
      .next (tally (dfUse s h (dfUsed s h + new.length - v.deep.length)) h 2 0 0 1)

/-- The return threshold in cells (RET_LOW 0 treated as 1, R151). -/
def retLow (s : State) (h : Half) : Nat := 32 * max 1 (s.fget (CORE_DF_CTL h) CORE_DF_CTL_RET_LOW)

/-- Add a cell to the page in flight that a VOQ's return began last. -/
def retPush (l : List (List Cell)) (c : Cell) : List (List Cell) := l.dropLast ++ [l.getLastD [] ++ [c]]

/-- Charge the cells of a page that is read by the guarantee or shared case of R141; none: the page waits (R151). -/
def chargePage (s : State) (h : Half) (k : Nat) (l : List Cell) : Option State :=
  match l with
  | [] => some s
  | c :: r =>
    match plainPool s h k [keyDest k] (cellYellow s c) with
    | none => none
    | some p => chargePage (modVoq s h k fun v => { v with ret := retPush v.ret { c with po := false, pool := p } }) h k r

/-- May station 29 read a page of VOQ k (R151, R153, R157)? -/
def mayReturn (s : State) (h : Half) (k : Nat) : Bool :=
  let v := (s.core.get h).voq k
  dfReady s h && decide (v.chip.length < retLow s h) && decide (v.ret.length < 32) && !((staged s h k).any fun e => e.1 == k && e.2.po)

/-- Station 29 starts to read the first page of a VOQ's deep segment, once its cells can be charged (R151).
[log 144, DEDUCED] -/
def readStart (s : State) (h : Half) (k : Nat) : State :=
  match ((s.core.get h).voq k).deep with
  | [] => s
  | p :: r =>
    if mayReturn s h k = false then s
    else (chargePage (modVoq s h k fun v => { v with deep := r, ret := v.ret ++ [[]] }) h k p).getD s

/-- Every spilled VOQ of a half that is below the return threshold has a page read.
[log 144, DEDUCED] -/
def readAll (s : State) (h : Half) : State :=
  ((s.core.get h).voqs.filter fun e => e.2.spilled).foldl (fun s e => readStart s h e.1) s

/-- The matcher of the slot runs its three iterations, and the matched cells cross (R146); station 29 starts its reads (R151).
[log 144, DEDUCED] -/
def volley (s : State) (h : Half) (blocked : List Nat) (ecc : CellEcc) : State :=
  let mt := (s.core.get h).slot % 8
  let r := vMatch s h blocked
  let s := s.modCore h fun c => { busyStep c mt with slot := c.slot + 1 }
  readAll (vSend (vPointers s h mt r.2.1) h blocked mt r.1 r.2.2 ecc) h

/-- DF_READY (R153): Deep Field enabled, the front end not restarting, the Deep Field's requester not fenced (R416). -/
def dfReadyNow (s : State) (h : Half) : State :=
  s.fsetB (CORE_STAT h) CORE_STAT_DF_READY
    (s.flag (CORE_CTL h) CORE_CTL_DF_EN && !s.flag (QOS_ROT_STAT h) QOS_ROT_STAT_RESTART && !rotFenced s h 0)

/-- DF_EN is set (R154, R464). -/
def dfEnable (s : State) (h : Half) : State :=
  finderGate s h (CORE_CTL h) fun s => dfReadyNow (s.fset (CORE_CTL h) CORE_CTL_DF_EN 1) h

/-- CORE_CTL.LOCK and DF_EN set and stay set (RW1S); PUSH_EN is RWL (R143, R154). -/
def coreCtlWrite (s : State) (h : Half) (v : Word) : State :=
  let a := CORE_CTL h
  let s := if s.flag a CORE_CTL_LOCK then s else s.fset a CORE_CTL_PUSH_EN (fldGet v CORE_CTL_PUSH_EN)
  let s := if fldGet v CORE_CTL_LOCK = 1 then s.fset a CORE_CTL_LOCK 1 else s
  if fldGet v CORE_CTL_DF_EN = 1 then dfEnable s h else s

/-- A write of CORE_POOL that leaves too little is discarded and logged (R143). -/
def corePoolWrite (s : State) (h : Half) (v : Word) : State :=
  let p := fldGet v CORE_POOL_PROT
  let g := fldGet v CORE_POOL_STAGE
  if s.flag (CORE_CTL h) CORE_CTL_LOCK then s
  else if sharedUnits p g (fldGet v CORE_POOL_PUSH) (fldGet v CORE_POOL_GUAR) (mget (fun _ => 0) (s.ref.get h).banksLost 1) < 64 ∨ p < 16 ∨ g < 1 then
    writeDiscarded s h (CORE_POOL h)
  else s.wr (CORE_POOL h) (v &&& 0xFFFFFF0F)

/-- CORE_LOCK_SET (R143). -/
def execCoreLockSet (m : Master) (h : Half) (s : State) : Host.Outcome State Fault Refusal :=
  .next (csGate s m (CORE_CTL h) fun s => s.fset (CORE_CTL h) CORE_CTL_LOCK 1)

/-- DF_ENABLE (R154). -/
def execDfEnable (m : Master) (h : Half) (s : State) : Host.Outcome State Fault Refusal :=
  .next (csGate s m (CORE_CTL h) fun s => dfEnable s h)

end Sys2Proof.Machine
end

