-- ==== Sys2Proof/Machine/Umpire.lean ====
section
/-! DEFINITION. The Umpire (spec 10): rules and their check (R297-R303), fault answers and the fault log
(R315, R316), the staged page and its freeze (R299, R310), and the application of a generation (R309). -/

namespace Sys2Proof.Machine

open Sys2Proof

/-- Reserved bits of TIDX for a target kind (R298). -/
def tidxBad (kind idx : Nat) : Bool :=
  match kind with
  | 0 => idx % 2 != 0
  | 1 => idx % 32 != 0
  | 4 => decide (64 ≤ idx)
  | 6 => decide (2 ≤ idx)
  | _ => idx != 0

/-- Malformed, given the eight words of a rule (R299). -/
def ruleMalformed (w : List Nat) : Bool :=
  let w0 := w.getD 0 0
  let w1 := w.getD 1 0
  let w2 := w.getD 2 0
  let size := bits w2 13 8
  bitB w2 31 && (decide (size < 12) || decide (52 < size) || ruleBase w0 w1 % 2 ^ size != 0 || bits w2 30 28 == 7
    || w0 % 4096 != 0 || decide (2 ^ 20 ≤ w1) || bits w2 15 14 != 0 || bits w2 7 6 != 0
    || tidxBad (bits w2 30 28) (bits w2 27 16) || w.getD 5 0 != 0 || w.getD 6 0 != 0 || w.getD 7 0 != 0)

/-- The words of staged rule n of a copy. -/
def stagedWords (s : State) (h : Half) (n : Nat) : List Nat :=
  (List.range 8).map fun k => (s.rd (UMP_RULE h n k)).toNat

/-- The staged rules of a copy that are VALID. -/
def stagedValid (s : State) (h : Half) : List Nat :=
  s.regs.filterMap fun e =>
    let b := UMP_RULE h 0 0
    if b ≤ e.1 ∧ e.1 < b + 0x100000 ∧ (e.1 - b) % 32 = 8 ∧ bitB e.2.toNat 31 then some ((e.1 - b) / 32) else none

/-- BADCNT is the number of malformed rules in the staged page (R299). -/
def setBad (s : State) (h : Half) : State :=
  s.fset (UMP_STAT h) UMP_STAT_BADCNT (((stagedValid s h).filter fun n => ruleMalformed (stagedWords s h n)).length)

/-- A write of offset `off` of the staged page reaches one copy (R26, R299). -/
def ruleWriteCopy (s : State) (h : Half) (off : Nat) (v : Word) : State := setBad (s.wr (UMP_RULE h 0 0 + off) v) h

/-- A write to the Umpire block goes to both copies; while the other half is out of reach, to the writer's alone,
and the other is logged as CS unreachable (R26, R314). -/
def bothWrite (s : State) (mh : Half) (a : Nat) (f : State → Half → State) : State :=
  let s := f s mh
  if s.phase mh = phRETRAIN ∨ s.phase mh = phSPLIT then csUnreachable s mh a else f s mh.other

/-- A write to the staged page or UMP_GSTAGE while it is frozen is discarded, counted and logged (R310).
[log 37, DEDUCED] -/
def stageDiscard (s : State) (mh : Half) (a : Nat) : State :=
  writeDiscarded (s.fbump (UMP_ERRCNT1 mh) UMP_ERRCNT1_STGDISC_CNT 1) mh a

/-- A write of a staged rule word (R299, R310).
[log 80, DEDUCED] -/
def stagedRuleWrite (s : State) (mh : Half) (off : Nat) (v : Word) : State :=
  let a := UMP_RULE .east 0 0 + off
  if s.flag (UMP_STAT mh) UMP_STAT_STG_BUSY then stageDiscard s mh a
  else bothWrite s mh a fun s h =>
    if s.flag (UMP_STAT h) UMP_STAT_STG_BUSY then stageDiscard s h a else ruleWriteCopy s h off v

/-- STAGED_RULE_WRITE (R299). -/
def execStagedRuleWrite (m : Master) (n : BitVec 15) (k : BitVec 3) (v : Word) (s : State) :
    Host.Outcome State Fault Refusal :=
  .next (dbgGate s m (UMP_RULE .east n.toNat k.toNat) pW (fun s => s) fun s =>
    stagedRuleWrite s (s.masterHalf m) (32 * n.toNat + 4 * k.toNat) v)

/-- A word of UMP_GSTAGE as a write leaves it: STATUS in word 2 is Kezen's alone (R199, R308). -/
def gstageWord (k : Nat) (old v : Word) : Word :=
  if k = 2 then (v &&& 0xFFF0FFFF) ||| (old &&& 0x000F0000) else v

/-- A write of a word of UMP_GSTAGE; while it is frozen, only CANCEL is taken (R310).
[log 80, DEDUCED] -/
def gstageWrite (s : State) (mh : Half) (k : Nat) (v : Word) : State :=
  let a := UMP_GSTAGE .east k
  if s.flag (UMP_STAT mh) UMP_STAT_STG_BUSY then
    let s := if k = 2 ∧ bitB v.toNat 31 then bothWrite s mh a fun s h => rowCancel s h (UMP_GSTAGE h 2) else s
    stageDiscard s mh a
  else bothWrite s mh a fun s h =>
    if s.flag (UMP_STAT h) UMP_STAT_STG_BUSY then stageDiscard s h a else
    let s := if k = 2 ∧ bitB v.toNat 31 then rowCancel s h (UMP_GSTAGE h 2) else s
    s.wr (UMP_GSTAGE h k) (gstageWord k (s.rd (UMP_GSTAGE h k)) v)

/-- The listed words of a page as offset and value. -/
def pageWords (s : State) (b : Nat) : List (Nat × Word) :=
  (s.regs.filter fun e => decide (b ≤ e.1) && decide (e.1 < b + 0x100000)).map fun e => (e.1 - b, e.2)

/-- Put a page: every word not given becomes 0. -/
def putPage (s : State) (b : Nat) (l : List (Nat × Word)) : State :=
  let s := (pageWords s b).foldl (fun s e => s.wr (b + e.1) 0) s
  l.foldl (fun s e => s.wr (b + e.1) e.2) s

/-- A generation row applies in one half: the staged page becomes the active page, the former active page the
staged one, GEN advances, and the copy into the staged page starts (R309, R310). -/
def genApply (s : State) (h : Half) : State :=
  let act := pageWords s (UMP_ACTIVE h 0 0)
  let stg := pageWords s (UMP_RULE h 0 0)
  let s := putPage (putPage s (UMP_ACTIVE h 0 0) stg) (UMP_RULE h 0 0) act
  let s := s.fset (UMP_GEN h) UMP_GEN_GEN (s.gen h + 1)
  setLive (setBusy (setBad (s.modUmp h fun u => { u with copying := true }) h) h) h

/-- STAGED_PAGE_COPY_DONE (R310): the staged page holds the rules now in force; the freeze ends. -/
def execStagedPageCopyDone (h : Half) (s : State) : Host.Outcome State Fault Refusal :=
  if (s.ump.get h).copying then
    let s := putPage s (UMP_RULE h 0 0) (pageWords s (UMP_ACTIVE h 0 0))
    .next (setBusy (setBad (s.modUmp h fun u => { u with copying := false, freezeE := false, freezeW := false }) h) h)
  else .next s

/-- UMPIRE_FAULT_LOG_CLEAR (R316): writing 1 to VALID clears VALID and MORE. -/
def flogClear (s : State) (h : Half) : State :=
  s.fsets (UMP_FLOG_INFO h) [(UMP_FLOG_INFO_VALID, 0), (UMP_FLOG_INFO_MORE, 0)]
def execUmpireFaultLogClear (m : Master) (h : Half) (s : State) : Host.Outcome State Fault Refusal :=
  .next (csGate s m (UMP_FLOG_INFO h) fun s => flogClear s h)

/-- The permissions a request needs by R300, outside any window; 0 is not checked. -/
def needOf (op : Op) (hold : Hold) : Nat :=
  match op with
  | .mRd | .memRd | .memRdData | .memSpecRd => pR
  | .mWr | .memWr | .memWrPtl => pW
  | .atomic => pR + pW
  | .memInv => if hold = .i then 0 else pR
  | .d2hReq => pCOH
  | _ => 0

end Sys2Proof.Machine
end

