-- ==== Sys2Proof/Machine/CatBase.lean ====
section
/-! DEFINITION. The Catalogue (spec 08): windows, entries and sets, the image and its mirror, the Line Store, and the writes that
Kezen makes to a window's device. -/

namespace Sys2Proof.Machine

open Sys2Proof

/-- Is window w in use (R227)? Its fields. -/
def winUsed (s : State) (h : Half) (w : Nat) : Bool := s.flag (CAT_WIN_CTL h w) CAT_WIN_CTL_VALID
def winSub (s : State) (h : Half) (w : Nat) : Nat :=
  4 * s.fget (CAT_WIN_CTL h w) CAT_WIN_CTL_PORT + s.fget (CAT_WIN_CTL h w) CAT_WIN_CTL_SUB
def winLd (s : State) (h : Half) (w : Nat) : Nat := s.fget (CAT_WIN_CTL h w) CAT_WIN_CTL_LD
def winBase (s : State) (h : Half) (w : Nat) : Nat := s.rd64 (CAT_WIN_BASE_LO h w)
def winSize (s : State) (h : Half) (w : Nat) : Nat := s.fget (CAT_WIN_CTL h w) CAT_WIN_CTL_SIZE

/-- The window in use that holds an address of an LD (R224). -/
def findWin (s : State) (h : Half) (sub ld addr : Nat) : Option Nat :=
  (List.range 64).find? fun w => winUsed s h w && winSub s h w == sub && winLd s h w == ld
    && decide (winBase s h w ≤ addr) && decide (addr < winBase s h w + 2 ^ winSize s h w)

/-- The window and line of a memory piece, in the home half of its sub-port (R225). -/
def pieceWin (s : State) (p : Piece) : Option (Half × Nat) :=
  if p.kind = 0 then
    let h := nodeHalf (memSub p.idx)
    (findWin s h (memSub p.idx) (memLd p.idx) p.addr).map fun w => (h, w)
  else none

/-- The key of a line: window and line index (R240). -/
def lineKey (w l : Nat) : Nat := w * 2 ^ 36 + l
def lineWin (k : Nat) : Nat := k / 2 ^ 36
def lineL (k : Nat) : Nat := k % 2 ^ 36

/-- The set of a line (R241), and its Line Store set. -/
def setFull (w l : Nat) : Nat := ((l % 2 ^ 24) ^^^ (l / 2 ^ 24 % 2 ^ 12 * 2 ^ 12) ^^^ (w * 2 ^ 18)) % 2 ^ 24
def lsSet (w l : Nat) : Nat := setFull w l % 2 ^ 22

/-- The set in use: SET of the image, or SET[17:0] of the on-chip store (R257). -/
def setOf (s : State) (h : Half) (w l : Nat) : Nat :=
  if s.flag (CAT_STAT h) CAT_STAT_IMG then setFull w l else setFull w l % 2 ^ 18

/-- The ways of a set. -/
def setKeys (set : Nat) : List Nat := (List.range 16).map fun i => set * 16 + i

/-- The entry of a line and its place (R241). -/
def findEnt (s : State) (h : Half) (k : Nat) : Option (Nat × CatEnt) :=
  (setKeys (setOf s h (lineWin k) (lineL k))).findSome? fun i =>
    match mfind (s.cat.get h).ents i with
    | some e => if e.win = lineWin k ∧ e.l = lineL k then some (i, e) else none
    | none => none

/-- Has an entry's line left state I (R232)? A way taken for a request that is still in progress has neither holder nor slot. -/
def entValid (e : CatEnt) : Bool := e.hold != 0 || e.slot.isSome

/-- STATE codes (R240): a way with no line 0, S 1, E 2, M 3, O 4. -/
def entState (e : CatEnt) : Nat :=
  if e.excl then (if e.slot.isSome then 3 else 2) else if e.slot.isSome then 4 else if e.hold = 0 then 0 else 1

/-- Bits [127:8] of an entry (R240).
[log 147, DESIGN CHOICE] -/
def entBits (e : CatEnt) : BitVec 120 :=
  BitVec.ofNat 120 (e.hold * 2 ^ 56 + entState e * 2 ^ 53 + e.psn.toNat * 2 ^ 52 + e.slot.getD 0 * 2 ^ 49 + e.age * 2 ^ 47
    + e.win * 2 ^ 41 + e.l * 2 ^ 5)

/-- An entry as its 16 bytes (R240), with the SECDED code in bits [7:0]; a free way is all zeros but for its code.
[log 147, DESIGN CHOICE] -/
def entWord (e : Option CatEnt) : BitVec 128 :=
  let b := (e.map entBits).getD 0
  b ++ Config.secded b

/-- The entry that 16 bytes hold (R240). -/
def wordEnt (w : BitVec 128) : Option CatEnt :=
  let n := w.toNat
  let st := bits n 63 61
  if st = 0 ∨ 4 < st then none
  else some ⟨bits n 54 49, bits n 48 13, bits n 127 64, st == 2 || st == 3, if 3 ≤ st then some (bits n 59 57) else none, bitB n 60,
    bits n 56 55⟩

/-- Holders of an entry as tenants. -/
def holders (e : CatEnt) : List Nat := (List.range 64).filter fun t => bitB e.hold t

/-- A holder map with tenant t set or cleared. -/
def holdSet (m t : Nat) : Nat := m ||| 2 ^ t
def holdClr (m t : Nat) : Nat := if bitB m t then m - 2 ^ t else m

/-- The upstream sub-port of tenant t as half h knows it. -/
def uspOf (s : State) (h : Half) (t : Nat) : Option Nat := mfind (s.binds.get h).usp t

/-- Is tenant t remote to half h (R259)? -/
def remoteTenant (s : State) (h : Half) (t : Nat) : Bool :=
  match uspOf s h t with
  | some d => decide (nodeHalf d ≠ h)
  | none => false

/-- An entry with a remote holder; quarantined while PHASE is not UP (R259). -/
def entRemote (s : State) (h : Half) (e : CatEnt) : Bool := (holders e).any fun t => remoteTenant s h t
def quarantined (s : State) (h : Half) (e : CatEnt) : Bool := decide (s.phase h ≠ phUP) && entRemote s h e

/-- The status registers follow the tables (CAT_OCC, CAT_LSOCC, CAT_REMOTE, CAT_TRK, CDB_QLINES, R259). -/
def catStat (s : State) (h : Half) : State :=
  let c := s.cat.get h
  let rem := (c.ents.filter fun e => entRemote s h e.2).length
  let s := s.fset (CAT_OCC h) CAT_OCC_ENTRIES (c.ents.filter fun e => entValid e.2).length
  let s := s.fset (CAT_LSOCC h) CAT_LSOCC_SLOTS c.slots.length
  let s := s.fset (CAT_REMOTE h) CAT_REMOTE_LINES rem
  let s := s.fsets (CAT_TRK h) [(CAT_TRK_WAIT, c.wait.length), (CAT_TRK_LOCKED, c.txns.length)]
  s.wr (CDB_QLINES h) (BitVec.ofNat 32 (if s.phase h = phUP then 0 else rem))

/-- The 1 MiB region of the image that a way lies in (R261). -/
def regionOf (i : Nat) : Nat := i / 16 / 4096

/-- Record regions of the image (R261).
[log 72, DEDUCED] -/
def recordRegions (s : State) (h : Half) (l : List Nat) : State :=
  s.modCdb h fun b => { b with regions := (l ++ b.regions).dedup }

/-- Is the mirror out of reach: unprotected (R188), or the bridge down for the moment (R261)?
[log 72, DEDUCED] -/
def mirrorAway (s : State) (h : Half) : Bool := s.flag (CDB_STAT h) CDB_STAT_MIRROR_UNPROT || s.phase h == phRETRAIN

/-- A change of way i follows to the mirror (R243): it waits behind the earlier ones; while the mirror is out of reach its region
is recorded instead (R261). On-chip entries have no mirror (R257). -/
def mirrorWrite (s : State) (h : Half) (i : Nat) (e : Option CatEnt) : State :=
  if s.flag (CAT_STAT h) CAT_STAT_IMG = false then s
  else if mirrorAway s h then recordRegions s h [regionOf i]
  else s.modCat h fun c => { c with mirQ := c.mirQ ++ [(i, entWord e)] }

/-- The pending mirror writes are made, in order (R243). -/
def mirrorSync (s : State) (h : Half) : State :=
  s.modCat h fun c => { c with mirror := c.mirQ.foldl (fun m e => minsert m e.1 e.2) c.mirror, mirQ := [] }

/-- The mirror goes out of reach: pending mirror writes are recorded as regions instead (R261).
[log 72, DEDUCED] -/
def mirrorLeft (s : State) (h : Half) : State :=
  let l := (s.cat.get h).mirQ.map fun e => regionOf e.1
  (recordRegions s h l).modCat h fun c => { c with mirQ := [] }

/-- The regions recorded are copied to the mirror (R194, R261).
[log 72, DEDUCED] -/
def mirrorCopy (s : State) (h : Half) : State :=
  let r := (s.cdb.get h).regions
  s.modCat h fun c =>
    { c with mirQ := c.mirQ.filter fun e => !r.contains (regionOf e.1),
             mirror := (c.ents.filter fun e => r.contains (regionOf e.1)).foldl (fun m e => minsert m e.1 (entWord (some e.2)))
               (c.mirror.filter fun e => !r.contains (regionOf e.1)) }

/-- Write or free an entry's way, in the image and then in the mirror (R243). -/
def putEnt (s : State) (h : Half) (i : Nat) (e : Option CatEnt) : State :=
  let s := s.modCat h fun c =>
    { c with ents := match e with
                     | some x => minsert c.ents i x
                     | none => merase c.ents i }
  catStat (mirrorWrite s h i e) h

/-- Transaction on a line. -/
def txnOf (s : State) (h : Half) (k : Nat) : Option Txn := mfind (s.cat.get h).txns k
def putTxn (s : State) (h : Half) (k : Nat) (t : Txn) : State :=
  catStat (s.modCat h fun c => { c with txns := minsert c.txns k t }) h
def dropTxn (s : State) (h : Half) (k : Nat) : State := catStat (s.modCat h fun c => { c with txns := merase c.txns k }) h

/-- A transaction that has just begun. -/
def newTxn (kind : CatKind) (m : Option Msg) : Txn :=
  ⟨kind, m, [], .none, .noop, none, [], 0, 0, false, 0, false, false, false, false⟩

/-- A line lock for a transaction of Kezen's own (R233): is one free? -/
def lockFree (s : State) (h : Half) : Bool := decide ((s.cat.get h).txns.length < 16384)

/-- The slot of an entry (R240). -/
def slotKey (w l way : Nat) : Nat := lsSet w l * 8 + way
def slotOf (s : State) (h : Half) (e : CatEnt) : Option LsSlot :=
  match e.slot with
  | some way => mfind (s.cat.get h).slots (slotKey e.win e.l way)
  | none => none

/-- A use stamp for replacement. -/
def catTick (s : State) (h : Half) : Nat × State :=
  ((s.cat.get h).clk, s.modCat h fun c => { c with clk := c.clk + 1 })

/-- Write data into a slot, the way just used (R248). -/
def slotPut (s : State) (h : Half) (w l way data : Nat) : State :=
  let r := catTick s h
  catStat (r.2.modCat h fun c => { c with slots := minsert c.slots (slotKey w l way) ⟨w, l, data, r.1, 0⟩ }) h

/-- A slot is read: its way is the one just used (R248). -/
def slotUse (s : State) (h : Half) (sl : LsSlot) (way : Nat) : State :=
  let r := catTick s h
  r.2.modCat h fun c => { c with slots := minsert c.slots (slotKey sl.win sl.l way) { sl with lru := r.1 } }

/-- Free a slot. -/
def slotFree (s : State) (h : Half) (w l way : Nat) : State :=
  catStat (s.modCat h fun c => { c with slots := merase c.slots (slotKey w l way) }) h

/-- A free way of the line's Line Store set (R248). -/
def freeSlotWay (s : State) (h : Half) (w l : Nat) : Option Nat :=
  (List.range 8).find? fun i => (mfind (s.cat.get h).slots (slotKey w l i)).isNone

/-- May a line of window w take a new slot (R238, R257)? None is taken while the Line Store is fenced (R416). -/
def lsAllowed (s : State) (h : Half) (w : Nat) : Bool :=
  s.flag (CAT_STAT h) CAT_STAT_IMG && !rotFenced s h 3 && s.flag (CAT_WIN_CTL h w) CAT_WIN_CTL_LS_EN && s.flag (CAT_CTL h) CAT_CTL_LS_GLOBAL

/-- Kezen writes a line to its device: a full-line MemWr with MetaField No-Op under an internal tag (R229, R238,
R249), whose target index is 2 with its number added.
[log 65, DEDUCED] -/
def devWrite (s : State) (h : Half) (k id data : Nat) (poison : Bool) : State :=
  let sub := winSub s h (lineWin k)
  originate s h 30 { blankMsg .memWr (unitNode h 30) sub k 0 (tcCat s h) with
    ld := winLd s h (lineWin k), tgt := ⟨0, id + 2, winBase s h (lineWin k) + 64 * lineL k⟩, len := 64, data := data,
    poison := poison, itag := some 0 }

/-- Kezen reads a line from its device for a request, or passes its write on (R229): a request of its own under an internal
tag (R104), marked by its target index.
[log 65, DEDUCED] -/
def devRead (s : State) (h : Half) (k : Nat) (m : Msg) (op : Op) : State :=
  let sub := winSub s h (lineWin k)
  let wr := op = .memWr ∨ op = .memWrPtl
  originate s h 30 { blankMsg op (unitNode h 30) sub k m.tenant m.tc with
    ld := winLd s h (lineWin k), itag := some 0, tgt := ⟨0, 1, if wr then m.tgt.addr else winBase s h (lineWin k) + 64 * lineL k⟩, len := if wr then m.len else 64,
    data := m.data, poison := m.poison, gen := m.gen }

/-- A write of the Catalogue's own on a line: it belongs to the line's transaction, or locks the line itself; its data is kept
until it has completed (R250). -/
def ownWrite (s : State) (h : Half) (k data : Nat) (bad : Bool) (use : WrUse) : State :=
  let r := catTick s h
  let t := (txnOf r.2 h k).getD (newTxn .recall none)
  devWrite (putTxn r.2 h k { t with writes := t.writes ++ [⟨r.1, data, bad, use⟩] }) h k r.1 data bad

/-- The way and the slot of a line.
[log 149, DEDUCED] -/
def lineSlot (s : State) (h : Half) (k : Nat) : Option (CatEnt × LsSlot) :=
  match findEnt s h k with
  | some (_, e) => (slotOf s h e).map fun x => (e, x)
  | none => none

/-- Write a line's slot to its device, with its poison (R247, R249, R251, R254).
 -/
def slotOut (s : State) (h : Half) (k : Nat) : State :=
  match lineSlot s h k with
  | some (e, sl) => ownWrite s h k sl.data e.psn .slot
  | none => s

/-- Start a Line Store eviction of a line (R249): the line is locked and its slot is written to the device. -/
def lsEvictStart (s : State) (h : Half) (sl : LsSlot) : State :=
  let k := lineKey sl.win sl.l
  tally (slotOut (putTxn s h k (newTxn .lsEvict none)) h k) h 3 3 sl.win 1

/-- May a slot be evicted: its way not barred, its window's target in service (R249, R250)? -/
def slotMayGo (s : State) (h : Half) (sl : LsSlot) : Bool := decide (sl.barred ≤ s.tn h) && inService s (winSub s h sl.win)

/-- May a Line Store eviction take a slot: its line not locked, and a lock free for it (R233, R248)? -/
def mayEvict (s : State) (h : Half) (sl : LsSlot) : Bool :=
  (txnOf s h (lineKey sl.win sl.l)).isNone && lockFree s h && slotMayGo s h sl

/-- The least recently used evictable slot of a Line Store set. -/
def lruSlot (s : State) (h : Half) (w l : Nat) : Option LsSlot :=
  ((List.range 8).filterMap fun i => mfind (s.cat.get h).slots (slotKey w l i)).foldl (fun b x =>
    if mayEvict s h x then
      match b with
      | none => some x
      | some y => if x.lru < y.lru then some x else some y
    else b) none

/-- A line asks for a slot: a free way, or none and an eviction begins for the next line (R248). -/
def lsAlloc (s : State) (h : Half) (w l : Nat) : Option Nat × State :=
  match freeSlotWay s h w l with
  | some way => (some way, s)
  | none =>
    match lruSlot s h w l with
    | some sl => (none, lsEvictStart s h sl)
    | none => (none, s)

/-- Give the line's entry a slot way and its PSN. -/
def entSlot (s : State) (h : Half) (k : Nat) (way : Nat) (psn : Bool) : State :=
  match findEnt s h k with
  | some (i, e) => putEnt s h i (some { e with slot := some way, psn := psn })
  | none => s

/-- Data goes into a slot of the line, one it has or a new one (R238, R251). -/
def slotFill (s : State) (h : Half) (k way data : Nat) (psn : Bool) : State :=
  entSlot (slotPut s h (lineWin k) (lineL k) way data) h k way psn

/-- Poison a line (R251): with a slot kept or taken, else by a poisoned write to the device. The value is lost: its data is a
free value.
[log 149, DEDUCED] -/
def poisonLine (s : State) (h : Half) (k : Nat) : State :=
  let s := s.fbump (CAT_ERRCNT3 h) CAT_ERRCNT3_POISON_CNT 1
  let r := s.draw
  match findEnt s h k with
  | none => ownWrite r.2 h k r.1 true .poison
  | some (i, e) =>
    match e.slot with
    | some _ => putEnt s h i (some { e with psn := true })
    | none =>
      match (if lsAllowed s h e.win then freeSlotWay s h e.win e.l else none) with
      | some way => slotFill r.2 h k way r.1 true
      | none => ownWrite r.2 h k r.1 true .poison

end Sys2Proof.Machine
end

