-- ==== Sys2Proof/Machine/CatTxn.lean ====
section
/-! DEFINITION. The transactions of the Catalogue (spec 08): the kinds of request, snoops, write-backs, the transitions of R234 from
their start to their end, capacity evictions, and the jobs of a pass. -/

namespace Sys2Proof.Machine

open Sys2Proof

/-- The response message to a request that the Catalogue serves (R235): to a host, with the larger of the device's DevLoad and
that of its sub-port (R128); one bound across is discarded while the halves are parted (R185). An internal request's end is left
for its unit. A posted write has none.
[log 115, DEDUCED; log 137, DEDUCED] -/
def catRespond (s : State) (h : Half) (m : Msg) (grant : Hold) (data : Nat) (poison : Bool) (load : Nat) (ok : Bool) : State :=
  match m.itag with
  | some e =>
    match mfind s.net.itags e with
    | some x => endFlight ((freeItagEnt s e).modNet fun n => { n with idone := n.idone ++ [⟨x.own, x.half, x.tenant, ok, data, poison⟩] }) m
    | none => s
  | none =>
    let op : Option Op := match m.op with
      | .memRd | .memRdData => some .drs
      | .memInv | .memClnEvct | .memWr | .memWrPtl => some .ndr
      | .mRd | .atomic => some .cpl
      | _ => none
    match op with
    | none => endFlight s m
    | some op =>
      let r := { blankMsg op (unitNode h 30) m.src m.tag m.tenant m.tc with
        ld := m.ld, tgt := ⟨7, if op = .cpl then 0 else max load (levelOf s m), if poison then rkPOISON else rkOK⟩,
        len := m.len, data := data, poison := poison, hold := grant, gen := m.gen, attr := m.attr, checked := m.checked,
        slots := msgSlots op m.len false }
      if 128 ≤ m.src then s
      else if nodeHalf m.src ≠ h ∧ s.phase h ≠ phRETRAIN ∧ bridgeCarries s h r = false then endFlight s m
      else originate s h 30 r

/-- The kind of a request (R229), given whether its requester is the line's exclusive holder.
[log 61, DEDUCED; log 150, DESIGN CHOICE] -/
def catKind (m : Msg) (byOwner : Bool) : CatKind :=
  match m.op with
  | .memRd | .memRdData =>
    (match m.hold with
     | .s => .rdS
     | .i => .rdCur
     | .noop => .rdAny
     | .a => if m.snp = .inv ∧ m.op = .memRd then .rdOwn else .rdAny)
  | .memInv => if m.hold = .i then .evict else .own
  | .memClnEvct => .evict
  | .mRd => .rdCur
  | .memWr => if byOwner && m.len == 64 then .wb else .wr
  | _ => .wr

/-- Kinds that return data; allocating kinds (R229); reads in R245 and R186. -/
def needsData : CatKind → Bool
  | .rdS | .rdAny | .rdOwn | .rdCur => true
  | _ => false
def allocating : CatKind → Bool
  | .rdS | .rdAny | .rdOwn | .own => true
  | _ => false

/-- The tenant a request makes a holder: that of a host's CXL.mem request; agents without caches are none. -/
def reqHolder (m : Msg) : Option Nat := if opIsIo m.op || decide (128 ≤ m.src) then none else some m.tenant

/-- The snoop of a transaction and the holders it goes to (R234). -/
def snoopPlan (m : Msg) (kind : CatKind) (e : CatEnt) : Snp × List Nat :=
  let r := reqHolder m
  let others := (holders e).filter fun t => some t ≠ r
  if e.excl then
    if others = [] then (.none, [])
    else match kind with
      | .rdS | .rdAny => (.data, others)
      | .rdCur => (.cur, others)
      | .rdOwn | .own | .wr => (.inv, others)
      | _ => (.none, [])
  else match kind with
    | .rdOwn | .own => (.inv, others)
    | .wr => (.inv, if m.op = .memWr ∧ m.len = 64 then others else holders e)
    | _ => (.none, [])

/-- Does a full-line MemWr make its writer a shared holder (R234)? -/
def wrShares (m : Msg) : Bool := m.op = .memWr && m.len == 64 && m.hold = .s

/-- The snoop of line k, its copies to the sub-ports `mc`, the first of them d (R159, R234). -/
def snoopMsg (s : State) (h : Half) (k : Nat) (snp : Snp) (d : Nat) (mc : List Nat) : Msg :=
  { blankMsg .biSnp (unitNode h 30) d k 0 (tcCat s h) with
    ld := winLd s h (lineWin k), tgt := ⟨0, 0, winBase s h (lineWin k) + 64 * lineL k⟩, len := 64, snp := snp, mc := mc, slots := 1 }

/-- Send a snoop to holders as one multicast message (R159, spec 08): the copies for sub-ports in service. -/
def sendSnoops (s : State) (h : Half) (k : Nat) (snp : Snp) (ts : List Nat) : State :=
  let nodes := ts.filterMap fun t => uspOf s h t
  match nodes with
  | [] => s
  | d :: _ =>
    tally (originate s h 30 (snoopMsg s h k snp d nodes)) h 3 4 (lineWin k) nodes.length

/-- The holders a snoop can reach: those with an upstream sub-port in service. -/
def snoopable (s : State) (h : Half) (ts : List Nat) : List Nat :=
  ts.filter fun t => match uspOf s h t with
    | some d => inService s d
    | none => false

/-- A slot of the line is gone: O becomes S, M becomes E (R249). -/
def slotGone (s : State) (h : Half) (k : Nat) : State :=
  match findEnt s h k with
  | some (i, e) =>
    (match e.slot with
     | some way => putEnt (slotFree s h e.win e.l way) h i (some { e with slot := none, psn := false })
     | none => s)
  | none => s

/-- Remove a holder from a line's entry. -/
def dropHolder (s : State) (h : Half) (k t : Nat) : State :=
  match findEnt s h k with
  | some (i, e) => putEnt s h i (some { e with hold := holdClr e.hold t, excl := if bitB e.hold t then false else e.excl })
  | none => s

/-- A snoop copy is lost: taken as BIRspI with no write-back; an exclusive holder's changes are lost and the
line is poisoned (R252). -/
def lostHolder (s : State) (h : Half) (k t : Nat) : State :=
  match txnOf s h k with
  | none => s
  | some x =>
    let was := match findEnt s h k with
      | some (_, e) => e.excl && bitB e.hold t && (x.wb.isNone || x.kind == .reconcile)
      | none => false
    let s := dropHolder s h k t
    let s := if was then poisonLine s h k else s
    match txnOf s h k with
    | some x => putTxn s h k { x with pend := x.pend.erase t, keep := .i, lost := x.lost || was }
    | none => s

/-- A free way of a set. -/
def freeWay (s : State) (h : Half) (set : Nat) : Option Nat :=
  (setKeys set).find? fun i => (mfind (s.cat.get h).ents i).isNone

/-- The ways of a set that may be a victim: not locked, not quarantined (R246), not taken for a request in progress; one with a
slot only where the slot may go (R249, R250). -/
def victimWays (s : State) (h : Half) (set : Nat) : List (Nat × CatEnt) :=
  (setKeys set).filterMap fun i =>
    match mfind (s.cat.get h).ents i with
    | some e =>
      if entValid e && (txnOf s h (lineKey e.win e.l)).isNone && !quarantined s h e && (slotOf s h e).all (slotMayGo s h) then some (i, e)
      else none
    | none => none

/-- The order of states among victims: S, E, O, M (R246). -/
def victimRank (e : CatEnt) : Nat :=
  match entState e with
  | 1 => 0
  | 2 => 1
  | 4 => 2
  | _ => 3

/-- The victim of a set (R246): lowest AGE, then state, then way. -/
def chooseVictim (l : List (Nat × CatEnt)) : Option (Nat × CatEnt) :=
  l.foldl (fun b x =>
    match b with
    | none => some x
    | some y => if x.2.age * 4 + victimRank x.2 < y.2.age * 4 + victimRank y.2 then some x else some y) none

/-- When no candidate has AGE 0, every AGE in the set falls by one (R246). -/
def ageSet (s : State) (h : Half) (set : Nat) : State :=
  if (victimWays s h set).any fun x => x.2.age == 0 then s
  else (setKeys set).foldl (fun s i =>
    match mfind (s.cat.get h).ents i with
    | some e => putEnt s h i (some { e with age := e.age - 1 })
    | none => s) s

/-- Does a request for window w wait in the wait pool (R233); any, for w = 0xFF?
[log 76, DESIGN CHOICE] -/
def winWaits (s : State) (h : Half) (w : Nat) : Bool :=
  (s.cat.get h).wait.any fun n => w == 0xFF || (s.msg n).any fun m => (pieceWin s m.tgt).any fun x => x.2 == w

/-- A request is about to join the wait pool: the pool, or its part for the request's window, turns not empty (R435, R436).
[log 76, DESIGN CHOICE] -/
def waitRise (s : State) (h : Half) (m : Msg) : State :=
  match pieceWin s m.tgt with
  | none => s
  | some x =>
    if winWaits s h x.2 then s
    else
      let any := winWaits s h 0xFF
      (s.phm.get h).sel.foldl (fun s e =>
        if bitB (s.phm.get h).grp (e.1 / 16) && selNames e.2 3 5 x.2 && selMode e.2 == 1 && !(any && selInst e.2 == 0xFF)
        then phmAdd s h e.1 1 else s) s

/-- A message joins the wait pool (R233). -/
def waitPool (s : State) (h : Half) (m : Msg) (front : Bool) : State :=
  let s := waitRise s h m
  let r := newMsg s m
  catStat (r.2.modCat h fun c => { c with wait := if front then r.1 :: c.wait else c.wait ++ [r.1] }) h

/-- What the finished transaction leaves in the line's entry (R234).
[log 61, DEDUCED] -/
def finalEnt (t : Txn) (m : Msg) (e : CatEnt) : CatEnt :=
  let r := reqHolder m
  let add := fun (x : CatEnt) (ex : Bool) => match r with
    | some q => if ex then { x with hold := 2 ^ q, excl := true } else { x with hold := holdSet x.hold q, excl := false }
    | none => x
  match t.kind with
  | .rdS => add { e with excl := false } false
  | .rdAny => add { e with excl := false } t.asI
  | .rdOwn | .own => add e true
  | .wr => let x := { e with hold := 0, excl := false }
           if wrShares m then add x false else x
  | .wb =>
    (match m.hold with
     | .a | .noop => e
     | .s => { e with excl := false }
     | .i => { e with hold := 0, excl := false })
  | .evict =>
    (match r with
     | some q => { e with hold := holdClr e.hold q, excl := if bitB e.hold q then false else e.excl }
     | none => e)
  | _ => e

/-- An entry with no holder and no slot is freed; otherwise it is kept (R232, R234). -/
def settleEnt (s : State) (h : Half) (i : Nat) (e : CatEnt) : State :=
  putEnt s h i (if e.hold = 0 ∧ e.slot.isNone then none else some e)

/-- The grant of the response message (R235): Cmp-E (`a`) or Cmp-S (`s`) for an allocating read, else Cmp. -/
def grantOf (t : Txn) (m : Msg) (e : CatEnt) : Hold :=
  match t.kind with
  | .rdS => .s
  | .rdAny => if (finalEnt t m e).excl then .a else .s
  | .rdOwn => .a
  | _ => .noop

/-- A line with the `len` bytes at address a replaced by v.
[log 150, DESIGN CHOICE] -/
def lineMerge (line a len v : Nat) : Nat :=
  let o := 2 ^ (8 * (a % 64))
  let n := 2 ^ (8 * len)
  line % o + v % n * o + line / (o * n) * (o * n)

/-- The `len` bytes of a line at address a. -/
def lineSlice (line a len : Nat) : Nat := line / 2 ^ (8 * (a % 64)) % 2 ^ (8 * len)

/-- End a request's transaction: the entry of R234, the response, the lock released (R233, R235). A supply from the Line
Store travels in the Catalogue's own class (R319). -/
def finishReq (s : State) (h : Half) (k : Nat) (t : Txn) (m : Msg) : State :=
  let m := if t.devRd = 2 then { m with tc := tcCat s h } else m
  let r : Nat × State := if m.op = .atomic then s.draw else (lineSlice t.data m.tgt.addr m.len, s)
  match findEnt r.2 h k with
  | some (i, e) =>
    catRespond (dropTxn (settleEnt r.2 h i (finalEnt t m e)) h k) h m (grantOf t m e) r.1 (t.poison || t.lost || e.psn) t.load true
  | none =>
    let e0 : CatEnt := ⟨lineWin k, lineL k, 0, false, none, false, 2⟩
    let e1 := finalEnt t m e0
    let s := match (if e1.hold = 0 then none else freeWay r.2 h (setOf r.2 h (lineWin k) (lineL k))) with
      | some i => putEnt r.2 h i (some e1)
      | none => r.2
    catRespond (dropTxn s h k) h m (grantOf t m e0) r.1 (t.poison || t.lost) t.load true

/-- The line of a message, in a window in use. -/
def msgLine (s : State) (h : Half) (m : Msg) : Option Nat :=
  (findWin s h (memSub m.tgt.idx) (memLd m.tgt.idx) m.tgt.addr).map fun w => lineKey w ((m.tgt.addr - winBase s h w) / 64)

/-- Take a way for a line, with AGE 2 and no holder yet (R246).
[log 152, DEDUCED] -/
def reserveWay (s : State) (h : Half) (k set : Nat) : State :=
  match freeWay s h set with
  | some i => putEnt s h i (some ⟨lineWin k, lineL k, 0, false, none, false, 2⟩)
  | none => s

/-- End a capacity eviction (R247): the way is free, and the request that waited for it takes it; it goes on from the head of the
wait pool. A disabled line's entry ends in the same way and nothing waits for it (R254).
[log 152, DEDUCED] -/
def finishCap (s : State) (h : Half) (k : Nat) (t : Txn) : State :=
  let s := match findEnt s h k with
    | some (i, _) => putEnt s h i none
    | none => s
  let s := dropTxn s h k
  match t.msg with
  | some m =>
    let s := match msgLine s h m with
      | some q => if (findEnt s h q).isNone then reserveWay s h q (setOf s h (lineWin q) (lineL q)) else s
      | none => s
    waitPool s h m true
  | none => s

/-- End a Line Store eviction, a recall or a reconciliation (R249, R254, R260): an entry with neither holder nor slot is
freed. -/
def finishOwn (s : State) (h : Half) (k : Nat) : State :=
  let s := match findEnt s h k with
    | some (i, e) => settleEnt s h i e
    | none => s
  dropTxn s h k

/-- Merge a write into a slot (R234): the bytes it carries replace the slot's; a full line clears PSN, a partial write leaves it
(R251).
[log 150, DESIGN CHOICE] -/
def mergeWrite (s : State) (h : Half) (k : Nat) (e : CatEnt) (way : Nat) (m : Msg) : State :=
  let old := ((mfind (s.cat.get h).slots (slotKey e.win e.l way)).map fun x => x.data).getD 0
  slotFill s h k way (lineMerge old m.tgt.addr m.len m.data) (m.poison || (e.psn && m.len != 64))

/-- Carry out the write of a Wr (R234): into the slot if there is one, else to the device.
[log 149, DEDUCED; log 150, DESIGN CHOICE] -/
def doWrite (s : State) (h : Half) (k : Nat) (t : Txn) (m : Msg) : State :=
  let dev := putTxn (devRead s h k m (if m.op = .memWrPtl ∨ m.len < 64 then .memWrPtl else .memWr)) h k { t with done := true, devWr := true }
  match findEnt s h k with
  | some (_, e) =>
    (match e.slot with
     | some way => putTxn (mergeWrite s h k e way m) h k { t with done := true }
     | none => dev)
  | none => dev

/-- Obtain a read's data (R234): the slot's, or the device's by a read. -/
def getData (s : State) (h : Half) (k : Nat) (t : Txn) (m : Msg) : State :=
  match lineSlot s h k with
  | some (e, sl) => putTxn (slotUse s h sl (e.slot.getD 0)) h k { t with devRd := 2, data := sl.data }
  | none => putTxn (devRead s h k m .memRd) h k { t with devRd := 1 }

/-- The stage a transaction has reached. -/
inductive Stage where
  | snoops | read | write | slotOut | device | finish
  deriving DecidableEq, Repr

/-- The next stage of a transaction (R235). -/
def stageOf (s : State) (h : Half) (k : Nat) (t : Txn) : Stage :=
  if t.pend ≠ [] then .snoops
  else if needsData t.kind && t.devRd == 0 && t.wb.isNone then .read
  else if t.kind = .wr ∧ t.done = false then .write
  else if t.kind = .capEvict ∧ t.done = false ∧ (lineSlot s h k).isSome then .slotOut
  else if t.devRd = 1 ∨ t.devWr ∨ t.writes ≠ [] then .device
  else .finish

/-- Carry out the finishing stage. -/
def finishTxn (s : State) (h : Half) (k : Nat) (t : Txn) : State :=
  match t.kind, t.msg with
  | .capEvict, _ => finishCap s h k t
  | .lsEvict, _ => finishOwn s h k
  | .recall, _ => finishOwn s h k
  | .reconcile, _ => finishOwn s h k
  | _, some m => finishReq s h k t m
  | _, none => finishOwn s h k

/-- One stage of a transaction's progress. -/
def stageStep (s : State) (h : Half) (k : Nat) (t : Txn) : State :=
  match stageOf s h k t with
  | .snoops => s
  | .device => s
  | .read => match t.msg with
    | some m => getData s h k t m
    | none => s
  | .write => match t.msg with
    | some m => doWrite s h k t m
    | none => s
  | .slotOut => slotOut (putTxn s h k { t with done := true }) h k
  | .finish => finishTxn s h k t

/-- Carry a transaction on as far as it goes without waiting: at most a read or write stage and the end. -/
def catAdvance (s : State) (h : Half) (k : Nat) : State :=
  (List.range 3).foldl (fun s _ =>
    match txnOf s h k with
    | some t => stageStep s h k t
    | none => s) s

/-- The transaction of line k has a write-back's data (R237). -/
def wbNote (s : State) (h : Half) (k : Nat) (m : Msg) : State :=
  match txnOf s h k with
  | some t => putTxn s h k { t with wb := some m.data, data := m.data, poison := m.poison }
  | none => s

/-- Absorb data (R238) for a write-back that is answered once it is done (R235): into the line's slot, into a new slot, or to the
device. -/
def absorb (s : State) (h : Half) (k data : Nat) (bad : Bool) (wb : Option Msg) : State :=
  let done := fun (s : State) => match wb with
    | some m => catRespond s h m .noop 0 false 0 true
    | none => s
  match findEnt s h k with
  | none => ownWrite s h k data bad (.absorb wb)
  | some (_, e) =>
    match e.slot with
    | some way => done (slotFill s h k way data bad)
    | none =>
      if lsAllowed s h e.win then
        let r := lsAlloc s h e.win e.l
        match r.1 with
        | some way => done (slotFill r.2 h k way data bad)
        | none => ownWrite r.2 h k data bad (.absorb wb)
      else ownWrite s h k data bad (.absorb wb)

/-- Is this message the write-back of a holder that a snoop of the line awaits (R237)?
[log 61, DEDUCED] -/
def isWriteBack (s : State) (h : Half) (k : Nat) (m : Msg) : Bool :=
  match txnOf s h k with
  | some t => m.op = .memWr && m.len == 64 && t.pend.contains m.tenant && decide (m.src < 128)
  | none => false

/-- A holder's write-back joins the transaction (R237): its data is the current value and is absorbed. -/
def takeWriteBack (s : State) (h : Half) (k : Nat) (m : Msg) : State :=
  absorb (wbNote s h k m) h k m.data m.poison (some m)

/-- The write-backs of a line's snooped holders that waited for its lock when the snoop was sent, before any answer to it
(R237).
[log 152, DEDUCED] -/
def poolWriteBacks (s : State) (h : Half) (k : Nat) : State :=
  (s.cat.get h).wait.foldl (fun s n =>
    match s.msg n with
    | none => s
    | some m =>
      if msgLine s h m = some k ∧ isWriteBack s h k m then
        takeWriteBack (catStat ((dropMsg s n).modCat h fun c => { c with wait := c.wait.erase n }) h) h k m
      else s) s

/-- Begin a transaction with its snoops (R233, R234): holders out of reach count as lost. -/
def beginTxn (s : State) (h : Half) (k : Nat) (t : Txn) (snp : Snp) (ts : List Nat) : State :=
  let reach := snoopable s h ts
  let s := poolWriteBacks (putTxn s h k { t with snp := snp, pend := ts }) h k
  let s := (ts.filter fun x => !reach.contains x).foldl (fun s x => lostHolder s h k x) s
  catAdvance (sendSnoops s h k snp reach) h k

/-- A hit sets AGE to 3 (R246). -/
def touchEnt (s : State) (h : Half) (k : Nat) : State :=
  match findEnt s h k with
  | some (i, e) => if e.age = 3 then s else putEnt s h i (some { e with age := 3 })
  | none => s

/-- A capacity eviction for a request (R246, R247); with no way that qualifies, or no lock, the request waits. -/
def capEvict (s : State) (h : Half) (set : Nat) (m : Msg) (front : Bool) : State :=
  let s := ageSet s h set
  match (if lockFree s h then chooseVictim (victimWays s h set) else none) with
  | none => waitPool s h m front
  | some (_, e) =>
    let s := tally s h 3 2 e.win 1
    beginTxn s h (lineKey e.win e.l) (newTxn .capEvict (some m)) .inv (holders e)

/-- The taint of a set (R245). -/
def tainted (s : State) (h : Half) (set : Nat) : Bool :=
  (List.range 16).any fun i =>
    s.flag (CAT_TAINT h i) CAT_TAINT_VALID && s.fget (CAT_TAINT h i) CAT_TAINT_SET == set

/-- The answer to a request that may concern a lost entry or a quarantined line (R186, R245): a read completes
with Poison, its data a free value; anything else receives the synthetic error completion, an internal request an error. -/
def badLine (s : State) (h : Half) (m : Msg) (kind : CatKind) : State :=
  if needsData kind then
    let r := s.draw
    catRespond r.2 h m .noop r.1 true 0 true
  else if kind = .evict then catRespond s h m .noop 0 false 0 true
  else if m.itag.isSome then catRespond s h m .noop 0 false 0 false
  else synthReport s m (levelOf s m)

/-- A denied write that is no snooped holder's write-back: the fault stands (R304). -/
def deniedWrite (s : State) (m : Msg) : State :=
  let h := nodeHalf m.src
  let s := umpFault s h m.tenant pW m.tgt none
  endFlight (aerMsg (sendRsp s m .ndr rkCMP (levelOf s m)) m.tenant 32 aerACS m) m

/-- Does window w wait for a scrub of the request's tenant to start (R256)? -/
def scrubQueued (s : State) (h : Half) (t : Nat) : Bool := (s.cat.get h).jobs.contains (.scrub t)

/-- Whether a lookup finds its set in the on-chip cache (R242), and the cache after it: 8 ways over SET[14:0],
least recently used out.
[log 67, DESIGN CHOICE] -/
def cacheLook (l : List Nat) (set : Nat) : Bool × List Nat :=
  let rest := l.filter fun x => x ≠ set
  let same := (rest.filter fun x => x % 2 ^ 15 = set % 2 ^ 15).take 7
  (l.contains set, set :: rest.filter fun x => x % 2 ^ 15 ≠ set % 2 ^ 15 ∨ same.contains x)

/-- A lookup counts as a cache hit or an image lookup (R436), and a hit sets AGE (R246).
[log 67, DESIGN CHOICE] -/
def lookup (s : State) (h : Half) (k set : Nat) : State :=
  let w := lineWin k
  touchEnt (if s.flag (CAT_STAT h) CAT_STAT_IMG then
    let r := cacheLook (s.cat.get h).cache set
    let s := s.modCat h fun c => { c with cache := r.2 }
    tally s h 3 (if r.1 then 0 else 1) w 1
  else tally s h 3 0 w 1) h k

/-- Does a request of this kind need a way of its own (R234)? -/
def needsWay (m : Msg) (kind : CatKind) : Bool := allocating kind || (kind == .wr && wrShares m)

/-- Serve a request to an unlocked line (R234); one that has waited in the pool already goes back to its head. -/
def serveReq (s : State) (h : Half) (k : Nat) (m : Msg) (front : Bool) : State :=
  let set := setOf s h (lineWin k) (lineL k)
  match findEnt s h k with
  | some (_, e) =>
    let own := e.excl && (reqHolder m).any fun t => bitB e.hold t
    let kind := catKind m own
    if quarantined s h e then badLine s h m kind
    else if kind = .wb then catAdvance (absorb (putTxn s h k (newTxn .wb (some m))) h k m.data m.poison none) h k
    else
      let p := snoopPlan m kind e
      beginTxn s h k { newTxn kind (some m) with asI := own || !entValid e } p.1 p.2
  | none =>
    let kind := catKind m false
    if tainted s h set then badLine s h m kind
    else if needsWay m kind && (freeWay s h set).isNone then capEvict s h set m front
    else beginTxn (if needsWay m kind then reserveWay s h k set else s) h k { newTxn kind (some m) with asI := true } .none []

/-- A SpecRd is forwarded in states I, S and E and discarded in O and M (R231). -/
def specRead (s : State) (h : Half) (k : Nat) (m : Msg) : State :=
  match findEnt s h k with
  | some (_, e) => if e.slot.isSome then endFlight s m else endFlight (devRead s h k m .memSpecRd) m
  | none => endFlight (devRead s h k m .memSpecRd) m

/-- A tenant's scrubs queued or running (CAT_SCRUB, R256). -/
def jobTenants (l : List CatJob) : Nat :=
  l.foldl (fun m j => match j with
    | .scrub t => m ||| 2 ^ t
    | _ => m) 0
def scrubStat (s : State) (h : Half) : State :=
  s.wr64 (CAT_SCRUB_LO h) (jobTenants ((s.cat.get h).jobs ++ (s.cat.get h).pass.getD []))

/-- Queue a job for the next pass (R254).
[log 151, DEDUCED] -/
def queueJob (s : State) (h : Half) (j : CatJob) : State :=
  if (s.cat.get h).jobs.contains j then s else scrubStat (s.modCat h fun c => { c with jobs := c.jobs ++ [j] }) h

/-- Scrub a tenant from an entry (R254). -/
def scrubEnt (s : State) (h : Half) (i : Nat) (e : CatEnt) (t : Nat) : State :=
  let k := lineKey e.win e.l
  if bitB e.hold t = false ∨ (quarantined s h e && remoteTenant s h t) then s
  else if e.excl && (txnOf s h k).isNone && !lockFree s h then queueJob s h (.scrub t)
  else
    let s := if e.excl then poisonLine s h k else s
    match mfind (s.cat.get h).ents i with
    | some e => settleEnt s h i { e with hold := holdClr e.hold t, excl := false }
    | none => s

/-- Disable's action on an unlocked entry of the window (R254, R255): the line is locked while its slot goes to the device, and
the entry is freed. While the target is out of service a slot and its entry stay.
[log 151, DEDUCED] -/
def disableEnt (s : State) (h : Half) (i : Nat) (e : CatEnt) : State :=
  if e.slot.isNone then putEnt s h i none
  else if inService s (winSub s h e.win) && lockFree s h then
    catAdvance (putTxn s h (lineKey e.win e.l) (newTxn .capEvict none)) h (lineKey e.win e.l)
  else s

/-- A job's action on the entry at way i (R254). A recall of a locked line is left to the next pass.
[log 66, DEDUCED] -/
def jobEnt (s : State) (h : Half) (i : Nat) (j : CatJob) : State :=
  match mfind (s.cat.get h).ents i with
  | none => s
  | some e =>
    match j with
    | .scrub t => scrubEnt s h i e t
    | .recall t w =>
      if e.win = w ∧ bitB e.hold t ∧ ¬ (quarantined s h e ∧ remoteTenant s h t) then
        if (txnOf s h (lineKey e.win e.l)).isSome ∨ lockFree s h = false then queueJob s h j
        else beginTxn s h (lineKey e.win e.l) (newTxn .recall none) .inv [t]
      else s
    | .disable w _ => if e.win = w ∧ (txnOf s h (lineKey e.win e.l)).isNone then disableEnt s h i e else s

/-- The walker, or a lookup ahead of it, treats a set once in a pass (R254).
[log 66, DEDUCED] -/
def walkSet (s : State) (h : Half) (set : Nat) : State :=
  match (s.cat.get h).pass with
  | none => s
  | some js =>
    if (s.cat.get h).passDone.contains set then s
    else
      let s := s.modCat h fun c => { c with passDone := set :: c.passDone }
      js.foldl (fun s j => (setKeys set).foldl (fun s i => jobEnt s h i j) s) s

/-- A request that needs a slot while the Line Store is fenced waits (R416). -/
def slotFenced (s : State) (h : Half) (k : Nat) : Bool :=
  rotFenced s h 3 && ((findEnt s h k).any fun x => x.2.slot.isSome)

/-- Does a request for line k wait ahead of a new one (R233): in the pool, unless its tenant's scrub holds it back (R256), or for
the way of a victim (R247)? -/
def lineAwaited (s : State) (h : Half) (k : Nat) : Bool :=
  ((s.cat.get h).wait.any fun n => (s.msg n).any fun m => msgLine s h m == some k && !scrubQueued s h m.tenant)
    || (s.cat.get h).txns.any fun e => e.2.kind == .capEvict && e.2.msg.any fun m => msgLine s h m == some k

/-- A request to a window's line (R233): it waits for a lock, or behind an earlier request for the line, or for its tenant's scrub,
or is served. `late`: it arrived behind its own tenant's answer to a snoop of the line (R237). -/
def catRequest (s : State) (h : Half) (m : Msg) (w : Nat) (late : Bool) : State :=
  let k := lineKey w ((m.tgt.addr - winBase s h w) / 64)
  let s := walkSet s h (setOf s h w (lineL k))
  let s := lookup s h k (setOf s h w (lineL k))
  if m.op = .memSpecRd then specRead s h k m
  else if (s.cat.get h).taintFull then badLine s h m (catKind m false)
  else if isWriteBack s h k m && !late then takeWriteBack s h k m
  else if m.deny then deniedWrite s m
  else if scrubQueued s h m.tenant || slotFenced s h k || (txnOf s h k).isSome || lineAwaited s h k || !lockFree s h then waitPool s h m false
  else serveReq s h k m false

end Sys2Proof.Machine
end

