-- ==== Sys2Proof/Machine/Catalogue.lean ====
section
/-! DEFINITION. The Catalogue's commands (spec 08). -/

namespace Sys2Proof.Machine

open Sys2Proof

/-- The first message of a station's input of which `f` holds. -/
def inboxFind (s : State) (h : Half) (st : Nat) (f : Msg → Bool) : Option (Nat × Msg) :=
  (lget (s.core.get h).inbox st).findSome? fun n =>
    match s.msg n with
    | some m => if f m then some (n, m) else none
    | none => none

/-- Take a message from a station's input. -/
def inboxTake (s : State) (h : Half) (st n : Nat) : State :=
  (dropMsg s n).modCore h fun c => { c with inbox := lset c.inbox st ((lget c.inbox st).erase n) }

/-- The taint list (R245): a free place, or none and a fatal Catalogue event with its reaction (R413).
[log 68, DEDUCED] -/
def taintSet (s : State) (h : Half) (set : Nat) : State :=
  match (List.range 16).find? fun i => !s.flag (CAT_TAINT h i) CAT_TAINT_VALID with
  | some i =>
    (s.fsets (CAT_TAINT h i) [(CAT_TAINT_VALID, 1), (CAT_TAINT_SET, set)]).fset (CAT_STAT h) CAT_STAT_TAINTED 1
  | none =>
    let s := raise (s.modCat h fun c => { c with taintFull := true }) h (evt 10 4 0 set)
    let ts := ((s.binds.get h).vb.filter fun b => (List.range 64).any fun w => winUsed s h w && winSub s h w == b.2.sub).map
      fun b => b.1 / 32
    ts.dedup.foldl setViral s

/-- An entry is lost and its set tainted (R244).
[log 68, DEDUCED] -/
def loseEntry (s : State) (h : Half) (set way : Nat) : State :=
  let s := s.fbump (CAT_ERRCNT0 h) CAT_ERRCNT0_ECC_UNC 1
  let s := raise s h (evt 10 3 0 set)
  taintSet (putEnt s h (set * 16 + way % 16) none) h set

/-- May the mirror repair way i of the image (R244): in full service, protected, and not in a region that has still to be copied?
[log 72, DEDUCED] -/
def mirrorGood (s : State) (h : Half) (i : Nat) : Bool :=
  s.flag (CAT_STAT h) CAT_STAT_IMG && !mirrorAway s h && !(s.cdb.get h).regions.contains (regionOf i)

/-- Way i of the image is read from the mirror, after the mirror's pending writes, and rewritten (R243, R244). -/
def imageRepair (s : State) (h : Half) (i : Nat) : State :=
  let s := mirrorSync s h
  let e := (mfind (s.cat.get h).mirror i).bind wordEnt
  catStat (s.modCat h fun c => { c with ents := match e with
                                               | some x => minsert c.ents i x
                                               | none => merase c.ents i }) h

/-- Errors that a lookup finds (R244): a cached entry is read again from the image, an image entry from the mirror.
[log 147, DESIGN CHOICE] -/
def catEcc (s : State) (h : Half) (set : Nat) (e : CatEcc) : State :=
  match e with
  | .clean => s
  | .corrected b => raise (s.fbump (CAT_ERRCNT0 h) CAT_ERRCNT0_ECC_CORR 1) h (evtU 10 5 b 2 b set)
  | .image u => raise (s.fbump (CAT_ERRCNT0 h) CAT_ERRCNT0_ECC_CORR 1) h (evtU 16 5 u 5 u set)
  | .double way image =>
    let i := set * 16 + way % 16
    let s' := s.fbump (CAT_ERRCNT1 h) CAT_ERRCNT1_REPAIR_CNT 1
    if image = false ∧ s.flag (CAT_STAT h) CAT_STAT_IMG then s'.modCat h fun c => { c with cache := c.cache.filter fun x => x ≠ set }
    else if mirrorGood s h i then imageRepair s' h i
    else loseEntry s h set way

/-- A request that reached the Catalogue and lies in no window any more is forwarded with no Catalogue action
(R224). -/
def catForward (s : State) (h : Half) (m : Msg) : State := originate s h 30 { m with dst := memSub m.tgt.idx }

/-- Has the answer of message m's tenant to a snoop of its line come before it (R237)? -/
def behindRsp (s : State) (h : Half) (n : Nat) (m : Msg) : Bool :=
  ((lget (s.core.get h).inbox 30).takeWhile fun x => x != n).any fun x =>
    (s.msg x).any fun b => b.op == .biRsp && b.tenant == m.tenant && msgLine s h m == some b.tag

/-- CATALOGUE_REQUEST (R234): the next request at the Catalogue of half h. -/
def execCatalogueRequest (h : Half) (ecc : CatEcc) (s : State) : Host.Outcome State Fault Refusal :=
  match inboxFind s h 30 fun m => m.op ≠ .biRsp with
  | none => .next s
  | some (n, m) =>
    if catRoom s h = false then .next s
    else
      let late := behindRsp s h n m
      let s := inboxTake s h 30 n
      match findWin s h (memSub m.tgt.idx) (memLd m.tgt.idx) m.tgt.addr with
      | none => .next (catForward s h m)
      | some w =>
        let l := (m.tgt.addr - winBase s h w) / 64
        .next (catRequest (catEcc s h (setOf s h w l) ecc) h m w late)

/-- Does request m for line k want a way while none is free and no victim qualifies (R246)? -/
def wayBlocked (s : State) (h : Half) (k : Nat) (m : Msg) : Bool :=
  let set := setOf s h (lineWin k) (lineL k)
  (findEnt s h k).isNone && needsWay m (catKind m false) && !tainted s h set && (freeWay s h set).isNone && (victimWays s h set).isEmpty

/-- May waiting request m be served (R233, R246, R256): its line free, a way and a lock to be had, its tenant's scrub started? One
whose window is no longer in use may go. -/
def waitOpen (s : State) (h : Half) (m : Msg) : Bool :=
  match msgLine s h m with
  | none => true
  | some k => (txnOf s h k).isNone && lockFree s h && !scrubQueued s h m.tenant && !slotFenced s h k && !wayBlocked s h k m

/-- The first waiting request that may be served. -/
def waitNext (s : State) (h : Half) : Option (Nat × Msg) :=
  (s.cat.get h).wait.findSome? fun n => (s.msg n).bind fun m => if waitOpen s h m then some (n, m) else none

/-- WAIT_POOL_RESUME (R233). -/
def execWaitPoolResume (h : Half) (s : State) : Host.Outcome State Fault Refusal :=
  match waitNext s h with
  | none => .next s
  | some (n, m) =>
    let s := catStat ((dropMsg s n).modCat h fun c => { c with wait := c.wait.erase n }) h
    match msgLine s h m with
    | none => .next (catForward s h m)
    | some k => .next (serveReq (touchEnt (walkSet s h (setOf s h (lineWin k) (lineL k))) h k) h k m true)

/-- What a snoop response leaves the holder with, and whether it was allowed (R236). -/
def rspTreat (snp : Snp) (r : Hold) : Hold × Bool :=
  match snp, r with
  | .inv, .i => (.i, true)
  | .inv, _ => (.i, false)
  | .data, .s => (.s, true)
  | .data, .i => (.i, true)
  | .data, .a => (.s, false)
  | .data, .noop => (.i, false)
  | _, .noop => (.i, false)
  | _, x => (x, true)

/-- A snoop response updates its holder (R234, R236). -/
def snoopRsp (s : State) (h : Half) (k t : Nat) (r : Hold) : State :=
  match txnOf s h k with
  | none => s
  | some x =>
    if x.pend.contains t = false then s
    else
      let p := rspTreat x.snp r
      let s := if p.2 then s else raise (s.fbump (CAT_ERRCNT2 h) CAT_ERRCNT2_PROTO_CNT 1) h (evt 10 1 0 k)
      let s := match p.1 with
        | .i => dropHolder s h k t
        | .s => (match findEnt s h k with
                 | some (i, e) => putEnt s h i (some { e with excl := false })
                 | none => s)
        | _ => s
      catAdvance (putTxn s h k { x with pend := x.pend.erase t, keep := p.1 }) h k

/-- The first write-back at the Catalogue of half h (R237): from a snooped holder, ahead of its answer. -/
def wbFind (s : State) (h : Half) (f : Nat → Msg → Bool) : Option (Nat × Nat × Msg) :=
  (lget (s.core.get h).inbox 30).findSome? fun n => (s.msg n).bind fun m => (msgLine s h m).bind fun k =>
    if isWriteBack s h k m && !behindRsp s h n m && f k m then some (n, k, m) else none

/-- Write-backs that came ahead of tenant t's answer for line k join its transaction first (R237).
 -/
def wbAhead (s : State) (h : Half) (k t : Nat) : Nat → State
  | 0 => s
  | f + 1 =>
    match wbFind s h fun q m => q == k && m.tenant == t with
    | some (n, _, m) => wbAhead (takeWriteBack (inboxTake s h 30 n) h k m) h k t f
    | none => s

/-- SNOOP_RESPONSE_RECEIVED (R236): the next snoop response at the Catalogue. -/
def execSnoopResponseReceived (h : Half) (s : State) : Host.Outcome State Fault Refusal :=
  match inboxFind s h 30 fun m => m.op = .biRsp with
  | none => .next s
  | some (n, m) =>
    let s := wbAhead s h m.tag m.tenant (lget (s.core.get h).inbox 30).length
    .next (snoopRsp (inboxTake s h 30 n) h m.tag m.tenant m.hold)

/-- WRITE_BACK_RECEIVED (R237): the next write-back of a snooped holder joins its transaction at once. -/
def execWriteBackReceived (h : Half) (s : State) : Host.Outcome State Fault Refusal :=
  match wbFind s h fun _ _ => true with
  | none => .next s
  | some (n, k, m) => .next (takeWriteBack (inboxTake s h 30 n) h k m)

/-- The device's answer to a forwarded read or write (R234): data with its DevLoad, or an error that poisons a read. -/
def devAnswer (s : State) (h : Half) (k load : Nat) (data : Nat) (bad : Bool) : State :=
  match txnOf s h k with
  | none => s
  | some t =>
    if t.devRd = 1 then catAdvance (putTxn s h k { t with devRd := 3, data := data, load := load, poison := t.poison || bad }) h k
    else catAdvance (putTxn s h k { t with devWr := false, load := load }) h k

/-- A write of the Catalogue's own leaves its transaction. -/
def writeEnd (s : State) (h : Half) (k id : Nat) : Option (CatWr × State) :=
  match txnOf s h k with
  | none => none
  | some t => (t.writes.find? fun w => w.id == id).map fun w => (w, putTxn s h k { t with writes := t.writes.erase w })

/-- The write-back that an absorbed write answers gets its Cmp (R235). -/
def wbAnswer (s : State) (h : Half) (use : WrUse) : State :=
  match use with
  | .absorb (some m) => catRespond s h m .noop 0 false 0 true
  | _ => s

/-- A device write of Kezen's own has completed (R235, R249): its write-back is answered, a slot written is free. -/
def ownWriteDone (s : State) (h : Half) (k id : Nat) : State :=
  match writeEnd s h k id with
  | none => s
  | some (w, s) => catAdvance (wbAnswer (if w.use = .slot then slotGone s h k else s) h w.use) h k

/-- An eviction write failed: the line keeps its slot and its state, and its way is barred (R250). -/
def evictFailed (s : State) (h : Half) (k : Nat) : State :=
  let s := match lineSlot s h k with
    | some (e, sl) =>
      s.modCat h fun c => { c with slots := minsert c.slots (slotKey e.win e.l (e.slot.getD 0)) { sl with barred := s.tn h + 1024 } }
    | none => s
  match txnOf s h k with
  | some t =>
    (match (if t.kind = .capEvict then t.msg else none) with
     | some m => waitPool (finishOwn s h k) h m true
     | none => finishOwn s h k)
  | none => s

/-- Absorbed data that the device did not take goes to a slot, or the line is poisoned (R250). -/
def absorbFailed (s : State) (h : Half) (k : Nat) (w : CatWr) : State :=
  let r := if (findEnt s h k).isSome && lsAllowed s h (lineWin k) then lsAlloc s h (lineWin k) (lineL k) else (none, s)
  catAdvance (wbAnswer (match r.1 with
    | some way => slotFill r.2 h k way w.data w.bad
    | none => poisonLine r.2 h k) h w.use) h k

/-- A failed device write of the Catalogue (R250).
[log 149, DEDUCED] -/
def ownWriteFailed (s : State) (h : Half) (k id : Nat) : State :=
  match writeEnd s h k id with
  | none => s
  | some (w, s) =>
    if w.use = .poison then catAdvance s h k
    else
      let s := raise (s.fbump (CAT_ERRCNT2 h) CAT_ERRCNT2_LSWB_FAIL 1) h (evt 10 2 0 k)
      if w.use = .slot then evictFailed s h k else absorbFailed s h k w

/-- The first ended internal request of half h of which `f` holds. -/
def idoneFind (s : State) (h : Half) (f : IOwner → Bool) : Option IDone :=
  s.net.idone.find? fun d => d.half = h ∧ f d.own
def idoneTake (s : State) (d : IDone) : State := s.modNet fun n => { n with idone := n.idone.erase d }

/-- DEVICE_WRITE_COMPLETE (R250): the device has completed, or failed, a write of the Catalogue. -/
def execDeviceWriteComplete (h : Half) (s : State) : Host.Outcome State Fault Refusal :=
  match idoneFind s h fun o => match o with
    | .catWrite _ _ => true
    | _ => false with
  | none => .next s
  | some d =>
    match d.own with
    | .catWrite k id => .next (if d.ok then ownWriteDone (idoneTake s d) h k id else ownWriteFailed (idoneTake s d) h k id)
    | _ => .next s

/-- BICONFLICT_RECEIVED (R239): BI-ConflictAck goes to the host on the S2M NDR channel (an NDR whose `snp` field marks it). Its
`gen` field is the number of the next message: it leaves behind every response to the host with a lower one.
[log 64, DESIGN CHOICE; log 148, DEDUCED] -/
def execBiconflictReceived (h : Half) (t k : Nat) (s : State) : Host.Outcome State Fault Refusal :=
  match uspOf s h t with
  | none => .next s
  | some d => .next (originate s h 30 { blankMsg .ndr (unitNode h 30) d k t (tcCat s h) with snp := .cur, gen := s.net.next })

/-- TAINTED follows the list (CAT_STAT). -/
def taintStat (s : State) (h : Half) : State :=
  s.fsetB (CAT_STAT h) CAT_STAT_TAINTED ((List.range 16).any fun i => s.flag (CAT_TAINT h i) CAT_TAINT_VALID)

/-- A write of CAT_TAINT(i) (R245). -/
def taintWrite (s : State) (h : Half) (i : Nat) (v : Word) : State :=
  if fldGet v CAT_TAINT_VALID = 1 then taintStat (s.fset (CAT_TAINT h i) CAT_TAINT_VALID 0) h else s

/-- TAINT_LIFT (R245). -/
def execTaintLift (m : Master) (h : Half) (i : BitVec 4) (s : State) : Host.Outcome State Fault Refusal :=
  .next (csGate s m (CAT_TAINT h i.toNat) fun s => taintStat (s.fset (CAT_TAINT h i.toNat) CAT_TAINT_VALID 0) h)

/-- Does a pass that starts now carry the job? One left over of a disabled window waits until its sub-port is in service (R255).
[log 151, DEDUCED] -/
def jobGoes (s : State) (h : Half) (j : CatJob) : Bool :=
  match j with
  | .disable w late => !late || inService s (winSub s h w)
  | _ => true

/-- PASS_START (R254): the walker starts with every queued job that goes; a pass runs alone. -/
def execPassStart (h : Half) (s : State) : Host.Outcome State Fault Refusal :=
  let c := s.cat.get h
  let go := c.jobs.filter (jobGoes s h)
  if c.pass.isSome ∨ go = [] then .next s
  else .next (scrubStat ((s.modCat h fun c => { c with pass := some go, jobs := c.jobs.filter fun j => !jobGoes s h j, passDone := [] }).fset
    (CAT_STAT h) CAT_STAT_PASS 1) h)

/-- Sets that hold entries. -/
def usedSets (s : State) (h : Half) : List Nat := ((s.cat.get h).ents.map fun e => e.1 / 16).dedup

/-- A window leaves use when every entry of it has been freed; else its disable job waits for the next pass
(R255). -/
def windowLeaves (s : State) (h : Half) (w : Nat) : State :=
  if (s.cat.get h).ents.any fun e => e.2.win == w then queueJob s h (.disable w true)
  else s.wr (CAT_WIN_CTL h w) (s.rd (CAT_WIN_CTL h w) &&& 0x5FFFFFFF)

/-- Does the write of a disabled line's slot keep the pass from its end (R254)?
[log 151, DEDUCED] -/
def disabling (s : State) (h : Half) : Bool := (s.cat.get h).txns.any fun e => e.2.kind == .capEvict && e.2.msg.isNone

/-- PASS_END (R254): the walker has treated every set; disabled windows leave use. It ends once the writes of a disable job have
been completed.
[log 151, DEDUCED] -/
def execPassEnd (h : Half) (s : State) : Host.Outcome State Fault Refusal :=
  match (s.cat.get h).pass with
  | none => .next s
  | some js =>
    let s := (usedSets s h).foldl (fun s set => walkSet s h set) s
    if disabling s h then .next s
    else
    let s := s.modCat h fun c => { c with pass := none, passDone := [] }
    let s := js.foldl (fun s j => match j with
      | .disable w _ => windowLeaves s h w
      | _ => s) s
    let s := if (List.range 64).any fun w => winUsed s h w then s else s.modCat h fun c => { c with taintFull := false }
    .next (scrubStat (s.fset (CAT_STAT h) CAT_STAT_PASS 0) h)

/-- IMG_EN starts the copy of the on-chip store to the image and the mirror (R258). -/
def imageEnable (s : State) (h : Half) : State :=
  finderGate s h (CAT_CTL h) fun s =>
  if s.flag (CAT_CTL h) CAT_CTL_IMG_EN then s
  else (s.fset (CAT_CTL h) CAT_CTL_IMG_EN 1).modCat h fun c => { c with copying := true }

/-- IMAGE_ENABLE (R258). -/
def execImageEnable (m : Master) (h : Half) (s : State) : Host.Outcome State Fault Refusal :=
  .next (csGate s m (CAT_CTL h) fun s => imageEnable s h)

/-- An entry moves to its set of the image (R258).
[log 71, DESIGN CHOICE] -/
def imagePlace (m : SMap CatEnt) (e : CatEnt) : SMap CatEnt :=
  match (setKeys (setFull e.win e.l)).find? fun i => (mfind m i).isNone with
  | some i => minsert m i e
  | none => m

/-- IMAGE_COPY_DONE (R258): every entry stands in its set of the image and of the mirror, IMG is 1, and the on-chip store is the
cache of the sets just copied. An unprotected mirror takes them at its resynchronisation (R188). -/
def execImageCopyDone (h : Half) (s : State) : Host.Outcome State Fault Refusal :=
  if (s.cat.get h).copying then
    let ents := ((s.cat.get h).ents.map fun e => e.2).foldl imagePlace []
    let s := s.modCat h fun c =>
      { c with copying := false, ents := ents, mirror := [], mirQ := [],
               cache := (ents.map fun e => e.1 / 16).dedup.foldl (fun l x => (cacheLook l x).2) [] }
    let s := (recordRegions s h (ents.map fun e => regionOf e.1)).fset (CAT_STAT h) CAT_STAT_IMG 1
    let s := if mirrorAway s h then s else (mirrorCopy s h).modCdb h fun b => { b with regions := [] }
    .next (catStat s h)
  else .next s

/-- A snoop copy timed out, or was flushed, or was abandoned (R252, R253): taken as BIRspI. A timeout counts,
raises its event and sets Viral on the holder's VCS when it was the exclusive holder's.
[log 69, DEDUCED] -/
def snoopTimedOut (s : State) (h : Half) (k t : Nat) : State :=
  let x := txnOf s h k
  let excl := match findEnt s h k with
    | some (_, e) => e.excl && bitB e.hold t
    | none => false
  let rec_ := match x with
    | some y => y.kind == .reconcile
    | none => false
  let s := raise (s.fbump (CAT_ERRCNT1 h) CAT_ERRCNT1_SNPTO_CNT 1) h (evt 10 0 0 k)
  let s := if rec_ then raise s h (evt 9 6 0 k) else s
  let s := if excl then setViral s t else s
  let s := if rec_ && !excl then poisonLine s h k else s
  catAdvance (lostHolder s h k t) h k

/-- A flushed snoop copy (R162, R252). -/
def snoopFlushed (s : State) (h : Half) (k t : Nat) : State := catAdvance (lostHolder s h k t) h k

/-- Reconciliation (R260): BISnpInv to the remote holders of a quarantined entry. -/
def reconcileEnt (s : State) (h : Half) (e : CatEnt) : State :=
  let k := lineKey e.win e.l
  let ts := (holders e).filter fun t => remoteTenant s h t
  if ts = [] ∨ (txnOf s h k).isSome ∨ lockFree s h = false then s else beginTxn s h k (newTxn .reconcile none) .inv ts

/-- RECONCILE begins in a half: every quarantined entry is snooped (R191, R260).
[log 79, DEDUCED] -/
def reconcileAll (s : State) (h : Half) : State :=
  ((s.cat.get h).ents.map fun e => e.2).foldl (fun s e => reconcileEnt s h e) s

/-- The Line Store slots of a pseudo-channel, and the ways of the image there, are those that the copy of it names: the spec gives
no address map. A slot still readable is written to its device, one that is not leaves its line poisoned; an unreadable way of the
image is rebuilt from the mirror, or lost (R245, R426).
[log 153, DESIGN CHOICE] -/
def catRetire (s : State) (h : Half) (slots badSlots badWays : List Nat) : State :=
  let s := slots.foldl (fun s i => match mfind (s.cat.get h).slots i with
    | some sl => if mayEvict s h sl && !badSlots.contains i then lsEvictStart s h sl else s
    | none => s) s
  let s := badSlots.foldl (fun s i => match mfind (s.cat.get h).slots i with
    | some sl => poisonLine s h (lineKey sl.win sl.l)
    | none => s) s
  badWays.foldl (fun s i =>
    if (mfind (s.cat.get h).ents i).isNone then s
    else if mirrorGood s h i then imageRepair s h i
    else loseEntry s h (i / 16) (i % 16)) s

end Sys2Proof.Machine
end

