-- ==== Sys2Proof/Machine/SfBase.lean ====
section
/-! DEFINITION. The Service Function's functions and queues (spec 12): which functions exist, what a function may
do, queue occupancy, LEVEL and MSI-X (R342-R358), and posted messages that start at a unit (R139). -/

namespace Sys2Proof.Machine

open Sys2Proof

/-- A message that starts at a station for a sub-port is stamped by the posted-order rule: a posted message takes its ordinal for
its pair and counts, a non-posted request or a completion the count so far (R139). -/
def stampMsg (s : State) (h : Half) (m : Msg) : Msg × State :=
  let k := pairKey m.src m.dst
  let n := nget (s.core.get h).posted k
  if 128 ≤ m.dst then (m, s)
  else if opClass m.op = 0 then
    ({ m with stamp := some n }, s.modCore h fun c => { c with posted := nset c.posted k (n + 1) })
  else if opClass m.op = 1 ∨ opClass m.op = 2 then ({ m with stamp := some n }, s)
  else (m, s)

/-- Originate with a stamp. -/
def originateStamped (s : State) (h : Half) (st : Nat) (m : Msg) : State :=
  let r := stampMsg s h m
  originate r.2 h st r.1

/-- The key of function fn of tenant t; fn 0 is the PF. -/
def fnKey (t fn : Nat) : Nat := t * 256 + fn

/-- A function after reset: MSI-X vectors masked, nothing enabled.
[log 57, PRESUMED] -/
def fnReset : Fn :=
  ⟨false, none, false, false, false, false, false, false, [], [], [], [], [(3, 1), (7, 1), (11, 1), (15, 1)], false, 0, false, 0, 0, none⟩

/-- Function fn of tenant t. -/
def State.fn (s : State) (t fn : Nat) : Fn := (mfind s.fns (fnKey t fn)).getD fnReset
def State.modFn (s : State) (t fn : Nat) (f : Fn → Fn) : State :=
  { s with fns := minsert s.fns (fnKey t fn) (f (s.fn t fn)) }

/-- Every tenant has a PF; a VF exists while it is listed (R342, R349). -/
def fnExists (s : State) (t fn : Nat) : Bool :=
  fn == 0 || ((mfind s.fns (fnKey t fn)).isSome && !(s.fn t fn).remove)

/-- SF_FN_STAT flags. -/
def fnHalted (s : State) (t fn : Nat) : Bool := s.flag (SF_FN_STAT t fn) SF_FN_STAT_HALTED
def fnFrozen (s : State) (t fn : Nat) : Bool := s.flag (SF_FN_STAT t fn) SF_FN_STAT_FROZEN
def fnGone (s : State) (t fn : Nat) : Bool := s.flag (SF_FN_STAT t fn) SF_FN_STAT_WITHDRAWN
def fnPool (s : State) (t fn : Nat) : Nat := s.fget (SF_FN_STAT t fn) SF_FN_STAT_POOL

/-- SF_ALIVE: STATE by what the function is doing, BEAT bits [25:10] of the Transit number. -/
def aliveState (s : State) (t fn : Nat) : Nat :=
  if (s.fn t fn).flr.isSome then 0 else if fnFrozen s t fn then 3 else if fnHalted s t fn then 2 else 1
def setAlive (s : State) (t fn : Nat) : State :=
  s.fsets (SF_ALIVE t fn) [(SF_ALIVE_STATE, aliveState s t fn), (SF_ALIVE_BEAT, bits (s.tn (tenantHalf t)) 25 10)]

/-- May the function form new requests (R369, R370, R372)? -/
def fnForms (s : State) (t fn : Nat) : Bool :=
  fnExists s t fn && (s.fn t fn).bme && (s.fn t fn).flr.isNone && !fnGone s t fn && !inReset s t

/-- May it start a descriptor (R361, R369, R374)? -/
def fnStarts (s : State) (t fn : Nat) : Bool :=
  fnForms s t fn && !(s.fn t fn).freeze && !fnFrozen s t fn && !fnHalted s t fn

/-- SF_QCFG.STATE codes (R353). -/
def qDISABLED : Nat := 0
def qRUNNING : Nat := 1
def qHALTED : Nat := 2
def qFROZEN : Nat := 3

def qState (s : State) (t fn q : Nat) : Nat := s.fget (SF_QCFG t fn q) SF_QCFG_STATE
def setQState (s : State) (t fn q v : Nat) : State := s.fset (SF_QCFG t fn q) SF_QCFG_STATE v
def qSize (s : State) (t fn q : Nat) : Nat := 2 ^ s.fget (SF_QCFG t fn q) SF_QCFG_SIZE
def qHead (s : State) (t fn q : Nat) : Nat := s.fget (SF_QPTR t fn q) SF_QPTR_HEAD
def qTail (s : State) (t fn q : Nat) : Nat := s.fget (SF_QPTR t fn q) SF_QPTR_TAIL
def qEn (s : State) (t fn q : Nat) : Bool := s.flag (SF_QCFG t fn q) SF_QCFG_EN

/-- Occupancy (R355). -/
def qOcc (s : State) (t fn q : Nat) : Nat := (qTail s t fn q + 2 ^ 16 - qHead s t fn q) % 2 ^ 16

/-- The key of the slot of entry count i (R355). -/
def slotAt (s : State) (t fn q i : Nat) : Nat := q * 65536 + i % qSize s t fn q

/-- The entry of count i, as 64 bytes. -/
def entryAt (s : State) (t fn q i : Nat) : Nat := nget (s.fn t fn).ents (slotAt s t fn q i)

/-- Bytes b to b + n - 1 of an entry. -/
def bytesAt (e b n : Nat) : Nat := e / 2 ^ (8 * b) % 2 ^ (8 * n)

/-- PHASE of entry count i (R355). -/
def phaseBit (s : State) (t fn q i : Nat) : Nat := if i / qSize s t fn q % 2 = 0 then 1 else 0

/-- A message from a function to its host leaves station 28 toward the tenant's upstream sub-port. -/
def toHost (s : State) (t : Nat) (op : Op) (fn addr len data : Nat) : State :=
  let h := tenantHalf t
  match mfind (s.binds.get h).usp t with
  | none => s
  | some d => originateStamped s h 28 { blankMsg op (unitNode h 28) d 0 t (tcSf s t) with
      ld := fn, tgt := ⟨8, t, addr⟩, len := len, data := data, slots := msgSlots op len false, checked := false }

/-- Is MSI-X vector v masked? -/
def msixMasked (f : Fn) (v : Nat) : Bool := f.fmask || bitB (nget f.msix (4 * v + 3)) 0

/-- Send MSI-X vector v (R344, R356, R369, R374): a masked vector, and any vector of a freezing function, sets its
pending bit instead.
[log 157, DEDUCED] -/
def msixSend (s : State) (t fn v : Nat) : State :=
  let f := s.fn t fn
  if fnForms s t fn = false then s
  else if f.freeze || msixMasked f v then s.modFn t fn fun f => { f with pbits := f.pbits ||| 2 ^ v }
  else toHost s t .mWr fn (nget f.msix (4 * v) + nget f.msix (4 * v + 1) * 2 ^ 32) 4 (nget f.msix (4 * v + 2))

/-- The pending vectors that may go now are sent. -/
def msixPending (s : State) (t fn : Nat) : State :=
  (List.range 4).foldl (fun s v =>
    let f := s.fn t fn
    if bitB f.pbits v && !msixMasked f v && !f.freeze && fnForms s t fn then
      msixSend (s.modFn t fn fun f => { f with pbits := f.pbits - 2 ^ v }) t fn v
    else s) s

/-- LEVEL follows the occupancy (R356): the CQ's and the RQ's settings, and the SQ's clearings, send the vector. A flag that HIGH
disables signals nothing. -/
def qLevel (s : State) (t fn q : Nat) : State :=
  let a := SF_QWM t fn q
  let old := s.flag a SF_QWM_LEVEL
  let hi := s.fget a SF_QWM_HIGH
  let occ := qOcc s t fn q
  let new := if hi = 0 then false else if hi ≤ occ then true else if occ ≤ s.fget a SF_QWM_LOW then false else old
  let s := s.fsetB a SF_QWM_LEVEL new
  let edge := if q = 0 then old && !new && hi != 0 else !old && new
  if edge && s.flag (SF_QCFG t fn q) SF_QCFG_IE then msixSend s t fn q else s

/-- Append entries at TAIL; `mk` makes the entry of each count from its payload and PHASE. -/
def qAppend (s : State) (t fn q : Nat) (l : List Nat) : State :=
  l.foldl (fun s e =>
    let i := qTail s t fn q
    let s := s.modFn t fn fun f => { f with ents := nset f.ents (slotAt s t fn q i) e, gap := f.gap.erase q }
    s.fset (SF_QPTR t fn q) SF_QPTR_TAIL (i + 1)) s

/-- Is the newest entry a gap marker (R357)? A payload entry may hold any bytes, so this is noted when a marker is written. -/
def newestGap (s : State) (t fn q : Nat) : Bool := decide (0 < qOcc s t fn q) && (s.fn t fn).gap.contains q

/-- Where DROPS stands in a gap marker: bytes 4-5 in a CQ entry, 6-7 in an RQ entry (R363, R368). -/
def dropsByte (q : Nat) : Nat := if q = 1 then 4 else 6

/-- An item that does not fit is dropped into a gap marker (R357). -/
def gapMark (s : State) (t fn q : Nat) : State :=
  let i := qTail s t fn q
  let b := 8 * dropsByte q
  if newestGap s t fn q then
    let e := entryAt s t fn q (i + 65535)
    let n := e / 2 ^ b % 2 ^ 16
    s.modFn t fn fun f => { f with ents := nset f.ents (slotAt s t fn q (i + 65535)) (e + (min (n + 1) 0xFFFF - n) * 2 ^ b) }
  else qLevel ((qAppend s t fn q [0x8F + phaseBit s t fn q i * 2 ^ 15 + 2 ^ b]).modFn t fn fun f => { f with gap := q :: f.gap }) t fn q

/-- Is the LD or SLD a dynamic capacity device (R200)? -/
def isDcd (s : State) (sub ld : Nat) : Bool :=
  (s.sub sub).dev.any fun d => d.lds.any fun l => l.ld == ld && l.dcd

/-- The extent check (R201). -/
def extentOk (s : State) (h : Half) (t sub ld addr len : Nat) : Bool :=
  !isDcd s sub ld || (s.binds.get h).ext.any fun e => e.tenant == t && e.sub == sub && e.ld == ld
    && decide (e.base ≤ addr) && decide (addr + len ≤ e.base + e.len)

/-- Does an item of k entries fit (R357)? -/
def qFits (s : State) (t fn q k : Nat) : Bool := decide (qOcc s t fn q + k + 1 ≤ qSize s t fn q)

end Sys2Proof.Machine
end

