-- ==== Sys2Proof/Machine/Qos.lean ====
section
/-! DEFINITION. Shaper rows (R322-R326), meters and policers (R327-R331), and Ephemeris lists (R332-R336): how a row
is checked at the seal and applied at the boundary, and how a message is coloured. -/

namespace Sys2Proof.Machine

open Sys2Proof

/-- RATE of a shaper row, in units of 2^-16 bytes. -/
def shpRate (w1 w2 : Nat) : Nat := w1 + w2 % 256 * 2 ^ 32

/-- A malformed staged shaper row (R324). -/
def shpMalformed (w : List Nat) : Bool :=
  let w0 := w.getD 0 0
  let w2 := w.getD 2 0
  let w3 := w.getD 3 0
  (bitB w0 31 && (bits w0 23 16 == 0 || decide (w3 % 2 ^ 24 < 256)))
    || bits w0 30 24 != 0 || bits w0 15 6 != 0 || bits w2 31 8 != 0 || bits w3 31 24 != 0

/-- Refill shaper n at its rate in force, up to DEPTH (R322). -/
def shpRefill (s : State) (h : Half) (n : Nat) : State :=
  let rate := shpRate (shpWord s h n 1) (shpWord s h n 2)
  setTokens s h n (min (tokens s h n + rate) (shpWord s h n 3 % 2 ^ 24 * 65536))

/-- Apply a shaper row at a boundary (R322-R324).
[log 32, DEDUCED] -/
def shpApply (s : State) (h : Half) (n : Nat) (ws : List Word) : State :=
  let w := ws.map BitVec.toNat
  if shpMalformed w then shpRefill (s.fbump (QOS_ERRCNT0 h) QOS_ERRCNT0_SHPBAD_CNT 1) h n
  else
    let old := shpWord s h n 0
    let s := s.wrWords (QOS_SHP_LIVE h n 0) (ws.take 4)
    if (!bitB old 31 && bitB (w.getD 0 0) 31) || old % 2 ^ 31 != w.getD 0 0 % 2 ^ 31 then
      setTokens s h n (w.getD 3 0 % 2 ^ 24 * 65536)
    else shpRefill s h n

/-- A meter that was never set. -/
def meterReset : Meter := ⟨false, 0, 0, 0, 0, 0, 0⟩
def meterOf (s : State) (h : Half) (v : Nat) : Meter := (mfind (s.qos.get h).meters v).getD meterReset
def policerOf (s : State) (h : Half) (t : Nat) : Meter := (mfind (s.qos.get h).policers t).getD meterReset

/-- Colours (R327). -/
def cGREEN : Nat := 0
def cYELLOW : Nat := 1
def cRED : Nat := 2

/-- Colour a message of B bytes (R327). -/
def colour (m : Meter) (b : Nat) : Nat × Meter :=
  let u := b * 65536
  if m.on = false then (cGREEN, m)
  else if m.tp < u then (cRED, m)
  else if m.tc < u then (cYELLOW, { m with tp := m.tp - u })
  else (cGREEN, { m with tp := m.tp - u, tc := m.tc - u })

/-- Count a colour in QOS_VF_CNT and the Photometer; a message that has waited red is not counted red again. -/
def countColour (s : State) (h : Half) (t v c b : Nat) (again : Bool) : State :=
  if c = cRED then
    (if again then s else tally (s.fbump (QOS_VF_CNT h v) QOS_VF_CNT_RED_CNT 1) h 5 2 (t % 32) b)
  else if c = cYELLOW then tally (s.fbump (QOS_VF_CNT h v) QOS_VF_CNT_YEL_CNT 1) h 5 1 (t % 32) b
  else tally s h 5 0 (t % 32) b

/-- Meter a message that function fn of tenant t forms, of B bytes (R327): the PF's are always green.
[log 89, DEDUCED] -/
def meterMsg (s : State) (t fn b : Nat) (again : Bool) : Nat × State :=
  if fn = 0 then (cGREEN, s)
  else
    let h := tenantHalf t
    let v := fnPool s t fn
    let r := colour (meterOf s h v) b
    let s := s.modQos h fun q => { q with meters := minsert q.meters v r.2 }
    (r.1, countColour s h t v r.1 b again)

/-- The tenant's policer (R329): whether a datagram of B bytes passes. -/
def police (s : State) (t b : Nat) : Bool × State :=
  let h := tenantHalf t
  let p := policerOf s h t
  if p.on = false then (true, s)
  else if b * 65536 ≤ p.tc then
    (true, s.modQos h fun q => { q with policers := minsert q.policers t { p with tc := p.tc - b * 65536 } })
  else (false, s)

/-- One refill of a meter (R327). -/
def meterFill (m : Meter) : Meter :=
  { m with tc := min (m.tc + m.cir) m.cbs, tp := min (m.tp + m.pir) m.pbs }

/-- Every meter and policer of a half is refilled at a boundary (R327, R329). -/
def metersRefill (s : State) (h : Half) : State :=
  s.modQos h fun q =>
    { q with meters := q.meters.map fun e => (e.1, meterFill e.2), policers := q.policers.map fun e => (e.1, meterFill e.2) }

/-- The VF with a pool index in half h. -/
def poolFn (s : State) (h : Half) (v : Nat) : Option (Nat × Nat) :=
  s.fns.findSome? fun e =>
    if e.1 % 256 ≠ 0 ∧ tenantHalf (e.1 / 256) = h ∧ fnPool s (e.1 / 256) (e.1 % 256) = v then some (e.1 / 256, e.1 % 256)
    else none

/-- STATUS codes (R199). -/
def stPENDING : Nat := 0
def stAPPLIED : Nat := 1
def stABORTED : Nat := 2
def stBUSY : Nat := 3
def stNO_TARGET : Nat := 4
def stLIMIT : Nat := 5
def stCONFLICT : Nat := 6
def stSPLIT : Nat := 7

/-- The first failed check of a list: each the code to give and whether it holds. -/
def firstFail (l : List (Nat × Bool)) : Option Nat :=
  match l with
  | [] => none
  | (c, ok) :: r => if ok then firstFail r else some c

/-- Check a meter row at the seal (R331). -/
def meterCheck (s : State) (h : Half) (ws : List Word) : Option Nat :=
  let w0 := rowW ws 0
  let op := bits w0 31 28
  let cbs := rowW ws 1 % 2 ^ 24
  let pbs := rowW ws 3 % 2 ^ 24
  let cir := shpRate (rowW ws 4) (rowW ws 5)
  let pir := shpRate (rowW ws 6) (rowW ws 7)
  firstFail [(stLIMIT, op == 1 || op == 2),
    (stNO_TARGET, if op = 1 then (poolFn s h (bits w0 11 0)).isSome else decide (tenantHalf (bits w0 5 0) = h)),
    (stLIMIT, !bitB w0 27 || (decide (4112 ≤ cbs) && (op == 2 || (decide (4112 ≤ pbs) && decide (cir ≤ pir)))))]

/-- The meter a row makes of an old one: turning on fills it, anything else clamps its tokens (R331). -/
def meterNew (m : Meter) (on : Bool) (cbs pbs cir pir : Nat) : Meter :=
  if on && !m.on then ⟨true, cbs, pbs, cir, pir, cbs, pbs⟩
  else ⟨on, cbs, pbs, cir, pir, min m.tc cbs, min m.tp pbs⟩

/-- Apply a meter row at a boundary (R331). -/
def meterApply (s : State) (h : Half) (ws : List Word) : State :=
  let w0 := rowW ws 0
  let cbs := rowW ws 1 % 2 ^ 24 * 65536
  let pbs := rowW ws 3 % 2 ^ 24 * 65536
  let cir := shpRate (rowW ws 4) (rowW ws 5)
  let pir := shpRate (rowW ws 6) (rowW ws 7)
  if bits w0 31 28 = 1 then
    let v := bits w0 11 0
    s.modQos h fun q => { q with meters := minsert q.meters v (meterNew (meterOf s h v) (bitB w0 27) cbs pbs cir pir) }
  else
    let t := bits w0 5 0
    s.modQos h fun q => { q with policers := minsert q.policers t (meterNew (policerOf s h t) (bitB w0 27) cbs 0 cir 0) }

/-- Check an Ephemeris row at the seal (R334): its own words, then the port's staged list as copied at issue. -/
def ephCheck (s : State) (h : Half) (ws : List Word) : Option Nat :=
  let w0 := rowW ws 0
  let op := bits w0 31 28
  let p := bits w0 4 0
  let n := rowW ws 1 % 128
  let tAt := rowW ws 3 + rowW ws 4 * 2 ^ 32
  firstFail [(stLIMIT, op == 1 || op == 2), (stNO_TARGET, decide (portHalf p = h)),
    (stLIMIT, op == 2 || (decide (n ≤ 64) && (List.range n).all fun i => decide (8 ≤ rowW ws (8 + i) % 2 ^ 24))),
    (stLIMIT, op == 2 || tAt == 0 || decide (s.tn h + 1 ≤ tAt)),
    (stNO_TARGET, op == 1 || (mfind (s.qos.get h).pendl p).isSome)]

/-- The entry of a list that a Meridian time is in. -/
def ephNow (s : State) (h : Half) (l : EphList) : Nat := ephIndex l.entries (ephPhase l (s.now h))

/-- A pending list takes over (R335): it becomes the active list, and its outcome is COMPLETED.
[log 90, DEDUCED] -/
def ephTakeover (s : State) (h : Half) (p : Nat) (l : EphList) : State :=
  let i := p % 16
  let s := s.modQos h fun q =>
    { q with active := minsert q.active p { l with cur := ephNow s h l }, pendl := merase q.pendl p }
  let s := (List.range 64).foldl (fun s e => s.wr (QOS_EACT h i e) (BitVec.ofNat 32 (l.entries.getD e 0))) s
  let s := s.wr64 (QOS_EPH_AT_LO h i) 0
  s.fsets (QOS_EPH_STAT h i) [(QOS_EPH_STAT_OUTCOME, 2), (QOS_EPH_STAT_COUNT, l.entries.length)]

/-- Is a pending list due at the Transit that has just opened (R335)? -/
def ephDue (s : State) (h : Half) (l : EphList) : Bool := l.tAt == 0 || decide (l.tAt ≤ s.tn h)

/-- Apply an Ephemeris row at a boundary (R335, R336). The pending list that an install replaces ends ABORTED; a cancel
at the commit point comes too late. -/
def ephApply (s : State) (h : Half) (ws : List Word) : State :=
  let w0 := rowW ws 0
  let p := bits w0 4 0
  let i := p % 16
  let a := QOS_EPH_STAT h i
  if bits w0 31 28 = 1 then
    let n := rowW ws 1 % 128
    let l : EphList := ⟨(List.range n).map fun e => rowW ws (8 + e), rowW ws 5 + rowW ws 6 * 2 ^ 32, rowW ws 7 % 2 ^ 16,
      rowW ws 3 + rowW ws 4 * 2 ^ 32, 0⟩
    let s := s.fsets a [(QOS_EPH_STAT_TOO_LATE, 0), (QOS_EPH_STAT_OUTCOME, 1)]
    (s.modQos h fun q => { q with pendl := minsert q.pendl p l }).wr64 (QOS_EPH_AT_LO h i) l.tAt
  else
    match mfind (s.qos.get h).pendl p with
    | none => s.fset a QOS_EPH_STAT_TOO_LATE 1
    | some l =>
      if ephDue s h l then (ephTakeover s h p l).fset a QOS_EPH_STAT_TOO_LATE 1
      else ((s.modQos h fun q => { q with pendl := merase q.pendl p }).wr64 (QOS_EPH_AT_LO h i) 0).fset a
        QOS_EPH_STAT_OUTCOME 3

/-- Every pending list that is due takes over (R335). -/
def ephBoundary (s : State) (h : Half) : State :=
  (s.qos.get h).pendl.foldl (fun s e => if ephDue s h e.2 then ephTakeover s h e.1 e.2 else s) s

/-- EPHEMERIS_ENTRY_START (R332): the entry whose span holds the phase comes into force at port p.
[log 90, DEDUCED] -/
def execEphemerisEntryStart (p : BitVec 5) (s : State) : Host.Outcome State Fault Refusal :=
  let h := portHalf p.toNat
  match mfind (s.qos.get h).active p.toNat with
  | none => .next s
  | some l => .next (s.modQos h fun q => { q with active := minsert q.active p.toNat { l with cur := ephNow s h l } })

/-- QOS_LOCK_SET (R321). -/
def execQosLockSet (m : Master) (h : Half) (s : State) : Host.Outcome State Fault Refusal :=
  .next (csGate s m (QOS_CTL h) fun s => s.fset (QOS_CTL h) QOS_CTL_LOCK 1)

end Sys2Proof.Machine
end

