-- ==== Sys2Proof/Machine/StkNum.lean ====
section
/-! DEFINITION. The number formats of the Stacker (R267, R270) as exact values, and the roundings of spec 09: an
addend to the anchored grid (R276), and an exact value to an output format (R279, R281). -/

namespace Sys2Proof.Machine

/-- An exact value m * 2^e with a sign, an infinity, or a NaN. Zero keeps its sign. -/
inductive Num where
  | nan
  | inf (neg : Bool)
  | fin (neg : Bool) (m : Nat) (e : Int)
  deriving DecidableEq, Repr

/-- Format codes (R267). -/
def fFP32 : Nat := 0
def fBF16 : Nat := 1
def fFP16 : Nat := 2
def fE4M3 : Nat := 3
def fE5M2 : Nat := 4
def fINT32 : Nat := 5
def fINT64 : Nat := 6
def fFP64 : Nat := 7

/-- Bytes of an element. -/
def fmtSize (f : Nat) : Nat :=
  match f with
  | 0 => 4
  | 1 => 2
  | 2 => 2
  | 3 => 1
  | 4 => 1
  | 5 => 4
  | _ => 8

/-- Is a format an integer format? -/
def fmtInt (f : Nat) : Bool := f == 5 || f == 6

/-- Exponent and fraction bits of a floating-point format. -/
def fmtExp (f : Nat) : Nat :=
  match f with
  | 0 => 8
  | 1 => 8
  | 2 => 5
  | 3 => 4
  | 4 => 5
  | _ => 11
def fmtMan (f : Nat) : Nat :=
  match f with
  | 0 => 23
  | 1 => 7
  | 2 => 10
  | 3 => 3
  | 4 => 2
  | _ => 52

/-- The bias of a format. -/
def fmtBias (f : Nat) : Nat := 2 ^ (fmtExp f - 1) - 1

/-- A finite floating-point value by its exponent and fraction fields. -/
def finOf (f : Nat) (neg : Bool) (ex fr : Nat) : Num :=
  if ex = 0 then .fin neg fr (1 - fmtBias f - fmtMan f)
  else .fin neg (2 ^ fmtMan f + fr) (ex - fmtBias f - fmtMan f)

/-- The value of raw bits in a floating-point format. E4M3 has no infinity, and one NaN. -/
def fpValue (f raw : Nat) : Num :=
  let neg := raw.testBit (fmtExp f + fmtMan f)
  let fr := raw % 2 ^ fmtMan f
  let ex := raw / 2 ^ fmtMan f % 2 ^ fmtExp f
  if f = fE4M3 then (if ex = 15 ∧ fr = 7 then .nan else finOf f neg ex fr)
  else if ex = 2 ^ fmtExp f - 1 then (if fr = 0 then .inf neg else .nan)
  else finOf f neg ex fr

/-- The signed value of raw bits in an integer format. -/
def intValue (f raw : Nat) : Int :=
  let w := 8 * fmtSize f
  if raw < 2 ^ (w - 1) then raw else (raw : Int) - 2 ^ w

/-- The value of an input element. -/
def numOf (f raw : Nat) : Num :=
  if fmtInt f then .fin (decide (intValue f raw < 0)) (intValue f raw).natAbs 0 else fpValue f raw

/-- m * 2^k rounded to an integer, ties to even. -/
def rneShift (m : Nat) (k : Int) : Nat :=
  if 0 ≤ k then m * 2 ^ k.toNat
  else
    let d := 2 ^ (-k).toNat
    let q := m / d
    let r := m % d
    if d < 2 * r ∨ (2 * r = d ∧ q % 2 = 1) then q + 1 else q

/-- Is |m * 2^e| below 2^b? -/
def magBelow (m : Nat) (e b : Int) : Bool := m == 0 || decide ((Nat.log2 m : Int) + e < b)

/-- The integer an addend contributes at anchor A (R276): none when it is out of window. -/
def gridOf (a : Int) (neg : Bool) (m : Nat) (e : Int) : Option Int :=
  if magBelow m e (a + 1) then
    let q := rneShift m (e - (a - 89))
    some (if neg then -(q : Int) else q)
  else none

/-- Raw bits of a sign in a floating-point format. -/
def signBit (f : Nat) (neg : Bool) : Nat := if neg then 2 ^ (fmtExp f + fmtMan f) else 0

/-- The largest finite encoding of a format, without its sign. -/
def fmtMax (f : Nat) : Nat := if f = fE4M3 then 0x7E else (2 ^ fmtExp f - 1) * 2 ^ fmtMan f - 1

/-- An infinity in a format: E4M3 saturates and counts as an overflow (R279, R280). -/
def infBits (f : Nat) (neg : Bool) : Nat × Bool :=
  if f = fE4M3 then (signBit f neg + 0x7E, true) else (signBit f neg + (2 ^ fmtExp f - 1) * 2 ^ fmtMan f, false)

/-- Round m * 2^e once to a floating-point format (R279): the bits, and whether it overflowed. The exponent of the
last place is that of the value, or of the subnormals; a carry out of the fraction moves to the next exponent. -/
def roundFp (f : Nat) (neg : Bool) (m : Nat) (e : Int) : Nat × Bool :=
  if m = 0 then (signBit f neg, false)
  else
    let low : Int := 1 - fmtBias f - fmtMan f
    let q : Int := max low ((Nat.log2 m : Int) + e - fmtMan f)
    let n := rneShift m (e - q)
    let b := (q - low).toNat * 2 ^ fmtMan f + n
    if b ≤ fmtMax f then (signBit f neg + b, false)
    else ((infBits f neg).1, true)

/-- Raw bits of an integer in an integer format. -/
def intBits (f : Nat) (v : Int) : Nat := (v % (2 ^ (8 * fmtSize f) : Int)).toNat

/-- Round m * 2^e to an integer format, saturating (R279). -/
def roundInt (f : Nat) (neg : Bool) (m : Nat) (e : Int) : Nat × Bool :=
  let n : Int := if neg then -(rneShift m e : Int) else rneShift m e
  let top : Int := 2 ^ (8 * fmtSize f - 1)
  if n < -top then (intBits f (-top), true)
  else if top ≤ n then (intBits f (top - 1), true)
  else (intBits f n, false)

/-- A quiet NaN result with a code; an integer output takes its most negative value and counts as an overflow
(R281). -/
def nanBits (f code : Nat) : Nat × Bool :=
  match f with
  | 0 => (0x7FC05300 + code, false)
  | 1 => (0x7FC0 + code, false)
  | 2 => (0x7E00 + code, false)
  | 3 => (0x7F, false)
  | 4 => (0x7E, false)
  | 7 => (0x7FF8000000005300 + code, false)
  | _ => (2 ^ (8 * fmtSize f - 1), true)

/-- An infinite result in an output format (R280, R281). -/
def infResult (f : Nat) (neg : Bool) : Nat × Bool :=
  if fmtInt f then nanBits f 0 else infBits f neg

/-- A finite value in an output format. -/
def finResult (f : Nat) (neg : Bool) (m : Nat) (e : Int) : Nat × Bool :=
  if fmtInt f then roundInt f neg m e else roundFp f neg m e

/-- A value converted to an output format (R284): an infinity beyond an integer format's range saturates. -/
def numResult (f : Nat) (x : Num) : Nat × Bool :=
  match x with
  | .nan => nanBits f 1
  | .inf neg => if fmtInt f then (intBits f (if neg then -(2 ^ (8 * fmtSize f - 1)) else 2 ^ (8 * fmtSize f - 1) - 1), true)
                else infBits f neg
  | .fin neg m e => finResult f neg m e

/-- Compare two finite magnitudes m * 2^e exactly. -/
def magLt (m : Nat) (e : Int) (n : Nat) (d : Int) : Bool :=
  let k := min e d
  decide (m * 2 ^ (e - k).toNat < n * 2 ^ (d - k).toNat)

/-- x below y, with -0 below +0 (R284). NaNs are not compared. -/
def numLt (x y : Num) : Bool :=
  match x, y with
  | .inf a, .inf b => a && !b
  | .inf a, .fin _ _ _ => a
  | .fin _ _ _, .inf b => !b
  | .fin a m e, .fin b n d =>
    if m = 0 ∧ n = 0 then a && !b
    else if a && !b then true
    else if !a && b then false
    else if a then magLt n d m e
    else magLt m e n d
  | _, _ => false

/-- Special-state flags (R280). -/
def sNAN : Nat := 1
def sPINF : Nat := 2
def sNINF : Nat := 4
def sRANGE : Nat := 8
def sLOST : Nat := 16

/-- The result of an element whose special state is not empty (R280). -/
def specResult (f sp : Nat) : Nat × Bool :=
  if sp.testBit 4 then nanBits f 4
  else if sp.testBit 0 then nanBits f 1
  else if sp.testBit 3 then nanBits f 2
  else if sp.testBit 1 ∧ sp.testBit 2 then nanBits f 3
  else infResult f (sp.testBit 2)

/-- The result of a SUM element (R279): its special state, else S * 2^(A - 89) rounded once. V exactly 0 gives +0. -/
def sumResult (f : Nat) (a s : Int) (sp : Nat) : Nat × Bool :=
  if sp ≠ 0 then specResult f sp else finResult f (decide (s < 0)) s.natAbs (a - 89)

end Sys2Proof.Machine
end

