-- ==== Sys2Proof/Machine/StkBase.lean ====
section
/-! DEFINITION. The Stacker's jobs (spec 09): contexts, lines and chunks, how an accepted line is applied, results
and their writes, status lines, and the end of a job. -/

namespace Sys2Proof.Machine

open Sys2Proof

/-- Apply a change to the Stacker of half `h`. -/
def State.modStk (s : State) (h : Half) (f : Stk → Stk) : State := { s with stk := s.stk.set h (f (s.stk.get h)) }

/-- The home half of a job (R263). -/
def jobHalf (j : Nat) : Half := if j < 512 then .east else .west

/-- A running job's context. -/
def jobOf (s : State) (j : Nat) : Option Job := mfind (s.stk.get (jobHalf j)).jobs (j % 512)
def putJob (s : State) (j : Nat) (x : Job) : State :=
  s.modStk (jobHalf j) fun k => { k with jobs := minsert k.jobs (j % 512) x }

/-- Fields of a staged context (R267). -/
def cxW (c : List Nat) (k : Nat) : Nat := c.getD k 0
def cxIn (c : List Nat) : Nat := bits (cxW c 0) 31 28
def cxOut (c : List Nat) : Nat := bits (cxW c 0) 27 24
def cxOp (c : List Nat) : Nat := bits (cxW c 0) 23 20
def cxAuto (c : List Nat) : Bool := bits (cxW c 0) 19 18 == 1
def cxPush (c : List Nat) : Bool := bitB (cxW c 0) 17
def cxNear (c : List Nat) : Bool := bitB (cxW c 0) 16
def cxOwner (c : List Nat) : Nat := bits (cxW c 0) 5 0
def cxN (c : List Nat) : Nat := bits (cxW c 1) 26 0
def cxNote (c : List Nat) : Nat := bits (cxW c 2) 31 24
def cxWin (c : List Nat) : Nat := bits (cxW c 2) 22 16
def cxA (c : List Nat) : Int := sx 9 (cxW c 2)
def cxDld (c : List Nat) : Nat := bits (cxW c 3) 19 16
def cxDsub (c : List Nat) : Nat := 4 * bits (cxW c 3) 12 8 + bits (cxW c 3) 14 13
def cxTmo (c : List Nat) : Nat := bits (cxW c 3) 3 0
def cxDpa (c : List Nat) : Nat := cxW c 4 + cxW c 5 * 2 ^ 32
def cxMask (c : List Nat) : Nat := cxW c 6 + cxW c 7 * 2 ^ 32

/-- Contributor table entry i: tenant, function, result address. -/
def cxTenant (c : List Nat) (i : Nat) : Nat := bits (cxW c (64 + 4 * i)) 14 9
def cxFn (c : List Nat) (i : Nat) : Nat := bits (cxW c (64 + 4 * i)) 7 0
def cxRes (c : List Nat) (i : Nat) : Nat := cxW c (66 + 4 * i) + cxW c (67 + 4 * i) * 2 ^ 32

/-- The contributors in CMASK. -/
def cxConts (c : List Nat) : List Nat := (List.range 64).filter fun i => bitB (cxMask c) i

/-- SUM, MIN and MAX, and a job under AUTO. -/
def isSum (c : List Nat) : Bool := cxOp c == 0
def autoJob (c : List Nat) : Bool := isSum c && cxAuto c && !fmtInt (cxIn c)

/-- Chunks of a job; elements and lines of chunk k (R263, R271). -/
def nChunks (c : List Nat) : Nat := (cxN c + 4095) / 4096
def chunkElems (c : List Nat) (k : Nat) : Nat := min 4096 (cxN c - 4096 * k)
def chunkLines (c : List Nat) (k : Nat) : Nat := (chunkElems c k * fmtSize (cxIn c) + 63) / 64
def resultLines (c : List Nat) (k : Nat) : Nat := (chunkElems c k * fmtSize (cxOut c) + 63) / 64

/-- STK_JOB_STAT.STATE codes. -/
def jsEXP : Nat := 1
def jsADD : Nat := 2
def jsENDING : Nat := 3
def jsCOMPLETED : Nat := 4
def jsABORTED : Nat := 5

/-- REASON codes. -/
def jrREQUEST : Nat := 1
def jrTIMEOUT : Nat := 2
def jrEARLY : Nat := 3
def jrLOST : Nat := 4
def jrDEST : Nat := 5

def jobStat (j : Nat) : Nat := STK_JOB_STAT (jobHalf j) (j % 512)
def jobState (s : State) (j : Nat) : Nat := s.fget (jobStat j) STK_JOB_STAT_STATE
def setJobState (s : State) (j v : Nat) : State := s.fset (jobStat j) STK_JOB_STAT_STATE v
def jobWbase (s : State) (j : Nat) : Nat := s.fget (jobStat j) STK_JOB_STAT_WBASE

/-- Frames on chip: 440, less 8 for each Stack SRAM bank lost (R264, R425), and what jobs hold of them. -/
def chipFrames (s : State) (h : Half) : Nat := 440 - 8 * nget (s.ref.get h).banksLost 3
def chipUsed (s : State) (h : Half) : Nat :=
  ((s.stk.get h).jobs.map fun e => e.2.chip).sum + ((s.stk.get h.other).jobs.map fun e => e.2.farChip).sum
def spillUsed (s : State) (h : Half) : Nat :=
  ((s.stk.get h).jobs.map fun e => e.2.spill).sum + ((s.stk.get h.other).jobs.map fun e => e.2.farSpill).sum
def chipFree (s : State) (h : Half) : Nat := chipFrames s h - chipUsed s h
def spillFree (s : State) (h : Half) : Nat := 14336 - spillUsed s h

/-- STK_STAT and STK_RUN follow the frames and jobs (R295).
[log 83, DEDUCED] -/
def stkStat (s : State) (h : Half) : State :=
  let s := s.fsets (STK_STAT h) [(STK_STAT_SPILL_FREE, spillFree s h), (STK_STAT_CHIP_FREE, chipFree s h)]
  s.fset (STK_RUN h) STK_RUN_RUNNING (s.stk.get h).jobs.length

/-- The anchor of chunk k (R275, R283): A under FIXED, E - 127 under AUTO and 0 where E is 0, 89 for integers. -/
def anchorOf (x : Job) (k : Nat) : Int :=
  if fmtInt (cxIn x.ctx) then 89
  else if autoJob x.ctx then (if nget x.expMax k = 0 then 0 else (nget x.expMax k : Int) - 127)
  else cxA x.ctx

/-- An open chunk's frame; a cleared frame is empty. -/
def chunkReset : Chunk := ⟨[], [], []⟩
def Job.chunk (x : Job) (k : Nat) : Chunk := (mfind x.chunks k).getD chunkReset

/-- Set flags of an element's special state (R280).
[log 156, DEDUCED] -/
def specAdd (c : Chunk) (e fl : Nat) : Chunk := { c with spec := nset c.spec e (nget c.spec e ||| fl) }

/-- Add to an accumulator of a SUM chunk. -/
def accAdd (c : Chunk) (e : Nat) (q : Int) : Chunk := { c with acc := minsert c.acc e ((mfind c.acc e).getD 0 + q) }

/-- Does MIN or MAX take raw value r over the value it holds (R284)? -/
def better (op f : Nat) (old r : Int) : Bool :=
  if op = 1 then numLt (numOf f r.toNat) (numOf f old.toNat) else numLt (numOf f old.toNat) (numOf f r.toNat)

/-- Combine a MIN, MAX or bitwise value into an accumulator (R284, R285): the first value stands by itself, which for
AND, OR and XOR equals combining it with all ones or zero. -/
def accTake (op f : Nat) (c : Chunk) (e : Nat) (r : Int) : Chunk :=
  match mfind c.acc e with
  | none => { c with acc := minsert c.acc e r }
  | some old =>
    match op with
    | 3 => { c with acc := minsert c.acc e ((old.toNat &&& r.toNat : Nat) : Int) }
    | 4 => { c with acc := minsert c.acc e ((old.toNat ||| r.toNat : Nat) : Int) }
    | 5 => { c with acc := minsert c.acc e ((old.toNat ^^^ r.toNat : Nat) : Int) }
    | _ => if better op f old r then { c with acc := minsert c.acc e r } else c

/-- Apply one addend (R276, R280, R284, R285). -/
def applyElem (op f : Nat) (a : Int) (c : Chunk) (e raw : Nat) : Chunk :=
  if 3 ≤ op then accTake op f c e raw
  else
    match numOf f raw with
    | .nan => specAdd c e sNAN
    | .inf neg => if op = 0 then specAdd c e (if neg then sNINF else sPINF) else accTake op f c e raw
    | .fin neg m x =>
      if op = 0 then
        (match gridOf a neg m x with
         | some q => accAdd c e q
         | none => specAdd c e sRANGE)
      else accTake op f c e raw

/-- Apply an addend line: element i of the line is element l * (64 / size) + i of the chunk; bytes beyond element N - 1
are ignored (R272). -/
def applyLine (x : Job) (k l data : Nat) (c : Chunk) : Chunk :=
  let f := cxIn x.ctx
  let z := fmtSize f
  (List.range (64 / z)).foldl (fun c i =>
    let e := l * (64 / z) + i
    if e < chunkElems x.ctx k then applyElem (cxOp x.ctx) f (anchorOf x k) c e (bytesAt data (i * z) z) else c) c

/-- The result of element e of chunk k (R279, R284, R285), with whether it counts in OVF_COUNT. An element of a MIN, MAX
or bitwise chunk that holds no value cannot occur in a complete chunk. -/
def elemResult (x : Job) (k : Nat) (c : Chunk) (e : Nat) : Nat × Bool :=
  let f := cxOut x.ctx
  let sp := nget c.spec e
  let v := (mfind c.acc e).getD 0
  if isSum x.ctx then sumResult f (anchorOf x k) v sp
  else if 3 ≤ cxOp x.ctx then (v.toNat, false)
  else if sp ≠ 0 then specResult f sp
  else numResult f (numOf (cxIn x.ctx) v.toNat)

/-- Result line l of chunk k as a 64-byte number, and its bytes. -/
def resultLine (x : Job) (k l : Nat) : Nat × Nat :=
  let z := fmtSize (cxOut x.ctx)
  let n := min (64 / z) (chunkElems x.ctx k - l * (64 / z))
  (((List.range n).map fun i => (elemResult x k (x.chunk k) (l * (64 / z) + i)).1 * 2 ^ (8 * z * i)).sum, n * z)

/-- Contributors that receive results and status lines (R286, R288). -/
def receivers (c : List Nat) : List Nat := (cxConts c).filter fun i => cxRes c i ≠ 0

/-- The upstream sub-port of a tenant that half h can send to: one in the other half only while the halves are not split (R185). -/
def uspReach (s : State) (h : Half) (t : Nat) : Option Nat :=
  (uspOf s h t).filter fun d => nodeHalf d == h || !isSplit s h

/-- The upstream sub-ports of a job's receivers, each once. -/
def recvNodes (s : State) (j : Nat) (c : List Nat) : List Nat :=
  ((receivers c).filterMap fun i => uspReach s (jobHalf j) (cxTenant c i)).dedup

/-- Send one CXL.io MWr to every receiver of a job as one multicast message; the egress addresses each copy (R286). `key`
is chunk * 1024 + line, or 2^40 for a status line; the last line of a chunk is marked final.
[log 84, DESIGN CHOICE] -/
def stkPush (s : State) (j : Nat) (c : List Nat) (key data len : Nat) (final : Bool) : State :=
  let h := jobHalf j
  let st := 24 + j % 4
  match recvNodes s j c with
  | [] => s
  | d :: r => originate s h st { blankMsg .mWr (unitNode h st) d j 0 (tcStk s h) with
      tgt := ⟨9, j, key⟩, data := data, len := len, slots := msgSlots .mWr len false, mc := d :: r, final := final }

/-- The 64 bytes of a job's status line (R288). -/
def statusData (s : State) (j : Nat) (x : Job) : Nat :=
  let h := jobHalf j
  let a := jobStat j
  let head := s.fget a STK_JOB_STAT_TOO_LATE * 2 ^ 31 + s.fget a STK_JOB_STAT_REASON * 2 ^ 24
    + s.fget a STK_JOB_STAT_STATE * 2 ^ 16 + j
  head + jobWbase s j * 2 ^ 32 + x.nWritten * 2 ^ 64
    + (s.rd (STK_JOB_CNT0 h (j % 512))).toNat * 2 ^ 96 + (s.rd (STK_JOB_CNT1 h (j % 512))).toNat * 2 ^ 128
    + x.seq * 2 ^ 160 + s.now h * 2 ^ 192 + s.fget (STK_JOB_CNT2 h (j % 512)) STK_JOB_CNT2_DUP_CNT * 2 ^ 256

/-- Send a status line (R288): SEQ counts from 1.
[log 84, DESIGN CHOICE] -/
def sendStatus (s : State) (j : Nat) : State :=
  match jobOf s j with
  | none => s
  | some x =>
    let x := { x with seq := x.seq + 1, since := 0 }
    stkPush (putJob s j x) j x.ctx (2 ^ 40) (statusData s j x) 64 false

/-- A job ends (R289, R292): its final status line goes out, it stops running, its frames are released, and the job-end
event is raised. -/
def endJob (s : State) (j : Nat) (ok : Bool) (at_ : Nat) : State :=
  let h := jobHalf j
  let s := s.wr64 (STK_JOB_END_LO h (j % 512)) at_
  let s := sendStatus (setJobState s j (if ok then jsCOMPLETED else jsABORTED)) j
  let s := s.modStk h fun k => { k with jobs := merase k.jobs (j % 512) }
  let s := s.modStk h.other fun k => { k with shadow := merase k.shadow j }
  let s := stkStat (stkStat s h) h.other
  raise s h (evt 12 0 j (s.rd (jobStat j)).toNat)

/-- End a job whose last complete chunk is written (R289, R291). -/
def settleJob (s : State) (j : Nat) : State :=
  match jobOf s j with
  | none => s
  | some x =>
    match x.endAt with
    | some t => if x.complete = [] then endJob s j false t else s
    | none => if x.nWritten = nChunks x.ctx then endJob s j true (x.commit.getD 0) else s

/-- A job ends ABORTED for a reason at a boundary (R289, R291): incomplete chunks are discarded, complete ones are
still written. -/
def abortJob (s : State) (j reason : Nat) : State :=
  match jobOf s j with
  | none => s
  | some x =>
    let s := setJobState (s.fset (jobStat j) STK_JOB_STAT_REASON reason) j jsENDING
    let keep := x.chunks.filter fun e => (mfind x.complete e.1).isSome
    let s := s.modStk (jobHalf j).other fun k => { k with shadow := merase k.shadow j }
    settleJob (putJob s j { x with endAt := some (s.now (jobHalf j)), chunks := keep }) j

/-- Is the job still taking contributions: running and not aborted (R272, R291)? -/
def jobOpen (s : State) (j : Nat) : Bool := (jobOf s j).any fun x => x.endAt.isNone

/-- Count a failed or denied result line (R287): once, it is retried in the next Transit; twice, the job ends with
DEST, and nothing more of its chunk is sent (R291).
[log 86, DEDUCED] -/
def lineFailed (s : State) (j key : Nat) : State :=
  match jobOf s j with
  | none => s
  | some x =>
    match mfind x.complete (key / 1024), mfind x.retried key with
    | none, _ => s
    | some _, none => putJob s j { x with retried := minsert x.retried key (s.tn (jobHalf j) + 1) }
    | some _, some _ => putJob s j { x with dest := true, complete := merase x.complete (key / 1024),
                                            todo := x.todo.filter fun q => q.1 / 1024 ≠ key / 1024 }

/-- The piece of memory a result line goes to. -/
def destPiece (x : Job) (k l : Nat) : Piece :=
  ⟨0, cxDsub x.ctx / 4 * 128 + cxDsub x.ctx % 4 * 32 + cxDld x.ctx * 2,
   cxDpa x.ctx + 4096 * k * fmtSize (cxOut x.ctx) + 64 * l⟩

/-- The message of a MEM result line under an internal tag, allowed under generation g. -/
def memLine (s : State) (j k l e g : Nat) (x : Job) : Msg :=
  let h := jobHalf j
  let r := resultLine x k l
  let op : Op := if r.2 = 64 then .memWr else .memWrPtl
  { blankMsg op (unitNode h (24 + j % 4)) (cxDsub x.ctx) 0 (cxOwner x.ctx) (tcStk s h) with
    ld := cxDld x.ctx, tgt := destPiece x k l, data := r.1, len := r.2, itag := some e, gen := g, checked := true }

/-- Put a message into the Catalogue's input of half h. -/
def toCatalogue (s : State) (h : Half) (m : Msg) : State :=
  let r := newMsg s m
  r.2.modCore h fun c => { c with inbox := lset c.inbox 30 (lget c.inbox 30 ++ [r.1]) }

/-- The Umpire checks a MEM result line as a write of OWNER, under the generation now in force; one that it allows waits to be sent,
a denied one has failed (R287). A PUSH line is not checked. Nothing of a chunk that is no longer to be written is sent (R291). -/
def queueLine (s : State) (j key : Nat) : State :=
  match jobOf s j with
  | none => s
  | some x =>
    let h := jobHalf j
    let p := destPiece x (key / 1024) (key % 1024)
    if (mfind x.complete (key / 1024)).isNone then s
    else if cxPush x.ctx then putJob s j { x with todo := x.todo ++ [(key, 0)] }
    else match check s h (.tenant (cxOwner x.ctx)) p pW with
      | .deny rule => lineFailed (umpFault s h (cxOwner x.ctx) pW p rule) j key
      | .allow => putJob (flightBegin s h (s.gen h)) j { x with todo := x.todo ++ [(key, s.gen h)] }

/-- Send a MEM result line that the Umpire allowed under generation g (R286). With no internal tag free it stays to be sent. -/
def sendMemLine (s : State) (j key g : Nat) (x : Job) : Bool × State :=
  let h := jobHalf j
  match takeItag s h (.stk j (key / 1024) (key % 1024) 0) (cxOwner x.ctx) (some g) false false with
  | none => (false, s)
  | some (e, s) =>
    let m := memLine s j (key / 1024) (key % 1024) e g x
    (true, if (pieceWin s m.tgt).isSome then toCatalogue s h m else originate s h (24 + j % 4) m)

/-- Send one result line, by the job's destination. -/
def sendLine (s : State) (j key g : Nat) (x : Job) : Bool × State :=
  if cxPush x.ctx then
    let r := resultLine x (key / 1024) (key % 1024)
    (true, stkPush s j x.ctx key r.1 r.2 (decide (key % 1024 + 1 = resultLines x.ctx (key / 1024))))
  else sendMemLine s j key g x

/-- Send the result lines that wait, in order.
[log 156, DEDUCED] -/
def pumpJob (s : State) (j : Nat) : State :=
  match jobOf s j with
  | none => s
  | some x =>
    x.todo.foldl (fun s e =>
      match jobOf s j with
      | none => s
      | some y =>
        let r := sendLine s j e.1 e.2 y
        if r.1 then
          match jobOf r.2 j with
          | some z => putJob r.2 j { z with todo := z.todo.erase e }
          | none => r.2
        else r.2) s

/-- Every contributor in CMASK has delivered every line of the chunk (R286)? -/
def chunkDone (x : Job) (k : Nat) : Bool :=
  (List.range (chunkLines x.ctx k)).all fun l => (nget (x.chunk k).lines l) &&& cxMask x.ctx == cxMask x.ctx

/-- Copies of a PUSH chunk's last line to wait for: those whose tenant has an upstream sub-port within reach. -/
def pushCopies (s : State) (j : Nat) (c : List Nat) : Nat :=
  ((receivers c).filter fun i => (uspReach s (jobHalf j) (cxTenant c i)).isSome).length

/-- PUSH copies with no upstream sub-port are not sent (R287). -/
def pushMissing (s : State) (j : Nat) (c : List Nat) : State :=
  s.fbump (STK_ERRCNT2 (jobHalf j)) STK_ERRCNT2_NOTSENT_CNT ((receivers c).length - pushCopies s j c)

/-- The results of a chunk are counted (R279-R281).
[log 83, DEDUCED] -/
def countResults (s : State) (j k : Nat) (x : Job) : State :=
  let h := jobHalf j
  let es := List.range (chunkElems x.ctx k)
  let rng := (es.filter fun e => bitB (nget (x.chunk k).spec e) 3).length
  let ovf := (es.filter fun e => (elemResult x k (x.chunk k) e).2).length
  (s.fbump (STK_JOB_CNT0 h (j % 512)) STK_JOB_CNT0_RANGE_COUNT rng).fbump (STK_JOB_CNT1 h (j % 512)) STK_JOB_CNT1_OVF_COUNT ovf

/-- Written chunks let WBASE advance (R286). -/
def advanceWbase (w : Nat) (l : List Nat) : Nat → Nat
  | 0 => w
  | n + 1 => if l.contains w then advanceWbase (w + 1) l n else w

/-- A chunk is written (R286): its frame is cleared, WBASE advances, and a status line goes out as NOTE_STEP asks
(R288). -/
def chunkWritten (s : State) (j k : Nat) : State :=
  match jobOf s j with
  | none => s
  | some x =>
    let ws := k :: x.written
    let x := { x with chunks := merase x.chunks k, complete := merase x.complete k, written := ws,
                      nWritten := x.nWritten + 1, since := x.since + 1 }
    let s := s.fset (jobStat j) STK_JOB_STAT_WBASE (advanceWbase (jobWbase s j) ws ws.length)
    let s := tally (putJob s j x) (jobHalf j) 4 2 (j % 512) 1
    let last := x.nWritten = nChunks x.ctx ∨ (x.endAt.isSome ∧ x.complete = [])
    let s := if cxNote x.ctx ≠ 0 ∧ cxNote x.ctx ≤ x.since ∧ ¬ last then sendStatus s j else s
    settleJob s j

/-- A chunk is complete (R286): its results are counted and its lines go out. The last chunk's completion is the
job's commit point (R289). -/
def completeChunk (s : State) (j k : Nat) : State :=
  match jobOf s j with
  | none => s
  | some x =>
    let n := if cxPush x.ctx then pushCopies s j x.ctx else resultLines x.ctx k
    let s := countResults s j k x
    let s := if cxPush x.ctx then pushMissing s j x.ctx else s
    let x := { x with complete := minsert x.complete k n }
    let done := x.nWritten + x.complete.length = nChunks x.ctx
    let x := if done then { x with commit := some (s.now (jobHalf j)) } else x
    let s := if done then setJobState s j jsENDING else s
    let s := pumpJob ((List.range (resultLines x.ctx k)).foldl (fun s l => queueLine s j (k * 1024 + l)) (putJob s j x)) j
    if n = 0 then chunkWritten s j k else s

/-- The exponent phase ends when every contributor has delivered every exponent line (R283). -/
def expLines (c : List Nat) : Nat := (nChunks c + 63) / 64
def expDone (x : Job) : Bool :=
  (List.range (expLines x.ctx)).all fun l => (nget x.expLines l) &&& cxMask x.ctx == cxMask x.ctx
def expEnd (s : State) (j : Nat) : State :=
  match jobOf s j with
  | none => s
  | some x => if expDone x then sendStatus (setJobState s j jsADD) j else s

/-- Bytes of an exponent line raise the largest byte of each chunk (R282, R283). -/
def expTake (x : Job) (l data : Nat) : Job :=
  (List.range 64).foldl (fun x b =>
    let k := 64 * l + b
    if k < nChunks x.ctx then { x with expMax := nset x.expMax k (max (nget x.expMax k) (bytesAt data b 1)) } else x) x

/-- The contributor that a write comes from (R272). -/
def contributor (c : List Nat) (m : Msg) : Option Nat :=
  let fn := if m.op = .mWr then m.ld else 0
  (cxConts c).find? fun i => cxTenant c i == m.tenant && cxFn c i == fn

end Sys2Proof.Machine
end

