-- ==== Sys2Proof/Machine/Stacker.lean ====
section
/-! DEFINITION. The Stacker's commands (spec 09), its job rows at the seal and the boundary (R268, R269, R289, R290), and
what the egress does with a copy of a result or status line (R286, R287). -/

namespace Sys2Proof.Machine

open Sys2Proof

/-- A contribution line's place: job, whether it is an exponent line, and its byte offset in its region (R271). -/
def lineJob (m : Msg) : Nat := m.tgt.addr / 2 ^ 30 % 1024
def lineExp (m : Msg) : Bool := decide (2 ^ 29 ≤ m.tgt.addr % 2 ^ 30)
def lineOff (m : Msg) : Nat := m.tgt.addr % 2 ^ 29

/-- A rejected line (R272): an MWr is logged as an Unsupported Request at the writer's upstream vPPB; a MemWr receives
NDR Cmp and is reported as a lost write. -/
def rejectLine (s : State) (m : Msg) : State :=
  if m.op = .mWr then endFlight (aerMsg s m.tenant 32 aerUR m) m else synthReport s m (levelOf s m)

/-- A line that is taken or discarded as a duplicate: a MemWr receives its NDR.
[log 156, DEDUCED] -/
def answerLine (s : State) (h : Half) (m : Msg) : State :=
  let s := endFlight s m
  if m.op = .mWr then s
  else originate s h 24 { blankMsg .ndr (unitNode h 24) m.src m.tag m.tenant m.tc with gen := m.gen, slots := 1 }

/-- The chunk and the line in it of an addend line. -/
def lineChunk (c : List Nat) (m : Msg) : Nat := lineOff m / 64 / (64 * fmtSize (cxIn c))
def lineIn (c : List Nat) (m : Msg) : Nat := lineOff m / 64 % (64 * fmtSize (cxIn c))

/-- Does the line cover part of a line, or lie beyond the job's last element or block (R272)? -/
def badLineWrite (c : Option (List Nat)) (m : Msg) : Bool :=
  m.len != 64 || m.tgt.addr % 64 != 0
    || match c with
       | none => false
       | some c => if lineExp m then decide (nChunks c ≤ lineOff m) else decide (cxN c * fmtSize (cxIn c) ≤ lineOff m)

/-- The frame that takes a line in half h: the home half's, or the shadow frame of a NEAR job (R274). -/
def frameOf (s : State) (h : Half) (j k : Nat) (x : Job) : Chunk :=
  if h = jobHalf j then x.chunk k else (mfind ((mfind (s.stk.get h).shadow j).getD []) k).getD chunkReset
def putFrame (s : State) (h : Half) (j k : Nat) (x : Job) (c : Chunk) : State :=
  if h = jobHalf j then putJob s j { x with chunks := minsert x.chunks k c }
  else s.modStk h fun y => { y with shadow := minsert y.shadow j (minsert ((mfind y.shadow j).getD []) k c) }

/-- What SECDED finds while a line is applied (R293).
[log 86, DEDUCED] -/
def stkEcc (s : State) (h : Half) (j k : Nat) (e : StkEcc) : State :=
  let unc := fun (s : State) (u : StkUnit) =>
    let s := s.fbump (STK_ERRCNT3 h) STK_ERRCNT3_ECC_UNC 1
    match u with
    | .sram b => raise s h (evtU 11 0 b 3 b j)
    | .spill b => raise s h (evtU 11 0 b 5 b j)
  match e with
  | .clean => s
  | .corrected (.sram b) => raise (s.fbump (STK_ERRCNT3 h) STK_ERRCNT3_ECC_CORR 1) h (evtU 11 1 b 3 b j)
  | .corrected (.spill b) => raise (s.fbump (STK_ERRCNT3 h) STK_ERRCNT3_ECC_CORR 1) h (evtU 16 5 b 5 b j)
  | .acc b el =>
    let s := unc s b
    (match jobOf s j with
     | some x => putFrame s h j k x (specAdd (frameOf s h j k x) (el % 4096) sLOST)
     | none => s)
  | .state b =>
    let s := unc s b
    (match jobOf s j with
     | some x => putJob s j { x with lost := true }
     | none => s)

/-- A duplicate is discarded and counted (R272).
[log 156, DEDUCED] -/
def dupLine (s : State) (h : Half) (j : Nat) (m : Msg) : State :=
  let s := s.fbump (STK_JOB_CNT2 (jobHalf j) (j % 512)) STK_JOB_CNT2_DUP_CNT 1
  answerLine (tally s h 4 1 (j % 512) 1) h m

/-- An exponent line of contributor i (R272, R282, R283).
[log 85, DEDUCED] -/
def takeExp (s : State) (h : Half) (j i : Nat) (x : Job) (m : Msg) : State :=
  let l := lineOff m / 64
  if autoJob x.ctx = false ∨ jobState s j ≠ jsEXP then
    rejectLine (s.fbump (STK_ERRCNT1 h) STK_ERRCNT1_BADWR_CNT 1) m
  else if bitB (nget x.expLines l) i then dupLine s h j m
  else
    let y := { expTake x l m.data with expLines := nset x.expLines l (nget x.expLines l ||| 2 ^ i) }
    expEnd (answerLine (tally (putJob s j y) h 4 0 (j % 512) 1) h m) j

/-- An addend line of contributor i (R272, R273). A copy of a line that crossed with a partial is a duplicate too. -/
def takeAddend (s : State) (h : Half) (j i : Nat) (x : Job) (m : Msg) (ecc : StkEcc) : State :=
  let k := lineChunk x.ctx m
  let l := lineIn x.ctx m
  let w := jobWbase s j
  if jobState s j = jsEXP then
    rejectLine ((putJob s j { x with early := true }).fbump (STK_ERRCNT2 h) STK_ERRCNT2_EARLY_CNT 1) m
  else if k < w ∨ w + cxWin x.ctx ≤ k then rejectLine (s.fbump (STK_ERRCNT1 h) STK_ERRCNT1_WINMISS_CNT 1) m
  else
    let c := frameOf s h j k x
    if bitB (nget c.lines l) i || bitB (nget (x.chunk k).lines l) i then dupLine s h j m
    else
      let c := applyLine x k l m.data { c with lines := nset c.lines l (nget c.lines l ||| 2 ^ i) }
      let s := stkEcc (answerLine (tally (putFrame s h j k x c) h 4 0 (j % 512) 1) h m) h j k ecc
      match jobOf s j with
      | some y => if h = jobHalf j ∧ chunkDone y k ∧ (mfind y.complete k).isNone then completeChunk s j k else s
      | none => s

/-- A request of the aperture that writes nothing: the Stacker gives no data, so it ends as one that Kezen cannot complete (R114).
[log 156, DEDUCED] -/
def apertureRead (s : State) (m : Msg) : State := synthEnd s m 0

/-- The ingest's next line of a write, and the rest of the write behind it; a line short of 64 bytes is a part. -/
def splitLine (m : Msg) : Msg × Option Msg :=
  let n := 64 - m.tgt.addr % 64
  if m.len ≤ n then (m, none)
  else ({ m with len := n, data := m.data % 2 ^ (8 * n), checked := false },
    some { m with tgt := { m.tgt with addr := m.tgt.addr + n }, len := m.len - n, data := m.data / 2 ^ (8 * n) })

/-- Take one line by the cases of R272. A NEAR job takes lines in the half they entered; any other in its home half. -/
def takeLine (s : State) (h : Half) (m : Msg) (ecc : StkEcc) : State :=
  let j := lineJob m
  let x := if jobOpen s j then jobOf s j else none
  let here := match x with
    | some x => h = jobHalf j ∨ cxNear x.ctx
    | none => false
  if badLineWrite (x.map fun x => x.ctx) m then rejectLine (s.fbump (STK_ERRCNT1 h) STK_ERRCNT1_BADWR_CNT 1) m
  else
    match x with
    | none => rejectLine (s.fbump (STK_ERRCNT0 h) STK_ERRCNT0_NOJOB_CNT 1) m
    | some x =>
      if here = false then rejectLine (s.fbump (STK_ERRCNT0 h) STK_ERRCNT0_NOJOB_CNT 1) m
      else
        match contributor x.ctx m with
        | none => rejectLine (s.fbump (STK_ERRCNT0 h) STK_ERRCNT0_NOTC_CNT 1) m
        | some i => if lineExp m then takeExp s h j i x m else takeAddend s h j i x m ecc

/-- STACKER_LINE_RECEIVED (R272): the next line of the writes at ingest station 24 + q of half h. -/
def execStackerLineReceived (h : Half) (q : BitVec 2) (ecc : StkEcc) (s : State) : Host.Outcome State Fault Refusal :=
  match inboxFind s h (24 + q.toNat) fun _ => true with
  | none => .next s
  | some (n, m) =>
    if opWrites m.op = false then .next (apertureRead (inboxTake s h (24 + q.toNat) n) m)
    else match splitLine m with
      | (x, none) => .next (takeLine (inboxTake s h (24 + q.toNat) n) h x ecc)
      | (x, some y) => .next (takeLine (s.modNet fun t => { t with msgs := minsert t.msgs n y }) h x ecc)

/-- Contributors of a job whose traffic enters the half that is not its home (R274). -/
def farMask (s : State) (j : Nat) (c : List Nat) : Nat :=
  ((cxConts c).filter fun i => match uspOf s (jobHalf j) (cxTenant c i) with
    | some d => decide (nodeHalf d ≠ jobHalf j)
    | none => false).foldl (fun m i => m ||| 2 ^ i) 0

/-- A shadow frame is ready when every far contributor has delivered every line of the chunk (R274). -/
def shadowReady (x : Job) (k fm : Nat) (c : Chunk) : Bool :=
  fm != 0 && (List.range (chunkLines x.ctx k)).all fun l => (nget c.lines l) &&& fm == fm

/-- A partial is a duplicate when its contributors' bits are already set for every line (R274).
[log 156, DEDUCED] -/
def partialDup (x : Job) (k fm : Nat) : Bool :=
  (List.range (chunkLines x.ctx k)).all fun l => (nget (x.chunk k).lines l) &&& fm == fm

/-- Add a partial into the home frame (R274). -/
def mergePartial (x : Job) (k fm : Nat) (p : Chunk) : Job :=
  let op := cxOp x.ctx
  let c := x.chunk k
  let c := p.acc.foldl (fun c e => if op = 0 then accAdd c e.1 e.2 else accTake op (cxIn x.ctx) c e.1 e.2) c
  let c := p.spec.foldl (fun c e => specAdd c e.1 e.2) c
  let ls := (List.range (chunkLines x.ctx k)).foldl (fun m l => nset m l (nget m l ||| fm)) c.lines
  { x with chunks := minsert x.chunks k { c with lines := ls } }

/-- PARTIAL_RECEIVED (R274): the ready shadow frame of chunk k crosses and is added, or discarded as a duplicate; it
waits while the bridge is not UP. -/
def execPartialReceived (j : BitVec 10) (k : BitVec 14) (s : State) : Host.Outcome State Fault Refusal :=
  let j := j.toNat
  let k := k.toNat
  let h := jobHalf j
  match jobOf s j, mfind ((mfind (s.stk.get h.other).shadow j).getD []) k with
  | some x, some p =>
    let fm := farMask s j x.ctx
    if s.phase h ≠ phUP ∨ shadowReady x k fm p = false then .next s
    else
      let s := s.modStk h.other fun y => { y with shadow := minsert y.shadow j (merase ((mfind y.shadow j).getD []) k) }
      let s := tally s h 4 3 (j % 512) 1
      let w := jobWbase s j
      if partialDup x k fm ∨ k < w ∨ x.endAt.isSome then .next s
      else
        let y := mergePartial x k fm p
        let s := putJob s j y
        .next (if chunkDone y k ∧ (mfind y.complete k).isNone then completeChunk s j k else s)
  | _, _ => .next s

/-- The ended result-line requests of job j. -/
def ownerJob (o : IOwner) (j : Nat) : Bool :=
  match o with
  | .stk i _ _ _ => i == j
  | _ => false

/-- Acknowledged lines of chunks are taken off what each chunk waits for. -/
def ackLines (s : State) (j : Nat) : State :=
  let l := s.net.idone.filter fun d => ownerJob d.own j && d.ok
  l.foldl (fun s d =>
    match d.own, jobOf s j with
    | .stk _ k _ _, some x =>
      idoneTake (putJob s j { x with complete := (match mfind x.complete k with
        | some n => minsert x.complete k (n - 1)
        | none => x.complete) }) d
    | _, _ => idoneTake s d) s

/-- CHUNK_WRITTEN (R286): the acknowledgements of job j are taken; a chunk with every one of them is written. -/
def execChunkWritten (j : BitVec 10) (s : State) : Host.Outcome State Fault Refusal :=
  let j := j.toNat
  let s := pumpJob (ackLines s j) j
  match jobOf s j with
  | none => .next s
  | some x =>
    .next ((x.complete.filter fun e => e.2 = 0).foldl (fun s e =>
      if (jobOf s j).any fun y => y.todo.any fun q => q.1 / 1024 == e.1 then s else chunkWritten s j e.1) s)

/-- A line that failed in an earlier Transit is checked and sent again (R287).
[log 156, DEDUCED] -/
def retryLines (s : State) (j : Nat) : State :=
  match jobOf s j with
  | none => s
  | some x =>
    let due := x.retried.filter fun e => 0 < e.2 ∧ e.2 ≤ s.tn (jobHalf j)
    let s := putJob s j { x with retried := due.foldl (fun m e => minsert m e.1 0) x.retried }
    pumpJob (due.foldl (fun s e => queueLine s j e.1) s) j

/-- RESULT_WRITE_RETRY (R287): failed result lines of job j are noted, and those that failed once in an earlier Transit
are sent again; a second failure ends the job with DEST at the next boundary. -/
def execResultWriteRetry (j : BitVec 10) (s : State) : Host.Outcome State Fault Refusal :=
  let j := j.toNat
  let l := s.net.idone.filter fun d => ownerJob d.own j && !d.ok
  let s := l.foldl (fun s d => match d.own with
    | .stk _ k i _ => idoneTake (lineFailed s j (k * 1024 + i)) d
    | _ => s) s
  .next (retryLines s j)

/-- The job's age has reached its timeout, and its commit point is still to come (R289). -/
def jobExpired (s : State) (j : Nat) (x : Job) : Bool :=
  x.commit.isNone && x.endAt.isNone && decide (x.start + toNs (cxTmo x.ctx) ≤ s.now (jobHalf j))

/-- JOB_TIMEOUT (R289). -/
def execJobTimeout (j : BitVec 10) (s : State) : Host.Outcome State Fault Refusal :=
  match jobOf s j.toNat with
  | none => .next s
  | some x => .next (if jobExpired s j.toNat x then abortJob s j.toNat jrTIMEOUT else s)

/-- What ends a job at a boundary beside its rows, in the order of R289. A job that is ending already ends here when its last
chunk was lost to DEST. -/
def jobBoundary (s : State) (j : Nat) : State :=
  match jobOf s j with
  | none => s
  | some x =>
    if x.endAt.isSome then settleJob s j
    else if jobExpired s j x then abortJob s j jrTIMEOUT
    else if x.early ∧ x.commit.isNone then abortJob s j jrEARLY
    else if x.lost ∧ x.commit.isNone then abortJob s j jrLOST
    else if x.dest then abortJob s j jrDEST
    else s

/-- Every job of a half at a boundary.
[log 156, DEDUCED] -/
def jobsBoundary (s : State) (h : Half) : State :=
  (s.stk.get h).jobs.foldl (fun s e => jobBoundary s (e.1 + 512 * h.idx)) s

/-- A context's own limits (R263, R267, R270). -/
def ctxAllowed (c : List Nat) : Bool :=
  decide (cxIn c ≤ 6) && decide (cxOut c ≤ 7) && decide (cxOp c ≤ 5) && decide (bits (cxW c 0) 19 18 ≤ 1)
    && (isSum c || bits (cxW c 0) 19 18 == 0)
    && (decide (cxOp c ≤ 2) || (fmtInt (cxIn c) && cxOut c == cxIn c))
    && decide (1 ≤ cxN c) && decide (cxN c ≤ 2 ^ 26) && decide (1 ≤ cxWin c) && decide (cxWin c ≤ 64) && cxMask c != 0

/-- Every contributor names a function that exists, and no two the same one (R269). -/
def ctxConts (s : State) (c : List Nat) : Bool :=
  let l := (cxConts c).map fun i => (cxTenant c i, cxFn c i)
  (l.all fun e => fnExists s e.1 e.2) && decide l.Nodup

/-- The MEM destination (R269): in the home half, downstream, trained, and holding the whole range. -/
def ctxDest (s : State) (h : Half) (c : List Nat) : Bool :=
  cxPush c || (decide (nodeHalf (cxDsub c) = h) && s.fget (PRT_CFG (cxDsub c / 4)) PRT_CFG_ROLE == 1
    && match (s.sub (cxDsub c)).dev with
       | none => false
       | some d => d.lds.any fun l => l.ld == cxDld c && decide (cxDpa c + cxN c * fmtSize (cxOut c) ≤ l.size))

/-- Enough frames in a half (R266, R269). -/
def framesFree (s : State) (h : Half) (w : Nat) : Bool := decide (w ≤ chipFree s h + spillFree s h)

/-- The Stacker of a half may run jobs (R269). -/
def stkMay (s : State) (h : Half) : Bool := s.flag (CORE_CTL h) CORE_CTL_DF_EN && s.flag (STK_CTL h) STK_CTL_EN

/-- The context that a committed job row carries. -/
def rowCtx (ws : List Word) : List Nat := (ws.drop 8).map BitVec.toNat

/-- Check a job row at the seal (R269).
[log 156, DEDUCED] -/
def jobCheck (s : State) (h : Half) (ws : List Word) : Option Nat :=
  let op := bits (rowW ws 0) 31 28
  let j := bits (rowW ws 0) 9 0
  let c := rowCtx ws
  let far := cxNear c
  firstFail ([(stLIMIT, op == 1 || op == 2), (stLIMIT, decide (jobHalf j = h))] ++
    (if op = 1 then
      [(stNO_TARGET, stkMay s h && (!far || stkMay s h.other)), (stBUSY, (jobOf s j).isNone), (stLIMIT, ctxAllowed c),
       (stNO_TARGET, ctxConts s c), (stNO_TARGET, ctxDest s h c),
       (stBUSY, framesFree s h (cxWin c) && (!far || framesFree s h.other (cxWin c)))]
     else [(stNO_TARGET, (jobOf s j).isSome)]))

/-- Start a job (R266, R288): its registers clear, its frames are reserved, on chip first, and a job with no exponent phase
starts in its add phase with its first status line. -/
def jobStart (s : State) (j : Nat) (c : List Nat) : State :=
  let h := jobHalf j
  let chip := min (cxWin c) (chipFree s h)
  let far := min (cxWin c) (chipFree s h.other)
  let x : Job := ⟨c, s.now h, chip, cxWin c - chip, if cxNear c then far else 0, if cxNear c then cxWin c - far else 0,
    [], [], [], [], [], [], [], 0, 0, 0, none, none, false, false, false⟩
  let s := s.wr (jobStat j) 0
  let s := ((s.wr (STK_JOB_CNT0 h (j % 512)) 0).wr (STK_JOB_CNT1 h (j % 512)) 0).wr (STK_JOB_CNT2 h (j % 512)) 0
  let s := setJobState s j (if autoJob c then jsEXP else jsADD)
  let s := stkStat (stkStat (putJob s j x) h) h.other
  let s := s.modStk h fun k => { k with ctxs := minsert k.ctxs (j % 512) c }
  if autoJob c then s else sendStatus s j

/-- Apply a job row at a boundary (R289, R290): a start, or an abort, which comes too late after a commit point stamped before the
boundary. -/
def jobApply (s : State) (ws : List Word) : State :=
  let j := bits (rowW ws 0) 9 0
  if bits (rowW ws 0) 31 28 = 1 then jobStart s j (rowCtx ws)
  else
    match jobOf s j with
    | none => s
    | some x =>
      if x.commit.any fun c => decide (c < s.now (jobHalf j)) then s.fset (jobStat j) STK_JOB_STAT_TOO_LATE 1
      else if x.endAt.isSome then s
      else abortJob s j jrREQUEST

/-- Every job with a spill frame in half h ends with reason LOST at the next boundary (R416). -/
def spillLost (s : State) (h : Half) : State :=
  let mark := fun (far : Bool) (m : SMap Job) => m.map fun e =>
    if 0 < (if far then e.2.farSpill else e.2.spill) then (e.1, { e.2 with lost := true }) else e
  (s.modStk h fun k => { k with jobs := mark false k.jobs }).modStk h.other fun k => { k with jobs := mark true k.jobs }

/-- May a copy of a Stacker line go to function fn of tenant t (R287, R369, R374)? -/
def copyMay (s : State) (t fn : Nat) : Bool := fnForms s t fn && !(s.fn t fn).freeze && !fnFrozen s t fn

/-- The address of receiver i's copy (R286, R288): RES_ADDR for a status line, RES_ADDR + 64 + the byte offset for a result. -/
def copyAddr (c : List Nat) (i key : Nat) : Nat :=
  if key = 2 ^ 40 then cxRes c i else cxRes c i + 64 + 4096 * (key / 1024) * fmtSize (cxOut c) + 64 * (key % 1024)

/-- A copy of a result or status line leaves at sub-port d, to every receiver behind it (R286, R287): one that may not be
sent, or whose message was flushed (`sent` false), counts in NOTSENT_CNT. The copies of a chunk's last line are acknowledged as they leave.
[log 84, DESIGN CHOICE] -/
def stkCopyOut (s : State) (d : Nat) (sent : Bool) (m : Msg) : State :=
  let j := m.tgt.idx
  let push := m.tgt.addr != 2 ^ 40
  match mfind (s.stk.get (jobHalf j)).ctxs (j % 512) with
  | none => s
  | some c =>
    ((receivers c).filter fun i => uspOf s (jobHalf j) (cxTenant c i) = some d).foldl (fun s i =>
      let s := if sent && copyMay s (cxTenant c i) (cxFn c i) then s.emit (reqSent d { m with tgt := ⟨1, 0, copyAddr c i m.tgt.addr⟩ } 0)
        else if push then s.fbump (STK_ERRCNT2 (jobHalf j)) STK_ERRCNT2_NOTSENT_CNT 1 else s
      if push && m.final then s.modNet fun n =>
          { n with idone := n.idone ++ [⟨.stk j (m.tgt.addr / 1024) (m.tgt.addr % 1024) i, jobHalf j, 0, true, 0, false⟩] }
      else s) s

/-- A write of STK_CTL (RW1S). -/
def stkEnable (s : State) (h : Half) : State :=
  finderGate s h (STK_CTL h) fun s => stkStat (s.fset (STK_CTL h) STK_CTL_EN 1) h

/-- STACKER_ENABLE (R269, R448). -/
def execStackerEnable (m : Master) (h : Half) (s : State) : Host.Outcome State Fault Refusal :=
  .next (csGate s m (STK_CTL h) fun s => stkEnable s h)

end Sys2Proof.Machine
end

