-- ==== Sys2Proof/Machine/SfCopy.lean ====
section
/-! DEFINITION. Queues, descriptors, the copy engine and Pass (R353-R368). -/

namespace Sys2Proof.Machine

open Sys2Proof

/-- What a host access to a function's BAR0 meets (R370, R372, R374): nothing for a function that does not exist, is in
FLR or is withdrawn; a write to a frozen VF is discarded and counted. -/
def hostGate (s : State) (t fn : Nat) (f : State → State) : State :=
  if !fnExists s t fn || (s.fn t fn).flr.isSome || fnGone s t fn || inReset s t then s
  else if (s.fn t fn).freeze then s.fbump (SF_FN_ERRCNT1 t fn) SF_FN_ERRCNT1_FRZ_WR 1
  else f s

/-- Queue SRAM entries of a half: 131,072, less 8,192 for each bank lost (R353, R425); entries its queues hold. -/
def sramSize (s : State) (h : Half) : Nat := 131072 - 8192 * nget (s.ref.get h).banksLost 4
def fnKeys (s : State) (h : Half) : List (Nat × Nat) :=
  ((List.range 32).map fun t => (32 * h.idx + t, 0))
    ++ (s.fns.filter fun e => decide (e.1 % 256 ≠ 0) && decide (tenantHalf (e.1 / 256) = h)).map fun e => (e.1 / 256, e.1 % 256)
def sramUsed (s : State) (h : Half) : Nat :=
  ((fnKeys s h).map fun k => ((List.range 3).map fun q => if qEn s k.1 k.2 q then qSize s k.1 k.2 q else 0).sum).sum

/-- The largest SIZE of queue q; the smallest is 4 (R347). -/
def qMax (q : Nat) : Nat := if q = 1 then 11 else 12

/-- Forget the entries of a queue. -/
def qClear (s : State) (t fn q : Nat) : State :=
  s.modFn t fn fun f => { f with ents := f.ents.filter fun e => decide (e.1 / 65536 ≠ q), flush := f.flush.erase q, gap := f.gap.erase q }

/-- Enable a queue (R354): refused with QERR when SIZE is out of range or the SRAM lacks room. -/
def qEnable (s : State) (t fn q : Nat) : State :=
  let a := SF_QCFG t fn q
  let z := s.fget a SF_QCFG_SIZE
  let h := tenantHalf t
  if z < 4 ∨ qMax q < z ∨ sramSize s h < sramUsed s h + 2 ^ z then s.fset a SF_QCFG_QERR 1
  else
    let s := (qClear s t fn q).wr (SF_QPTR t fn q) 0
    qLevel (setQState (s.fset a SF_QCFG_EN 1) t fn q qRUNNING) t fn q

/-- HALTED of the function follows its queues (SF_FN_STAT). -/
def haltedStat (s : State) (t fn : Nat) : State :=
  setAlive (s.fsetB (SF_FN_STAT t fn) SF_FN_STAT_HALTED ((List.range 3).any fun q => qState s t fn q == qHALTED)) t fn

/-- Disable a queue: its contents are discarded and its entries are free (R354). -/
def qDisable (s : State) (t fn q : Nat) : State :=
  let s := (qClear s t fn q).wr (SF_QPTR t fn q) 0
  let s := setQState (s.fset (SF_QCFG t fn q) SF_QCFG_EN 0) t fn q qDISABLED
  haltedStat (s.fset (SF_QWM t fn q) SF_QWM_LEVEL 0) t fn

/-- Entries of the message that starts at SQ count i: K for a PASS descriptor in range, 1 for any other (R362). -/
def sqMsgLen (s : State) (t fn i : Nat) : Nat :=
  let e := entryAt s t fn 0 i
  let k := bytesAt e 1 1
  if bytesAt e 0 1 = 2 ∧ 2 ≤ k ∧ k ≤ 16 then k else 1

/-- Is SQ count i reached by whole messages from count j? -/
def sqWhole (s : State) (t fn : Nat) : Nat → Nat → Nat → Bool
  | 0, left, _ => left == 0
  | fuel + 1, left, i =>
    if left = 0 then true
    else if left < sqMsgLen s t fn i then false
    else sqWhole s t fn fuel (left - sqMsgLen s t fn i) (i + sqMsgLen s t fn i)

/-- Is the queue at a message boundary? An item of a CQ or RQ is written whole; the SQ is when its last message is. -/
def atBoundary (s : State) (t fn q : Nat) : Bool :=
  q != 0 || sqWhole s t fn 4096 (qOcc s t fn 0) (qHead s t fn 0)

/-- Carry out a pending flush at a message boundary (R358). -/
def flushNow (s : State) (t fn q : Nat) : State :=
  if (s.fn t fn).flush.contains q && atBoundary s t fn q then
    let s := s.modFn t fn fun f => { f with flush := f.flush.erase q }
    qLevel (s.fset (SF_QPTR t fn q) SF_QPTR_HEAD (qTail s t fn q)) t fn q
  else s

/-- A write of 1 to FLUSH. -/
def qFlush (s : State) (t fn q : Nat) : State :=
  flushNow (s.modFn t fn fun f => { f with flush := if f.flush.contains q then f.flush else q :: f.flush }) t fn q

/-- A host write of SF_QCFG(q) (R354, R358). -/
def qcfgWrite (s : State) (t fn q : Nat) (v : Word) : State :=
  let a := SF_QCFG t fn q
  let en := qEn s t fn q
  let s := s.fset a SF_QCFG_IE (fldGet v SF_QCFG_IE)
  let s := if fldGet v SF_QCFG_QERR = 1 then s.fset a SF_QCFG_QERR 0 else s
  let s := if en then s else s.fset a SF_QCFG_SIZE (fldGet v SF_QCFG_SIZE)
  let s := if en && fldGet v SF_QCFG_FLUSH == 1 then qFlush s t fn q else s
  if !en && fldGet v SF_QCFG_EN == 1 then qEnable s t fn q
  else if en && fldGet v SF_QCFG_EN == 0 then qDisable s t fn q
  else s

/-- A host write of SF_QPTR(q): HEAD of a CQ or RQ (R355). -/
def qptrWrite (s : State) (t fn q : Nat) (v : Word) : State :=
  let n := fldGet v SF_QPTR_HEAD
  if q = 0 then s
  else if (n + 2 ^ 16 - qHead s t fn q) % 2 ^ 16 ≤ qOcc s t fn q then
    qLevel (s.fset (SF_QPTR t fn q) SF_QPTR_HEAD n) t fn q
  else s.fbump (SF_FN_ERRCNT1 t fn) SF_FN_ERRCNT1_PTR_ERR 1

/-- QUEUE_ENABLE, QUEUE_DISABLE, QUEUE_FLUSH (R354, R358): host writes of SF_QCFG with EN 1, EN 0, and FLUSH 1. -/
def execQueueEnable (t : BitVec 6) (fn : BitVec 8) (q : BitVec 2) (v : Word) (s : State) : Host.Outcome State Fault Refusal :=
  if q = 3 then .next s
  else .next (hostGate s t.toNat fn.toNat fun s => qcfgWrite s t.toNat fn.toNat q.toNat (v ||| 1))
def execQueueDisable (t : BitVec 6) (fn : BitVec 8) (q : BitVec 2) (v : Word) (s : State) : Host.Outcome State Fault Refusal :=
  if q = 3 then .next s
  else .next (hostGate s t.toNat fn.toNat fun s => qcfgWrite s t.toNat fn.toNat q.toNat (v &&& 0xFFFFFFFE))
def execQueueFlush (t : BitVec 6) (fn : BitVec 8) (q : BitVec 2) (v : Word) (s : State) : Host.Outcome State Fault Refusal :=
  if q = 3 then .next s
  else .next (hostGate s t.toNat fn.toNat fun s => qcfgWrite s t.toNat fn.toNat q.toNat (v ||| 2))

/-- QUEUE_HEAD_WRITE (R355). -/
def execQueueHeadWrite (t : BitVec 6) (fn : BitVec 8) (q : BitVec 2) (v : Word) (s : State) : Host.Outcome State Fault Refusal :=
  if q = 3 then .next s
  else .next (hostGate s t.toNat fn.toNat fun s => qptrWrite s t.toNat fn.toNat q.toNat v)

/-- A write to the push window (R360). -/
def sqPush (s : State) (t fn off len data : Nat) : State :=
  if len = 64 ∧ off % 64 = 0 ∧ qState s t fn 0 = qRUNNING ∧ qOcc s t fn 0 < qSize s t fn 0 then
    flushNow (qLevel (qAppend s t fn 0 [data % 2 ^ 512]) t fn 0) t fn 0
  else s.fbump (SF_FN_ERRCNT1 t fn) SF_FN_ERRCNT1_SQ_DISC 1

/-- SQ_PUSH (R360): `off` is the offset in the window of 1 KiB. -/
def execSqPush (t : BitVec 6) (fn : BitVec 8) (off : BitVec 10) (len : Nat) (data : Line) (s : State) :
    Host.Outcome State Fault Refusal :=
  .next (hostGate s t.toNat fn.toNat fun s => sqPush s t.toNat fn.toNat off.toNat len data.toNat)

/-- Completion STATUS codes (R363). -/
def csOK : Nat := 0
def csBADDESC : Nat := 1
def csDENIED : Nat := 2
def csPOISON : Nat := 3
def csRSP_ERR : Nat := 4
def csPOLICED : Nat := 5

/-- A completion entry (R363). -/
def cqEntry (s : State) (t fn : Nat) (d : Desc) : Nat :=
  let st := match d.fail with
    | some (_, c) => c
    | none => csOK
  let dn := if d.typ = 2 then d.nlocal + d.nfull * 2 ^ 8 + d.nref * 2 ^ 16 + d.nfar * 2 ^ 24
    else match d.fail with
      | some (o, _) => o
      | none => d.done
  0x81 + phaseBit s t fn 1 (qTail s t fn 1) * 2 ^ 15 + st * 2 ^ 16 + d.idx % 2 ^ 16 * 2 ^ 32 + d.utag * 2 ^ 64
    + dn * 2 ^ 128

/-- Has the far copy of a datagram been granted (R367): no remote destination is left in its message?
[log 89, DEDUCED] -/
def farGranted (s : State) (h : Half) (d : Desc) : Bool :=
  match d.mid with
  | none => true
  | some n => match s.msg n with
    | none => true
    | some m => m.mc.all fun x => decide (nodeHalf x = h)

/-- Is a descriptor finished (R364, R367)? -/
def descDone (s : State) (t : Nat) (d : Desc) : Bool :=
  (d.todo.isEmpty || d.fail.isSome) && d.out == 0 && !d.wait && farGranted s (tenantHalf t) d

/-- Write the completions at the head of the descriptors in progress, in SQ order (R361). -/
def flushCq (s : State) (t fn : Nat) : State :=
  (s.fn t fn).prog.foldl (fun s _ =>
    match (s.fn t fn).prog with
    | [] => s
    | d :: r =>
      if descDone s t d && qEn s t fn 1 then
        let s := s.modFn t fn fun f => { f with prog := r }
        qLevel (qAppend s t fn 1 [cqEntry s t fn d]) t fn 1
      else s) s

/-- Change the descriptor with SQ count i. -/
def modDesc (s : State) (t fn i : Nat) (f : Desc → Desc) : State :=
  s.modFn t fn fun x => { x with prog := x.prog.map fun d => if d.idx = i then f d else d }

/-- Note a failure at an offset: the lowest stands, and the copy stops (R364). -/
def descFail (d : Desc) (off st : Nat) : Desc :=
  match d.fail with
  | some (o, _) => if off < o then { d with fail := some (off, st), todo := [] } else { d with todo := [] }
  | none => { d with fail := some (off, st), todo := [] }

/-- The piece a side of a copy is checked under: its decoder's, or the tenant's host (R345). -/
def segPiece (t addr : Nat) (p : Option Piece) : Piece := p.getD ⟨4, t, addr⟩

/-- Where a side of a copy goes (R364): the Catalogue of a window's home, a device, or the tenant's host. -/
def segNode (s : State) (t : Nat) (p : Option Piece) : Option Nat :=
  match p with
  | none => mfind (s.binds.get (tenantHalf t)).usp t
  | some q =>
    match pieceWin s q with
    | some (h, _) => some (unitNode h 30)
    | none => some (memSub q.idx)

/-- A piece of memory that the extent check refuses (R201). -/
def segMiss (s : State) (t len : Nat) (p : Option Piece) : Bool :=
  match p with
  | some q => q.kind == 0 && !extentOk s (tenantHalf t) t (memSub q.idx) (memLd q.idx) q.addr len
  | none => false

/-- The operation of a side of a copy (R364).
[log 157, DEDUCED] -/
def segOp (p : Option Piece) (len : Nat) (wr : Bool) : Op :=
  match p, wr with
  | some q, false => if q.kind = 0 then .memRd else .mRd
  | some q, true => if q.kind = 0 then (if len = 64 ∧ q.addr % 64 = 0 then .memWr else .memWrPtl) else .mWr
  | none, false => .mRd
  | none, true => .mWr

/-- What forming one request of a copy comes to: it waits for tokens or a tag, it fails, or it has gone. -/
inductive Formed where
  | waits (s : State)
  | fails (st : Nat) (s : State)
  | gone (s : State)

/-- Form the read or write of a part of a copy (R345, R361, R364): metered, checked, tagged, and sent. -/
def formPart (s : State) (t fn i off : Nat) (g : CopySeg) (data : Option Nat) (again : Bool) : Formed :=
  let h := tenantHalf t
  let wr := data.isSome
  let p := if wr then g.wr else g.rd
  let addr := if wr then g.dst else g.src
  let pc := segPiece t addr p
  let r := meterMsg s t fn (g.len + 16) again
  if r.1 = cRED then .waits r.2
  else
    let s := r.2
    match check s h (.tenant t) pc (if wr then pW else pR) with
    | .deny rule => .fails csDENIED (umpFault s h t (if wr then pW else pR) pc rule)
    | .allow =>
      if segMiss s t g.len p then .fails csDENIED (s.fbump (SF_TEN_ERRCNT t) SF_TEN_ERRCNT_EXT_MISS 1)
      else match segNode s t p with
        | none => .fails csRSP_ERR s
        | some d =>
          if decide (nodeHalf d ≠ h) && s.phase h != phUP && s.phase h != phRETRAIN then .fails csRSP_ERR s
          else match takeItag s h (.sf (fnKey t fn) i off (!wr)) t (some (s.gen h)) (opIsIo (segOp p g.len wr)) false with
            | none => .waits s
            | some (e, s) =>
              let m := { blankMsg (segOp p g.len wr) (unitNode h 28) d e t (tcSf s t) with
                ld := (match p with
                  | some q => memLd q.idx
                  | none => fn),
                tgt := pc, len := g.len, data := data.getD 0, hold := .i, slots := msgSlots (segOp p g.len wr) g.len false,
                itag := some e, gen := s.gen h, checked := true, yellow := decide (r.1 = cYELLOW) }
              let s := flightBegin s h (s.gen h)
              .gone (if d = unitNode h 30 then toCatalogue s h m else originateStamped s h 28 m)

/-- Form the parts of a copy that wait, in order, as far as they go. -/
def pumpParts (s : State) (t fn i : Nat) (red : Bool) : List (Nat × CopySeg × Option Nat) → State
  | [] => modDesc s t fn i fun d => { d with todo := [], red := false }
  | (off, g, data) :: r =>
    match formPart s t fn i off g data red with
    | .waits s => modDesc s t fn i fun d => { d with todo := (off, g, data) :: r, red := true }
    | .fails st s => modDesc s t fn i fun d => descFail d off st
    | .gone s => pumpParts (modDesc s t fn i fun d => { d with out := d.out + 1 }) t fn i false r

/-- Carry a copy on: new requests only while the function may form them (R369, R370). -/
def pumpDesc (s : State) (t fn i : Nat) : State :=
  match (s.fn t fn).prog.find? fun d => d.idx = i with
  | none => s
  | some d => if d.typ = 1 && fnForms s t fn then pumpParts s t fn i d.red d.todo else s

/-- Every copy of a function is carried on, and finished ones complete. -/
def pumpFn (s : State) (t fn : Nat) : State :=
  flushCq ((s.fn t fn).prog.foldl (fun s d => pumpDesc s t fn d.idx) s) t fn

/-- The data of a copy's read is to be written next. -/
def partRead (d : Desc) (off data : Nat) : Desc :=
  if d.fail.isSome then d
  else match d.parts.find? fun x => x.1 = off with
    | some (_, g) => { d with todo := d.todo ++ [(off, g, some data)] }
    | none => d

/-- A read of a copy has ended (R364). -/
def copyRead (s : State) (t fn i off : Nat) (ok poison : Bool) (data : Nat) : State :=
  let s := modDesc s t fn i fun d => { d with out := d.out - 1 }
  let s := if ok = false then modDesc s t fn i fun d => descFail d off csRSP_ERR
    else if poison then modDesc s t fn i fun d => descFail d off csPOISON
    else modDesc s t fn i fun d => partRead d off data
  flushCq (pumpDesc s t fn i) t fn

/-- A write of a copy has left Kezen, or its response reported an error (R363, R364). -/
def copyLeft (s : State) (t fn i : Nat) : State := flushCq (modDesc s t fn i fun d => { d with out := d.out - 1 }) t fn
def copyError (s : State) (t fn i off : Nat) : State := modDesc s t fn i fun d => descFail d off csRSP_ERR

/-- The SQ head may be taken now: the SQ runs and holds it, and the CQ has a slot to reserve (R361).
[log 88, DEDUCED] -/
def headReady (s : State) (t fn : Nat) : Bool :=
  fnStarts s t fn && qState s t fn 0 == qRUNNING && qState s t fn 1 == qRUNNING && decide (0 < qOcc s t fn 0)
    && decide (sqMsgLen s t fn (qHead s t fn 0) ≤ qOcc s t fn 0) && decide ((s.fn t fn).prog.length < 64)
    && decide (qOcc s t fn 1 + (s.fn t fn).prog.length + 2 ≤ qSize s t fn 1)

/-- The head entry, and its TYPE. -/
def headEntry (s : State) (t fn : Nat) : Nat := entryAt s t fn 0 (qHead s t fn 0)

/-- SECDED over the words of the descriptor's entries (R359): the function's counters and the SF event; answers whether a
word is uncorrectable. -/
def queueEcc (s : State) (t fn : Nat) (e : CellEcc) : Bool × State :=
  let h := tenantHalf t
  match e with
  | .clean => (false, s)
  | .corrected u => (false, raise (s.fbump (SF_FN_ERRCNT0 t fn) SF_FN_ERRCNT0_ECC_CORR 1) h (evtU 15 3 u 4 u (fnKey t fn)))
  | .payload u _ => (true, raise (s.fbump (SF_FN_ERRCNT0 t fn) SF_FN_ERRCNT0_ECC_UNC 1) h (evtU 15 1 u 4 u (fnKey t fn)))
  | .descriptor u _ => (true, raise (s.fbump (SF_FN_ERRCNT0 t fn) SF_FN_ERRCNT0_ECC_UNC 1) h (evtU 15 1 u 4 u (fnKey t fn)))

/-- A descriptor just taken from the head. -/
def newDesc (s : State) (t fn typ : Nat) : Desc :=
  ⟨qHead s t fn 0, bytesAt (headEntry s t fn) 8 8, typ, [], [], 0, 0, none, 0, 0, 0, 0, false, none, none, false⟩

/-- Take the head descriptor: HEAD passes its message, and it joins those in progress. -/
def takeHead (s : State) (t fn : Nat) (d : Desc) : State :=
  let k := sqMsgLen s t fn (qHead s t fn 0)
  let s := s.fset (SF_QPTR t fn 0) SF_QPTR_HEAD (qHead s t fn 0 + k)
  qLevel (s.modFn t fn fun f => { f with prog := f.prog ++ [d], red := false }) t fn 0

/-- Take the head as a descriptor that is not executed (R359, R362).
[log 88, DEDUCED] -/
def badHead (s : State) (t fn : Nat) : State :=
  flushCq (takeHead s t fn { newDesc s t fn 0 with fail := some (0, csBADDESC) }) t fn

/-- Bytes that must be 0. -/
def zeroBytes (e b n : Nat) : Bool := bytesAt e b n == 0

/-- DESC_NOP (R362): the head is a NOP, or a descriptor of no TYPE of the table. -/
def execDescNop (t : BitVec 6) (fn : BitVec 8) (ecc : CellEcc) (s : State) : Host.Outcome State Fault Refusal :=
  let t := t.toNat
  let fn := fn.toNat
  let e := headEntry s t fn
  if headReady s t fn = false ∨ bytesAt e 0 1 = 1 ∨ bytesAt e 0 1 = 2 then .next s
  else
    let r := queueEcc s t fn ecc
    if r.1 || bytesAt e 0 1 != 0 || !zeroBytes e 1 7 || !zeroBytes e 16 48 then .next (badHead r.2 t fn)
    else .next (flushCq (takeHead r.2 t fn (newDesc r.2 t fn 0)) t fn)

/-- A COPY descriptor's fields are in range (R362). -/
def copyOk (e : Nat) : Bool :=
  zeroBytes e 1 7 && zeroBytes e 36 28 && decide (1 ≤ bytesAt e 32 4) && decide (bytesAt e 32 4 ≤ 16777216)

/-- Do the parts cover the copy in ascending order, each of at most 512 bytes, a line at most for memory (R364)? -/
def segsFit (src dst len : Nat) : List CopySeg → Bool
  | [] => len == 0
  | g :: r => g.src == src && g.dst == dst && decide (1 ≤ g.len) && decide (g.len ≤ len) && decide (g.len ≤ 512)
      && (!(g.rd.any fun p => p.kind == 0) || decide (g.src % 64 + g.len ≤ 64))
      && (!(g.wr.any fun p => p.kind == 0) || decide (g.dst % 64 + g.len ≤ 64))
      && segsFit (src + g.len) (dst + g.len) (len - g.len) r

/-- Do the writes to the host keep to the Max Payload Size of U (R364), which a host sets in its Device Control? -/
def segsPay (s : State) (t : Nat) (l : List CopySeg) : Bool :=
  l.all fun g => g.wr.isSome || decide (g.len ≤ 128 * 2 ^ bits (cfgGet s t 32 cfgDEV) 7 5)

/-- The parts with their offsets. -/
def segsAt (off : Nat) : List CopySeg → List (Nat × CopySeg × Option Nat)
  | [] => []
  | g :: r => (off, g, none) :: segsAt (off + g.len) r

/-- DESC_COPY (R364): the head is a COPY; `segs` is how the tenant's decoders divide it. -/
def execDescCopy (t : BitVec 6) (fn : BitVec 8) (segs : List CopySeg) (ecc : CellEcc) (s : State) :
    Host.Outcome State Fault Refusal :=
  let t := t.toNat
  let fn := fn.toNat
  let e := headEntry s t fn
  if headReady s t fn = false ∨ bytesAt e 0 1 ≠ 1 then .next s
  else
    let r := queueEcc s t fn ecc
    if r.1 || !copyOk e then .next (badHead r.2 t fn)
    else if segsFit (bytesAt e 16 8) (bytesAt e 24 8) (bytesAt e 32 4) segs && segsPay s t segs then
      let i := qHead s t fn 0
      .next (pumpFn (takeHead r.2 t fn { newDesc r.2 t fn 1 with
        parts := (segsAt 0 segs).map fun x => (x.1, x.2.1), todo := segsAt 0 segs, done := bytesAt e 32 4 }) t fn
        |> fun s => pumpDesc s t fn i)
    else .next s

/-- Tenants of a mask. -/
def maskTenants (m : Nat) : List Nat := (List.range 64).filter fun u => bitB m u

/-- Is an internal request a line of an image? -/
def ownImage : IOwner → Bool
  | .image _ _ => true
  | _ => false

/-- The local copy of a datagram was lost: its receivers count in NREF (R366). -/
def passUnheard (s : State) (t fn i mask : Nat) : State :=
  flushCq (modDesc s t fn i fun d =>
    { d with wait := false, nref := d.nref + ((maskTenants mask).filter fun u => decide (tenantHalf u = tenantHalf t)).length }) t fn

/-- Requests of a function that a Catalogue has answered, and datagrams that were lost, are taken (R364, R366). -/
def takeDone (s : State) (t fn : Nat) : State :=
  (s.net.idone.filter fun d => ownFn d.own == some (fnKey t fn) && !ownImage d.own).foldl (fun s d =>
    let s := s.modNet fun n => { n with idone := n.idone.erase d }
    match d.own with
    | .sf _ i off rd =>
      if rd then copyRead s t fn i off d.ok d.poison d.data
      else copyLeft (if d.ok then s else copyError s t fn i off) t fn i
    | .pass _ i => passUnheard s t fn i d.data
    | _ => s) s

/-- COPY_COMPLETE (R364): what waits is carried on, and finished descriptors complete. -/
def execCopyComplete (t : BitVec 6) (fn : BitVec 8) (s : State) : Host.Outcome State Fault Refusal :=
  .next (pumpFn (takeDone s t.toNat fn.toNat) t.toNat fn.toNat)

/-- A PASS descriptor's fields are in range (R362). -/
def passLen (e : Nat) : Nat := bytesAt e 26 2
def passOk (e : Nat) : Bool :=
  let k := bytesAt e 1 1
  zeroBytes e 2 6 && zeroBytes e 25 1 && zeroBytes e 28 36 && decide (2 ≤ k) && decide (k ≤ 16)
    && decide (1 ≤ passLen e) && decide (passLen e ≤ 960) && k == 1 + (passLen e + 63) / 64

/-- Masks in force (R365). -/
def sendMask (s : State) (t : Nat) : Nat := s.rd64 (SF_PASS_LIVE_SEND_LO t)
def acceptMask (s : State) (t : Nat) : Nat := s.rd64 (SF_PASS_LIVE_ACC_LO t)

/-- The payload of a PASS descriptor: the LEN bytes of the entries after its first. -/
def passData (s : State) (t fn k len : Nat) : Nat :=
  ((List.range (k - 1)).map fun i => entryAt s t fn 0 (qHead s t fn 0 + 1 + i) * 2 ^ (512 * i)).sum % 2 ^ (8 * len)

/-- Send a datagram (R366) under an internal entry of its own (R361), for which it waits: one multicast message to station 28 of each
half that has a receiver; while the halves are not joined the far copy is not sent, and its receivers count in NREF. -/
def passSend (s : State) (t fn : Nat) (d : Desc) (e : Nat) (yellow : Bool) : State :=
  let h := tenantHalf t
  let k := bytesAt e 1 1
  let dm := maskTenants (bytesAt e 16 8)
  let go := dm.filter fun u => bitB (sendMask s t) u
  let near := go.filter fun u => tenantHalf u = h
  let far := go.filter fun u => tenantHalf u ≠ h
  let cut := s.phase h != phUP && s.phase h != phRETRAIN
  let farGo := if cut then [] else far
  let nodes := (if near = [] then [] else [unitNode h 28]) ++ (if farGo = [] then [] else [unitNode h.other 28])
  let d := { d with nref := dm.length - go.length + (if cut then far.length else 0), nfar := farGo.length, wait := !near.isEmpty }
  match nodes with
  | [] => takeHead s t fn d
  | n :: _ =>
    match takeItag s h (.pass (fnKey t fn) d.idx) t none false false with
    | none => s
    | some (e', s) =>
    let m := { blankMsg .mWr (unitNode h 28) n (bytesAt e 8 8) t (tcPass s t) with
      ld := fn, tgt := ⟨10, bytesAt e 24 1, (go.map fun u => 2 ^ u).sum⟩, len := passLen e,
      data := passData s t fn k (passLen e), slots := msgSlots .mWr (passLen e + 16) false, mc := nodes, gen := s.now h,
      snp := .none, hold := .noop, yellow := yellow, final := false, stamp := none, error := false, deny := false,
      checked := false, itag := some e', poison := false, dst := n }
    let r := newMsg s { m with tag := d.utag }
    let s := formCells r.2 h 28 r.1 0 false
    takeHead s t fn { d with mid := some r.1, ent := some e' }

/-- Is an internal entry free for a datagram (R361)? -/
def internalFree (s : State) : Bool := decide (s.net.itags.length < 32768)

/-- A datagram that a policer drops completes with POLICED (R329, R366).
[log 89, DEDUCED] -/
def passPoliced (s : State) (t fn : Nat) (d : Desc) : State :=
  let h := tenantHalf t
  takeHead (s.fbump (QOS_TEN_DROP h (t % 32)) QOS_TEN_DROP_DROP_CNT 1) t fn { d with fail := some (0, csPOLICED) }

/-- DESC_PASS (R366): the head is a PASS with all its entries; it is metered, policed and sent. A red datagram waits unless
the tenant's policer is on. -/
def execDescPass (t : BitVec 6) (fn : BitVec 8) (ecc : CellEcc) (s : State) : Host.Outcome State Fault Refusal :=
  let t := t.toNat
  let fn := fn.toNat
  let e := headEntry s t fn
  if headReady s t fn = false ∨ bytesAt e 0 1 ≠ 2 then .next s
  else
    let r := queueEcc s t fn ecc
    if r.1 || !passOk e then .next (badHead r.2 t fn)
    else
      let b := passLen e + 16
      let c := meterMsg r.2 t fn b (s.fn t fn).red
      let d := newDesc s t fn 2
      if c.1 = cRED then
        (if (policerOf s (tenantHalf t) t).on then .next (flushCq (passPoliced c.2 t fn d) t fn)
         else .next (c.2.modFn t fn fun f => { f with red := true }))
      else if internalFree s = false then .next s
      else
        let p := police c.2 t b
        if p.1 then .next (flushCq (passSend p.2 t fn d e (decide (c.1 = cYELLOW))) t fn)
        else .next (flushCq (passPoliced p.2 t fn d) t fn)

/-- The entries of a received datagram (R368): its header, then its payload in slots of 64 bytes. -/
def datagramEntries (s : State) (u fn : Nat) (m : Msg) : List Nat :=
  let k := (m.len + 63) / 64
  (0x84 + (phaseBit s u fn 2 (qTail s u fn 2) * 2 ^ 7 + k) * 2 ^ 8 + m.len * 2 ^ 16 + m.tenant * 2 ^ 32 + m.ld * 2 ^ 40
      + m.tag % 2 ^ 64 * 2 ^ 64 + m.gen % 2 ^ 64 * 2 ^ 128)
    :: (List.range k).map fun i => m.data / 2 ^ (512 * i) % 2 ^ 512

/-- One receiver's decision (R366, R368): 0 written, 1 full or frozen, 2 refused. -/
def receiveAt (s : State) (u : Nat) (m : Msg) : Nat × State :=
  let fn := m.tgt.idx
  let k := 1 + (m.len + 63) / 64
  if !bitB (acceptMask s u) m.tenant || !fnExists s u fn || (s.fn u fn).flr.isSome || fnGone s u fn then (2, s)
  else if qState s u fn 2 = qFROZEN then (1, gapMark s u fn 2)
  else if qState s u fn 2 ≠ qRUNNING then (2, s)
  else if qFits s u fn 2 k then (0, qLevel (qAppend s u fn 2 (datagramEntries s u fn m)) u fn 2)
  else (1, gapMark s u fn 2)

/-- Count a local decision in the sender's completion. -/
def countLocal (d : Desc) (c : Nat) : Desc :=
  match c with
  | 0 => { d with nlocal := d.nlocal + 1 }
  | 1 => { d with nfull := d.nfull + 1 }
  | _ => { d with nref := d.nref + 1 }

/-- A datagram at station 28 of half h is decided for its receivers there; the sender of a local copy gets its counts (R366,
R367). -/
def passReceive (s : State) (h : Half) (m : Msg) : State :=
  let us := (maskTenants m.tgt.addr).filter fun u => tenantHalf u = h
  let r := us.foldl (fun (x : List Nat × State) u => let y := receiveAt x.2 u m; (x.1 ++ [y.1], y.2)) ([], s)
  if nodeHalf m.src = h then
    flushCq (r.2.modFn m.tenant m.ld fun f => { f with prog := f.prog.map fun d =>
      if d.typ = 2 ∧ d.wait ∧ d.ent = m.itag then { r.1.foldl countLocal d with wait := false } else d }) m.tenant m.ld
  else r.2

/-- Is an internal entry in quarantine? -/
def itagQuar (s : State) (e : Nat) : Bool := (mfind s.net.itags e).any fun x => x.quar.isSome

/-- DATAGRAM_RECEIVED (R366): the next datagram at station 28 of half h; one whose function has been reset since is discarded
(R370). -/
def execDatagramReceived (h : Half) (s : State) : Host.Outcome State Fault Refusal :=
  match inboxFind s h 28 fun m => m.tgt.kind == 10 with
  | none => .next s
  | some (n, m) =>
    let s := inboxTake s h 28 n
    match m.itag with
    | none => .next (passReceive s h m)
    | some e => .next (passFree (if itagQuar s e then s else passReceive s h m) e)

end Sys2Proof.Machine
end

