-- ==== Sys2Proof/Machine/Flags.lean ====
section
/-! DEFINITION. The results and flags of the Tirop arithmetic, logical, shift and bit-field instructions
(R503), and the branch conditions (R504). Sums and differences are computed exactly in the integers and then
narrowed, so carry and overflow are comparisons with the exact result. -/

namespace Sys2Proof.Machine

open Sys2Proof

/-- A result with the C and V flags that go with it; Z and N follow from the result (R503). -/
structure AluRes where
  r : BitVec 64
  c : Bool
  v : Bool
  deriving DecidableEq, Repr

/-- Z and N of a result (R503). -/
def zOf (r : BitVec 64) : Bool := r == 0
def nOf (r : BitVec 64) : Bool := r.msb

/-- Does an exact signed result fall outside 64 bits? -/
def sOverflow (x : Int) : Bool := decide (x < -(2 ^ 63)) || decide (2 ^ 63 ≤ x)

/-- ADD, ADDI. -/
def aluAdd (x y : BitVec 64) : AluRes :=
  ⟨x + y, decide (2 ^ 64 ≤ x.toNat + y.toNat), sOverflow (x.toInt + y.toInt)⟩

/-- SUB, SUBI, CMP, CMPI: C is 1 when x ≥ y unsigned. -/
def aluSub (x y : BitVec 64) : AluRes :=
  ⟨x - y, decide (y.toNat ≤ x.toNat), sOverflow (x.toInt - y.toInt)⟩

/-- AND, TST and their immediate forms; OR; XOR: C and V are 0. -/
def aluAnd (x y : BitVec 64) : AluRes := ⟨x &&& y, false, false⟩
def aluOr (x y : BitVec 64) : AluRes := ⟨x ||| y, false, false⟩
def aluXor (x y : BitVec 64) : AluRes := ⟨x ^^^ y, false, false⟩

/-- SHL: C is the last bit shifted out, 0 for a shift by 0. -/
def aluShl (x : BitVec 64) (n : Nat) : AluRes :=
  ⟨x <<< n, if n = 0 then false else x.getLsbD (64 - n), false⟩

/-- SHR: zero fill. -/
def aluShr (x : BitVec 64) (n : Nat) : AluRes :=
  ⟨x >>> n, if n = 0 then false else x.getLsbD (n - 1), false⟩

/-- SAR: fill with bit 63. -/
def aluSar (x : BitVec 64) (n : Nat) : AluRes :=
  ⟨x.sshiftRight n, if n = 0 then false else x.getLsbD (n - 1), false⟩

/-- MUL: the low 64 bits, C when the high 64 bits are not 0. -/
def aluMul (x y : BitVec 64) : AluRes :=
  ⟨x * y, decide (2 ^ 64 ≤ x.toNat * y.toNat), false⟩

/-- BFX: the field of `len` bits at `pos`. -/
def aluBfx (x : BitVec 64) (pos len : Nat) : AluRes :=
  ⟨BitVec.ofNat 64 ((x.toNat >>> pos) % 2 ^ len), false, false⟩

/-- BFI: `d` with the field of `len` bits at `pos` replaced by the low bits of `x`. -/
def aluBfi (d x : BitVec 64) (pos len : Nat) : AluRes :=
  let m : BitVec 64 := BitVec.ofNat 64 ((2 ^ len - 1) <<< pos)
  ⟨(d &&& ~~~ m) ||| ((x <<< pos) &&& m), false, false⟩

/-- The branch conditions of R504; condition 15 never decodes. -/
def condHolds (cond : Nat) (z n c v : Bool) : Bool :=
  match cond with
  | 0 => z
  | 1 => !z
  | 2 => n
  | 3 => !n
  | 4 => c
  | 5 => !c
  | 6 => v
  | 7 => !v
  | 8 => true
  | 9 => n == v
  | 10 => n != v
  | 11 => !z && n == v
  | 12 => z || n != v
  | 13 => c && !z
  | 14 => !c || z
  | _ => false

end Sys2Proof.Machine
end

