-- ==== Sys2Proof/Machine/Operands.lean ====
section
/-! DEFINITION. The operand forms of Tirop: immediates (R500, R503), the address of a load or store and its
fixed cost (R506, R538), held values (R54), and the rows a table instruction names (R510). -/

namespace Sys2Proof.Machine

open Sys2Proof

/-- The short immediate sign-extended (MOVI, ADDI, SUBI, CMPI); K is always zero-extended (R503). -/
def immS : Imm → BitVec 64
  | .short v => v.signExtend 64
  | .x k => k.zeroExtend 64

/-- The short immediate zero-extended (ANDI, ORI, XORI, TSTI). -/
def immZ : Imm → BitVec 64
  | .short v => v.zeroExtend 64
  | .x k => k.zeroExtend 64

/-- Register r of a pair. -/
def Trp.reg (t : Trp) (r : Reg) : BitVec 64 := t.w.get r.toFin

/-- Set register r of a pair. -/
def Trp.setReg (t : Trp) (r : Reg) (v : BitVec 64) : Trp := { t with w := t.w.set r.toNat v r.isLt }

/-- The base of a load or store: rs, or 0 with NOBASE (R506). -/
def lsBase (t : Trp) (rs : Reg) (nobase : Bool) : BitVec 64 := if nobase then 0 else t.reg rs

/-- The CS address of a load or store: bits [1:0] ignored, with D also bit [2] (R506). -/
def csAddr (t : Trp) (rs : Reg) (nobase d : Bool) (x : Imm) : Nat :=
  let a := (lsBase t rs nobase + immS x).toNat
  if d then a / 8 * 8 else a / 4 * 4

/-- The scratch word of a load or store: (b + imm) mod 16,384, bits [2:0] ignored (R506). -/
def scrIndex (t : Trp) (rs : Reg) (nobase : Bool) (off : BitVec 14) : Nat :=
  ((lsBase t rs nobase).toNat + off.toNat) % 16384 / 8

/-- The range of R24 an address lies in: a number for the row, or for the port, tenant or channel block of a
repeated row; 0 for an address in none. -/
def rangeOf (a : Nat) : Nat :=
  if a < 0x01000000 then 1
  else if a < 0x01800000 then 1000 + (a - 0x01000000) / 0x40000
  else if a < 0x02000000 then 0
  else if a < 0x09000000 then 10 + a / 0x1000000
  else if a < 0x0A000000 then 30 + (a - 0x09000000) / 0x800000
  else if a < 0x0A400000 then 2000 + (a - 0x0A000000) / 0x10000
  else if a < 0x0B000000 then 0
  else if a < 0x0C000000 then 40 + a / 0x800000
  else if a < 0x0C020000 then 3000 + (a - 0x0C000000) / 0x1000
  else if a < 0x0D000000 then 0
  else if a < 0x10000000 then 40 + a / 0x800000
  else 0

/-- Is a displacement in a range of R24 that is held in the pair's own half (R538)? The Umpire has a copy in
each half; a Shaper address is the half's by its own half of the block. -/
def localDisp (h : Half) (a : Nat) : Bool :=
  if 0x08000000 ≤ a ∧ a < 0x09000000 then decide (homeOf a ≠ some h.other) else decide (homeOf a = some h)

/-- The cost of one CS word (R25, R538); none is an OPERAND fault: a local displacement whose final address
lies in another range. -/
def csCost (h : Half) (disp addr : Nat) : Option Nat :=
  if localDisp h disp then
    (if rangeOf disp = rangeOf addr then some 8 else none)
  else some 24

/-- The value the pair itself last stored to a CS word in this Transit (R54). -/
def heldCs (l : List TOut) (a : Nat) : Option Word :=
  match l with
  | [] => none
  | o :: r =>
    match heldCs r a with
    | some v => some v
    | none => match o with
      | .cs b v => if b = a then some v else none
      | _ => none

/-- The value the pair itself last stored to a scratch word in this Transit (R54). -/
def heldScr (l : List TOut) (i : Nat) : Option (BitVec 64) :=
  match l with
  | [] => none
  | o :: r =>
    match heldScr r i with
    | some v => some v
    | none => match o with
      | .scr j v => if j = i then some v else none
      | _ => none

/-- The SCAN reference as last updated in this Transit (R511). -/
def heldRef (l : List TOut) (k : Nat) : Option Nat :=
  match l with
  | [] => none
  | o :: r =>
    match heldRef r k with
    | some v => some v
    | none => match o with
      | .ref j v => if j = k then some v else none
      | _ => none

/-- Scratch word i as the CS map holds it: two CS words, low word first (R42). -/
def scrLive (s : State) (h : Half) (i : Nat) : BitVec 64 :=
  BitVec.ofNat 64 (s.rd64 (TRP_SCRATCH h (2 * i)))

/-- A scratch word as the pair's load sees it (R54). -/
def scrLoad (s : State) (h : Half) (i : Nat) : BitVec 64 :=
  (heldScr (s.trp.get h).held i).getD (scrLive s h i)

/-- A CS word as the pair's load sees it: a held value, or a live read with the read's own effects (R54). -/
def csLoad (s : State) (h : Half) (a : Nat) : Word × State :=
  match heldCs (s.trp.get h).held a with
  | some v => (v, s)
  | none => csRead s (.tirop h) a

/-- A row's words as a commit copies them at issue: the way a load would (R510), reading `n` words. -/
def rowLoad (s : State) (h : Half) (a n : Nat) : List Word :=
  (List.range n).map fun k =>
    (heldCs (s.trp.get h).held (a + 4 * k)).getD (s.rd (copyKey h (a + 4 * k)))

/-- A staged table: its first address, stride and number of rows, row kind, words in a row. -/
structure RowTable where
  kind : RowKind
  base : Nat
  stride : Nat
  count : Nat
  words : Nat
  deriving DecidableEq, Repr

/-- The tables whose rows BIND takes in half `h` (R510). -/
def bindTables (h : Half) : List RowTable :=
  ((List.range 32).map fun t => ⟨.binding, SF_BSTAGE (32 * h.idx + t) 0 0, 32, 64, 8⟩)
  ++ ((List.range 32).map fun t => ⟨.fn, SF_FSTAGE (32 * h.idx + t) 0 0, 32, 16, 8⟩)
  ++ [⟨.window, CAT_WSTAGE h 0 0, 32, 16, 8⟩, ⟨.job, STK_JROW h 0 0, 32, 16, 8⟩,
      ⟨.meter, QOS_MSTAGE h 0 0, 32, 16, 8⟩, ⟨.eph, QOS_ESTAGE h 0 0, 32, 16, 8⟩,
      ⟨.gen, UMP_GSTAGE .east 0, 32, 1, 8⟩]

/-- The tables whose rows UNBIND takes: binding rows only (R510). -/
def unbindTables (h : Half) : List RowTable :=
  (List.range 32).map fun t => ⟨.unbinding, SF_BSTAGE (32 * h.idx + t) 0 0, 32, 64, 8⟩

/-- The shaper rows REFILL takes (R510). -/
def refillTables (h : Half) : List RowTable := [⟨.shaper, QOS_SHP_STAGE h 0 0, 16, 256, 4⟩]

/-- The power rows SHUT takes: those of the half's Shutter link (R510, R15). -/
def shutTables (h : Half) : List RowTable := [⟨.power, SHT_PSTAGE (16 * h.idx) 0, 0x1000, 16, 8⟩]

/-- The table in which address `a` is the start of a row, with `n` rows in it from there (R510). -/
def rowsAt (ts : List RowTable) (a n : Nat) : Option (RowTable × Nat) :=
  match ts with
  | [] => none
  | t :: r =>
    if t.base ≤ a ∧ (a - t.base) % t.stride = 0 ∧ (a - t.base) / t.stride + n ≤ t.count
        ∧ (a - t.base) / t.stride < t.count ∧ 1 ≤ n then some (t, (a - t.base) / t.stride)
    else rowsAt r a n

/-- What a commit copies with a row: an Ephemeris row its port's staged list (R334), a job row its job's staged
context (R63, R267). -/
def rowExtra (s : State) (h : Half) (k : RowKind) (w0 : Nat) : List Word :=
  match k with
  | .eph => rowLoad s h (QOS_ELIST h (bits w0 4 0 % 16) 0) 64
  | .job => rowLoad s h (STK_CTX h (bits w0 9 0 % 512) 0) 320
  | _ => []

/-- The rows a table instruction commits, each copied at issue. The index of a binding or function row counts
over all tenants. -/
def rowsOf (s : State) (h : Half) (t : RowTable) (i n : Nat) : List Row :=
  (List.range n).map fun j =>
    let a := t.base + (i + j) * t.stride
    let ws := rowLoad s h a t.words
    ⟨t.kind, i + j, a, ws ++ rowExtra s h t.kind (rowW ws 0)⟩

end Sys2Proof.Machine
end

