-- ==== Sys2Proof/Machine/Tirop.lean ====
section
/-! DEFINITION. The Tirop sequencer pair (spec 18, and spec 02 "One Transit of the pair"): fetch, faults,
cutoff, handler dispatch, and the meaning of every Tirop instruction. A Tirop command runs only when its
half's pair is at work and the words at its PC spell that instruction. -/

namespace Sys2Proof.Machine

open Sys2Proof

/-- The bank the pair runs: the one TRP_CTL.SEL names (R43), or the standby bank in a requalification run
that names it (R428). -/
def runBank (s : State) (h : Half) : Nat :=
  let sel := s.fget (TRP_CTL h) TRP_CTL_SEL
  match (s.trp.get h).requal with
  | some (true, _) => 1 - sel
  | _ => sel

/-- A word of the bank the pair runs. -/
def bankWord (s : State) (h : Half) (i : Nat) : Word := s.rd (TRP_BANK h (runBank s h) i)

/-- The pair is executing an instruction stream. -/
def running (t : Trp) : Bool := t.phase == .main || t.phase == .handler

/-- The instruction at PC: none is an ILLEGAL fault: a fetch outside 64-16,383 or words that spell nothing
(R508, R515). The X-form's second word must lie in the store too.
[log 20, DESIGN CHOICE] -/
def fetchTirop (s : State) (h : Half) : Option Instr :=
  let pc := (s.trp.get h).pc
  if pc < 64 ∨ 16383 < pc then none
  else if pc = 16383 then decodeTirop h (bankWord s h pc) 0
  else decodeTirop h (bankWord s h pc) (bankWord s h (pc + 1))

/-- Does the pair hold a generation row (R310)? -/
def holdsGen (t : Trp) : Bool := t.held.any fun o => match o with | .row r => r.kind == .gen | _ => false

/-- All of the Transit's outputs are discarded and its dispatched events return to the head of the list in
their order (R57, R59); the pair stops. -/
def discardTransit (s : State) (h : Half) : State :=
  let s := if holdsGen (s.trp.get h) then unfreezePage s h else s
  s.modTrp h fun t =>
    { t with phase := .stopped, held := [], hlist := t.dispatched ++ t.hlist, dispatched := [], loops := [] }

/-- The cutoff of R57; a requalification run that is cut off fails and has no other effect (R428). -/
def cutoff (s : State) (h : Half) : State :=
  match (s.trp.get h).requal with
  | some _ => (discardTransit s h).modTrp h fun t => { t with requalBad := true }
  | none =>
    let s := discardTransit s h
    let s := s.fset (TRP_STAT h) TRP_STAT_CUTOFF 1
    let s := s.fbump (TRP_ERRCNT h) TRP_ERRCNT_CUTOFF_CNT 1
    raise s h (evtU 2 0 0 0 0 0)

/-- Fault codes (R515). -/
def fcILLEGAL : Nat := 1
def fcLOOP : Nat := 2
def fcOPERAND : Nat := 3
def fcLIMIT : Nat := 4
def fcFETCH : Nat := 5
def fcSCRATCH : Nat := 6

/-- A fault (R515): counted, recorded when TRP_FAULT.VALID is 0, and the Transit treated as cut off. A fault
in a requalification run has no other effect than to fail it (R428).
[log 21, DEDUCED] -/
def tFault (s : State) (h : Half) (code : Nat) : State :=
  match (s.trp.get h).requal with
  | some _ => cutoff s h
  | none =>
    let s := s.fbump (TRP_ERRCNT1 h) TRP_ERRCNT1_FAULT_CNT 1
    let s := if s.flag (TRP_FAULT h) TRP_FAULT_VALID then s
      else
        let s := s.fsets (TRP_FAULT h) [(TRP_FAULT_VALID, 1), (TRP_FAULT_CODE, code), (TRP_FAULT_PC, (s.trp.get h).pc)]
        s.wr64 (TRP_FAULT_TN_LO h) (s.trp.get h).tn
    cutoff s h

/-- How many words an instruction takes (R500). -/
def tiropLen (i : Instr) : Nat := (encodeTirop i).length

/-- The instruction has run: BC and PC advance (R497, R498).
[log 20, DESIGN CHOICE] -/
def advance (s : State) (h : Half) (cost len : Nat) : State :=
  s.modTrp h fun t => { t with bc := t.bc + cost, pc := t.pc + len }

/-- Run instruction `i` on the pair of half `h`: nothing unless the pair is at work and `i` is the instruction
at PC; ILLEGAL for words that spell none; a fault that `chk` finds in the first cycle; a cutoff when the
instruction would occupy cycle 960 or later (R57, R515); else its effect `f`, with its cost and length.
[log 20, DESIGN CHOICE; log 21, DEDUCED] -/
def tirRun (s : State) (h : Half) (i : Instr) (cost : Nat) (chk : Option Nat) (f : State → State) : State :=
  let t := s.trp.get h
  if running t = false then s
  else if 960 ≤ t.bc then cutoff s h
  else match fetchTirop s h with
    | none => tFault s h fcILLEGAL
    | some j =>
      if j = i.clean then
        match chk with
        | some code => tFault s h code
        | none => if 960 < t.bc + cost then cutoff s h else advance (f s) h cost (tiropLen i)
      else s

/-- Write a result and the four flags (R503). -/
def putRes (t : Trp) (rd : Reg) (a : AluRes) : Trp :=
  { t.setReg rd a.r with zf := zOf a.r, nf := nOf a.r, cf := a.c, vf := a.v }

/-- Write the four flags only: CMP, CMPI, TST, TSTI (R503). -/
def putFlags (t : Trp) (a : AluRes) : Trp := { t with zf := zOf a.r, nf := nOf a.r, cf := a.c, vf := a.v }

/-- An instruction whose whole effect is on the pair's registers and flags. -/
def tirReg (s : State) (h : Half) (i : Instr) (cost : Nat) (f : Trp → Trp) : Host.Outcome State Fault Refusal :=
  .next (tirRun s h i cost none fun s => s.modTrp h f)

/-- Does adding `k` outputs of one kind pass a limit of R56? -/
def csOuts (l : List TOut) : Nat :=
  l.foldl (fun n o => match o with | .cs _ _ => n + 1 | .send _ => n + 1 | _ => n) 0
def scrOuts (l : List TOut) : Nat := l.foldl (fun n o => match o with | .scr _ _ => n + 1 | _ => n) 0
def refillOuts (l : List TOut) : Nat :=
  l.foldl (fun n o => match o with | .row r => if r.kind = .shaper then n + 1 else n | _ => n) 0
def rowOuts (l : List TOut) : Nat :=
  l.foldl (fun n o => match o with | .row r => if r.kind = .shaper then n else n + 1 | _ => n) 0

/-- Are the limits of R56 kept by these held outputs? -/
def limitsOk (l : List TOut) : Bool :=
  decide (csOuts l ≤ 128) && decide (scrOuts l ≤ 512) && decide (refillOuts l ≤ 256) && decide (rowOuts l ≤ 256)

/-- Hold outputs until the seal (R54); a LIMIT fault when a limit of R56 is passed (R515).
[log 21, DEDUCED] -/
def holdOuts (s : State) (h : Half) (i : Instr) (cost : Nat) (chk : Option Nat) (os : List TOut) : State :=
  let t := s.trp.get h
  if running t = true ∧ fetchTirop s h = some i.clean ∧ chk = none ∧ t.bc + cost ≤ 960 ∧ limitsOk (t.held ++ os) = false
  then tFault s h fcLIMIT
  else tirRun s h i cost chk fun s => s.modTrp h fun t => { t with held := t.held ++ os }

/-- Handler word n of the bank the pair runs (R45). -/
def hndWord (s : State) (h : Half) (cls : Nat) : Nat := (bankWord s h (8 + cls)).toNat
def hndValid (w : Nat) : Bool := bitB w 0
def hndWcet (w : Nat) : Nat := bits w 13 4
def hndEntry (w : Nat) : Nat := bits w 27 14
def hndPrio (w : Nat) : Nat := bits w 31 28

/-- Start a handler (R51): its record at scratch 0x3F00, w14 the class, w15 0x3F00, four cycles. An event that is dispatched is no
longer one deferred in consecutive Transits (R53), also where it returns. -/
def startHandler (s : State) (h : Half) (e : HEvt) (rest : List HEvt) : State :=
  let s := s.wrWords (TRP_SCRATCH h (0x3F00 / 4)) (recWords e.evt)
  s.modTrp h fun t =>
    { (t.setReg 14 (BitVec.ofNat 64 e.evt.cls)).setReg 15 0x3F00 with
        bc := t.bc + 4, pc := hndEntry (hndWord s h e.evt.cls), phase := .handler,
        hlist := rest, dispatched := t.dispatched ++ [⟨e.evt, 0, false⟩], loops := [] }

/-- Handler dispatch (R50, R51): events whose class has no VALID handler are removed; the first other event is
dispatched if it fits, else it and every event behind it are deferred. -/
def dispatchFrom (s : State) (h : Half) : List HEvt → State
  | [] => s.modTrp h fun t => { t with hlist := [], phase := .idle }
  | e :: r =>
    let w := hndWord s h e.evt.cls
    if hndValid w = false then dispatchFrom s h r
    else if (s.trp.get h).bc + 4 + hndWcet w ≤ 960 then startHandler s h e r
    else
      let n := r.length + 1
      let s := s.modTrp h fun t =>
        { t with hlist := (e :: r).map fun x => { x with deferred := x.deferred + 1 }, phase := .idle }
      tally (s.fbump (TRP_DEFER h) TRP_DEFER_DEFER_CNT n) h 9 1 0 n

/-- NOP (R501). A double-bit error in its word is a FETCH fault, a single-bit error is corrected (R508). -/
def execNop (h : Half) (ecc : Ecc) (s : State) : Host.Outcome State Fault Refusal :=
  match ecc with
  | .double =>
    .next (if running (s.trp.get h) = true then
        (if 960 ≤ (s.trp.get h).bc then cutoff s h else tFault s h fcFETCH) else s)
  | _ => .next (tirRun s h (.nop h ecc) 1 none id)

/-- HALT ends the main program or a handler, empties the loop stack, and handler dispatch goes on (R47, R51). -/
def execHalt (h : Half) (s : State) : Host.Outcome State Fault Refusal :=
  .next (
    let t := s.trp.get h
    if running t = true ∧ t.bc < 960 ∧ fetchTirop s h = some (.halt h) then
      let s := s.modTrp h fun t => { t with bc := t.bc + 1, loops := [], pc := t.pc + 1 }
      dispatchFrom s h (s.trp.get h).hlist
    else tirRun s h (.halt h) 1 none id)

/-- MOV (R503). -/
def execMov (h : Half) (rd rs : Reg) (s : State) : Host.Outcome State Fault Refusal :=
  tirReg s h (.mov h rd rs) 1 fun t => t.setReg rd (t.reg rs)

/-- The value a MOVS selects (R502); BC is the value at the instruction's first cycle (R498). -/
def specialVal (t : Trp) (h : Half) : Special → BitVec 64
  | .tn => BitVec.ofNat 64 t.tn
  | .bc => BitVec.ofNat 64 t.bc
  | .half => BitVec.ofNat 64 h.idx
  | .split => BitVec.ofNat 64 t.splitAt.toNat

/-- MOVS (R502). -/
def execMovs (h : Half) (rd : Reg) (sel : Special) (s : State) : Host.Outcome State Fault Refusal :=
  tirReg s h (.movs h rd sel) 1 fun t => t.setReg rd (specialVal t h sel)

/-- MOVI (R503). -/
def execMovi (h : Half) (rd : Reg) (x : Imm) (s : State) : Host.Outcome State Fault Refusal :=
  tirReg s h (.movi h rd x) 1 fun t => t.setReg rd (immS x)

/-- ADD (R503). -/
def execAdd (h : Half) (rd rs rt : Reg) (s : State) : Host.Outcome State Fault Refusal :=
  tirReg s h (.add h rd rs rt) 1 fun t => putRes t rd (aluAdd (t.reg rs) (t.reg rt))

/-- SUB (R503). -/
def execSub (h : Half) (rd rs rt : Reg) (s : State) : Host.Outcome State Fault Refusal :=
  tirReg s h (.sub h rd rs rt) 1 fun t => putRes t rd (aluSub (t.reg rs) (t.reg rt))

/-- AND (R503). -/
def execTand (h : Half) (rd rs rt : Reg) (s : State) : Host.Outcome State Fault Refusal :=
  tirReg s h (.tand h rd rs rt) 1 fun t => putRes t rd (aluAnd (t.reg rs) (t.reg rt))

/-- OR (R503). -/
def execTor (h : Half) (rd rs rt : Reg) (s : State) : Host.Outcome State Fault Refusal :=
  tirReg s h (.tor h rd rs rt) 1 fun t => putRes t rd (aluOr (t.reg rs) (t.reg rt))

/-- XOR (R503). -/
def execTxor (h : Half) (rd rs rt : Reg) (s : State) : Host.Outcome State Fault Refusal :=
  tirReg s h (.txor h rd rs rt) 1 fun t => putRes t rd (aluXor (t.reg rs) (t.reg rt))

/-- The shift count x[5:0] of a register (R503). -/
def shCount (x : BitVec 64) : Nat := x.toNat % 64

/-- SHL (R503). -/
def execShl (h : Half) (rd rs rt : Reg) (s : State) : Host.Outcome State Fault Refusal :=
  tirReg s h (.shl h rd rs rt) 1 fun t => putRes t rd (aluShl (t.reg rs) (shCount (t.reg rt)))

/-- SHR (R503). -/
def execShr (h : Half) (rd rs rt : Reg) (s : State) : Host.Outcome State Fault Refusal :=
  tirReg s h (.shr h rd rs rt) 1 fun t => putRes t rd (aluShr (t.reg rs) (shCount (t.reg rt)))

/-- SAR (R503). -/
def execSar (h : Half) (rd rs rt : Reg) (s : State) : Host.Outcome State Fault Refusal :=
  tirReg s h (.sar h rd rs rt) 1 fun t => putRes t rd (aluSar (t.reg rs) (shCount (t.reg rt)))

/-- CMP (R503). -/
def execCmp (h : Half) (rs rt : Reg) (s : State) : Host.Outcome State Fault Refusal :=
  tirReg s h (.cmp h rs rt) 1 fun t => putFlags t (aluSub (t.reg rs) (t.reg rt))

/-- TST (R503). -/
def execTst (h : Half) (rs rt : Reg) (s : State) : Host.Outcome State Fault Refusal :=
  tirReg s h (.tst h rs rt) 1 fun t => putFlags t (aluAnd (t.reg rs) (t.reg rt))

/-- MUL, 4 cycles (R503). -/
def execMul (h : Half) (rd rs rt : Reg) (s : State) : Host.Outcome State Fault Refusal :=
  tirReg s h (.mul h rd rs rt) 4 fun t => putRes t rd (aluMul (t.reg rs) (t.reg rt))

/-- ADDI (R503). -/
def execAddi (h : Half) (rd rs : Reg) (x : Imm) (s : State) : Host.Outcome State Fault Refusal :=
  tirReg s h (.addi h rd rs x) 1 fun t => putRes t rd (aluAdd (t.reg rs) (immS x))

/-- SUBI (R503). -/
def execSubi (h : Half) (rd rs : Reg) (x : Imm) (s : State) : Host.Outcome State Fault Refusal :=
  tirReg s h (.subi h rd rs x) 1 fun t => putRes t rd (aluSub (t.reg rs) (immS x))

/-- ANDI (R503). -/
def execAndi (h : Half) (rd rs : Reg) (x : Imm) (s : State) : Host.Outcome State Fault Refusal :=
  tirReg s h (.andi h rd rs x) 1 fun t => putRes t rd (aluAnd (t.reg rs) (immZ x))

/-- ORI (R503). -/
def execOri (h : Half) (rd rs : Reg) (x : Imm) (s : State) : Host.Outcome State Fault Refusal :=
  tirReg s h (.ori h rd rs x) 1 fun t => putRes t rd (aluOr (t.reg rs) (immZ x))

/-- XORI (R503). -/
def execXori (h : Half) (rd rs : Reg) (x : Imm) (s : State) : Host.Outcome State Fault Refusal :=
  tirReg s h (.xori h rd rs x) 1 fun t => putRes t rd (aluXor (t.reg rs) (immZ x))

/-- SHLI (R503). -/
def execShli (h : Half) (rd rs : Reg) (n : BitVec 6) (s : State) : Host.Outcome State Fault Refusal :=
  tirReg s h (.shli h rd rs n) 1 fun t => putRes t rd (aluShl (t.reg rs) n.toNat)

/-- SHRI (R503). -/
def execShri (h : Half) (rd rs : Reg) (n : BitVec 6) (s : State) : Host.Outcome State Fault Refusal :=
  tirReg s h (.shri h rd rs n) 1 fun t => putRes t rd (aluShr (t.reg rs) n.toNat)

/-- SARI (R503). -/
def execSari (h : Half) (rd rs : Reg) (n : BitVec 6) (s : State) : Host.Outcome State Fault Refusal :=
  tirReg s h (.sari h rd rs n) 1 fun t => putRes t rd (aluSar (t.reg rs) n.toNat)

/-- CMPI (R503). -/
def execCmpi (h : Half) (rs : Reg) (x : Imm) (s : State) : Host.Outcome State Fault Refusal :=
  tirReg s h (.cmpi h rs x) 1 fun t => putFlags t (aluSub (t.reg rs) (immS x))

/-- TSTI (R503). -/
def execTsti (h : Half) (rs : Reg) (x : Imm) (s : State) : Host.Outcome State Fault Refusal :=
  tirReg s h (.tsti h rs x) 1 fun t => putFlags t (aluAnd (t.reg rs) (immZ x))

/-- BFX (R503). -/
def execBfx (h : Half) (rd rs : Reg) (pos len1 : BitVec 6) (s : State) : Host.Outcome State Fault Refusal :=
  tirReg s h (.bfx h rd rs pos len1) 1 fun t => putRes t rd (aluBfx (t.reg rs) pos.toNat (len1.toNat + 1))

/-- BFI (R503). -/
def execBfi (h : Half) (rd rs : Reg) (pos len1 : BitVec 6) (s : State) : Host.Outcome State Fault Refusal :=
  tirReg s h (.bfi h rd rs pos len1) 1 fun t => putRes t rd (aluBfi (t.reg rd) (t.reg rs) pos.toNat (len1.toNat + 1))

/-- The CS words of a load or store: one, or two with D, low word first (R506). -/
def csWords (a : Nat) (d : Bool) : List Nat := if d then [a, a + 4] else [a]

/-- The cost check of a CS access (R538): the cost, or an OPERAND fault. -/
def lsCost (t : Trp) (h : Half) (rs : Reg) (nobase d : Bool) (x : Imm) : Option Nat :=
  (csCost h (immS x).toNat (csAddr t rs nobase d x)).map fun c => if d then 2 * c else c

/-- The CS words a load brings, low word first; a word whose data is late reads as all ones and is logged as
CS unreachable (R507). A held word is never late. -/
def csLoads (s : State) (h : Half) (late : Bool) : List Nat → Nat × State
  | [] => (0, s)
  | a :: r =>
    let x := if late ∧ heldCs (s.trp.get h).held a = none
      then ((0xFFFFFFFF : Word), csUnreachable s h a) else csLoad s h a
    let y := csLoads x.2 h late r
    (x.1.toNat + y.1 * 2 ^ 32, y.2)

/-- LD with S clear (R506, R507, R538). `late`: the data has not returned by the access's last cycle. -/
def execLdCs (h : Half) (rd rs : Reg) (nobase d : Bool) (x : Imm) (late : Bool) (s : State) :
    Host.Outcome State Fault Refusal :=
  let t := s.trp.get h
  let c := lsCost t h rs nobase d x
  .next (tirRun s h (.ldCs h rd rs nobase d x late) (c.getD 0) (if c.isSome then none else some fcOPERAND) fun s =>
    let r := csLoads s h late (csWords (csAddr t rs nobase d x) d)
    r.2.modTrp h fun t => t.setReg rd (BitVec.ofNat 64 r.1))

/-- ST with S clear: the words are held until the seal (R54, R506). -/
def execStCs (h : Half) (rd rs : Reg) (nobase d : Bool) (x : Imm) (s : State) : Host.Outcome State Fault Refusal :=
  let t := s.trp.get h
  let c := lsCost t h rs nobase d x
  let v := (t.reg rd).toNat
  let a := csAddr t rs nobase d x
  let os := if d then [TOut.cs a (BitVec.ofNat 32 v), TOut.cs (a + 4) (BitVec.ofNat 32 (v / 2 ^ 32))]
    else [TOut.cs a (BitVec.ofNat 32 v)]
  .next (holdOuts s h (.stCs h rd rs nobase d x) (c.getD 0) (if c.isSome then none else some fcOPERAND) os)

/-- LD with S set (R506); a double-bit error is a SCRATCH fault and Kezen writes 0 to the word (R508). The
error can only be in a word that is read, not in a held value. -/
def execLdScratch (h : Half) (rd rs : Reg) (nobase d : Bool) (off : BitVec 14) (ecc : Ecc) (s : State) :
    Host.Outcome State Fault Refusal :=
  let t := s.trp.get h
  let i := scrIndex t rs nobase off
  let ins : Instr := .ldScratch h rd rs nobase d off ecc
  if ecc = .double ∧ heldScr t.held i = none ∧ running t = true ∧ fetchTirop s h = some ins.clean ∧ t.bc + 2 ≤ 960 then
    .next ((tFault s h fcSCRATCH).wr64 (TRP_SCRATCH h (2 * i)) 0)
  else
    .next (tirRun s h ins 2 none fun s => s.modTrp h fun t => t.setReg rd (scrLoad s h i))

/-- ST with S set: held until the seal; a store into 0x3F00-0x3FFF is discarded (R44, R506). -/
def execStScratch (h : Half) (rd rs : Reg) (nobase d : Bool) (off : BitVec 14) (s : State) :
    Host.Outcome State Fault Refusal :=
  let t := s.trp.get h
  let i := scrIndex t rs nobase off
  .next (holdOuts s h (.stScratch h rd rs nobase d off) 2 none (if 0x7E0 ≤ i then [] else [.scr i (t.reg rd)]))

/-- Channels a half serves (R15). -/
def serves (h : Half) (c : Nat) : Bool := decide (c < 32) && decide (chanHalf c = h)

/-- The cost of an instruction that reads the Shutter samples: it waits for cycle 120 (R48).
[log 22, DESIGN CHOICE] -/
def shutCost (t : Trp) (c : Nat) : Nat := (120 - t.bc) + c

/-- Word k of the sample record that Tirop may read (R379, R509). -/
def smpWord (s : State) (c k : Nat) : Word := (s.chan c).ready.getD k 0

/-- SMP's value: I, P and I_X sign-extended, the others zero-extended (R509). -/
def smpVal (v : Word) (k : Nat) : BitVec 64 :=
  if k = 4 ∨ k = 5 ∨ k = 7 then v.signExtend 64 else v.zeroExtend 64

/-- An instruction that reads the Shutter samples waits until they are readable (R48): nothing happens
before; the waiting cycles count when it runs. Its faults are found in its first cycle.
[log 22, DESIGN CHOICE] -/
def tirShut (s : State) (h : Half) (i : Instr) (c : Nat) (chk : Option Nat) (f : State → State) : State :=
  if (s.trp.get h).samplesReady = false ∧ chk = none then s
  else tirRun s h i (shutCost (s.trp.get h) c) chk f

/-- SMP (R509). -/
def execSmp (h : Half) (rd rs : Reg) (k : BitVec 14) (s : State) : Host.Outcome State Fault Refusal :=
  let c := ((s.trp.get h).reg rs).toNat
  .next (tirShut s h (.smp h rd rs k) 4 (if serves h c ∧ k.toNat ≤ 10 then none else some fcOPERAND) fun s =>
    s.modTrp h fun t => t.setReg rd (smpVal (smpWord s c k.toNat) k.toNat))

/-- Pop the loops that a branch target lies beyond (R505). -/
def popLoops (target : Nat) : List LoopRec → List LoopRec
  | [] => []
  | l :: r => if l.stop < target then popLoops target r else l :: r

/-- Bcc (R504, R505): forward only, 2 cycles taken, 1 not taken; B always 2. -/
def execBranch (h : Half) (cond : BitVec 4) (off : BitVec 14) (s : State) : Host.Outcome State Fault Refusal :=
  let t := s.trp.get h
  let taken := condHolds cond.toNat t.zf t.nf t.cf t.vf
  let target := t.pc + 1 + off.toNat
  .next (tirRun s h (.branch h cond off) (if taken then 2 else 1) none fun s =>
    if taken then s.modTrp h fun t => { t with pc := t.pc + off.toNat, loops := popLoops target t.loops } else s)

/-- LOOP (R505). -/
def execLoop (h : Half) (len : BitVec 12) (count : BitVec 14) (s : State) : Host.Outcome State Fault Refusal :=
  let t := s.trp.get h
  .next (tirRun s h (.loop h len count) 1
    (if count = 0 ∨ len.toNat < 2 ∨ 2 ≤ t.loops.length then some fcLOOP else none) fun s =>
      s.modTrp h fun t => { t with loops := ⟨t.pc + 1, t.pc + len.toNat, count.toNat⟩ :: t.loops })

/-- ENDL at the innermost loop's end (R505): the count falls; nonzero goes on at the start, zero pops. -/
def endlStep (t : Trp) : Trp :=
  match t.loops with
  | [] => t
  | l :: r => if l.count ≤ 1 then { t with loops := r } else { t with loops := { l with count := l.count - 1 } :: r, pc := l.start - 1 }

/-- ENDL (R505); a LOOP fault with no active loop or away from the innermost loop's end. -/
def execEndl (h : Half) (s : State) : Host.Outcome State Fault Refusal :=
  let t := s.trp.get h
  let bad := match t.loops with
    | [] => true
    | l :: _ => decide (l.stop ≠ t.pc)
  .next (tirRun s h (.endl h) 1 (if bad then some fcLOOP else none) fun s => s.modTrp h endlStep)

/-- A table instruction (R510): the rows named must be rows it takes, or an OPERAND fault; each is copied at
issue and held. -/
def tableRows (s : State) (h : Half) (i : Instr) (ts : List RowTable) (rs : Reg) (n : Nat) (c0 c1 : Nat) : State :=
  match rowsAt ts ((s.trp.get h).reg rs).toNat n with
  | none => tirRun s h i (c0 + c1 * n) (some fcOPERAND) id
  | some (t, j) => holdOuts s h i (c0 + c1 * n) none ((rowsOf s h t j n).map .row)

/-- REFILL (R322, R510). -/
def execRefill (h : Half) (rs : Reg) (n : BitVec 14) (s : State) : Host.Outcome State Fault Refusal :=
  .next (tableRows s h (.refill h rs n) (refillTables h) rs n.toNat 8 2)

/-- BIND (R510); naming UMP_GSTAGE freezes the staged page from this cycle (R310). -/
def execBind (h : Half) (rs : Reg) (n : BitVec 14) (s : State) : Host.Outcome State Fault Refusal :=
  let s' := tableRows s h (.bind h rs n) (bindTables h) rs n.toNat 16 8
  .next (if holdsGen (s'.trp.get h) ∧ ¬ holdsGen (s.trp.get h) then freezePage s' h else s')

/-- UNBIND (R199, R510). -/
def execUnbind (h : Half) (rs : Reg) (n : BitVec 14) (s : State) : Host.Outcome State Fault Refusal :=
  .next (tableRows s h (.unbind h rs n) (unbindTables h) rs n.toNat 16 8)

/-- SHUT (R381, R510). -/
def execShut (h : Half) (rs : Reg) (n : BitVec 14) (s : State) : Host.Outcome State Fault Refusal :=
  .next (tableRows s h (.shut h rs n) (shutTables h) rs n.toNat 8 24)

/-- FENCE (R313, R512): Z when no older-generation access is in flight, C when the bridge is not UP. -/
def execFence (h : Half) (rs : Reg) (s : State) : Host.Outcome State Fault Refusal :=
  let n := ((s.trp.get h).reg rs).toNat % 2 ^ 16
  .next (tirRun s h (.fence h rs) 4 none fun s => s.modTrp h fun t =>
    { t with zf := fenceZ s h n, cf := decide (s.phase h ≠ phUP), nf := false, vf := false })

/-- PLATE (R440, R512): one committed row. -/
def execPlate (h : Half) (tag : BitVec 8) (s : State) : Host.Outcome State Fault Refusal :=
  .next (holdOuts s h (.plate h tag) 6 none [.row ⟨.plate, tag.toNat, 0, []⟩])

/-- Field f of a channel's sample record (R511). -/
def scanField (s : State) (c f : Nat) : Nat :=
  let st := (smpWord s c 10).toNat
  match f with
  | 0 => bits st 0 0
  | 1 => bits st 31 28
  | 2 => bits st 27 24
  | 3 => bits st 5 4
  | 4 => bits st 8 8 * 2 + bits st 7 7
  | 5 => (smpWord s c 11).toNat
  | _ => bits st 19 18

/-- The SCAN reference of a channel and field: held, else the half's (R511). References start at 0, the
Reset value of every field. -/
def scanRefOf (t : Trp) (k : Nat) : Nat := (heldRef t.held k).getD (mget (fun _ => 0) t.scanRef k)

/-- SCAN over n channels from c, bit i first (R511): the result, and the reference updates in order. -/
def scanLoop (s : State) (t : Trp) (level : Bool) (f : Nat) : Nat → Nat → Nat × List TOut
  | 0, _ => (0, [])
  | n + 1, c =>
    let v := scanField s c f
    let r := scanLoop s t level f n (c + 1)
    if level then ((if v ≠ 0 then 1 else 0) + 2 * r.1, r.2)
    else ((if v ≠ scanRefOf t (16 * c + f) then 1 else 0) + 2 * r.1, .ref (16 * c + f) v :: r.2)

/-- SCAN (R511). -/
def execScan (h : Half) (rd rs : Reg) (n : BitVec 14) (s : State) : Host.Outcome State Fault Refusal :=
  let sel := ((s.trp.get h).reg rs).toNat
  let f := bits sel 11 8
  let c := bits sel 7 0
  let ok := decide (sel < 2 ^ 13) && decide (f ≤ 6) && decide (1 ≤ n.toNat) && decide (n.toNat ≤ 32)
    && serves h c && serves h (c + n.toNat - 1)
  .next (tirShut s h (.scan h rd rs n) (8 + n.toNat) (if ok then none else some fcOPERAND) fun s =>
    s.modTrp h fun t =>
      let r := scanLoop s t (bitB sel 12) f n.toNat c
      { t.setReg rd (BitVec.ofNat 64 r.1) with
          zf := decide (r.1 = 0), nf := false, cf := false, vf := false, held := t.held ++ r.2 })

/-- An alarm row as SCAN of scratch gives it to ARM: reserved bits zero, and DELAY nonzero when EN (R514). -/
def alarmOk (v : Nat) : Bool := bits v 62 37 == 0 && !(bitB v 63 && bits v 31 0 == 0)

/-- ARM (R510, R514): n alarm rows from scratch. -/
def execArm (h : Half) (rs : Reg) (n : BitVec 14) (s : State) : Host.Outcome State Fault Refusal :=
  let a := ((s.trp.get h).reg rs).toNat
  let vs := (List.range n.toNat).map fun j => (scrLoad s h (a / 8 + j)).toNat
  let ok := decide (a % 8 = 0) && decide (a + 8 * n.toNat ≤ 16384) && decide (1 ≤ n.toNat) && decide (n.toNat ≤ 32)
    && vs.all alarmOk
  .next (holdOuts s h (.arm h rs n) (4 + 2 * n.toNat) (if ok then none else some fcOPERAND)
    (vs.map fun v => .row ⟨.alarm, bits v 36 32, 0, [BitVec.ofNat 32 v, BitVec.ofNat 32 (v / 2 ^ 32)]⟩))

/-- SEND (R513): the registers rs to rs + n - 1 as they stand, held until the seal. -/
def execSend (h : Half) (rs : Reg) (n : BitVec 14) (s : State) : Host.Outcome State Fault Refusal :=
  let t := s.trp.get h
  .next (holdOuts s h (.send h rs n) (8 + 2 * n.toNat) none
    [.send ((List.range n.toNat).map fun j => t.reg (rs + BitVec.ofNat 4 j))])

end Sys2Proof.Machine
end

