-- ==== Sys2Proof/Machine/TiropCtl.lean ====
section
/-! DEFINITION. The Tirop block's registers (spec 02): RUN and SEL, bank writes and bank validity, the bank
takeover, the outbox and the alarms (spec 18). -/

namespace Sys2Proof.Machine

open Sys2Proof

/-- The CRC-32 of R45 over bits (reflected polynomial of 0x04C1_1DB7), from a register. -/
def crcRun : List Bool → BitVec 32 → BitVec 32
  | [], c => c
  | b :: l, c => if c.getLsbD 0 != b then crcRun l ((c >>> 1) ^^^ 0xEDB88320) else crcRun l (c >>> 1)

/-- The CRC-32 over bytes in ascending address order (R45), each from its least significant bit. -/
def crc32 (bytes : List Nat) : BitVec 32 :=
  crcRun (bytes.flatMap fun b => (List.range 8).map fun i => b.testBit i) 0xFFFFFFFF ^^^ 0xFFFFFFFF

/-- The bytes of words, least significant byte first (R45). -/
def wordBytes (ws : List Word) : List Nat :=
  ws.flatMap fun w => [w.toNat % 256, w.toNat / 2 ^ 8 % 256, w.toNat / 2 ^ 16 % 256, w.toNat / 2 ^ 24]

/-- The words of a bank with word 4 taken as zero. -/
def bankForCrc (s : State) (h : Half) (b : Nat) : List Word :=
  (List.range 16384).map fun i => if i = 4 then 0 else s.rd (TRP_BANK h b i)

/-- Every VALID handler word fits HRES (R45). -/
def handlersFit (s : State) (h : Half) (b hres : Nat) : Bool :=
  (List.range 32).all fun n =>
    let w := (s.rd (TRP_BANK h b (8 + n))).toNat
    !hndValid w || decide (hndWcet w + 4 ≤ hres)

/-- A valid bank (R45). -/
def bankValid (s : State) (h : Half) (b : Nat) : Bool :=
  let hres := bits (s.rd (TRP_BANK h b 3)).toNat 9 0
  s.rd (TRP_BANK h b 0) == 0x7A0C0001
    && decide (bits (s.rd (TRP_BANK h b 2)).toNat 9 0 + hres ≤ 960)
    && handlersFit s h b hres
    && s.rd (TRP_BANK h b 4) == crc32 (wordBytes (bankForCrc s h b))

/-- Name the active bank (R43): SEL, and ACTIVE with it. -/
def setSel (s : State) (h : Half) (b : Nat) : State :=
  (s.fset (TRP_CTL h) TRP_CTL_SEL b).fset (TRP_STAT h) TRP_STAT_ACTIVE b

/-- A write of SEL: chooses the active bank while RUN is 0; a write that changes it while RUN is 1 is
discarded and logged (R43).
[log 114, DEDUCED; log 123, DEDUCED] -/
def selWrite (s : State) (h : Half) (b : Nat) : State :=
  if s.fget (TRP_CTL h) TRP_CTL_RUN = 0 then setSel s h b
  else if b = s.fget (TRP_CTL h) TRP_CTL_SEL then s
  else writeDiscarded s h (TRP_CTL h)

/-- A write of RUN waits for the next boundary (R43). -/
def runWrite (s : State) (h : Half) (v : Bool) : State := s.modTrp h fun t => { t with runPend := some v }

/-- A write of TRP_CTL (R43): of one that changes SEL while RUN is 1 the SEL part alone is discarded.
[log 123, DEDUCED] -/
def trpCtlWrite (s : State) (h : Half) (v : Word) : State :=
  runWrite (selWrite s h (fldGet v TRP_CTL_SEL)) h (fldGet v TRP_CTL_RUN == 1)

/-- A CS write of a bank word (R43): both banks while RUN is 0; while RUN is 1 only the standby bank with no
takeover pending, else discarded and logged. -/
def bankWriteAt (s : State) (h : Half) (b i : Nat) (v : Word) : State :=
  if s.fget (TRP_CTL h) TRP_CTL_RUN = 1 ∧
      (b = s.fget (TRP_CTL h) TRP_CTL_SEL ∨ s.fget (TRP_SWAP_STAT h) TRP_SWAP_STAT_STATE = 1) then
    writeDiscarded s h (TRP_BANK h b i)
  else s.wr (TRP_BANK h b i) v

/-- TRP_SWAP_STAT.STATE codes. -/
def swPENDING : Nat := 1
def swCOMPLETED : Nat := 2
def swABORTED : Nat := 3

/-- The target Transit of a request (R65): TRP_SWAP_AT as a Transit number, or as a time rounded up. -/
def swapTarget (s : State) (h : Half) (mode : Bool) : Nat :=
  let v := s.rd64 (TRP_SWAP_AT_LO h)
  if mode then (v + 999) / 1000 else v

/-- A request for a bank takeover (R65).
[log 114, DEDUCED] -/
def swapRequest (s : State) (h : Half) (pair mode : Bool) : State :=
  if s.fget (TRP_SWAP_STAT h) TRP_SWAP_STAT_STATE = swPENDING then s
  else
    let t := swapTarget s h mode
    let s := s.fsets (TRP_SWAP_STAT h) [(TRP_SWAP_STAT_REASON, 0), (TRP_SWAP_STAT_TOO_LATE, 0)]
    if s.flag (TRP_STAT h) TRP_STAT_HOLD ∨ s.fget (TRP_CTL h) TRP_CTL_RUN = 0 then swapAbortWith s h 6
    else if t < s.tn h + 2 then swapAbortWith s h 2
    else (s.fset (TRP_SWAP_STAT h) TRP_SWAP_STAT_STATE swPENDING).modTrp h fun x =>
      { x with swapT := t, swapPair := pair, swapGo := false }

/-- An abort of a pending takeover (R67): too late from cycle 960 of Transit T - 1 on. -/
def swapAbort (s : State) (h : Half) : State :=
  if s.fget (TRP_SWAP_STAT h) TRP_SWAP_STAT_STATE = swPENDING then
    if (s.trp.get h).swapGo ∨ ((s.trp.get h).sealed ∧ s.tn h + 1 = (s.trp.get h).swapT) then
      s.fset (TRP_SWAP_STAT h) TRP_SWAP_STAT_TOO_LATE 1
    else swapAbortWith s h 1
  else s

/-- A write of TRP_SWAP_CTL: PAIR and MODE, then ABORT, then REQ (R67). -/
def swapCtlWrite (s : State) (h : Half) (pair mode abort req : Bool) : State :=
  let s := s.fsets (TRP_SWAP_CTL h) [(TRP_SWAP_CTL_PAIR, pair.toNat), (TRP_SWAP_CTL_MODE, mode.toNat)]
  let s := if abort then swapAbort s h else s
  if req then swapRequest s h pair mode else s

/-- A write of TRP_OBOX_PTR.HEAD: one that passes TAIL or moves backwards is discarded (R513).
[log 37, DEDUCED] -/
def oboxHeadWrite (s : State) (h : Half) (v : Word) : State :=
  let a := TRP_OBOX_PTR h
  let hd := s.fget a TRP_OBOX_PTR_HEAD
  let nw := fldGet v TRP_OBOX_PTR_HEAD
  if (nw + 2 ^ 16 - hd) % 2 ^ 16 ≤ (s.fget a TRP_OBOX_PTR_TAIL + 2 ^ 16 - hd) % 2 ^ 16 then
    s.fset a TRP_OBOX_PTR_HEAD nw
  else writeDiscarded s h a

/-- A released SEND (R513): every message takes the next SEQ; it is written when the outbox holds fewer than
32 entries, else dropped and counted. -/
def oboxPush (s : State) (h : Half) (ws : List (BitVec 64)) : State :=
  let a := TRP_OBOX_PTR h
  let seq := (s.trp.get h).oboxSeq
  let tl := s.fget a TRP_OBOX_PTR_TAIL
  let s := s.modTrp h fun t => { t with oboxSeq := (t.oboxSeq + 1) % 2 ^ 16 }
  if (tl + 2 ^ 16 - s.fget a TRP_OBOX_PTR_HEAD) % 2 ^ 16 < 32 then
    let tn := (s.trp.get h).tn
    let body := (List.range 6).flatMap fun j =>
      let w := ws.getD j 0
      [BitVec.ofNat 32 w.toNat, BitVec.ofNat 32 (w.toNat / 2 ^ 32)]
    let e : List Word := [BitVec.ofNat 32 tn, BitVec.ofNat 32 (tn / 2 ^ 32),
      BitVec.ofNat 32 (seq * 2 ^ 16 + ws.length), 0] ++ body
    (s.wrWords (TRP_OBOX h (tl % 32) 0) e).fset a TRP_OBOX_PTR_TAIL (tl + 1)
  else s.fbump (TRP_ERRCNT1 h) TRP_ERRCNT1_SENDDROP_CNT 1

/-- An alarm fires (R514): its ARM bit clears and its TRP_ALARM bit sets. -/
def fireAlarm (s : State) (h : Half) (a : Nat) : State :=
  let s := s.modTrp h fun t => { t with alarms := merase t.alarms a }
  let b : Word := BitVec.ofNat 32 (2 ^ a)
  let s := s.wr (TRP_ALARM_ARM h) (s.rd (TRP_ALARM_ARM h) &&& ~~~ b)
  s.wr (TRP_ALARM h) (s.rd (TRP_ALARM h) ||| b)

/-- Every alarm due at or before Transit k fires (R514, R39).
[log 45, DEDUCED] -/
def fireDue (s : State) (h : Half) (k : Nat) : State :=
  (s.trp.get h).alarms.foldl (fun s e => if e.2 ≤ k then fireAlarm s h e.1 else s) s

/-- An alarm row applied at the boundary that opens Transit k (R514). -/
def applyAlarm (s : State) (h : Half) (k : Nat) (r : Row) : State :=
  let v := rowW r.words 0 + rowW r.words 1 * 2 ^ 32
  let b : Word := BitVec.ofNat 32 (2 ^ r.idx)
  if bitB v 63 then
    let s := s.modTrp h fun t => { t with alarms := minsert t.alarms r.idx (k + bits v 31 0) }
    s.wr (TRP_ALARM_ARM h) (s.rd (TRP_ALARM_ARM h) ||| b)
  else
    let s := s.modTrp h fun t => { t with alarms := merase t.alarms r.idx }
    s.wr (TRP_ALARM_ARM h) (s.rd (TRP_ALARM_ARM h) &&& ~~~ b)

/-- TRP_RUN_SET (R43). -/
def execTrpRunSet (m : Master) (h : Half) (s : State) : Host.Outcome State Fault Refusal :=
  .next (csGate s m (TRP_CTL h) fun s => runWrite s h true)

/-- TRP_RUN_CLEAR (R43). -/
def execTrpRunClear (m : Master) (h : Half) (s : State) : Host.Outcome State Fault Refusal :=
  .next (csGate s m (TRP_CTL h) fun s => runWrite s h false)

/-- TRP_SEL_WRITE (R43). -/
def execTrpSelWrite (m : Master) (h : Half) (sel : Bool) (s : State) : Host.Outcome State Fault Refusal :=
  .next (csGate s m (TRP_CTL h) fun s => selWrite s h sel.toNat)

/-- BANK_WRITE (R43). -/
def execBankWrite (m : Master) (h : Half) (b : Bool) (i : BitVec 14) (v : Word) (s : State) :
    Host.Outcome State Fault Refusal :=
  .next (csGate s m (TRP_BANK h b.toNat i.toNat) fun s => bankWriteAt s h b.toNat i.toNat v)

/-- SWAP_REQUEST: a write of TRP_SWAP_CTL with REQ set (R65, R67). -/
def execSwapRequest (m : Master) (h : Half) (pair mode abort : Bool) (s : State) : Host.Outcome State Fault Refusal :=
  .next (csGate s m (TRP_SWAP_CTL h) fun s => swapCtlWrite s h pair mode abort true)

/-- SWAP_ABORT: a write of TRP_SWAP_CTL with ABORT set and REQ clear (R67). -/
def execSwapAbort (m : Master) (h : Half) (pair mode : Bool) (s : State) : Host.Outcome State Fault Refusal :=
  .next (csGate s m (TRP_SWAP_CTL h) fun s => swapCtlWrite s h pair mode true false)

/-- OBOX_HEAD_WRITE (R513). -/
def execOboxHeadWrite (m : Master) (h : Half) (v : Word) (s : State) : Host.Outcome State Fault Refusal :=
  .next (csGate s m (TRP_OBOX_PTR h) fun s => oboxHeadWrite s h v)

/-- ALARM_FIRE (R514): an armed alarm whose delay expires at the boundary that is due (the Transit is sealed)
or has opened. -/
def execAlarmFire (h : Half) (a : BitVec 5) (s : State) : Host.Outcome State Fault Refusal :=
  match mfind (s.trp.get h).alarms a.toNat with
  | some t =>
    .next (if t ≤ s.tn h ∨ (t = s.tn h + 1 ∧ (s.trp.get h).sealed) then fireAlarm s h a.toNat else s)
  | none => .next s

/-- HANDLER_BACKLOG (R53): an event deferred for 64 consecutive Transits raises TIROP cause 2, once.
[log 36, DEDUCED] -/
def execHandlerBacklog (h : Half) (s : State) : Host.Outcome State Fault Refusal :=
  let late := fun (e : HEvt) => decide (64 ≤ e.deferred) && !e.told
  if (s.trp.get h).hlist.any late then
    let s := s.modTrp h fun t => { t with hlist := t.hlist.map fun e => if late e then { e with told := true } else e }
    .next (raise s h (evtU 2 2 0 0 0 0))
  else .next s

/-- SHUTTER_SAMPLES_READY (R48): at cycle 120 the boundary's sample records become readable by Tirop.
[log 22, DESIGN CHOICE] -/
def execShutterSamplesReady (h : Half) (s : State) : Host.Outcome State Fault Refusal :=
  let s := (List.range 16).foldl (fun s i => s.modChan (16 * h.idx + i) fun c => { c with ready := c.smp }) s
  .next (s.modTrp h fun t => { t with samplesReady := true })

/-- TIROP_CUTOFF (R57): BC reaches 960. A pair still running is cut off; from here on an abort of this
Transit's commits is too late (R67, R204). -/
def execTiropCutoff (h : Half) (s : State) : Host.Outcome State Fault Refusal :=
  let s := s.modTrp h fun t => { t with sealed := true, bc := if running t then 960 else t.bc }
  .next (if running (s.trp.get h) then cutoff s h else s)

end Sys2Proof.Machine
end

