-- ==== Sys2Proof/Machine/ServiceFn.lean ====
section
/-! DEFINITION. Virtual functions, Bus Master Enable, function-level reset, withdrawal, freeze, save and restore of the
Service Function (R348-R352, R369-R376), and its function rows. -/

namespace Sys2Proof.Machine

open Sys2Proof

/-- The VFs of tenant t that are listed, those on their way out too. -/
def vfsOf (s : State) (t : Nat) : List Nat :=
  (s.fns.filter fun e => decide (e.1 / 256 = t) && decide (e.1 % 256 ≠ 0)).map fun e => e.1 % 256

/-- QUOTA of every tenant but t. -/
def quotaOthers (s : State) (t : Nat) : Nat :=
  (((List.range 64).filter fun u => u ≠ t).map fun u => s.fget (SF_POOL u) SF_POOL_QUOTA).sum

/-- A write of SF_POOL(t) (R348): discarded past 4,096 in all, or while VF Enable is 1. TotalVFs follows QUOTA while VF
Enable is clear.
[log 58, DEDUCED; log 158, DEDUCED] -/
def quotaWrite (s : State) (t : Nat) (v : Word) : State :=
  let q := fldGet v SF_POOL_QUOTA
  if (s.fn t 0).vfe ∨ 4096 < quotaOthers s t + q then writeDiscarded s (tenantHalf t) (SF_POOL t)
  else (s.fset (SF_POOL t) SF_POOL_QUOTA q).modFn t 0 fun f => { f with totalVfs := min 255 q }

/-- SF_POOL_QUOTA_WRITE (R348). -/
def execSfPoolQuotaWrite (m : Master) (t : BitVec 6) (v : Word) (s : State) : Host.Outcome State Fault Refusal :=
  .next (csGate s m (SF_POOL t.toNat) fun s => quotaWrite s t.toNat v)

/-- VF_ENABLE_WRITE (R349): the write completes at once in configuration space.
[log 158, DEDUCED] -/
def vfEnable (s : State) (t : Nat) (en : Bool) (n : Nat) : State :=
  if fnGone s t 0 ∨ inReset s t then s
  else
    let s := s.modFn t 0 fun f => { f with vfe := en, numvfs := n,
                                           totalVfs := if en then f.totalVfs else min 255 (s.fget (SF_POOL t) SF_POOL_QUOTA) }
    raise (s.fset (SF_PF_STAT t) SF_PF_STAT_VFE_REQ 1) (tenantHalf t) (evt 15 0 t n)
/-- VF_ENABLE_WRITE (R348).
[log 58, DEDUCED] -/
def execVfEnableWrite (t : BitVec 6) (en : Bool) (n : BitVec 16) (s : State) : Host.Outcome State Fault Refusal :=
  .next (vfEnable s t.toNat en n.toNat)

/-- Entries of a function that are live (R370, R374). -/
def fnLive (s : State) (key : Nat) : List (Nat × ITag) :=
  s.net.itags.filter fun e => ownFn e.2.own == some key && e.2.quar.isNone

/-- Move live entries of a function to quarantine: those whose request has not left its egress, or every one
(R370). -/
def quarFn (s : State) (key : Nat) (all : Bool) : State :=
  let f := fun (e : Nat × ITag) =>
    if ownFn e.2.own = some key ∧ e.2.quar = none ∧ (all ∨ e.2.out = false) then
      (e.1, { e.2 with quar := some (s.now e.2.half) }) else e
  s.modNet fun n => { n with itags := n.itags.map f }

/-- SF_MIG_STAT.STATE and REASON codes. -/
def mgPENDING : Nat := 1
def mgCOMPLETED : Nat := 2
def mgABORTED : Nat := 3

/-- A migration command ends (R373). -/
def migEnd (s : State) (t state reason : Nat) : State :=
  (s.fsets (SF_MIG_STAT t 0) [(SF_MIG_STAT_STATE, state), (SF_MIG_STAT_REASON, reason)]).modFn t 0 fun f => { f with mig := none }

/-- A pending migration command of a PF that is reset ends ABORTED with reason RESET (R371). -/
def migReset (s : State) (t : Nat) : State := if (s.fn t 0).mig.isSome then migEnd s t mgABORTED 6 else s

/-- An FLR begins (R370 step 1, 2): no new request, and requests that have not left are quarantined. -/
def flrBegin (s : State) (t fn : Nat) (withdraw remove : Bool) : State :=
  let k := fnKey t fn
  let f := s.fn t fn
  let s := if f.flr.isSome then s else s.modFn t fn fun f =>
    { f with flr := some (s.now (tenantHalf t)), flrOut := false, prog := [], flush := [] }
  let s := s.modFn t fn fun f => { f with withdraw := f.withdraw || withdraw, remove := f.remove || remove }
  let s := if withdraw then s.fset (SF_FN_STAT t fn) SF_FN_STAT_WITHDRAWN 1 else s
  setAlive (quarFn (s.fset (SF_FN_STAT t fn) SF_FN_STAT_FLR 1) k false) t fn

/-- An FLR of the PF clears VF Enable and removes every VF (R371). -/
def flrPf (s : State) (t : Nat) (withdraw : Bool) : State :=
  let s := migReset s t
  let s := s.modFn t 0 fun f => { f with vfe := false, numvfs := 0, totalVfs := min 255 (s.fget (SF_POOL t) SF_POOL_QUOTA) }
  let s := s.fset (SF_PF_STAT t) SF_PF_STAT_NUMVF 0
  flrBegin ((vfsOf s t).foldl (fun s v => flrBegin s t v withdraw (!withdraw)) s) t 0 withdraw false

/-- FLR_START (R370, R371): a withdrawn function discards the write. -/
def flrStart (s : State) (t fn : Nat) : State :=
  if fnExists s t fn = false ∨ fnGone s t fn then s
  else if fn = 0 then flrPf s t false
  else flrBegin s t fn false false
def execFlrStart (t : BitVec 6) (fn : BitVec 8) (s : State) : Host.Outcome State Fault Refusal := .next (flrStart s t.toNat fn.toNat)

/-- The first boundary at or after 900 µs from the FLR (R370 step 3). -/
def flrTimeout (s : State) (t fn : Nat) : State :=
  match (s.fn t fn).flr with
  | none => s
  | some b =>
    if (s.fn t fn).flrOut = false ∧ b + 900000 ≤ s.now (tenantHalf t) then
      (quarFn s (fnKey t fn) true).modFn t fn fun f => { f with flrOut := true }
    else s

/-- FLR_TIMEOUT (R370). -/
def execFlrTimeout (t : BitVec 6) (fn : BitVec 8) (s : State) : Host.Outcome State Fault Refusal :=
  .next (flrTimeout s t.toNat fn.toNat)

/-- Registers of a function at their reset values; the pool index and WITHDRAWN stay (R370 step 5, R377). -/
def fnRegsReset (s : State) (t fn : Nat) : State :=
  let s := (List.range 3).foldl (fun s q => qDisable s t fn q) s
  let addrs := [SF_FN_ERRCNT0 t fn, SF_FN_ERRCNT1 t fn, SF_QCFG t fn 0, SF_QPTR t fn 0, SF_QWM t fn 0, SF_QCFG t fn 1,
    SF_QPTR t fn 1, SF_QWM t fn 1, SF_QCFG t fn 2, SF_QPTR t fn 2, SF_QWM t fn 2]
  let addrs := if fn = 0 then addrs ++ [SF_MIG_CTL t 0, SF_MIG_STAT t 0, SF_MIG_ADDR_LO t 0, SF_MIG_ADDR_HI t 0, SF_MIG_LEN t 0]
    else addrs
  let s := addrs.foldl (fun s a => s.wr a (resetWord a)) s
  s.fsets (SF_FN_STAT t fn) [(SF_FN_STAT_FLR, 0), (SF_FN_STAT_FROZEN, 0), (SF_FN_STAT_HALTED, 0)]

/-- What a reset function keeps: its place in the pool is in SF_FN_STAT; PF configuration stays (R370). -/
def fnAfterFlr (f : Fn) : Fn := { fnReset with vfe := f.vfe, numvfs := f.numvfs, totalVfs := f.totalVfs }

/-- An FLR completes (R370 steps 5, 6) once no entry of the function is live. A removed VF stays listed until its
entries have left quarantine too (R352). -/
def flrFinish (s : State) (t fn : Nat) : State :=
  if (s.fn t fn).flr.isNone ∨ fnLive s (fnKey t fn) ≠ [] then s
  else
    let f := s.fn t fn
    if f.remove then
      if s.net.itags.any fun e => ownFn e.2.own == some (fnKey t fn) then s
      else
        let s := (fnRegsReset s t fn).wr (SF_FN_STAT t fn) 0
        { s.wr (SF_ALIVE t fn) 0 with fns := merase s.fns (fnKey t fn) }
    else setAlive ((fnRegsReset s t fn).modFn t fn fnAfterFlr) t fn

/-- FLR_COMPLETE (R370). -/
def execFlrComplete (t : BitVec 6) (fn : BitVec 8) (s : State) : Host.Outcome State Fault Refusal :=
  .next (flrFinish s t.toNat fn.toNat)

/-- Bus Master Enable is cleared (R369): descriptors in progress are abandoned and the queues are halted. -/
def bmeClear (s : State) (t fn : Nat) : State :=
  let s := s.modFn t fn fun f => { f with bme := false, prog := [] }
  haltedStat ((List.range 3).foldl (fun s q => if qEn s t fn q then setQState s t fn q qHALTED else s) s) t fn

/-- BME_CLEAR (R369). -/
def execBmeClear (t : BitVec 6) (fn : BitVec 8) (s : State) : Host.Outcome State Fault Refusal :=
  if fnExists s t.toNat fn.toNat = false ∨ fnGone s t.toNat fn.toNat then .next s
  else .next (bmeClear s t.toNat fn.toNat)

/-- A freeze applies (R374): its queues are FROZEN. -/
def freezeApply (s : State) (t fn : Nat) : State :=
  let s := s.modFn t fn fun f => { f with freeze := true }
  (List.range 3).foldl (fun s q => if qState s t fn q = qRUNNING then setQState s t fn q qFROZEN else s) s

/-- The VF is FROZEN once no entry of it is live (R374). -/
def frozenCheck (s : State) (t fn : Nat) : State :=
  if (s.fn t fn).freeze ∧ fnLive s (fnKey t fn) = [] ∧ (s.fn t fn).prog = [] then
    setAlive (s.fset (SF_FN_STAT t fn) SF_FN_STAT_FROZEN 1) t fn
  else s

/-- VF_FROZEN (R374). -/
def execVfFrozen (t : BitVec 6) (fn : BitVec 8) (s : State) : Host.Outcome State Fault Refusal :=
  .next (frozenCheck (pumpFn s t.toNat fn.toNat) t.toNat fn.toNat)

/-- A thaw applies (R374): every frozen queue runs again, and the pending MSI-X messages go; one that was halted meanwhile leaves
HALTED only through DISABLED (R353).
[log 158, DEDUCED] -/
def thawApply (s : State) (t fn : Nat) : State :=
  let s := (s.modFn t fn fun f => { f with freeze := false }).fset (SF_FN_STAT t fn) SF_FN_STAT_FROZEN 0
  let s := (List.range 3).foldl (fun s q => if qState s t fn q = qFROZEN then setQState s t fn q qRUNNING else s) s
  setAlive (msixPending s t fn) t fn

/-- Slots of an image after its first three lines: every slot of the enabled SQ, CQ and RQ (R375). -/
def imageSlots (s : State) (t vf : Nat) : List Nat :=
  (List.range 3).flatMap fun q => if qEn s t vf q then (List.range (qSize s t vf q)).map fun i => q * 65536 + i else []

/-- LENGTH of a VF's image (R375). -/
def imageLen (s : State) (t vf : Nat) : Nat :=
  192 + 64 * ((List.range 3).map fun q => if qEn s t vf q then qSize s t vf q else 0).sum

/-- Words as one number, low word first. -/
def wordsNat (l : List Nat) : Nat := l.foldr (fun w n => w % 2 ^ 32 + n * 2 ^ 32) 0

/-- Line 1 of an image: QCFG, QPTR and QWM of the three queues, the Function Mask, the pending bits (R375).
[log 71, DESIGN CHOICE] -/
def imageQueues (s : State) (t vf : Nat) : Nat :=
  wordsNat (((List.range 3).flatMap fun q =>
    [(s.rd (SF_QCFG t vf q)).toNat, (s.rd (SF_QPTR t vf q)).toNat, (s.rd (SF_QWM t vf q)).toNat])
    ++ [(s.fn t vf).fmask.toNat, (s.fn t vf).pbits])

/-- Line 2: the MSI-X table.
[log 71, DESIGN CHOICE] -/
def imageMsix (s : State) (t vf : Nat) : Nat := wordsNat ((List.range 16).map fun i => nget (s.fn t vf).msix i)

/-- Line i of an image's body.
[log 71, DESIGN CHOICE] -/
def imageBody (s : State) (t vf i : Nat) : Nat :=
  if i = 1 then imageQueues s t vf else if i = 2 then imageMsix s t vf
  else nget (s.fn t vf).ents ((imageSlots s t vf).getD (i - 3) 0)

/-- The bytes of a line. -/
def lineBytes (n : Nat) : List Nat := (List.range 64).map fun b => bytesAt n b 1

/-- MAGIC of an image (R375). -/
def imageMagic : Nat := 0x4B5A5649

/-- The header line of a VF's image (R375). -/
def imageHeader (s : State) (t vf : Nat) : Nat :=
  let n := imageLen s t vf
  let crc := crc32 ((List.range (n / 64 - 1)).flatMap fun i => lineBytes (imageBody s t vf (i + 1)))
  imageMagic + 0x10000 * 2 ^ 32 + n * 2 ^ 64 + crc.toNat * 2 ^ 96 + fnPool s t vf * 2 ^ 128

/-- The address of line i of the image a PF transfers. -/
def imageAddr (s : State) (t i : Nat) : Nat := s.rd64 (SF_MIG_ADDR_LO t 0) + 64 * i

def modMig (s : State) (t : Nat) (f : Mig → Mig) : State := s.modFn t 0 fun x => { x with mig := x.mig.map f }

/-- Transfer one line of an image: a write of `data`, or a read (R373): checked as the PF's tenant (R345). Answers whether
it went or failed, rather than waiting for a tag. -/
def imageLine (s : State) (t i : Nat) (data : Option Nat) : Bool × State :=
  let h := tenantHalf t
  let a := imageAddr s t i
  let need := if data.isSome then pW else pR
  let op : Op := if data.isSome then .mWr else .mRd
  match check s h (.tenant t) ⟨4, t, a⟩ need with
  | .deny rule => (true, modMig (umpFault s h t need ⟨4, t, a⟩ rule) t fun m => { m with bad := true })
  | .allow =>
    match mfind (s.binds.get h).usp t with
    | none => (true, modMig s t fun m => { m with bad := true })
    | some d =>
      match takeItag s h (.image (fnKey t 0) i) t (some (s.gen h)) true false with
      | none => (false, s)
      | some (e, s) =>
        let m := { blankMsg op (unitNode h 28) d e t (tcSf s t) with
          ld := 0, tgt := ⟨4, t, a⟩, len := 64, data := data.getD 0, slots := msgSlots op 64 false, itag := some e,
          gen := s.gen h, checked := true }
        (true, originateStamped (modMig (flightBegin s h (s.gen h)) t fun m => { m with out := m.out + 1 }) h 28 m)

/-- Transfer the lines of the pending command that wait: an image's body for SAVE, after a header of zeros; reads for
RESTORE. -/
def pumpMig (s : State) (t : Nat) : State :=
  match (s.fn t 0).mig with
  | none => s
  | some m => m.todo.foldl (fun s i =>
      if (s.fn t 0).mig.any fun m => m.bad then s
      else
        let r := imageLine s t i (if m.cmd = 2 then some (if i = 0 then 0 else imageBody s t m.vf i) else none)
        if r.1 then modMig r.2 t fun m => { m with todo := m.todo.erase i } else r.2) s

/-- A migration command is written (R373): ignored while one is pending; it clears TOO_LATE, REASON and ROWSTAT. -/
def migStart (s : State) (t vf cmd : Nat) (row : Option Nat) : Option State :=
  if (s.fn t 0).mig.isSome ∨ (s.fn t 0).flr.isSome ∨ fnGone s t 0 then none
  else
    let s := s.fset (SF_MIG_CTL t 0) SF_MIG_CTL_VF vf
    let s := s.fset (SF_MIG_LEN t 0) SF_MIG_LEN_LEN (imageLen s t vf)
    let s := (s.wr (SF_MIG_STAT t 0) 0).fset (SF_MIG_STAT t 0) SF_MIG_STAT_STATE mgPENDING
    some (s.modFn t 0 fun f => { f with mig := some ⟨cmd, vf, row, 0, false, [], [], 0⟩ })

/-- The Observer stages a function row for a command (R350, R373). -/
def stageFnRow (s : State) (t n op vf ticket addr : Nat) : State :=
  s.wrWords (SF_FSTAGE t n 0) [BitVec.ofNat 32 (op * 2 ^ 28 + vf * 2 ^ 8), 0, BitVec.ofNat 32 (ticket % 2 ^ 16),
    BitVec.ofNat 32 addr, BitVec.ofNat 32 (addr / 2 ^ 32), 0, 0, 0]

/-- A row-based command: pending, with its row staged at n. -/
def migRow (s : State) (t vf cmd op n ticket : Nat) : State :=
  match migStart s t vf cmd (some n) with
  | none => s
  | some s => stageFnRow s t n op vf ticket (if cmd = 3 then s.rd64 (SF_MIG_ADDR_LO t 0) else 0)

/-- MIG_FREEZE, MIG_RESTORE, MIG_THAW (R373). -/
def execMigFreeze (t : BitVec 6) (vf : BitVec 8) (n : BitVec 4) (ticket : BitVec 16) (s : State) : Host.Outcome State Fault Refusal :=
  .next (migRow s t.toNat vf.toNat 1 4 n.toNat ticket.toNat)
def execMigRestore (t : BitVec 6) (vf : BitVec 8) (n : BitVec 4) (ticket : BitVec 16) (s : State) : Host.Outcome State Fault Refusal :=
  .next (migRow s t.toNat vf.toNat 3 5 n.toNat ticket.toNat)
def execMigThaw (t : BitVec 6) (vf : BitVec 8) (n : BitVec 4) (ticket : BitVec 16) (s : State) : Host.Outcome State Fault Refusal :=
  .next (migRow s t.toNat vf.toNat 4 6 n.toNat ticket.toNat)

/-- MIG_SAVE (R373): a frozen VF's image is written, its first line as zeros; any other VF ends the command with reason
STATE. -/
def migSave (s : State) (t vf : Nat) : State :=
  match migStart s t vf 2 none with
  | none => s
  | some s =>
    if fnExists s t vf && fnFrozen s t vf then
      pumpMig (modMig s t fun m => { m with stage := 1, todo := List.range (imageLen s t vf / 64) }) t
    else migEnd s t mgABORTED 5
def execMigSave (t : BitVec 6) (vf : BitVec 8) (s : State) : Host.Outcome State Fault Refusal := .next (migSave s t.toNat vf.toNat)

/-- A line of an image has left Kezen (R373): the header line is SAVE's commit point. -/
def imageLeft (s : State) (t : Nat) : State :=
  match (s.fn t 0).mig with
  | none => s
  | some m =>
    if m.cmd = 2 ∧ m.stage = 2 then migEnd s t mgCOMPLETED 0
    else if m.cmd = 2 then modMig s t fun m => { m with out := m.out - 1 }
    else s

/-- Lines that were discarded on their way count as left. -/
def imageTake (s : State) (t : Nat) : State :=
  (s.net.idone.filter fun d => ownFn d.own == some (fnKey t 0) && ownImage d.own).foldl (fun s d =>
    imageLeft (s.modNet fun n => { n with idone := n.idone.erase d }) t) s

/-- The header of a SAVE goes once every body line has left (R373). -/
def saveHeader (s : State) (t : Nat) : State :=
  let s := pumpMig (imageTake s t) t
  match (s.fn t 0).mig with
  | none => s
  | some m =>
    if m.cmd ≠ 2 ∨ m.stage ≠ 1 then s
    else if m.bad then migEnd s t mgABORTED 4
    else if m.out ≠ 0 ∨ m.todo ≠ [] then s
    else
      let r := imageLine (modMig s t fun m => { m with stage := 2 }) t 0 (some (imageHeader s t m.vf))
      if r.1 then (if (r.2.fn t 0).mig.any fun m => m.bad then migEnd r.2 t mgABORTED 4 else r.2) else s

/-- SAVE_HEADER_WRITE (R373).
[log 158, DEDUCED] -/
def execSaveHeaderWrite (t : BitVec 6) (s : State) : Host.Outcome State Fault Refusal := .next (saveHeader s t.toNat)

/-- A read line of an image, or a failed transfer (R373); the first line says how many follow (R375). -/
def imageRead (s : State) (t i : Nat) (ok : Bool) (data : Nat) : State :=
  match (s.fn t 0).mig with
  | none => s
  | some m =>
    let m := { m with out := m.out - 1, bad := m.bad || !ok, lines := minsert m.lines i data }
    let n := bytesAt data 8 4 / 64
    let m := if i = 0 ∧ m.cmd = 3 ∧ ok then
        (if bytesAt data 0 4 = imageMagic ∧ n ≤ 10243 then { m with todo := (List.range (n - 1)).map fun k => k + 1 } else m)
      else m
    pumpMig (s.modFn t 0 fun f => { f with mig := some m }) t

/-- An image's own checks (R375). -/
def imageOk (m : Mig) : Bool :=
  let hd := nget m.lines 0
  let n := bytesAt hd 8 4 / 64
  let q := nget m.lines 1
  bytesAt hd 0 4 == imageMagic && bytesAt hd 6 2 == 1 && decide (3 ≤ n) && decide (m.lines.length = n)
    && (crc32 ((List.range (n - 1)).flatMap fun i => lineBytes (nget m.lines (i + 1)))).toNat == bytesAt hd 12 4
    && (List.range 3).all fun k =>
        let w := bytesAt q (12 * k) 4
        !bitB w 0 || (decide (4 ≤ bits w 19 16) && decide (bits w 19 16 ≤ qMax k))

/-- Queue entries an image asks for. -/
def imageRoom (m : Mig) : Nat :=
  ((List.range 3).map fun k =>
    let w := bytesAt (nget m.lines 1) (12 * k) 4
    if bitB w 0 then 2 ^ bits w 19 16 else 0).sum

/-- Put an image into a VF: its queues FROZEN as it is. Whether an RQ's newest entry is a gap marker is told by its TYPE.
[log 158, DEDUCED] -/
def imageLoad (s : State) (t vf : Nat) (m : Mig) : State :=
  let l1 := nget m.lines 1
  let s := (List.range 3).foldl (fun s q =>
    let cfg := BitVec.ofNat 32 (bytesAt l1 (12 * q) 4)
    let s := s.wr (SF_QCFG t vf q) (cfg &&& 0x000F0081)
    let s := setQState s t vf q (if bitB cfg.toNat 0 then qFROZEN else qDISABLED)
    let s := s.wr (SF_QPTR t vf q) (BitVec.ofNat 32 (bytesAt l1 (12 * q + 4) 4))
    s.wr (SF_QWM t vf q) (BitVec.ofNat 32 (bytesAt l1 (12 * q + 8) 4) &&& 0x9FFF1FFF)) s
  let tab := (List.range 16).foldl (fun x i => nset x i (bytesAt (nget m.lines 2) (4 * i) 4)) []
  let s := s.modFn t vf fun f => { f with fmask := bitB (bytesAt l1 36 4) 0, pbits := bytesAt l1 40 4 % 16, msix := tab }
  let slots := imageSlots s t vf
  let es := (List.range slots.length).foldl (fun e i => nset e (slots.getD i 0) (nget m.lines (i + 3))) []
  let s := s.modFn t vf fun f => { f with ents := es }
  s.modFn t vf fun f => { f with gap := if entryAt s t vf 2 (qTail s t vf 2 + 65535) % 256 = 0x8F then [2] else [] }

/-- RESTORE_CHECK_DONE (R373, R375): every line has been read; the image has passed its check, or the command ends with BAD_IMAGE,
NO_SPACE or DMA. -/
def restoreCheck (s : State) (t : Nat) : State :=
  let s := pumpMig s t
  match (s.fn t 0).mig with
  | none => s
  | some m =>
    if m.cmd ≠ 3 ∨ m.stage ≠ 1 ∨ (m.bad = false ∧ (m.out ≠ 0 ∨ m.todo ≠ [])) then s
    else
      let e := s.modFn t m.vf fun f => { f with restoring := false }
      if m.bad then migEnd e t mgABORTED 4
      else if imageOk m = false then migEnd e t mgABORTED 2
      else if sramSize s (tenantHalf t) < sramUsed s (tenantHalf t) + imageRoom m then migEnd e t mgABORTED 3
      else modMig s t fun m => { m with stage := 3 }

/-- The commit point of a RESTORE (R373): the first boundary after the check; the VF takes the image, if it still fits.
[log 158, DEDUCED] -/
def restoreCommit (s : State) (t : Nat) : State :=
  match (s.fn t 0).mig with
  | none => s
  | some m =>
    if m.cmd ≠ 3 ∨ m.stage ≠ 3 then s
    else
      let s := s.modFn t m.vf fun f => { f with restoring := false }
      if sramSize s (tenantHalf t) < sramUsed s (tenantHalf t) + imageRoom m then migEnd s t mgABORTED 3
      else migEnd (imageLoad s t m.vf m) t mgCOMPLETED 0

def execRestoreCheckDone (t : BitVec 6) (s : State) : Host.Outcome State Fault Refusal := .next (restoreCheck s t.toNat)

/-- The header of an aborted SAVE that has not left Kezen never leaves (R373). -/
def headerStop (s : State) (t : Nat) : State :=
  s.modNet fun n => { n with itags := n.itags.map fun e =>
    if e.2.own == IOwner.image (fnKey t 0) 0 && !e.2.out then (e.1, { e.2 with quar := some (s.now e.2.half) }) else e }

/-- SF_MIG_CTL.ABORT (R373): a row-based command's row is cancelled and R204 decides; a transfer ends with REQUEST; after
the commit point TOO_LATE is set.
[log 158, DEDUCED] -/
def migAbort (s : State) (t : Nat) : State :=
  match (s.fn t 0).mig with
  | none =>
    if s.fget (SF_MIG_STAT t 0) SF_MIG_STAT_STATE = mgCOMPLETED then s.fset (SF_MIG_STAT t 0) SF_MIG_STAT_TOO_LATE 1 else s
  | some m =>
    match m.row, m.stage with
    | some n, 0 => rowCancel s (tenantHalf t) (SF_FSTAGE t n 2)
    | _, 2 => migEnd (headerStop s t) t mgABORTED 1
    | _, _ => migEnd (s.modFn t m.vf fun f => { f with restoring := false }) t mgABORTED 1

/-- MIG_ABORT (R373). -/
def execMigAbort (t : BitVec 6) (s : State) : Host.Outcome State Fault Refusal :=
  .next (hostGate s t.toNat 0 fun s => migAbort s t.toNat)

/-- The lowest free pool index (R349, R352). -/
def freePool (s : State) : Option Nat :=
  (List.range 4096).find? fun v => !(s.fns.any fun e => decide (e.1 % 256 ≠ 0) && fnPool s (e.1 / 256) (e.1 % 256) == v)

/-- A VF appears with the lowest free pool index, its meter disabled (R349). -/
def vfCreate (s : State) (t fn : Nat) : State :=
  match freePool s with
  | none => s
  | some v =>
    let h := tenantHalf t
    let s := { s with fns := minsert s.fns (fnKey t fn) fnReset }
    let s := (s.wr (SF_FN_STAT t fn) 0).fset (SF_FN_STAT t fn) SF_FN_STAT_POOL v
    setAlive (s.modQos h fun q => { q with meters := merase q.meters v }) t fn

/-- The tenant block and the row number of a staged function row's address. -/
def rowTenant (a : Nat) : Nat := (a - 0x0A000000) / 0x10000
def fnRowIdx (a : Nat) : Nat := (a % 0x10000 - 0x3000) / 32

/-- Check a function row of tenant t at the seal (R351). -/
def fnCheck (s : State) (t : Nat) (ws : List Word) : Option Nat :=
  let w0 := rowW ws 0
  let op := bits w0 31 28
  let fn := bits w0 15 8
  let n := bits w0 7 0
  let fz := (s.fn t fn).freeze && fnFrozen s t fn
  firstFail ([(stLIMIT, decide (1 ≤ op) && decide (op ≤ 7))] ++
    match op with
    | 1 => [(stBUSY, decide (vfsOf s t = [])), (stLIMIT, decide (1 ≤ n) && decide (n ≤ (s.fn t 0).totalVfs))]
    | 2 => [(stNO_TARGET, (vfsOf s t).any fun v => fnExists s t v)]
    | 7 => [(stLIMIT, fn == 0)]
    | _ => [(stNO_TARGET, fn != 0 && fnExists s t fn && !fnGone s t fn),
        (stBUSY, match op with
          | 4 => !(s.fn t fn).freeze
          | 5 => fz && (List.range 3).all fun q => qState s t fn q == qDISABLED
          | 6 => fz && !(s.fn t fn).restoring
          | _ => true)])

/-- A row-based migration command of the PF that this row serves. -/
def migOfRow (s : State) (t n : Nat) : Option Mig :=
  match (s.fn t 0).mig with
  | some m => if m.row = some n ∧ m.stage = 0 then some m else none
  | none => none

/-- A function row leaves the queue with a code (R349, R373): VF Enable returns to 0, or the command ends. -/
def fnRowEnds (s : State) (t n : Nat) (ws : List Word) (code : Nat) : State :=
  let s := if bits (rowW ws 0) 31 28 = 1 ∧ code ≠ stABORTED then
      (s.fset (SF_PF_STAT t) SF_PF_STAT_VFE_ERR 1).modFn t 0 fun f => { f with vfe := false }
    else s
  match migOfRow s t n with
  | none => s
  | some _ =>
    if code = stABORTED then migEnd s t mgABORTED 1
    else (migEnd s t mgABORTED 7).fset (SF_MIG_STAT t 0) SF_MIG_STAT_ROWSTAT code

/-- A row-based command completes with its row; an abort that came after the seal was too late (R204, R373). -/
def migApplied (s : State) (t n : Nat) : State :=
  match migOfRow s t n with
  | none => s
  | some _ =>
    let late := bitB (s.rd (SF_FSTAGE t n 2)).toNat 31
    (migEnd s t mgCOMPLETED 0).fsetB (SF_MIG_STAT t 0) SF_MIG_STAT_TOO_LATE late

/-- A restore begins at its boundary: the image is read from the row's address (R373).
[log 158, DEDUCED] -/
def restoreApply (s : State) (t fn n : Nat) : State :=
  let s := s.modFn t fn fun f => { f with restoring := true }
  let m := (migOfRow s t n).getD ⟨3, fn, some n, 0, false, [], [], 0⟩
  pumpMig (s.modFn t 0 fun f => { f with mig := some { m with stage := 1, todo := [0] } }) t

/-- Apply a function row at a boundary (R349, R352, R365, R372-R374). -/
def fnApply (s : State) (t n : Nat) (ws : List Word) : State :=
  let w0 := rowW ws 0
  let fn := bits w0 15 8
  match bits w0 31 28 with
  | 1 => (((List.range (bits w0 7 0)).foldl (fun s i => vfCreate s t (i + 1)) s).fset (SF_PF_STAT t) SF_PF_STAT_NUMVF (bits w0 7 0))
  | 2 => ((vfsOf s t).foldl (fun s v => flrBegin s t v false true) s).fset (SF_PF_STAT t) SF_PF_STAT_NUMVF 0
  | 3 => flrBegin s t fn true false
  | 4 => frozenCheck (migApplied (freezeApply s t fn) t n) t fn
  | 5 => restoreApply s t fn n
  | 6 => migApplied (thawApply s t fn) t n
  | _ => (s.wr64 (SF_PASS_LIVE_SEND_LO t) (rowW ws 3 + rowW ws 4 * 2 ^ 32)).wr64 (SF_PASS_LIVE_ACC_LO t)
      (rowW ws 5 + rowW ws 6 * 2 ^ 32)

/-- A withdrawn PF takes its VFs with it; a fenced Service Function unit withdraws every function of its half
(R372, R413). -/
def withdrawHalf (s : State) (h : Half) : State :=
  (List.range 32).foldl (fun s i => flrPf s (32 * h.idx + i) true) s

/-- Functions of a half at a boundary: FLR timeouts, what waits for tokens, BEAT, SAVE headers (R327, R370, R373). -/
def fnsBoundary (s : State) (h : Half) : State :=
  (fnKeys s h).foldl (fun s k =>
    if (mfind s.fns (fnKey k.1 k.2)).isNone then s
    else
      let s := pumpFn (takeDone (flrTimeout s k.1 k.2) k.1 k.2) k.1 k.2
      if k.2 = 0 then restoreCommit (saveHeader s k.1) k.1 else s) s

/-- BEAT follows the Transit number (SF_ALIVE). -/
def beatBoundary (s : State) (h : Half) : State :=
  if s.tn h % 1024 = 0 then (fnKeys s h).foldl (fun s k => setAlive s k.1 k.2) s else s

end Sys2Proof.Machine
end

