-- ==== Sys2Proof/Machine/Flush.lean ====
section
/-! DEFINITION. Flushing (R162): messages taken out of a half's queues, and how each kind ends. -/

namespace Sys2Proof.Machine

open Sys2Proof

/-- Take messages out of cells; a cell left with none is gone. -/
def cellsDrop (ids : List Nat) (l : List Cell) : List Cell :=
  (l.map fun c => { c with msgs := c.msgs.filter fun n => !ids.contains n }).filter fun c => c.msgs ≠ []
def keyedDrop (ids : List Nat) (l : List (Nat × Cell)) : List (Nat × Cell) :=
  (l.map fun e => (e.1, { e.2 with msgs := e.2.msgs.filter fun n => !ids.contains n })).filter fun e => e.2.msgs ≠ []

/-- Pages left of a deep segment. -/
def pagesDrop (ids : List Nat) (l : List (List Cell)) : List (List Cell) :=
  (l.map fun p => cellsDrop ids p).filter fun p => p ≠ []

/-- Keep the entries of a table of lists that are not empty. -/
def listsMap {α β : Type} (m : SMap (List α)) (f : List α → List β) : SMap (List β) :=
  mmapOpt (m.map fun e => (e.1, f e.2)) fun _ l => if l.isEmpty then none else some l

/-- A VOQ without some messages. -/
def voqDrop (ids : List Nat) (v : Voq) : Voq :=
  ⟨cellsDrop ids v.chip, pagesDrop ids v.deep, pagesDrop ids v.ret, v.spilled⟩

/-- A half's queues without some messages: on-chip segments, staging, deep segments, egress buffers (R162). -/
def coreDrop (c : Core) (ids : List Nat) : Core :=
  { c with voqs := mmapOpt (c.voqs.map fun e => (e.1, voqDrop ids e.2)) fun _ v => if v = voqReset then none else some v,
           formed := listsMap c.formed (keyedDrop ids), held := listsMap c.held (keyedDrop ids),
           spill := listsMap c.spill (keyedDrop ids), writer := listsMap c.writer (keyedDrop ids), mcq := listsMap c.mcq (cellsDrop ids),
           egr := listsMap c.egr fun l => l.filter fun e => !ids.contains e.1 }

/-- The messages a half holds in its queues. -/
def queuedIds (c : Core) : List Nat :=
  ((courtCells c).flatMap fun e => e.2.msgs)
    ++ (c.voqs.flatMap fun e => (e.2.deep ++ e.2.ret).flatten.flatMap fun x => x.msgs)
    ++ (c.writer.flatMap fun e => e.2.flatMap fun x => x.2.msgs)
    ++ (c.formed.flatMap fun e => e.2.flatMap fun x => x.2.msgs)
    ++ (c.held.flatMap fun e => e.2.flatMap fun x => x.2.msgs)
    ++ (c.egr.flatMap fun e => e.2.map fun x => x.1)

/-- Pages of the deep segments of a half. -/
def deepPages (c : Core) : Nat := (c.voqs.map fun e => voqPages e.2).sum

/-- Take messages out of a half's queues; the Deep Field's use and the spilled VOQs follow. -/
def queuesDrop (s : State) (h : Half) (ids : List Nat) : State :=
  let old := deepPages (s.core.get h)
  let s := s.modCore h fun c => coreDrop c ids
  let s := dfUse s h (dfUsed s h - (old - deepPages (s.core.get h)))
  holdStat (((s.core.get h).voqs.map fun e => e.1).foldl (fun s k => unspill s h k) (spilledStat s h)) h

/-- The flight of an internal access ends (R312). -/
def itagFlight (s : State) (x : ITag) : State :=
  match x.gen with
  | some g => flightEnd s x.half g
  | none => s

/-- An internal request that has ended leaves its outcome for its unit. -/
def idonePut (s : State) (x : ITag) (ok : Bool) (data : Nat) (poison : Bool) : State :=
  s.modNet fun n => { n with idone := n.idone ++ [⟨x.own, x.half, x.tenant, ok, data, poison⟩] }

/-- A device will not answer what the Catalogue sent it for a request, which is reported at its requester's upstream vPPB
(R114, R115): a read ends with the synthetic completion and grants nothing, a write completes as lost. -/
def devLost (s : State) (h : Half) (k : Nat) : State :=
  match txnOf s h k with
  | none => s
  | some t =>
    match t.msg with
    | none => devAnswer s h k 0 0 true
    | some m =>
      if t.devRd = 1 then
        let s := catAdvance (putTxn s h k { t with kind := .recall, msg := none, devRd := 0 }) h k
        if m.itag.isSome then catRespond s h m .noop 0 true 0 true else synthReport s m (levelOf s m)
      else devAnswer (if m.src < 128 then aerMsg s m.tenant 32 (aerOf m.op) m else s) h k 0 0 true

/-- The unit of an internal request that ends without its answer learns of it (R114). A write of a copy that has left is
counted no more.
[log 69, DEDUCED] -/
def ownerLost (s : State) (x : ITag) : State :=
  match x.own with
  | .snoop k t => snoopTimedOut s x.half k t
  | .sf f i off rd =>
    if rd then copyRead s (f / 256) (f % 256) i off false false 0
    else
      let s := copyError s (f / 256) (f % 256) i off
      if x.out then s else copyLeft s (f / 256) (f % 256) i
  | .image f i => imageRead s (f / 256) i false 0
  | .catRead k => devLost s x.half k
  | _ => idonePut s x false 0 false

/-- An internal request that ends without its answer and leaves no entry behind. -/
def internalLost (s : State) (e : Nat) : State :=
  match mfind s.net.itags e with
  | none => s
  | some x => ownerLost (itagFlight (freeItagEnt s e) x) x

/-- A Catalogue message that ends: a snoop copy, a forwarded request, a write of its own (R252, R250). -/
def catLost (s : State) (m : Msg) : State :=
  let h := nodeHalf m.src
  if m.op = .biSnp then
    match uspTenant s h m.dst with
    | some t => snoopFlushed s h m.tag t
    | none => s
  else if awaits m.op = false then s
  else if m.tgt.idx = 1 then devLost s h m.tag
  else s.modNet fun n => { n with idone := n.idone ++ [⟨.catWrite m.tag (m.tgt.idx - 2), h, 0, false, 0, false⟩] }

/-- How a flushed message ends (R162), by its kind and by who sent it. -/
def endFlushed (s : State) (m : Msg) (dl : Nat) : State :=
  let s := postedGone s m
  if 128 ≤ m.src ∧ nodeStation m.src = 30 ∧ ¬ isRsp m.op then catLost s m
  else if m.tgt.kind = 10 ∧ m.itag.isSome = true then passLost s m (m.itag.getD 0)
  else if m.itag.isSome then internalLost s (m.itag.getD 0)
  else if m.tgt.kind = 9 then stkCopyOut s m.dst false m
  else if nonPosted m.op then synthReport s m dl
  else if isRsp m.op then endFlight s m
  else if m.src < 128 then endFlight (aerMsg s m.tenant 32 aerUIE m) m
  else endFlight s m

/-- Flush the queued messages of half h of which `f` holds: each counts in FLUSH_CNT and ends by R162. -/
def flushWhere (s : State) (h : Half) (f : Msg → Bool) : State :=
  let ids := (queuedIds (s.core.get h)).dedup.filter fun n => match s.msg n with
    | some m => m.mc.isEmpty && f m
    | none => false
  let ms := ids.filterMap fun n => s.msg n
  let s := (queuesDrop s h ids).modNet fun n => { n with msgs := ids.foldl (fun x i => merase x i) n.msgs }
  let s := s.fbump (CORE_ERRCNT1 h) CORE_ERRCNT1_FLUSH_CNT ids.length
  ms.foldl (fun s m => endFlushed s m (levelOf s m)) s

/-- A node leaves the bitmaps of the multicast messages of a half; a message with none left is freed (R162). -/
def mcClear (s : State) (h : Half) (d : Nat) : State :=
  let ids := (queuedIds (s.core.get h)).dedup.filter fun n => (s.msg n).any fun m => m.mc.contains d
  ids.foldl (fun s n =>
    match s.msg n with
    | none => s
    | some m =>
      let m' := { m with mc := m.mc.filter fun x => x ≠ d }
      let s := s.fbump (CORE_ERRCNT1 h) CORE_ERRCNT1_FLUSH_CNT 1
      let s := if m'.mc = [] then dropMsg (queuesDrop s h [n]) n
        else s.modNet fun x => { x with msgs := minsert x.msgs n m' }
      endFlushed s { m with mc := [], dst := d } (devLoadOf s d)) s

/-- Sub-port d leaves service: everything queued for it in its half is flushed (R162). -/
def flushNode (s : State) (d : Nat) : State :=
  let h := nodeHalf d
  mcClear (flushWhere s h fun m => m.dst == d) h d

end Sys2Proof.Machine
end

