-- ==== Sys2Proof/Machine/Tenants.lean ====
section
/-! DEFINITION. Tenants and binding (spec 07): the checks and effects of binding rows, what vPPBs report, background
operations, tenant resets, and the resets a vPPB passes on. -/

namespace Sys2Proof.Machine

open Sys2Proof

/-- Apply a change to the bindings of half h. -/
def State.modBinds (s : State) (h : Half) (f : BindTab → BindTab) : State := { s with binds := s.binds.set h (f (s.binds.get h)) }

/-- What a vPPB's report says: 1 Presence Detect Changed, 2 Data Link Layer State Changed, 4 and 8 the two states. -/
def vpCode (x : Vp) (p d : Bool) : Nat := p.toNat + 2 * d.toNat + 4 * x.pds.toNat + 8 * x.dlla.toNat

/-- Codes of the hot-plug interrupt and the PME of a vPPB (R212). -/
def outHPINT : Nat := 42
def outPME : Nat := 43

/-- The hot-plug interrupt and the PME of vPPB v, when its host has enabled them (R212): the change's own enable in Slot Control and
Hot-Plug Interrupt Enable; PME_En.
[log 57, PRESUMED] -/
def hpSignal (s : State) (t v : Nat) (p d : Bool) : State :=
  let c := cfgGet s t v cfgSLOT
  if (p && bitB c 3) || (d && bitB c 12) then
    let s := if bitB c 5 then s.emit (.out outHPINT [t, v]) else s
    if bitB (cfgGet s t v cfgPM) 8 then (cfgPut s t v cfgPM (cfgGet s t v cfgPM ||| 2 ^ 15)).emit (.out outPME [t, v]) else s
  else s

/-- Set a vPPB's two states; the changes named are marked and reported (R209, R211, R215). -/
def vpReport (s : State) (t v : Nat) (pds dlla p d : Bool) : State :=
  let o := s.vp t v
  let x : Vp := { o with pds := pds, dlla := dlla, pdc := o.pdc || p, dllsc := o.dllsc || d }
  let s := s.setVp t v x
  if p || d then hpSignal (s.emit (.vppb t v (vpCode x p d))) t v p d else s

/-- The vPPBs bound to sub-port d, as half h knows them: tenant, vPPB. -/
def vppbsOf (s : State) (h : Half) (d : Nat) : List (Nat × Nat) :=
  ((s.binds.get h).vb.filter fun e => e.2.sub == d).map fun e => (e.1 / 32, e.1 % 32)

/-- The tenants with a vPPB bound to sub-port d or to one of its LDs. -/
def tenantsOf (s : State) (d : Nat) : List Nat := ((vppbsOf s (nodeHalf d) d).map fun e => e.1).dedup

/-- The link of sub-port d comes up or goes down: every bound vPPB reports its data link layer's state (R197, R212).
[log 95, DEDUCED] -/
def linkReport (s : State) (d : Nat) (up : Bool) : State :=
  (vppbsOf s (nodeHalf d) d).foldl (fun s e =>
    let x := s.vp e.1 e.2
    if x.dlla = up then s else vpReport s e.1 e.2 x.pds up false true) s

/-- The number of LDs-bits and the binding kind of sub-port d for PRT_BIND. -/
def bindWord (b : BindTab) (d : Nat) : Word :=
  let us := b.usp.filter fun e => e.2 == d
  let vs := b.vb.filter fun e => e.2.sub == d
  match us, vs with
  | e :: _, _ => BitVec.ofNat 32 (1 * 2 ^ 30 + e.1 * 2 ^ 16)
  | [], [] => 0
  | [], e :: _ =>
    match e.2.ld with
    | none => BitVec.ofNat 32 (2 * 2 ^ 30 + e.1 / 32 * 2 ^ 16)
    | some _ => BitVec.ofNat 32 (3 * 2 ^ 30 + (vs.foldl (fun n x => n ||| 2 ^ (x.2.ld.getD 0)) 0))

/-- The slot owner of port p (R213): the vPPB bound as SLD to its sub-port in x16 mode, with HOST_PWR set. -/
def slotOwner (s : State) (p : Nat) : Option (Nat × Nat) :=
  if s.fget (PRT_CFG p) PRT_CFG_MODE % 3 = 0 ∧ s.flag (PRT_SLOT_CTL p) PRT_SLOT_CTL_HOST_PWR then
    ((s.binds.get (portHalf p)).vb.find? fun e => e.2.sub == subNode p 0 && e.2.ld.isNone).map fun e => (e.1 / 32, e.1 % 32)
  else none

/-- PRT_SLOT_STAT shows the slot owner. -/
def ownerStat (s : State) (p : Nat) : State :=
  let o := slotOwner s p
  s.fsets (PRT_SLOT_STAT p) [(PRT_SLOT_STAT_OWNER_V, o.isSome.toNat), (PRT_SLOT_STAT_OWNER_T, (o.getD (0, 0)).1),
    (PRT_SLOT_STAT_OWNER_D, (o.getD (0, 0)).2)]

/-- The registers of sub-port d and its slot follow the bindings of its half. -/
def bindPortRegs (s : State) (d : Nat) : State :=
  ownerStat (s.wr (PRT_BIND (d / 4) (d % 4)) (bindWord (s.binds.get (nodeHalf d)) d)) (d / 4)

/-- The registers of tenant t's block follow the bindings of its half. -/
def bindTenRegs (s : State) (t : Nat) : State :=
  let b := s.binds.get (tenantHalf t)
  let u := match mfind b.usp t with
    | some d => 128 + d
    | none => 0
  let s := s.fset (SF_TEN_STAT t) SF_TEN_STAT_USP u
  let s := s.fset (SF_TEN_STAT t) SF_TEN_STAT_EXTENTS (b.ext.filter fun e => e.tenant == t).length
  (List.range 31).foldl (fun s i =>
    let w : Word := match mfind b.vb (vpKey t (i + 1)) with
      | none => 0
      | some x => BitVec.ofNat 32 ((if x.ld.isSome then 3 else 2) * 2 ^ 30 + x.sub / 4 * 2 ^ 8 + x.sub % 4 * 2 ^ 6 + x.ld.getD 0)
    s.wr (SF_VPPB t (i + 1)) w) s

/-- Fields of a binding row (R199). -/
def brKind (ws : List Word) : Nat := bits (rowW ws 0) 31 28
def brShare (ws : List Word) : Bool := bitB (rowW ws 0) 27
def brSurp (ws : List Word) : Bool := bitB (rowW ws 0) 26
def brVppb (ws : List Word) : Nat := bits (rowW ws 0) 12 8
def brTenant (ws : List Word) : Nat := bits (rowW ws 0) 5 0
def brSub (ws : List Word) : Nat := 4 * bits (rowW ws 1) 12 8 + bits (rowW ws 1) 7 6
def brLd (ws : List Word) : Nat := bits (rowW ws 1) 3 0
def brDpa (ws : List Word) : Nat := rowW ws 3 + rowW ws 4 * 2 ^ 32
def brLen (ws : List Word) : Nat := rowW ws 5 + rowW ws 6 * 2 ^ 32
def brTicket (ws : List Word) : Nat := rowW ws 2 % 2 ^ 16

/-- The device's LD of a sub-port, from its training. -/
def ldInfo (s : State) (d ld : Nat) : Option LdInfo := ((s.sub d).dev.bind fun x => x.lds.find? fun l => l.ld == ld)

/-- PRT_CFG.ROLE of sub-port d: 0 upstream, 1 downstream. -/
def roleOfSub (s : State) (d : Nat) : Nat := s.fget (PRT_CFG (d / 4)) PRT_CFG_ROLE

/-- Is the LD (or the SLD of LD 0) bound to tenant t? -/
def ldBoundTo (b : BindTab) (t d ld : Nat) : Bool :=
  b.vb.any fun e => e.1 / 32 == t && e.2.sub == d && (e.2.ld == some ld || (e.2.ld.isNone && ld == 0))

/-- The extent clash of R200: an overlap with another tenant's extent, unless both are shared and equal; or one with the
same tenant's own extent is no clash. -/
def extClash (b : BindTab) (t d ld base len : Nat) (share : Bool) : Bool :=
  b.ext.any fun e => e.tenant != t && e.sub == d && e.ld == ld && decide (e.base < base + len) && decide (base < e.base + e.len)
    && !(share && e.share && e.base == base && e.len == len)

/-- The checks of a BIND row by KIND (R200). -/
def bindChecks (s : State) (b : BindTab) (t : Nat) (ws : List Word) : List (Nat × Bool) :=
  let d := brSub ws
  let ld := brLd ws
  let free := brVppb ws != 0 && (mfind b.vb (vpKey t (brVppb ws))).isNone
  match brKind ws with
  | 1 => [(stNO_TARGET, subExists s d), (stNO_TARGET, roleOfSub s d == 0), (stBUSY, b.usp.all fun e => e.2 != d),
      (stBUSY, (mfind b.usp t).isNone)]
  | 2 => [(stNO_TARGET, roleOfSub s d == 1), (stNO_TARGET, subExists s d), (stBUSY, b.vb.all fun e => e.2.sub != d), (stBUSY, free)]
  | 3 =>
    let mld := ((s.sub d).dev.map fun x => x.mld).getD false && (ldInfo s d ld).isSome
    let held := b.vb.filter fun e => e.2.sub == d && e.2.ld == some ld
    [(stNO_TARGET, mld), (stBUSY, b.vb.all fun e => !(e.2.sub == d && e.2.ld.isNone)),
      (stBUSY, held.isEmpty || (brShare ws && isDcd s d ld && held.all fun e => e.2.share)),
      (stBUSY, held.all fun e => e.1 / 32 != t), (stBUSY, free)]
  | _ =>
    let al := brDpa ws % 2 ^ 26 == 0 && brLen ws % 2 ^ 26 == 0 && brLen ws != 0
    let size := ((ldInfo s d ld).map fun l => l.size).getD 0
    [(stLIMIT, al), (stNO_TARGET, ldBoundTo b t d ld && isDcd s d ld), (stNO_TARGET, decide (brDpa ws + brLen ws ≤ size)),
      (stLIMIT, decide ((b.ext.filter fun e => e.tenant == t).length < 256) && decide (b.ext.length < 16384)),
      (stBUSY, !extClash b t d ld (brDpa ws) (brLen ws) (brShare ws))]

/-- Does the binding that an UNBIND row describes exist for tenant t (R200)?
[log 82, DEDUCED] -/
def unbindFinds (b : BindTab) (t : Nat) (ws : List Word) : Bool :=
  let d := brSub ws
  match brKind ws with
  | 1 => mfind b.usp t == some d
  | 2 => (mfind b.vb (vpKey t (brVppb ws))).any fun x => x.sub == d && x.ld.isNone
  | 3 => (mfind b.vb (vpKey t (brVppb ws))).any fun x => x.sub == d && x.ld == some (brLd ws)
  | _ => b.ext.any fun e => e.tenant == t && e.sub == d && e.ld == brLd ws && e.base == brDpa ws && e.len == brLen ws

/-- Validate a binding row of tenant t's block against the bindings of half h (R200 step 3). -/
def bindCheck (s : State) (h : Half) (t : Nat) (unbind : Bool) (ws : List Word) : Option Nat :=
  let b := s.binds.get h
  firstFail ([(stLIMIT, decide (1 ≤ brKind ws) && decide (brKind ws ≤ 4)), (stLIMIT, brTenant ws == t)]
    ++ (if unbind then [(stNO_TARGET, unbindFinds b t ws)] else bindChecks s b t ws))

/-- Put a BIND row's binding into a table. -/
def bindTab (b : BindTab) (t : Nat) (ws : List Word) : BindTab :=
  let d := brSub ws
  match brKind ws with
  | 1 => { b with usp := minsert b.usp t d }
  | 2 => { b with vb := minsert b.vb (vpKey t (brVppb ws)) ⟨none, d, false⟩ }
  | 3 => { b with vb := minsert b.vb (vpKey t (brVppb ws)) ⟨some (brLd ws), d, brShare ws⟩ }
  | _ => { b with ext := b.ext ++ [⟨t, d, brLd ws, brDpa ws, brLen ws, brShare ws⟩] }

/-- Take an UNBIND row's binding out of a table; an SLD or LD takes the tenant's extents inside it along (R203). -/
def unbindTab (b : BindTab) (t : Nat) (ws : List Word) : BindTab :=
  let d := brSub ws
  match brKind ws with
  | 1 => { b with usp := merase b.usp t }
  | 2 => { b with vb := merase b.vb (vpKey t (brVppb ws)), ext := b.ext.filter fun e => !(e.tenant == t && e.sub == d) }
  | 3 => { b with vb := merase b.vb (vpKey t (brVppb ws)),
                  ext := b.ext.filter fun e => !(e.tenant == t && e.sub == d && e.ld == brLd ws) }
  | _ => { b with ext := b.ext.filter fun e =>
      !(e.tenant == t && e.sub == d && e.ld == brLd ws && e.base == brDpa ws && e.len == brLen ws) }

/-- PRT_SLOT_STAT.PRSNT of sub-port d's port. -/
def slotPresent (s : State) (d : Nat) : Bool := s.flag (PRT_SLOT_STAT (d / 4)) PRT_SLOT_STAT_PRSNT

/-- A vPPB that has just been bound reports what its slot and link are. -/
def bindVp (s : State) (t : Nat) (ws : List Word) : State :=
  let p := slotPresent s (brSub ws)
  let l := inService s (brSub ws)
  vpReport s t (brVppb ws) p l p l

/-- What an unbound vPPB's host sees (R209): nothing from a row made under "wait for port link down", both changes of a
surprise, Presence Detect Changed of a managed removal that it has not been told of before.
[log 95, DEDUCED] -/
def unbindVp (s : State) (t : Nat) (addr : Nat) (ws : List Word) : State :=
  let v := brVppb ws
  if s.mgt.waitDown.any fun e => e.1 == addr then vpReport s t v false false false false
  else if brSurp ws then vpReport s t v false false true true
  else vpReport s t v false false (s.vp t v).pds false

/-- The LD that a request to a device is for: the Catalogue's own requests name it themselves. -/
def msgLd (m : Msg) : Nat := if 128 ≤ m.src ∧ nodeStation m.src = 30 then m.ld else memLd m.tgt.idx

/-- Is message m a request of tenant t bound for what the row unbinds (R202)?
[log 154, DEDUCED] -/
def unboundMsg (t : Nat) (ws : List Word) (m : Msg) : Bool :=
  m.tenant == t && !isRsp m.op && m.dst == brSub ws && (brKind ws != 3 || msgLd m == brLd ws)

/-- What an UNBIND takes out of the queues of half h: a sub-port that loses its binding loses all that waits for it (R162), an LD the
tenant's requests alone (R202).
[log 154, DEDUCED] -/
def unbindFlush (s : State) (h : Half) (t : Nat) (ws : List Word) : State :=
  let d := brSub ws
  if brKind ws = 4 then s
  else if brKind ws = 3 then flushWhere s h (unboundMsg t ws)
  else if nodeHalf d = h then flushNode s d
  else mcClear (flushWhere s h (unboundMsg t ws)) h d

/-- The configuration registers of some vPPBs of tenant t return to their reset values but for the sticky ones, those of AER (R218,
R220). -/
def cfgReset (s : State) (t : Nat) (which : Nat → Bool) : State :=
  s.modMgt fun m => { m with cfg := m.cfg.filter fun e =>
    !(e.1 / 65536 == t && which (e.1 / 1024 % 64)) || (decide (65 ≤ e.1 % 1024) && decide (e.1 % 1024 ≤ 74)) }

/-- A tenant reset begins (R217, R218); a cause during a reset is merged into it. Its scrub is queued in both halves (R255). -/
def resetStart (s : State) (t : Nat) : State :=
  if inReset s t then s
  else
    let h := tenantHalf t
    let s := raise (s.fset (SF_TEN_STAT t) SF_TEN_STAT_RST 1) h (evt 19 0 t 0)
    let s := s.modMgt fun m => { m with rstAt := minsert m.rstAt t (s.tn h) }
    let s := (List.range 32).foldl (fun s v =>
      let x := s.vp t v
      if x.pdc || x.dllsc || x.off then s.setVp t v { x with pdc := false, dllsc := false, off := false } else s) (cfgReset s t fun _ => true)
    flrPf (queueJob (queueJob s .east (.scrub t)) .west (.scrub t)) t false

/-- Has tenant t a cell queued in half h (R218)? -/
def tenantQueued (s : State) (h : Half) (t : Nat) : Bool :=
  ((queuedIds (s.core.get h)) ++ ((s.cdb.get h).grps.flatMap fun g => g.2.wait.flatMap fun c => c.2.msgs)).any fun n => (s.msg n).any fun m => m.tenant == t

/-- Return codes of CCI commands. PRESUMED: CXL 3.2's numbers.
[log 92, PRESUMED] -/
def rcSUCCESS : Nat := 0x0000
def rcSTARTED : Nat := 0x0001
def rcINVALID : Nat := 0x0002
def rcUNSUPPORTED : Nat := 0x0003
def rcBUSY : Nat := 0x0006
def rcABORTED : Nat := 0x0012

/-- A background operation of a CCI ends with a return code and extended status (R206). -/
def bgEnd (s : State) (cci ret ext : Nat) : State :=
  match mfind s.mgt.bg cci with
  | none => s
  | some o => s.modMgt fun m => { m with bg := merase m.bg cci, last := minsert m.last cci (o.code, ret, ext) }

/-- Opcode of Tenant Reset (R208), and the end of the operations that wait for a tenant's reset. -/
def opTENRST : Nat := 0xC020
def resetOpsEnd (s : State) (t : Nat) : State :=
  s.mgt.bg.foldl (fun s e => if e.2.code = opTENRST ∧ e.2.tenant = t then bgEnd s e.1 rcSUCCESS e.2.late.toNat else s) s

/-- A tenant reset ends at the first boundary after its cause with no cell of the tenant queued in either half (R218);
Viral ends with it (R414). -/
def resetEnd (s : State) (t : Nat) : State :=
  let h := tenantHalf t
  if inReset s t = false ∨ mfind s.mgt.rstAt t = some (s.tn h) ∨ tenantQueued s .east t ∨ tenantQueued s .west t then s
  else
    let s := s.modMgt fun m => { m with rstAt := merase m.rstAt t }
    let s := resetOpsEnd s t
    raise { s.fset (SF_TEN_STAT t) SF_TEN_STAT_RST 0 with viral := s.viral.filter fun x => x ≠ t } h (evt 19 1 t 0)

/-- What an UNBIND takes away (R254): the LDs of sub-port d, or the one LD, or the extents it ends. -/
def unbindLoses (s : State) (h : Half) (t : Nat) (ws : List Word) (ld base size : Nat) : Bool :=
  let all := !isDcd s (brSub ws) ld || (s.binds.get h).ext.any fun e =>
    e.tenant == t && e.sub == brSub ws && e.ld == ld && decide (e.base < base + size) && decide (base < e.base + e.len)
  match brKind ws with
  | 2 => all
  | 3 => brLd ws == ld && all
  | 4 => brLd ws == ld && decide (brDpa ws < base + size) && decide (base < brDpa ws + brLen ws)
  | _ => false

/-- An UNBIND that takes tenant t's access to any part of a window of half h queues the recall of its lines (R254). -/
def recallQueue (s : State) (h : Half) (t : Nat) (ws : List Word) : State :=
  (List.range 64).foldl (fun s w =>
    if winUsed s h w && winSub s h w == brSub ws
        && unbindLoses s h t ws (winLd s h w) (winBase s h w) (2 ^ winSize s h w)
    then queueJob s h (.recall t w) else s) s

/-- A binding row applies in half h (R200, R202, R203, R320). The tenant's side is settled in the half of its block, the
port's in the half of its port. -/
def bindApply (s : State) (h : Half) (t : Nat) (unbind : Bool) (addr : Nat) (ws : List Word) : State :=
  let d := brSub ws
  let s := if unbind && nodeHalf d == h then recallQueue s h t ws else s
  let s := if unbind then unbindFlush s h t ws else s
  let s := s.modBinds h fun b => if unbind then unbindTab b t ws else bindTab b t ws
  let s := if nodeHalf d = h then bindPortRegs s d else s
  if tenantHalf t ≠ h then s
  else
    let s := bindTenRegs s t
    match brKind ws, unbind with
    | 1, true => resetStart s t
    | 1, false => holdTc s t
    | 2, true => unbindVp s t addr ws
    | 3, true => unbindVp s t addr ws
    | 2, false => bindVp s t ws
    | 3, false => bindVp s t ws
    | _, _ => s

/-- Every register of half h that shows bindings follows its table (R191: after the Islanded half takes the tables). -/
def bindAllRegs (s : State) (h : Half) : State :=
  let s := (List.range 64).foldl (fun s i => bindPortRegs s (64 * h.idx + i)) s
  (List.range 32).foldl (fun s i => bindTenRegs s (32 * h.idx + i)) s

/-- Codes of what leaves Kezen beside messages of a link (`Sent.out`). -/
def outHOTRST : Nat := 1
def outLDRST : Nat := 2
def outFORWARD : Nat := 3
def outFMREC : Nat := 4

/-- Opcodes of the DCD commands that Kezen intercepts (R207). PRESUMED: CXL 3.2's numbers. -/
def opDCADD : Nat := 0x5604
def opDCREL : Nat := 0x5605

/-- A staged row reaches an outcome (R206): the operation that waits for it is COMPLETED with its last row, ABORTED with a
cancelled one, and ends with Invalid Input and the row's code when the row fails; a row with CONFLICT or SPLIT may be
committed again. `late`: the row's CANCEL came too late.
[log 93, DEDUCED] -/
def bgRow (s : State) (addr code : Nat) (late : Bool) : State :=
  s.mgt.bg.foldl (fun s e =>
    if e.2.rows.contains addr = false then s
    else if code = stAPPLIED then
      let o := { e.2 with rows := e.2.rows.filter fun x => x ≠ addr, late := e.2.late || late }
      let s := s.modMgt fun m => { m with bg := minsert m.bg e.1 o }
      if o.rows ≠ [] then s
      else
        let s := if o.code = opDCADD then s.emit (.out outFORWARD (o.code :: o.fwd)) else s
        bgEnd s e.1 rcSUCCESS o.late.toNat
    else if code = stABORTED then bgEnd s e.1 rcABORTED 0
    else if code = stCONFLICT ∨ code = stSPLIT then s
    else bgEnd s e.1 rcINVALID code) s

/-- A binding row has an outcome: its STATUS, the operation that waits for it, and a managed removal that ends (R200, R206). -/
def bindRowEnds (s : State) (addr code : Nat) (late : Bool) : State :=
  let keep := code == stCONFLICT || code == stSPLIT
  let s := if keep then s else s.modMgt fun m =>
    { m with waitDown := m.waitDown.filter fun e => e.1 ≠ addr, managed := m.managed.filter fun e => e.2.2.1 ≠ addr }
  bgRow s addr code late

/-- The Observer posts an entry to a half's staging ring unless it is full (R64). Its bytes are the firmware's way to say what the
entry is about: a function of that with no value stated.
[log 91, DESIGN CHOICE] -/
def ringPost (s : State) (h : Half) (what : List Nat) : State :=
  let i := s.fget (TRP_SRING_TAIL h) TRP_SRING_TAIL_PTR
  if (i + 1) % 256 = s.fget (TRP_SRING_HEAD h) TRP_SRING_HEAD_PTR then s
  else
    let s := (List.range 8).foldl (fun s k => s.wr (TRP_SRING h i k) (Config.ringWord what k)) s
    s.fset (TRP_SRING_TAIL h) TRP_SRING_TAIL_PTR (i + 1)

/-- HP_WAITING follows the managed removals that wait. -/
def hpStat (s : State) (t : Nat) : State :=
  s.fsetB (SF_TEN_STAT t) SF_TEN_STAT_HP_WAITING (s.mgt.managed.any fun e => e.1 == t)

/-- A managed removal goes on: its row is handed to the program (R209, R210). -/
def managedGo (s : State) (t v : Nat) : State :=
  match s.mgt.managed.find? fun e => e.1 == t && e.2.1 == v with
  | some e =>
    hpStat (ringPost (s.modMgt fun m => { m with managed := m.managed.filter fun e => !(e.1 == t && e.2.1 == v) }) (tenantHalf t) [e.2.2.1]) t
  | none => s

/-- HP_WAIT_EXPIRY (R210): the wait has run out; the row tells of a surprise removal. -/
def execHpWaitExpiry (t : BitVec 6) (v : BitVec 5) (s : State) : Host.Outcome State Fault Refusal :=
  let tn := t.toNat
  let wait := max 1 (s.fget (SF_TEN_CTL tn) SF_TEN_CTL_HP_WAIT) * 1000000
  match s.mgt.managed.find? fun e => e.1 == tn && e.2.1 == v.toNat with
  | none => .next s
  | some e =>
    if s.now (tenantHalf tn) < e.2.2.2 + wait then .next s
    else
      let s := s.wr e.2.2.1 (s.rd e.2.2.1 ||| 0x04000000)
      .next (managedGo (s.fbump (SF_TEN_ERRCNT tn) SF_TEN_ERRCNT_HPWAIT_CNT 1) tn v.toNat)

/-- ROW_CANCEL (R204): a CS master sets CANCEL of the staged row at address a, in the table it names; an address that is no
row's is an ordinary write of no row and changes nothing. -/
def rowWord2 (a : Nat) : Option (Half × Nat) :=
  let f (h : Half) := rowsAt (bindTables h ++ shutTables h) a 1
  if a = UMP_GSTAGE .east 0 then none
  else if (f .east).isSome then some (.east, a + 8)
  else if (f .west).isSome then some (.west, a + 8)
  else none

def execRowCancel (m : Master) (a : Nat) (s : State) : Host.Outcome State Fault Refusal :=
  if a = UMP_GSTAGE .east 0 then
    let c (s : State) (h : Half) := rowCancel s h (UMP_GSTAGE h 2)
    .next (dbgGate s m a pW (fun s => s) fun s => bothWrite s (s.masterHalf m) a c)
  else
    match rowWord2 a with
    | none => .next s
    | some (h, w) => .next (csGate s m a fun s => rowCancel s h w)

/-- HOT_RESET_RECEIVED (R217): on a tenant's upstream sub-port. -/
def execHotResetReceived (p : BitVec 5) (k : BitVec 2) (s : State) : Host.Outcome State Fault Refusal :=
  let d := subNode p.toNat k.toNat
  match uspTenant s (nodeHalf d) d with
  | some t => .next (resetStart s t)
  | none => .next s

/-- SBR_UPSTREAM, TENANT_RESET_END (R217, R218). -/
def execSbrUpstream (t : BitVec 6) (s : State) : Host.Outcome State Fault Refusal := .next (resetStart s t.toNat)
def execTenantResetEnd (t : BitVec 6) (s : State) : Host.Outcome State Fault Refusal := .next (resetEnd s t.toNat)

/-- A write of SF_TEN_RST. -/
def tenRstWrite (s : State) (t : Nat) (v : Word) : State := if bitB v.toNat 0 then resetStart s t else s

/-- TENANT_RESET_WRITE (R217): a write of SF_TEN_RST. -/
def execTenantResetWrite (m : Master) (t : BitVec 6) (v : Word) (s : State) : Host.Outcome State Fault Refusal :=
  .next (csGate s m (SF_TEN_RST t.toNat) fun s => tenRstWrite s t.toNat v)

/-- A write of SF_TEN_CTL: FM_CCI set in one tenant is cleared in every other. -/
def tenCtlWrite (s : State) (t : Nat) (v : Word) : State :=
  let s := s.fsets (SF_TEN_CTL t) [(SF_TEN_CTL_HP_WAIT, bits v.toNat 23 8), (SF_TEN_CTL_FM_CCI, bits v.toNat 0 0)]
  if bitB v.toNat 0 then
    (List.range 64).foldl (fun s u => if u = t then s else s.fset (SF_TEN_CTL u) SF_TEN_CTL_FM_CCI 0) s
  else s

/-- FM_CCI_WRITE (R208, SF_TEN_CTL): a write of SF_TEN_CTL. -/
def execFmCciWrite (m : Master) (t : BitVec 6) (v : Word) (s : State) : Host.Outcome State Fault Refusal :=
  .next (csGate s m (SF_TEN_CTL t.toNat) fun s => tenCtlWrite s t.toNat v)

/-- SBR_DOWNSTREAM (R220): Secondary Bus Reset in vPPB v resets its own state and what it is bound to: the Service
Function, an SLD by a hot reset on its link, an LD that no other tenant shares. -/
def execSbrDownstream (t : BitVec 6) (v : BitVec 5) (s : State) : Host.Outcome State Fault Refusal :=
  let x := s.vp t.toNat v.toNat
  let s := cfgReset (s.setVp t.toNat v.toNat { x with pdc := false, dllsc := false, off := false }) t.toNat fun u => u == v.toNat
  if v = 0 then .next (flrPf s t.toNat false)
  else
    match mfind (s.binds.get (tenantHalf t.toNat)).vb (vpKey t.toNat v.toNat) with
    | none => .next s
    | some b =>
      match b.ld with
      | none => .next (s.emit (.out outHOTRST [b.sub]))
      | some ld => if b.share then .next s else .next (s.emit (.out outLDRST [b.sub, ld]))

end Sys2Proof.Machine
end

