-- ==== Sys2Proof/Machine/Ports.lean ====
section
/-! DEFINITION. Lanes and ports (spec 03): port configuration, training, link states and changes, the Eyepiece, failed
lanes, the reference clocks, and port promotion (spec 16). -/

namespace Sys2Proof.Machine

open Sys2Proof

/-- Lanes of a sub-port by its port's mode (R70), and its first port lane. -/
def subLanes (s : State) (p : Nat) : Nat :=
  match s.fget (PRT_CFG p) PRT_CFG_MODE with
  | 1 => 8
  | 2 => 4
  | _ => 16
def laneBase (k : Nat) : Nat := 4 * k

/-- PRT_CFG.MINW in lanes; PRT_LNK_CTL.L0P_W in lanes, 0 for the full width. -/
def minWidth (s : State) (p : Nat) : Nat :=
  match s.fget (PRT_CFG p) PRT_CFG_MINW with
  | 1 => 2
  | 2 => 4
  | 3 => 8
  | 4 => 16
  | _ => 1
def l0pWidth (s : State) (p k : Nat) : Nat :=
  match s.fget (PRT_LNK_CTL p k) PRT_LNK_CTL_L0P_W with
  | 1 => 1
  | 2 => 2
  | 3 => 4
  | 4 => 8
  | _ => 16

/-- The highest rate code of a port: MAXRATE once promoted, 32 GT/s before (R74, R462, R466). -/
def maxRate (s : State) (p : Nat) : Nat :=
  if bitB s.dome.promo p then
    match s.fget (PRT_CFG p) PRT_CFG_MAXRATE with
    | 1 => 6
    | 2 => 7
    | _ => 5
  else 5

/-- Is port lane n of port p failed? -/
def laneFailed (s : State) (p n : Nat) : Bool := bitB (s.fget (PRT_LANE_STAT p) PRT_LANE_STAT_FAILED) n

/-- Are the lanes that width w keeps in order? They are the first logical lanes: from the sub-port's first lane, or from
its last when the lanes are reversed (R72, R93). -/
def lanesOk (s : State) (p k w : Nat) (rev : Bool) : Bool :=
  (List.range w).all fun i => !laneFailed s p (if rev then laneBase k + subLanes s p - 1 - i else laneBase k + i)

/-- The widest width up to `top` of which `ok` holds; 0 for none. -/
def widest (top : Nat) (ok : Nat → Bool) : Nat :=
  ([16, 8, 4, 2, 1].find? fun w => decide (w ≤ top) && ok w).getD 0

/-- The width a sub-port may have by L0p, and by a retrain (R93, R96). -/
def l0pFits (s : State) (p k : Nat) : Nat :=
  let tw := s.fget (PRT_LNK_STAT p k) PRT_LNK_STAT_TWIDTH
  widest (min tw (l0pWidth s p k)) fun w => lanesOk s p k w (s.flag (PRT_LNK_STAT p k) PRT_LNK_STAT_REV)
def retrainFits (s : State) (p k : Nat) : Nat :=
  widest (subLanes s p) fun w => lanesOk s p k w false || lanesOk s p k w true

/-- May the sub-port use L0p (R93)? -/
def l0pMay (s : State) (p k : Nat) : Bool :=
  s.flag (PRT_CFG p) PRT_CFG_L0P_EN && (s.sub (subNode p k)).l0pOk
    && decide (6 ≤ s.fget (PRT_LNK_STAT p k) PRT_LNK_STAT_RATE)

/-- Set the link state of a sub-port. -/
def setPm (s : State) (d pm : Nat) : State := s.fset (PRT_LNK_STAT (d / 4) (d % 4)) PRT_LNK_STAT_PM pm

/-- L0, or L0p while the active width is below the trained width. -/
def setL0 (s : State) (d : Nat) : State :=
  let a := PRT_LNK_STAT (d / 4) (d % 4)
  if s.fget a PRT_LNK_STAT_AWIDTH < s.fget a PRT_LNK_STAT_TWIDTH then
    (let s' := setPm s d pmL0P
     if linkPm s d = pmL0P then s' else tallyRise s' (nodeHalf d) 7 4 (d % 64))
  else setPm s d pmL0

/-- A sub-port in training: the attempt starts at 2.5 GT/s (R74). -/
def setTrain (s : State) (d : Nat) : State :=
  s.fsets (PRT_LNK_STAT (d / 4) (d % 4)) [(PRT_LNK_STAT_PM, pmTRAIN), (PRT_LNK_STAT_RATE, 1)]

/-- REASON codes of the Eyepiece. -/
def eyREQUEST : Nat := 1
def eyLINK : Nat := 2
def eyBUSY : Nat := 3
def eyIDLE : Nat := 4
def eyRANGE : Nat := 5

/-- The sub-port that owns a port lane in the mode in force. -/
def laneSub (s : State) (p n : Nat) : Nat := n / subLanes s p * (subLanes s p / 4)

/-- A running scan ends ABORTED with a reason; its counts are those it had reached. -/
def eyeEnd (s : State) (p reason cnt err : Nat) : State :=
  if s.fget (PRT_EYE_STAT p) PRT_EYE_STAT_STATE ≠ 1 then s
  else
    let lim := 2 ^ s.fget (PRT_EYE_CTL p) PRT_EYE_CTL_LIMIT
    let s := (s.wr64 (PRT_EYE_CNT_LO p) (cnt % lim)).wr (PRT_EYE_ERR p) (BitVec.ofNat 32 (min (err % (cnt % lim + 1)) (2 ^ 32 - 1)))
    s.fsets (PRT_EYE_STAT p) [(PRT_EYE_STAT_STATE, 3), (PRT_EYE_STAT_REASON, reason)]

/-- A running scan ends ABORTED with a reason; what it had counted is a free value.
[log 98, DESIGN CHOICE] -/
def eyeStop (s : State) (p reason : Nat) : State :=
  let a := s.draw
  let b := a.2.draw
  eyeEnd b.2 p reason a.1 b.1

/-- Does a running scan of port p look at a lane of sub-port k? -/
def eyeOn (s : State) (p k : Nat) : Bool :=
  s.fget (PRT_EYE_STAT p) PRT_EYE_STAT_STATE == 1 && laneSub s p (s.fget (PRT_EYE_CTL p) PRT_EYE_CTL_LANE) == k

/-- Sub-port k enters Recovery, L1 or a change of rate or width: a scan of one of its lanes ends with LINK (R91). -/
def eyeLink (s : State) (p k : Nat) : State := if eyeOn s p k then eyeStop s p eyLINK else s

/-- Does port lane n carry no symbols: it is failed, idle in L0p, or not in a trained link (R91)? -/
def laneIdle (s : State) (p n : Nat) : Bool :=
  let k := laneSub s p n
  let st := PRT_LNK_STAT p k
  let i := if s.flag st PRT_LNK_STAT_REV then laneBase k + subLanes s p - 1 - n else n - laneBase k
  !linkUp s (subNode p k) || laneFailed s p n || decide (s.fget st PRT_LNK_STAT_AWIDTH ≤ i)

/-- A running scan of a lane of sub-port k that carries no symbols any more ends with IDLE_LANE (R91). -/
def eyeIdle (s : State) (p k : Nat) : State :=
  if eyeOn s p k && laneIdle s p (s.fget (PRT_EYE_CTL p) PRT_EYE_CTL_LANE) then eyeStop s p eyIDLE else s

/-- Enter Recovery (R91, R100, R101). -/
def toRecovery (s : State) (d : Nat) : State :=
  let s := eyeLink s (d / 4) (d % 4)
  let s := s.fbump (PRT_LERRCNT0 (d / 4) (d % 4)) PRT_LERRCNT0_RECOV_CNT 1
  (setPm s d pmRECOV).modSub d fun x => { x with change := true }

/-- MRD_PROMOTED of port p sets once every sub-port is at its final rate in L0, is Disabled, or the port has EN 0 (R466). -/
def promotedStat (s : State) (p : Nat) : State :=
  if bitB s.dome.promo p && (!s.flag (PRT_CFG p) PRT_CFG_EN || (subsOf s p).all fun k =>
      let x := s.sub (subNode p k)
      x.off || s.flag (PRT_LNK_CTL p k) PRT_LNK_CTL_DISABLE || (linkPm s (subNode p k) == pmL0 && x.rateTo.isNone)) then
    s.wr MRD_PROMOTED (s.rd MRD_PROMOTED ||| BitVec.ofNat 32 (2 ^ p))
  else s

/-- A sub-port passes through Detect: its failed lanes return to service (R97). -/
def toDetect (s : State) (d : Nat) : State :=
  let p := d / 4
  s.wr (PRT_LANE_STAT p) (s.rd (PRT_LANE_STAT p) &&& ~~~ BitVec.ofNat 32 ((2 ^ subLanes s p - 1) * 2 ^ laneBase (d % 4)))

/-- Does the sub-port train: its port enabled, itself neither disabled nor held in Disabled (R75)? -/
def mayTrain (s : State) (d : Nat) : Bool :=
  s.flag (PRT_CFG (d / 4)) PRT_CFG_EN && subExists s d && !s.flag (PRT_LNK_CTL (d / 4) (d % 4)) PRT_LNK_CTL_DISABLE && !(s.sub d).off

/-- A sub-port leaves service for Detect, or for Disabled when `off` is set (R75, R162, R217): its queues are flushed, its
host's tenant is reset, its vPPBs report, rows that wait for its link go on.
[log 97, DESIGN CHOICE; log 146, DEDUCED] -/
def subDown (s : State) (d : Nat) (off : Bool) : State :=
  let p := d / 4
  let k := d % 4
  let was := inService s d
  let s := if was && (s.sub d).reached then raise s (nodeHalf d) (evt 5 3 d 0) else s
  let s := s.fsets (PRT_LNK_STAT p k) [(PRT_LNK_STAT_PM, pmDOWN), (PRT_LNK_STAT_RATE, 0), (PRT_LNK_STAT_TWIDTH, 0),
    (PRT_LNK_STAT_AWIDTH, 0), (PRT_LNK_STAT_REV, 0)]
  let s := eyeIdle (s.modSub d fun x => 
    { subReset with fails := x.fails, level := x.level, off := off, keyIo := x.keyIo, keyMem := x.keyMem }) p k
  let s := if mayTrain s d then toDetect s d else s
  if was then
    let s := linkReport (flushNode s d) d false
    let s := (s.mgt.waitDown.filter fun e => e.2 == d).foldl (fun s e => ringPost s (tenantHalf ((e.1 - 0x0A000000) / 0x10000)) [e.1]) s
    let s := match uspTenant s (nodeHalf d) d with
      | some t => resetStart s t
      | none => s
    promotedStat s p
  else promotedStat s p

/-- Take a sub-port to Disabled with a failure flag and its event; the count of failed attempts starts again.
[log 97, DESIGN CHOICE] -/
def subFail (s : State) (d : Nat) (f : Fld) (cause : Nat) : State :=
  let s := (subDown s d true).modSub d fun x => { x with fails := 0 }
  raise (s.fset (PRT_LNK_STAT (d / 4) (d % 4)) f 1) (nodeHalf d) (evt 5 cause d 0)

/-- A sub-port is no longer held in Disabled by a failure, and passes through Detect (R75, R97). -/
def subFree (s : State) (d : Nat) : State :=
  let s := s.modSub d fun x => { x with off := false }
  if mayTrain s d then toDetect s d else s

/-- Is any sub-port of port p in a use that bars a change of MODE or ROLE (R76)? -/
def portUsed (s : State) (p : Nat) : Bool :=
  let b := s.binds.get (portHalf p)
  let on (d : Nat) : Bool := decide (d / 4 = p) && subExists s d
  b.usp.any (fun e => on e.2) || b.vb.any (fun e => on e.2.sub)
    || (List.range 64).any (fun w => winUsed s (portHalf p) w && on (winSub s (portHalf p) w))
    || (s.stk.get (portHalf p)).jobs.any fun e => !cxPush e.2.ctx && on (cxDsub e.2.ctx)

/-- The fields of PRT_CFG that EN holds (R75). -/
def cfgHeld (v : Nat) : List Nat := [bits v 3 2, bits v 5 4, bits v 7 6, bits v 10 8]

/-- The tag reserves of a port in the mode that a word of PRT_CFG gives (R106).
[log 100, DEDUCED] -/
def reserveTotal (s : State) (p : Nat) : Nat := ((subsOf s p).map fun k => tagRes s (subNode p k)).sum

/-- PCLK_OUT_p runs (R81). -/
def pclkOn (s : State) (p : Nat) : Bool :=
  s.flag (PRT_CFG p) PRT_CFG_PCLK_EN && (!s.flag (PRT_CFG p) PRT_CFG_PCLK_GATE || s.flag (PRT_SLOT_STAT p) PRT_SLOT_STAT_PG)
    && (s.flag MRD_REF_STAT MRD_REF_STAT_A_OK || s.flag MRD_REF_STAT MRD_REF_STAT_B_OK)

/-- The time since which PCLK_OUT_p has run follows its condition (R81, R214). -/
def pclkStat (s : State) (p : Nat) : State :=
  if pclkOn s p then
    (if (mfind s.mgt.pclkAt p).isSome then s else s.modMgt fun m => { m with pclkAt := minsert m.pclkAt p (s.now (portHalf p)) })
  else s.modMgt fun m => { m with pclkAt := merase m.pclkAt p }

/-- A write of PRT_CFG (R75, R76, R106). -/
def prtCfgWrite (s : State) (p : Nat) (v : Word) : State :=
  let a := PRT_CFG p
  let o := (s.rd a).toNat
  let n := v.toNat
  let en := bitB n 0
  if bitB o 0 && en && decide (cfgHeld o ≠ cfgHeld n) then writeDiscarded s (portHalf p) a
  else if (decide (bits o 3 2 ≠ bits n 3 2) || decide (bits o 7 6 ≠ bits n 7 6)) && portUsed s p then
    writeDiscarded s (portHalf p) a
  else
    let s := if bitB o 0 && !en then (subsOf s p).foldl (fun s k => subDown s (subNode p k) false) (s.fset a PRT_CFG_EN 0) else s
    let w : Word := v &&& 0xF7FD
    let s := s.wr a (w &&& 0xFFFE)
    let s := if en && decide (8192 < reserveTotal s p) && !bitB o 0 then writeDiscarded s (portHalf p) a else s.wr a w
    let s := if en && !bitB o 0 then (subsOf s p).foldl (fun s k => subFree s (subNode p k)) s else s
    pclkStat (ownerStat (promotedStat s p) p) p

/-- PORT_ENABLE, PORT_DISABLE (R75): writes of PRT_CFG with EN 1 and EN 0. -/
def execPortEnable (m : Master) (p : BitVec 5) (v : Word) (s : State) : Host.Outcome State Fault Refusal :=
  .next (csGate s m (PRT_CFG p.toNat) fun s => prtCfgWrite s p.toNat (v ||| 1))
def execPortDisable (m : Master) (p : BitVec 5) (v : Word) (s : State) : Host.Outcome State Fault Refusal :=
  .next (csGate s m (PRT_CFG p.toNat) fun s => prtCfgWrite s p.toNat (v &&& ~~~ 1))

/-- Is Kezen a downstream port or fabric-follow (R77), which gives way to the partner (R98)? -/
def givesWay (s : State) (p : Nat) : Bool := s.fget (PRT_CFG p) PRT_CFG_ROLE % 2 == 1

/-- A valid coefficient set (R85). -/
def coeffOk (c : Coeff) : Bool :=
  decide (c.1 ≤ 12) && decide (c.2.2 ≤ 18) && decide (c.1 + c.2.1 + c.2.2 = 48) && decide (c.1 + c.2.2 + 12 ≤ c.2.1)

/-- The presets of 32 GT/s (R86). -/
def preset32 (n : Nat) : Coeff :=
  match n with
  | 0 => (0, 36, 12)
  | 1 => (0, 40, 8)
  | 2 => (0, 38, 10)
  | 3 => (0, 42, 6)
  | 5 => (5, 43, 0)
  | 6 => (6, 42, 0)
  | 7 => (5, 34, 9)
  | 8 => (6, 36, 6)
  | 9 => (8, 40, 0)
  | 10 => (0, 30, 18)
  | _ => (0, 48, 0)

/-- Every valid set (R85). -/
def coeffSets : List Coeff :=
  ((List.range 13).flatMap fun a => (List.range 19).map fun b => (a, 48 - a - b, b)).filter coeffOk

/-- The binary logarithm of a number from 1 to 2^62, times 2^40, bit by bit: the mantissa between 2^62 and 2^63 is squared once
for each bit of the fraction. -/
def log2Frac : Nat → Nat → Nat → Nat
  | 0, _, acc => acc
  | k + 1, x, acc =>
    let y := x * x / 2 ^ 62
    if 2 ^ 63 ≤ y then log2Frac k (y / 2) (2 * acc + 1) else log2Frac k y (2 * acc)
def log2Fix (n : Nat) : Nat := n.log2 * 2 ^ 40 + log2Frac 40 (n * 2 ^ (62 - n.log2)) 0

/-- 20 log10 of a number in 10^-9 dB (R86). -/
def dbOf (n : Nat) : Int := Int.ofNat (log2Fix n * 6020599913279624 / (2 ^ 40 * 10 ^ 6))

/-- The de-emphasis and the preshoot of a valid set in 10^-9 dB (R86). -/
def setDb (c : Coeff) : Int × Int :=
  let va := c.2.1 + c.2.2 - c.1
  let vb := c.2.1 - c.1 - c.2.2
  let vc := c.2.1 + c.1 - c.2.2
  (dbOf vb - dbOf va, dbOf vc - dbOf vb)

/-- The sum of the absolute errors of a set against a preset's de-emphasis and preshoot (R87). -/
def setErr (want : Int × Int) (c : Coeff) : Nat := ((setDb c).1 - want.1).natAbs + ((setDb c).2 - want.2).natAbs

/-- The valid set of least error; of two that tie, the one with the smaller C-1 + C+1 (R87).
[log 98, DESIGN CHOICE] -/
def bestSet (want : Int × Int) : Coeff :=
  (coeffSets.foldl (fun (b : Option (Coeff × Nat)) c =>
    let e := setErr want c
    match b with
    | none => some (c, e)
    | some x => if e < x.2 ∨ (e = x.2 ∧ c.1 + c.2.2 < x.1.1 + x.1.2.2) then some (c, e) else b) none).elim (0, 48, 0) (·.1)

/-- The coefficient set of a preset at a rate (R86, R87); presets 11-15 of PRT_EQ_CFG are treated as 4.
[log 98, DESIGN CHOICE] -/
def presetSet (rate n : Nat) : Coeff :=
  let n := if n ≤ 10 then n else 4
  if rate ≤ 5 then preset32 n else bestSet (Config.presetDb rate n)

/-- The set that Kezen's transmitter starts with (R88). -/
def startSet (s : State) (p rate : Nat) : Coeff :=
  presetSet rate (s.fget (PRT_EQ_CFG p) (if rate = 7 then PRT_EQ_CFG_TX128 else if rate = 6 then PRT_EQ_CFG_TX64 else PRT_EQ_CFG_TX32))

/-- The preset that Kezen asks of the partner (R88). -/
def askPreset (s : State) (p rate : Nat) : Nat :=
  let n := s.fget (PRT_EQ_CFG p) (if rate = 7 then PRT_EQ_CFG_RQ128 else if rate = 6 then PRT_EQ_CFG_RQ64 else PRT_EQ_CFG_RQ32)
  if n ≤ 10 then n else 4

/-- Put a coefficient set into the register of a port lane. -/
def putCoeff (s : State) (p n : Nat) (c : Coeff) : State :=
  s.fsets (PRT_TXC p n) [(PRT_TXC_CM1, c.1), (PRT_TXC_C0, c.2.1), (PRT_TXC_CP1, c.2.2)]

/-- What Kezen asks of a partner's transmitter (R88), as `Sent.out`: a preset to start at, and the setting its search kept. -/
def outPRESET : Nat := 30
def outCOEFF : Nat := 31

/-- Equalisation of sub-port d at a rate starts (R88): every lane's transmitter at the start preset; a downstream port asks the
partner for its own.
[log 126, DEDUCED] -/
def eqStart (s : State) (d rate : Nat) : State :=
  let p := d / 4
  let s := (List.range (subLanes s p)).foldl (fun s i => putCoeff s p (laneBase (d % 4) + i) (startSet s p rate)) s
  let s := if givesWay s p then s.emit (.out outPRESET [d, rate, askPreset s p rate]) else s
  s.modSub d fun x => { x with eqRate := rate }

/-- One trial of the search (R88): the setting is kept when its grade beats the best. -/
structure EqTry where
  keep : Coeff
  best : Nat
  left : Nat
def gradeOf (g : List (Coeff × Nat)) (c : Coeff) : Nat := ((g.find? fun e => e.1 == c).map (·.2)).getD 0
def eqTrial (g : List (Coeff × Nat)) (x : EqTry) (c : Coeff) : EqTry :=
  if x.left = 0 then x
  else if x.best < gradeOf g c then ⟨c, gradeOf g c, x.left - 1⟩ else { x with left := x.left - 1 }

/-- The neighbours of a setting in the coordinate search, valid sets only. -/
def eqNear (c : Coeff) : List Coeff :=
  ([((c.1 : Int) - 1, (c.2.2 : Int)), (c.1 + 1, c.2.2), (c.1, c.2.2 - 1), (c.1, c.2.2 + 1)].filter fun x =>
    decide (0 ≤ x.1) && decide (0 ≤ x.2)).map (fun x => (x.1.toNat, 48 - x.1.toNat - x.2.toNat, x.2.toNat)) |>.filter coeffOk

/-- The coordinate search: at most n rounds, ended when no trial of one beats the best. -/
def eqRounds (g : List (Coeff × Nat)) : Nat → EqTry → EqTry
  | 0, x => x
  | n + 1, x =>
    let y := (eqNear x.keep).foldl (eqTrial g) x
    if y.keep = x.keep then y else eqRounds g n y

/-- The setting that Kezen's search keeps (R88, R89): the start preset, the presets in ascending order, then a coordinate search,
stopped when the measurements before 75 % of the time limit are used up.
[log 126, DEDUCED] -/
def eqSearch (e : EqRun) (start : Nat) : Coeff :=
  let g := e.grades
  let a := presetSet e.rate start
  let x := ((List.range 11).map (presetSet e.rate)).foldl (eqTrial g) ⟨a, gradeOf g a, e.trials - 1⟩
  (eqRounds g 16 x).keep

/-- Equalisation at the rates from `from` to `to` in turn (R88): the start presets unless they are in use already, and the
setting that the search kept is asked of the partner.
[log 126, DEDUCED] -/
def equalise (s : State) (d lo hi : Nat) (eqs : List EqRun) : State :=
  (List.range 8).foldl (fun s r =>
    if r < lo ∨ hi < r then s
    else
      let s := if (s.sub d).eqRate < r then eqStart s d r else s
      match eqs.find? (·.rate == r) with
      | none => s
      | some e =>
        let c := eqSearch e (if givesWay s (d / 4) then askPreset s (d / 4) r else e.start)
        s.emit (.out outCOEFF [d, r, c.1, c.2.1, c.2.2])) s

/-- PARTNER_COEFF_REQUEST (R88): a valid set is applied, another is rejected and counted. The first request at a rate that is
being equalised finds the transmitters at its start preset. -/
def execPartnerCoeffRequest (p : BitVec 5) (n : BitVec 4) (rate : Nat) (cm1 c0 cp1 : BitVec 6) (s : State) :
    Host.Outcome State Fault Refusal :=
  let c := (cm1.toNat, c0.toNat, cp1.toNat)
  let d := subNode p.toNat (laneSub s p.toNat n.toNat)
  let s := if linkUp s d = false ∧ (s.sub d).eqRate < rate ∧ rate < 8 then eqStart s d rate else s
  if coeffOk c then .next (putCoeff s p.toNat n.toNat c)
  else .next (s.fbump (PRT_LERRCNT1 p.toNat (laneSub s p.toNat n.toNat)) PRT_LERRCNT1_EQREJ_CNT 1)

/-- Kezen asks for the L0p width that PRT_LNK_CTL and the failed lanes give, if L0p may be used and it changes anything
(R93, R97). -/
def askWidth (s : State) (d : Nat) : State :=
  let w := l0pFits s (d / 4) (d % 4)
  if linkUp s d && l0pMay s (d / 4) (d % 4) && w != 0 && w != s.fget (PRT_LNK_STAT (d / 4) (d % 4)) PRT_LNK_STAT_AWIDTH then
    (eyeLink s (d / 4) (d % 4)).modSub d fun x => { x with change := true, l0pTo := some w, ask := some .width }
  else s

/-- Has Kezen withdrawn a request of this kind? -/
def hasWithdrawn (x : Sub) (a : LinkAsk) : Bool := x.withdrawn.any fun e => e.2 == a

/-- Kezen withdraws its request under way: it is noted with the Transit (R98, R99).
[log 127, DEDUCED] -/
def withdraw (s : State) (d : Nat) : State :=
  match (s.sub d).ask with
  | none => s
  | some a => s.modSub d fun x =>
      { x with ask := none, l0pTo := none, withdrawn := x.withdrawn.filter (fun e => e.2 != a) ++ [(s.tn (nodeHalf d), a)] }

/-- Credits by class, with those that the partner grants beside them (R120).
[log 75, DESIGN CHOICE] -/
def credAdd (c : SMap Nat) (l : List (Nat × Nat)) : SMap Nat := l.foldl (fun c e => nset c e.1 (nget c e.1 + e.2)) c

/-- A sub-port whose training has just ended. -/
def subTrained (x : Sub) (l0p : Bool) (dev : DevInfo) : Sub :=
  let y := { x with reached := true, fails := 0, change := false, eq := false, eqRate := 0, ask := none }
  { y with l0pTo := none, l0pOk := l0p, dev := some dev, rateTo := if hasWithdrawn x .rate then x.rateTo else none }

/-- The link runs at a rate and width (R73, R74, R93, R96): the widest whose lanes exclude every failed one; below MINW it is
Disabled. A fresh link was equalised at each rate up to its own, one that repeats equalisation from its rate of before. Every
lane is active, and the L0p width is asked for again.
[log 97, DESIGN CHOICE] -/
def linkUpAt (s : State) (d rate width : Nat) (rev l0p : Bool) (dev : DevInfo) (eqs : List EqRun)
    (cred : List (Nat × Nat)) : State :=
  let p := d / 4
  let k := d % 4
  let fresh := linkPm s d != pmRECOV
  let old := s.fget (PRT_LNK_STAT p k) PRT_LNK_STAT_RATE
  let w := widest (min width (subLanes s p)) fun w => lanesOk s p k w rev
  if w < minWidth s p ∨ w = 0 then subFail s d PRT_LNK_STAT_MINW_FAIL 2
  else
    let s := if fresh then equalise s d 5 rate eqs
      else if (s.sub d).eq then equalise s d (if old < rate then old + 1 else rate) rate eqs else s
    let s := s.fsets (PRT_LNK_STAT p k) [(PRT_LNK_STAT_RATE, rate), (PRT_LNK_STAT_TWIDTH, w), (PRT_LNK_STAT_AWIDTH, w),
      (PRT_LNK_STAT_REV, rev.toNat)]
    let s := setL0 (s.modSub d fun x => subTrained x l0p dev) d
    let s := if fresh then s.modSub d fun x => { x with txCred := credAdd [] cred, rxCred := [] } else s
    promotedStat (askWidth (if fresh then linkReport s d true else s) d) p

/-- LINK_TRAINED (R73, R74, R78, R95, R102): training, or a Recovery, ends. The rate and width of the operand are the highest
that the partner and the lanes allow.
[log 97, DESIGN CHOICE] -/
def execLinkTrained (p : BitVec 5) (k : BitVec 2) (r : TrainOut) (s : State) : Host.Outcome State Fault Refusal :=
  let d := subNode p.toNat k.toNat
  if mayTrain s d = false ∨ linkUp s d ∨ linkPm s d = pmL1 then .next s
  else
    let bad (s : State) : State :=
      let n := (s.sub d).fails + 1
      let s := if inService s d then subDown s d false else s
      if n < 4 then setTrain (s.modSub d fun x => { x with fails := n, eqRate := 0 }) d
      else subFail s d PRT_LNK_STAT_RATE_FAIL 1
    let compl := s.flag (PRT_LNK_CTL p.toNat k.toNat) PRT_LNK_CTL_COMPL && linkPm s d != pmRECOV
    if compl then .next (setPm s d pmCOMPL)
    else match r with
      | .up rate width rev l0p dev eqs cred =>
        if min rate (maxRate s p.toNat) < 5 then .next (bad s)
        else .next (linkUpAt s d (min rate (maxRate s p.toNat)) width rev l0p dev eqs cred)
      | .noRate => .next (bad s)
      | .compliance => .next (setPm (if inService s d then subDown s d false else s) d pmCOMPL)
      | .noFlit => .next (subDown s d true)
      | .detect => .next (subDown s d false)

/-- Carry out or hold the parts of a write of PRT_LNK_CTL (R93, R100).
[log 125, DESIGN CHOICE] -/
def lnkWidth (s : State) (d : Nat) : State :=
  if (s.sub d).reached = false then s
  else if (s.sub d).change ∨ linkUp s d = false then s.modSub d fun x => { x with heldWidth := true }
  else askWidth s d
def lnkRetrain (s : State) (d : Nat) : State :=
  if (s.sub d).reached = false then s
  else if (s.sub d).change then s.modSub d fun x => { x with heldRetrain := true }
  else toRecovery s d
/-- A write of REEQ (R100): held while the link is in a change or in L1.
[log 125, DESIGN CHOICE] -/
def lnkReeq (s : State) (d : Nat) : State :=
  if (s.sub d).reached = false then s
  else if (s.sub d).change ∨ linkUp s d = false then s.modSub d fun x => { x with heldReeq := true }
  else eqStart ((toRecovery s d).modSub d fun x => { x with eq := true, ask := some .reeq }) d
    (s.fget (PRT_LNK_STAT (d / 4) (d % 4)) PRT_LNK_STAT_RATE)

/-- The promotion's change of rate: the link is directed to Recovery for its highest rate, with equalisation (R466). -/
def lnkRate (s : State) (d : Nat) : State :=
  if linkUp s d && !(s.sub d).change && decide (s.fget (PRT_LNK_STAT (d / 4) (d % 4)) PRT_LNK_STAT_RATE < maxRate s (d / 4)) then
    (toRecovery s d).modSub d fun x => { x with eq := true, ask := some .rate }
  else s

/-- A write of PRT_LNK_CTL (R75, R78, R93, R100). -/
def lnkCtlWrite (s : State) (p k : Nat) (v : Word) : State :=
  let a := PRT_LNK_CTL p k
  let d := subNode p k
  let o := s.rd a
  let s := s.wr a (v &&& 0xF1)
  let n := v.toNat
  let s := if bitB n 0 && !bitB o.toNat 0 then subDown s d false else s
  let s := if !bitB n 0 && bitB o.toNat 0 then subFree s d else s
  let s := if bits n 7 5 ≠ bits o.toNat 7 5 then lnkWidth s d else s
  let s := if bitB n 2 then lnkRetrain s d else s
  let s := if bitB n 3 then lnkReeq s d else s
  promotedStat s p

/-- L0P_WIDTH_WRITE, COMPLIANCE_WRITE, REEQ_WRITE, RETRAIN_WRITE, SUBPORT_DISABLE_WRITE (R75, R78, R93, R100): writes of
PRT_LNK_CTL that change one field. -/
def lnkCtlField (s : State) (m : Master) (p k : Nat) (f : Fld) (n : Nat) : State :=
  csGate s m (PRT_LNK_CTL p k) fun s => lnkCtlWrite s p k (fldPut (s.rd (PRT_LNK_CTL p k)) f n)
def execL0pWidthWrite (m : Master) (p : BitVec 5) (k : BitVec 2) (w : BitVec 3) (s : State) : Host.Outcome State Fault Refusal :=
  .next (lnkCtlField s m p.toNat k.toNat PRT_LNK_CTL_L0P_W w.toNat)
def execComplianceWrite (m : Master) (p : BitVec 5) (k : BitVec 2) (on : Bool) (s : State) : Host.Outcome State Fault Refusal :=
  .next (lnkCtlField s m p.toNat k.toNat PRT_LNK_CTL_COMPL on.toNat)
def execReeqWrite (m : Master) (p : BitVec 5) (k : BitVec 2) (s : State) : Host.Outcome State Fault Refusal :=
  .next (lnkCtlField s m p.toNat k.toNat PRT_LNK_CTL_REEQ 1)
def execRetrainWrite (m : Master) (p : BitVec 5) (k : BitVec 2) (s : State) : Host.Outcome State Fault Refusal :=
  .next (lnkCtlField s m p.toNat k.toNat PRT_LNK_CTL_RETRAIN 1)
def execSubportDisableWrite (m : Master) (p : BitVec 5) (k : BitVec 2) (on : Bool) (s : State) : Host.Outcome State Fault Refusal :=
  .next (lnkCtlField s m p.toNat k.toNat PRT_LNK_CTL_DISABLE on.toNat)

/-- HELD_LINK_WRITE_APPLY (R100): a held write takes effect once the link is back in L0 or L0p. -/
def execHeldLinkWriteApply (p : BitVec 5) (k : BitVec 2) (s : State) : Host.Outcome State Fault Refusal :=
  let d := subNode p.toNat k.toNat
  let x := s.sub d
  if x.change ∨ linkUp s d = false then .next s
  else if x.heldRetrain then .next (toRecovery (s.modSub d fun x => { x with heldRetrain := false }) d)
  else if x.heldReeq then .next (lnkReeq (s.modSub d fun x => { x with heldReeq := false }) d)
  else if x.heldWidth then .next (askWidth (s.modSub d fun x => { x with heldWidth := false }) d)
  else .next s

/-- PARTNER_L0P_REQUEST (R93, R97, R98): granted unless it would activate a failed lane, or an upstream port or fabric-lead
has a conflicting request of its own under way; a downstream port or fabric-follow withdraws its own.
[log 127, DEDUCED] -/
def execPartnerL0pRequest (p : BitVec 5) (k : BitVec 2) (w : Nat) (s : State) : Host.Outcome State Fault Refusal :=
  let d := subNode p.toNat k.toNat
  let a := PRT_LNK_STAT p.toNat k.toNat
  let ok := l0pMay s p.toNat k.toNat && decide (w ≤ s.fget a PRT_LNK_STAT_TWIDTH)
    && widest w (fun x => x == w) == w && w != 0 && lanesOk s p.toNat k.toNat w (s.flag a PRT_LNK_STAT_REV)
  if ok = false then .next s
  else
    let go (s : State) : State := (eyeLink s p.toNat k.toNat).modSub d fun x => { x with change := true, l0pTo := some w }
    match (s.sub d).ask with
    | none => if linkUp s d && !(s.sub d).change then .next (go s) else .next s
    | some .width => if linkUp s d && decide ((s.sub d).l0pTo ≠ some w) && givesWay s p.toNat then .next (go (withdraw s d)) else .next s
    | some _ =>
      if givesWay s p.toNat then .next (go (setL0 ((withdraw s d).modSub d fun x => { x with eq := false, eqRate := 0 }) d)) else .next s

/-- Kezen asks for a change again, if it still applies (R99). -/
def askAgain (s : State) (d : Nat) : LinkAsk → State
  | .width => askWidth s d
  | .reeq => lnkReeq s d
  | .rate => lnkRate s d

/-- CHANGE_REQUEST_REISSUE (R99): the oldest withdrawn request is issued again in a later Transit, once the link is back, if it
still applies. -/
def execChangeRequestReissue (p : BitVec 5) (k : BitVec 2) (s : State) : Host.Outcome State Fault Refusal :=
  let d := subNode p.toNat k.toNat
  match (s.sub d).withdrawn with
  | [] => .next s
  | (tn, a) :: r =>
    if tn < s.tn (nodeHalf d) ∧ linkUp s d ∧ (s.sub d).change = false then
      .next (askAgain (s.modSub d fun x => { x with withdrawn := r }) d a)
    else .next s

/-- L0P_WIDTH_CHANGED (R93): an L0p width change finishes. -/
def execL0pWidthChanged (p : BitVec 5) (k : BitVec 2) (s : State) : Host.Outcome State Fault Refusal :=
  let d := subNode p.toNat k.toNat
  match (s.sub d).l0pTo with
  | none => .next s
  | some w =>
    if linkUp s d then
      let s := s.fset (PRT_LNK_STAT p.toNat k.toNat) PRT_LNK_STAT_AWIDTH w
      let s := eyeIdle (setL0 (s.modSub d fun x => { x with l0pTo := none, change := false, ask := none }) d) p.toNat k.toNat
      .next (promotedStat s p.toNat)
    else .next s

/-- LINK_RECOVERY (R91, R98, R99): link errors, the standard after a timeout, or the partner, for a change that it asks for, take
the link to Recovery. Where Kezen has a conflicting request under way, a downstream port or fabric-follow withdraws it and the
partner's is carried out; another declines the partner's. A width request that a Recovery cuts short is issued again later.
[log 127, DEDUCED] -/
def execLinkRecovery (p : BitVec 5) (k : BitVec 2) (why : Option LinkAsk) (s : State) : Host.Outcome State Fault Refusal :=
  let d := subNode p.toNat k.toNat
  let conflict := why.isSome && (s.sub d).ask.isSome && decide ((s.sub d).ask ≠ why)
  if inService s d = false ∨ (conflict ∧ givesWay s p.toNat = false) then .next s
  else
    let s := if conflict || decide ((s.sub d).ask = some .width) then withdraw s d else s
    let eq := why == some .reeq || why == some .rate
    let s := if linkPm s d = pmRECOV then s else toRecovery (s.modSub d fun x => { x with l0pTo := none }) d
    .next (s.modSub d fun x => { x with eq := x.eq || eq })

/-- L1_ENTRY, L1_EXIT (R94). -/
def execL1Entry (p : BitVec 5) (k : BitVec 2) (s : State) : Host.Outcome State Fault Refusal :=
  let d := subNode p.toNat k.toNat
  if linkUp s d && s.flag (PRT_CFG p.toNat) PRT_CFG_L1_EN && !(s.sub d).change then
    .next (setPm (eyeLink s p.toNat k.toNat) d pmL1)
  else .next s
/-- L1_EXIT (R94).
[log 97, DESIGN CHOICE] -/
def execL1Exit (p : BitVec 5) (k : BitVec 2) (s : State) : Host.Outcome State Fault Refusal :=
  let d := subNode p.toNat k.toNat
  if linkPm s d = pmL1 then .next (setL0 s d) else .next s

/-- LOOPBACK_REFUSED (R95): the direction is counted and not followed; training ends and the sub-port is back in Detect. -/
def execLoopbackRefused (p : BitVec 5) (k : BitVec 2) (s : State) : Host.Outcome State Fault Refusal :=
  let d := subNode p.toNat k.toNat
  let s := s.fbump (PRT_LERRCNT1 p.toNat k.toNat) PRT_LERRCNT1_LPBK_CNT 1
  .next (subDown s d (s.sub d).off)

/-- LINK_DOWN (R162, R215, R217): the link drops to Detect. -/
def execLinkDown (p : BitVec 5) (k : BitVec 2) (s : State) : Host.Outcome State Fault Refusal :=
  .next (subDown s (subNode p.toNat k.toNat) (s.sub (subNode p.toNat k.toNat)).off)

/-- Narrow or widen a sub-port about its failed lanes (R96, R97): by L0p where it can, else by a retrain. -/
def fitLanes (s : State) (d : Nat) : State :=
  let p := d / 4
  let k := d % 4
  if inService s d = false then s
  else
    let w := retrainFits s p k
    if w = 0 ∨ w < minWidth s p then subFail s d PRT_LNK_STAT_MINW_FAIL 2
    else if l0pMay s p k && lanesOk s p k (min w (s.fget (PRT_LNK_STAT p k) PRT_LNK_STAT_TWIDTH)) (s.flag (PRT_LNK_STAT p k) PRT_LNK_STAT_REV) then
      (if (s.sub d).change ∨ linkUp s d = false then s.modSub d fun x => { x with heldWidth := true } else askWidth s d)
    else lnkRetrain s d

/-- The symbols that FEC has corrected on port lane n within the last 1,000 Transits (R96).
[log 129, DESIGN CHOICE] -/
def corrected (s : State) (d n : Nat) : Nat :=
  (((s.sub d).corr.filter fun e => e.1 == n && decide (s.tn (nodeHalf d) < e.2.1 + 1000)).map (·.2.2)).sum

/-- FEC has corrected c more symbols of port lane n; counts a thousand Transits old are dropped.
[log 129, DESIGN CHOICE] -/
def addCorrected (s : State) (d n c : Nat) : State :=
  let tn := s.tn (nodeHalf d)
  s.modSub d fun x => { x with corr := (n, tn, c) :: x.corr.filter fun e => decide (tn < e.2.1 + 1000) }

/-- A lane is out of service: it is marked, counted and reported, a scan of it ends, and the sub-port is narrowed (R91, R96). -/
def failLane (s : State) (p n : Nat) : State :=
  let k := laneSub s p n
  let s := s.wr (PRT_LANE_STAT p) (s.rd (PRT_LANE_STAT p) ||| BitVec.ofNat 32 (2 ^ n))
  let s := s.fbump (PRT_LERRCNT0 p k) PRT_LERRCNT0_LFAIL_CNT 1
  let s := raise s (portHalf p) (evt 5 0 (subNode p k) n)
  fitLanes (eyeIdle s p k) (subNode p k)

/-- LANE_FAILED (R96): a lane of a link in L0 fails when it has lost lock or deskew, or when its corrected symbols exceed
PRT_LANE_THR.THR within 1,000 Transits. -/
def execLaneFailed (p : BitVec 5) (n : BitVec 4) (why : LaneLoss) (s : State) : Host.Outcome State Fault Refusal :=
  let d := subNode p.toNat (laneSub s p.toNat n.toNat)
  if laneFailed s p.toNat n.toNat ∨ linkUp s d = false then .next s
  else match why with
    | .lock => .next (failLane s p.toNat n.toNat)
    | .fec c =>
      let s := addCorrected s d n.toNat c
      if s.fget (PRT_LANE_THR p.toNat) PRT_LANE_THR_THR < corrected s d n.toNat then .next (failLane s p.toNat n.toNat) else .next s

/-- A write of PRT_LANE_CLR (R97): lanes return to service and their sub-ports widen. -/
def laneClrWrite (s : State) (p : Nat) (v : Word) : State :=
  let old := s.rd (PRT_LANE_STAT p)
  let s := s.wr (PRT_LANE_STAT p) (old &&& ~~~ v)
  (subsOf s p).foldl (fun s k =>
    if (old.toNat &&& v.toNat) >>> laneBase k % 2 ^ subLanes s p = 0 then s
    else if l0pMay s p k && decide (s.fget (PRT_LNK_STAT p k) PRT_LNK_STAT_TWIDTH = retrainFits s p k) then lnkWidth s (subNode p k)
    else if inService s (subNode p k) then lnkRetrain s (subNode p k) else s) s

/-- LANE_CLEAR (R97). -/
def execLaneClear (m : Master) (p : BitVec 5) (v : BitVec 16) (s : State) : Host.Outcome State Fault Refusal :=
  .next (csGate s m (PRT_LANE_CLR p.toNat) fun s => laneClrWrite s p.toNat (v.zeroExtend 32))

/-- Kezen runs on reference r (R82). -/
def useRef (s : State) (r : Nat) : State := (s.fset MRD_REF_CTL MRD_REF_CTL_SEL r).fset MRD_REF_STAT MRD_REF_STAT_ACTIVE r

/-- Is reference r good?
[log 128, DEDUCED] -/
def refOk (s : State) (r : Nat) : Bool := s.flag MRD_REF_STAT (if r = 0 then MRD_REF_STAT_A_OK else MRD_REF_STAT_B_OK)

/-- Every PCLK_OUT follows its condition. -/
def pclkAll (s : State) : State := (List.range 32).foldl pclkStat s

/-- Kezen switches to the other reference (R82). -/
def switchRef (s : State) : State :=
  raiseBoth ((useRef s (1 - s.fget MRD_REF_STAT MRD_REF_STAT_ACTIVE)).fset MRD_REF_STAT MRD_REF_STAT_SWITCHED 1) (evt 0 0 0 0)

/-- REFERENCE_LOST (R82, R84): Kezen switches to the other reference when it is good; when the last good one is lost, PCLK_OUT
stops and the clock event is fatal. -/
def execReferenceLost (r : BitVec 1) (s : State) : Host.Outcome State Fault Refusal :=
  let n := r.toNat
  let was := refOk s n
  let s := s.fset MRD_REF_STAT (if n = 0 then MRD_REF_STAT_A_OK else MRD_REF_STAT_B_OK) 0
  if refOk s (1 - n) then
    (if s.fget MRD_REF_STAT MRD_REF_STAT_ACTIVE = n then .next (switchRef s) else .next s)
  else if was then .next (raiseBoth (pclkAll s) (evt 0 1 0 0))
  else .next s

/-- REFERENCE_RESTORED (R82, R83): the monitor finds the reference good. Kezen switches to it when the selected one is lost, and
does not switch back.
[log 128, DEDUCED] -/
def execReferenceRestored (r : BitVec 1) (s : State) : Host.Outcome State Fault Refusal :=
  let s := s.fset MRD_REF_STAT (if r = 0 then MRD_REF_STAT_A_OK else MRD_REF_STAT_B_OK) 1
  let s := if refOk s (s.fget MRD_REF_STAT MRD_REF_STAT_ACTIVE) then s else switchRef s
  .next (pclkAll s)

/-- BOTH_REFERENCES_LOST (R84): the PLLs hold over, PCLK_OUT stops, and the clock event is fatal. -/
def execBothReferencesLost (s : State) : Host.Outcome State Fault Refusal :=
  let s := s.fsets MRD_REF_STAT [(MRD_REF_STAT_A_OK, 0), (MRD_REF_STAT_B_OK, 0)]
  .next (raiseBoth (pclkAll s) (evt 0 1 0 0))

/-- A write of MRD_REF_CTL (R83): it waits for the boundary; one that selects a lost reference is ignored. -/
def refCtlWrite (s : State) (v : Word) : State :=
  if refOk s (v.toNat % 2) then { s with dome := { s.dome with refNext := some (v.toNat % 2) } } else s

/-- A selected reference is taken at a boundary (R83). -/
def refBoundary (s : State) : State :=
  match s.dome.refNext with
  | none => s
  | some r =>
    let s := { s with dome := { s.dome with refNext := none } }
    if refOk s r then useRef s r else s

/-- Why a scan cannot start (R91): its parameters, its lane, or equalisation. -/
def eyeRefusal (s : State) (p : Nat) : Option Nat :=
  let c := PRT_EYE_CTL p
  let n := s.fget c PRT_EYE_CTL_LANE
  let k := laneSub s p n
  let t := sx 7 (s.fget c PRT_EYE_CTL_TOFF)
  let lim := s.fget c PRT_EYE_CTL_LIMIT
  if t < -32 ∨ 32 < t ∨ lim < 20 ∨ 40 < lim then some eyRANGE
  else if (s.sub (subNode p k)).eq then some eyBUSY
  else if laneIdle s p n then some eyIDLE
  else none

/-- A write of PRT_EYE_CTL (R91).
[log 99, DESIGN CHOICE; log 124, DESIGN CHOICE] -/
def eyeCtlWrite (s : State) (p : Nat) (v : Word) (cnt err : Nat) : State :=
  let run := decide (s.fget (PRT_EYE_STAT p) PRT_EYE_STAT_STATE = 1)
  let s := s.wr (PRT_EYE_CTL p) (v &&& 0x3FFFFF0F)
  let s := if bitB v.toNat 30 then eyeEnd s p eyREQUEST cnt err else s
  if bitB v.toNat 31 && !run then
    let s := (s.wr64 (PRT_EYE_CNT_LO p) 0).wr (PRT_EYE_ERR p) 0
    match eyeRefusal s p with
    | some r => s.fsets (PRT_EYE_STAT p) [(PRT_EYE_STAT_STATE, 3), (PRT_EYE_STAT_REASON, r)]
    | none => s.fsets (PRT_EYE_STAT p) [(PRT_EYE_STAT_STATE, 1), (PRT_EYE_STAT_REASON, 0)]
  else s

/-- EYE_START (R91): a write of PRT_EYE_CTL with START 1. -/
def execEyeStart (m : Master) (p : BitVec 5) (v : Word) (s : State) : Host.Outcome State Fault Refusal :=
  .next (csGate s m (PRT_EYE_CTL p.toNat) fun s => eyeCtlWrite s p.toNat ((v ||| 0x80000000) &&& 0xBFFFFFFF) 0 0)

/-- EYE_ABORT (R91): a write of PRT_EYE_CTL with ABORT 1; `cnt` and `err` are what the scan had counted.
[log 99, DESIGN CHOICE] -/
def execEyeAbort (m : Master) (p : BitVec 5) (cnt err : Nat) (s : State) : Host.Outcome State Fault Refusal :=
  .next (csGate s m (PRT_EYE_CTL p.toNat) fun s =>
    eyeCtlWrite s p.toNat ((s.rd (PRT_EYE_CTL p.toNat) ||| 0x40000000) &&& 0x7FFFFFFF) cnt err)

/-- EYE_SCAN_DONE (R90, R91): 2^LIMIT symbols have been compared, `err` of them with a mismatch. -/
def execEyeScanDone (p : BitVec 5) (err : Nat) (s : State) : Host.Outcome State Fault Refusal :=
  let p := p.toNat
  if s.fget (PRT_EYE_STAT p) PRT_EYE_STAT_STATE ≠ 1 then .next s
  else
    let n := 2 ^ s.fget (PRT_EYE_CTL p) PRT_EYE_CTL_LIMIT
    let s := (s.wr64 (PRT_EYE_CNT_LO p) n).wr (PRT_EYE_ERR p) (BitVec.ofNat 32 (min (min err n) (2 ^ 32 - 1)))
    .next (s.fset (PRT_EYE_STAT p) PRT_EYE_STAT_STATE 2)

/-- A write of MRD_PROMOTE (R464, R466, R467): bits set and stay set. -/
def promoteWrite (s : State) (h : Half) (v : Word) : State :=
  if finderOnly s ∧ v ≠ 0 then writeDiscarded s h MRD_PROMOTE else s.wr MRD_PROMOTE (s.rd MRD_PROMOTE ||| v)

/-- PORT_PROMOTE (R466). -/
def execPortPromote (m : Master) (p : BitVec 5) (s : State) : Host.Outcome State Fault Refusal :=
  .next (csGate s m MRD_PROMOTE fun s => promoteWrite s (s.masterHalf m) (BitVec.ofNat 32 (2 ^ p.toNat)))

/-- A promotion comes into force at a boundary (R466): sub-ports that run below their final rate drain first. -/
def promoteBoundary (s : State) : State :=
  let v := (s.rd MRD_PROMOTE).toNat
  if v = s.dome.promo then s
  else
    let old := s.dome.promo
    let s := { s with dome := { s.dome with promo := v } }
    (List.range 32).foldl (fun s p =>
      if bitB v p && !bitB old p then
        promotedStat ((subsOf s p).foldl (fun s k =>
          let d := subNode p k
          if linkUp s d && decide (s.fget (PRT_LNK_STAT p k) PRT_LNK_STAT_RATE < maxRate s p) then
            s.modSub d fun x => { x with rateTo := some (s.tn (portHalf p)) }
          else s) s) p
      else s) s

/-- PROMOTE_RATE_CHANGE (R466): once the sub-port has no live entry, or after 2 ms, it is directed to its highest rate with
equalisation. -/
def execPromoteRateChange (p : BitVec 5) (k : BitVec 2) (s : State) : Host.Outcome State Fault Refusal :=
  let d := subNode p.toNat k.toNat
  match (s.sub d).rateTo with
  | none => .next s
  | some tn =>
    if linkUp s d && !(s.sub d).change && (s.fget (PRT_TAG_STAT p.toNat k.toNat) PRT_TAG_STAT_LIVE == 0
        || decide (tn + 2000 ≤ s.tn (portHalf p.toNat))) then
      .next (lnkRate s d)
    else .next s

end Sys2Proof.Machine
end

