-- ==== Sys2Proof/Machine/Rotation.lean ====
section
/-! DEFINITION. Rotation (R337-R340) and the fences of its requesters (R416). -/

namespace Sys2Proof.Machine

open Sys2Proof

/-- The arbiter of pseudo-channel pc before its first window. -/
def arbReset : Arb := ⟨0, [0, 0, 0, 0, 0, 0, 0], [], none⟩
def arbOf (s : State) (h : Half) (pc : Nat) : Arb := (mfind (s.qos.get h).arbs pc).getD arbReset
def putArb (s : State) (h : Half) (pc : Nat) (a : Arb) : State :=
  s.modQos h fun q => { q with arbs := minsert q.arbs pc a }

/-- QOS_ROT_CFG.WIN, 0 treated as 1 (R337). -/
def rotWin (s : State) (h : Half) : Nat := max 1 (s.fget (QOS_ROT_CFG h) QOS_ROT_CFG_WIN)

/-- Is requester r HIGH? Its quota per window. -/
def rotHigh (s : State) (h : Half) (r : Nat) : Bool := bitB (s.fget (QOS_ROT_CFG h) QOS_ROT_CFG_HIGH) r
def rotQuota (s : State) (h : Half) (r : Nat) : Nat :=
  if r < 4 then bits (s.rd (QOS_ROT_QUOTA0 h)).toNat (8 * r + 7) (8 * r)
  else bits (s.rd (QOS_ROT_QUOTA1 h)).toNat (8 * (r - 4) + 7) (8 * (r - 4))

/-- ROTATION_WINDOW_START (R337): HIGH requesters receive their quotas; unused quota is lost. -/
def execRotationWindowStart (h : Half) (pc : BitVec 5) (s : State) : Host.Outcome State Fault Refusal :=
  .next (putArb s h pc.toNat { arbOf s h pc.toNat with
    quota := (List.range 7).map fun r => if rotHigh s h r then rotQuota s h r else 0 })

/-- The first of the requesters, from the pointer on, of which `f` holds. -/
def rotFind (ptr : Nat) (f : Nat → Bool) : Option Nat := ((List.range 7).map fun i => (ptr + i) % 7).find? f

/-- The grant of R337 among waiting requesters, and whether it spends quota. -/
def rotChoose (s : State) (h : Half) (a : Arb) (ws : List Nat) : Option (Nat × Bool) :=
  match rotFind a.ptr fun r => ws.contains r && rotHigh s h r && decide (0 < a.quota.getD r 0) with
  | some r => some (r, true)
  | none => (rotFind a.ptr fun r => ws.contains r).map fun r => (r, false)

/-- ROTATION_GRANT (R337): one 64-byte access among the requesters that wait; fenced requesters issue nothing, and the
restarting front end grants nothing (R340). -/
def execRotationGrant (h : Half) (pc : BitVec 5) (waiting : List Nat) (s : State) : Host.Outcome State Fault Refusal :=
  let a := arbOf s h pc.toNat
  let ws := waiting.filter fun r => r < 7 ∧ rotFenced s h r = false
  let u := ws.foldl (fun s r => if (s.qos.get h).arbs.any (fun e => e.2.waiting.contains r) then s else tallyRise s h 6 1 r) s
  if s.flag (QOS_ROT_STAT h) QOS_ROT_STAT_RESTART then .next (putArb u h pc.toNat { a with waiting := ws })
  else
    match rotChoose s h a ws with
    | none => .next (putArb u h pc.toNat { a with waiting := ws, granted := none })
    | some (r, paid) =>
      .next (tally (putArb u h pc.toNat
        ⟨(r + 1) % 7, if paid then a.quota.set r (a.quota.getD r 0 - 1) else a.quota, ws.erase r, some r⟩) h 6 0 r 1)

/-- The mirror of half h becomes unprotected (R188, R416).
[log 72, DEDUCED] -/
def mirrorUnprot (s : State) (h : Half) : State :=
  if s.flag (CDB_STAT h) CDB_STAT_MIRROR_UNPROT then s
  else raise ((mirrorLeft s h).fset (CDB_STAT h) CDB_STAT_MIRROR_UNPROT 1) h (evt 9 4 0 0)

/-- What fencing a requester does (R416). -/
def fenceEffect (s : State) (h : Half) (r : Nat) : State :=
  match r with
  | 0 => dfReadyNow s h
  | 1 => mirrorUnprot s h
  | 2 => mirrorUnprot s h.other
  | 4 => spillLost s h
  | _ => s

/-- The instance number of requester r of half h's stack (REF_UNFENCE): [7] the stack, [2:0] the requester.
[log 160, DEDUCED] -/
def rqInst (h : Half) (r : Nat) : Nat := 128 * h.idx + r

/-- A bite (R340, R416): the requester is fenced, the front end restarts, and a second bite within 1,000,000 Transits keeps
the fence. -/
def bite (s : State) (h : Half) (pc r : Nat) : State :=
  let again := match mfind (s.qos.get h).lastBite r with
    | some t => decide (s.tn h ≤ t + 1000000)
    | none => false
  let a := QOS_ROT_STAT h
  let s := s.fbump (QOS_ERRCNT0 h) QOS_ERRCNT0_WDOG_CNT 1
  let s := s.fsets a [(QOS_ROT_STAT_LAST_PC, pc), (QOS_ROT_STAT_RESTART, 1),
    (QOS_ROT_STAT_FENCED, s.fget a QOS_ROT_STAT_FENCED ||| 2 ^ r)]
  let s := s.modQos h fun q => { q with lastBite := minsert q.lastBite r (s.tn h), biter := some r,
                                        sticky := if again then r :: q.sticky else q.sticky }
  let s := putArb s h pc { arbOf s h pc with granted := none, waiting := (arbOf s h pc).waiting.erase r }
  let s := s.fset (REF_LCNT h 6 (rqInst h r)) REF_LCNT_FENCED 1
  raise (fenceEffect (dfReadyNow s h) h r) h (evtU 16 1 r 6 (rqInst h r) pc)

/-- ROTATION_WATCHDOG (R340): a grant of pseudo-channel pc has been held for 6 µs. -/
def execRotationWatchdog (h : Half) (pc : BitVec 5) (s : State) : Host.Outcome State Fault Refusal :=
  match (arbOf s h pc.toNat).granted with
  | none => .next s
  | some r => .next (bite s h pc.toNat r)

/-- Lift the fence of requester r (R416). A mirror that the fence left unprotected is resynchronised before it is
protected again (R194). -/
def liftFence (s : State) (h : Half) (r : Nat) : State :=
  let a := QOS_ROT_STAT h
  let f := s.fget a QOS_ROT_STAT_FENCED
  let s := s.fset a QOS_ROT_STAT_FENCED (if bitB f r then f - 2 ^ r else f)
  let s := s.fset (REF_LCNT h 6 (rqInst h r)) REF_LCNT_FENCED 0
  let s := s.modQos h fun q => { q with sticky := q.sticky.filter fun x => x ≠ r }
  match r with
  | 1 => s.modCdb h fun b => { b with resync := true }
  | 2 => s.modCdb h.other fun b => { b with resync := true }
  | _ => dfReadyNow s h

/-- FRONT_END_RESTART_DONE (R340, R416): the restart ends, held requests are reissued, and the fence is lifted unless
a second bite keeps it. -/
def execFrontEndRestartDone (h : Half) (s : State) : Host.Outcome State Fault Refusal :=
  if s.flag (QOS_ROT_STAT h) QOS_ROT_STAT_RESTART then
    let r := (s.qos.get h).biter
    let s := (s.fset (QOS_ROT_STAT h) QOS_ROT_STAT_RESTART 0).modQos h fun q => { q with biter := none }
    let s := match r with
      | some r => if (s.qos.get h).sticky.contains r then s else liftFence s h r
      | none => s
    .next (dfReadyNow s h)
  else .next s

/-- REF_UNFENCE takes effect at a boundary (R416): the requester it names, of the stack it names. -/
def unfenceBoundary (s : State) (h : Half) : State :=
  let l := (s.ref.get h).unfence
  (l.foldl (fun s i =>
    let k : Half := if bitB i 7 then .west else .east
    if rotFenced s k (i % 8) then liftFence s k (i % 8) else s) s).modRef h fun x => { x with unfence := [] }

end Sys2Proof.Machine
end

