-- ==== Sys2Proof/Machine/Bridge.lean ====
section
/-! DEFINITION. The Coudé bridge (spec 06): flits and replay, wires and narrowing, XON and XOFF, Doze, going down, the
split and the rejoin. -/

namespace Sys2Proof.Machine

open Sys2Proof

/-- The failed wires of group g in half h's receive direction (CDB_WMAP), and its good wires. -/
def wmapNat (s : State) (h : Half) (g : Nat) : Nat :=
  (s.rd (CDB_WMAP h g 0)).toNat + (s.rd (CDB_WMAP h g 1)).toNat * 2 ^ 32 + (s.rd (CDB_WMAP h g 2)).toNat % 4 * 2 ^ 64
def wiresFailed (s : State) (h : Half) (g : Nat) : Nat := ((List.range 66).filter fun w => bitB (wmapNat s h g) w).length
def wiresGood (s : State) (h : Half) (g : Nat) : Nat := 66 - wiresFailed s h g

/-- CDB_GRP.WIDTH by the good wires and the phase (R172). -/
def grpWidth (s : State) (h : Half) (g : Nat) : Nat :=
  if s.phase h = phRETRAIN ∨ s.phase h = phSPLIT then 2
  else if 64 ≤ wiresGood s h g then 0 else if 32 ≤ wiresGood s h g then 1 else 2
def grpStat (s : State) (h : Half) (g : Nat) : State :=
  s.fsets (CDB_GRP h g) [(CDB_GRP_FAILED, wiresFailed s h g), (CDB_GRP_WIDTH, grpWidth s h g)]
def grpsStat (s : State) (h : Half) : State := (List.range 8).foldl (fun s g => grpStat s h g) s

/-- Is wire w of a group one of those it uses: the lowest 64, or 32, good wires (R171, R172)? -/
def wireUsed (s : State) (h : Half) (g w : Nat) : Bool :=
  let below := ((List.range w).filter fun i => !bitB (wmapNat s h g) i).length
  decide (below < (if 64 ≤ wiresGood s h g then 64 else 32))

/-- Put both halves in a phase. -/
def setPhase (s : State) (ph : Nat) : State :=
  let s := (s.fset (CDB_STAT .east) CDB_STAT_PHASE ph).fset (CDB_STAT .west) CDB_STAT_PHASE ph
  catStat (catStat (grpsStat (grpsStat s .east) .west) .east) .west

/-- The flow class of a cell class on the bridge: its VC (R135), where completions go apart from the requests of VC1, as 8, because
no response waits behind a request (R110, R142).
[log 140, DEDUCED] -/
def flowOf (c : Nat) : Nat := if c = 2 then 8 else vcOf c

/-- Cells of flow class v in the receive buffer of half h: arrived, whole or in part, at a bridge station and not yet admitted
(R175).
[log 140, DEDUCED] -/
def rxCells (s : State) (h : Half) (v : Nat) : List Cell :=
  (List.range 8).flatMap fun g =>
    (((lget (s.core.get h).formed (16 + g)).filter fun e => flowOf (keyCls e.1) == v).map fun e => e.2)
      ++ ((mfind (s.cdb.get h).part g).toList.filter fun e => flowOf (cellCls s e.1.2) == v).map fun e => e.1.2
def rxHeld (s : State) (h : Half) (v : Nat) : Bool :=
  (List.range 8).any fun g => (lget (s.core.get h).held (16 + g)).any fun e => flowOf (keyCls e.1) == v
def rxFree (s : State) (h : Half) (v : Nat) : Nat := 131072 - ((rxCells s h v).map fun c => 16 * (c.slots + 1)).sum
def headroom (s : State) (h : Half) : Nat := max 12 (s.fget (CDB_CTL h) CDB_CTL_HR) * 8192

/-- XOFF per flow class as half h's receiver sends it (R175).
[log 140, DEDUCED] -/
def xoffStat (s : State) (h : Half) : State :=
  let x := (List.range 9).filter fun v =>
    let on := (s.cdb.get h).xoffTx.contains v
    if on then decide (rxFree s h v < headroom s h + 8192) || rxHeld s h v
    else decide (rxFree s h v < headroom s h) || rxHeld s h v
  if (s.cdb.get h).xoffTx = x then s else s.modCdb h fun b => { b with xoffTx := x }

/-- The slots of a flit's body from the cells that wait (R166, R167): cells of one flow class in order, none begun whose class is
in XOFF; a cell that does not fit goes on in the next flit, and fillers take the rest. Answers the slots, the cells left, and the
payload slots still to send of the cell begun last. -/
def flitFill (s : State) (off : List Nat) (room : Nat) : List (Nat × Cell) → List BSlot × List (Nat × Cell) × Nat
  | [] => (List.replicate room .fill, [], 0)
  | e :: r =>
    if room = 0 then ([], e :: r, 0)
    else if off.contains (flowOf (cellCls s e.2)) then
      let x := flitFill s off room r
      (x.1, e :: x.2.1, x.2.2)
    else
      let n := min (room - 1) e.2.slots
      let d := BSlot.desc e.1 e.2 :: List.replicate n .pay
      if n < e.2.slots then (d, r, e.2.slots - n)
      else
        let x := flitFill s off (room - 1 - n) r
        (d ++ x.1, x.2.1, x.2.2)

/-- The body of half o's next new flit of group g: first the rest of the cell begun last. -/
def nextBody (s : State) (o : Half) (x : BGrp) : List BSlot × List (Nat × Cell) × Nat :=
  if 15 ≤ x.rest then (List.replicate 15 .pay, x.wait, x.rest - 15)
  else
    let r := flitFill s (s.cdb.get o).xoffRx (15 - x.rest) x.wait
    (List.replicate x.rest .pay ++ r.1, r.2.1, r.2.2)

/-- A flit whose body holds only fillers is idle (R167). -/
def flitIdle (l : List BSlot) : Bool := l.all fun x => x == .fill

/-- Does half o's transmitter of group g have something to send (R178): a data flit, a replay, a change of XOFF, an ACK or a
NAK?
 -/
def hasCause (s : State) (o : Half) (g : Nat) : Bool :=
  let x := bgrp s o g
  let h := o.other
  decide (x.pos < x.replay.length) || (!flitIdle (nextBody s o x).1 && decide (x.replay.length < 48))
    || (s.cdb.get o).xoffTx != (s.cdb.get h).xoffRx || (s.cdb.get o).naking.contains g
    || (bgrp s h g).replay.head?.any fun f => decide (((mfind (s.cdb.get o).rxSeq g).getD 255 + 256 - f.seq) % 256 < 128)

/-- Group g's transmitter in half o is in Doze (R177); it leaves it. -/
def dozing (s : State) (o : Half) (g : Nat) : Bool := bitB (s.fget (CDB_STAT o) CDB_STAT_DOZE) g
/-- Group g of half o leaves Doze (R178).
 -/
def dozeLeave (s : State) (o : Half) (g : Nat) : State :=
  s.fset (CDB_STAT o) CDB_STAT_DOZE (s.fget (CDB_STAT o) CDB_STAT_DOZE &&& (255 - 2 ^ g))

/-- The transmitter of group g in half o has something to send at this instant (R177). -/
def notIdle (s : State) (o : Half) (g : Nat) : State := putBgrp s o g { bgrp s o g with idle := s.now o }

/-- A full replay buffer stalls its group once per episode (R169). -/
def bridgeStall (s : State) (o : Half) (g : Nat) : State :=
  let x := bgrp s o g
  if x.stalled ∨ x.wait = [] then s
  else (putBgrp s o g { x with stalled := true }).fbump (CDB_ERRCNT0 o) CDB_ERRCNT0_STALL_CNT 1

/-- Half o's transmitter of group g sends: the next flit of a replay, a new data flit, or an idle flit with the SEQ of the next
data flit (R167, R168). It sends none during a remap (R171) and none in Doze until it has a cause (R178). -/
def flitSend (s : State) (o : Half) (g : Nat) : Option BFlit × State :=
  let x := bgrp s o g
  if x.remap ∨ (dozing s o g ∧ hasCause s o g = false) then (none, s)
  else
    let s := dozeLeave s o g
    if x.pos < x.replay.length then (x.replay[x.pos]?, notIdle (putBgrp s o g { x with pos := x.pos + 1 }) o g)
    else
      let idle : BFlit := ⟨x.seq, List.replicate 15 .fill⟩
      if 48 ≤ x.replay.length then (some idle, bridgeStall s o g)
      else
        let r := nextBody s o x
        if flitIdle r.1 then (some idle, s)
        else
          let f : BFlit := ⟨x.seq, r.1⟩
          let y := { x with wait := r.2.1, rest := r.2.2, replay := x.replay ++ [f], pos := x.pos + 1 }
          (some f, notIdle (putBgrp s o g { y with seq := (x.seq + 1) % 256, stalled := false }) o g)

/-- An ACK of SEQ a frees the flits up to it from half o's replay buffer of group g (R168). -/
def bridgeAck (s : State) (o : Half) (g a : Nat) : State :=
  let x := bgrp s o g
  let n := (x.replay.takeWhile fun f => decide ((a + 256 - f.seq) % 256 < 128)).length
  if n = 0 then s
  else
    let y := { x with replay := x.replay.drop n, pos := x.pos - n }
    notIdle (putBgrp s o g { y with naks := 0, stalled := false }) o g

/-- The CRC-24 of polynomial 0x86_4CFB (R166) over bits, from a register. -/
def crc24Run : List Bool → Nat → Nat
  | [], r => r
  | b :: l, r => if r.testBit 23 != b then crc24Run l ((r * 2 % 2 ^ 24) ^^^ 0x864CFB) else crc24Run l (r * 2 % 2 ^ 24)

/-- The bits of a flit that its CRC covers, by their places: the header's WPAR, SEQ, ACK, NAK, XOFF and SMAP, and the body.
[log 139, DESIGN CHOICE] -/
def crcBits : List Nat := List.range 64 ++ (List.range 40).map (88 + ·) ++ (List.range 1920).map (128 + ·)

/-- Does a flit pass its CRC whose bits at `flips` were inverted on the wires (R166)? A CRC is linear: the flit passes when the
inverted bits alone have CRC 0.
[log 139, DESIGN CHOICE] -/
def crcPasses (flips : List Nat) : Bool :=
  flips.isEmpty ||
    (crc24Run (crcBits.map fun i => flips.contains i) 0 ==
      ((List.range 24).filter fun i => flips.contains (64 + i)).foldl (fun n i => n + 2 ^ i) 0)

/-- The data wires, numbered as WPAR numbers them, whose parity does not match: body bit i is on wire i mod 64.
[log 139, DESIGN CHOICE] -/
def wparBad (flips : List Nat) : List Nat :=
  (List.range 64).filter fun n =>
    let odd := (flips.filter fun i => decide (128 ≤ i) && decide (i < 2048) && (i - 128) % 64 == n).length % 2 == 1
    odd != flips.contains n

/-- The wire of a group that carries data wire n: the n-th of its good wires, of 64 or of 32 (R171, R172).
[log 139, DESIGN CHOICE] -/
def wireOf (s : State) (h : Half) (g n : Nat) : Nat :=
  let good := (List.range 66).filter fun w => !bitB (bgrp s h.other g).map w
  good.getD (if 64 ≤ good.length then n else n % 32) 0

/-- The WPAR mismatches of a received flit are noted; those of 1,000 Transits ago or more are forgotten (R171).
[log 129, DESIGN CHOICE] -/
def wparNote (s : State) (h : Half) (g : Nat) (flips : List Nat) : State :=
  match wparBad flips with
  | [] => s
  | l => s.modCdb h fun b => { b with wpar :=
      (b.wpar.filter fun e => decide (s.tn h < e.2.2 + 1000)) ++ ((l.map (wireOf s h g)).dedup.map fun w => (g, w, s.tn h)) }

/-- Has wire w of group g mismatched in more than CDB_WIRE_THR.THR flits within 1,000 Transits (R171)?
[log 129, DESIGN CHOICE] -/
def wparOver (s : State) (h : Half) (g w : Nat) : Bool :=
  decide (s.fget (CDB_WIRE_THR h) CDB_WIRE_THR_THR
    < ((s.cdb.get h).wpar.filter fun e => e.1 == g && e.2.1 == w && decide (s.tn h < e.2.2 + 1000)).length)

/-- The response kinds that answer a request. -/
def answers (req rsp : Op) : Bool :=
  match rsp with
  | .cpl => opIsIo req
  | .ndr | .drs => req == .memRd || req == .memRdData || req == .memInv || req == .memClnEvct || req == .memWr || req == .memWrPtl
  | .h2dRsp | .h2dData => req == .d2hReq
  | .d2hRsp | .d2hData => req == .h2dReq
  | .biRsp => req == .biSnp
  | _ => false

/-- The crossing entry that a response returning to half h answers: a live one before one in quarantine, whose tag has been used
again. -/
def crossFind (s : State) (h : Half) (m : Msg) : Option (Nat × CrossEnt) :=
  let l := (s.cdb.get h).cross.filter fun e =>
    e.2.m.src == m.dst && e.2.m.tag == m.tag && e.2.m.tenant == m.tenant && answers e.2.m.op m.op
  match l.find? fun e => e.2.quar.isNone with
  | some e => some e
  | none => l.head?
def crossFree (s : State) (h : Half) (n : Nat) : State := s.modCdb h fun b => { b with cross := merase b.cross n }

/-- A response has crossed back into half h (R179, R181): its entry is freed; one in quarantine discards it. -/
def crossBack (s : State) (h : Half) (n : Nat) : State :=
  match s.msg n with
  | none => s
  | some m =>
    if isRsp m.op = false ∨ 128 ≤ m.dst then s
    else match crossFind s h m with
      | none => s
      | some (k, e) =>
        let s := if m.final then crossFree s h k
          else s.modCdb h fun b => { b with cross := minsert b.cross k { e with m := { e.m with len := e.m.len - m.len } } }
        if e.quar.isNone then s
        else (dropMsg (queuesDrop s h [n]) n).fbump (CDB_ERRCNT2 h) CDB_ERRCNT2_LATEX_CNT 1

/-- Take the slots of a body: the cell that is arriving, and those that have arrived whole (R167).
[log 77, DEDUCED] -/
def bodyTake : List BSlot → Option ((Nat × Cell) × Nat) → Option ((Nat × Cell) × Nat) × List (Nat × Cell)
  | [], p => (p, [])
  | .fill :: l, p => bodyTake l p
  | .desc d c :: l, _ =>
    if c.slots = 0 then
      let x := bodyTake l none
      (x.1, (d, c) :: x.2)
    else bodyTake l (some ((d, c), c.slots))
  | .pay :: l, p =>
    match p with
    | none => bodyTake l none
    | some (e, n) =>
      if n ≤ 1 then
        let x := bodyTake l none
        (x.1, e :: x.2)
      else bodyTake l (some (e, n - 1))

/-- Cells of an accepted flit wait in the receive buffer for their admission at station 16 + g (R170, R175).
[log 141, DEDUCED] -/
def flitAccept (s : State) (h : Half) (g : Nat) (f : BFlit) : State :=
  let x := bodyTake f.body (mfind (s.cdb.get h).part g)
  let cs := x.2.map fun c =>
    match c.2.msgs.head?.bind fun n => s.msg n with
    | some m => (msgKey s h (16 + g) m, { c.2 with pool := .none })
    | none => (0, c.2)
  let s := s.modCore h fun c => { c with formed := lset c.formed (16 + g) (lget c.formed (16 + g) ++ cs) }
  let s := s.modCdb h fun b => { b with rxSeq := minsert b.rxSeq g f.seq, part := match x.1 with
    | some p => minsert b.part g p
    | none => merase b.part g }
  ((cs.filter fun c => c.2.last).flatMap fun c => c.2.msgs).foldl (fun s n => crossBack s h n) s

/-- The XOFF that half o sends reaches half h with a flit of group g (R175). -/
def xoffTake (s : State) (h : Half) : State :=
  let off := (s.cdb.get h.other).xoffTx
  if (s.cdb.get h).xoffRx = off then s else s.modCdb h fun b => { b with xoffRx := off }

/-- BRIDGE_FLIT_RECEIVED (R166-R168, R170, R175): half h receives the next flit that the other half's transmitter of group g
sends, with the bits at `flips` inverted. A flit that fails its CRC is discarded, and a NAK is to be sent; so is every flit out
of sequence. Every flit that passes brings ACK and XOFF. -/
def execBridgeFlitReceived (h : Half) (g : BitVec 3) (flips : List Nat) (s : State) : Host.Outcome State Fault Refusal :=
  let g := g.toNat
  let o := h.other
  if grpWidth s h g = 2 then .next s
  else
    let r := flitSend s o g
    match r.1 with
    | none => .next r.2
    | some f =>
      let s := wparNote r.2 h g flips
      if crcPasses flips = false then
        .next (if (s.cdb.get h).naking.contains g then s else s.modCdb h fun b => { b with naking := g :: b.naking })
      else
        let s := xoffTake (bridgeAck s h g ((mfind (s.cdb.get o).rxSeq g).getD 255)) h
        if flitIdle f.body = false ∧ f.seq = ((mfind (s.cdb.get h).rxSeq g).getD 255 + 1) % 256 then .next (xoffStat (flitAccept s h g f) h)
        else .next (xoffStat s h)

/-- A message dropped with the bridge (R180): a crossing request ends with its crossing entry, a snoop copy is sent again
when the bridge returns (R253), and the rest end by their kind.
[log 142, DEDUCED] -/
def bridgeDrop (s : State) (h : Half) (m : Msg) : State :=
  let ds := if m.mc = [] then [m.dst] else m.mc
  if m.op = .biSnp ∧ 128 ≤ m.src then
    s.modCdb h fun b => { b with resend := b.resend ++ ds.map fun d => (m.tag, d) }
  else if m.itag.isNone ∧ nonPosted m.op ∧ m.mc = [] ∧ m.src < 128 then s
  else if isRsp m.op then s
  else ds.foldl (fun s d => endFlushed s { m with mc := [], dst := d } 0) s

/-- The messages of cells that the other half has not taken whole (R180): waiting at half h's bridge stations, in flits of its
replay buffers that have not been accepted, or arriving. -/
def bridgeMsgs (s : State) (h : Half) : List Nat :=
  let o := s.cdb.get h.other
  let ids (l : List BSlot) : List Nat := l.flatMap fun x => match x with
    | .desc _ c => c.msgs
    | _ => []
  (((s.cdb.get h).grps.flatMap fun g =>
      ((g.2.replay.filter fun f => decide (128 ≤ ((mfind o.rxSeq g.1).getD 255 + 256 - f.seq) % 256)).flatMap fun f => ids f.body)
        ++ g.2.wait.flatMap fun c => c.2.msgs)
    ++ o.part.flatMap fun e => e.2.1.2.msgs).dedup

/-- Every live crossing entry of half h ends (R180). -/
def crossEnd (s : State) (h : Half) : State :=
  ((s.cdb.get h).cross.filter fun e => e.2.quar.isNone).foldl (fun s e =>
    let s := synthReport s e.2.m (levelOf s e.2.m)
    let s := s.fbump (CDB_ERRCNT2 h) CDB_ERRCNT2_XEND_CNT 1
    s.modCdb h fun b => { b with cross := minsert b.cross e.1 { e.2 with quar := some (s.now h) } }) s

/-- What half h does when the bridge goes down (R180, R182) with the messages `ids` not wholly across: they are dropped, those
parts of them that the other half holds too.
[log 142, DEDUCED] -/
def downHalf (s : State) (h : Half) (ids : List Nat) : State :=
  let ms := ids.filterMap fun n => s.msg n
  let f (b : Cdb) : Cdb := { b with grps := [], rxSeq := [], xoffRx := [], xoffTx := [], part := [], naking := [] }
  let s := mirrorLeft (s.modCdb h fun b => { f b with downAt := some (s.now h) }) h
  let s := (queuesDrop s h.other ids).modNet fun n => { n with msgs := ids.foldl (fun x i => merase x i) n.msgs }
  let s := crossEnd (ms.foldl (fun s m => bridgeDrop s h m) s) h
  let s := (s.fbump (CDB_ERRCNT1 h) CDB_ERRCNT1_DOWN_CNT 1).fset (CDB_STAT h) CDB_STAT_DOZE 0
  raise s h (evt 9 2 0 0)

/-- The request that waited for an abandoned snoop (R253): answered as R185 and R186 state; one that waited for a way of
its set waits again, and one from the other half ended with its crossing entry.
[log 78, DEDUCED] -/
def abandonAnswer (s : State) (h : Half) (kind : CatKind) (m : Msg) : State :=
  if kind = .capEvict then waitPool s h m true
  else if 128 ≤ m.src ∨ nodeHalf m.src = h then badLine s h m kind
  else s

/-- The internal entries of line k's snoops to the other half are quarantined: an answer is a late completion (R117, R253). -/
def snoopTagsEnd (s : State) (h : Half) (k : Nat) : State :=
  s.modNet fun n => { n with itags := mmapOpt n.itags fun _ x => some (match x.own with
    | .snoop l t => if l = k ∧ x.half = h ∧ x.quar.isNone ∧ remoteTenant s h t = true then { x with quar := some (s.now h) } else x
    | _ => x) }

/-- The snoops of a line to the other half are abandoned at a split (R253): their holders stay in the entry, the waiting
request is answered, and the line unlocks when its snoops within the half have ended.
[log 78, DEDUCED] -/
def snoopAbandon (s : State) (h : Half) (k : Nat) : State :=
  match txnOf s h k with
  | none => s
  | some t =>
    if t.pend.any fun x => remoteTenant s h x then
      let s := snoopTagsEnd s h k
      let s := putTxn s h k { t with kind := .reconcile, msg := none, pend := t.pend.filter fun x => !remoteTenant s h x }
      let s := catAdvance s h k
      match t.msg with
      | none => s
      | some m => abandonAnswer s h t.kind m
    else s

/-- Every snoop of half h that the split cuts off is abandoned.
[log 78, DEDUCED] -/
def abandonAll (s : State) (h : Half) : State :=
  ((s.cat.get h).txns.map fun e => e.1).foldl (fun s k => snoopAbandon s h k) (s.modCdb h fun b => { b with resend := [] })

/-- A multicast message loses its destinations in the other half (R185); each copy that is not sent ends as its unit's chapter
says, a snoop's with the snoop. -/
def mcCut (s : State) (h : Half) (n : Nat) : State :=
  match s.msg n with
  | none => s
  | some m =>
    let far := m.mc.filter fun d => nodeHalf d ≠ h
    let m' := { m with mc := m.mc.filter fun d => nodeHalf d = h }
    let s := if m'.mc = [] then dropMsg (queuesDrop s h [n]) n else s.modNet fun x => { x with msgs := minsert x.msgs n m' }
    if m.op = .biSnp then s else far.foldl (fun s d => endFlushed s { m with mc := [], dst := d } 0) s

/-- A message that still waits for the bridge when the split is declared (R185): management alone, on VC7, waits on. -/
def farWaits (h : Half) (m : Msg) : Bool := m.mc.isEmpty && decide (nodeHalf m.dst ≠ h) && clsOf m != 8

/-- Such requests are answered as those that come later, and responses are discarded (R185).
[log 142, DEDUCED] -/
def farCut (s : State) (h : Half) : State :=
  let ids := (queuedIds (s.core.get h)).dedup.filter fun n => (s.msg n).any (farWaits h)
  let ms := (ids.filterMap fun n => s.msg n).filter fun m => !isRsp m.op && m.op != .biRsp
  let s := (queuesDrop s h ids).modNet fun n => { n with msgs := ids.foldl (fun x i => merase x i) n.msgs }
  ms.foldl (fun s m =>
    let s := endFlushed s m (levelOf s m)
    if nonPosted m.op && decide (m.src < 128) then s.fbump (CDB_ERRCNT2 h) CDB_ERRCNT2_XEND_CNT 1 else s) s

/-- The split cuts half h off (R185, R253): multicast messages lose their remote destinations, what still waits for the bridge ends,
snoops to the other half are abandoned.
[log 142, DEDUCED] -/
def splitCut (s : State) (h : Half) : State :=
  let s := farCut s h
  let ids := (queuedIds (s.core.get h)).dedup.filter fun n => (s.msg n).any fun m => m.mc.any fun d => decide (nodeHalf d ≠ h)
  abandonAll (ids.foldl (fun s n => mcCut s h n) s) h

/-- A rejoin that fails returns half h to the split: the mirror is unprotected again (R188, R193). -/
def splitAgain (s : State) (h : Half) : State := splitCut (mirrorUnprot s h) h

/-- The bridge goes down (R180, R182, R193): from UP it retrains; during a rejoin the halves return to the split. -/
def bridgeDown (s : State) : State :=
  let ph := s.phase .east
  if ph = phRETRAIN ∨ ph = phSPLIT then s
  else
    let s := setPhase s (if ph = phUP then phRETRAIN else phSPLIT)
    let f (b : Cdb) : Cdb := { b with attempt := none, lockEnd := none, upNext := false, resync := false }
    let e := bridgeMsgs s .east
    let w := bridgeMsgs s .west
    let s := downHalf (downHalf ((s.modCdb .east f).modCdb .west f) .east e) .west w
    if ph = phUP then s else splitAgain (splitAgain s .east) .west

/-- BRIDGE_DOWN (R180): a half loses a group's forwarded clock, or one of the other causes. -/
def execBridgeDown (s : State) : Host.Outcome State Fault Refusal := .next (bridgeDown s)

/-- BRIDGE_NAK_RECEIVED (R168, R180): half h receives the NAK that the other half sends for group g, with the last SEQ it has
accepted as ACK, and resends from ACK + 1; the sixteenth NAK in a row for one SEQ takes the bridge down.
[log 141, DEDUCED] -/
def execBridgeNakReceived (h : Half) (g : BitVec 3) (s : State) : Host.Outcome State Fault Refusal :=
  let g := g.toNat
  let o := h.other
  if grpWidth s h g = 2 ∨ (bgrp s o g).remap ∨ (s.cdb.get o).naking.contains g = false then .next s
  else
    let s := (dozeLeave s o g).modCdb o fun b => { b with naking := b.naking.filter (· ≠ g) }
    let s := (bridgeAck s h g ((mfind (s.cdb.get o).rxSeq g).getD 255)).fbump (CDB_ERRCNT0 h) CDB_ERRCNT0_NAK_CNT 1
    let x := bgrp s h g
    let s := xoffTake (putBgrp s h g { x with pos := 0, naks := x.naks + 1 }) h
    .next (if x.naks + 1 = 16 then bridgeDown s else s)

/-- May the receivers of group g train: 32 good wires in both directions (R172, R182)? -/
def bridgeTrains (s : State) : Bool := (List.range 8).all fun g => decide (32 ≤ wiresGood s .east g) && decide (32 ≤ wiresGood s .west g)

/-- Is a remap of group g under way in either direction? -/
def remapping (s : State) (g : Nat) : Bool := (bgrp s .east g).remap || (bgrp s .west g).remap

/-- West's request for a remap of group g, if it has one under way, is withdrawn with its Transit (R174).
[log 143, DEDUCED] -/
def withdrawWest (s : State) (g : Nat) : State :=
  let x := bgrp s .east g
  if x.remap then putBgrp s .east g { x with remap := false, want := some (s.tn .west) } else s

/-- Half h asks for a remap, a narrowing or a widening of group g in its receive direction, carried out by the other half's
transmitter; where both halves ask, West's request is withdrawn and asked again in a later Transit (R174).
[log 143, DEDUCED] -/
def askRemap (s : State) (h : Half) (g : Nat) : State :=
  match h with
  | .east =>
    let s := withdrawWest s g
    putBgrp s .west g { bgrp s .west g with remap := true }
  | .west =>
    let x := bgrp s .east g
    if (bgrp s .west g).remap then putBgrp s .east g { x with want := some (s.tn .west) }
    else putBgrp s .east g { x with remap := true }

/-- WIRE_FAILED (R171, R172, R173): wire w of group g fails in half h's receive direction, because it has lost lock or its WPAR
mismatches exceed the threshold. A wire in use is replaced by a spare or the group narrows; with fewer than 32 good wires the
bridge goes down. -/
def execWireFailed (h : Half) (g : BitVec 3) (w : Nat) (lost : Bool) (s : State) : Host.Outcome State Fault Refusal :=
  let g := g.toNat
  if 66 ≤ w ∨ bitB (wmapNat s h g) w ∨ (lost = false ∧ wparOver s h g w = false) then .next s
  else
    let used := wireUsed s h g w
    let wide := decide (64 ≤ wiresGood s h g)
    let a := CDB_WMAP h g (w / 32)
    let s := grpStat (s.wr a (s.rd a ||| BitVec.ofNat 32 (2 ^ (w % 32)))) h g
    if s.phase h = phRETRAIN ∨ s.phase h = phSPLIT then .next s
    else if wiresGood s h g < 32 then .next (bridgeDown s)
    else if used = false then .next s
    else
      let narrow := wide && decide (wiresGood s h g < 64)
      let s := s.fbump (CDB_ERRCNT1 h) CDB_ERRCNT1_REMAP_CNT 1
      .next (askRemap (raise s h (evt 9 (if narrow then 1 else 0) g w)) h g)

/-- A write of CDB_WMAP (R173): wires return to service and the group widens again by a remap. -/
def wmapWrite (s : State) (h : Half) (g k : Nat) (v : Word) : State :=
  let a := CDB_WMAP h g k
  let old := wiresGood s h g
  let s := grpStat (s.wr a (s.rd a &&& ~~~ v)) h g
  if wiresGood s h g = old ∨ s.phase h = phRETRAIN ∨ s.phase h = phSPLIT then s else askRemap s h g

/-- WIRE_RETURN (R173). -/
def execWireReturn (m : Master) (h : Half) (g : BitVec 3) (w : BitVec 7) (s : State) : Host.Outcome State Fault Refusal :=
  let k := w.toNat / 32
  if 66 ≤ w.toNat then .next s
  else .next (csGate s m (CDB_WMAP h g.toNat k) fun s => wmapWrite s h g.toNat k (BitVec.ofNat 32 (2 ^ (w.toNat % 32))))

/-- WIRE_REMAP_DONE (R171, R173): the group of half h's receive direction runs on its new wires; unacknowledged flits are
replayed. -/
def execWireRemapDone (h : Half) (g : BitVec 3) (s : State) : Host.Outcome State Fault Refusal :=
  let o := h.other
  let x := bgrp s o g.toNat
  if x.remap then .next (putBgrp s o g.toNat { x with remap := false, pos := 0, map := wmapNat s h g.toNat }) else .next s

/-- What West withdrew is asked for again in a later Transit, if its wires still ask for it (R174).
[log 143, DEDUCED] -/
def remapBoundary (s : State) : State :=
  (List.range 8).foldl (fun s g =>
    let x := bgrp s .east g
    match x.want with
    | none => s
    | some t =>
      if s.tn .west ≤ t ∨ (bgrp s .west g).remap then s
      else putBgrp s .east g { x with want := none, remap := x.remap || decide (wmapNat s .west g ≠ x.map) }) s

/-- DOZE_ENTER (R177): half h's transmitter of group g has had no cell to send, no unacknowledged flit and no change of XOFF to
send for DOZE_IDLE × 8 ns. -/
def execDozeEnter (h : Half) (g : BitVec 3) (s : State) : Host.Outcome State Fault Refusal :=
  let x := bgrp s h g.toNat
  let quiet := x.wait.isEmpty && x.replay.isEmpty && (s.cdb.get h).xoffTx == (s.cdb.get h.other).xoffRx
  if s.flag (CDB_CTL h) CDB_CTL_DOZE_EN && quiet && !x.remap && grpWidth s h.other g.toNat != 2
      && decide (x.idle + 8 * max 1 (s.fget (CDB_CTL h) CDB_CTL_DOZE_IDLE) ≤ s.now h) then
    .next (s.fset (CDB_STAT h) CDB_STAT_DOZE (s.fget (CDB_STAT h) CDB_STAT_DOZE ||| 2 ^ g.toNat))
  else .next s

/-- DOZE_EXIT (R178): half h's transmitter of group g leaves Doze when it has something to send. -/
def execDozeExit (h : Half) (g : BitVec 3) (s : State) : Host.Outcome State Fault Refusal :=
  .next (if hasCause s h g.toNat then dozeLeave s h g.toNat else s)

/-- A dropped snoop copy is sent again (R253). -/
def resendSnoop (s : State) (h : Half) (k d : Nat) : State :=
  match txnOf s h k with
  | none => s
  | some t =>
    originate s h 30 (snoopMsg s h k t.snp d [d])
def resendAll (s : State) (h : Half) : State :=
  let l := (s.cdb.get h).resend
  l.foldl (fun s e => resendSnoop s h e.1 e.2) (s.modCdb h fun b => { b with resend := [] })

/-- The groups run on the wires that trained. -/
def mapAll (s : State) : State :=
  (List.range 8).foldl (fun s g =>
    putBgrp (putBgrp s .east g { bgrp s .east g with map := wmapNat s .west g }) .west g
      { bgrp s .west g with map := wmapNat s .east g }) s

/-- BRIDGE_RETRAINED (R182, R253, R261): every group trained within 15 µs of going down; traffic resumes.
[log 4, DESIGN CHOICE] -/
def execBridgeRetrained (s : State) : Host.Outcome State Fault Refusal :=
  let e := s.cdb.get .east
  if s.phase .east = phRETRAIN ∧ bridgeTrains s ∧ s.now .east ≤ (e.downAt.getD 0) + 15000 then
    let s := mapAll (setPhase s phUP)
    let f (h : Half) (b : Cdb) : Cdb :=
      { b with downAt := none, resync := s.flag (CDB_STAT h) CDB_STAT_MIRROR_UNPROT || !b.regions.isEmpty }
    .next (resendAll (resendAll ((s.modCdb .east (f .east)).modCdb .west (f .west)) .east) .west)
  else .next s

/-- Half h declares the split (R182, R184-R186, R188). -/
def splitHalf (s : State) (h : Half) : State :=
  let s := s.wr64 (CDB_SPLIT_AT_LO h) (s.now h)
  let s := s.fsetB (CDB_STAT h) CDB_STAT_ISLANDED (s.auth h != h)
  let s := s.fsets (OBS_STAT h) [(OBS_STAT_JOURNAL_OK, 0), (OBS_STAT_ACTING, 1)]
  let s := mirrorUnprot (raise s h (evt 9 3 0 0)) h
  catStat (splitCut (s.modCdb h fun b => { b with downAt := none }) h) h

/-- SPLIT_DECLARED (R182): 15 µs have passed since the bridge went down.
[log 2, DESIGN CHOICE] -/
def execSplitDeclared (s : State) : Host.Outcome State Fault Refusal :=
  if s.phase .east = phRETRAIN ∧ ((s.cdb.get .east).downAt.getD 0) + 15000 ≤ s.now .east then
    .next (splitHalf (splitHalf (setPhase s phSPLIT) .east) .west)
  else .next s

/-- The instant of the boundary that opened half h's Transit, in nanoseconds (R29). -/
def boundaryNs (s : State) (h : Half) : Nat := s.tn h * 1000

/-- CROSSING_QUARANTINE_EXPIRY (R181): entries of half h whose quarantine is over at the boundary become free. -/
def execCrossingQuarantineExpiry (h : Half) (s : State) : Host.Outcome State Fault Refusal :=
  let w := 2 * toNs (s.fget (CDB_CTL h) CDB_CTL_XQ)
  .next (s.modCdb h fun b => { b with cross := mmapOpt b.cross fun _ e => match e.quar with
    | some t => if t + w ≤ boundaryNs s h then none else some e
    | none => some e })

/-- A rejoin attempt of both halves begins at a boundary (R190). -/
def attemptStart (s : State) : State :=
  if s.phase .east = phSPLIT then
    let f (h : Half) (b : Cdb) : Cdb := { b with attempt := some (s.now h), attemptReq := false }
    (s.modCdb .east (f .east)).modCdb .west (f .west)
  else s

/-- A requested attempt starts at the next boundary (R190). -/
def rejoinBoundary (s : State) : State :=
  if (s.cdb.get .east).attemptReq || (s.cdb.get .west).attemptReq then
    let f (b : Cdb) : Cdb := { b with attemptReq := false }
    attemptStart ((s.modCdb .east f).modCdb .west f)
  else s

/-- A write of CDB_CTL (R190). -/
def cdbCtlWrite (s : State) (h : Half) (v : Word) : State :=
  let s := s.wr (CDB_CTL h) (v &&& 0xFFFF3)
  if bitB v.toNat 2 then s.modCdb h fun b => { b with attemptReq := true } else s

/-- REJOIN_REQUEST (R190): a write of CDB_CTL with REJOIN 1 and the rest unchanged. -/
def execRejoinRequest (m : Master) (h : Half) (s : State) : Host.Outcome State Fault Refusal :=
  .next (csGate s m (CDB_CTL h) fun s => cdbCtlWrite s h (s.rd (CDB_CTL h) ||| 4))

/-- REJOIN_AUTO_ATTEMPT (R190): at a boundary whose TN is a multiple of 100,000, with REJOIN_AUTO set in half h. -/
def execRejoinAutoAttempt (h : Half) (s : State) : Host.Outcome State Fault Refusal :=
  if s.tn h % 100000 = 0 ∧ s.flag (CDB_CTL h) CDB_CTL_REJOIN_AUTO then .next (attemptStart s) else .next s

/-- The half without authority during a split. -/
def islanded (s : State) : Half := (s.auth .east).other

/-- REJOIN_TRAINED (R190, R191): an attempt trains every group within 15 µs; LOCK begins, and the Islanded half slews toward
the authority half. -/
def execRejoinTrained (s : State) : Host.Outcome State Fault Refusal :=
  match (s.cdb.get .east).attempt with
  | none => .next s
  | some t0 =>
    if s.phase .east = phSPLIT ∧ bridgeTrains s ∧ s.now .east ≤ t0 + 15000 then
      let f (b : Cdb) : Cdb := { b with attempt := none }
      let s := mapAll (setPhase ((s.modCdb .east f).modCdb .west f) phLOCK)
      let i := islanded s
      let e := (s.mer i : Int) - s.mer i.other
      .next (s.modMrd i fun r => { r with phaseErr := e })
    else .next s

/-- The difference of the two Meridians in units of 2^-16 ns. -/
def merApart (s : State) : Nat := ((s.mer .east : Int) - s.mer .west).natAbs

/-- REJOIN_LOCK_DONE (R191): the Meridians differ by at most 2 ns; SYNC begins. -/
def execRejoinLockDone (s : State) : Host.Outcome State Fault Refusal :=
  if s.phase .east = phLOCK ∧ merApart s ≤ 2 * nsU then
    let f (h : Half) (b : Cdb) : Cdb := { b with lockEnd := some (s.now h) }
    .next (setPhase ((s.modCdb .east (f .east)).modCdb .west (f .west)) phSYNC)
  else .next s

/-- The Islanded half takes the authority half's device-wide tables (R191, R314). -/
def syncTake (s : State) (i : Half) : State :=
  let a := i.other
  let s := { s with binds := s.binds.set i (s.binds.get a) }
  let s := putPage (putPage s (UMP_ACTIVE i 0 0) (pageWords s (UMP_ACTIVE a 0 0))) (UMP_RULE i 0 0) (pageWords s (UMP_RULE a 0 0))
  let s := (List.range 8).foldl (fun s k => s.wr (UMP_GSTAGE i k) (s.rd (UMP_GSTAGE a k))) s
  let s := s.fset (UMP_GEN i) UMP_GEN_GEN (s.gen a)
  bindAllRegs (setLive (setBad s i) i) i

/-- SYNC ends at the first boundary at least 10 µs after LOCK ended (R191): the tables are taken, mirror resynchronisation
starts, and RECONCILE begins. -/
def syncBoundary (s : State) (h : Half) : State :=
  if s.phase h = phSYNC ∧ s.auth h = h ∧ ((s.cdb.get h).lockEnd.getD 0) + 10000 ≤ boundaryNs s h then
    let f (b : Cdb) : Cdb := { b with resync := true }
    let s := syncTake s h.other
    let s := setPhase ((s.modCdb .east f).modCdb .west f) phRECONCILE
    reconcileAll (reconcileAll s .east) .west
  else s

/-- While RECONCILE lasts, a line that was locked when it began is snooped at the first boundary that finds it unlocked (R191). -/
def reconcileOn (s : State) (h : Half) : State := if s.phase h = phRECONCILE then reconcileAll s h else s

/-- REJOIN_RECONCILED (R191): CDB_QLINES is 0 in both halves; UP follows at the next boundary. -/
def execRejoinReconciled (s : State) : Host.Outcome State Fault Refusal :=
  if s.phase .east = phRECONCILE ∧ s.fget (CDB_QLINES .east) CDB_QLINES_QLINES = 0 ∧ s.fget (CDB_QLINES .west) CDB_QLINES_QLINES = 0 then
    let f (b : Cdb) : Cdb := { b with upNext := true }
    .next ((s.modCdb .east f).modCdb .west f)
  else .next s

/-- UP at a boundary (R191): traffic crosses again and ISLANDED clears. -/
def upBoundary (s : State) : State :=
  if (s.cdb.get .east).upNext then
    let f (b : Cdb) : Cdb := { b with upNext := false, lockEnd := none, upTn := some (max (s.tn .east) (s.tn .west)) }
    let s := setPhase ((s.modCdb .east f).modCdb .west f) phUP
    let s := (s.fset (OBS_STAT .east) OBS_STAT_ACTING 0).fset (OBS_STAT .west) OBS_STAT_ACTING 0
    raiseBoth ((s.fset (CDB_STAT .east) CDB_STAT_ISLANDED 0).fset (CDB_STAT .west) CDB_STAT_ISLANDED 0) (evt 9 7 0 0)
  else s

/-- Authority as the witness balls give it (R183): the half whose ball alone is high, else the half of PRIM_SEL. -/
def authOf (s : State) (e w : Bool) : Nat :=
  if e && !w then 0 else if w && !e then 1 else s.fget MRD_STRAP MRD_STRAP_PRIM_SEL
/-- AUTH follows the witness balls at a boundary while the bridge is UP (R183, R184).
[log 113, DEDUCED] -/
def authBoundary (s : State) (h : Half) (e w : Bool) : State :=
  if s.phase .east = phUP ∧ (s.cdb.get .east).upTn ≠ some (s.tn h) then
    (s.fset (CDB_STAT .east) CDB_STAT_AUTH (authOf s e w)).fset (CDB_STAT .west) CDB_STAT_AUTH (authOf s e w)
  else s

/-- MIRROR_RESYNC_DONE (R194): the recorded regions of half h have been copied.
[log 72, DEDUCED] -/
def execMirrorResyncDone (h : Half) (s : State) : Host.Outcome State Fault Refusal :=
  if (s.cdb.get h).resync = false then .next s
  else
    let s := (mirrorCopy s h).modCdb h fun b => { b with resync := false, regions := [] }
    if s.flag (CDB_STAT h) CDB_STAT_MIRROR_UNPROT then
      .next (raise (s.fset (CDB_STAT h) CDB_STAT_MIRROR_UNPROT 0) h (evt 9 5 0 0))
    else .next s

end Sys2Proof.Machine
end

