-- ==== Sys2Proof/Machine/Shutter.lean ====
section
/-! DEFINITION. The Shutter channels (spec 13): conversions and their integrators, trips, power good, retries, feeds,
ganging, metering, and power rows. -/

namespace Sys2Proof.Machine

open Sys2Proof

/-- SHT_STAT.STATE codes (R380). -/
def stOFF : Nat := 0
def stRAMP : Nat := 1
def stON : Nat := 2
def stSTOPPING : Nat := 3
def stRETRYWAIT : Nat := 4
def stLATCHED : Nat := 5
def stGFAULT : Nat := 6
def stFEEDWAIT : Nat := 7
def stFOLLOW : Nat := 8

/-- TRIP kinds; RSEQ and RWHY codes. -/
def tkFAST : Nat := 1
def tkI2T : Nat := 2
def tkSOA : Nat := 3
def tkRAMP : Nat := 4
def tkGATE : Nat := 5
def tkFEEDS : Nat := 6
def tkSHORT : Nat := 7
def rsRUNNING : Nat := 1
def rsCOMPLETED : Nat := 2
def rsABORTED : Nat := 3
def rwSTOP : Nat := 0
def rwOFF : Nat := 1
def rwEXHAUSTED : Nat := 2
def rwFAULT : Nat := 3

/-- A setting's word in force for channel c: what the last boundary took, its reset value before the first (R405). -/
def shtForce (s : State) (c a : Nat) : Word :=
  let off := a - SHT_CTL c
  match mfind (s.chan c).force off with
  | some w => w
  | none => resetWord a
def shtSet (s : State) (c a : Nat) (f : Fld) : Nat := fldGet (shtForce s c a) f

/-- Is channel c the follower of a gang, and its leader (R399)? -/
def ganged (s : State) (l : Nat) : Bool := l % 2 == 0 && shtSet s l (SHT_CTL l) SHT_CTL_GANG == 1
def follower (s : State) (c : Nat) : Bool := c % 2 == 1 && ganged s (c - 1)
def leaderOf (s : State) (c : Nat) : Nat := if follower s c then c - 1 else c

/-- The main state of channel c. -/
def shtState (s : State) (c : Nat) : Nat := s.fget (SHT_STAT c) SHT_STAT_STATE

/-- Is QH commanded on, in the states in which the breaker and the fast trip act (R388)? -/
def shtArmed (st : Nat) : Bool := st == stRAMP || st == stON || st == stSTOPPING

/-- PRT_SLOT_STAT.PWR of the channel's port: power is commanded on (spec 07). -/
def pwrStat (s : State) (c : Nat) : State :=
  let st := shtState s (leaderOf s c)
  s.fsetB (PRT_SLOT_STAT c) PRT_SLOT_STAT_PWR (st == stRAMP || st == stON || st == stRETRYWAIT || st == stFEEDWAIT)

/-- Put a channel in a state; its follower goes along. -/
def setSht (s : State) (l st : Nat) : State :=
  let s := pwrStat (s.fset (SHT_STAT l) SHT_STAT_STATE st) l
  if ganged s l then pwrStat (s.fset (SHT_STAT (l + 1)) SHT_STAT_STATE stFOLLOW) (l + 1) else s

/-- The channels that share a leader's state: itself, and its follower. -/
def gangOf (s : State) (l : Nat) : List Nat := if ganged s l then [l, l + 1] else [l]

/-- SLOT_PERST_L[p] goes low or high (R214). -/
def setPerst (s : State) (p : Nat) (low : Bool) : State := s.fsetB (PRT_SLOT_STAT p) PRT_SLOT_STAT_PERST low

/-- Power good of a leader clears (R392): its slots' PERST is low and PCLK follows. -/
def pgClear (s : State) (l : Nat) : State :=
  let was := s.flag (SHT_STAT l) SHT_STAT_PG
  let s := (gangOf s l).foldl (fun s c =>
    let s := (s.fset (SHT_STAT c) SHT_STAT_PG 0).fset (PRT_SLOT_STAT c) PRT_SLOT_STAT_PG 0
    let s := (setPerst s c true).modMgt fun m => { m with pgAt := merase m.pgAt c }
    pclkStat s c) s
  if was then raise s (chanHalf l) (evt 24 1 l 0) else s

/-- Power good of a leader asserts (R391). -/
def pgSet (s : State) (l : Nat) : State :=
  let s := (gangOf s l).foldl (fun s c =>
    let s := (s.fset (SHT_STAT c) SHT_STAT_PG 1).fset (PRT_SLOT_STAT c) PRT_SLOT_STAT_PG 1
    let now := s.now (portHalf c)
    pclkStat (s.modMgt fun m => { m with pgAt := minsert m.pgAt c now }) c) s
  raise s (chanHalf l) (evt 24 0 l 0)

/-- A retry sequence ends (R394); an ABORTED one raises its event. -/
def seqEnd (s : State) (l rs why : Nat) : State :=
  if s.fget (SHT_STAT l) SHT_STAT_RSEQ ≠ rsRUNNING then s
  else
    let s := s.fset (SHT_STAT l) SHT_STAT_RSEQ rs
    let s := if rs = rsABORTED then s.fset (SHT_STAT l) SHT_STAT_RWHY why else s
    raise s (chanHalf l) (evt 26 (if rs = rsCOMPLETED then 1 else 2) l 0)

/-- A new ramp begins with RAMP_DONE and PGQ clear (R386, R391).
[log 103, DEDUCED] -/
def rampFresh (s : State) (l : Nat) : State := s.fsets (SHT_STAT l) [(SHT_STAT_RAMP_DONE, 0), (SHT_STAT_PGQ, 0)]

/-- Is a main feed good (R396)? -/
def feedGood (s : State) (c : Nat) : Bool := s.flag (SHT_STAT c) SHT_STAT_FEED_A_OK || s.flag (SHT_STAT c) SHT_STAT_FEED_B_OK

/-- Count a trip in the channel where it arose (R390, R399). -/
def tripCount (s : State) (c kind : Nat) : State :=
  let s := s.fset (SHT_STAT c) SHT_STAT_TRIP kind
  let s := match kind with
    | 1 => s.fbump (SHT_ERRCNT0 c) SHT_ERRCNT0_FAST_CNT 1
    | 2 => s.fbump (SHT_ERRCNT0 c) SHT_ERRCNT0_I2T_CNT 1
    | 3 => s.fbump (SHT_ERRCNT1 c) SHT_ERRCNT1_SOA_CNT 1
    | 4 => s.fbump (SHT_ERRCNT1 c) SHT_ERRCNT1_RAMP_CNT 1
    | 5 => s.fbump (SHT_ERRCNT2 c) SHT_ERRCNT2_GATE_CNT 1
    | 7 => (s.fbump (SHT_ERRCNT2 c) SHT_ERRCNT2_GATE_CNT 1).fset (SHT_STAT c) SHT_STAT_FET_SHORT 1
    | _ => s
  let s := tally (raise s (chanHalf c) (evt 23 kind c 0)) (chanHalf c) 8 1 c 1
  if kind = tkGATE then raise s (chanHalf c) (evt 27 0 c 0) else if kind = tkSHORT then raise s (chanHalf c) (evt 27 1 c 0) else s

/-- Retries exhausted or disabled (R393). -/
def latchOff (s : State) (l : Nat) : State := raise (setSht (seqEnd s l rsABORTED rwEXHAUSTED) l stLATCHED) (chanHalf l) (evt 26 3 l 0)

/-- The attempt's duration D in whole Transits, rounded up and at least 1 (R393). -/
def attemptLen (s : State) (l : Nat) : Nat := max 1 ((s.now (chanHalf l) - (s.chan l).rampAt + 999) / 1000)

/-- A retry sequence starts or goes on (R393). -/
def retryWait (s : State) (l : Nat) : State :=
  if shtSet s l (SHT_CTL l) SHT_CTL_RETRY_EN = 0 then latchOff s l
  else
    let s := if s.fget (SHT_STAT l) SHT_STAT_RSEQ = rsRUNNING then s
      else s.fsets (SHT_STAT l) [(SHT_STAT_RSEQ, rsRUNNING), (SHT_STAT_RWHY, 0), (SHT_STAT_TOO_LATE, 0)]
    if s.fget (SHT_STAT l) SHT_STAT_ATTEMPT = 15 then latchOff s l
    else
      let d := attemptLen s l
      setSht (s.modChan l fun x => { x with waitTo := x.rampAt + 64 * d * 1000 }) l stRETRYWAIT

/-- A trip that arose in channel c (R390, R393, R396, R387): its leader acts on it. -/
def shtTrip (s : State) (c kind : Nat) : State :=
  let l := leaderOf s c
  let st := shtState s l
  let s := pgClear (tripCount s c kind) l
  if kind = tkSHORT then setSht (seqEnd s l rsABORTED rwFAULT) l stGFAULT
  else if st = stSTOPPING then setSht s l stOFF
  else if kind = tkGATE then setSht (seqEnd s l rsABORTED rwFAULT) l stGFAULT
  else if kind = tkFEEDS then setSht s l stFEEDWAIT
  else retryWait s l

/-- A ramp starts (R384): from its instant the slope and current loops drive the gate. With no good feed it trips at once
(R396).
[log 103, DEDUCED] -/
def rampStart (s : State) (l : Nat) : State :=
  let now := s.now (chanHalf l)
  let s := (gangOf s l).foldl (fun s c => s.modChan c fun x => { x with rampAt := now, early := false, reached := false }) s
  let s := setSht (rampFresh s l) l stRAMP
  if feedGood s l then s else shtTrip s l tkFEEDS

/-- An exact quotient whose rounding the spec does not state: either neighbour, by a free value.
[log 101, DESIGN CHOICE] -/
def rndDiv (s : State) (n : Int) (d : Nat) : Int × State :=
  if n % d = 0 then (n / d, s)
  else
    let r := s.draw
    (n / d + (r.1 % 2 : Nat), r.2)

/-- A calibrated reading: scaled by 1 + GAIN * 2^-20 (R401).
[log 101, DESIGN CHOICE] -/
def calibrated (s : State) (v : Int) (gain : Nat) : Int × State := rndDiv s (v * (2 ^ 20 + sx 16 gain)) (2 ^ 20)

/-- A number held to a code range (R400). -/
def clampTo (lo hi v : Int) : Int := max lo (min hi v)

/-- The clamped codes of a conversion (R400): V_OUT, V_MID, V_A, V_B, I, V_X, I_X. -/
structure Codes where
  vout : Int
  vmid : Int
  va : Int
  vb : Int
  i : Int
  vx : Int
  ix : Int
  deriving DecidableEq, Repr

/-- A voltage code of channel c, clamped at `top`. -/
def voltCode (s : State) (c : Nat) (top : Int) (v : Nat) : Int × State :=
  let r := calibrated s v (shtSet s c (SHT_CAL c) SHT_CAL_VGAIN)
  (clampTo 0 top r.1, r.2)

/-- A current code: the shunt voltage over the shunt's resistance, clamped (R400). -/
def curCode (s : State) (c rsh : Nat) (lo hi v : Int) : Int × State :=
  let q := rndDiv s v rsh
  let r := calibrated q.2 q.1 (shtSet s c (SHT_CAL c) SHT_CAL_IGAIN)
  (clampTo lo hi r.1, r.2)

/-- The codes of a conversion. -/
def convCodes (s : State) (c : Nat) (x : Conv) : Codes × State :=
  let a := voltCode s c 1310720 x.vout
  let b := voltCode a.2 c 1310720 x.vmid
  let d := voltCode b.2 c 1310720 x.va
  let e := voltCode d.2 c 1310720 x.vb
  let f := voltCode e.2 c 327680 x.vx
  let rs := max 500 (shtSet s c (SHT_RSH c) SHT_RSH_RSH)
  let rx := max 8000 (shtSet s c (SHT_RSH c) SHT_RSH_AUX_RSH)
  let i := curCode f.2 c rs (-8388608) 8388607 x.sh
  let j := curCode i.2 c rx (-524288) 524287 x.xsh
  (⟨a.1, b.1, d.1, e.1, i.1, f.1, j.1⟩, j.2)

/-- PG_TH in percent, clamped (R386, R391); E_SOA, H_TRIP and I_NOM in the integrators' units (R385, R389). -/
def pgTh (s : State) (c : Nat) : Int := (max 50 (min 99 (shtSet s c (SHT_VTH c) SHT_VTH_PG_TH)) : Nat)
def soaMax (s : State) (c : Nat) : Nat := 10000 * 2 ^ 32 * max 1 (shtSet s c (SHT_SOA c) SHT_SOA_E_SOA)
def heatMax (s : State) (c : Nat) : Nat := 2 ^ 22 * 10000000 * shtSet s c (SHT_HTRIP c) SHT_HTRIP_H_TRIP
def nomCode (s : State) (c : Nat) : Int := (4096 * shtSet s c (SHT_BRK c) SHT_BRK_I_NOM : Nat)

/-- A channel's own sums after a conversion: the FET's energy and the energy accumulators (R385, R402).
[log 102, DEDUCED] -/
def integrate (s : State) (c : Nat) (k : Codes) (x : Chan) : Chan :=
  let e := min (soaMax s c) ((x.efet : Int) + (k.vmid - k.vout) * k.i).toNat
  let sums := (x.sums.zip [k.vout, k.vmid, k.va, k.vb, k.i, k.vout * k.i, k.vx, k.ix]).map fun p => p.1 + p.2
  { x with sums := sums, n := x.n + 1, cur := k.i, efet := e, accM := x.accM + k.vout * k.i, accX := x.accX + k.vx * k.ix }

/-- The current that a leader's breaker sees at a conversion (R389, R399): its own, and in a gang the sum of the two once both
channels of the pair have converted at this instant. -/
def brkCurrent (s : State) (l : Nat) : Option Int :=
  let x := s.chan l
  let y := s.chan (l + 1)
  if ganged s l = false then some x.cur else if x.n = y.n then some (x.cur + y.cur) else none

/-- The breaker of channel c's leader at a conversion of c (R389). -/
def brkStep (s : State) (c : Nat) : State :=
  let l := leaderOf s c
  match brkCurrent s l with
  | none => s
  | some b =>
    let nom := nomCode s l
    let top := heatMax s l
    s.modChan l fun x => { x with heat := min top ((x.heat : Int) + (b * b - nom * nom)).toNat, hot := x.hot || decide (nom < b) }

/-- RAMP_DONE sets (R386); before the Transit's last conversion it is set before the boundary instant (R391). Whether the output
has reached PG_TH percent of V_MID in this ramp is what its timeout asks. A feed's FET that was off in reverse is on again once the
feed is 25 mV above V_MID (R395).
[log 103, DEDUCED] -/
def rampDone (s : State) (c : Nat) (k : Codes) (x : Conv) : State :=
  let up := shtState s c == stRAMP && decide (pgTh s c * k.vmid ≤ 100 * k.vout)
  let done := s.flag (SHT_STAT c) SHT_STAT_RAMP_DONE || (up && x.vgs8)
  let s := s.fsetB (SHT_STAT c) SHT_STAT_RAMP_DONE done
  let back := (if 16384 ≤ 10 * (k.va - k.vmid) then [0] else []) ++ (if 16384 ≤ 10 * (k.vb - k.vmid) then [1] else [])
  s.modChan c fun y =>
    { y with early := y.early || (done && decide (y.n < 10)), reached := y.reached || up, rev := y.rev.filter fun f => !back.contains f }

/-- The trips that a conversion finds: the FET's budget, then the breaker (R385, R389, R390). -/
def convTrips (s : State) (c : Nat) : State :=
  let l := leaderOf s c
  if shtArmed (shtState s l) = false then s
  else if soaMax s c ≤ (s.chan c).efet then shtTrip s c tkSOA
  else if (brkCurrent s l).isSome ∧ heatMax s l ≤ (s.chan l).heat then shtTrip s l tkI2T
  else s

/-- SHUTTER_CONVERSION (R379): channel c converts.
[log 104, DESIGN CHOICE] -/
def execShutterConversion (c : BitVec 5) (x : Conv) (s : State) : Host.Outcome State Fault Refusal :=
  let c := c.toNat
  let r := convCodes s c x
  let y := integrate r.2 c r.1 (r.2.chan c)
  .next (convTrips (rampDone (brkStep (r.2.modChan c fun _ => y) c) c r.1 x) c)

/-- FAST_TRIP (R388): armed in RAMP, ON and STOPPING. -/
def execFastTrip (c : BitVec 5) (s : State) : Host.Outcome State Fault Refusal :=
  if shtArmed (shtState s (leaderOf s c.toNat)) then .next (shtTrip s c.toNat tkFAST) else .next s

/-- RAMP_TIMEOUT (R386): the output has not reached PG_TH within RAMP_TMO of the ramp's start.
[log 104, DESIGN CHOICE] -/
def execRampTimeout (c : BitVec 5) (s : State) : Host.Outcome State Fault Refusal :=
  let l := leaderOf s c.toNat
  let tmo := 100000 * max 1 (shtSet s l (SHT_RAMP l) SHT_RAMP_RAMP_TMO)
  if shtState s l = stRAMP ∧ (s.chan l).reached = false ∧ (s.chan l).rampAt + tmo ≤ s.now (chanHalf l) then
    .next (shtTrip s l tkRAMP)
  else .next s

/-- GATE_FAULT (R387): the gate will not rise while the driver supplies its ramp current.
[log 103, DEDUCED] -/
def execGateFault (c : BitVec 5) (s : State) : Host.Outcome State Fault Refusal :=
  if shtArmed (shtState s (leaderOf s c.toNat)) then .next (shtTrip s c.toNat tkGATE) else .next s

/-- Is the ORing FET of a main feed on: its feed is good, it conducts forward, and no FET short has turned it off (R387, R395,
R396)?
[log 103, DEDUCED] -/
def feedFet (s : State) (c feed : Nat) : Bool :=
  s.flag (SHT_STAT c) (if feed = 0 then SHT_STAT_FEED_A_OK else SHT_STAT_FEED_B_OK) && !s.flag (SHT_STAT c) SHT_STAT_FET_SHORT
    && !(s.chan c).rev.contains feed

/-- FET_SHORT (R387): from any state the channel goes to GFAULT, and FET_SHORT holds QA and QB off, so that its main feeds are
removed from VMID. -/
def execFetShort (c : BitVec 5) (s : State) : Host.Outcome State Fault Refusal :=
  if s.flag (SHT_STAT c.toNat) SHT_STAT_FET_SHORT then .next s else .next (shtTrip s c.toNat tkSHORT)

/-- A commanded off (R380, R392, R394): the gate turns off 10 µs after the boundary, and PERST is low from it (R214). -/
def mainOff (s : State) (l : Nat) : State :=
  let st := shtState s l
  let s := seqEnd s l rsABORTED rwOFF
  if st = stRAMP ∨ st = stON then
    let now := boundaryNs s (chanHalf l)
    let s := (gangOf s l).foldl (fun s c => setPerst s c true) s
    setSht (s.modChan l fun x => { x with stopAt := now }) l stSTOPPING
  else if st = stRETRYWAIT ∨ st = stFEEDWAIT ∨ st = stLATCHED then setSht s l stOFF
  else s

/-- STOP_GATE_OFF (R380, R392): 10 µs after the commanded off. -/
def execStopGateOff (c : BitVec 5) (s : State) : Host.Outcome State Fault Refusal :=
  let l := leaderOf s c.toNat
  if shtState s l = stSTOPPING ∧ (s.chan l).stopAt + 10000 ≤ s.now (chanHalf l) then
    .next (setSht (pgClear s l) l stOFF)
  else .next s

/-- RETRY_WAIT_EXPIRY (R393): a new ramp starts as the next attempt.
[log 3, DESIGN CHOICE] -/
def execRetryWaitExpiry (c : BitVec 5) (s : State) : Host.Outcome State Fault Refusal :=
  let l := leaderOf s c.toNat
  if shtState s l = stRETRYWAIT ∧ (s.chan l).waitTo ≤ s.now (chanHalf l) then
    let s := s.fset (SHT_STAT l) SHT_STAT_ATTEMPT (s.fget (SHT_STAT l) SHT_STAT_ATTEMPT + 1)
    let s := raise (s.fbump (SHT_ERRCNT2 l) SHT_ERRCNT2_RETRY_CNT 1) (chanHalf l) (evt 26 0 l 0)
    .next (rampStart s l)
  else .next s

/-- ATTEMPT_RESET (R393): power good has held for one second. -/
def execAttemptReset (c : BitVec 5) (s : State) : Host.Outcome State Fault Refusal :=
  let l := leaderOf s c.toNat
  match mfind s.mgt.pgAt l with
  | some t => if t + 1000000000 ≤ s.now (portHalf l) then .next (s.fset (SHT_STAT l) SHT_STAT_ATTEMPT 0) else .next s
  | none => .next s

/-- REVERSE_TURN_OFF (R395): the FET of a feed 10 mV below V_MID turns off, until a conversion finds the feed 25 mV above. -/
def execReverseTurnOff (c : BitVec 5) (feed : BitVec 1) (s : State) : Host.Outcome State Fault Refusal :=
  let f := feed.toNat
  if s.flag (SHT_STAT c.toNat) (if f = 0 then SHT_STAT_FEED_A_OK else SHT_STAT_FEED_B_OK)
      ∧ s.flag (SHT_STAT c.toNat) SHT_STAT_FET_SHORT = false then
    .next ((s.fbump (SHT_ERRCNT3 c.toNat) SHT_ERRCNT3_REV_CNT 1).modChan c.toNat fun x => { x with rev := f :: x.rev.filter fun y => y ≠ f })
  else .next s

/-- FEED_BAD (R396): with no feed good in RAMP or ON the channel trips with kind FEEDS. -/
def execFeedBad (c : BitVec 5) (feed : BitVec 1) (s : State) : Host.Outcome State Fault Refusal :=
  let c := c.toNat
  let f := if feed = 0 then SHT_STAT_FEED_A_OK else SHT_STAT_FEED_B_OK
  if s.flag (SHT_STAT c) f = false then .next s
  else
    let s := raise (s.fset (SHT_STAT c) f 0) (chanHalf c) (evt 25 (2 * feed.toNat) c 0)
    let st := shtState s (leaderOf s c)
    if feedGood s c = false ∧ (st = stRAMP ∨ st = stON) then .next (shtTrip s c tkFEEDS) else .next s

/-- FEED_GOOD (R396): a channel in FEED_WAIT ramps again under AUTO_FEED, else it is OFF. -/
def execFeedGood (c : BitVec 5) (feed : BitVec 1) (s : State) : Host.Outcome State Fault Refusal :=
  let c := c.toNat
  let f := if feed = 0 then SHT_STAT_FEED_A_OK else SHT_STAT_FEED_B_OK
  if s.flag (SHT_STAT c) f then .next s
  else
    let s := raise (s.fset (SHT_STAT c) f 1) (chanHalf c) (evt 25 (2 * feed.toNat + 1) c 0)
    let l := leaderOf s c
    if shtState s l ≠ stFEEDWAIT ∨ (gangOf s l).any (fun c => !feedGood s c) then .next s
    else if shtSet s l (SHT_CTL l) SHT_CTL_AUTO_FEED = 1 then .next (rampStart s l)
    else .next (setSht s l stOFF)

/-- Is an auxiliary feed known good, and mark it (R397).
[log 104, DESIGN CHOICE] -/
def auxGood (s : State) (c feed : Nat) : Bool := if feed = 0 then (s.chan c).auxA else (s.chan c).auxB
def auxMark (s : State) (c feed : Nat) (ok : Bool) : State :=
  s.modChan c fun x => if feed = 0 then { x with auxA := ok } else { x with auxB := ok }

/-- The auxiliary output is supplied by a feed, or by none. -/
def auxUse (s : State) (c feed : Nat) : State := s.fsets (SHT_STAT c) [(SHT_STAT_AUX_SRC, feed), (SHT_STAT_AUX_OK, 1)]
def auxPref (s : State) (c : Nat) : Nat := shtSet s c (SHT_CTL c) SHT_CTL_AUX_PREF

/-- The auxiliary output turns on (R397): the preferred feed, the other where it is not good, none where neither is. -/
def auxOn (s : State) (c : Nat) : State :=
  let s := s.fset (SHT_STAT c) SHT_STAT_AUX_ON 1
  let p := auxPref s c
  if s.flag (SHT_STAT c) SHT_STAT_AUX_OK then s
  else if auxGood s c p then auxUse s c p
  else if auxGood s c (1 - p) then auxUse s c (1 - p)
  else s

/-- AUX_SWITCHOVER (R397): the feed in use has been below AUX_UV for 2 µs; `good`: the other feed is good. -/
def execAuxSwitchover (c : BitVec 5) (good : Bool) (s : State) : Host.Outcome State Fault Refusal :=
  let c := c.toNat
  let src := s.fget (SHT_STAT c) SHT_STAT_AUX_SRC
  if s.flag (SHT_STAT c) SHT_STAT_AUX_OK = false then .next s
  else
    let s := auxMark (auxMark s c src false) c (1 - src) good
    if good then
      .next (raise (auxUse (s.fbump (SHT_ERRCNT3 c) SHT_ERRCNT3_AUXSW_CNT 1) c (1 - src)) (chanHalf c) (evt 25 4 c 0))
    else .next (raise (s.fset (SHT_STAT c) SHT_STAT_AUX_OK 0) (chanHalf c) (evt 25 5 c 0))

/-- AUX_RETURN (R397): the preferred feed has been good for AUX_RET milliseconds. -/
def execAuxReturn (c : BitVec 5) (s : State) : Host.Outcome State Fault Refusal :=
  let c := c.toNat
  let p := auxPref s c
  if s.flag (SHT_STAT c) SHT_STAT_AUX_OK ∧ s.fget (SHT_STAT c) SHT_STAT_AUX_SRC ≠ p then
    let s := (auxMark s c p true).fbump (SHT_ERRCNT3 c) SHT_ERRCNT3_AUXSW_CNT 1
    .next (raise (auxUse s c p) (chanHalf c) (evt 25 4 c 0))
  else .next s

/-- AUXILIARY_FEED_GOOD (R397): the first feed that becomes good supplies an output that no feed supplies. -/
def execAuxiliaryFeedGood (c : BitVec 5) (feed : BitVec 1) (s : State) : Host.Outcome State Fault Refusal :=
  let c := c.toNat
  let s := auxMark s c feed.toNat true
  if s.flag (SHT_STAT c) SHT_STAT_AUX_ON ∧ s.flag (SHT_STAT c) SHT_STAT_AUX_OK = false then .next (auxUse s c feed.toNat)
  else .next s

/-- The auxiliary output turns off. -/
def auxOff (s : State) (c : Nat) : State := s.fsets (SHT_STAT c) [(SHT_STAT_AUX_ON, 0), (SHT_STAT_AUX_OK, 0)]

/-- AUX_FAST_TRIP (R398). -/
def execAuxFastTrip (c : BitVec 5) (s : State) : Host.Outcome State Fault Refusal :=
  if s.flag (SHT_STAT c.toNat) SHT_STAT_AUX_OK then .next (raise (auxOff s c.toNat) (chanHalf c.toNat) (evt 25 6 c.toNat 0))
  else .next s

/-- A 128-bit two's complement value as four words, low word first. -/
def words128 (v : Int) : List Word :=
  let n := (v % 2 ^ 128).toNat
  (List.range 4).map fun i => BitVec.ofNat 32 (n / 2 ^ (32 * i))

/-- A snapshot of both accumulators as they stood at the last boundary (R403). -/
def energySnap (s : State) (c : Nat) : State :=
  s.wrWords (SHT_E c 0) (words128 (s.chan c).accMB ++ words128 (s.chan c).accXB)

/-- ENERGY_SNAPSHOT (R403). -/
def execEnergySnapshot (m : Master) (c : BitVec 5) (s : State) : Host.Outcome State Fault Refusal :=
  .next (csGate s m (SHT_ESNAP c.toNat) fun s => energySnap s c.toNat)

/-- SHUTTER_LINK_LOST, SHUTTER_LINK_RESTORED (R406). -/
def execShutterLinkLost (h : Half) (s : State) : Host.Outcome State Fault Refusal :=
  let l := if s.dome.linkLost.contains h.idx then s.dome.linkLost else h.idx :: s.dome.linkLost
  .next { s with dome := { s.dome with linkLost := l } }
def execShutterLinkRestored (h : Half) (s : State) : Host.Outcome State Fault Refusal :=
  .next { s with dome := { s.dome with linkLost := s.dome.linkLost.filter fun x => x ≠ h.idx } }

/-- May the settings of a channel be written (R405)?
[log 104, DESIGN CHOICE] -/
def shtFree (s : State) (c : Nat) : Bool :=
  let st := shtState s c
  st == stOFF || st == stLATCHED || st == stGFAULT

/-- A write of a setting of channel c at offset `off` (R399, R405): GANG is an even channel's and needs both channels free. -/
def shtWrite (s : State) (c off : Nat) (v : Word) : State :=
  let a := SHT_CTL c + off
  let gang := off = 0 ∧ c % 2 = 0 ∧ (fldGet v SHT_CTL_GANG = 1) ≠ s.flag a SHT_CTL_GANG
  match descAt a with
  | none => s
  | some d =>
    if off = 0x28 then plainWrite s d a v
    else if shtFree s c = false ∨ (gang ∧ fldGet v SHT_CTL_GANG = 1 ∧ shtFree s (c + 1) = false) then
      writeDiscarded s (chanHalf c) a
    else plainWrite s d a (if off = 0 ∧ c % 2 = 1 then v &&& ~~~ fldMask SHT_CTL_GANG else v)

/-- The settings come into force at a boundary (R405); a gang forms or ends with its leader's setting (R399). -/
def shtTake (s : State) (c : Nat) : State :=
  let was := ganged s c
  let l := [0x00, 0x08, 0x0C, 0x10, 0x14, 0x18, 0x1C, 0x20, 0x24, 0x28].map fun o => (o, s.rd (SHT_CTL c + o))
  let s := s.modChan c fun x => { x with force := l }
  if ganged s c = was then s
  else if ganged s c then setSht s c (shtState s c)
  else pwrStat (s.fset (SHT_STAT (c + 1)) SHT_STAT_STATE stOFF) (c + 1)

/-- A mean of the Transit's conversions; the rounding is a free value.
[log 101, DESIGN CHOICE] -/
def meanOf (s : State) (c k d : Nat) : Int × State := rndDiv s ((s.chan c).sums.getD k 0) ((s.chan c).n * d)

/-- Put SHT_M(k). -/
def putM (s : State) (c k : Nat) (v : Int) : State := s.wr (SHT_M c k) (wordOfInt v)

/-- SHT_M(0-7) take the means of the Transit's conversions (R379, R400); a Transit with none keeps them. -/
def meterStat (s : State) (c : Nat) : State :=
  if (s.chan c).n = 0 then s
  else (List.range 8).foldl (fun s k =>
    let r := meanOf s c k (if k = 5 then 2 ^ 16 else 1)
    putM r.2 c k r.1) s

/-- SHT_M(8) and SHT_M(9): H and E_FET as they stand. -/
def integStat (s : State) (c : Nat) : State :=
  let h := rndDiv s ((s.chan c).heat : Int) (2 ^ 22 * 10000000)
  let e := rndDiv h.2 ((s.chan c).efet : Int) (10 * 2 ^ 32)
  putM (putM e.2 c 8 h.1) c 9 e.1

/-- The breaker timer of a channel at a boundary (R389): its leader's in a gang. -/
def brkRuns (s : State) (c : Nat) : Bool := decide (0 < (s.chan c).heat) || (s.chan c).hot

/-- The sample record that the boundary strobe delivers (R379).
[log 102, DEDUCED] -/
def sampleTake (s : State) (c : Nat) : State :=
  let s := integStat (meterStat s c) c
  let s := s.fsetB (SHT_STAT c) SHT_STAT_BRK_RUN (brkRuns s (leaderOf s c))
  let rec_ := (List.range 10).map (fun k => s.rd (SHT_M c k)) ++ [s.rd (SHT_STAT c), BitVec.ofNat 32 (s.fget (PRT_SLOT_STAT c) PRT_SLOT_STAT_PRSNT)]
  let lost := s.dome.linkLost.contains (chanHalf c).idx
  s.modChan c fun x => if lost then x else { x with smp := rec_ }

/-- Does the record qualify (R391)? -/
def qualifies (s : State) (c : Nat) : Bool :=
  shtState s c == stRAMP && (s.chan c).early && !brkRuns s c
    && decide (pgTh s c * (s.rd (SHT_M c 1)).toInt ≤ 100 * (s.rd (SHT_M c 0)).toInt)

/-- Power-good qualification (R391): eight records in a row assert PG, which completes a retry sequence (R394). -/
def pgQualify (s : State) (c : Nat) : State :=
  if follower s c then s
  else if qualifies s c = false then s.fset (SHT_STAT c) SHT_STAT_PGQ 0
  else
    let q := s.fget (SHT_STAT c) SHT_STAT_PGQ + 1
    let s := s.fset (SHT_STAT c) SHT_STAT_PGQ q
    if q < 8 then s else seqEnd (setSht (pgSet s c) c stON) c rsCOMPLETED 0

/-- The Transit's sums start again, and E_FET cools (R385, R402).
[log 102, DEDUCED] -/
def chanTurn (s : State) (c : Nat) : State :=
  let cool := 10 * 2 ^ 32 * shtSet s c (SHT_SOA c) SHT_SOA_E_COOL
  let d := s.flag (SHT_STAT c) SHT_STAT_RAMP_DONE
  s.modChan c fun x =>
    { x with sums := [0, 0, 0, 0, 0, 0, 0, 0], n := 0, hot := false, early := d, efet := x.efet - cool, accMB := x.accM, accXB := x.accX }

/-- A channel's record at its half's boundary, with its per-Transit power weight (R379, R436). -/
def chanRecord (s : State) (c : Nat) : State :=
  let s := sampleTake s c
  tally s (chanHalf c) 8 0 c ((s.rd (SHT_M c 5)).toInt / 65536).toNat

/-- Every channel of a half at its boundary, before power rows (R383): all records, then power good on them, then the settings. -/
def shutterBoundary (s : State) (h : Half) : State :=
  let each (f : State → Nat → State) (s : State) : State := (List.range 16).foldl (fun s i => f s (16 * h.idx + i)) s
  each shtTake (each chanTurn (each pgQualify (each chanRecord s)))

/-- Check a power row of channel c at half h's seal (R382). -/
def shtCheck (s : State) (h : Half) (c : Nat) (ws : List Word) : Option Nat :=
  let op := rowW ws 0 / 2 ^ 28
  let st := shtState s c
  let pr := op == 1 || op == 3
  firstFail [(stLIMIT, decide (1 ≤ op) && decide (op ≤ 6)), (stNO_TARGET, decide (chanHalf c = h) && !follower s c),
    (stNO_TARGET, !pr || s.flag (PRT_SLOT_STAT c) PRT_SLOT_STAT_PRSNT),
    (stBUSY, op != 1 || st == stOFF || st == stLATCHED),
    (stNO_TARGET, op != 5 || s.fget (SHT_STAT c) SHT_STAT_RSEQ == rsRUNNING),
    (stNO_TARGET, op != 6 || st == stGFAULT)]

/-- STOP_RETRY applies (R394): the channel is OFF, unless the sequence completed at this boundary, when it is too late. -/
def stopRetry (s : State) (c : Nat) : State :=
  if s.fget (SHT_STAT c) SHT_STAT_RSEQ = rsRUNNING then setSht (seqEnd s c rsABORTED rwSTOP) c stOFF
  else if s.fget (SHT_STAT c) SHT_STAT_RSEQ = rsCOMPLETED then s.fset (SHT_STAT c) SHT_STAT_TOO_LATE 1
  else s

/-- A power row applies (R382, R384, R397).
[log 103, DEDUCED] -/
def shtApply (s : State) (c : Nat) (ws : List Word) : State :=
  let st := shtState s c
  if follower s c then s else
  match rowW ws 0 / 2 ^ 28 with
  | 1 => if st = stOFF then rampStart s c
         else if st = stLATCHED then rampStart (s.fset (SHT_STAT c) SHT_STAT_ATTEMPT 0) c
         else s
  | 2 => mainOff s c
  | 3 => auxOn s c
  | 4 => auxOff s c
  | 5 => stopRetry s c
  | 6 => if st = stGFAULT then
           setSht ((gangOf s c).foldl (fun s i => s.fset (SHT_STAT i) SHT_STAT_FET_SHORT 0) s) c stOFF
         else s
  | _ => s

end Sys2Proof.Machine
end

