-- ==== Sys2Proof/Machine/HotPlug.lean ====
section
/-! DEFINITION. Hot plug (spec 07): presence, PERST, slot power from a host, surprise removal (R211-R216), and what the
Observer needs to serve a CCI: which cluster serves, background operations, staged rows (R206, R213, R472-R475, R484). -/

namespace Sys2Proof.Machine

open Sys2Proof

/-- The half whose Observer cluster is primary (R472); the half with authority where neither is yet. -/
def obsPrimary (s : State) : Half :=
  if s.flag (OBS_STAT .east) OBS_STAT_ROLE then .east
  else if s.flag (OBS_STAT .west) OBS_STAT_ROLE then .west
  else s.auth .east

/-- The tenant with FM_CCI set, if any. -/
def fmCciTenant (s : State) : Option Nat := (List.range 64).find? fun t => s.flag (SF_TEN_CTL t) SF_TEN_CTL_FM_CCI

/-- The half of a tenant's upstream sub-port; of its block while it has none. -/
def uspHalf (s : State) (t : Nat) : Half :=
  match mfind (s.binds.get (tenantHalf t)).usp t with
  | some d => nodeHalf d
  | none => tenantHalf t

/-- CCIs by number: 0 and 1 the I3C buses, 2 the mailbox and 3 the VDM binding of the FM_CCI tenant, 4 + t tenant t's own
(R479, R480). The tenant through whose upstream sub-port an in-band one comes, and its class of R482. -/
def cciTenant (s : State) (cci : Nat) : Option Nat :=
  if cci < 2 then none else if cci < 4 then fmCciTenant s else some ((cci - 4) % 64)
def cciClass (cci : Nat) : Nat := if cci < 4 then 0 else 3 + (cci - 4) % 64

/-- The half whose cluster serves a CCI: the primary, and during a split the half of an in-band transport (R473, R475).
[log 92, PRESUMED] -/
def cciHalf (s : State) (cci : Nat) : Half :=
  let h := obsPrimary s
  if isSplit s h then
    match cciTenant s cci with
    | some t => uspHalf s t
    | none => h
  else h

/-- A request leaves its class queue (R484). -/
def clsTake (s : State) (h : Half) (c : Nat) : State :=
  let n := s.fget (OBS_CLS_STAT h c) OBS_CLS_STAT_QUEUED
  s.fset (OBS_CLS_STAT h c) OBS_CLS_STAT_QUEUED (n - 1)

/-- A request of a CCI is answered: opcode, return code, then the CCI, the vendor-specific extended status, the data.
[log 59, DESIGN CHOICE; log 92, PRESUMED] -/
def cciAnswer (s : State) (cci code ret ext : Nat) (data : List Nat) : State :=
  (clsTake s (cciHalf s cci) (cciClass cci)).emit (.ans code ret (cci :: ext :: data))

/-- Extended status codes of R484 and R475. -/
def exBUSY : Nat := 2
def exSPLIT : Nat := 3

/-- May the cluster that serves a CCI reach these halves' registers (R475)? -/
def cciReach (s : State) (cci : Nat) (hs : List Half) : Bool :=
  let h := cciHalf s cci
  !isSplit s h || hs.all fun x => x == h

/-- Serve a request that needs the registers of some halves, or answer Busy with SPLIT (R475).
[log 92, PRESUMED] -/
def cciServe (s : State) (cci code : Nat) (hs : List Half) (f : State → State) : State :=
  if cciReach s cci hs then f s else cciAnswer s cci code rcBUSY exSPLIT []

/-- Start a background operation (R206): one at a time per CCI. -/
def bgStart (s : State) (cci : Nat) (hs : List Half) (o : BgOp) (f : State → State) : State :=
  cciServe s cci o.code hs fun s =>
    if (mfind s.mgt.bg cci).isSome then cciAnswer s cci o.code rcBUSY exBUSY []
    else
      let s := s.modMgt fun m => { m with bg := minsert m.bg cci o }
      f (cciAnswer s cci o.code rcSTARTED 0 [])

/-- Does a background operation, or a removal that waits, use the staged row at this address?
[log 87, DESIGN CHOICE] -/
def rowTaken (s : State) (addr : Nat) : Bool :=
  (s.mgt.bg.any fun e => e.2.rows.contains addr) || (s.mgt.managed.any fun e => e.2.2.1 == addr)
    || s.mgt.waitDown.any fun e => e.1 == addr

/-- The Observer writes a staged row: PENDING, CANCEL clear, with its TICKET.
[log 87, DESIGN CHOICE] -/
def stageRow (s : State) (addr : Nat) (ws : List Word) (ticket : Nat) : State :=
  let ws := (ws ++ List.replicate 8 0).take 8
  s.wrWords addr (ws.set 2 (BitVec.ofNat 32 (ticket % 65536)))

/-- The power row of a channel for an OP (R381), handed to the program of its half (R213). -/
def stagePower (s : State) (c op ticket : Nat) : State :=
  ringPost (stageRow s (SHT_PSTAGE c 0) [BitVec.ofNat 32 (op * 2 ^ 28)] ticket) (chanHalf c) [SHT_PSTAGE c 0]

/-- Opcode of Slot Power (R208).
[log 92, PRESUMED] -/
def opSLOTPWR : Nat := 0xC010

/-- SLOT_POWER (R208, R213, R216): powers a port's slot on or off; `tk` is the TICKET the Observer chooses. A slot without
presence fails its row's check, which ends the operation with Invalid Input.
[log 93, DEDUCED] -/
def execSlotPower (cci : Nat) (p : BitVec 5) (on : Bool) (tk : BitVec 16) (s : State) : Host.Outcome State Fault Refusal :=
  let c := p.toNat
  if rowTaken s (SHT_PSTAGE c 0) then .next (cciAnswer s cci opSLOTPWR rcBUSY exBUSY [])
  else
    .next (bgStart s cci [chanHalf c] ⟨opSLOTPWR, [SHT_PSTAGE c 0], 0, false, []⟩ fun s =>
      stagePower s c (if on then 1 else 2) tk.toNat)

/-- The ports whose slot owner is vPPB v of tenant t (R213). -/
def ownsSlot (s : State) (t v : Nat) : List Nat := (List.range 32).filter fun p => slotOwner s p == some (t, v)

/-- HOST_POWER_CONTROL_WRITE (R209, R213): `off` is Power Controller Control as the host writes it in Dn; `tk` the TICKET
that the Observer chooses for a power row. A removal that waits for this write goes on with 1.
[log 93, DEDUCED] -/
def execHostPowerControlWrite (t : BitVec 6) (v : BitVec 5) (off : Bool) (tk : BitVec 16) (s : State) :
    Host.Outcome State Fault Refusal :=
  let x := s.vp t.toNat v.toNat
  let s := s.setVp t.toNat v.toNat { x with off := off }
  let own := ownsSlot s t.toNat v.toNat
  let s := own.foldl (fun s p =>
    if rowTaken s (SHT_PSTAGE p 0) then s else stagePower s p (if off then 2 else 1) tk.toNat) s
  .next (if off then managedGo s t.toNat v.toNat else s)

/-- A slot event (class 18) becomes a record of the FM's event log (R205, R211). -/
def slotEvent (s : State) (p cause : Nat) : State :=
  let s := s.modMgt fun m => { m with events := m.events ++ [(18, cause, p)] }
  (raise s (portHalf p) (evt 18 cause p 0)).emit (.out outFMREC [18, cause, p])

/-- The sub-ports of port p's mode, as nodes. -/
def portNodes (s : State) (p : Nat) : List Nat := (subsOf s p).map fun k => subNode p k

/-- The level of SLOT_PRSNT_L[p] as last sampled, and since when (R211): no card since reset, unless one was seen.
[log 154, DEDUCED] -/
def prsntSeen (s : State) (p : Nat) : Bool × Nat := (mfind s.mgt.prs p).getD (false, 0)

/-- Has the sampled level of port p been `here` for DEBOUNCE milliseconds, 0 treated as 1 (R211)?
[log 154, DEDUCED] -/
def prsntStable (s : State) (p : Nat) (here : Bool) : Bool :=
  let x := prsntSeen s p
  x.1 == here && decide (x.2 + max 1 (s.fget (PRT_SLOT_CTL p) PRT_SLOT_CTL_DEBOUNCE) * 1000000 ≤ s.now (portHalf p))

/-- PRESENCE_ACCEPTED (R211): the level of SLOT_PRSNT_L[p] has been stable for DEBOUNCE; `here`: a card is present. -/
def execPresenceAccepted (p : BitVec 5) (here : Bool) (s : State) : Host.Outcome State Fault Refusal :=
  if s.flag (PRT_SLOT_STAT p.toNat) PRT_SLOT_STAT_PRSNT = here ∨ prsntStable s p.toNat here = false then .next s
  else
    let s := slotEvent (s.fsetB (PRT_SLOT_STAT p.toNat) PRT_SLOT_STAT_PRSNT here) p.toNat 0
    .next ((portNodes s p.toNat).foldl (fun s d =>
      (vppbsOf s (nodeHalf d) d).foldl (fun s e => vpReport s e.1 e.2 here (s.vp e.1 e.2).dlla true false) s) s)

/-- May SLOT_PERST_L[p] go high (R214): power good and PCLK_OUT_p for 100 ms, the channel not turning off, no hold by the FM? -/
def perstMay (s : State) (p : Nat) : Bool :=
  let now := s.now (portHalf p)
  let old (m : SMap Nat) : Bool := match mfind m p with
    | some a => decide (a + 100000000 ≤ now)
    | none => false
  s.flag (PRT_SLOT_STAT p) PRT_SLOT_STAT_PG && old s.mgt.pgAt && old s.mgt.pclkAt && shtState s (leaderOf s p) != stSTOPPING
    && !s.mgt.perst.contains p

/-- PERST_RELEASE (R214). -/
def execPerstRelease (p : BitVec 5) (s : State) : Host.Outcome State Fault Refusal :=
  .next (if perstMay s p.toNat then setPerst s p.toNat false else s)

/-- Opcode of Physical Port Control (R205). PRESUMED: CXL 3.2's number. -/
def opPPC : Nat := 0x5102

/-- PPC_ASSERT_PERST, PPC_DEASSERT_PERST (R205, R214): the FM holds SLOT_PERST_L[p] low, or lets it go. -/
def execPpcAssertPerst (cci : Nat) (p : BitVec 5) (s : State) : Host.Outcome State Fault Refusal :=
  .next (cciServe s cci opPPC [portHalf p.toNat] fun s =>
    let s := s.modMgt fun m => { m with perst := p.toNat :: m.perst.filter fun q => q ≠ p.toNat }
    cciAnswer (setPerst s p.toNat true) cci opPPC rcSUCCESS 0 [])
def execPpcDeassertPerst (cci : Nat) (p : BitVec 5) (s : State) : Host.Outcome State Fault Refusal :=
  .next (cciServe s cci opPPC [portHalf p.toNat] fun s =>
    let s := s.modMgt fun m => { m with perst := m.perst.filter fun q => q ≠ p.toNat }
    cciAnswer (if perstMay s p.toNat then setPerst s p.toNat false else s) cci opPPC rcSUCCESS 0 [])

/-- PPC_RESET_PPB (R205): takes the sub-port to Detect; one held in Disabled stays there. -/
def execPpcResetPpb (cci : Nat) (p : BitVec 5) (k : BitVec 2) (s : State) : Host.Outcome State Fault Refusal :=
  let d := subNode p.toNat k.toNat
  .next (cciServe s cci opPPC [portHalf p.toNat] fun s =>
    cciAnswer (if mayTrain s d then subDown s d false else s) cci opPPC rcSUCCESS 0 [])

/-- SURPRISE_REMOVAL (R215, R216): on a powered slot presence has been lost (`lost`: its accepted loss), or a link has dropped to
Detect, for no power-off and no unbind.
[log 96, DEDUCED] -/
def execSurpriseRemoval (p : BitVec 5) (lost : Bool) (s : State) : Host.Outcome State Fault Refusal :=
  let q := p.toNat
  let here := s.flag (PRT_SLOT_STAT q) PRT_SLOT_STAT_PRSNT
  let down := (portNodes s q).any fun d => !inService s d
  if (s.flag (PRT_SLOT_STAT q) PRT_SLOT_STAT_PWR && (if lost then !here else down)) = false then .next s
  else
    let s := slotEvent s q 1
    let s := (portNodes s q).foldl (fun s d =>
      (vppbsOf s (nodeHalf d) d).foldl (fun s e => vpReport s e.1 e.2 here (linkUp s d) true true) (flushNode s d)) s
    .next (if lost && s.flag (PRT_SLOT_CTL q) PRT_SLOT_CTL_SURPRISE_OFF then mainOff s (leaderOf s q) else s)

end Sys2Proof.Machine
end

