-- ==== Sys2Proof/Machine/Dome.lean ====
section
/-! DEFINITION. The Dome (spec 16): resets (R448, R449), its start and straps (R450, R452), the main rails (R453-R457), the
halves' release and boot (R458-R461), what promotes the device (R462-R465), the standby feed (R529). -/

namespace Sys2Proof.Machine

open Sys2Proof

/-- MRD_PWR_STAT.STATE and MRD_SVC_STAT.PHASE codes. -/
def pwOFF : Nat := 0
def pwUP : Nat := 1
def pwON : Nat := 2
def pwDOWN : Nat := 3
def pwFAULT : Nat := 4
def pwLOCKOUT : Nat := 5
def svDOME : Nat := 0
def svRAILS : Nat := 1
def svBOOT : Nat := 2
def svFINDER : Nat := 3
def svFULL : Nat := 4

def pwrState (s : State) : Nat := s.fget MRD_PWR_STAT MRD_PWR_STAT_STATE
def svcPhase (s : State) : Nat := s.fget MRD_SVC_STAT MRD_SVC_STAT_PHASE
def setSvc (s : State) (p : Nat) : State := s.fset MRD_SVC_STAT MRD_SVC_STAT_PHASE p
def frozen (s : State) : Bool := s.flag MRD_FRZ_STAT MRD_FRZ_STAT_FROZEN

/-- Registers of the Dome and of the Shutter die: not those of the halves, nor a block with a copy in each half.
[log 13, DESIGN CHOICE] -/
def domeHeld (a : Nat) : Bool :=
  inShutter a

/-- What a warm reset keeps of a register beside its RS fields: a block's lock, which only a cold reset lifts (R6, R143, R321), and
the failed wires of a Coudé group (R173). -/
def warmMask (a : Nat) : Word :=
  if a = CORE_CTL .east ∨ a = CORE_CTL .west then fldMask CORE_CTL_LOCK
  else if a = QOS_CTL .east ∨ a = QOS_CTL .west then fldMask QOS_CTL_LOCK
  else if (CDB_WMAP .east 0 0 ≤ a ∧ a < CDB_WMAP .east 0 0 + 0x80) ∨ (CDB_WMAP .west 0 0 ≤ a ∧ a < CDB_WMAP .west 0 0 + 0x80) then
    0xFFFFFFFF
  else 0

/-- A register of a half after a warm reset: RS fields as they were, the others at their reset value (R6, R8), but for what only a
cold reset changes. -/
def rsWord (a : Nat) (w : Word) : Word :=
  match descAt a with
  | none => w
  | some d =>
    let mask := d.flds.foldl (fun m f => if f.rs then m ||| fldMask f else m) (warmMask a)
    (w &&& mask) ||| (resetWord a &&& ~~~ mask)

/-- The registers after a change of each by `f`, in the canonical form.
[log 16, DEDUCED] -/
def mapRegs (m : SMap Word) (f : Nat → Word → Word) : SMap Word :=
  mmapOpt m fun a w => if f a w = resetWord a then none else some (f a w)

/-- A reset of the halves (R449): what the Dome, the Shutter die, the flash and the fuses hold stays, `regs` are the registers,
everything in the halves is lost. -/
def halvesClear (s : State) (regs : SMap Word) : State :=
  { State.reset with
    regs := regs, alert := s.alert, dome := { s.dome with released := false, hbmFails := [], hbmOk := [], refNext := none },
    chans := s.chans, fw := { fwReset with svn := s.fw.svn, minSvn := s.fw.minSvn }, spdm := ⟨[], s.spdm.certs⟩, tap := s.tap,
    sent := s.sent, fresh := s.fresh, pending := s.pending }

/-- ALERT_L is held low with STOPPED set (R422, R455, R460, R493). -/
def alertStop (s : State) : State :=
  { s with alert := { s.alert with low := true } }.fset MRD_ALERT_CTL MRD_ALERT_CTL_STOPPED 1

/-- Debug authentication ends (R491). -/
def deauth (s : State) : State :=
  let s := s.fset MRD_DBG_STAT MRD_DBG_STAT_AUTH 0
  (s.fset (UMP_STAT .east) UMP_STAT_DBG_AUTH 0).fset (UMP_STAT .west) UMP_STAT_DBG_AUTH 0

/-- What the halves' port blocks show of a slot after a warm reset: power, power good and PERST are the Shutter die's and stay
(R406); presence has to be accepted again.
[log 16, DEDUCED] -/
def slotAgain (o s : State) (c : Nat) : State :=
  let s := pwrStat s c
  let s := s.fset (PRT_SLOT_STAT c) PRT_SLOT_STAT_PG (o.fget (PRT_SLOT_STAT c) PRT_SLOT_STAT_PG)
  let s := s.fset (PRT_SLOT_STAT c) PRT_SLOT_STAT_PERST (o.fget (PRT_SLOT_STAT c) PRT_SLOT_STAT_PERST)
  let s := if s.flag (PRT_SLOT_STAT c) PRT_SLOT_STAT_PG then s.modMgt fun m => { m with pgAt := minsert m.pgAt c 0 } else s
  pclkStat s c

/-- The Shutter die's times run on when the Meridian starts again from 0.
[log 16, DEDUCED] -/
def chanTimes (s : State) (c : Nat) : State :=
  let now := s.now (chanHalf c)
  s.modChan c fun x => { x with rampAt := x.rampAt - now, waitTo := x.waitTo - now, stopAt := x.stopAt - now }

/-- A warm reset (R448, R467): the rails and the Dome stay, both halves start again.
[log 16, DEDUCED] -/
def warmReset (s : State) : State :=
  let o := s
  let s := (s.chans.map fun e => e.1).foldl chanTimes s
  let regs := mapRegs s.regs fun a w => if domeHeld a then w else rsWord a w
  let s := halvesClear s regs
  let s := deauth ((s.wr MRD_SVC_CTL 0).fset MRD_SVC_STAT MRD_SVC_STAT_PHASE svBOOT)
  let s := (List.range 32).foldl (fun s c => slotAgain o s c) s
  { s with dome := { s.dome with released := true } }

/-- Is any rail's regulator to be enabled: the sequence starts with rail 0 (R453, R454). -/
def railStart (s : State) : State :=
  setSvc (s.fsets MRD_PWR_STAT [(MRD_PWR_STAT_EN, 1), (MRD_PWR_STAT_STATE, pwUP)]) svRAILS

/-- The enabled rail that goes down next: the highest (R456). -/
def topRail (en : Nat) : Nat := (List.range 8).foldl (fun r i => if bitB en i then i else r) 0

/-- The rails' way down (R456): the highest PWR_EN that is high goes low; with none left STATE is what it ends in, or the rails are
sequenced again. What the wait for each PWR_GOOD takes is not counted.
[log 14, DEDUCED; log 17, DEDUCED] -/
def railsStep (s : State) : State :=
  match s.dome.down with
  | none => s
  | some (left, again) =>
    let en := s.fget MRD_PWR_STAT MRD_PWR_STAT_EN
    let bit := if en = 0 then 0 else 2 ^ topRail en
    let pg := s.fget MRD_PWR_STAT MRD_PWR_STAT_PG
    if en = bit then
      let s := s.fsets MRD_PWR_STAT [(MRD_PWR_STAT_EN, 0), (MRD_PWR_STAT_PG, 0), (MRD_PWR_STAT_STATE, left)]
      let s := { s with dome := { s.dome with down := none } }
      if again then railStart s else s
    else
      s.fsets MRD_PWR_STAT [(MRD_PWR_STAT_EN, en - bit), (MRD_PWR_STAT_PG, if bitB pg (topRail en) then pg - bit else pg)]

/-- The rails start on their way down; where none is up they are down at once.
[log 14, DEDUCED] -/
def railsFall (s : State) (left : Nat) (again : Bool) : State :=
  let s := { s.fset MRD_PWR_STAT MRD_PWR_STAT_STATE pwDOWN with dome := { s.dome with down := some (left, again), retry := false } }
  if s.fget MRD_PWR_STAT MRD_PWR_STAT_EN = 0 then railsStep s else s

/-- A Shutter channel is turned off with the main rails (R456): its sequence ends, and with power good its outputs are off. -/
def channelOff (s : State) (l : Nat) : State :=
  if follower s l then s
  else
    let s := seqEnd s l rsABORTED rwOFF
    let s := pgClear s l
    let s := if shtState s l = stGFAULT then s else setSht s l stOFF
    (gangOf s l).foldl auxOff s

/-- The main rails go down (R456): every Shutter channel is turned off first and both halves are held in reset; `left` is the STATE
that they end in.
[log 14, DEDUCED] -/
def railsDown (s : State) (left : Nat) : State :=
  let s := (List.range 32).foldl channelOff s
  let s := halvesClear s (mapRegs s.regs fun a w => if domeHeld a then w else resetWord a)
  railsFall (setSvc (deauth s) svDOME) left false

/-- A fault takes the rails down and they stay down (R457). -/
def railsFault (s : State) : State := railsDown s pwFAULT

/-- Is `a` a word of a channel's energy registers SHT_E, which keep their value (R402)? -/
def energyReg (a : Nat) : Bool :=
  decide (SHT_E 0 0 ≤ a) && decide (a < SHT_E 32 0) && decide ((a - SHT_E 0 0) % 0x1000 < 0x20)

/-- Registers that a cold reset keeps: MRD_LIFE, MRD_BOOT_CTL, the energy registers, and the straps as last sampled (R402, R448,
R452). -/
def coldKept (a : Nat) : Bool :=
  a == MRD_LIFE_LO || a == MRD_LIFE_HI || a == MRD_BOOT_CTL || a == MRD_STRAP || energyReg a

/-- A cold reset (R448): every field returns to its reset value; the energy accumulators stay. The rails go down, and are sequenced
again by themselves only as `again` says (R452).
[log 17, DEDUCED] -/
def coldReset (s : State) (again : Bool) : State :=
  let en := s.fget MRD_PWR_STAT MRD_PWR_STAT_EN
  let pg := s.fget MRD_PWR_STAT MRD_PWR_STAT_PG
  let regs := mapRegs s.regs fun a w => if coldKept a then w else resetWord a
  let chans := s.chans.map fun e =>
    (e.1, { chanReset with accM := e.2.accM, accX := e.2.accX, accMB := e.2.accMB, accXB := e.2.accXB })
  let s := halvesClear s regs
  let s := { s with chans := chans, alert := State.reset.alert, tap := State.reset.tap,
                    dome := { domeReset with run := s.dome.run, lifeTn := s.dome.lifeTn } }
  railsFall (s.fsets MRD_PWR_STAT [(MRD_PWR_STAT_EN, en), (MRD_PWR_STAT_PG, pg)]) pwOFF again

/-- DOME_POWER_UP (R448): every state is lost; the flash and the fuses are no state of Kezen. -/
def execDomePowerUp (s : State) : Host.Outcome State Fault Refusal :=
  .next { State.reset with fw := { fwReset with svn := s.fw.svn, minSvn := s.fw.minSvn }, spdm := ⟨[], s.spdm.certs⟩, sent := s.sent,
                           fresh := s.fresh, pending := s.pending }

/-- DOME_START (R450): MODE is STARTUP and the alive toggle starts. -/
def execDomeStart (s : State) : Host.Outcome State Fault Refusal :=
  if s.dome.run then .next s
  else
    let s := { s with dome := { s.dome with run := true }, alert := { s.alert with low := false } }
    .next (s.fset MRD_ALERT_CTL MRD_ALERT_CTL_MODE 1)

/-- STRAP_SAMPLE (R452): MRD_STRAP shows the balls; with PWR_AUTO the rails are sequenced at once.
[log 9, DESIGN CHOICE; log 17, DEDUCED] -/
def execStrapSample (prim boot auto_ finder : Bool) (i3c : BitVec 3) (s : State) : Host.Outcome State Fault Refusal :=
  let s := s.fsets MRD_STRAP [(MRD_STRAP_PRIM_SEL, prim.toNat), (MRD_STRAP_BOOT, boot.toNat), (MRD_STRAP_FINDER_ONLY, finder.toNat),
    (MRD_STRAP_PWR_AUTO, auto_.toNat), (MRD_STRAP_I3C_ADDR, i3c.toNat)]
  .next (match s.dome.down with
    | some (left, again) => { s with dome := { s.dome with down := some (left, again || auto_) } }
    | none => if auto_ && pwrState s == pwOFF && !s.dome.retry then railStart s else s)

/-- POR_RESET (R448): the straps are sampled again as POR_L rises.
[log 17, DEDUCED] -/
def execPorReset (s : State) : Host.Outcome State Fault Refusal := .next (coldReset s false)

/-- A write of MRD_RST_CTL: COLD before WARM, which a frozen device ignores (R448, R494). After a cold reset the rails are
sequenced again as the straps last sampled say (R452). -/
def rstCtlWrite (s : State) (cold warm : Bool) : State :=
  if cold then coldReset s (s.flag MRD_STRAP MRD_STRAP_PWR_AUTO)
  else if warm && !frozen s then warmReset s
  else s

/-- COLD_RESET, WARM_RESET (R448).
[log 17, DEDUCED] -/
def execColdReset (m : Master) (s : State) : Host.Outcome State Fault Refusal :=
  .next (csGate s m MRD_RST_CTL fun s => rstCtlWrite s true false)
/-- WARM_RESET (R448).
[log 106, DEDUCED] -/
def execWarmReset (m : Master) (s : State) : Host.Outcome State Fault Refusal :=
  .next (csGate s m MRD_RST_CTL fun s => rstCtlWrite s false true)

/-- A write of 1 to GO (R455, R457): a new set of attempts, unless the rails are up or coming up; once they are down, where they go
down.
 -/
def railGo (s : State) : State :=
  if pwrState s = pwUP ∨ pwrState s = pwON then s
  else
    let s := s.fset MRD_PWR_STAT MRD_PWR_STAT_ATTEMPTS 0
    match s.dome.down with
    | some (left, _) => { s with dome := { s.dome with down := some (left, true), retry := false } }
    | none => railStart { s with dome := { s.dome with retry := false } }

/-- A write of 1 to DOWN (R457); rails that are down with FAULT or LOCKOUT shown stay so. -/
def railDown (s : State) : State :=
  if pwrState s = pwFAULT ∨ pwrState s = pwLOCKOUT then s
  else
    match s.dome.down with
    | some (left, _) => { s with dome := { s.dome with down := some (left, false), retry := false } }
    | none => railsDown s pwOFF

/-- A write of MRD_PWR_CTL: the two settings, then DOWN, then GO.
[log 14, DEDUCED] -/
def pwrCtlWrite (s : State) (v : Word) : State :=
  let s := s.fsets MRD_PWR_CTL [(MRD_PWR_CTL_PG_TMO, fldGet v MRD_PWR_CTL_PG_TMO), (MRD_PWR_CTL_GAP, fldGet v MRD_PWR_CTL_GAP)]
  let s := if bitB v.toNat 1 then railDown s else s
  if bitB v.toNat 0 then railGo s else s

/-- RAIL_GO, RAIL_DOWN_WRITE (R455, R457).
[log 2, DESIGN CHOICE] -/
def execRailGo (m : Master) (s : State) : Host.Outcome State Fault Refusal := .next (csGate s m MRD_PWR_CTL railGo)
def execRailDownWrite (m : Master) (s : State) : Host.Outcome State Fault Refusal := .next (csGate s m MRD_PWR_CTL railDown)

/-- Bit n of MRD_PWR_STAT.EN and of PG. -/
def railEn (s : State) (n : Nat) : Bool := bitB (s.fget MRD_PWR_STAT MRD_PWR_STAT_EN) n
def railPg (s : State) (n : Nat) : Bool := bitB (s.fget MRD_PWR_STAT MRD_PWR_STAT_PG) n

/-- RAIL_ENABLE_NEXT (R454): PWR_GOOD[n] has been high for GAP, and rail n + 1 is enabled; PWR_GOOD[7] is main power good, which
ends a successful sequence (R471).
[log 14, DEDUCED] -/
def execRailEnableNext (n : BitVec 3) (s : State) : Host.Outcome State Fault Refusal :=
  let k := n.toNat
  if (pwrState s == pwUP && railEn s k && !railPg s k) = false then .next s
  else
    let s := s.fset MRD_PWR_STAT MRD_PWR_STAT_PG (s.fget MRD_PWR_STAT MRD_PWR_STAT_PG + 2 ^ k)
    .next (if k = 7 then s.fsets MRD_PWR_STAT [(MRD_PWR_STAT_STATE, pwON), (MRD_PWR_STAT_ATTEMPTS, 0)]
           else s.fset MRD_PWR_STAT MRD_PWR_STAT_EN (s.fget MRD_PWR_STAT MRD_PWR_STAT_EN + 2 ^ (k + 1)))

/-- RAIL_PG_TIMEOUT (R455): rail n is not good within PG_TMO; the sequence fails and is tried again after 1 s.
[log 4, DESIGN CHOICE] -/
def execRailPgTimeout (n : BitVec 3) (s : State) : Host.Outcome State Fault Refusal :=
  let k := n.toNat
  if (pwrState s == pwUP && railEn s k && !railPg s k) = false then .next s
  else
    let a := s.fget MRD_PWR_STAT MRD_PWR_STAT_ATTEMPTS
    let s := (railsDown s pwOFF).fsets MRD_PWR_STAT [(MRD_PWR_STAT_FAIL_RAIL, k), (MRD_PWR_STAT_ATTEMPTS, min 3 (a + 1))]
    .next { s with dome := { s.dome with retry := true } }

/-- RAIL_RETRY (R455): the next attempt, or LOCKOUT after the third.
[log 14, DEDUCED] -/
def execRailRetry (s : State) : Host.Outcome State Fault Refusal :=
  if s.dome.retry = false ∨ s.dome.down.isSome then .next s
  else
    let s := { s with dome := { s.dome with retry := false } }
    if 3 ≤ s.fget MRD_PWR_STAT MRD_PWR_STAT_ATTEMPTS then
      .next (alertStop (s.fset MRD_PWR_STAT MRD_PWR_STAT_STATE pwLOCKOUT))
    else .next (railStart s)

/-- PWR_GOOD_FALL (R457): POWER cause 0, in each half that runs (R536), and the rails go down. -/
def execPwrGoodFall (n : BitVec 3) (s : State) : Host.Outcome State Fault Refusal :=
  if (railEn s n.toNat && railPg s n.toNat) = false then .next s
  else .next (railsFault (if s.dome.released then raiseBoth s (evt 21 0 0 0) else s))

/-- STANDBY_LOW (R529): below 10.5 V for 10 µs. -/
def execStandbyLow (s : State) : Host.Outcome State Fault Refusal := .next (raiseBoth s (evt 21 1 0 0))

/-- DOME_STOP (R529): the next start is a Dome power-up.
[log 18, DEDUCED] -/
def execDomeStop (s : State) : Host.Outcome State Fault Refusal := .next { s with dome := { s.dome with run := false } }

/-- HALVES_RELEASE (R458): both halves leave reset at one instant and both Meridians start from 0; after a failed boot they
stay in reset (R460).
[log 15, DEDUCED] -/
def execHalvesRelease (s : State) : Host.Outcome State Fault Refusal :=
  if (pwrState s == pwON && svcPhase s == svRAILS && !s.dome.released) = false then .next s
  else
    let s := (((s.setMer .east 0).setMer .west 0).wr64 (MRD_TN_LO .east) 0).wr64 (MRD_TN_LO .west) 0
    .next { setSvc s svBOOT with dome := { s.dome with released := true } }

/-- Both clusters run an image (R461, R472): the primary is that of the half with authority. -/
def obsBoot (s : State) (img : Nat) : State :=
  let o (h : Half) : Obs := ⟨s.now h, false, [], img⟩
  let s := { s with obs := ⟨o .east, o .west⟩ }
  let p := s.auth .east
  (s.fset (OBS_STAT p) OBS_STAT_ROLE 1).fset (OBS_STAT p.other) OBS_STAT_ROLE 0

/-- The result of checking an image (R459): what its check finds, and then its security version against the fused minimum. -/
def imageResult (s : State) (r svn : Nat) : Nat := if r = 1 ∧ svn < s.fw.minSvn then 5 else r

/-- The preferred image (R459): 0 A, 1 B. -/
def prefImage (s : State) : Nat :=
  if s.flag MRD_BOOT_CTL MRD_BOOT_CTL_PREF_V then s.fget MRD_BOOT_CTL MRD_BOOT_CTL_PREF else s.fget MRD_STRAP MRD_STRAP_BOOT

/-- RES_A or RES_B takes an image's result. -/
def putResult (s : State) (i r : Nat) : State :=
  s.fset MRD_BOOT_STAT (if i = 0 then MRD_BOOT_STAT_RES_A else MRD_BOOT_STAT_RES_B) r

/-- Image i runs. -/
def runImage (s : State) (i svn : Nat) : State :=
  obsBoot (s.fsets MRD_BOOT_STAT [(MRD_BOOT_STAT_RUNNING, i), (MRD_BOOT_STAT_SVN, svn), (MRD_BOOT_STAT_BOOT_FAIL, 0)]) i

/-- BOOT_IMAGE_CHECK (R459, R460): `ra`, `rb` what the checks of the flash images find, `va`, `vb` their security versions. The
preferred image is checked first; the other only where that is not valid.
[log 15, DEDUCED] -/
def execBootImageCheck (ra rb : BitVec 3) (va vb : BitVec 16) (s : State) : Host.Outcome State Fault Refusal :=
  if (s.dome.released && svcPhase s == svBOOT) = false then .next s
  else
    let s := { s with fw := { s.fw with svn := minsert (minsert s.fw.svn 0 va.toNat) 1 vb.toNat } }
    let res (i : Nat) : Nat := if i = 0 then imageResult s ra.toNat va.toNat else imageResult s rb.toNat vb.toNat
    let svn (i : Nat) : Nat := if i = 0 then va.toNat else vb.toNat
    let p := prefImage s
    let s := putResult s p (res p)
    if res p = 1 then .next (runImage s p (svn p))
    else
      let q := 1 - p
      let s := putResult s q (res q)
      if res q = 1 then .next (runImage s q (svn q))
      else
        let s := alertStop (s.fset MRD_BOOT_STAT MRD_BOOT_STAT_BOOT_FAIL 1)
        .next { s with dome := { s.dome with released := false } }

/-- UART_IMAGE_LOAD (R460): checked as a flash image, booted, and not written to flash.
[log 15, DEDUCED] -/
def execUartImageLoad (r : BitVec 3) (v : BitVec 16) (s : State) : Host.Outcome State Fault Refusal :=
  if (s.flag MRD_BOOT_STAT MRD_BOOT_STAT_BOOT_FAIL && !s.dome.released && imageResult s r.toNat v.toNat == 1) = false then .next s
  else
    let s := { s with dome := { s.dome with released := true } }
    .next (obsBoot (s.fset MRD_BOOT_STAT MRD_BOOT_STAT_SVN v.toNat) 2)

/-- A write of MRD_SVC_CTL (R462, R464, R465): both bits wait for the next boundary; TRIM is ignored and logged while FINDER_ONLY. -/
def svcCtlWrite (s : State) (mh : Half) (trim finder : Bool) : State :=
  let s := if finder then s.fset MRD_SVC_CTL MRD_SVC_CTL_FINDER 1 else s
  if trim = false then s
  else if finderOnly s then writeDiscarded s mh MRD_SVC_CTL
  else s.fset MRD_SVC_CTL MRD_SVC_CTL_TRIM 1

/-- FINDER_REQUEST, TRIM_REQUEST (R462, R465). -/
def execFinderRequest (m : Master) (s : State) : Host.Outcome State Fault Refusal :=
  .next (csGate s m MRD_SVC_CTL fun s => svcCtlWrite s (s.masterHalf m) false true)
def execTrimRequest (m : Master) (s : State) : Host.Outcome State Fault Refusal :=
  .next (csGate s m MRD_SVC_CTL fun s => svcCtlWrite s (s.masterHalf m) true false)

/-- HBM_TRAINING_DONE (R465): a training of half h's stack ends; the third failure raises HBM cause 4. -/
def execHbmTrainingDone (h : Half) (ok : Bool) (s : State) : Host.Outcome State Fault Refusal :=
  let n := nget s.dome.hbmFails h.idx
  if s.dome.hbmOk.contains h.idx || decide (3 ≤ n) then .next s
  else if ok then .next { s with dome := { s.dome with hbmOk := h.idx :: s.dome.hbmOk } }
  else
    let s := { s with dome := { s.dome with hbmFails := nset s.dome.hbmFails h.idx (n + 1) } }
    .next (if n + 1 = 3 then raise s h (evt 16 4 0 0) else s)

/-- Service phases at a boundary (R462, R465, R469): Finder begins, the trims apply, full service is reached. -/
def svcReady (s : State) : Bool :=
  let half (h : Half) : Bool := s.flag (CAT_STAT h) CAT_STAT_IMG && s.flag (CORE_CTL h) CORE_CTL_DF_EN && s.flag (STK_CTL h) STK_CTL_EN
  half .east && half .west && s.flag MRD_SVC_STAT MRD_SVC_STAT_TRIMMED
    && (List.range 32).all fun p => !s.flag (PRT_CFG p) PRT_CFG_EN || bitB (s.rd MRD_PROMOTED).toNat p
def svcBoundary (s : State) : State :=
  let s := if svcPhase s = svBOOT ∧ s.flag MRD_SVC_CTL MRD_SVC_CTL_FINDER then setSvc s svFINDER else s
  let s := if s.flag MRD_SVC_CTL MRD_SVC_CTL_TRIM then s.fset MRD_SVC_STAT MRD_SVC_STAT_TRIMMED 1 else s
  if svcPhase s = svFINDER ∧ svcReady s then setSvc s svFULL else s

end Sys2Proof.Machine
end

