-- ==== Sys2Proof/Machine/Fm.lean ====
section
/-! DEFINITION. The FM API and Kezen's vendor commands (spec 07, R205-R210). Each command carries the CCI it came by and
what its payload names; the Observer's own choices (a free staged row, its TICKET) are operands too. Opcodes of the standard
commands are PRESUMED, CXL 3.2's. -/

namespace Sys2Proof.Machine

open Sys2Proof

/-- A free value. -/
def drawn (s : State) (f : Nat → State → State) : State :=
  let r := s.draw
  f r.1 r.2

/-- A command that reads: the halves whose registers it needs, and the answer's data. -/
def cciReadCmd (s : State) (cci code : Nat) (hs : List Half) (data : List Nat) : State :=
  cciServe s cci code hs fun s => cciAnswer s cci code rcSUCCESS 0 data

/-- A command that Kezen passes to the device on a downstream sub-port (R205): its opcode, the sub-port, its payload. -/
def cciForward (s : State) (cci code d : Nat) (payload : List Nat) : State :=
  cciServe s cci code [nodeHalf d] fun s => (clsTake s (cciHalf s cci) (cciClass cci)).emit (.out outFORWARD (code :: d :: payload))

/-- FM_IDENTIFY (R205): Kezen's identity: vendor and device identifier (R196), serial number (R491), largest message (R480),
component type switch. The subsystem identifiers are unstated. -/
def execFmIdentify (cci : Nat) (s : State) : Host.Outcome State Fault Refusal :=
  .next (cciReadCmd s cci 0x0001 []
    [0xCAE5, 0x5120, Config.unstated 20, Config.unstated 21, s.rd64 (MRD_DBG_SERIAL 0), 13, 0])

/-- What Background Operation Status says of a CCI: whether an operation runs, its opcode, the last one's return code and
extended status. -/
def bgStatus (s : State) (cci : Nat) : List Nat :=
  match mfind s.mgt.bg cci with
  | some o => [1, o.code, 0, 0]
  | none =>
    match mfind s.mgt.last cci with
    | some (code, ret, ext) => [0, code, ret, ext]
    | none => [0, 0, 0, 0]

/-- FM_BACKGROUND_OPERATION_STATUS (R206). -/
def execFmBackgroundOperationStatus (cci : Nat) (s : State) : Host.Outcome State Fault Refusal :=
  .next (cciReadCmd s cci 0x0002 [] (bgStatus s cci))

/-- FM_GET_RESPONSE_MESSAGE_LIMIT, FM_SET_RESPONSE_MESSAGE_LIMIT (R205): the limit n stands for 2^n bytes, from 8 to the 8 KiB
of R480. -/
def execFmGetResponseMessageLimit (cci : Nat) (s : State) : Host.Outcome State Fault Refusal :=
  .next (cciReadCmd s cci 0x0003 [] [(mfind s.mgt.limit cci).getD 13])
def execFmSetResponseMessageLimit (cci n : Nat) (s : State) : Host.Outcome State Fault Refusal :=
  if 8 ≤ n ∧ n ≤ 13 then
    .next (cciReadCmd (s.modMgt fun m => { m with limit := minsert m.limit cci n }) cci 0x0004 [] [n])
  else .next (cciAnswer s cci 0x0004 rcINVALID 0 [])

/-- FM_GET_EVENT_RECORDS (R205): every record held, oldest first. -/
def execFmGetEventRecords (cci : Nat) (s : State) : Host.Outcome State Fault Refusal :=
  .next (cciReadCmd s cci 0x0100 [] (s.mgt.events.flatMap fun e => [e.1, e.2.1, e.2.2]))

/-- FM_CLEAR_EVENT_RECORDS (R205): the oldest n records, or all of them. -/
def execFmClearEventRecords (cci : Nat) (all : Bool) (n : Nat) (s : State) : Host.Outcome State Fault Refusal :=
  let left := if all then [] else s.mgt.events.drop n
  .next (cciReadCmd (s.modMgt fun m => { m with events := left }) cci 0x0101 [] [])

/-- FM_GET_EVENT_INTERRUPT_POLICY, FM_SET_EVENT_INTERRUPT_POLICY (R205). -/
def execFmGetEventInterruptPolicy (cci : Nat) (s : State) : Host.Outcome State Fault Refusal :=
  .next (cciReadCmd s cci 0x0102 [] [s.mgt.policy])
def execFmSetEventInterruptPolicy (cci w : Nat) (s : State) : Host.Outcome State Fault Refusal :=
  .next (cciReadCmd (s.modMgt fun m => { m with policy := w }) cci 0x0103 [] [])

/-- FM_IDENTIFY_SWITCH_DEVICE (R205): the ports, those enabled, the virtual switches, those with an upstream sub-port, the
vPPBs, and those bound. -/
def execFmIdentifySwitchDevice (cci : Nat) (s : State) : Host.Outcome State Fault Refusal :=
  let act := ((List.range 32).map fun p => s.fget (PRT_CFG p) PRT_CFG_EN * 2 ^ p).sum
  let b := s.binds.get (cciHalf s cci)
  .next (cciReadCmd s cci 0x5100 [] [32, act, 64, b.usp.length, 64 * 33, 64 + b.usp.length + b.vb.length])

/-- FM_GET_PHYSICAL_PORT_STATE (R205): configuration, slot, and each sub-port's link and binding, of each port asked for. -/
def portState (s : State) (p : Nat) : List Nat :=
  [(s.rd (PRT_CFG p)).toNat, (s.rd (PRT_SLOT_STAT p)).toNat] ++
    (subsOf s p).flatMap fun k => [(s.rd (PRT_LNK_STAT p k)).toNat, (s.rd (PRT_BIND p k)).toNat]
def execFmGetPhysicalPortState (cci : Nat) (ps : List (BitVec 5)) (s : State) : Host.Outcome State Fault Refusal :=
  .next (cciReadCmd s cci 0x5101 (ps.map fun p => portHalf p.toNat) (ps.flatMap fun p => portState s p.toNat))

/-- A register of the PPB of sub-port d: as a vPPB's, but that the spec states no identity for it.
[log 55, DESIGN CHOICE] -/
def ppbRead (s : State) (d off : Nat) : Nat × State :=
  cfgOver (if off / 4 = 0 then [] else cfgFields s (64 + d / 4) (33 + d % 4) off) s

/-- FM_SEND_PPB_CONFIG_REQUEST (R205): a configuration access on the PPB of a sub-port.
[log 55, DESIGN CHOICE] -/
def execFmSendPpbConfigRequest (cci : Nat) (p : BitVec 5) (k : BitVec 2) (wr : Bool) (off data : Nat) (s : State) :
    Host.Outcome State Fault Refusal :=
  let d := subNode p.toNat k.toNat
  .next (cciServe s cci 0x5103 [portHalf p.toNat] fun s =>
    if wr then cciAnswer (cfgWrite s (64 + p.toNat) (33 + k.toNat) off data) cci 0x5103 rcSUCCESS 0 []
    else
      let x := ppbRead s d off
      cciAnswer x.2 cci 0x5103 rcSUCCESS 0 [x.1])

/-- FM_GET_VCS_INFO (R205): the tenant's upstream sub-port and what each of its vPPBs is bound to. -/
def vcsInfo (s : State) (t : Nat) : List Nat :=
  t :: s.fget (SF_TEN_STAT t) SF_TEN_STAT_USP :: (List.range 32).map fun v => (s.rd (SF_VPPB t v)).toNat
def execFmGetVcsInfo (cci : Nat) (t : BitVec 6) (s : State) : Host.Outcome State Fault Refusal :=
  .next (cciReadCmd s cci 0x5200 [tenantHalf t.toNat] (vcsInfo s t.toNat))

/-- Opcodes of Bind vPPB and Unbind vPPB.
[log 92, PRESUMED] -/
def opBIND : Nat := 0x5201
def opUNBIND : Nat := 0x5202

/-- A binding row of R199. -/
def bindRowWords (kind : Nat) (share surp : Bool) (v t d ld base len : Nat) : List Word :=
  let w (n : Nat) : Word := BitVec.ofNat 32 n
  [w (kind * 2 ^ 28 + share.toNat * 2 ^ 27 + surp.toNat * 2 ^ 26 + v * 2 ^ 8 + t), w (d / 4 * 2 ^ 8 + d % 4 * 2 ^ 6 + ld), 0,
    w base, w (base / 2 ^ 32), w len, w (len / 2 ^ 32), 0]

/-- A background operation of one binding row of tenant t: row n is staged, with its TICKET, and `f` says what becomes of it. A
row that waits already is not chosen. -/
def bindOp (s : State) (cci : Nat) (o : BgOp) (n : BitVec 6) (tk : BitVec 16) (ws : List Word) (f : Nat → State → State) : State :=
  let a := SF_BSTAGE o.tenant n.toNat 0
  if rowTaken s a then cciAnswer s cci o.code rcBUSY exBUSY []
  else bgStart s cci [tenantHalf o.tenant] { o with rows := [a] } fun s => f a (stageRow s a ws tk.toNat)

/-- BIND_VPPB (R206): an SLD, or an LD of an MLD, is bound to vPPB v of tenant t with SHARE clear (R200). -/
def execBindVppb (cci : Nat) (t : BitVec 6) (v : BitVec 5) (p : BitVec 5) (k : BitVec 2) (ld : Option (BitVec 4)) (n : BitVec 6)
    (tk : BitVec 16) (s : State) : Host.Outcome State Fault Refusal :=
  let d := subNode p.toNat k.toNat
  let ws := match ld with
    | none => bindRowWords 2 false false v.toNat t.toNat d 0 0 0
    | some l => bindRowWords 3 false false v.toNat t.toNat d l.toNat 0 0
  .next (bindOp s cci ⟨opBIND, [], t.toNat, false, []⟩ n tk ws fun a s => ringPost s (tenantHalf t.toNat) [a])

/-- The UNBIND row of what vPPB v of tenant t is bound to. -/
def unbindRow (s : State) (t v : Nat) (surp : Bool) : Option (VBind × List Word) :=
  match mfind (s.binds.get (tenantHalf t)).vb (vpKey t v) with
  | none => none
  | some b =>
    match b.ld with
    | none => some (b, bindRowWords 2 false surp v t b.sub 0 0 0)
    | some l => some (b, bindRowWords 3 b.share surp v t b.sub l 0 0)

/-- Start an Unbind vPPB; an unbound vPPB has nothing to unbind and the command is invalid.
[log 93, DEDUCED] -/
def unbindOp (s : State) (cci t v : Nat) (surp : Bool) (n : BitVec 6) (tk : BitVec 16) (f : VBind → Nat → State → State) : State :=
  match unbindRow s t v surp with
  | none => cciAnswer s cci opUNBIND rcINVALID stNO_TARGET []
  | some (b, ws) => bindOp s cci ⟨opUNBIND, [], t, false, []⟩ n tk ws (f b)

/-- A managed hot-remove begins (R209): the host sees presence go, and the row waits for it.
[log 95, DEDUCED] -/
def managedStart (s : State) (t v a : Nat) : State :=
  let now := s.now (tenantHalf t)
  let s := vpReport s t v false (s.vp t v).dlla true false
  hpStat (s.modMgt fun m => { m with managed := m.managed ++ [(t, v, a, now)] }) t

/-- UNBIND_VPPB_WAIT_LINK_DOWN (R209): the row waits until the sub-port next goes down; an LD's is a managed hot-remove. -/
def execUnbindVppbWaitLinkDown (cci : Nat) (t : BitVec 6) (v : BitVec 5) (n : BitVec 6) (tk : BitVec 16) (s : State) :
    Host.Outcome State Fault Refusal :=
  .next (unbindOp s cci t.toNat v.toNat false n tk fun b a s =>
    if b.ld.isSome then managedStart s t.toNat v.toNat a
    else s.modMgt fun m => { m with waitDown := m.waitDown ++ [(a, b.sub)] })

/-- UNBIND_VPPB_MANAGED (R209). -/
def execUnbindVppbManaged (cci : Nat) (t : BitVec 6) (v : BitVec 5) (n : BitVec 6) (tk : BitVec 16) (s : State) :
    Host.Outcome State Fault Refusal :=
  .next (unbindOp s cci t.toNat v.toNat false n tk fun _ a s => managedStart s t.toNat v.toNat a)

/-- UNBIND_VPPB_SURPRISE (R209): the row is handed to the next program at once. -/
def execUnbindVppbSurprise (cci : Nat) (t : BitVec 6) (v : BitVec 5) (n : BitVec 6) (tk : BitVec 16) (s : State) :
    Host.Outcome State Fault Refusal :=
  .next (unbindOp s cci t.toNat v.toNat true n tk fun _ a s => ringPost s (tenantHalf t.toNat) [a])

/-- FM_GENERATE_AER_EVENT (R205): an AER event of a kind on vPPB v of tenant t (32 is U). -/
def execFmGenerateAerEvent (cci : Nat) (t v : BitVec 6) (kind : Nat) (s : State) : Host.Outcome State Fault Refusal :=
  .next (cciServe s cci 0x5203 [tenantHalf t.toNat] fun s =>
    if 32 < v.toNat then cciAnswer s cci 0x5203 rcINVALID 0 []
    else cciAnswer (aerLog s t.toNat v.toNat kind []) cci 0x5203 rcSUCCESS 0 [])

/-- FM_TUNNEL_MANAGEMENT_COMMAND, FM_SEND_LD_CONFIG_REQUEST, FM_SEND_LD_MEMORY_REQUEST, FM_TUNNELLED_COMMAND (R205): passed to
the device on the sub-port unchanged. -/
def execFmTunnelManagementCommand (cci : Nat) (p : BitVec 5) (k : BitVec 2) (payload : List Nat) (s : State) :
    Host.Outcome State Fault Refusal :=
  .next (cciForward s cci 0x5300 (subNode p.toNat k.toNat) payload)
def execFmSendLdConfigRequest (cci : Nat) (p : BitVec 5) (k : BitVec 2) (ld : BitVec 4) (payload : List Nat) (s : State) :
    Host.Outcome State Fault Refusal :=
  .next (cciForward s cci 0x5301 (subNode p.toNat k.toNat) (ld.toNat :: payload))
def execFmSendLdMemoryRequest (cci : Nat) (p : BitVec 5) (k : BitVec 2) (ld : BitVec 4) (payload : List Nat) (s : State) :
    Host.Outcome State Fault Refusal :=
  .next (cciForward s cci 0x5302 (subNode p.toNat k.toNat) (ld.toNat :: payload))
def execFmTunnelledCommand (cci code : Nat) (p : BitVec 5) (k : BitVec 2) (payload : List Nat) (s : State) :
    Host.Outcome State Fault Refusal :=
  .next (cciForward s cci code (subNode p.toNat k.toNat) payload)

/-- INITIATE_DYNAMIC_CAPACITY_ADD (R207): the extent's BIND row first; the command goes on to the device once it is APPLIED.
[log 94, DESIGN CHOICE] -/
def execInitiateDynamicCapacityAdd (cci : Nat) (t : BitVec 6) (p : BitVec 5) (k : BitVec 2) (ld : BitVec 4) (base len : Nat)
    (share : Bool) (n : BitVec 6) (tk : BitVec 16) (s : State) : Host.Outcome State Fault Refusal :=
  let d := subNode p.toNat k.toNat
  let ws := bindRowWords 4 share false 0 t.toNat d ld.toNat base len
  .next (bindOp s cci ⟨opDCADD, [], t.toNat, false, [d, ld.toNat, base, len, share.toNat]⟩ n tk ws fun a s =>
    ringPost s (tenantHalf t.toNat) [a])

/-- INITIATE_DYNAMIC_CAPACITY_RELEASE (R207): the command goes to the device first; once the device reports the extent released
(`done`), the UNBIND row of the command's extent is staged. -/
def execInitiateDynamicCapacityRelease (cci : Nat) (done : Bool) (t : BitVec 6) (p : BitVec 5) (k : BitVec 2) (ld : BitVec 4)
    (base len : Nat) (n : BitVec 6) (tk : BitVec 16) (s : State) : Host.Outcome State Fault Refusal :=
  let d := subNode p.toNat k.toNat
  if done = false then
    .next (bgStart s cci [tenantHalf t.toNat, nodeHalf d] ⟨opDCREL, [], t.toNat, false, [d, ld.toNat, base, len]⟩ fun s =>
      s.emit (.out outFORWARD [opDCREL, d, ld.toNat, base, len]))
  else
    match mfind s.mgt.bg cci with
    | none => .next s
    | some o =>
      let a := SF_BSTAGE o.tenant n.toNat 0
      if o.code ≠ opDCREL ∨ o.rows ≠ [] ∨ rowTaken s a then .next s
      else
        let s := s.modMgt fun m => { m with bg := minsert m.bg cci { o with rows := [a] } }
        let f (i : Nat) := o.fwd.getD i 0
        .next (ringPost (stageRow s a (bindRowWords 4 false false 0 o.tenant (f 0) (f 1) (f 2) (f 3)) tk.toNat) (tenantHalf o.tenant) [a])

/-- FM_PBR_COMMAND (R205): a mandatory command of port-based routing sets the entry `idx` of a table, or reads one: one that
nothing has set is a free value. An optional command is unsupported.
[log 94, DESIGN CHOICE] -/
def execFmPbrCommand (cci code : Nat) (mandatory : Bool) (tbl idx : Nat) (v : Option Nat) (s : State) :
    Host.Outcome State Fault Refusal :=
  if mandatory = false then .next (cciAnswer s cci code rcUNSUPPORTED 0 [])
  else
    let k := tbl * 2 ^ 32 + idx
    match v with
    | some x => .next (cciAnswer (s.modMgt fun m => { m with pbr := minsert m.pbr k x }) cci code rcSUCCESS 0 [x])
    | none =>
      match mfind s.mgt.pbr k with
      | some x => .next (cciAnswer s cci code rcSUCCESS 0 [x])
      | none => .next (drawn s fun x s => cciAnswer s cci code rcSUCCESS 0 [x])

/-- FM_UNSUPPORTED_COMMAND (R205). -/
def execFmUnsupportedCommand (cci code : Nat) (s : State) : Host.Outcome State Fault Refusal :=
  .next (cciAnswer s cci code rcUNSUPPORTED 0 [])

/-- GET_BINDING_STATE (R208): what the tenant's vPPBs are bound to, and its extents. -/
def bindingState (s : State) (t : Nat) : List Nat :=
  vcsInfo s t ++ ((s.binds.get (tenantHalf t)).ext.filter fun e => e.tenant == t).flatMap fun e =>
    [e.sub, e.ld, e.base, e.len, e.share.toNat]
def execGetBindingState (cci : Nat) (t : BitVec 6) (s : State) : Host.Outcome State Fault Refusal :=
  .next (cciReadCmd s cci 0xC000 [tenantHalf t.toNat] (bindingState s t.toNat))

/-- STAGE_BINDING_ROWS (R208): 1 to 8 rows in the format of R199, each in the row the Observer chooses. The earliest Transit
`at_` goes to the program in the ring's entry with the rows' addresses. -/
def execStageBindingRows (cci : Nat) (t : BitVec 6) (rows : List (BitVec 6 × List Word)) (tk : BitVec 16)
    (at_ : Option Nat) (s : State) :
    Host.Outcome State Fault Refusal :=
  let as := rows.map fun r => SF_BSTAGE t.toNat r.1.toNat 0
  if rows.length < 1 ∨ 8 < rows.length then .next (cciAnswer s cci 0xC001 rcINVALID 0 [])
  else if as.any fun a => rowTaken s a then .next (cciAnswer s cci 0xC001 rcBUSY exBUSY [])
  else
    .next (bgStart s cci [tenantHalf t.toNat] ⟨0xC001, as.dedup, t.toNat, false, []⟩ fun s =>
      let s := rows.foldl (fun s r => stageRow s (SF_BSTAGE t.toNat r.1.toNat 0) r.2 tk.toNat) s
      ringPost s (tenantHalf t.toNat) (at_.getD 0 :: as))

/-- GET_SLOT_STATE (R208): PRT_SLOT_STAT and the channel's state. -/
def execGetSlotState (cci : Nat) (p : BitVec 5) (s : State) : Host.Outcome State Fault Refusal :=
  .next (cciReadCmd s cci 0xC011 [portHalf p.toNat] [(s.rd (PRT_SLOT_STAT p.toNat)).toNat, (s.rd (SHT_STAT p.toNat)).toNat])

/-- TENANT_RESET_COMMAND (R208, R217): a background operation that is over when the reset ends. -/
def execTenantResetCommand (cci : Nat) (t : BitVec 6) (s : State) : Host.Outcome State Fault Refusal :=
  .next (bgStart s cci [tenantHalf t.toNat] ⟨opTENRST, [], t.toNat, false, []⟩ fun s => resetStart s t.toNat)

/-- GET_TENANT_STATE (R208): the Observer reads SF_TEN_STAT and SF_TEN_ERRCNT, whose counters a read clears.
[log 94, DESIGN CHOICE] -/
def execGetTenantState (cci : Nat) (t : BitVec 6) (s : State) : Host.Outcome State Fault Refusal :=
  let m : Master := .obs (cciHalf s cci) 0
  .next (cciServe s cci 0xC021 [tenantHalf t.toNat] fun s =>
    let a := csRead s m (SF_TEN_STAT t.toNat)
    let b := csRead a.2 m (SF_TEN_ERRCNT t.toNat)
    cciAnswer b.2 cci 0xC021 rcSUCCESS 0 [a.1.toNat, b.1.toNat])

/-- SET_SWITCH_CCI_TENANT (R208): FM_CCI of one tenant; setting it clears every other. -/
def execSetSwitchCciTenant (cci : Nat) (t : BitVec 6) (on : Bool) (s : State) : Host.Outcome State Fault Refusal :=
  let a := SF_TEN_CTL t.toNat
  .next (cciServe s cci 0xC022 [tenantHalf t.toNat] fun s =>
    cciAnswer (tenCtlWrite s t.toNat (fldPut (s.rd a) SF_TEN_CTL_FM_CCI on.toNat)) cci 0xC022 rcSUCCESS 0 [])

end Sys2Proof.Machine
end

