-- ==== Sys2Proof/Machine/RefereeCmds.lean ====
section
/-! DEFINITION. The Referee's commands (spec 14): the event queue, the Scorebook, ALERT_L, the leak of the
leaky counts, retirement, requalification, and the life and ageing monitors. -/

namespace Sys2Proof.Machine

open Sys2Proof

/-- One leaky count at a boundary (R424): it falls by 1 at multiples of 2^LEAK_EXP (above 40 treated as 40);
a retired unit's count is stopped (R427). -/
def leakOne (s : State) (h : Half) (key : Nat) : State :=
  let k := (key - REF_LCNT h 0 0) / 0x800
  let e := min 40 (s.fget (REF_LEAK h k) REF_LEAK_LEAK_EXP)
  if s.tn h % 2 ^ e = 0 ∧ s.flag key REF_LCNT_RETIRED = false then
    s.fset key REF_LCNT_COUNT (s.fget key REF_LCNT_COUNT - 1)
  else s

/-- The leaky-count registers of a half that are not at 0, by address (kinds 0 to 5). -/
def leakKeys (s : State) (h : Half) : List Nat :=
  (s.regs.filter fun e => decide (REF_LCNT h 0 0 ≤ e.1) && decide (e.1 < REF_LCNT h 6 0)).map fun e => e.1

/-- LEAKY_COUNT_LEAK (R424), once for each boundary. -/
def execLeakyCountLeak (h : Half) (s : State) : Host.Outcome State Fault Refusal :=
  if (s.ref.get h).leakTn = some (s.tn h) then .next s
  else .next (((leakKeys s h).foldl (fun s k => leakOne s h k) s).modRef h fun r => { r with leakTn := some (s.tn h) })

/-- Spares of a kind of bank (R425). -/
def spareBanks (k : Nat) : Nat :=
  match k with
  | 1 => 8
  | 2 => 2
  | 3 => 1
  | 4 => 1
  | _ => 0

/-- BANK_RETIRE_DONE (R425, R427): a draining bank is empty; a spare takes its place (SRAM cause 1), or the
unit's capacity falls by the bank (SRAM cause 2). -/
def execBankRetireDone (h : Half) (k i : Nat) (s : State) : Host.Outcome State Fault Refusal :=
  if (k, i) ∈ (s.ref.get h).draining then
    let used := mget (fun _ => 0) (s.ref.get h).sparesUsed k
    let s := s.modRef h fun r => { r with draining := r.draining.erase (k, i) }
    if used < spareBanks k then
      .next (raise (s.modRef h fun r => { r with sparesUsed := minsert r.sparesUsed k (used + 1) }) h (evtU 17 1 i k i 0))
    else
      .next (raise (s.modRef h fun r =>
        { r with banksLost := minsert r.banksLost k (mget (fun _ => 0) r.banksLost k + 1) }) h (evtU 17 2 i k i 0))
  else .next s

/-- PSEUDO_CHANNEL_COPY_DONE (R426): the retired pseudo-channel's contents stand in the spare region; reads and
writes use that place alone from now on. `slots` are the Line Store slots it held, `badSlots` and `badWays` what could not be read
of these and of the image (R245).
[log 153, DESIGN CHOICE] -/
def execPseudoChannelCopyDone (h : Half) (pc : Nat) (slots badSlots badWays : List Nat) (s : State) : Host.Outcome State Fault Refusal :=
  if (s.ref.get h).hbmCopy.contains pc then
    .next (catRetire (s.modRef h fun r => { r with hbmCopy := r.hbmCopy.erase pc }) h slots badSlots badWays)
  else .next s

/-- A write of REF_EVQ_PTR.HEAD: one that would pass TAIL or move backwards is discarded (R419).
[log 37, DEDUCED] -/
def evqHeadWrite (s : State) (h : Half) (v : Word) : State :=
  let a := REF_EVQ_PTR h
  let hd := s.fget a REF_EVQ_PTR_HEAD
  let nw := fldGet v REF_EVQ_PTR_HEAD
  if (nw + 2 ^ 16 - hd) % 2 ^ 16 ≤ evqOcc s h then evqLevel (s.fset a REF_EVQ_PTR_HEAD nw) h
  else writeDiscarded s h a

/-- EVQ_HEAD_WRITE (R419, R420). -/
def execEvqHeadWrite (m : Master) (h : Half) (v : Word) (s : State) : Host.Outcome State Fault Refusal :=
  .next (csGate s m (REF_EVQ_PTR h) fun s => evqHeadWrite s h v)

/-- SCOREBOOK_UNFREEZE (R418). -/
def execScorebookUnfreeze (m : Master) (h : Half) (s : State) : Host.Outcome State Fault Refusal :=
  .next (csGate s m (REF_STAT h) fun s => s.fset (REF_STAT h) REF_STAT_SB_FROZEN 0)

/-- A write of REF_RAISE raises a SOFT event; SEV 4-7 is treated as 3. -/
def softRaise (s : State) (h : Half) (v : Word) : State :=
  raiseSev s h (evt 28 (fldGet v REF_RAISE_CAUSE) 0 0) (min 3 (fldGet v REF_RAISE_SEV))

/-- SOFT_EVENT_RAISE (R411, REF_RAISE). -/
def execSoftEventRaise (m : Master) (h : Half) (v : Word) (s : State) : Host.Outcome State Fault Refusal :=
  .next (csGate s m (REF_RAISE h) fun s => softRaise s h v)

/-- A write of REF_UNFENCE waits for the next boundary; only KIND 6, a Rotation requester, is taken (R416). -/
def unfenceWrite (s : State) (h : Half) (v : Word) : State :=
  if fldGet v REF_UNFENCE_KIND = 6 then
    s.modRef h fun r => { r with unfence := r.unfence ++ [fldGet v REF_UNFENCE_INSTANCE] }
  else s

/-- UNFENCE (R416). -/
def execUnfence (m : Master) (h : Half) (v : Word) (s : State) : Host.Outcome State Fault Refusal :=
  .next (csGate s m (REF_UNFENCE h) fun s => unfenceWrite s h v)

/-- REF_REQUAL.RESULT codes. -/
def rqRUNNING : Nat := 1
def rqPASS : Nat := 2
def rqFAIL : Nat := 3

/-- A write of REF_REQUAL (R428): BANK, and with START a run of 1,000 Transits in control hold; a run on a
standby bank that is not valid fails at once. -/
def requalWrite (s : State) (h : Half) (bank start : Bool) : State :=
  let a := REF_REQUAL h
  let s := s.fsetB a REF_REQUAL_BANK bank
  if start ∧ s.flag (TRP_STAT h) TRP_STAT_HOLD ∧ (s.trp.get h).requal = none then
    if bank ∧ bankValid s h (1 - s.fget (TRP_CTL h) TRP_CTL_SEL) = false then s.fset a REF_REQUAL_RESULT rqFAIL
    else (s.fset a REF_REQUAL_RESULT rqRUNNING).modTrp h fun t =>
      { t with requal := some (bank, 1000), requalBad := false }
  else s

/-- REQUAL_START (R428). -/
def execRequalStart (m : Master) (h : Half) (bank : Bool) (s : State) : Host.Outcome State Fault Refusal :=
  .next (csGate s m (REF_REQUAL h) fun s => requalWrite s h bank true)

/-- REQUAL_END (R428): the run is over: a mismatch, cutoff or fault ended it, or its Transits have run. It
passes with a passing scratch self-test; control hold then ends at the next boundary. -/
def execRequalEnd (h : Half) (selfTest : Bool) (s : State) : Host.Outcome State Fault Refusal :=
  match (s.trp.get h).requal with
  | none => .next s
  | some (b, n) =>
    if (s.trp.get h).requalBad ∨ (n = 0 ∧ selfTest = false) then
      .next ((s.fset (REF_REQUAL h) REF_REQUAL_RESULT rqFAIL).modTrp h fun t => { t with requal := none })
    else if n = 0 then
      .next ((s.fset (REF_REQUAL h) REF_REQUAL_RESULT rqPASS).modTrp h fun t =>
        { t with requal := none, requalPass := some b })
    else .next s

/-- Control hold ends at the boundary after a passing run (R428): C is 0, RETIRED clears, TIROP cause 4; a run
on the standby bank makes it active. -/
def requalApply (s : State) (h : Half) : State :=
  match (s.trp.get h).requalPass with
  | none => s
  | some b =>
    let s := s.modTrp h fun t => { t with requalPass := none }
    let s := s.fset (TRP_STAT h) TRP_STAT_HOLD 0
    let s := s.fsets (REF_LCNT h 0 0) [(REF_LCNT_COUNT, 0), (REF_LCNT_RETIRED, 0)]
    let s := if b then setSel s h (1 - s.fget (TRP_CTL h) TRP_CTL_SEL) else s
    raise s h (evt 2 4 0 0)

/-- ALERT_L under software control (R421): low while HOLD is 1. -/
def alertFollowsHold (s : State) : State :=
  { s with alert := { s.alert with low := s.flag MRD_ALERT_CTL MRD_ALERT_CTL_HOLD } }

/-- ALERT_PULSE_END (R421): 2 µs after the last alerting request ALERT_L follows HOLD.
[log 4, DESIGN CHOICE] -/
def execAlertPulseEnd (s : State) : Host.Outcome State Fault Refusal :=
  if s.alert.pulse then
    let s := { s with alert := { s.alert with pulse := false } }
    .next (if s.fget MRD_ALERT_CTL MRD_ALERT_CTL_MODE = 0 then alertFollowsHold s else s)
  else .next s

/-- ALIVE_TOGGLE (R422): while the Dome runs, in an alive mode that is not stopped, ALERT_L falls at boundaries whose TN is a
multiple of 1,000 and rises 500 later; before the Meridian runs the DOME clock times the edges.
[log 46, DESIGN CHOICE] -/
def execAliveToggle (h : Half) (s : State) : Host.Outcome State Fault Refusal :=
  if s.dome.run = false ∨ s.fget MRD_ALERT_CTL MRD_ALERT_CTL_MODE = 0 ∨ s.flag MRD_ALERT_CTL MRD_ALERT_CTL_STOPPED then .next s
  else if s.fget MRD_SVC_STAT MRD_SVC_STAT_PHASE ≤ 1 then
    .next { s with alert := { s.alert with low := !s.alert.low } }
  else if s.tn h % 1000 = 0 then .next { s with alert := { s.alert with low := true } }
  else if s.tn h % 1000 = 500 then .next { s with alert := { s.alert with low := false } }
  else .next s

/-- ALERT_RESUME (R422): writing 1 to STOPPED resumes the toggle at its next edge. -/
def execAlertResume (m : Master) (s : State) : Host.Outcome State Fault Refusal :=
  .next (csGate s m MRD_ALERT_CTL fun s => s.fset MRD_ALERT_CTL MRD_ALERT_CTL_STOPPED 0)

/-- A change of MODE (R423): from an alive mode to SERVICE a stopped toggle stays visible as HOLD. -/
def alertMode (s : State) (mode : Nat) : State :=
  let old := s.fget MRD_ALERT_CTL MRD_ALERT_CTL_MODE
  let s := s.fset MRD_ALERT_CTL MRD_ALERT_CTL_MODE mode
  if old ≠ 0 ∧ mode = 0 then
    let s := if s.flag MRD_ALERT_CTL MRD_ALERT_CTL_STOPPED then
        s.fsets MRD_ALERT_CTL [(MRD_ALERT_CTL_STOPPED, 0), (MRD_ALERT_CTL_HOLD, 1)] else s
    alertFollowsHold s
  else s

/-- ALERT_MODE_WRITE (R423). -/
def execAlertModeWrite (m : Master) (mode : BitVec 2) (s : State) : Host.Outcome State Fault Refusal :=
  .next (csGate s m MRD_ALERT_CTL fun s => alertMode s mode.toNat)

/-- A write of MRD_ALERT_CTL (R421-R423): LATCH, HOLD, STOPPED (write 1 clears) and MODE. -/
def alertCtlWrite (s : State) (v : Word) : State :=
  let a := MRD_ALERT_CTL
  let s := s.fsets a [(MRD_ALERT_CTL_LATCH, fldGet v MRD_ALERT_CTL_LATCH), (MRD_ALERT_CTL_HOLD, fldGet v MRD_ALERT_CTL_HOLD)]
  let s := if fldGet v MRD_ALERT_CTL_STOPPED = 1 then s.fset a MRD_ALERT_CTL_STOPPED 0 else s
  let s := alertMode s (fldGet v MRD_ALERT_CTL_MODE)
  if s.fget a MRD_ALERT_CTL_MODE = 0 ∧ s.alert.pulse = false then alertFollowsHold s else s

/-- One second of life (R431): 10 units of 0.1 s, or 16 after a second with Tj above 95 °C. -/
def lifeStep (s : State) (hot : Bool) : State :=
  s.wr64 MRD_LIFE_LO (s.rd64 MRD_LIFE_LO + (if hot then 16 else 10))

/-- A hot second on an LXK-5120-C also raises THERMAL cause 3 in both halves (R431). -/
def hotSecond (s : State) (hot : Bool) : State :=
  if hot && s.fget (REF_THERM .east) REF_THERM_GRADE == 0 then raiseBoth s (evt 20 3 0 0) else s

/-- LIFE_COUNT_UPDATE (R431), at every millionth Transit. -/
def execLifeCountUpdate (s : State) : Host.Outcome State Fault Refusal :=
  if s.tn .east % 1000000 = 0 ∧ s.dome.lifeTn ≠ some (s.tn .east) then
    let hot := s.dome.hot
    .next (hotSecond (lifeStep { s with dome := { s.dome with hot := false, lifeTn := some (s.tn .east) } } hot) hot)
  else .next s

/-- AGEING_MEASURE (R432): the slowdown measured in half h; above the threshold both halves raise THERMAL
cause 2 (R536).
[log 47, DEDUCED] -/
def execAgeingMeasure (h : Half) (slow : BitVec 16) (s : State) : Host.Outcome State Fault Refusal :=
  let s := s.fset (REF_AGE h) REF_AGE_SLOW slow.toNat
  .next (if s.fget (REF_AGE h) REF_AGE_THR < slow.toNat then raiseBoth s (evt 20 2 0 0) else s)

/-- The bandwidth windows of a half close (R446): at a boundary whose TN is a multiple of 2^WEXP each station's registers take the
window's bytes over its length, rounded down.
[log 161, DEDUCED] -/
def bwClose (s : State) (h : Half) : State :=
  let p := s.phm.get h
  if s.tn h % 2 ^ p.wexp = 0 ∧ p.bwTn ≠ some (s.tn h) then
    let s := (List.range 16).foldl (fun s i =>
      (s.wr (PHM_BW_RX h i) (BitVec.ofNat 32 (mget (fun _ => 0) p.rxBytes i / 2 ^ p.wexp))).wr (PHM_BW_TX h i)
        (BitVec.ofNat 32 (mget (fun _ => 0) p.txBytes i / 2 ^ p.wexp))) s
    s.modPhm h fun x => { x with rxBytes := [], txBytes := [], bwTn := some (s.tn h) }
  else s

/-- A change of WEXP in force at a boundary (R446): windows that end there close, and the first window of the new length starts.
[log 161, DEDUCED] -/
def bwTake (s : State) (h : Half) : State :=
  let w := min 16 (s.fget (PHM_CTL h) PHM_CTL_WEXP)
  if w = (s.phm.get h).wexp then s
  else (bwClose s h).modPhm h fun x => { x with wexp := w, rxBytes := [], txBytes := [], bwTn := some (s.tn h) }

/-- BW_WINDOW_CLOSE (R446), once for each boundary. -/
def execBwWindowClose (h : Half) (s : State) : Host.Outcome State Fault Refusal := .next (bwClose s h)

end Sys2Proof.Machine
end

