-- ==== Sys2Proof/Machine/Observer.lean ====
section
/-! DEFINITION. The Observer clusters (spec 17): watchdogs, failover and handover (R473-R478), MCTP and SPDM (R479-R484), and
firmware update (R488-R490). -/

namespace Sys2Proof.Machine

open Sys2Proof

/-- Apply a change to the Observer cluster of a half. -/
def State.modObs (s : State) (h : Half) (f : Obs → Obs) : State := { s with obs := s.obs.set h (f (s.obs.get h)) }
def State.modFw (s : State) (f : Fw → Fw) : State := { s with fw := f s.fw }

/-- Is half h's cluster primary; is the other cluster of half h ready to take over? -/
def isPrimary (s : State) (h : Half) : Bool := s.flag (OBS_STAT h) OBS_STAT_ROLE
def setReady (s : State) (h : Half) (b : Bool) : State := s.fsetB (OBS_STAT h) OBS_STAT_STANDBY_READY b
def setRole (s : State) (h : Half) (b : Bool) : State := s.fsetB (OBS_STAT h) OBS_STAT_ROLE b
/-- JOURNAL_OK, as both halves show it.
[log 110, DEDUCED] -/
def setJournal (s : State) (b : Bool) : State :=
  (s.fsetB (OBS_STAT .east) OBS_STAT_JOURNAL_OK b).fsetB (OBS_STAT .west) OBS_STAT_JOURNAL_OK b

/-- A write of OBS_WDOG (R476): TMO, and with KICK the watchdog starts again. -/
def wdogKick (s : State) (h : Half) : State :=
  let now := s.now h
  s.modObs h fun o => { o with kick := now }
def wdogWrite (s : State) (h : Half) (v : Word) : State :=
  let s := s.fset (OBS_WDOG h) OBS_WDOG_TMO (fldGet v OBS_WDOG_TMO)
  if fldGet v OBS_WDOG_KICK = 1 then wdogKick s h else s

/-- OBS_WATCHDOG_KICK (R476). -/
def execObsWatchdogKick (m : Master) (h : Half) (s : State) : Host.Outcome State Fault Refusal :=
  .next (csGate s m (OBS_WDOG h) fun s => wdogKick s h)

/-- A cluster is held in reset and restarts; its queues, its sessions and a transfer are lost (R476, R478).
[log 110, DEDUCED] -/
def clusterDown (s : State) (h : Half) : State :=
  let s := s.modObs h fun o => { o with held := true, halted := [] }
  (List.range 67).foldl (fun s c => s.fset (OBS_CLS_STAT h c) OBS_CLS_STAT_QUEUED 0) s

/-- The failed primary's half h gives over to the standby (R476, R478); a halted standby is restarted first (R492).
[log 110, DEDUCED] -/
def failover (s : State) (h : Half) : State :=
  let o := h.other
  let s := s.fbump (OBS_ERRCNT h) OBS_ERRCNT_FAILOVER_CNT 1
  let s := (setReady (setReady (setRole s h false) h false) o false)
  let s := { s with spdm := { s.spdm with sessions := [] } }
  let s := s.modFw fun f => { f with xfer := none, handover := none }
  let s := setJournal s false
  if (s.obs.get o).held then s else setRole (s.modObs o fun x => { x with halted := [] }) o true

/-- OBS_WATCHDOG_EXPIRY (R476): half h's cluster has not kicked for TMO milliseconds. -/
def execObsWatchdogExpiry (h : Half) (s : State) : Host.Outcome State Fault Refusal :=
  let tmo := max 1 (s.fget (OBS_WDOG h) OBS_WDOG_TMO) * 1000000
  if (s.obs.get h).held || decide (s.now h < (s.obs.get h).kick + tmo) then .next s
  else if isPrimary s h then
    let s := alertMode (raise s h (evt 3 0 0 0)) 3
    .next (failover (clusterDown s h) h)
  else
    let s := setJournal (setReady (raise s h (evt 3 1 0 0)) h.other false) false
    .next (clusterDown s h)

/-- What an activation has left to do once a cluster has restarted (R489): with the standby on the new image the primary hands
over; with the former primary on it too the image is preferred and the operation is COMPLETED. -/
def activationNext (s : State) (h : Half) (a : Activation) : State :=
  let s := s.modObs h fun o => { o with img := a.slot }
  if a.ready = false then
    (s.modFw fun f => { f with act := some { a with ready := true }, handover := some h.other })
  else
    let s := s.fsets MRD_BOOT_CTL [(MRD_BOOT_CTL_PREF, a.slot), (MRD_BOOT_CTL_PREF_V, 1)]
    let late := match mfind s.mgt.bg a.cci with
      | some o => o.late.toNat
      | none => 0
    bgEnd (s.modFw fun f => { f with act := none }) a.cci rcSUCCESS late

/-- CLUSTER_RESTART_DONE (R476, R489): half h's cluster runs again and is standby; where no cluster is primary it is that. -/
def execClusterRestartDone (h : Half) (s : State) : Host.Outcome State Fault Refusal :=
  if isPrimary s h then .next s
  else
    let now := s.now h
    let s := s.modObs h fun o => { o with held := false, halted := [], kick := now }
    let s := if isPrimary s h.other then setReady s h.other true else setRole s h true
    .next (match s.fw.act with
      | some a => activationNext s h a
      | none => s)

/-- May a planned handover start on half h (R477)? -/
def handoverMay (s : State) (h : Half) : Bool :=
  s.flag (OBS_STAT h) OBS_STAT_STANDBY_READY && s.flag (OBS_STAT h) OBS_STAT_JOURNAL_OK && !isSplit s h

/-- A write of 1 to OBS_CTL.HANDOVER. -/
def handoverWrite (s : State) (h : Half) : State :=
  if handoverMay s h then s.modFw fun f => { f with handover := some h }
  else s.fbump (OBS_ERRCNT h) OBS_ERRCNT_HO_REFUSED_CNT 1

/-- HANDOVER_REQUEST (R477). -/
def execHandoverRequest (m : Master) (h : Half) (s : State) : Host.Outcome State Fault Refusal :=
  .next (csGate s m (OBS_CTL h) fun s => handoverWrite s h)

/-- The former primary restarts with the new image; from now on an abort is too late (R489).
[log 111, DEDUCED] -/
def activationCommit (s : State) (h : Half) (a : Activation) : State :=
  let s := s.fsets MRD_BOOT_STAT [(MRD_BOOT_STAT_RUNNING, a.slot), (MRD_BOOT_STAT_SVN, a.svn)]
  setReady (clusterDown s h) h.other false

/-- HANDOVER_DONE (R477): the standby becomes primary; the journal goes on the other way, and no request is lost. -/
def queuesMove (s : State) (h : Half) : State :=
  (List.range 67).foldl (fun s c =>
    let n := s.fget (OBS_CLS_STAT h c) OBS_CLS_STAT_QUEUED
    if n = 0 then s
    else
      let k := s.fget (OBS_CLS_STAT h.other c) OBS_CLS_STAT_QUEUED
      (s.fset (OBS_CLS_STAT h c) OBS_CLS_STAT_QUEUED 0).fset (OBS_CLS_STAT h.other c) OBS_CLS_STAT_QUEUED (min 16 (k + n))) s
/-- HANDOVER_DONE (R477).
[log 110, DEDUCED] -/
def execHandoverDone (s : State) : Host.Outcome State Fault Refusal :=
  match s.fw.handover with
  | none => .next s
  | some h =>
    let o := h.other
    let s := s.modFw fun f => { f with handover := none }
    let s := setReady (setReady (setRole (setRole s h false) o true) h false) o true
    let s := queuesMove s h
    .next (match s.fw.act with
      | some a => if a.ready then activationCommit s h a else s
      | none => s)

/-- JOURNAL_REBUILD_DONE (R475). -/
def execJournalRebuildDone (s : State) : Host.Outcome State Fault Refusal :=
  if isSplit s .east || isSplit s .west then .next s else .next (setJournal s true)

/-- A write of OBS_SHARE (R482): one that takes the total above 400 is discarded and logged. -/
def obsShareWrite (s : State) (h : Half) (c : Nat) (v : Word) : State :=
  let q := fldGet v OBS_SHARE_QUANTA
  let total := ((List.range 67).map fun i => if i = c then q else s.fget (OBS_SHARE h i) OBS_SHARE_QUANTA).sum
  if 400 < total then writeDiscarded s h (OBS_SHARE h c) else s.fset (OBS_SHARE h c) OBS_SHARE_QUANTA q

/-- MCTP bindings by number (R479): 0 and 1 the I3C buses, 2 + t PCIe VDM of tenant t's upstream sub-port. -/
def mctpI3c (b : Nat) : Bool := decide (b < 2)
def mctpFm (s : State) (b : Nat) : Bool := mctpI3c b || fmCciTenant s == some (b - 2)

/-- Is a message type accepted from a binding (R480)?
[log 109, DEDUCED] -/
def mctpAccepts (s : State) (b typ : Nat) : Bool :=
  match typ with
  | 0x00 | 0x05 | 0x06 | 0x08 => true
  | 0x07 => mctpFm s b
  | 0x7E => mctpI3c b
  | _ => false

/-- The class of a message (R482); firmware transfer belongs to HOUSE (R488).
[log 109, DEDUCED] -/
def mctpClass (s : State) (b typ code : Nat) : Nat :=
  if typ = 0x05 ∨ typ = 0x06 then 1
  else if typ = 0x08 ∧ 0x0200 ≤ code ∧ code ≤ 0x0202 then 2
  else if mctpFm s b then 0
  else 3 + (b - 2) % 64

/-- The half whose cluster serves a binding. -/
def mctpHalf (s : State) (b : Nat) : Half := if mctpI3c b then obsPrimary s else cciHalf s (4 + (b - 2) % 64)

/-- Codes of what leaves toward a management agent: an MCTP control error, an MCTP control answer, an SPDM message, JTAG data,
the freeze set, and the word that a CS read returns. -/
def outMCTPERR : Nat := 20
def outMCTPCTL : Nat := 21
def outSPDM : Nat := 22
def outTDO : Nat := 23
def outFREEZE : Nat := 24
/-- The word that a CS read returns.
[log 7, DESIGN CHOICE] -/
def outREAD : Nat := 25

/-- A management answer that leaves over PCIe VDMs: its code and its numbers, which leave at the sub-port (R20). -/
def mctpMsg (h : Half) (t d what x : Nat) : Msg :=
  { blankMsg .mctp (unitNode h 31) d 0 t 7 with tgt := ⟨10, what, x⟩ }

/-- An answer of the MCTP layer goes back by the binding that the request came by: on an I3C bus at once, over PCIe VDMs as a message
on VC7 (R20).
[log 59, DESIGN CHOICE] -/
def mctpAnswer (s : State) (b what x : Nat) : State :=
  let h := mctpHalf s b
  match (if mctpI3c b then none else uspOf s h ((b - 2) % 64)) with
  | none => s.emit (.out what [b, x])
  | some d => originate s h 31 (mctpMsg h ((b - 2) % 64) d what x)

/-- The packets of a message that came over PCIe VDMs are taken from station 31. -/
def mctpTake (s : State) (b : Nat) : State :=
  if mctpI3c b then s
  else
    let h := mctpHalf s b
    (lget (s.core.get h).inbox 31).foldl (fun s n =>
      if (s.msg n).any fun m => m.op == .mctp && m.tenant == b - 2 then inboxTake s h 31 n else s) s

/-- The answer to a request that finds its class queue full (R484). -/
def mctpBusy (s : State) (b typ code : Nat) : State :=
  if typ = 0x05 ∨ typ = 0x06 then s.emit (.out outSPDM [b, 0x7F, 3]) else s.emit (.ans code rcBUSY [b, exBUSY])

/-- MCTP_MESSAGE (R480, R482, R484): an assembled message of `len` bytes with its type and command code; `eid` the identifier
that a Set Endpoint ID assigns. MCTP control is answered at once.
[log 109, DEDUCED] -/
def execMctpMessage (b typ code len : Nat) (eid : Option Nat) (s : State) : Host.Outcome State Fault Refusal :=
  let s := mctpTake s b
  if mctpAccepts s b typ = false ∨ 8192 < len then .next (mctpAnswer s b outMCTPERR typ)
  else if typ = 0 then
    let s := match eid with
      | some e => { s with mctp := ⟨minsert s.mctp.eids b e⟩ }
      | none => s
    .next (mctpAnswer s b outMCTPCTL code)
  else
    let a := OBS_CLS_STAT (mctpHalf s b) (mctpClass s b typ code)
    let n := s.fget a OBS_CLS_STAT_QUEUED
    if 16 ≤ n then .next (mctpBusy (s.fbump a OBS_CLS_STAT_BUSY_CNT 1) b typ code)
    else .next (s.fset a OBS_CLS_STAT_QUEUED (n + 1))

/-- The half that serves an SPDM place, and its number. -/
def placeHalf (s : State) : SpdmPlace → Half
  | .usp t => if isSplit s (obsPrimary s) then uspHalf s t.toNat else obsPrimary s
  | .pf t => if isSplit s (obsPrimary s) then uspHalf s t.toNat else obsPrimary s
  | .dsp p _ => if isSplit s (obsPrimary s) then portHalf p.toNat else obsPrimary s
def placeNo : SpdmPlace → Nat
  | .usp t => t.toNat
  | .pf t => 64 + t.toNat
  | .dsp p k => 128 + subNode p.toNat k.toNat

/-- Is Kezen the responder there (R481)? -/
def placeResponds : SpdmPlace → Bool
  | .dsp _ _ => false
  | _ => true

/-- The words of a half's active Tirop bank. -/
def activeBank (s : State) (h : Half) : List Nat :=
  (List.range 16384).map fun i => (s.rd (TRP_BANK h (s.fget (TRP_CTL h) TRP_CTL_SEL) i)).toNat

/-- A measurement (R481): 1 boot ROM, 2 running image, 3 and 4 the active banks, 5 the fused security version.
[log 108, DESIGN CHOICE] -/
def measurement (s : State) (i : Nat) : Option Nat :=
  match i with
  | 1 => some (Config.unstated 31)
  | 2 => some (Config.unstated (32 + (s.obs.get (obsPrimary s)).img))
  | 3 => some (Config.digest (activeBank s .east))
  | 4 => some (Config.digest (activeBank s .west))
  | 5 => some s.fw.minSvn
  | _ => none

/-- A certificate chain (R481): slot 0 Caermer's, slots 1 to 7 as the FM provisioned them.
[log 108, DESIGN CHOICE] -/
def certChain (s : State) (slot : Nat) : Option Nat := if slot = 0 then some (Config.unstated 30) else mfind s.spdm.certs slot

/-- Establish or end a session. -/
def putSession (s : State) (pl id : Nat) (on : Bool) : State :=
  let l := s.spdm.sessions.filter fun e => e ≠ (pl, id)
  { s with spdm := { s.spdm with sessions := if on then (pl, id) :: l else l } }

/-- Kezen's responder answers: place, request, and the value; an unknown index or slot gets an ERROR.
[log 108, DESIGN CHOICE] -/
def spdmValue (s : State) (pl req : Nat) (v : Option Nat) : State :=
  match v with
  | some x => s.emit (.out outSPDM [pl, req, 0, x])
  | none => s.emit (.out outSPDM [pl, req, 1])

/-- The responder's service of a request (R481). -/
def spdmServe (s : State) (pl : Nat) : SpdmReq → State
  | .measurement i => spdmValue s pl 0xE0 (measurement s i)
  | .certificate slot => spdmValue s pl 0x82 (certChain s slot)
  | .setCertificate slot chain fm =>
    if fm && decide (1 ≤ slot) && decide (slot ≤ 7) then
      spdmValue { s with spdm := { s.spdm with certs := minsert s.spdm.certs slot chain } } pl 0xEE (some slot)
    else spdmValue s pl 0xEE none
  | .startSession id => spdmValue (putSession s pl id true) pl 0xE4 (some id)
  | .endSession id => spdmValue (putSession s pl id false) pl 0xEA (some id)
  | .other code => drawn s fun v s => spdmValue s pl code (some v)

/-- Kezen's requester toward the device of a downstream sub-port: what it sends, and the session it keeps (R481). -/
def spdmAsk (s : State) (pl : Nat) : SpdmReq → State
  | .measurement i => s.emit (.out outSPDM [pl, 0xE0, i])
  | .certificate slot => s.emit (.out outSPDM [pl, 0x82, slot])
  | .setCertificate slot chain _ => s.emit (.out outSPDM [pl, 0xEE, slot, chain])
  | .startSession id => (putSession s pl id true).emit (.out outSPDM [pl, 0xE4, id])
  | .endSession id => (putSession s pl id false).emit (.out outSPDM [pl, 0xEA, id])
  | .other code => s.emit (.out outSPDM [pl, code])

/-- SPDM_MESSAGE (R481): served in class SPDM (R482). -/
def execSpdmMessage (pl : SpdmPlace) (q : SpdmReq) (s : State) : Host.Outcome State Fault Refusal :=
  let s := clsTake s (placeHalf s pl) 1
  .next (if placeResponds pl then spdmServe s (placeNo pl) q else spdmAsk s (placeNo pl) q)

/-- An answer of class HOUSE (R488). -/
def houseAnswer (s : State) (cci code ret ext : Nat) (data : List Nat) : State :=
  (clsTake s (cciHalf s cci) 2).emit (.ans code ret (cci :: ext :: data))

/-- The slot running: 1 image A, 2 image B, 0 one loaded through the UART. -/
def slotRunning (s : State) : Nat :=
  let i := (s.obs.get (obsPrimary s)).img
  if i < 2 then i + 1 else 0

/-- GET_FW_INFO (R488): two slots, the one running, and their security versions. -/
def execGetFwInfo (cci : Nat) (s : State) : Host.Outcome State Fault Refusal :=
  .next (houseAnswer s cci 0x0200 rcSUCCESS 0 [2, slotRunning s, nget s.fw.svn 0, nget s.fw.svn 1])

/-- TRANSFER_FW (R488): `len` bytes at `off` of the image for a slot, `last` with the image's security version. Only the slot not
running is written, from offset 0 on, by the East cluster. -/
def execTransferFw (cci slot off len : Nat) (last : Bool) (v : BitVec 16) (s : State) : Host.Outcome State Fault Refusal :=
  let next := match s.fw.xfer with
    | some (k, o) => if k = slot then o else 0
    | none => 0
  if (s.obs.get .east).held then .next (houseAnswer s cci 0x0201 rcBUSY 0 [])
  else if cciReach s cci [.east] = false then .next (houseAnswer s cci 0x0201 rcBUSY exSPLIT [])
  else if (slot ≠ 1 ∧ slot ≠ 2) ∨ slot = slotRunning s ∨ (off ≠ 0 ∧ off ≠ next) then
    .next (houseAnswer s cci 0x0201 rcINVALID 0 [])
  else
    let s := s.modFw fun f => { f with xfer := if last then none else some (slot, off + len) }
    let s := if last then s.modFw fun f => { f with svn := minsert f.svn (slot - 1) v.toNat } else s
    .next (houseAnswer s cci 0x0201 rcSUCCESS 0 [])

/-- Opcode of Activate FW. -/
def opACTFW : Nat := 0x0202

/-- ACTIVATE_FW (R488, R489): `r` is what the check of R459 finds in the slot's image; `compat`: it declares the running image's
journal version compatible. An activation that is not online waits for the next cold reset.
[log 111, DEDUCED] -/
def activateOnline (s : State) (cci slot svn : Nat) : State :=
  if cciReach s cci [.east, .west] = false then houseAnswer s cci opACTFW rcBUSY exSPLIT []
  else if (mfind s.mgt.bg cci).isSome ∨ s.fw.act.isSome then houseAnswer s cci opACTFW rcBUSY exBUSY []
  else
    let p := obsPrimary s
    let s := s.modMgt fun m => { m with bg := minsert m.bg cci ⟨opACTFW, [], 0, false, []⟩ }
    let s := s.modFw fun f => { f with act := some ⟨cci, slot - 1, svn, false⟩ }
    houseAnswer (setReady (clusterDown s p.other) p false) cci opACTFW rcSTARTED 0 []
/-- ACTIVATE_FW (R489).
[log 111, DEDUCED] -/
def execActivateFw (cci slot : Nat) (online : Bool) (r : BitVec 3) (v : BitVec 16) (compat : Bool) (s : State) :
    Host.Outcome State Fault Refusal :=
  if (slot ≠ 1 ∧ slot ≠ 2) ∨ imageResult s r.toNat v.toNat ≠ 1 ∨ (online && !compat) then
    .next (houseAnswer s cci opACTFW rcINVALID 0 [])
  else if online then .next (activateOnline s cci slot v.toNat)
  else
    let s := s.fsets MRD_BOOT_CTL [(MRD_BOOT_CTL_PREF, slot - 1), (MRD_BOOT_CTL_PREF_V, 1)]
    .next (houseAnswer s cci opACTFW rcSUCCESS 0 [])

/-- COMMIT_SECURITY_VERSION (R490): only the security version of the running image, while both clusters run it. -/
def execCommitSecurityVersion (cci : Nat) (v : BitVec 16) (s : State) : Host.Outcome State Fault Refusal :=
  let e := s.obs.get .east
  let w := s.obs.get .west
  if v.toNat = s.fget MRD_BOOT_STAT MRD_BOOT_STAT_SVN ∧ e.img = w.img ∧ e.held = false ∧ w.held = false then
    .next (cciAnswer (s.modFw fun f => { f with minSvn := max f.minSvn v.toNat }) cci 0xC032 rcSUCCESS 0 [])
  else .next (cciAnswer s cci 0xC032 rcINVALID 0 [])

/-- An activation is aborted (R489): before the handover the standby goes back to the old image; later it is too late. -/
def abortActivation (s : State) (cci : Nat) (o : BgOp) : State :=
  let p := obsPrimary s
  match s.fw.act with
  | some a =>
    if (s.obs.get p).img = a.slot then s.modMgt fun m => { m with bg := minsert m.bg cci { o with late := true } }
    else
      let s := s.modFw fun f => { f with act := none, handover := none }
      let old := (s.obs.get p).img
      let s := setReady (clusterDown (s.modObs p.other fun x => { x with img := old }) p.other) p false
      bgEnd s cci rcABORTED 0
  | none => s

/-- FM_REQUEST_ABORT_BACKGROUND_OP (R204, R206): CANCEL of every row the operation waits for. -/
def execFmRequestAbortBackgroundOp (cci : Nat) (s : State) : Host.Outcome State Fault Refusal :=
  let s := cciAnswer s cci 0x0005 rcSUCCESS 0 []
  match mfind s.mgt.bg cci with
  | none => .next s
  | some o =>
    if o.code = opACTFW then .next (abortActivation s cci o)
    else
      .next (o.rows.foldl (fun s a =>
        match rowWord2 a with
        | some (h, w) => rowCancel s h w
        | none => s) s)

end Sys2Proof.Machine
end

