-- ==== Sys2Proof/Machine/Debug.lean ====
section
/-! DEFINITION. Debug access, the JTAG TAP and the freeze (spec 17, R491-R495). -/

namespace Sys2Proof.Machine

open Sys2Proof

/-- A CS read's word goes back to its master. -/
def readAnswer (s : State) (m : Master) (a : Nat) : State :=
  let r := csRead s m a
  r.2.emit (.out outREAD [accessAddr m a, r.1.toNat])

/-- DBG_NONCE_READ (R491).
[log 107, DEDUCED] -/
def execDbgNonceRead (m : Master) (s : State) : Host.Outcome State Fault Refusal := .next (readAnswer s m (MRD_DBG_NONCE 0))

/-- Is debug authentication in effect? -/
def authed (s : State) : Bool := s.flag MRD_DBG_STAT MRD_DBG_STAT_AUTH

/-- A failed attempt (R491): counted, the nonce discarded, the eighth locks authentication until cold reset. -/
def authFail (s : State) : State :=
  let n := min 8 (s.fget MRD_DBG_STAT MRD_DBG_STAT_AUTHFAIL + 1)
  let s := s.fsets MRD_DBG_STAT [(MRD_DBG_STAT_AUTHFAIL, n), (MRD_DBG_STAT_LOCKOUT, (decide (8 ≤ n)).toNat)]
  let s := { s with dome := { s.dome with nonce := false } }
  s.wrWords (MRD_DBG_NONCE 0) (List.replicate 12 0)

/-- DBG_AUTH_SIGNATURE (R491): `good` says whether the signature over the nonce and the serial verifies with a key that matches
the fuse. -/
def execDbgAuthSignature (good : Bool) (s : State) : Host.Outcome State Fault Refusal :=
  if s.flag MRD_DBG_STAT MRD_DBG_STAT_LOCKOUT then .next s
  else if good && s.dome.nonce && !s.flag MRD_DBG_STAT MRD_DBG_STAT_DISABLED then
    let s := s.fset MRD_DBG_STAT MRD_DBG_STAT_AUTH 1
    .next ((s.fset (UMP_STAT .east) UMP_STAT_DBG_AUTH 1).fset (UMP_STAT .west) UMP_STAT_DBG_AUTH 1)
  else .next (authFail s)

/-- DBG_DEAUTH (R491). -/
def execDbgDeauth (m : Master) (s : State) : Host.Outcome State Fault Refusal := .next (csGate s m MRD_DBG_CTL deauth)

/-- The TAP takes an instruction. -/
def setIr (s : State) (ir : TapIr) : State := { s with tap := { s.tap with ir := ir } }

/-- JTAG_IDCODE, JTAG_BYPASS (R492): the identifier of stepping A1, which the manual describes (R3).
[log 12, DESIGN CHOICE] -/
def execJtagIdcode (s : State) : Host.Outcome State Fault Refusal := .next ((setIr s .idcode).emit (.out outTDO [0x15120001]))
def execJtagBypass (s : State) : Host.Outcome State Fault Refusal := .next (setIr s .bypass)

/-- JTAG_SAMPLE_PRELOAD (R492): the balls are sampled and shifted out, and the cells take what is shifted in. -/
def execJtagSamplePreload (balls cells : List Bool) (s : State) : Host.Outcome State Fault Refusal :=
  .next ({ s with tap := ⟨.sample, cells⟩ }.emit (.out outTDO (balls.map Bool.toNat)))

/-- May the boundary be driven (R492)? -/
def boundaryMay (s : State) : Bool := authed s && decide (svcPhase s ≤ svRAILS)

/-- JTAG_EXTEST, JTAG_CLAMP, JTAG_HIGHZ (R492): refused otherwise. -/
def execJtagExtest (s : State) : Host.Outcome State Fault Refusal := .next (if boundaryMay s then setIr s .extest else s)
def execJtagClamp (s : State) : Host.Outcome State Fault Refusal := .next (if boundaryMay s then setIr s .clamp else s)
def execJtagHighz (s : State) : Host.Outcome State Fault Refusal := .next (if boundaryMay s then setIr s .highz else s)

/-- DBG_CORE_CONTROL (R492): on a core of the standby cluster, when authenticated. A step or an abstract command acts inside the
core and leaves it halted. -/
def coreControl (s : State) (h : Half) (c : Nat) (op : CoreOp) : State :=
  let l := (s.obs.get h).halted.filter fun x => x ≠ c
  let l := match op with
    | .halt => c :: l
    | .resume => l
    | .step => (s.obs.get h).halted
    | .abstract => (s.obs.get h).halted
  let s := s.modObs h fun o => { o with halted := l }
  if isPrimary s h.other then setReady s h.other (l.isEmpty && !(s.obs.get h).held) else s
def execDbgCoreControl (h : Half) (c : BitVec 2) (op : CoreOp) (s : State) : Host.Outcome State Fault Refusal :=
  if authed s && !isPrimary s h then .next (coreControl s h c.toNat op) else .next s

/-- FREEZE (R493): FREEZE_L has been low for 1 µs.
[log 13, DESIGN CHOICE; log 106, DEDUCED] -/
def execFreeze (s : State) : Host.Outcome State Fault Refusal :=
  if (s.flag MRD_FRZ_CTL MRD_FRZ_CTL_EN && s.dome.released) = false then .next s
  else .next (alertStop (s.fset MRD_FRZ_STAT MRD_FRZ_STAT_FROZEN 1))

/-- The freeze set (R495): the CS registers, each pair's registers, flags and cycle counter, the tag and crossing tables.
[log 106, DEDUCED] -/
def freezeSet (s : State) : List Nat :=
  let pair (h : Half) : List Nat :=
    let t := s.trp.get h
    (t.w.toList.map fun w => w.toNat) ++ [t.zf.toNat, t.nf.toNat, t.cf.toNat, t.vf.toNat, t.bc]
  s.regs.flatMap (fun e => [e.1, e.2.toNat]) ++ pair .east ++ pair .west ++ s.net.tags.map (fun e => e.1)
    ++ s.net.itags.map (fun e => e.1) ++ (s.cdb.get .east).cross.map (fun e => e.1) ++ (s.cdb.get .west).cross.map fun e => e.1

/-- FREEZE_SCAN (R492, R495): only when frozen and authenticated. -/
def execFreezeScan (s : State) : Host.Outcome State Fault Refusal :=
  if (frozen s && authed s) = false then .next s
  else
    let s := (setIr s .freezeScan).emit (.out outFREEZE (freezeSet s))
    .next (s.fbump MRD_FRZ_STAT MRD_FRZ_STAT_READOUT 1)

end Sys2Proof.Machine
end

