-- ==== Sys2Proof/Machine/HostBar.lean ====
section
/-! DEFINITION. A host's accesses to the BAR0 of a function and to the PF's Expansion ROM (R343-R347, R353-R360, R373). -/

namespace Sys2Proof.Machine

open Sys2Proof

/-- What a host access finds (R370, R372): no function there or one in FLR, a withdrawn function, or a function that
answers. -/
inductive FnSeen where
  | absent | withdrawn | present
  deriving DecidableEq, Repr
def fnSeen (s : State) (t fn : Nat) : FnSeen :=
  if !fnExists s t fn || (s.fn t fn).flr.isSome then .absent else if fnGone s t fn then .withdrawn else .present

/-- A byte of a number, low byte first. -/
def byteOf (n i : Nat) : Nat := n / 2 ^ (8 * i) % 256

/-- A number from its bytes, low byte first. -/
def ofBytes (l : List Nat) : Nat := l.foldr (fun b n => b % 256 + 256 * n) 0

/-- The bytes of the descriptor table (R347), given its CRC; the revision identifier is that of A1, the stepping that the manual
describes (R3, R4). -/
def tableWords (crc : Nat) : List Nat :=
  [0x4B5A5346, 0x00010000, 0x40, crc, 0x01, 0x2813, 0x040C0B0C, 0x03C00040, 0x1000, 0x1800, 0x2000,
   0x20000, 0x40000, 0x0400001E, 1000, 0]
def tableBytes (crc : Nat) : List Nat := (tableWords crc).flatMap fun w => (List.range 4).map fun i => byteOf w i

/-- The PCI Data Structure at 0x40: signature, vendor, device, its length and revision, image length 1, code type 0xFF and the
last-image indicator (R346).
[log 57, PRESUMED] -/
def pcirBytes : List Nat :=
  [0x50, 0x43, 0x49, 0x52, 0xE5, 0xCA, 0x21, 0x51, 0, 0, 0x1C, 0, 3, 0, 0, 0, 1, 0, 0, 0, 0xFF, 0x80]

/-- A byte of the Expansion ROM (R346).
[log 57, PRESUMED] -/
def romByte (i : Nat) : Nat :=
  if i = 0 then 0x55 else if i = 1 then 0xAA else if i = 0x18 then 0x40
  else if i < 0x40 then 0
  else if i < 0x100 then pcirBytes.getD (i - 0x40) 0
  else (tableBytes (crc32 (tableBytes 0)).toNat).getD (i - 0x100) 0

/-- A register word of BAR0 (R344): what is read, and the read's own effects. A VF has no migration registers.
 -/
def fnRegRead (s : State) (t fn off : Nat) : Nat × State :=
  if 0x100 ≤ off ∧ fn ≠ 0 then (0, s)
  else if off = 0x110 then (imageLen s t (s.fget (SF_MIG_CTL t 0) SF_MIG_CTL_VF), s)
  else
    let k := accessAddr (.host t fn) off
    match descAt k with
    | none => (0, s)
    | some d =>
      let r := readReg s (.host t fn) d k
      (r.1.toNat, r.2)

/-- A word of a queue window (R344, R355). -/
def windowWord (s : State) (t fn q off : Nat) : Nat :=
  if off / 64 < qSize s t fn q then nget (s.fn t fn).ents (q * 65536 + off / 64) / 2 ^ (8 * (off % 64)) % 2 ^ 32 else 0

/-- A word of BAR0 (R344). -/
def barRead (s : State) (t fn off : Nat) : Nat × State :=
  if off < 0x1000 then fnRegRead s t fn off
  else if off < 0x1040 then (nget (s.fn t fn).msix ((off - 0x1000) / 4), s)
  else if off = 0x1800 then ((s.fn t fn).pbits, s)
  else if 0x20000 ≤ off ∧ off < 0x40000 then (windowWord s t fn 1 (off - 0x20000), s)
  else if 0x40000 ≤ off ∧ off < 0x80000 then (windowWord s t fn 2 (off - 0x40000), s)
  else (0, s)

/-- The word offsets that an access of `len` bytes at `off` touches. -/
def wordOffs (off len : Nat) : List Nat :=
  (List.range ((off + len + 3) / 4 - off / 4)).map fun i => (off / 4 + i) * 4

/-- The words that an access touches, read in order. -/
def readWords (s : State) (t fn : Nat) (l : List Nat) : List Nat × State :=
  l.foldl (fun r w =>
    let x := barRead r.2 t fn w
    (r.1 ++ [x.1], x.2)) ([], s)

/-- A host read of `len` bytes at `off` of BAR `bar` (BAR0, or 6 for the PF's Expansion ROM): the data, or none where no
function answers.
 -/
def hostRead (s : State) (t fn bar off len : Nat) : Option (Nat × State) :=
  match fnSeen s t fn with
  | .absent => none
  | .withdrawn => some (2 ^ (8 * len) - 1, s)
  | .present =>
    if bar = 6 then (if fn = 0 then some (ofBytes ((List.range len).map fun i => romByte (off + i)), s) else none)
    else
      let r := readWords s t fn (wordOffs off len)
      some (wordsNat r.1 / 2 ^ (8 * (off % 4)) % 2 ^ (8 * len), r.2)

/-- The word at offset w after a write of `len` bytes at `off`: a byte that the write does not cover keeps `old`.
[log 39, DESIGN CHOICE] -/
def coverWord (off len data w old : Nat) : Nat :=
  ofBytes ((List.range 4).map fun i =>
    if off ≤ w + i ∧ w + i < off + len then byteOf data (w + i - off) else byteOf old i)

/-- A host write of SF_MIG_CTL (R373): VF is stored while no command is pending, ABORT ends a pending command, and CMD
starts one. The row and the ticket of a command that needs a row are the Observer's choice: free values.
[log 87, DESIGN CHOICE] -/
def migCtlWrite (s : State) (t : Nat) (v : Word) : State :=
  let vf := fldGet v SF_MIG_CTL_VF
  let s := if (s.fn t 0).mig.isNone then s.fset (SF_MIG_CTL t 0) SF_MIG_CTL_VF vf else s
  let s := if fldGet v SF_MIG_CTL_ABORT = 1 then migAbort s t else s
  let n := s.draw
  let k := n.2.draw
  match fldGet v SF_MIG_CTL_CMD with
  | 1 => migRow k.2 t vf 1 4 (n.1 % 16) (k.1 % 2 ^ 16)
  | 2 => migSave s t vf
  | 3 => migRow k.2 t vf 3 5 (n.1 % 16) (k.1 % 2 ^ 16)
  | 4 => migRow k.2 t vf 4 6 (n.1 % 16) (k.1 % 2 ^ 16)
  | _ => s

/-- A host write of a register of BAR0 (R344, R353-R358, R373); read-only registers and empty offsets discard it. -/
def fnRegWrite (s : State) (t fn off : Nat) (v : Word) : State :=
  let q := off / 16 - 4
  let plain := fun (a : Nat) => match descAt a with
    | some d => plainWrite s d a v
    | none => s
  if 0x40 ≤ off ∧ off < 0x70 then
    (match off % 16 with
     | 0 => qcfgWrite s t fn q v
     | 4 => qptrWrite s t fn q v
     | 8 => qLevel (plain (SF_QWM t fn q)) t fn q
     | _ => s)
  else if fn ≠ 0 then s
  else if off = 0x100 then migCtlWrite s t v
  else if off = 0x108 then holdLow s (SF_MIG_ADDR_LO t 0) v
  else if off = 0x10C then
    (match descAt (SF_MIG_ADDR_HI t 0), descAt (SF_MIG_ADDR_LO t 0) with
     | some d, some dl => applyHigh s d dl (SF_MIG_ADDR_HI t 0) v
     | _, _ => s)
  else s

/-- A host write of a word of the MSI-X table (R344): Vector Control keeps its Mask Bit alone; a vector that is unmasked goes
if it is pending. -/
def msixWrite (s : State) (t fn i v : Nat) : State :=
  msixPending (s.modFn t fn fun f => { f with msix := nset f.msix i (if i % 4 = 3 then v % 2 else v) }) t fn

/-- A host write of a word of BAR0 outside the push window (R344).
[log 39, DESIGN CHOICE] -/
def barWrite (s : State) (t fn w v : Nat) : State :=
  if w < 0x1000 then fnRegWrite s t fn w (BitVec.ofNat 32 v)
  else if w < 0x1040 then msixWrite s t fn ((w - 0x1000) / 4) v
  else s

/-- What a byte that a write does not cover contributes: the stored word, with 0 for the bits that a written 1 clears. -/
def uncovered (s : State) (t fn w : Nat) : Nat :=
  if w < 0x1000 then
    let k := accessAddr (.host t fn) w
    match descAt k with
    | some d => (s.rd k &&& ~~~ (d.flds.foldl (fun m f => if f.acc = .rw1c then m ||| fldMask f else m) (0 : Word))).toNat
    | none => 0
  else nget (s.fn t fn).msix ((w - 0x1000) / 4)

/-- A host write of `len` bytes at `off` of BAR0 (R344, R360, R374): none where no function answers.
[log 39, DESIGN CHOICE] -/
def hostWrite (s : State) (t fn bar off len data : Nat) : Option State :=
  match fnSeen s t fn with
  | .absent => none
  | _ => some (hostGate s t fn fun s =>
      if bar ≠ 0 then s
      else if 0x2000 ≤ off ∧ off < 0x2400 then sqPush s t fn (off - 0x2000) len data
      else (wordOffs off len).foldl (fun s w => barWrite s t fn w (coverWord off len data w (uncovered s t fn w))) s)

end Sys2Proof.Machine
end

