-- ==== Sys2Proof/Machine/Plate.lean ====
section
/-! DEFINITION. Plates of the Photometer (spec 15, R440-R445): the latch at a boundary, the lines of a plate and their
writing. -/

namespace Sys2Proof.Machine

open Sys2Proof

/-- Is a plate due by cadence at Transit k (R440)? A PERIOD of 0 means 65,536. -/
def plateCad (s : State) (h : Half) (k : Nat) : Bool :=
  let p := s.fget (PHM_CAD h) PHM_CAD_PERIOD
  let period := if p = 0 then 65536 else p
  s.flag (PHM_CTL h) PHM_CTL_CAD_EN && decide (((k : Int) - (s.fget (PHM_CAD h) PHM_CAD_PHASE : Int)) % (period : Int) = 0)

/-- A body line, or from an offset on the 8-byte words that a plate's line holds (R445): counters from word 8, bandwidths from
word 264. -/
def plateWord (x : PlateImg) (h : Half) (k : Nat) : Nat :=
  let w (i : Nat) : Nat := rowW x.wrap (2 * i) + rowW x.wrap (2 * i + 1) * 2 ^ 32
  let info := 0x10000 + x.tag % 256 * 256 + h.idx * 4 + x.tir.toNat * 2 + x.cad.toNat
  if k = 0 then 0x50484D50 + info * 2 ^ 32
  else if k = 1 then x.tn
  else if k = 2 then x.seq + x.missed * 2 ^ 32 + x.groups * 2 ^ 48
  else if k < 7 then w (k - 3)
  else if k < 8 then 0
  else if k < 264 then nget x.cnts (k - 8)
  else rowW x.bw (2 * (k - 264)) + rowW x.bw (2 * (k - 264) + 1) * 2 ^ 32

/-- The data of `n` lines of a plate from line l, little-endian. -/
def plateData (x : PlateImg) (h : Half) (l n : Nat) : Nat :=
  ((List.range (8 * n)).map fun i => plateWord x h (8 * l + i) * 2 ^ (64 * i)).sum

/-- A plate's destination (R443): HOST or MEM, and the lines of a write: one to MEM, at most eight to HOST. -/
def plateHost (x : PlateImg) : Bool := bitB x.dest.toNat 31
def plateOwner (x : PlateImg) : Nat := bits x.dest.toNat 26 21
def plateLines (x : PlateImg) (l : Nat) : Nat := if plateHost x && l != 0 then min 8 (35 - l) else 1
/-- The first lines of a plate's body writes (R443).
[log 105, DESIGN CHOICE] -/
def plateBody (host : Bool) : List Nat := if host then [1, 9, 17, 25, 33] else (List.range 34).map fun i => i + 1

/-- The address of line l: the plate's slot in its ring (R443). -/
def plateAddr (x : PlateImg) (l : Nat) : Nat :=
  let ring := min 12 (bits x.dest.toNat 30 27)
  x.addr / 4096 * 4096 + x.seq % 2 ^ ring * 4096 + 64 * l

/-- The piece of memory that line l goes to, as the Umpire checks it (R300, R443). -/
def platePiece (x : PlateImg) (l : Nat) : Piece :=
  if plateHost x then ⟨4, plateOwner x, plateAddr x l⟩
  else ⟨0, bits x.dest.toNat 20 16 * 128 + bits x.dest.toNat 15 14 * 32 + bits x.dest.toNat 13 10 * 2, plateAddr x l⟩

/-- The sub-port that a plate's lines leave by. -/
def plateNode (s : State) (h : Half) (x : PlateImg) : Option Nat :=
  if plateHost x then mfind (s.binds.get h).usp (plateOwner x)
  else some (subNode (bits x.dest.toNat 20 16) (bits x.dest.toNat 15 14))

/-- What BUSY shows (R442). -/
def setPlate (s : State) (h : Half) (x : Option PlateImg) : State :=
  (s.modPhm h fun p => { p with plate := x }).fsetB (PHM_STAT h) PHM_STAT_BUSY x.isSome

/-- A plate is abandoned, or its header fails (R444).
[log 105, DESIGN CHOICE] -/
def plateFail (s : State) (h : Half) : State := raise (s.fbump (PHM_ERRCNT h) PHM_ERRCNT_PLFAIL_CNT 1) h (evt 22 1 0 0)
def plateAbandon (s : State) (h : Half) : State := plateFail (setPlate s h none) h

/-- The message of line l under internal tag e. -/
def plateMsg (s : State) (h : Half) (x : PlateImg) (l d e : Nat) : Msg :=
  let n := plateLines x l
  let op : Op := if plateHost x then .mWr else .memWr
  let tgt : Piece := if plateHost x then ⟨8, plateOwner x, plateAddr x l⟩ else platePiece x l
  { blankMsg op (unitNode h 31) d 0 (plateOwner x) 7 with
    ld := bits x.dest.toNat 13 10, tgt := tgt, len := 64 * n, data := plateData x h l n, slots := msgSlots op (64 * n) false,
    itag := some e, gen := s.gen h, checked := true }

/-- What trying to send a line comes to: sent, no internal tag free, or failed. -/
inductive PlateTry where
  | sent (s : State)
  | full (s : State)
  | failed (s : State)

/-- A line of a plate starts on its way. -/
def plateGo (s : State) (h : Half) (x : PlateImg) (l d e : Nat) : State :=
  let m := plateMsg s h x l d e
  let s := flightBegin s h (s.gen h)
  if plateHost x then originateStamped s h 31 { m with ld := 0 }
  else if (pieceWin s m.tgt).isSome then toCatalogue s h m
  else originate s h 31 m

/-- Send line l (R443, R444): checked by the Umpire as a write of OWNER, under an internal tag. A destination that no sub-port
leads to, or one of the other half during a split, fails it (R185).
[log 105, DESIGN CHOICE] -/
def plateSend (s : State) (h : Half) (x : PlateImg) (l : Nat) : PlateTry :=
  match plateNode s h x with
  | none => .failed s
  | some d =>
    if isSplit s h && nodeHalf d != h then .failed s
    else
      match check s h (.tenant (plateOwner x)) (platePiece x l) pW with
      | .deny rule => .failed (umpFault s h (plateOwner x) pW (platePiece x l) rule)
      | .allow =>
        match takeItag s h (.plate l) (plateOwner x) (some (s.gen h)) (plateHost x) false with
        | none => .full s
        | some (e, s) => .sent (plateGo s h x l d e)

/-- Send the body lines that wait, in ascending order. -/
def platePump (s : State) (h : Half) : List Nat → State
  | [] => s
  | l :: r =>
    match (s.phm.get h).plate with
    | none => s
    | some x =>
      match plateSend s h x l with
      | .failed s => plateAbandon s h
      | .full s => s
      | .sent s => platePump (setPlate s h (some { x with todo := r, waiting := x.waiting ++ [l] })) h r

/-- The plate that half h takes at the boundary which opens Transit k (R441-R443). -/
def plateImg (s : State) (h : Half) (k tag : Nat) (tir cad : Bool) (missed : Nat) : PlateImg :=
  let cnts := (List.range 256).foldl (fun (m : SMap Nat) n => nset m n (s.rd64 (PHM_CNT_LO h n))) []
  let dest := s.rd (PHM_DEST h)
  ⟨(s.fget (PHM_SEQ h) PHM_SEQ_SEQ + 1) % 2 ^ 32, k, tag, tir, cad, missed, (s.phm.get h).grp, s.rdWords (PHM_WRAP h 0) 8, cnts,
    s.rdWords (PHM_BW_RX h 0) 32, dest, s.rd64 (PHM_ADDR_LO h), plateBody (bitB dest.toNat 31), []⟩

/-- Latch a plate that is due at the boundary of Transit k (R440-R443), once; one that is due while another is being written is
missed. A Tirop PLATE counts at the boundary after its release. -/
def plateLatch (s : State) (h : Half) : State :=
  let k := s.tn h
  let p := s.phm.get h
  let cad := plateCad s h k
  if p.latched = some k ∨ (cad = false ∧ p.tirTag = none) then s
  else
    let s := s.modPhm h fun p => { p with latched := some k, tirTag := none }
    if p.plate.isSome then
      (s.modPhm h fun p => { p with missed := min 0xFFFF (p.missed + 1) }).fbump (PHM_ERRCNT h) PHM_ERRCNT_MISS_CNT 1
    else
      let x := plateImg s h k (p.tirTag.getD 0) p.tirTag.isSome cad p.missed
      let s := (s.modPhm h fun p => { p with missed := 0 }).fset (PHM_SEQ h) PHM_SEQ_SEQ x.seq
      platePump (setPlate s h (some x)) h x.todo

/-- PLATE_LATCH (R441). -/
def execPlateLatch (h : Half) (s : State) : Host.Outcome State Fault Refusal := .next (plateLatch s h)

/-- Is an internal request a plate line's? -/
def plateLineOf : IOwner → Option Nat
  | .plate l => some l
  | _ => none

/-- An outcome of a plate line (R444): a body line's answer, or a failure, which abandons the plate. -/
def plateOutcome (s : State) (h : Half) (d : IDone) : State :=
  let s := s.modNet fun n => { n with idone := n.idone.erase d }
  match plateLineOf d.own, (s.phm.get h).plate with
  | some 0, _ => if d.ok then s else plateFail s h
  | some l, some x =>
    if d.ok then setPlate s h (some { x with waiting := x.waiting.filter fun i => i ≠ l }) else plateAbandon s h
  | _, _ => s

/-- The outcomes of half h's plate lines reach the Photometer. -/
def plateOutcomes (s : State) (h : Half) : State :=
  (s.net.idone.filter fun d => d.half == h && (plateLineOf d.own).isSome).foldl (fun s d => plateOutcome s h d) s

/-- The header line at a boundary, once every body line is acknowledged (R444); with it the plate is written.
[log 105, DESIGN CHOICE] -/
def plateHeader (s : State) (h : Half) : State :=
  let s := plateOutcomes s h
  match (s.phm.get h).plate with
  | none => s
  | some x =>
    if x.todo ≠ [] then platePump s h x.todo
    else if x.waiting ≠ [] then s
    else
      match plateSend s h x 0 with
      | .failed s => plateAbandon s h
      | .full s => s
      | .sent s => setPlate s h none

/-- PLATE_HEADER_WRITE (R444). -/
def execPlateHeaderWrite (h : Half) (s : State) : Host.Outcome State Fault Refusal := .next (plateHeader s h)

end Sys2Proof.Machine
end

