-- ==== Sys2Proof/Machine/RefEvent.lean ====
section
/-! DEFINITION. An event that a detector reports to the Referee (R409), with the reactions of R413 and of a THERMAL critical
event (R415, R457). -/

namespace Sys2Proof.Machine

open Sys2Proof

/-- The reaction to an uncorrectable Umpire rule word (R413): repaired over VC7 while the bridge is UP; otherwise every check in
the half is denied until then. -/
def ruleWordBad (s : State) (h : Half) (n : Nat) : State :=
  if s.phase h = phUP then s else s.modRef h fun r => { r with ruleBad := if r.ruleBad.contains n then r.ruleBad else n :: r.ruleBad }

/-- The bridge is UP again: the words are repaired (R413). -/
def ruleRepair (s : State) (h : Half) : State :=
  if s.phase h = phUP ∧ (s.ref.get h).ruleBad ≠ [] then s.modRef h fun r => { r with ruleBad := [] } else s

/-- A THERMAL critical event, raised in half h: with TRIP_EN set the rails go down (R415, R457). -/
def thermalCrit (s : State) (h : Half) : State :=
  let s := raise s h (evt 20 1 0 0)
  if s.flag (REF_THERM h) REF_THERM_TRIP_EN then railsFault s else s

/-- The hardware's reaction and the record of an event. -/
def refereeEvent (s : State) (h : Half) (e : EvSpec) : State :=
  match e.cls, e.cause with
  | 13, 1 => raise (ruleWordBad s h e.inst) h e
  | 15, 2 => raise (withdrawHalf s h) h e
  | 20, 1 => thermalCrit s h
  | _, _ => raise s h e

/-- REFEREE_EVENT (R409): a detector of half h reports an event; classes 29 to 31 are never raised (R411). -/
def execRefereeEvent (h : Half) (e : EvSpec) (s : State) : Host.Outcome State Fault Refusal :=
  if 29 ≤ e.cls then .next s else .next (refereeEvent s h e)

end Sys2Proof.Machine
end

