-- ==== Sys2Proof/Machine/Rows.lean ====
section
/-! DEFINITION. Committed rows (R33, R34, R200, R510): the check of each kind of row, its application at a boundary, and how the
rows that a seal releases are settled. -/

namespace Sys2Proof.Machine

open Sys2Proof

/-- The half of a staged row's address: that whose program takes it (R510). -/
def rowHalf (a : Nat) : Half := (homeOf a).getD (chanHalf ((a - 0x0C000000) / 0x1000))

/-- The channel of a power row's address. -/
def rowChan (a : Nat) : Nat := (a - 0x0C000000) / 0x1000

/-- Fields of a window row (R226). -/
def wrOp (ws : List Word) : Nat := bits (rowW ws 0) 31 28
def wrWin (ws : List Word) : Nat := bits (rowW ws 0) 13 8
def wrSub (ws : List Word) : Nat := 4 * bits (rowW ws 1) 12 8 + bits (rowW ws 1) 7 6
def wrLd (ws : List Word) : Nat := bits (rowW ws 1) 3 0
def wrBase (ws : List Word) : Nat := rowW ws 3 + rowW ws 4 * 2 ^ 32
def wrSize (ws : List Word) : Nat := bits (rowW ws 5) 5 0

/-- Do two ranges of device addresses overlap? -/
def rangesMeet (a n b m : Nat) : Bool := decide (a < b + m) && decide (b < a + n)

/-- Does a binding of any tenant cover part of a range of an LD (R227)?
[log 82, DEDUCED] -/
def rangeBound (s : State) (h : Half) (d ld base size : Nat) : Bool :=
  let b := s.binds.get h
  (b.vb.any fun e => e.2.sub == d && (e.2.ld.isNone || e.2.ld == some ld))
    || b.ext.any fun e => e.sub == d && e.ld == ld && rangesMeet e.base e.len base size

/-- Does the trained device of a sub-port of this half report HDM-H memory that holds the range (R227)? -/
def winTarget (s : State) (h : Half) (d ld base size : Nat) : Bool :=
  decide (nodeHalf d = h) && roleOfSub s d == 1
    && (ldInfo s d ld).any fun l => l.hdmH && decide (base + size ≤ l.size)

/-- Does the range overlap a window in use (R227)? -/
def winClash (s : State) (h : Half) (d ld base size : Nat) : Bool :=
  (List.range 64).any fun w => winUsed s h w && winSub s h w == d && winLd s h w == ld
    && rangesMeet (winBase s h w) (2 ^ winSize s h w) base size

/-- Check a window row at the seal (R227). -/
def winCheck (s : State) (h : Half) (ws : List Word) : Option Nat :=
  let w := wrWin ws
  let n := 2 ^ wrSize ws
  firstFail ([(stLIMIT, wrOp ws == 1 || wrOp ws == 2)] ++
    (if wrOp ws = 1 then
      [(stLIMIT, decide (30 ≤ wrSize ws) && decide (wrSize ws ≤ 42) && wrBase ws % n == 0),
       (stNO_TARGET, winTarget s h (wrSub ws) (wrLd ws) (wrBase ws) n), (stBUSY, !winUsed s h w),
       (stBUSY, !winClash s h (wrSub ws) (wrLd ws) (wrBase ws) n),
       (stBUSY, !rangeBound s h (wrSub ws) (wrLd ws) (wrBase ws) n)]
     else
      [(stNO_TARGET, winUsed s h w && !s.flag (CAT_WIN_CTL h w) CAT_WIN_CTL_DRAIN),
       (stBUSY, !rangeBound s h (winSub s h w) (winLd s h w) (winBase s h w) (2 ^ winSize s h w))]))

/-- Apply a window row at a boundary (R227, R254): an enable puts the window in use, a disable queues its pass. -/
def winApply (s : State) (h : Half) (ws : List Word) : State :=
  let w := wrWin ws
  let a := CAT_WIN_CTL h w
  if wrOp ws = 1 then
    (s.fsets a [(CAT_WIN_CTL_VALID, 1), (CAT_WIN_CTL_LS_EN, (bitB (rowW ws 0) 27).toNat), (CAT_WIN_CTL_DRAIN, 0),
      (CAT_WIN_CTL_SIZE, wrSize ws), (CAT_WIN_CTL_PORT, wrSub ws / 4), (CAT_WIN_CTL_SUB, wrSub ws % 4),
      (CAT_WIN_CTL_LD, wrLd ws)]).wr64 (CAT_WIN_BASE_LO h w) (wrBase ws)
  else if winUsed s h w then queueJob (s.fset a CAT_WIN_CTL_DRAIN 1) h (.disable w false)
  else s

/-- Is an access of generation GEN - 7 or older in flight (R309)? The other half's accesses count while commits are carried to it.
[log 81, DEDUCED] -/
def oldInFlight (s : State) (h : Half) : Bool :=
  let n := (s.gen h + 65530) % 65536
  inFlightOlder s h n || (s.carries && inFlightOlder s h.other n)

/-- Check a generation row at the seal (R309). -/
def genCheck (s : State) (h : Half) (ws : List Word) : Option Nat :=
  let tAt := rowW ws 3 + rowW ws 4 * 2 ^ 32
  firstFail [(stLIMIT, bits (rowW ws 0) 31 28 == 1), (stLIMIT, s.fget (UMP_STAT h) UMP_STAT_BADCNT == 0),
    (stLIMIT, tAt == 0 || tAt == s.tn h + 1),
    (stBUSY, !((s.ump.get h).copying || (s.carries && (s.ump.get h.other).copying))), (stBUSY, !oldInFlight s h)]

/-- Check a row at the seal of half h, against a state (R200): the code of its first failed check. -/
def rowCheck (s : State) (h : Half) (r : Row) : Option Nat :=
  match r.kind with
  | .binding => bindCheck s h (rowTenant r.addr) false r.words
  | .unbinding => bindCheck s h (rowTenant r.addr) true r.words
  | .window => winCheck s h r.words
  | .job => jobCheck s h r.words
  | .meter => meterCheck s h r.words
  | .eph => ephCheck s h r.words
  | .fn => fnCheck s (rowTenant r.addr) r.words
  | .gen => genCheck s h r.words
  | .power => shtCheck s h (rowChan r.addr) r.words
  | .shaper => none
  | .alarm => none
  | .plate => none

/-- Apply a row in half h (R32): what it does, beside its STATUS. -/
def rowApply (s : State) (h : Half) (r : Row) : State :=
  match r.kind with
  | .binding => bindApply s h (rowTenant r.addr) false r.addr r.words
  | .unbinding => bindApply s h (rowTenant r.addr) true r.addr r.words
  | .window => winApply s h r.words
  | .job => jobApply s r.words
  | .meter => meterApply s h r.words
  | .eph => ephApply s h r.words
  | .fn => fnApply s (rowTenant r.addr) (fnRowIdx r.addr) r.words
  | .gen => genApply s h
  | .power => shtApply s (rowChan r.addr) r.words
  | .shaper => shpApply s h r.idx r.words
  | .alarm => applyAlarm s h (s.tn h) r
  | .plate => s.modPhm h fun p => { p with tirTag := some r.idx }

/-- Rows with a CANCEL bit and a STATUS (R199): all but shaper rows, alarm rows and plates. -/
def rowHasStatus (r : Row) : Bool := r.kind != .shaper && r.kind != .alarm && r.kind != .plate

/-- A device-wide row (R34, R187): a binding row, a generation row, or the start of a job with NEAR set (R268). -/
def deviceWide (r : Row) : Bool :=
  match r.kind with
  | .binding => true
  | .unbinding => true
  | .gen => true
  | .job => bits (rowW r.words 0) 31 28 == 1 && cxNear (rowCtx r.words)
  | _ => false

/-- Is a device-wide row carried to the other half? A job starts in its home half. -/
def rowCarried (r : Row) : Bool := deviceWide r && r.kind != .job

/-- The item of a device-wide row (R34, R198): a sub-port, an LD, the generation, a job. -/
def itemOf (r : Row) : List Nat :=
  match r.kind with
  | .gen => [3]
  | .job => [4, bits (rowW r.words 0) 9 0]
  | _ => if brKind r.words < 3 then [1, brSub r.words] else [2, brSub r.words, brLd r.words]

/-- Where half h keeps word 2 of a row.
[log 29, DEDUCED] -/
def statusAddr (h : Half) (r : Row) : Nat := if r.kind = .gen then UMP_GSTAGE h 2 else r.addr + 8

/-- Has a row's CANCEL been set in time (R204)? -/
def rowCancelled (s : State) (h : Half) (r : Row) : Bool :=
  rowHasStatus r && bitB (s.rd (statusAddr h r)).toNat 31 && !s.mgt.lateCancel.contains (statusAddr h r)

/-- A row leaves the queue at the seal of half h with a code (R200): its STATUS, and what waited for it. A generation row's STATUS
stands in both copies while commits are carried; West's CONFLICT stands in its own (R34). Its freeze ends (R310).
[log 29, DEDUCED; log 31, DEDUCED] -/
def rowEnds (s : State) (h : Half) (r : Row) (code : Nat) : State :=
  let s := s.fset (statusAddr h r) rowStatus code
  match r.kind with
  | .gen =>
    let s := if s.carries ∧ code ≠ stCONFLICT then s.fset (statusAddr h.other r) rowStatus code else s
    unfreezePage s h
  | .fn => bgRow (fnRowEnds s (rowTenant r.addr) (fnRowIdx r.addr) r.words code) r.addr code false
  | .binding => bindRowEnds s r.addr code false
  | .unbinding => bindRowEnds s r.addr code false
  | _ => bgRow s r.addr code false

/-- Does a device-wide row fall to the phase of the bridge (R187, R268)? -/
def rowSplit (s : State) (h : Half) (r : Row) : Bool :=
  let p := s.phase h
  deviceWide r && (p == phRETRAIN || (p != phUP && (decide (s.auth h ≠ h) || r.kind == .job)))

/-- Does East's row of the same Transit name the item of West's row (R34)?
[log 28, DEDUCED] -/
def rowConflict (s : State) (h : Half) (r : Row) : Bool :=
  h == .west && deviceWide r && s.phase .west == phUP && s.trp.east.itemsTn == s.tn .west && s.trp.east.items.contains (itemOf r)

/-- Why a row leaves the queue at the seal, in the order of R200; `g` is the state that the earlier rows leave. -/
def rowVerdict (s g : State) (h : Half) (r : Row) : Option Nat :=
  if rowCancelled s h r then some stABORTED
  else if rowSplit s h r then some stSPLIT
  else if rowConflict s h r then some stCONFLICT
  else rowCheck g h r

/-- West notes an item that it lost to East in this Transit. -/
def noteLost (s : State) (r : Row) : State :=
  s.modTrp .west fun t => { t with items := (if t.itemsTn = s.tn .west then t.items else []) ++ [itemOf r], itemsTn := s.tn .west }

/-- A row stays in the commit queue: in both halves when it is device-wide and commits are carried (R34). -/
def acceptRow (s : State) (h : Half) (r : Row) : State :=
  let put (s : State) (h : Half) := s.modTrp h fun t => { t with commits := t.commits ++ [r] }
  let s := put s h
  if rowCarried r && s.carries then put s h.other else s

/-- Settle one row: the state, and the state that the rows so far would leave.
[log 31, DEDUCED] -/
def settleRow (h : Half) (x : State × State) (r : Row) : State × State :=
  match rowVerdict x.1 x.2 h r with
  | some code =>
    let s := rowEnds x.1 h r code
    (if code = stCONFLICT then noteLost s r else s, x.2)
  | none => (acceptRow x.1 h r, rowApply x.2 h r)

/-- The item that a later row of the same Transit takes over from an earlier one (R33), for the kinds that name one: a shaper, an
alarm, the plate, a meter, a port's list, a window, a channel, a function or a tenant's Pass mask.
[log 30, DEDUCED] -/
def takenBy (r : Row) : Option (List Nat) :=
  match r.kind with
  | .shaper => some [1, r.idx]
  | .alarm => some [2, r.idx]
  | .plate => some [3]
  | .meter => some [4, bits (rowW r.words 0) 31 28, bits (rowW r.words 0) 11 0]
  | .eph => some [5, bits (rowW r.words 0) 31 28, bits (rowW r.words 0) 4 0]
  | .window => some [6, wrWin r.words]
  | .power => some [7, rowChan r.addr]
  | .fn => some (if bits (rowW r.words 0) 31 28 = 7 then [8, rowTenant r.addr] else [9, rowTenant r.addr, bits (rowW r.words 0) 15 8])
  | _ => none

/-- Does a later row of the list name the same item? -/
def takenOver (r : Row) (later : List Row) : Bool := (takenBy r).isSome && later.any fun x => takenBy x == takenBy r

/-- Of rows that name one item only the last stays (R33).
[log 30, DEDUCED] -/
def lastOnly : List Row → List Row
  | [] => []
  | r :: l => if takenOver r l then lastOnly l else r :: lastOnly l

/-- The rows that R33 discards.
[log 30, DEDUCED] -/
def overtaken : List Row → List Row
  | [] => []
  | r :: l => if takenOver r l then r :: overtaken l else overtaken l

/-- The STATUS of a row that R33 discards: the spec names none, so it is a free value.
[log 30, DEDUCED] -/
def discardStatus (s : State) (r : Row) : State :=
  if rowHasStatus r then
    let x := s.draw
    x.2.fset (r.addr + 8) rowStatus (x.1 % 16)
  else s

/-- R33 over the commit queue of half h. -/
def discardEarlier (s : State) (h : Half) : State :=
  let l := (s.trp.get h).commits
  ((overtaken l).foldl discardStatus s).modTrp h fun t => { t with commits := lastOnly l }

/-- The state that the rows already accepted for the next boundary leave: East's, then West's. -/
def settleGhost (s : State) : State :=
  let g := s.trp.east.commits.foldl (fun g r => rowApply g .east r) s
  s.trp.west.commits.foldl (fun g r => rowApply g .west r) g

/-- The items that half h's released rows name, when they survive CANCEL.
[log 28, DEDUCED] -/
def itemsNamed (s : State) (h : Half) : List (List Nat) :=
  ((s.trp.get h).rows.filter fun r => deviceWide r && !rowCancelled s h r).map itemOf

/-- Settle the rows that half h released, in issue order (R200).
[log 28, DEDUCED] -/
def settleRows (s : State) (h : Half) : State :=
  let l := (s.trp.get h).rows
  let s := if h = .east then
      let i := itemsNamed s h
      s.modTrp h fun t => { t with items := i, itemsTn := s.tn h }
    else s
  let s := s.modTrp h fun t => { t with rows := [] }
  discardEarlier (l.foldl (settleRow h) (s, settleGhost s)).1 h

/-- May East still name items that West's rows conflict with (R34)?
[log 27, DEDUCED] -/
def eastOpen (s : State) : Bool :=
  s.phase .west == phUP && !s.trp.east.done && s.tn .east == s.tn .west && s.trp.east.ran && s.trp.east.phase != .stopped

/-- Rows are settled once it is known what East names: West's after East's seal.
[log 27, DEDUCED] -/
def settleAll (s : State) (h : Half) : State :=
  if h = .west ∧ eastOpen s then s
  else
    let s := settleRows s h
    if h = .east ∧ s.trp.west.rows ≠ [] then settleRows s .west else s

/-- A row is applied at the boundary of half h; then its STATUS is APPLIED, in the half that holds it.
[log 31, DEDUCED] -/
def rowCommit (s : State) (h : Half) (r : Row) : State :=
  let s := rowApply s h r
  if r.kind = .gen then
    if h = .west ∧ (s.trp.west.items.contains [3] ∧ s.trp.west.itemsTn + 1 = s.tn .west) then s
    else s.fset (statusAddr h r) rowStatus stAPPLIED
  else if rowHasStatus r = false ∨ rowHalf r.addr ≠ h then s
  else
    let late := bitB (s.rd (statusAddr h r)).toNat 31
    let s := s.fset (statusAddr h r) rowStatus stAPPLIED
    if r.kind = .binding ∨ r.kind = .unbinding then bindRowEnds s r.addr stAPPLIED late else bgRow s r.addr stAPPLIED late

end Sys2Proof.Machine
end

