-- ==== Sys2Proof/Machine/CsWrite.lean ====
section
/-! DEFINITION. A Control Space write by any master (R6, R10, R12, R27): which register it reaches, what its field access types
make of it, and the writes that a block treats by a rule of its own. Each block of the map (R24) has one function. -/

namespace Sys2Proof.Machine

open Sys2Proof

/-- Settings of the Meridian: MRD_INC and the MRD_SYNC_ registers (R30). -/
def merSetting (a : Nat) : Bool := a == MRD_INC .east || (decide (MRD_SYNC_CTL .east ≤ a) && decide (a ≤ MRD_SYNC_STAT .east))

/-- A write of a Meridian setting goes to both halves, and is discarded and logged while PHASE is not UP (R30, R189). -/
def merWrite (s : State) (mh : Half) (a : Nat) (d : RegDesc) (v : Word) : State :=
  if s.phase mh ≠ phUP then csUnreachable s mh a
  else if a = MRD_SYNC_STAT .east then syncStatWrite (syncStatWrite s .east v) .west v
  else plainWrite (plainWrite s d a v) d (a + 0x100000000) v

/-- A write of the device global block. -/
def mrdWrite (s : State) (mh : Half) (a : Nat) (d : RegDesc) (v : Word) : State :=
  if merSetting a then merWrite s mh a d v
  else if a = MRD_PWR_CTL then pwrCtlWrite s v
  else if a = MRD_RST_CTL then rstCtlWrite s (bitB v.toNat 1) (bitB v.toNat 0)
  else if a = MRD_SVC_CTL then svcCtlWrite s mh (bitB v.toNat 1) (bitB v.toNat 0)
  else if a = MRD_PROMOTE then promoteWrite s mh v
  else if a = MRD_REF_CTL then refCtlWrite s v
  else if a = MRD_ALERT_CTL then alertCtlWrite s v
  else if a = MRD_DBG_CTL then (if bitB v.toNat 0 then deauth s else s)
  else plainWrite s d a v

/-- A write of PRT_TAG_RES, which EN holds (R75, R106).
[log 100, DEDUCED] -/
def tagResWrite (s : State) (p : Nat) (v : Word) : State :=
  let a := PRT_TAG_RES p
  if s.flag (PRT_CFG p) PRT_CFG_EN && decide (s.rd a ≠ v) then writeDiscarded s (portHalf p) a else s.wr a v

/-- A write of the Eyepiece's control; what an aborted scan had counted is a free value.
[log 99, DESIGN CHOICE] -/
def eyeWrite (s : State) (p : Nat) (v : Word) : State :=
  let x := s.draw
  let y := x.2.draw
  eyeCtlWrite y.2 p v x.1 y.1

/-- A write of a port block. -/
def prtWrite (s : State) (a : Nat) (d : RegDesc) (v : Word) : State :=
  let p := (a - 0x01000000) / 0x40000
  let o := (a - 0x01000000) % 0x40000
  if o = 0 then prtCfgWrite s p v
  else if o = 0x84 then laneClrWrite s p v
  else if o = 0x200 then eyeWrite s p v
  else if o = 0x300 then tagResWrite s p v
  else if o = 0x400 then ownerStat (plainWrite s d a v) p
  else if 0x1000 ≤ o ∧ o % 0x100 = 4 then lnkCtlWrite s p ((o - 0x1000) / 0x100) v
  else plainWrite s d a v

/-- A write of a switch core block. -/
def coreWrite (s : State) (h : Half) (a : Nat) (d : RegDesc) (v : Word) : State :=
  if a = CORE_CTL h then coreCtlWrite s h v
  else if a = CORE_POOL h then corePoolWrite s h v
  else plainWrite s d a v

/-- A write of CAT_CTL: LS_GLOBAL as written, IMG_EN sets (R257, R258). -/
def catCtlWrite (s : State) (h : Half) (d : RegDesc) (v : Word) : State :=
  let s := plainWrite s d (CAT_CTL h) (v &&& ~~~ fldMask CAT_CTL_IMG_EN)
  if fldGet v CAT_CTL_IMG_EN = 1 then imageEnable s h else s

/-- A write of a Catalogue block. -/
def catWrite (s : State) (h : Half) (a : Nat) (d : RegDesc) (v : Word) : State :=
  if a = CAT_CTL h then catCtlWrite s h d v
  else if CAT_TAINT h 0 ≤ a ∧ a ≤ CAT_TAINT h 15 then taintWrite s h ((a - CAT_TAINT h 0) / 4) v
  else plainWrite s d a v

/-- A write of a Stacker block. -/
def stkWrite (s : State) (h : Half) (a : Nat) (d : RegDesc) (v : Word) : State :=
  if a = STK_CTL h then (if bitB v.toNat 0 then stkEnable s h else s) else plainWrite s d a v

/-- A write of the Umpire block (R26); the log registers of a half are that half's alone.
[log 80, DEDUCED] -/
def umpWrite (s : State) (mh : Half) (a : Nat) (d : RegDesc) (v : Word) : State :=
  if UMP_RULE .east 0 0 ≤ a ∧ a < UMP_RULE .east 0 0 + 0x100000 then stagedRuleWrite s mh (a - UMP_RULE .east 0 0) v
  else if UMP_GSTAGE .east 0 ≤ a ∧ a ≤ UMP_GSTAGE .east 7 then gstageWrite s mh ((a - UMP_GSTAGE .east 0) / 4) v
  else if a = UMP_FLOG_INFO .east ∨ a = UMP_FLOG_INFO .west then
    let h := if a = UMP_FLOG_INFO .east then Half.east else Half.west
    if bitB v.toNat 31 = false then s
    else if h ≠ mh ∧ (s.phase mh = phRETRAIN ∨ s.phase mh = phSPLIT) then csUnreachable s mh a
    else flogClear s h
  else if bothCopies a then bothWrite s mh a fun s h => plainWrite s d (copyKey h a) v
  else plainWrite s d a v

/-- What the HIGH quotas of a half total, given its three words of Rotation settings (R338). -/
def rotTotal (cfg q0 q1 : Word) : Nat :=
  let one (r : Nat) : Nat := if r < 4 then bits q0.toNat (8 * r + 7) (8 * r) else bits q1.toNat (8 * (r - 4) + 7) (8 * (r - 4))
  (List.range 7).foldl (fun n r => if bitB (fldGet cfg QOS_ROT_CFG_HIGH) r then n + one r else n) 0

/-- A write of the Rotation settings: one after which the HIGH quotas total more than 28 x WIN is discarded and logged (R338).
[log 37, DEDUCED] -/
def rotWrite (s : State) (h : Half) (a : Nat) (d : RegDesc) (v : Word) : State :=
  let t := plainWrite s d a v
  if 28 * rotWin t h < rotTotal (t.rd (QOS_ROT_CFG h)) (t.rd (QOS_ROT_QUOTA0 h)) (t.rd (QOS_ROT_QUOTA1 h))
  then writeDiscarded s h a else t

/-- A write of a QOS block. -/
def qosWrite (s : State) (h : Half) (a : Nat) (d : RegDesc) (v : Word) : State :=
  if QOS_ROT_CFG h ≤ a ∧ a ≤ QOS_ROT_QUOTA1 h then rotWrite s h a d v else plainWrite s d a v

/-- A write of a tenant block. -/
def sfBlockWrite (s : State) (a : Nat) (d : RegDesc) (v : Word) : State :=
  let t := (a - 0x0A000000) / 0x10000
  let o := (a - 0x0A000000) % 0x10000
  if o = 0 then tenCtlWrite s t v
  else if o = 8 then tenRstWrite s t v
  else if o = 0x4000 then quotaWrite s t v
  else plainWrite s d a v

/-- A write of a Tirop block.
[log 23, DEDUCED] -/
def trpWrite (s : State) (h : Half) (a : Nat) (d : RegDesc) (v : Word) : State :=
  let o := a - TRP_BANK h 0 0
  let b := bitB v.toNat
  if o < 0x20000 then bankWriteAt s h (o / 0x10000) (o % 0x10000 / 4) v
  else if o < 0x24000 then (if o < 0x23F00 then s.wr a v else s)
  else if a = TRP_CTL h then trpCtlWrite s h v
  else if a = TRP_SWAP_CTL h then
    swapCtlWrite s h (fldGet v TRP_SWAP_CTL_PAIR == 1) (fldGet v TRP_SWAP_CTL_MODE == 1) (b 1) (b 0)
  else if a = TRP_OBOX_PTR h then oboxHeadWrite s h v
  else plainWrite s d a v

/-- A write of a Shutter channel's block. -/
def shtBlockWrite (s : State) (a : Nat) (d : RegDesc) (v : Word) : State :=
  let c := (a - 0x0C000000) / 0x1000
  let o := (a - 0x0C000000) % 0x1000
  if o = 0 ∨ (8 ≤ o ∧ o ≤ 0x28) then shtWrite s c o v
  else if o = 0x80 then (if bitB v.toNat 0 then energySnap s c else s)
  else plainWrite s d a v

/-- A write of a Photometer block: what is written to CLR waits for the next boundary (R437). -/
def phmWrite (s : State) (h : Half) (a : Nat) (d : RegDesc) (v : Word) : State :=
  let s := plainWrite s d a v
  if a = PHM_GRP h then s.modPhm h fun p => { p with clr := p.clr ||| fldGet v PHM_GRP_CLR } else s

/-- A write of a Referee block. -/
def refWrite (s : State) (h : Half) (a : Nat) (d : RegDesc) (v : Word) : State :=
  if a = REF_EVQ_PTR h then evqHeadWrite s h v
  else if a = REF_EVQ_WM h then evqLevel (plainWrite s d a v) h
  else if a = REF_RAISE h then softRaise s h v
  else if a = REF_UNFENCE h then unfenceWrite s h v
  else if a = REF_REQUAL h then requalWrite s h (fldGet v REF_REQUAL_BANK == 1) (bitB v.toNat 0)
  else plainWrite s d a v

/-- A write of the Observer and bridge block. -/
def obsWrite (s : State) (h : Half) (a : Nat) (d : RegDesc) (v : Word) : State :=
  if a = OBS_CTL h then (if bitB v.toNat 0 then handoverWrite s h else s)
  else if a = OBS_WDOG h then wdogWrite s h v
  else if OBS_SHARE h 0 ≤ a ∧ a < OBS_SHARE h 0 + 0x100 then obsShareWrite s h ((a - OBS_SHARE h 0) / 4) v
  else if a = CDB_CTL h then cdbCtlWrite s h v
  else if CDB_WMAP h 0 0 ≤ a ∧ a < CDB_WMAP h 0 0 + 0x80 then
    wmapWrite s h ((a - CDB_WMAP h 0 0) / 16) ((a - CDB_WMAP h 0 0) % 16 / 4) v
  else plainWrite s d a v


/-- A write of word 2 of a staged row: a CANCEL that it sets is one of R204. -/
def rowHighWrite (s : State) (d : RegDesc) (a : Nat) (v : Word) : State :=
  let was := bitB (s.rd a).toNat 31
  let s := plainWrite s d a v
  if bitB v.toNat 31 && !was && (s.trp.get (rowHalf a)).sealed then s.modMgt fun m => { m with lateCancel := a :: m.lateCancel } else s

/-- A write of a word to a register that the master reaches: by its block (R24). -/
def blockWrite (s : State) (mh : Half) (a : Nat) (d : RegDesc) (v : Word) : State :=
  let h := rowHalf a
  if a < 0x01000000 then mrdWrite s mh a d v
  else if a < 0x02000000 then prtWrite s a d v
  else if a < 0x04000000 then coreWrite s h a d v
  else if 0x08000000 ≤ a ∧ a < 0x09000000 then umpWrite s mh a d v
  else if rowStatus ∈ d.flds then rowHighWrite s d a v
  else if a < 0x06000000 then catWrite s h a d v
  else if a < 0x08000000 then stkWrite s h a d v
  else if a < 0x0A000000 then qosWrite s h a d v
  else if a < 0x0B000000 then sfBlockWrite s a d v
  else if a < 0x0C000000 then trpWrite s h a d v
  else if a < 0x0D000000 then shtBlockWrite s a d v
  else if a < 0x0E000000 then phmWrite s h a d v
  else if a < 0x0F000000 then refWrite s h a d v
  else obsWrite s h a d v

/-- The low register of the 64-bit register whose high word is at `k`, if it is one (R11, R12). -/
def lowOf (k : Nat) : Option RegDesc :=
  if k < 4 then none
  else match descAt (k - 4) with
    | some d => if d.lo64 then some d else none
    | none => none

/-- A write of a word to a register: the low word of a 64-bit register is held, the high word applies both (R12). -/
def wordTo (s : State) (mh : Half) (a : Nat) (d : RegDesc) (v : Word) : State :=
  if d.lo64 then holdLow s a v
  else match lowOf a with
    | some dl => applyHigh s d dl a v
    | none => blockWrite s mh a d v

/-- What only a half's own pair writes (R42, R43, R514): its scratch and the alarms that have fired.
[log 23, DEDUCED] -/
def pairOnly (a : Nat) : Bool :=
  decide (0x0B000000 ≤ a) && decide (a < 0x0C000000) &&
    (let o := a % 0x800000; (decide (0x20000 ≤ o) && decide (o < 0x24000)) || o == 0x30040)

/-- Is `a` a word of a live data-path table (R62): a binding, a window, the active Umpire page, a shaper in force, an active
Ephemeris list, a live Pass mask? -/
def liveTable (a : Nat) : Bool :=
  let o := a % 0x40000
  let u := a % 0x1000000
  let q := a % 0x800000
  let t := a % 0x10000
  if a < 0x01000000 then false
  else if a < 0x01800000 then decide (0x1000 ≤ o) && decide (o < 0x1400) && o % 0x100 == 0x40
  else if a < 0x04000000 then false
  else if a < 0x06000000 then decide (0x1000 ≤ u) && decide (u < 0x1400)
  else if a < 0x08000000 then false
  else if a < 0x09000000 then decide (0x200000 ≤ u) && decide (u < 0x300000)
  else if a < 0x0A000000 then (decide (0x11000 ≤ q) && decide (q < 0x12000)) || (decide (0x40000 ≤ q) && decide (q < 0x41000))
  else if a < 0x0A400000 then (decide (0x2000 ≤ t) && decide (t < 0x2080)) || (decide (0x4010 ≤ t) && decide (t < 0x4020))
  else false

/-- A CS write (R6, R10, R12, R27, R302). A host writes the registers of its function (R344).
[log 38, DEDUCED] -/
def csWrite (s : State) (m : Master) (a : Nat) (v : Word) : State :=
  let a' := accessAddr m a
  let mh := s.masterHalf m
  match decodeAt m a' (copyKey mh a') with
  | none => csDecodeError s (recHalf s m a') a'
  | some d =>
    match m with
    | .host t fn => fnRegWrite s t fn (a % 0x1000) v
    | _ => csGate s m a' fun s =>
      if liveTable a' || (pairOnly a' && m != .tirop (rowHalf a')) then writeDiscarded s (recHalf s m a') a'
      else wordTo s mh a' d v

/-- LOW_WORD_READ (R11). -/
def execLowWordRead (m : Master) (a : Nat) (s : State) : Host.Outcome State Fault Refusal := .next (readAnswer s m a)

/-- HIGH_WORD_WRITE (R12). -/
def execHighWordWrite (m : Master) (a : Nat) (v : Word) (s : State) : Host.Outcome State Fault Refusal := .next (csWrite s m a v)

/-- SNAPSHOT_WRITE (R13). -/
def execSnapshotWrite (m : Master) (a : Nat) (v : Word) (s : State) : Host.Outcome State Fault Refusal := .next (csWrite s m a v)

/-- Additions of `w` to the RC fields of the register at k, field by field. -/
def rcAdd (s : State) (k : Nat) (w : Word) (fs : List Fld) : State :=
  fs.foldl (fun s f => if f.acc = .rc then s.fbump k f (fldGet w f) else s) s

/-- RC_COUNTER_READ (R7): `coinc` holds, in the places of the RC fields, what Kezen adds in the clock of the read. The read
returns the counts as they stood before, and the counters keep those additions alone. -/
def execRcCounterRead (m : Master) (a : Nat) (coinc : Word) (s : State) : Host.Outcome State Fault Refusal :=
  let a' := accessAddr m a
  let k := copyKey (s.masterHalf m) a'
  let s := readAnswer s m a
  match decodeAt m a' k with
  | some d => .next (rcAdd s k coinc d.flds)
  | none => .next s

/-- REGISTER_WRITE (R6). -/
def execRegisterWrite (m : Master) (a : Nat) (v : Word) (s : State) : Host.Outcome State Fault Refusal := .next (csWrite s m a v)

/-- CS_STOP_TIMEOUT (R487): a read returns all ones, a write is discarded, and the access is logged as CS unreachable. -/
def execCsStopTimeout (m : Master) (a : Nat) (wr : Bool) (s : State) : Host.Outcome State Fault Refusal :=
  let a' := accessAddr m a
  let s := csUnreachable s (s.masterHalf m) a'
  .next (if wr then s else s.emit (.out outREAD [a', 0xFFFFFFFF]))

/-- What the Dome itself holds of the device global block: all of it but the Meridian and Transit registers (R24).
[log 40, DEDUCED] -/
def domeReg (a : Nat) : Option RegDesc := if decide (a < 0x01000000) && !bothCopies a then descAt a else none

/-- DOME_I3C_ACCESS (R451, R460, R493): until the halves run, and once the device is frozen, the Dome answers a read (no value)
or a write of a word of the device global block. A word that is none of the Dome's registers reads as 0 and is not written.
[log 40, DEDUCED] -/
def execDomeI3cAccess (a : Nat) (w : Option Word) (s : State) : Host.Outcome State Fault Refusal :=
  let a' := a / 4 * 4
  if (s.dome.run && (!s.dome.released || frozen s)) = false || decide (0x01000000 ≤ a') then .next s
  else match domeReg a', w with
    | some d, some v => .next (wordTo s (s.masterHalf .dome) a' d v)
    | some d, none =>
      let r := readReg s .dome d a'
      .next (r.2.emit (.out outREAD [a', r.1.toNat]))
    | none, some _ => .next s
    | none, none => .next (s.emit (.out outREAD [a', 0]))

end Sys2Proof.Machine
end

