-- ==== Sys2Proof/Machine/Seal.lean ====
section
/-! DEFINITION. The seal of a Transit (spec 02, R54-R68): the lockstep comparison, the release of the pair's outputs in issue
order, the commit check of a bank takeover, the report of the oldest generation (R313), and the settling of rows (R200). -/

namespace Sys2Proof.Machine

open Sys2Proof

/-- Each half reports its oldest generation in flight over VC7 at every seal (R313): it cannot while the bridge is down.
[log 81, DEDUCED] -/
def oldestReport (s : State) (h : Half) : State :=
  if s.phase h = phRETRAIN ∨ s.phase h = phSPLIT then s
  else
    let g := oldestGen s h
    s.modUmp h.other fun u => { u with otherOldest := g }

/-- The standby bank of a half, and whether it is valid (R45). -/
def standbyBank (s : State) (h : Half) : Nat := 1 - s.fget (TRP_CTL h) TRP_CTL_SEL
def standbyValid (s : State) (h : Half) : Bool := bankValid s h (standbyBank s h)

/-- TRP_SWAP_STAT.REASON codes. -/
def swBADIMAGE : Nat := 3
def swUNPAIRED : Nat := 4
def swSPLIT : Nat := 5
def swHOLD : Nat := 6

/-- Is a takeover of half h pending and not yet committed? -/
def swapOpen (s : State) (h : Half) : Bool :=
  s.fget (TRP_SWAP_STAT h) TRP_SWAP_STAT_STATE == swPENDING && !(s.trp.get h).swapGo

/-- Commit the takeover of half h (R66). -/
def swapCommit (s : State) (h : Half) : State := s.modTrp h fun t => { t with swapGo := true }

/-- Is a takeover of the other half pending with PAIR, and for the same Transit (R68)? -/
def swapPaired (s : State) (h : Half) : Bool := swapOpen s h.other && (s.trp.get h.other).swapPair
def swapPartner (s : State) (h : Half) : Bool := swapPaired s h && (s.trp.get h.other).swapT == (s.trp.get h).swapT

/-- The end of a paired takeover that is not committed: BAD_IMAGE for a half whose own bank is invalid, else UNPAIRED (R68). -/
def swapUnpaired (s : State) (h : Half) : State :=
  swapAbortWith s h (if standbyValid s h then swUNPAIRED else swBADIMAGE)

/-- The check of a paired takeover (R68): committed in both halves, or each half that is pending with PAIR ends ABORTED.
[log 114, DEDUCED] -/
def swapPairCheck (s : State) (h : Half) : State :=
  if s.phase h ≠ phUP then swapAbortWith s h swSPLIT
  else if swapPartner s h && standbyValid s h && standbyValid s h.other then swapCommit (swapCommit s h) h.other
  else if swapPaired s h then swapUnpaired (swapUnpaired s h) h.other
  else swapUnpaired s h

/-- The commit point of a takeover: the seal of Transit T - 1 (R66, R68).
[log 114, DEDUCED] -/
def swapCheck (s : State) (h : Half) : State :=
  let t := s.trp.get h
  if swapOpen s h && decide (t.swapT ≤ s.tn h + 1) then
    if t.swapPair then swapPairCheck s h
    else if standbyValid s h then swapCommit s h
    else swapAbortWith s h swBADIMAGE
  else s

/-- A released CS store (R55): the pair advances its own ring head (R64), any other store is a CS write of the pair.
[log 23, DEDUCED] -/
def releaseCs (s : State) (h : Half) (a : Nat) (v : Word) : State :=
  if a = TRP_SRING_HEAD h then s.fset a TRP_SRING_HEAD_PTR (v.toNat % 256) else csWrite s (.tirop h) a v

/-- A released output (R55). -/
def releaseOut (h : Half) (s : State) (o : TOut) : State :=
  match o with
  | .cs a v => releaseCs s h a v
  | .scr i v => s.wr64 (TRP_SCRATCH h (2 * i)) v.toNat
  | .send ws => oboxPush s h ws
  | .row r => s.modTrp h fun t => { t with rows := t.rows ++ [r] }
  | .ref k v => s.modTrp h fun t => { t with scanRef := nset t.scanRef k v }

/-- The shaper rows that a Transit's outputs hold (R58, R323).
[log 32, DEDUCED] -/
def refillsOf (l : List TOut) : List Row :=
  lastOnly (l.filterMap fun o => match o with
    | .row r => if r.kind = .shaper then some r else none
    | _ => none)

/-- The release of a Transit's outputs in issue order (R55).
[log 32, DEDUCED] -/
def release (s : State) (h : Half) : State :=
  let t := s.trp.get h
  let s := s.modTrp h fun t => { t with held := [], dispatched := [], rel := true, refills := refillsOf t.held }
  let s := tally (s.fset (TRP_STAT h) TRP_STAT_LAST_BC t.bc) h 9 0 0 t.bc
  t.held.foldl (releaseOut h) s

/-- A lockstep mismatch (R59): the outputs are discarded, counted and reported.
[log 24, DEDUCED; log 25, DESIGN CHOICE] -/
def mismatchEnd (s : State) (h : Half) : State :=
  let s := discardTransit s h
  let s := s.fset (TRP_STAT h) TRP_STAT_MISMATCH 1
  raise (s.fbump (TRP_ERRCNT h) TRP_ERRCNT_MISMATCH_CNT 1) h (evtU 2 1 0 0 0 0)

/-- The end of a Transit of a requalification run (R428): a mismatch or a cutoff fails the run, and every output is discarded. -/
def requalSeal (s : State) (h : Half) (bad : Bool) : State :=
  (discardTransit s h).modTrp h fun t => { t with requalBad := t.requalBad || bad }

/-- What the seal does with the pair's outputs (R55, R57, R59). A pair that did not run, or has stopped, has none. -/
def sealOut (s : State) (h : Half) (mismatch : Bool) : State :=
  let t := s.trp.get h
  if t.ran = false ∨ t.phase = .stopped then s
  else if t.requal.isSome then requalSeal s h (mismatch || running t)
  else if mismatch then mismatchEnd s h
  else if running t then cutoff s h
  else release s h

/-- The seal of half h's Transit. -/
def sealHalf (s : State) (h : Half) (mismatch : Bool) : State :=
  let s := s.modTrp h fun t => { t with sealed := true, done := true }
  settleAll (sealOut (swapCheck (oldestReport s h) h) h mismatch) h

/-- Outputs of the sequencers differ while the pair still runs (R59): it stops at once.
[log 25, DESIGN CHOICE] -/
def mismatchNow (s : State) (h : Half) : State :=
  if (s.trp.get h).requal.isSome then requalSeal s h true else mismatchEnd s h

/-- TRANSIT_SEAL (R55), once in a Transit. `mismatch`: the sequencers' outputs or digests differ (R59); where the pair has not yet
reached cycle 960 and still runs, the difference is one of its outputs, which stops it, and the seal is still to come.
[log 25, DESIGN CHOICE] -/
def execTransitSeal (h : Half) (mismatch : Bool) (s : State) : Host.Outcome State Fault Refusal :=
  let t := s.trp.get h
  .next (if t.done then s
    else if mismatch && running t && decide (t.bc < 960) && !t.sealed then mismatchNow s h
    else sealHalf s h mismatch)

end Sys2Proof.Machine
end

