-- ==== Sys2Proof/Machine/Boundary.lean ====
section
/-! DEFINITION. The Transit boundary of a half (spec 01, R29-R36): what comes into force, in the order of R35, and the start of
the pair's Transit (R46). -/

namespace Sys2Proof.Machine

open Sys2Proof

/-- Every Transit has its seal: one that no command gave takes place now, with no mismatch. Rows still to be settled are.
[log 26, DESIGN CHOICE; log 27, DEDUCED] -/
def sealLate (s : State) (h : Half) : State :=
  let s := if (s.trp.get h).done then s else sealHalf s h false
  let s := if h = .east ∧ s.trp.west.done ∧ s.trp.west.rows ≠ [] then settleRows s .west else s
  if (s.trp.get h).rows = [] then s else settleRows s h

/-- A PLATE released in the Transit that ends (R440), and the plate's latch at the instant of the boundary (R441).
[log 45, DEDUCED] -/
def plateDue (s : State) (h : Half) : State :=
  plateLatch (((s.trp.get h).commits.filter fun r => r.kind == .plate).foldl (fun s r => rowApply s h r) s) h

/-- The Meridians of the halves are compared while the bridge is up (R31), in a Transit that both have reached or that one has
missed: a difference above 2 ns is an event of each half.
 -/
def meridianCompare (s : State) (h : Half) : State :=
  let d := ((s.mer h : Int) - s.mer h.other).natAbs
  if s.phase h = phUP ∧ s.tn h.other + 1 ≠ s.tn h ∧ 2 * nsU < d then raiseBoth s (evt 1 0 0 0) else s

/-- What the device as a whole takes at a boundary: authority, reference, service, promotion, rejoin and UP (R83, R183, R190, R191, R462). -/
def deviceBoundary (s : State) (h : Half) (x : BoundaryIn) : State :=
  let s := authBoundary (meridianCompare s h) h x.witE x.witW
  let s := promoteBoundary (svcBoundary (refBoundary s))
  ruleRepair (remapBoundary (upBoundary (rejoinBoundary s))) h

/-- A committed takeover at the boundary that opens its Transit (R35, R66).
[log 122, DEDUCED] -/
def swapTake (s : State) (h : Half) : State :=
  let t := s.trp.get h
  if t.swapGo ∧ t.swapT ≤ s.tn h then
    let s := setSel s h (standbyBank s h)
    (s.fset (TRP_SWAP_STAT h) TRP_SWAP_STAT_STATE swCOMPLETED).modTrp h fun t => { t with swapGo := false }
  else s

/-- A write of RUN comes into force (R43): 1 only with a valid active bank; a takeover still pending where RUN becomes 0 ends (R65). -/
def runTake (s : State) (h : Half) : State :=
  let p := (s.trp.get h).runPend
  let s := s.modTrp h fun t => { t with runPend := none }
  let on := s.flag (TRP_CTL h) TRP_CTL_RUN
  match p with
  | none => s
  | some true =>
    if on then s
    else if bankValid s h (s.fget (TRP_CTL h) TRP_CTL_SEL) then s.fset (TRP_CTL h) TRP_CTL_RUN 1
    else writeDiscarded s h (TRP_CTL h)
  | some false =>
    let s := s.fset (TRP_CTL h) TRP_CTL_RUN 0
    if on && swapOpen s h then swapAbortWith s h swHOLD else s

/-- Are power rows held back (R406): the half's Shutter link is lost, or its pair is in control hold?
[log 103, DEDUCED] -/
def powerHeld (s : State) (h : Half) : Bool := s.dome.linkLost.contains h.idx || s.flag (TRP_STAT h) TRP_STAT_HOLD

/-- The commit queue is applied in issue order (R32, R55). In a Transit with nothing released the last refills are repeated (R58). -/
def commitsApply (s : State) (h : Half) : State :=
  let t := s.trp.get h
  let wait := powerHeld s h
  let keep := t.commits.filter fun r => wait && r.kind == .power
  let go := t.commits.filter fun r => !(wait && r.kind == .power) && r.kind != .plate
  let s := s.modTrp h fun t => { t with commits := keep }
  let s := if t.rel then s else t.refills.foldl (fun s r => shpRefill s h r.idx) s
  go.foldl (fun s r => rowCommit s h r) s

/-- SLOT_PRSNT_L of each port of half h is sampled (R211): a new level counts its time from this boundary. -/
def prsntSample (s : State) (h : Half) (lv : Nat) : State :=
  (List.range 16).foldl (fun s i =>
    let p := 16 * h.idx + i
    if (prsntSeen s p).1 = bitB lv i then s
    else s.modMgt fun m => { m with prs := minsert m.prs p (bitB lv i, boundaryNs s h) }) s

/-- The units of a half at a boundary, after the commits; pending mirror writes have been made by then (R243). -/
def unitsBoundary (s : State) (h : Half) : State :=
  let s := mirrorSync s h
  let s := ephBoundary (metersRefill s h) h
  let s := beatBoundary (fnsBoundary (jobsBoundary s h) h) h
  plateHeader (unfenceBoundary s h) h

/-- A counter starts again (R437). -/
def phmClear (s : State) (h : Half) (n : Nat) : State :=
  let w := PHM_WRAP h (n / 32)
  (s.wr64 (PHM_CNT_LO h n) 0).wr w (s.rd w &&& ~~~ BitVec.ofNat 32 (2 ^ (n % 32)))

/-- New selections, groups and clears of the Photometer come into force (R437, R446).
[log 161, DEDUCED] -/
def phmTake (s : State) (h : Half) : State :=
  let p := s.phm.get h
  let sel (n : Nat) : Nat := (s.rd (PHM_SEL h n)).toNat
  let l := (List.range 256).filter fun n => nget p.sel n != sel n || bitB p.clr (n / 16)
  let s' := s.modPhm h fun p =>
    { p with sel := (List.range 256).foldl (fun m n => nset m n (sel n)) [], clr := 0,
             grp := s.fget (PHM_GRP h) PHM_GRP_EN }
  bwTake (l.foldl (fun s n => phmClear s h n) s') h

/-- Tj against one threshold (R430): whether an event is raised, and whether it stays marked until Tj has fallen by 5 °C.
[log 44, DEDUCED] -/
def overTemp (tj : Int) (limit : Nat) (marked : Bool) : Bool × Bool :=
  if (limit : Int) < tj then (!marked, true) else if tj ≤ (limit : Int) - 5 then (false, false) else (false, marked)

/-- Tj of the Transit (R430, R431).
[log 44, DEDUCED] -/
def tjSample (s : State) (h : Half) (tj : Int) : State :=
  let a := REF_THERM h
  let r := s.ref.get h
  let w := overTemp tj (s.fget a REF_THERM_WARN) r.warned
  let c := overTemp tj (s.fget a REF_THERM_CRIT) r.crit
  let s := s.fset a REF_THERM_TJ (tj % 256).toNat
  let s := s.modRef h fun r => { r with warned := w.2, crit := c.2 }
  let s := if 95 < tj then { s with dome := { s.dome with hot := true } } else s
  let s := if w.1 then raise s h (evt 20 0 0 0) else s
  if c.1 then thermalCrit s h else s

/-- The priority of an event's class in the active bank (R45, R50). -/
def evtPrio (s : State) (h : Half) (e : Evt) : Nat :=
  hndPrio (s.rd (TRP_BANK h (s.fget (TRP_CTL h) TRP_CTL_SEL) (8 + e.cls))).toNat

/-- Does event `e` go ahead of event `x` (R50, R410): by priority, then by stamp, then by class and instance? -/
def evtAhead (s : State) (h : Half) (e x : Evt) : Bool :=
  let p := evtPrio s h e
  let q := evtPrio s h x
  decide (q < p) || (p == q && (decide (e.ns < x.ns) || (e.ns == x.ns && (decide (e.cls < x.cls) ||
    (e.cls == x.cls && decide (e.inst < x.inst))))))

/-- Put an event behind those that do not come after it (R50). -/
def prioInsert (s : State) (h : Half) (e : Evt) : List Evt → List Evt
  | [] => [e]
  | x :: l => if evtAhead s h e x then e :: x :: l else x :: prioInsert s h e l

/-- The newly closed events by priority, oldest first within one, those of one stamp by class and instance (R50). -/
def prioSort (s : State) (h : Half) (l : List Evt) : List Evt := l.foldl (fun r e => prioInsert s h e r) []

/-- Does a Transit of the pair start at this boundary (R43, R61, R428)? -/
def pairRuns (s : State) (h : Half) : Bool :=
  match (s.trp.get h).requal with
  | some (_, n) => decide (0 < n) && !(s.trp.get h).requalBad
  | none => s.flag (TRP_CTL h) TRP_CTL_RUN && !s.flag (TRP_STAT h) TRP_STAT_HOLD

/-- Is the handler list closed at this boundary (R50)? Not where no Transit starts or in control hold (R53, R61). -/
def listCloses (s : State) (h : Half) : Bool := s.flag (TRP_CTL h) TRP_CTL_RUN && !s.flag (TRP_STAT h) TRP_STAT_HOLD

/-- The events stamped before the boundary, for the handler list that it closes (R35, R36); events of a control hold take no place (R61).
[log 33, DEDUCED] -/
def closing (s : State) (h : Half) : List Evt := if s.flag (TRP_STAT h) TRP_STAT_HOLD then [] else (s.trp.get h).arrivals

/-- The handler list for the Transit that opens: the events that close join behind the deferred ones (R50), or the list is
emptied (R53).
[log 33, DEDUCED] -/
def listClose (s : State) (h : Half) (l : List Evt) : State :=
  let new := (prioSort s h l).map fun e => (⟨e, 0, false⟩ : HEvt)
  let close := listCloses s h
  s.modTrp h fun t => { t with hlist := if close then t.hlist ++ new else [] }

/-- The fixed state in which the pair starts a Transit (R46), or idles through it. -/
def pairStart (s : State) (h : Half) : State :=
  let go := pairRuns s h
  let main := bits (bankWord s h 1).toNat 13 0
  let k := s.tn h
  let split := s.phase h != phUP
  s.modTrp h fun t =>
    { t with w := Vector.replicate 16 0, zf := false, nf := false, cf := false, vf := false, tn := k, bc := 0, pc := main,
             loops := [], phase := if go then .main else .idle, ran := go, splitAt := split, samplesReady := false, held := [],
             dispatched := [], sealed := false, done := false, rel := false,
             requal := t.requal.map fun q => (q.1, if go then q.2 - 1 else q.2) }

/-- Does word 2 of a staged row belong to half h's program? -/
def cancelHalf (a : Nat) : Half :=
  if 0x08000000 ≤ a % 0x100000000 ∧ a % 0x100000000 < 0x09000000 then (if a < 0x100000000 then .east else .west) else rowHalf (a - 8)

/-- What a half noted of the Transit that ends is forgotten: CANCEL writes that came too late, records that may still merge (R204,
R410). -/
def transitForget (s : State) (h : Half) : State :=
  (s.modMgt fun m => { m with lateCancel := m.lateCancel.filter fun a => decide (cancelHalf a ≠ h) }).modRef h fun r =>
    { r with recent := [] }

/-- The boundary of half h (R35).
[log 45, DEDUCED] -/
def boundary (s : State) (h : Half) (x : BoundaryIn) : State :=
  let s := sealLate s h
  let l := closing s h
  let s := (transitForget s h).modTrp h fun t => { t with arrivals := [] }
  let s := plateDue (merBoundary s h) h
  let s := prsntSample (deviceBoundary s h x) h x.prsnt
  let s := fireDue (merSettings (runTake (requalApply (swapTake s h) h) h) h) h (s.tn h)
  let s := reconcileOn (syncBoundary (commitsApply (shutterBoundary (listClose s h l) h) h) h) h
  let s := phmTake (unitsBoundary s h) h
  tjSample (pairStart s h) h x.tj

/-- TRANSIT_BOUNDARY (R35). -/
def execTransitBoundary (h : Half) (x : BoundaryIn) (s : State) : Host.Outcome State Fault Refusal := .next (boundary s h x)

end Sys2Proof.Machine
end

