-- ==== Sys2Proof/Machine/Cells.lean ====
section
/-! DEFINITION. The commands of admission and of the matchers (R107, R141-R147, R162). -/

namespace Sys2Proof.Machine

open Sys2Proof

/-- The sub-ports out of service that a cell's messages are bound for in half h (R162). -/
def cellDead (s : State) (h : Half) (c : Cell) : List Nat :=
  ((c.msgs.flatMap fun n => match s.msg n with
    | some m => if m.mc = [] then [m.dst] else m.mc
    | none => []).dedup).filter fun d => decide (d < 128) && decide (nodeHalf d = h) && !inService s d

/-- CELL_ARRIVAL (R141): the next formed cell of a station arrives; one bound for a sub-port out of service is flushed (R162). -/
def execCellArrival (h : Half) (st : Nat) (s : State) : Host.Outcome State Fault Refusal :=
  match lget (s.core.get h).formed st with
  | [] => .next s
  | (_, c) :: _ =>
    match cellDead s h c with
    | [] => .next (xoffStat (cellArrive s h st) h)
    | l => .next (xoffStat (l.foldl flushNode s) h)

/-- HELD_CELL_ADMIT (R142): its credits or its XON follow (R175). -/
def execHeldCellAdmit (h : Half) (st cls : Nat) (s : State) : Host.Outcome State Fault Refusal :=
  .next (xoffStat (heldAdmit s h st cls) h)

/-- The cell i of a page has a bad descriptor: the cell and the rest of its messages are discarded (R134). -/
def pageDiscard (s : State) (h : Half) (l : List Cell) (i : Nat) : State :=
  let ids := ((l.drop i).headD ⟨[], 0, false, 0, false, .none⟩).msgs
  queuesDrop (eccDiscard s h ids) h ids

/-- A word error found in a page that has been read (R134): a corrected Deep Field word raises HBM cause 5. -/
def eccReturn (s : State) (h : Half) (e : CellEcc) (l : List Cell) : State :=
  match e with
  | .clean => s
  | .corrected u => raise (s.fbump (CORE_ERRCNT0 h) CORE_ERRCNT0_ECC_CORR 1) h (evtU 16 5 u 5 u 0)
  | .payload u i => eccPoison (raise (s.fbump (CORE_ERRCNT0 h) CORE_ERRCNT0_ECC_UNC 1) h (evtU 16 0 u 5 u 0))
      (((l.flatMap fun c => c.msgs).dedup.drop i).take 1)
  | .descriptor u i => pageDiscard (raise (s.fbump (CORE_ERRCNT0 h) CORE_ERRCNT0_ECC_UNC 1) h (evtU 16 0 u 5 u 0)) h l i

/-- DEEP_FIELD_RETURN (R151): the oldest page in flight of a VOQ lands: its cells join the tail of the on-chip segment in order,
and the page is free. -/
def execDeepFieldReturn (h : Half) (k : Nat) (ecc : CellEcc) (s : State) : Host.Outcome State Fault Refusal :=
  match ((s.core.get h).voq k).ret with
  | [] => .next s
  | p :: r =>
    if dfReady s h = false then .next s
    else
      let s := modVoq s h k fun v => { v with chip := v.chip ++ p, ret := r }
      let s := tally (dfUse s h (dfUsed s h - 1)) h 2 1 0 p.length
      .next (unspill (eccReturn s h ecc p) h k)

/-- Does a message at the head of a queue, unicast or multicast, want a tag that sub-port d does not have (R107)? -/
def groupWaits (s : State) (d : Nat) (g : List Cell) : Bool :=
  let ms := groupMsgs s g
  ms.any fun m => !tagReady s d (ms.length - 1) m
/-- Does a message at the head of a queue of half h wait for a tag of sub-port d (R107)?
[log 135, DEDUCED] -/
def tagWaits (s : State) (h : Half) (d : Nat) : Bool :=
  linkUp s d && (((s.core.get h).voqs.any fun e =>
    keyDest e.1 == destIn h d && match headGroup e.2.chip with
      | none => false
      | some (g, _) => groupWaits s d g)
    || (s.core.get h).mcq.any fun e => match headGroup e.2 with
      | none => false
      | some (g, _) => (cellDests s h (g.headD ⟨[], 0, false, 0, false, .none⟩)).contains (destIn h d) && groupWaits s d g)

/-- A wait for a free entry counts once (R107), however many requests wait for it on the sub-port.
[log 135, DEDUCED] -/
def tagWaitCount (s : State) (h : Half) (d : Nat) : State :=
  let w := tagWaits s h d
  if (s.sub d).waiting = w then s
  else
    let s := s.modSub d fun x => { x with waiting := w }
    if w then s.fbump (PRT_TXERRCNT1 (d / 4) (d % 4)) PRT_TXERRCNT1_TAGWAIT_CNT 1 else s

/-- The sub-ports that a half's queued cells name. -/
def voqSubs (s : State) (h : Half) : List Nat :=
  ((((s.core.get h).voqs.map fun e => keyDest e.1) ++ (s.core.get h).mcq.flatMap fun e => e.2.flatMap (cellDests s h)).filter
    fun d => decide (d < 64)).dedup.map fun d => destNode h d

end Sys2Proof.Machine
end

