-- ==== Sys2Proof/Machine/Egress.lean ====
section
/-! DEFINITION. What leaves a sub-port and what comes back (spec 04): requests and their tags (R104-R107), responses (R22,
R116, R118), timeouts and quarantine (R111-R117), flits and replay (R121-R123), IDE (R124-R126), DevLoad (R127-R129). -/

namespace Sys2Proof.Machine

open Sys2Proof

/-- Flits that a message takes on the link.
[log 49, DESIGN CHOICE; log 50, PRESUMED] -/
def flitsOf (m : Msg) : Nat := flitsIn m.slots

/-- A sub-port's share of its port's replay buffer, in flits (R123). -/
def replayShare (s : State) (d : Nat) : Nat := 1024 / (subsOf s (d / 4)).length

/-- The link's kind of a response as it is sent: what the response message says, or its data with its Poison. -/
def rspKind (m : Msg) : Nat := if m.tgt.kind = 7 then m.tgt.addr else if m.poison then rkPOISON else rkOK
/-- The DevLoad that a response carries (R128).
[log 137, DEDUCED] -/
def rspLoad (m : Msg) : Nat := if m.tgt.kind = 7 then m.tgt.idx else 0

/-- A status of a device's own completion, passed on.
[log 63, DESIGN CHOICE] -/
def rkERR : Nat := 8

/-- The tag field of an internal request (R105). -/
def itagField (op : Op) (e : Nat) : Nat :=
  if op = .biSnp then e % 4096 else if opIsIo op then e % 16384 else 32768 + e

/-- What its leaving means to the unit that sent an internal write: a posted write is done (R286, R364, R373), and so is what
a copy engine's write to memory waits for. -/
def ownerLeft (s : State) (e : Nat) (x : ITag) (op : Op) : State :=
  let done := fun (s : State) => itagFlight (freeItagEnt s e) x
  match x.own, op with
  | .sf f i _ _, .mWr => copyLeft (done s) (f / 256) (f % 256) i
  | .sf f i _ false, _ => copyLeft s (f / 256) (f % 256) i
  | .image f _, .mWr => imageLeft (done s) (f / 256)
  | _, .mWr => idonePut (done s) x true 0 false
  | _, _ => s

/-- An internal request with its entry leaves, or is discarded because its entry is in quarantine, which frees it (R370). -/
def egressItag (s : State) (d : Nat) (m : Msg) (e : Nat) : State :=
  match mfind s.net.itags e with
  | none => s
  | some x =>
    if x.quar.isSome then freeItagEnt s e
    else ownerLeft ((itagStart s e d).emit (reqSent d m (itagField m.op e))) e { x with out := true } m.op

/-- A snoop or a device request of the Catalogue takes its internal tag as it leaves (R23, R105), which is free again at once
where no response answers it; none free: it waits.
[log 65, DEDUCED] -/
def egressCat (s : State) (d : Nat) (m : Msg) : Option State :=
  match takeItag s (nodeHalf m.src) (catOwner s m) 0 none false true with
  | none => none
  | some (e, s) =>
    let s := if awaits m.op then itagStart s e d else freeItagEnt s e
    some (s.emit (reqSent d m (itagField m.op e)))

/-- A request of a port leaves under a tag of its own (R104, R105); none free: it waits, and the wait counts (R107).
[log 135, DEDUCED] -/
def egressTag (s : State) (d : Nat) (m : Msg) : Option State :=
  if tagFree s d m.op = false then none
  else match takeTag s d m with
    | none => none
    | some (f, s) => some (s.emit (reqSent d m f))

/-- A response leaves toward its requester (R22, R128); one of a tenant in reset is discarded (R218).
[log 70, DEDUCED] -/
def egressRsp (s : State) (d : Nat) (m : Msg) : State :=
  let s := if (inReset s m.tenant ∧ (uspTenant s (nodeHalf d) d).isSome) ∨ hostGone s m.tenant d = true then s
    else s.emit (.rsp d m.op m.tag (rspKind m) (rspLoad m) m.hold m.ld m.len m.attr m.data)
  endFlight s m

/-- A posted message leaves: nothing will answer it (R312). A management answer of Kezen's own is its code and its numbers. -/
def egressPosted (s : State) (d : Nat) (m : Msg) : State :=
  if m.tgt.kind = 10 then s.emit (.out m.tgt.idx [d, m.tgt.addr]) else endFlight (s.emit (reqSent d m 0)) m

/-- What leaving sub-port d means for a message; none: it waits for a tag. -/
def egressMsg (s : State) (d : Nat) (m : Msg) : Option State :=
  if isRsp m.op then some (egressRsp s d m)
  else if catTagged m then egressCat s d m
  else match m.itag with
    | some e => some (egressItag s d m e)
    | none =>
      if m.tgt.kind = 9 then some (stkCopyOut s d true m)
      else if takesTag m then egressTag s d m
      else some (egressPosted s d m)

/-- The oldest message of a class in sub-port d's egress buffer leaves the buffer. -/
def egrPop (s : State) (d cls : Nat) : State :=
  let q := d % 64 * 9 + cls
  s.modCore (nodeHalf d) fun c => { c with egr := lset c.egr q ((lget c.egr q).drop 1) }

/-- A message has left sub-port d: its egress buffer space, its flits in the replay buffer (R123), the credit it uses (R145), the
posted count (R139). -/
def egressDone (s : State) (d cls n : Nat) (m : Msg) : State :=
  let s := linkTake (dropMsg (egrPop s d cls) n) d (opClass m.op) (flitsOf m)
  let s := s.modSub d fun x => { x with stalled := false }
  postedGone (tally s (nodeHalf d) 7 1 (d % 64) (flitsOf m)) m

/-- A stall on a full share of the replay buffer counts once (R123). -/
def replayStall (s : State) (d : Nat) : State :=
  if (s.sub d).stalled then s
  else (s.modSub d fun x => { x with stalled := true }).fbump (PRT_TXERRCNT2 (d / 4) (d % 4)) PRT_TXERRCNT2_REPLAY_STALL_CNT 1

/-- The oldest message of a class in sub-port d's egress buffer. -/
def egressHead (s : State) (d cls : Nat) : Option (Nat × Msg) :=
  (lget (s.core.get (nodeHalf d)).egr (d % 64 * 9 + cls)).head?.bind fun e => (s.msg e.1).map fun m => (e.1, m)

/-- The oldest message of a class leaves sub-port d; one that waits for a tag stays. -/
def egressSend (s : State) (d cls n : Nat) : State :=
  match s.msg n with
  | none => egrPop s d cls
  | some m =>
    match egressMsg s d m with
    | none => s
    | some s => egressDone s d cls n m

/-- REQUEST_EGRESS (R104, R123, R134): the oldest message of a class leaves sub-port Pp.k, if its flits fit into the sub-port's
share of the replay buffer. SECDED finds `ecc` in its words.
[log 49, DESIGN CHOICE] -/
def execRequestEgress (p : BitVec 5) (k : BitVec 2) (cls : Nat) (ecc : CellEcc) (s : State) : Host.Outcome State Fault Refusal :=
  let d := subNode p.toNat k.toNat
  match egressHead s d cls with
  | none => .next s
  | some (n, m) =>
    if linkUp s d = false then .next s
    else if replayShare s d < (s.sub d).unacked + flitsOf m then .next (replayStall s d)
    else
      let x := eccRead s (nodeHalf d) ecc [n]
      .next (egressSend x.2 d cls n)

/-- A response that matches no entry (R118): counted, and logged in the receiving port's vPPB. -/
def portAer (s : State) (d kind : Nat) : State :=
  match uspTenant s (nodeHalf d) d with
  | some t => aerLog s t 32 kind []
  | none => (vppbsOf s (nodeHalf d) d).foldl (fun s e => aerLog s e.1 e.2 kind []) s
def unexpected (s : State) (d : Nat) : State :=
  portAer (s.fbump (PRT_TXERRCNT1 (d / 4) (d % 4)) PRT_TXERRCNT1_UNEXP_CNT 1) d aerUNEXP

/-- A late completion (R116). -/
def lateCount (s : State) (d : Nat) : State := s.fbump (PRT_TXERRCNT0 (d / 4) (d % 4)) PRT_TXERRCNT0_LATE_CNT 1

/-- Does a live or quarantined internal entry answer to a response's tag at sub-port d (R105)? -/
def itagMatches (r : RspIn) (d e : Nat) (x : ITag) : Bool :=
  x.out && x.sub == d && match r.op with
    | .biRsp => e % 4096 == r.tagField % 4096 && (ownHolder x.own).isSome
    | .cpl => e % 16384 == r.tagField % 16384 && ownFn x.own == some r.req
    | .ndr | .drs => e == r.tagField % 32768 && (ownHolder x.own).isNone
    | _ => false

/-- The answer to a snoop of the Catalogue goes on to it (R236). -/
def biRspOn (s : State) (d : Nat) (x : ITag) (k t : Nat) (hold : Hold) : State :=
  originate s (nodeHalf d) (nodeStation d) { blankMsg .biRsp d (unitNode x.half 30) k t (tcCat s x.half) with hold := hold, slots := 1 }

/-- The final response to an internal request reaches its unit; the final part of a read carries the whole of its data. -/
def itagAnswer (s : State) (d e : Nat) (x : ITag) (r : RspIn) : State :=
  let s := itagFlight (freeItagEnt s e) x
  match x.own with
  | .snoop k t => biRspOn s d x k t r.hold
  | .sf f i off rd =>
    if rd then copyRead s (f / 256) (f % 256) i off (!r.error) r.poison r.data
    else if r.error then copyError s (f / 256) (f % 256) i off else s
  | .image f i => imageRead s (f / 256) i (!r.error && !r.poison) r.data
  | .catRead k => devAnswer s x.half k (if r.op = .ndr ∨ r.op = .drs then max r.devLoad (s.sub d).level else 0) r.data (r.error || r.poison)
  | _ => idonePut s x (!r.error) r.data r.poison


/-- The entry and the generation of a port tag field (R105), by the response's kind, with the generation's range. -/
def rspEntry (r : RspIn) : Nat × Nat × Nat :=
  match r.op with
  | .cpl => (r.tagField % 8192, r.tagField / 8192 % 2, 2)
  | .ndr | .drs => (r.tagField % 8192, r.tagField / 8192 % 4, 4)
  | _ => (r.tagField % 4096, 0, 1)

/-- The port entry that a response at sub-port d matches (R118): of this generation, of a request it answers. -/
def tagMatch (s : State) (d : Nat) (r : RspIn) : Option (Nat × TagEnt) :=
  let e := rspEntry r
  let k := tagKey (d / 4) e.1
  match mfind s.net.tags k with
  | some x =>
    if x.sub = d ∧ answers x.msg.op r.op = true ∧ (nget s.net.uses k + e.2.2 - 1) % e.2.2 = e.2.1 then some (k, x) else none
  | none => none

/-- A response on its way to the requester under the requester's own tag (R22), marked with the larger DevLoad (R128).
[log 137, DEDUCED] -/
def rspMsg (s : State) (d : Nat) (m : Msg) (r : RspIn) : Msg :=
  let load := if r.op = .ndr ∨ r.op = .drs then max r.devLoad (s.sub d).level else 0
  let kind := if r.error then rkERR else if r.poison then rkPOISON else rkOK
  { blankMsg r.op d m.src m.tag m.tenant m.tc with
    ld := m.ld, tgt := ⟨7, load, kind⟩, len := r.bytes, data := r.data, poison := r.poison, hold := r.hold, gen := m.gen,
    attr := r.attr, cfg := m.cfg, checked := m.checked, final := r.final, error := r.error, slots := msgSlots r.op r.bytes false }

/-- A completion that R108 exempts from the posted order: with Relaxed Ordering, or with ID-Based Ordering and another requester
ID than the posted requests'. -/
def rspFree (r : RspIn) : Bool := r.attr.getLsbD 1 || (r.attr.getLsbD 2 && r.otherId)

/-- A response starts at the station of the sub-port it came to, and shares cells with those of its flit (R132). -/
def originateRsp (s : State) (h : Half) (st : Nat) (m : Msg) (free : Bool) (flit : Nat) : State :=
  let x := if free then (m, s) else stampMsg s h m
  let r := newMsg x.2 x.1
  formCells r.2 h st r.1 flit (flit != 0)

/-- What a response to a live port entry means: a tenant in reset (R218), a split (R185), or a response that goes on.
[log 70, DEDUCED] -/
def rspLive (s : State) (d : Nat) (m : Msg) (r : RspIn) : State :=
  let h := nodeHalf d
  if inReset s m.tenant || hostGone s m.tenant m.src then (if r.final then endFlight s m else s)
  else if nodeHalf m.src ≠ h ∧ s.phase h ≠ phUP ∧ s.phase h ≠ phRETRAIN then s
  else originateRsp s h (nodeStation d) (rspMsg s d m r) (rspFree r) r.flit


/-- A timeout counts on its egress sub-port and raises its event (R115). -/
def ctoCount (s : State) (d : Nat) : State :=
  raise (s.fbump (PRT_TXERRCNT0 (d / 4) (d % 4)) PRT_TXERRCNT0_CTO_CNT 1) (nodeHalf d) (evt 6 0 d 0)

/-- The requester of a timed-out port entry is answered (R112-R115, R181): a request that crossed and whose crossing entry has
ended already gets nothing more.
[log 136, DEDUCED] -/
def ctoEnd (s : State) (d : Nat) (m : Msg) : State :=
  let rh := nodeHalf m.src
  let c := if rh = nodeHalf d then none else crossFind s rh { m with dst := m.src, op := rspOp m.op }
  match c with
  | some (_, ⟨_, some _⟩) => s
  | some (k, ⟨_, none⟩) => synthReport (crossFree s rh k) m (s.sub d).level
  | none => synthReport s m (s.sub d).level

/-- A port entry times out (R112): the synthetic completion covers the bytes not yet returned (R113); a BISnp that its host did
not answer sets Viral on the host's VCS (R114). -/
def tagTimeout (s : State) (k : Nat) (x : TagEnt) : State :=
  let s := ctoEnd (ctoCount s x.sub) x.sub { x.msg with len := x.left }
  let s := if x.msg.op = .biSnp ∧ x.msg.src < 128 then setViral s x.msg.tenant else s
  let q := boundaryNs s (nodeHalf x.sub)
  tagStat (s.modNet fun n => { n with tags := minsert n.tags k { x with quar := some q } }) x.sub (-1) 1

/-- An internal entry times out (R112): its unit learns of it, and the entry is quarantined. -/
def itagTimeout (s : State) (e : Nat) (x : ITag) : State :=
  let q := boundaryNs s x.half
  let s := (ctoCount s x.sub).modNet fun n => { n with itags := minsert n.itags e { x with quar := some q } }
  ownerLost (itagFlight s x) x

/-- Is an entry due at its half's boundary (R112): live, its request out, its age at least its timeout? -/
def tagDue (s : State) (x : TagEnt) : Bool := x.quar.isNone && decide (x.start + x.tmo ≤ boundaryNs s (nodeHalf x.sub))
def itagDue (s : State) (x : ITag) : Bool := x.out && x.quar.isNone && decide (x.start + x.tmo ≤ boundaryNs s x.half)

/-- The entries of half h that are due at its boundary. -/
def tagsDue (s : State) (h : Half) : List (Nat × TagEnt) := s.net.tags.filter fun e => decide (nodeHalf e.2.sub = h) && tagDue s e.2
def itagsDue (s : State) (h : Half) : List (Nat × ITag) := s.net.itags.filter fun e => decide (e.2.half = h) && itagDue s e.2

/-- A response to an entry in quarantine is late (R116): the final one frees the entry. -/
def rspLate (s : State) (d : Nat) (final : Bool) (free : State → State) : State :=
  let s := lateCount s d
  if final then free s else s

/-- A response under an internal tag (R22, R23, R116, R118). At the boundary at which its entry is due, the timeout is decided
first (R119). -/
def rspInternal (s : State) (d : Nat) (r : RspIn) : State :=
  match s.net.itags.find? fun e => itagMatches r d e.1 e.2 with
  | none => unexpected s d
  | some (e, x) =>
    if x.quar.isSome then rspLate s d r.final (freeItagEnt · e)
    else if itagDue s x then rspLate (itagTimeout s e x) d r.final (freeItagEnt · e)
    else if r.final then itagAnswer s d e x r
    else s

/-- A response under a port tag (R22, R113, R116, R118, R119). -/
def rspPort (s : State) (d : Nat) (r : RspIn) : State :=
  match tagMatch s d r with
  | none => unexpected s d
  | some (k, x) =>
    if x.quar.isSome then rspLate s d r.final (freeTag · k)
    else if tagDue s x then rspLate (tagTimeout s k x) d r.final (freeTag · k)
    else
      let s := if r.final then freeTag s k
        else s.modNet fun n => { n with tags := minsert n.tags k { x with left := x.left - r.bytes } }
      rspLive s d x.msg r

/-- A message of the link that left no cell at its station has been taken already: its credit goes back (R120). -/
def creditNow (old : State) (d c : Nat) (s : State) : State :=
  let l (s : State) : List (Nat × Cell) := lget (s.core.get (nodeHalf d)).formed (nodeStation d)
  if l s = l old then creditBack s d c else s

/-- RESPONSE_RECEIVED (R22): a response arrives at sub-port Pp.k. -/
def execResponseReceived (p : BitVec 5) (k : BitVec 2) (r : RspIn) (s : State) : Host.Outcome State Fault Refusal :=
  let d := subNode p.toNat k.toNat
  if linkUp s d = false then .next s
  else .next (creditNow s d (opClass r.op) (if r.internal then rspInternal s d r else rspPort s d r))

/-- COMPLETION_TIMEOUT (R112): every entry of half h that is due at the boundary which opened its Transit.
[log 2, DESIGN CHOICE; log 3, DESIGN CHOICE] -/
def execCompletionTimeout (h : Half) (s : State) : Host.Outcome State Fault Refusal :=
  let l := itagsDue s h
  let s := (tagsDue s h).foldl (fun s e => tagTimeout s e.1 e.2) s
  .next (l.foldl (fun s e => itagTimeout s e.1 e.2) s)

/-- Has a quarantine of twice the timeout passed at half h's boundary (R117)? -/
def quarOver (s : State) (h : Half) (q : Option Nat) (tmo : Nat) : Bool :=
  match q with
  | some a => decide (a + 2 * tmo ≤ boundaryNs s h)
  | none => false

/-- QUARANTINE_EXPIRY (R117): entries of half h whose quarantine is over become free. An internal entry whose request has not
left is freed by its egress (R370). -/
def execQuarantineExpiry (h : Half) (s : State) : Host.Outcome State Fault Refusal :=
  let ts := s.net.tags.filter fun e => decide (nodeHalf e.2.sub = h) && quarOver s h e.2.quar e.2.tmo
  let is := s.net.itags.filter fun e => decide (e.2.half = h) && e.2.out && quarOver s h e.2.quar e.2.tmo
  .next (is.foldl (fun s e => freeItagEnt s e.1) (ts.foldl (fun s e => freeTag s e.1) s))

/-- FLIT_RECEIVED (R121): a flit with link sequence number `seq`; one already accepted is a replay and is discarded, one out
of turn waits for its replay, and the next in turn is accepted: the credits that it brings are the partner's grant (R122), and
its messages follow as requests and responses.
[log 50, PRESUMED] -/
def execFlitReceived (p : BitVec 5) (k : BitVec 2) (seq : BitVec 10) (fec : Bool) (cred : List (Nat × Nat)) (s : State) :
    Host.Outcome State Fault Refusal :=
  let d := subNode p.toNat k.toNat
  let h := nodeHalf d
  let x := s.sub d
  if inService s d = false then .next s
  else
    let s := tally s h 7 0 (d % 64) 1
    let s := if fec then tally s h 7 2 (d % 64) 1 else s
    if seq.toNat = (x.rxSeq + 1) % 1024 then
      .next (s.modSub d fun x => { x with rxSeq := seq.toNat, txCred := credAdd x.txCred cred })
    else if (x.rxSeq + 1024 - seq.toNat) % 1024 < 512 then
      .next (s.fbump (PRT_TXERRCNT2 (d / 4) (d % 4)) PRT_TXERRCNT2_REPLAY_DUP_CNT 1)
    else .next s

/-- FLIT_ACK_RECEIVED (R122, R123): the partner acknowledges n flits; with `nak` the others are replayed, which uses no credits. -/
def execFlitAckReceived (p : BitVec 5) (k : BitVec 2) (n : Nat) (nak : Bool) (s : State) : Host.Outcome State Fault Refusal :=
  let d := subNode p.toNat k.toNat
  let u := (s.sub d).unacked - n
  let s := s.modSub d fun x => { x with unacked := u, stalled := if u < replayShare s d then false else x.stalled }
  .next (if nak then tally s (nodeHalf d) 7 3 (d % 64) u else s)

/-- Has an SPDM session been established with Kezen over the DOE mailbox of sub-port d: its own, or that of the upstream vPPB of the
tenant it belongs to? -/
def spdmOpen (s : State) (d : Nat) : Bool :=
  s.spdm.sessions.any fun e => e.1 == 128 + d || (uspTenant s (nodeHalf d) d).any fun t => e.1 == t

/-- IDE_KEY_PROGRAM (R124): IDE_KM sets or refreshes a stream's keys: 0 the CXL.io stream, 1 the CXL.cachemem stream with its
mode. Without an SPDM session it sets none.
[log 146, DEDUCED] -/
def execIdeKeyProgram (p : BitVec 5) (k : BitVec 2) (stream : BitVec 1) (skid : Bool) (key : Nat) (s : State) :
    Host.Outcome State Fault Refusal :=
  let d := subNode p.toNat k.toNat
  let a := PRT_IDE p.toNat k.toNat
  if spdmOpen s d = false then .next s
  else if stream = 0 then .next ((s.fset a PRT_IDE_IO_SEC 1).modSub d fun x => { x with keyIo := some (key % 2 ^ 256) })
  else .next ((s.fsets a [(PRT_IDE_MEM_SEC, 1), (PRT_IDE_SKID, skid.toNat)]).modSub d fun x => { x with keyMem := some (key % 2 ^ 256) })

/-- IDE_CHECK_FAILED (R126). What the standard's mode discards has not become a message; its requests end by timeout. -/
def execIdeCheckFailed (p : BitVec 5) (k : BitVec 2) (stream : BitVec 1) (s : State) : Host.Outcome State Fault Refusal :=
  let d := subNode p.toNat k.toNat
  let s := s.fset (PRT_IDE p.toNat k.toNat) (if stream = 0 then PRT_IDE_IO_SEC else PRT_IDE_MEM_SEC) 0
  let s := s.fbump (PRT_TXERRCNT3 p.toNat k.toNat) PRT_TXERRCNT3_IDE_FAIL_CNT 1
  .next (portAer (raise s (nodeHalf d) (evt 7 0 d 0)) d aerIDE)

/-- Is a cell of CXL.mem M2S? Its bytes, as the queue depth counts them: its payload slots and its descriptor. -/
def cellM2S (s : State) (c : Cell) : Bool :=
  c.msgs.any fun n => match s.msg n with
    | some m => opClass m.op == 3 && m.op != .d2hReq
    | none => false
/-- The bytes of the CXL.mem M2S cells of a queue, their descriptors included (R127).
[log 51, DEDUCED] -/
def cellBytes (s : State) (l : List Cell) : Nat := ((l.filter fun c => cellM2S s c).map fun c => 16 * (c.slots + 1)).sum

/-- The queue depth of sub-port d (R127): virtual output queues with their Deep Field spill, and the bridge receive buffers.
[log 51, DEDUCED] -/
def queueDepth (s : State) (d : Nat) : Nat :=
  let h := nodeHalf d
  let c := s.core.get h
  let q := (c.voqs.filter fun e => keyDest e.1 == destIn h d).flatMap fun e => e.2.chip ++ (e.2.deep ++ e.2.ret).flatten
  let sp := (c.spill.flatMap fun e => e.2).filter fun e => keyDest e.1 == destIn h d
  let sp := sp ++ (c.writer.flatMap fun e => e.2).filter fun e => keyDest e.1 == destIn h d
  let rx := (List.range 8).flatMap fun g => (lget c.formed (16 + g)).filter fun e => keyDest e.1 == destIn h d
  cellBytes s (q ++ sp.map (fun e => e.2) ++ rx.map fun e => e.2)

/-- The mark of level n, in bytes; 0 where it is disabled (R127). -/
def markOf (s : State) (d n : Nat) : Nat :=
  let a := PRT_DLD_CFG (d / 4) (d % 4)
  16384 * (match n with
    | 1 => s.fget a PRT_DLD_CFG_MARK1
    | 2 => s.fget a PRT_DLD_CFG_MARK2
    | _ => s.fget a PRT_DLD_CFG_MARK3)

/-- The marking level after a sample of depth b (R127): up to the highest enabled mark that the depth exceeds, else down to
the next enabled level below when the depth is below the level's mark less the hysteresis. -/
def levelNext (s : State) (d l b : Nat) : Nat :=
  let up := ((List.range 4).filter fun n => decide (l < n) && decide (0 < markOf s d n) && decide (markOf s d n < b)).getLast?
  let hys := 16384 * s.fget (PRT_DLD_CFG (d / 4) (d % 4)) PRT_DLD_CFG_HYS
  match up with
  | some n => n
  | none =>
    if l ≠ 0 ∧ b + hys < markOf s d l ∨ l ≠ 0 ∧ markOf s d l = 0 then
      (((List.range l).filter fun n => n == 0 || decide (0 < markOf s d n)).getLast?).getD 0
    else l

/-- DEVLOAD_SAMPLE (R127). -/
def execDevloadSample (p : BitVec 5) (k : BitVec 2) (s : State) : Host.Outcome State Fault Refusal :=
  let d := subNode p.toNat k.toNat
  .next (s.modSub d fun x => { x with level := levelNext s d x.level (queueDepth s d) })

end Sys2Proof.Machine
end

