-- ==== Sys2Proof/Machine/Ingress.lean ====
section
/-! DEFINITION. A request at its ingress sub-port (R19-R21, R103, R125, R185, R197, R201, R218, R300-R305, R315): who asks,
where it goes, whether it may, and the messages it becomes. -/

namespace Sys2Proof.Machine

open Sys2Proof

/-- The tenant a request of sub-port d belongs to (R19): that of the upstream sub-port, or for a device the host it names,
or the tenant its LD is bound to; a device's must have a vPPB bound to the sub-port.
[log 54, DESIGN CHOICE; log 60, DEDUCED] -/
def reqTenant (s : State) (d : Nat) (r : ReqIn) : Option Nat :=
  let h := nodeHalf d
  match uspTenant s h d with
  | some t => some t
  | none =>
    match r.tgt with
    | .pieces (⟨4, t, _⟩ :: _) => if (tenantsOf s d).contains t then some t else none
    | _ => ((s.binds.get h).vb.find? fun e => e.2.sub == d && (e.2.ld.isNone || e.2.ld == some r.ld)).map fun e => e.1 / 32

/-- The message a request makes before anything is known of it, for the answers at its ingress. -/
def rawMsg (s : State) (d t : Nat) (r : ReqIn) : Msg :=
  { blankMsg r.op d d r.tag t (tcOf s t r.op r.tlpTc) with
    ld := r.ld, len := r.len, data := r.data, poison := r.poison, hold := r.hold, snp := r.snp, attr := r.attr,
    slots := msgSlots r.op r.len r.twoSlots }

/-- The vPPB that logs an error of a request of sub-port d (R103): U for a host, the device's own vPPB otherwise.
[log 60, DEDUCED] -/
def logVppb (s : State) (d t : Nat) : Nat :=
  match (vppbsOf s (nodeHalf d) d).find? fun e => e.1 = t with
  | some e => e.2
  | none => 32

/-- The answer Unsupported Request (R103, R197): a completion to a non-posted request; a posted one is discarded and logged.
[log 54, DESIGN CHOICE; log 135, DEDUCED] -/
def urAnswer (s : State) (d : Nat) (t : Option Nat) (r : ReqIn) : State :=
  if nonPosted r.op then sendRsp s (rawMsg s d (t.getD 64) r) (rspOp r.op) rkUR 0
  else match t with
    | some t => aerMsg s t (logVppb s d t) aerUR (rawMsg s d t r)
    | none => s

/-- A tenant in reset (R218): Unsupported Request to a non-posted request, a posted one discarded. -/
def resetAnswer (s : State) (d : Nat) (r : ReqIn) : State := if nonPosted r.op then urAnswer s d none r else s

/-- A completion with data, made at the ingress itself by completer `id`. -/
def dataAnswer (s : State) (d id : Nat) (r : ReqIn) (data : Nat) : State :=
  sendOwn s d .cpl (flitsIn (msgSlots .cpl r.len false)) (.rsp d .cpl r.tag rkOK 0 .noop id r.len r.attr data)

/-- A configuration request to a vPPB is completed at the ingress station (R21, R196). -/
def cfgVppb (s : State) (d t v : Nat) (r : ReqIn) (off : Nat) : State :=
  if r.op = .cfgRd then
    let x := cfgRead s t v off
    dataAnswer x.2 d (t * 64 + v) r (x.1 / 2 ^ (8 * (off % 4)) % 2 ^ (8 * r.len))
  else dataAnswer (cfgWrite s t v off r.data) d (t * 64 + v) r 0

/-- The Command register of a function: Bus Master Enable is bit 2 (PRESUMED, PCI Express).
[log 57, PRESUMED] -/
def bmeWrite (s : State) (t fn data : Nat) : State :=
  if bitB data 2 then msixPending (s.modFn t fn fun f => { f with bme := true }) t fn
  else if (s.fn t fn).bme then bmeClear s t fn else s

/-- What the spec states of a register of the PF alone: the BARs and the Expansion ROM (R343), SR-IOV (R348, R349), DOE (R342).
[log 12, DESIGN CHOICE; log 57, PRESUMED] -/
def pfFields (s : State) (t off : Nat) : List (Nat × Nat × Nat) :=
  let f := s.fn t 0
  match off / 4 with
  | 4 => [(18, 0, 4)]
  | 6 => [(31, 0, 0xC)]
  | 7 => [(7, 0, 0)]
  | 12 => [(15, 1, 0)]
  | 88 => [(15, 0, 0x10), (31, 20, 0x1A0)]
  | 90 => [(0, 0, f.vfe.toNat)]
  | 91 => [(15, 0, f.totalVfs), (31, 16, f.totalVfs)]
  | 92 => [(15, 0, f.numvfs)]
  | 93 => [(15, 0, 1), (31, 16, 1)]
  | 94 => [(31, 16, 0x5122)]
  | 97 => [(18, 0, 4)]
  | 99 => [(31, 0, 0xC)]
  | 100 => [(7, 0, 0)]
  | 104 => [(15, 0, 0x2E)]
  | _ => []

/-- What the spec states of a Service Function register: its identity and class (R4, R342), Bus Master Enable (R369), Transactions
Pending (R370), MSI-X with 4 vectors, its Function Mask, its table and its pending bits (R342, R344), AER and ARI.
[log 57, PRESUMED] -/
def sfFields (s : State) (t fn off : Nat) : List (Nat × Nat × Nat) :=
  let f := s.fn t fn
  match off / 4 with
  | 0 => [(31, 0, (if fn = 0 then 0x5121 else 0x5122) * 2 ^ 16 + 0xCAE5)]
  | 1 => [(2, 2, f.bme.toNat), (20, 20, 1)]
  | 2 => [(7, 0, 1), (31, 8, 0x120000)]
  | 3 => [(22, 16, 0)]
  | 13 => [(7, 0, 0x40)]
  | 16 => [(15, 0, 0x7010), (23, 20, 0)]
  | 18 => [(15, 15, 0), (21, 21, f.flr.isSome.toNat)]
  | 28 => [(15, 0, 0x11), (26, 16, 3), (30, 30, f.fmask.toNat)]
  | 29 => [(31, 0, 0x1000)]
  | 30 => [(31, 0, 0x1800)]
  | 64 => [(15, 0, 1), (31, 20, 0x150)]
  | 84 => [(15, 0, 0xE)]
  | _ => if fn = 0 then pfFields s t off else []

/-- A host's write of a configuration register of function fn: Bus Master Enable (R369), the initiation of an FLR (R370), the MSI-X
Function Mask, VF Enable and NumVFs (R349).
[log 57, PRESUMED] -/
def sfWrite (s : State) (t fn off x : Nat) : State :=
  let f := s.fn t fn
  match off / 4 with
  | 1 => bmeWrite s t fn x
  | 18 => if bitB x 15 then flrStart s t fn else s
  | 28 => msixPending (s.modFn t fn fun f => { f with fmask := bitB x 30 }) t fn
  | 90 => if fn = 0 then vfEnable s t (bitB x 0) f.numvfs else s
  | 92 => if fn = 0 then vfEnable s t f.vfe (x % 2 ^ 16) else s
  | _ => s

/-- A configuration request to the Service Function below D0 (R349, R369, R370, R372).
[log 55, DESIGN CHOICE] -/
def cfgSf (s : State) (d t fn : Nat) (r : ReqIn) (off : Nat) : State :=
  if fnExists s t fn = false ∨ 256 ≤ fn then urAnswer s d (some t) r
  else if fnGone s t fn ∧ (s.fn t fn).flr = none then dataAnswer s d (t * 64) r (if r.op = .cfgRd then 2 ^ (8 * r.len) - 1 else 0)
  else if r.op = .cfgWr then dataAnswer (sfWrite s t fn off r.data) d (t * 64) r 0
  else
    let x := cfgOver (sfFields s t fn off) s
    dataAnswer x.2 d (t * 64) r (x.1 / 2 ^ (8 * (off % 4)) % 2 ^ (8 * r.len))

/-- Is a configuration request to the device below node n, at its HDM or BI decoder capability structure, Kezen's to answer: has
the device, or its LD, a window in use (R228)?
[log 56, DESIGN CHOICE] -/
def decOwn (s : State) (n ld : Nat) : Bool :=
  (List.range 64).any fun w => winUsed s (nodeHalf n) w && winSub s (nodeHalf n) w == n && winLd s (nodeHalf n) w == ld

/-- Such a read returns what Kezen substitutes, of which the spec gives no register's value; a write is absorbed (R228).
[log 56, DESIGN CHOICE] -/
def decAnswer (s : State) (d t v : Nat) (r : ReqIn) : State :=
  let x := s.draw
  dataAnswer x.2 d (t * 64 + v) r (if r.op = .cfgRd then x.1 % 2 ^ (8 * r.len) else 0)

/-- The node of a device below vPPB v of tenant t. -/
def vppbNode (s : State) (h : Half) (t v : Nat) : Option Nat := (mfind (s.binds.get h).vb (t * 32 + v)).map fun b => b.sub

/-- Is a memory or CXL.io target behind a vPPB of the tenant (R197)? -/
def pieceBound (s : State) (h : Half) (t : Nat) (p : Piece) : Bool :=
  (s.binds.get h).vb.any fun e => e.1 / 32 == t && e.2.sub == memSub p.idx
    && (p.kind == 1 || e.2.ld == some (memLd p.idx) || (e.2.ld.isNone && memLd p.idx == 0))

/-- The half that takes a line of job j which enters half h (R274).
[log 85, DEDUCED] -/
def stkHalf (s : State) (h : Half) (j : Nat) : Half :=
  match jobOf s j with
  | some x => if cxNear x.ctx then h else jobHalf j
  | none => jobHalf j

/-- Does the partner of sub-port n speak CXL (R102)? One that does not is a CXL.io device alone. -/
def cxlDevice (s : State) (n : Nat) : Bool := (s.sub n).dev.all fun x => x.cxl

/-- Where a piece goes (R17, R20, R225, R271): none where no decoder or vPPB of the tenant claims it.
[log 53, DESIGN CHOICE] -/
def pieceNode (s : State) (h : Half) (t : Nat) (p : Piece) : Option Nat :=
  match p.kind with
  | 0 => if pieceBound s h t p && cxlDevice s (memSub p.idx) then some (match pieceWin s p with
      | some (w, _) => unitNode w 30
      | none => memSub p.idx) else none
  | 1 => if pieceBound s h t p then some (memSub p.idx) else none
  | 2 => some (unitNode (stkHalf s h (p.addr / 2 ^ 30 % 1024)) (24 + p.addr / 2 ^ 30 % 4))
  | 3 => some (unitNode (tenantHalf t) 28)
  | 4 => if p.idx = t then uspOf s h t else none
  | _ => none

/-- The permissions a request needs at a piece (R300); 0 is not checked.
[log 61, DEDUCED] -/
def windowNeed (m : Msg) : Nat :=
  if m.op = .atomic then pR + pW
  else if m.op = .memSpecRd then pR
  else match catKind m false with
    | .rdS | .rdAny => pR + pCOH
    | .rdOwn | .own => pR + pW + pCOH
    | .rdCur => pR
    | .wr | .wb => pW
    | _ => 0
def pieceNeed (s : State) (m : Msg) (p : Piece) : Nat :=
  if m.op = .msg ∨ m.op = .biSnp ∨ m.op = .h2dReq then 0
  else if p.kind = 2 ∧ opWrites m.op = true then pSTK
  else if (pieceWin s p).isSome then windowNeed m
  else needOf m.op m.hold

/-- The lowest-addressed denied piece (R305), by the permissions that each piece needs. -/
def reqDenied (s : State) (h : Half) (t : Nat) (l : List (Piece × Nat)) : Option (Piece × Nat × Option Nat) :=
  l.foldl (fun b p =>
    if p.2 = 0 then b
    else match check s h (.tenant t) p.1 p.2 with
      | .allow => b
      | .deny r => match b with
        | none => some (p.1, p.2, r)
        | some x => if p.1.addr < x.1.addr then some (p.1, p.2, r) else some x) none

/-- A request with its piece, for its answer at the ingress: the level is that of its egress sub-port (R114). -/
def pieceMsg (s : State) (d : Nat) (m : Msg) (p : Piece) : Msg :=
  { m with tgt := p, dst := (pieceNode s (nodeHalf d) m.tenant p).getD d }

/-- The answer to a denied request (R315). -/
def deniedAnswer (s : State) (d : Nat) (m : Msg) : State :=
  aerMsg (synthEnd s m (levelOf s m)) m.tenant (if m.op = .d2hReq then logVppb s d m.tenant else 32) aerACS m

/-- The parts of a request within a piece: lines inside a Catalogue window, which keeps coherence by the line (R233), the
piece as a whole elsewhere.
[log 52, DEDUCED] -/
def lineParts (addr len : Nat) : List (Nat × Nat) :=
  let n := (addr % 64 + len + 63) / 64
  (List.range (max n 1)).map fun i =>
    let a := if i = 0 then addr else addr / 64 * 64 + 64 * i
    let e := min (addr + len) (addr / 64 * 64 + 64 * (i + 1))
    (a, e - a)
/-- The parts of a piece of a request: one for each line where a CXL.io request enters a window, else one.
[log 52, DEDUCED] -/
def pieceParts (s : State) (op : Op) (p : Piece) (len : Nat) : List (Nat × Nat) :=
  if opIsIo op && (pieceWin s p).isSome then lineParts p.addr len else [(p.addr, len)]

/-- Does a message go to the Catalogue of its own half at once: it has room (R233), and nothing of this sub-port waits for it? -/
def catDirect (s : State) (d : Nat) (m : Msg) : Bool :=
  let h := nodeHalf d
  m.dst == unitNode h 30 && catRoom s h && !(queuedIds (s.core.get h)).any fun n => (s.msg n).any fun x => x.dst == m.dst && x.src == d

/-- A message of a request is formed (R132, R133, R139, R312). A request that is not posted and of another requester ID under
ID-Based Ordering is exempt from the posted order (R108). -/
def formReq (s : State) (d : Nat) (r : ReqIn) (need : Nat) (m : Msg) : State :=
  let h := nodeHalf d
  let m := { m with gen := s.gen h, checked := decide (need ≠ 0) && !m.deny }
  let s := if m.checked then flightBegin s h m.gen else s
  if catDirect s d m then toCatalogue s h m
  else
    let x := if nonPosted r.op && r.attr.getLsbD 2 && r.otherId then (m, s) else stampMsg s h m
    let y := newMsg x.2 x.1
    formCells y.2 h (nodeStation d) y.1 r.flit true

/-- The messages of a piece of a request, each with the permissions that it needs: piece i of n takes an n-th of its bytes. -/
def pieceMsgs (s : State) (d t : Nat) (r : ReqIn) (deny : Bool) (i n : Nat) (p : Piece) : List (Nat × Msg) :=
  let len := r.len / n
  let m := { rawMsg s d t r with dst := (pieceNode s (nodeHalf d) t p).getD d, deny := deny }
  (pieceParts s r.op p len).map fun q => (pieceNeed s m p, { m with
    tgt := { p with addr := q.1 }, len := q.2, data := r.data / 2 ^ (8 * (len * i + (q.1 - p.addr))) % 2 ^ (8 * q.2),
    slots := msgSlots r.op q.2 r.twoSlots })

/-- Mark the last of the messages that form cells: its arrival in the Court gives the request's one credit back (R120). -/
def markFinal (f : Msg → Bool) : List (Nat × Msg) → List (Nat × Msg)
  | [] => []
  | e :: r => (e.1, { e.2 with final := f e.2 && !(r.any fun x => f x.2) }) :: markFinal f r

/-- The messages of a request are formed.
[log 52, DEDUCED; log 53, DESIGN CHOICE] -/
def formPieces (s : State) (d t : Nat) (r : ReqIn) (deny : Bool) (l : List Piece) : State :=
  (markFinal (fun m => !catDirect s d m) ((l.zip (List.range l.length)).flatMap fun p => pieceMsgs s d t r deny p.2 l.length p.1)).foldl
    (fun s e => formReq s d r e.1 e.2) s

/-- A request that would cross while the halves are not joined (R185). -/
def splitAnswer (s : State) (d : Nat) (m : Msg) : State :=
  if nonPosted m.op then
    (synthReport s m (levelOf s m)).fbump (CDB_ERRCNT2 (nodeHalf d)) CDB_ERRCNT2_XEND_CNT 1
  else aerMsg s m.tenant 32 aerUIE m

/-- Is this the write-back that a reconciliation snoop of the line awaits from tenant t (R260)? It crosses to be absorbed.
[log 79, DEDUCED] -/
def wbAwaited (s : State) (t : Nat) (op : Op) (len : Nat) (p : Piece) : Bool :=
  op == .memWr && len == 64 && s.phase .east == phRECONCILE && match pieceWin s p with
    | some (h, w) => (txnOf s h (lineKey w ((p.addr - winBase s h w) / 64))).any fun x => x.kind == .reconcile && x.pend.contains t
    | none => false

/-- Does a piece lie across a bridge that carries no requests until UP (R185, R191)? -/
def pieceCut (s : State) (h : Half) (t : Nat) (op : Op) (len : Nat) (p : Piece) : Bool :=
  s.phase h != phUP && !wbAwaited s t op len p && s.phase h != phRETRAIN && match pieceNode s h t p with
    | some n => decide (nodeHalf n ≠ h)
    | none => false

/-- The first piece of a CXL.mem request that the extent check refuses (R201). -/
def extMissed (s : State) (h : Half) (t : Nat) (op : Op) (len : Nat) (l : List Piece) : Option Piece :=
  if opIsIo op || opIsCache op || op == .biSnp then none
  else l.find? fun p => p.kind == 0 && !extentOk s h t (memSub p.idx) (memLd p.idx) p.addr len

/-- The checks and the way of a request with pieces: the decoders, the Umpire, the extents, the bridge (R19, R303).
[log 53, DESIGN CHOICE] -/
def reqPieces (s : State) (d t : Nat) (r : ReqIn) (l : List Piece) : State :=
  let h := nodeHalf d
  let m := rawMsg s d t r
  if l = [] ∨ (l.any fun p => (pieceNode s h t p).isNone) then urAnswer s d (some t) r
  else match reqDenied s h t (l.map fun p => (p, pieceNeed s m p)) with
    | some (p, need, rule) =>
      if r.op = .memWr ∧ (pieceWin s p).isSome ∧ r.len = 64 ∧ pieceCut s h t r.op r.len p = false then formPieces s d t r true l
      else deniedAnswer (umpFault s h t need p rule) d (pieceMsg s d m p)
    | none =>
      match extMissed s h t r.op r.len l with
      | some p =>
        let x := pieceMsg s d m p
        (synthReport s x (levelOf s x)).fbump (SF_TEN_ERRCNT t) SF_TEN_ERRCNT_EXT_MISS 1
      | none =>
        match l.find? (pieceCut s h t r.op r.len) with
        | some p => splitAnswer s d (pieceMsg s d m p)
        | none => formPieces s d t r false l

/-- A PTM response with Kezen's time, its Meridian (R102).
[log 145, DEDUCED] -/
def outPTM : Nat := 41

/-- Is the request an error message or a Viral indication of the device itself? Its code stands in the data.
[log 115, DEDUCED] -/
def deviceError (s : State) (d : Nat) (r : ReqIn) : Bool :=
  r.op == .msg && r.tgt == .none && (uspTenant s (nodeHalf d) d).isNone && [errCor, errNonfatal, errFatal, errViral].contains r.data

/-- An error of a device is reported through every vPPB bound to it or to one of its LDs, and to no other (R221, R222).
[log 115, DEDUCED] -/
def deviceErrors (s : State) (d code : Nat) : State :=
  (vppbsOf s (nodeHalf d) d).foldl (fun s e => if inReset s e.1 then s else s.emit (.out outERR [e.1, e.2, code])) s

/-- A request of a known tenant by its target (R19-R21, R102).
[log 145, DEDUCED] -/
def reqRoute (s : State) (d t : Nat) (r : ReqIn) : State :=
  let h := nodeHalf d
  match r.tgt with
  | .cfgVppb v off => if 33 ≤ v then urAnswer s d (some t) r else cfgVppb s d t v r off
  | .cfgBelow v fn off dec =>
    if v = 0 then cfgSf s d t fn r off
    else match mfind (s.binds.get h).vb (t * 32 + v) with
      | none => urAnswer s d (some t) r
      | some b =>
        let m := { rawMsg s d t r with dst := b.sub, tgt := ⟨11, 2 * b.ld.getD 0, off⟩ }
        if nodeHalf b.sub ≠ h ∧ s.phase h ≠ phUP ∧ s.phase h ≠ phRETRAIN then splitAnswer s d m
        else if dec && decOwn s b.sub (b.ld.getD 0) then decAnswer s d t v r
        else formReq s d r 0 m
  | .ptm => if (uspTenant s h d).isSome then s.emit (.out outPTM [d, s.now h]) else s
  | .mctp => formReq s d r 0 { rawMsg s d t r with dst := unitNode (s.auth h) 31 }
  | .none => if r.op = .msg then s else urAnswer s d (some t) r
  | .pieces l => reqPieces s d t r l

/-- Does the port complete a request itself as one that it does not support (R102, R103, R125): a feature marked "No", CXL.mem or
CXL.cache of a partner that speaks PCI Express alone, or a link whose IDE streams are required and not yet Secure? -/
def reqRefused (s : State) (d : Nat) (r : ReqIn) : Bool :=
  r.unsupported || (!cxlDevice s d && !opIsIo r.op && r.op != .mctp)
    || (!ideOpen s d && r.op != .cfgRd && r.op != .cfgWr && r.op != .mctp)

/-- REQUEST_INGRESS (R19): a request arrives at sub-port Pp.k.
[log 54, DESIGN CHOICE] -/
def execRequestIngress (p : BitVec 5) (k : BitVec 2) (r : ReqIn) (s : State) : Host.Outcome State Fault Refusal :=
  let d := subNode p.toNat k.toNat
  let t := reqTenant s d r
  if linkUp s d = false ∨ isRsp r.op = true then .next s
  else .next (creditNow s d (opClass r.op) (if reqRefused s d r then urAnswer s d t r
    else if deviceError s d r then deviceErrors s d r.data
    else match t with
      | none => urAnswer s d none r
      | some t => if inReset s t then resetAnswer s d r else reqRoute s d t r))

end Sys2Proof.Machine
end

