-- ==== Sys2Proof/Machine/Volley.lean ====
section
/-! DEFINITION. The Volley's slot (R146), and what the Service Function does with what has reached its station (R17, R20). -/

namespace Sys2Proof.Machine

open Sys2Proof

/-- The completion of a host's access to its Service Function leaves on VC1 (R20); one bound across is discarded while the halves
are parted (R185).
[log 59, DESIGN CHOICE] -/
def sfReply (s : State) (h : Half) (m : Msg) (kind data : Nat) : State :=
  if nodeHalf m.src ≠ h ∧ s.phase h ≠ phUP ∧ s.phase h ≠ phRETRAIN then endFlight s m
  else originate s h 28 { blankMsg .cpl (unitNode h 28) m.src m.tag m.tenant m.tc with
    tgt := ⟨7, 0, kind⟩, len := m.len, data := data, gen := m.gen, attr := m.attr, checked := m.checked,
    slots := msgSlots .cpl m.len false }

/-- Does an access read the CQ's or the RQ's window (R344)? -/
def queueWindow (bar off : Nat) : Bool := bar == 0 && decide (0x20000 ≤ off) && decide (off < 0x80000)

/-- A host's access to its Service Function's BAR0 or Expansion ROM (R343-R345); the function is the request's `ld`, the BAR and
the offset are its address. SECDED over a queue's entry that is read finds `ecc` (R359): an uncorrectable one completes with EP.
[log 59, DESIGN CHOICE] -/
def sfAccess (s : State) (h : Half) (m : Msg) (ecc : CellEcc) : State :=
  let bar := m.tgt.addr / 2 ^ 44
  let off := m.tgt.addr % 2 ^ 44
  match m.op with
  | .mRd =>
    (match hostRead s m.tenant m.ld bar off m.len with
     | some (v, s) =>
       let r := if queueWindow bar off && (fnSeen s m.tenant m.ld == .present) then queueEcc s m.tenant m.ld ecc else (false, s)
       sfReply r.2 h m (if r.1 then rkPOISON else rkOK) v
     | none => sfReply s h m rkUR 0)
  | .mWr =>
    endFlight (match hostWrite s m.tenant m.ld bar off m.len m.data with
     | some s => s
     | none => aerMsg s m.tenant 32 aerUR m) m
  | .atomic => sfReply s h m rkUR 0
  | _ => endFlight s m

/-- What hosts have sent to station 28 is served, in order; datagrams wait for DATAGRAM_RECEIVED.
[log 59, DESIGN CHOICE] -/
def sfServe (s : State) (h : Half) (ecc : CellEcc) : State :=
  (lget (s.core.get h).inbox 28).foldl (fun s n =>
    match s.msg n with
    | some m => if m.tgt.kind = 10 then s else sfAccess (inboxTake s h 28 n) h m ecc
    | none => inboxTake s h 28 n) s

/-- The other cells of a message that a descriptor's error discards leave their queues too, and a VOQ of which none is left in the
Deep Field or on its way there is no longer spilled (R134, R149).
[log 134, DEDUCED] -/
def eccSweep (s : State) (h : Half) (e : CellEcc) : State :=
  match e with
  | .descriptor _ _ => queuesDrop s h ((queuedIds (s.core.get h)).filter fun n => (s.msg n).isNone)
  | _ => s

/-- VOLLEY_DECISION (R146): the matcher of the slot runs; a request without a free tag waits (R107). SECDED finds `ecc` in
the cells it reads, and `queue` in the queue entries that hosts read at the Service Function (R359).
[log 59, DESIGN CHOICE; log 75, DESIGN CHOICE] -/
def execVolleyDecision (h : Half) (blocked : List Nat) (ecc queue : CellEcc) (s : State) : Host.Outcome State Fault Refusal :=
  let l := ((voqSubs s h) ++ (s.subs.filter fun e => e.2.waiting && decide (nodeHalf e.1 = h)).map fun e => e.1).dedup
  .next (sfServe (eccSweep (volley (l.foldl (fun s d => tagWaitCount s h d) s) h blocked ecc) h ecc) h queue)

end Sys2Proof.Machine
end

