-- ==== Sys2Proof/Machine/Dispatch.lean ====
section
/-! DEFINITION. The dispatch: one arm per command of the opcode table, each one direct call of its meaning. -/

namespace Sys2Proof.Machine

open Sys2Proof

def exec (i : Instr) (s : State) : Host.Outcome State Fault Refusal :=
  match i with
  | .lowWordRead m a => Sys2Proof.Machine.execLowWordRead m a s
  | .highWordWrite m a v => Sys2Proof.Machine.execHighWordWrite m a v s
  | .snapshotWrite m a v => Sys2Proof.Machine.execSnapshotWrite m a v s
  | .rcCounterRead m a coinc => Sys2Proof.Machine.execRcCounterRead m a coinc s
  | .registerWrite m a v => Sys2Proof.Machine.execRegisterWrite m a v s
  | .csStopTimeout m a wr => Sys2Proof.Machine.execCsStopTimeout m a wr s
  | .transitBoundary h x => Sys2Proof.Machine.execTransitBoundary h x s
  | .shutterSamplesReady h => Sys2Proof.Machine.execShutterSamplesReady h s
  | .tiropCutoff h => Sys2Proof.Machine.execTiropCutoff h s
  | .transitSeal h mismatch => Sys2Proof.Machine.execTransitSeal h mismatch s
  | .handlerBacklog h => Sys2Proof.Machine.execHandlerBacklog h s
  | .trpRunSet m h => Sys2Proof.Machine.execTrpRunSet m h s
  | .trpRunClear m h => Sys2Proof.Machine.execTrpRunClear m h s
  | .trpSelWrite m h sel => Sys2Proof.Machine.execTrpSelWrite m h sel s
  | .bankWrite m h b ix v => Sys2Proof.Machine.execBankWrite m h b ix v s
  | .swapRequest m h pair mode abort => Sys2Proof.Machine.execSwapRequest m h pair mode abort s
  | .swapAbort m h pair mode => Sys2Proof.Machine.execSwapAbort m h pair mode s
  | .msyncFrameSend h => Sys2Proof.Machine.execMsyncFrameSend h s
  | .msyncFrameReceived h tn crc arr => Sys2Proof.Machine.execMsyncFrameReceived h tn crc arr s
  | .msyncLoss h => Sys2Proof.Machine.execMsyncLoss h s
  | .portEnable m p v => Sys2Proof.Machine.execPortEnable m p v s
  | .portDisable m p v => Sys2Proof.Machine.execPortDisable m p v s
  | .linkTrained p k r => Sys2Proof.Machine.execLinkTrained p k r s
  | .partnerCoeffRequest p n rate cm1 c0 cp1 => Sys2Proof.Machine.execPartnerCoeffRequest p n rate cm1 c0 cp1 s
  | .l0pWidthWrite m p k w => Sys2Proof.Machine.execL0pWidthWrite m p k w s
  | .complianceWrite m p k on => Sys2Proof.Machine.execComplianceWrite m p k on s
  | .reeqWrite m p k => Sys2Proof.Machine.execReeqWrite m p k s
  | .retrainWrite m p k => Sys2Proof.Machine.execRetrainWrite m p k s
  | .subportDisableWrite m p k on => Sys2Proof.Machine.execSubportDisableWrite m p k on s
  | .heldLinkWriteApply p k => Sys2Proof.Machine.execHeldLinkWriteApply p k s
  | .partnerL0pRequest p k w => Sys2Proof.Machine.execPartnerL0pRequest p k w s
  | .l1Entry p k => Sys2Proof.Machine.execL1Entry p k s
  | .l1Exit p k => Sys2Proof.Machine.execL1Exit p k s
  | .laneFailed p n why => Sys2Proof.Machine.execLaneFailed p n why s
  | .laneClear m p v => Sys2Proof.Machine.execLaneClear m p v s
  | .changeRequestReissue p k => Sys2Proof.Machine.execChangeRequestReissue p k s
  | .referenceLost r => Sys2Proof.Machine.execReferenceLost r s
  | .eyeStart m p v => Sys2Proof.Machine.execEyeStart m p v s
  | .eyeAbort m p cnt err => Sys2Proof.Machine.execEyeAbort m p cnt err s
  | .eyeScanDone p err => Sys2Proof.Machine.execEyeScanDone p err s
  | .requestIngress p k r => Sys2Proof.Machine.execRequestIngress p k r s
  | .requestEgress p k cls ecc => Sys2Proof.Machine.execRequestEgress p k cls ecc s
  | .responseReceived p k r => Sys2Proof.Machine.execResponseReceived p k r s
  | .completionTimeout h => Sys2Proof.Machine.execCompletionTimeout h s
  | .quarantineExpiry h => Sys2Proof.Machine.execQuarantineExpiry h s
  | .flitReceived p k seq fec cred => Sys2Proof.Machine.execFlitReceived p k seq fec cred s
  | .flitAckReceived p k n nak => Sys2Proof.Machine.execFlitAckReceived p k n nak s
  | .ideKeyProgram p k stream skid key => Sys2Proof.Machine.execIdeKeyProgram p k stream skid key s
  | .ideCheckFailed p k stream => Sys2Proof.Machine.execIdeCheckFailed p k stream s
  | .devloadSample p k => Sys2Proof.Machine.execDevloadSample p k s
  | .cellArrival h st => Sys2Proof.Machine.execCellArrival h st s
  | .heldCellAdmit h st cls => Sys2Proof.Machine.execHeldCellAdmit h st cls s
  | .volleyDecision h blocked ecc queue => Sys2Proof.Machine.execVolleyDecision h blocked ecc queue s
  | .spillWrite h st => Sys2Proof.Machine.execSpillWrite h st s
  | .deepFieldReturn h k ecc => Sys2Proof.Machine.execDeepFieldReturn h k ecc s
  | .linkDown p k => Sys2Proof.Machine.execLinkDown p k s
  | .coreLockSet m h => Sys2Proof.Machine.execCoreLockSet m h s
  | .dfEnable m h => Sys2Proof.Machine.execDfEnable m h s
  | .bridgeFlitReceived h g flips => Sys2Proof.Machine.execBridgeFlitReceived h g flips s
  | .bridgeNakReceived h g => Sys2Proof.Machine.execBridgeNakReceived h g s
  | .wireFailed h g w lost => Sys2Proof.Machine.execWireFailed h g w lost s
  | .wireReturn m h g w => Sys2Proof.Machine.execWireReturn m h g w s
  | .dozeEnter h g => Sys2Proof.Machine.execDozeEnter h g s
  | .dozeExit h g => Sys2Proof.Machine.execDozeExit h g s
  | .bridgeDown => Sys2Proof.Machine.execBridgeDown s
  | .bridgeRetrained => Sys2Proof.Machine.execBridgeRetrained s
  | .splitDeclared => Sys2Proof.Machine.execSplitDeclared s
  | .crossingQuarantineExpiry h => Sys2Proof.Machine.execCrossingQuarantineExpiry h s
  | .rejoinRequest m h => Sys2Proof.Machine.execRejoinRequest m h s
  | .rejoinAutoAttempt h => Sys2Proof.Machine.execRejoinAutoAttempt h s
  | .rejoinTrained => Sys2Proof.Machine.execRejoinTrained s
  | .rejoinLockDone => Sys2Proof.Machine.execRejoinLockDone s
  | .rejoinReconciled => Sys2Proof.Machine.execRejoinReconciled s
  | .mirrorResyncDone h => Sys2Proof.Machine.execMirrorResyncDone h s
  | .bind h rs n => Sys2Proof.Machine.execBind h rs n s
  | .unbind h rs n => Sys2Proof.Machine.execUnbind h rs n s
  | .rowCancel m a => Sys2Proof.Machine.execRowCancel m a s
  | .hpWaitExpiry t v => Sys2Proof.Machine.execHpWaitExpiry t v s
  | .slotPower cci p on tk => Sys2Proof.Machine.execSlotPower cci p on tk s
  | .hostPowerControlWrite t v off tk => Sys2Proof.Machine.execHostPowerControlWrite t v off tk s
  | .presenceAccepted p here => Sys2Proof.Machine.execPresenceAccepted p here s
  | .perstRelease p => Sys2Proof.Machine.execPerstRelease p s
  | .surpriseRemoval p lost => Sys2Proof.Machine.execSurpriseRemoval p lost s
  | .hotResetReceived p k => Sys2Proof.Machine.execHotResetReceived p k s
  | .sbrUpstream t => Sys2Proof.Machine.execSbrUpstream t s
  | .tenantResetWrite m t v => Sys2Proof.Machine.execTenantResetWrite m t v s
  | .tenantResetEnd t => Sys2Proof.Machine.execTenantResetEnd t s
  | .sbrDownstream t v => Sys2Proof.Machine.execSbrDownstream t v s
  | .catalogueRequest h ecc => Sys2Proof.Machine.execCatalogueRequest h ecc s
  | .waitPoolResume h => Sys2Proof.Machine.execWaitPoolResume h s
  | .snoopResponseReceived h => Sys2Proof.Machine.execSnoopResponseReceived h s
  | .writeBackReceived h => Sys2Proof.Machine.execWriteBackReceived h s
  | .deviceWriteComplete h => Sys2Proof.Machine.execDeviceWriteComplete h s
  | .biconflictReceived h t k => Sys2Proof.Machine.execBiconflictReceived h t k s
  | .taintLift m h ix => Sys2Proof.Machine.execTaintLift m h ix s
  | .passStart h => Sys2Proof.Machine.execPassStart h s
  | .passEnd h => Sys2Proof.Machine.execPassEnd h s
  | .imageEnable m h => Sys2Proof.Machine.execImageEnable m h s
  | .imageCopyDone h => Sys2Proof.Machine.execImageCopyDone h s
  | .stackerLineReceived h q ecc => Sys2Proof.Machine.execStackerLineReceived h q ecc s
  | .partialReceived j k => Sys2Proof.Machine.execPartialReceived j k s
  | .chunkWritten j => Sys2Proof.Machine.execChunkWritten j s
  | .resultWriteRetry j => Sys2Proof.Machine.execResultWriteRetry j s
  | .jobTimeout j => Sys2Proof.Machine.execJobTimeout j s
  | .stackerEnable m h => Sys2Proof.Machine.execStackerEnable m h s
  | .stagedRuleWrite m n k v => Sys2Proof.Machine.execStagedRuleWrite m n k v s
  | .stagedPageCopyDone h => Sys2Proof.Machine.execStagedPageCopyDone h s
  | .umpireFaultLogClear m h => Sys2Proof.Machine.execUmpireFaultLogClear m h s
  | .ephemerisEntryStart p => Sys2Proof.Machine.execEphemerisEntryStart p s
  | .qosLockSet m h => Sys2Proof.Machine.execQosLockSet m h s
  | .rotationWindowStart h pc => Sys2Proof.Machine.execRotationWindowStart h pc s
  | .rotationGrant h pc waiting => Sys2Proof.Machine.execRotationGrant h pc waiting s
  | .rotationWatchdog h pc => Sys2Proof.Machine.execRotationWatchdog h pc s
  | .frontEndRestartDone h => Sys2Proof.Machine.execFrontEndRestartDone h s
  | .queueEnable t fn q v => Sys2Proof.Machine.execQueueEnable t fn q v s
  | .queueDisable t fn q v => Sys2Proof.Machine.execQueueDisable t fn q v s
  | .queueFlush t fn q v => Sys2Proof.Machine.execQueueFlush t fn q v s
  | .queueHeadWrite t fn q v => Sys2Proof.Machine.execQueueHeadWrite t fn q v s
  | .sqPush t fn off len data => Sys2Proof.Machine.execSqPush t fn off len data s
  | .descNop t fn ecc => Sys2Proof.Machine.execDescNop t fn ecc s
  | .descCopy t fn segs ecc => Sys2Proof.Machine.execDescCopy t fn segs ecc s
  | .copyComplete t fn => Sys2Proof.Machine.execCopyComplete t fn s
  | .descPass t fn ecc => Sys2Proof.Machine.execDescPass t fn ecc s
  | .datagramReceived h => Sys2Proof.Machine.execDatagramReceived h s
  | .sfPoolQuotaWrite m t v => Sys2Proof.Machine.execSfPoolQuotaWrite m t v s
  | .vfEnableWrite t en n => Sys2Proof.Machine.execVfEnableWrite t en n s
  | .vfFrozen t fn => Sys2Proof.Machine.execVfFrozen t fn s
  | .bmeClear t fn => Sys2Proof.Machine.execBmeClear t fn s
  | .flrStart t fn => Sys2Proof.Machine.execFlrStart t fn s
  | .flrTimeout t fn => Sys2Proof.Machine.execFlrTimeout t fn s
  | .flrComplete t fn => Sys2Proof.Machine.execFlrComplete t fn s
  | .migFreeze t vf n ticket => Sys2Proof.Machine.execMigFreeze t vf n ticket s
  | .migSave t vf => Sys2Proof.Machine.execMigSave t vf s
  | .saveHeaderWrite t => Sys2Proof.Machine.execSaveHeaderWrite t s
  | .migRestore t vf n ticket => Sys2Proof.Machine.execMigRestore t vf n ticket s
  | .restoreCheckDone t => Sys2Proof.Machine.execRestoreCheckDone t s
  | .migThaw t vf n ticket => Sys2Proof.Machine.execMigThaw t vf n ticket s
  | .migAbort t => Sys2Proof.Machine.execMigAbort t s
  | .shut h rs n => Sys2Proof.Machine.execShut h rs n s
  | .shutterConversion c x => Sys2Proof.Machine.execShutterConversion c x s
  | .fastTrip c => Sys2Proof.Machine.execFastTrip c s
  | .rampTimeout c => Sys2Proof.Machine.execRampTimeout c s
  | .gateFault c => Sys2Proof.Machine.execGateFault c s
  | .fetShort c => Sys2Proof.Machine.execFetShort c s
  | .stopGateOff c => Sys2Proof.Machine.execStopGateOff c s
  | .retryWaitExpiry c => Sys2Proof.Machine.execRetryWaitExpiry c s
  | .attemptReset c => Sys2Proof.Machine.execAttemptReset c s
  | .reverseTurnOff c feed => Sys2Proof.Machine.execReverseTurnOff c feed s
  | .feedBad c feed => Sys2Proof.Machine.execFeedBad c feed s
  | .feedGood c feed => Sys2Proof.Machine.execFeedGood c feed s
  | .auxSwitchover c good => Sys2Proof.Machine.execAuxSwitchover c good s
  | .auxReturn c => Sys2Proof.Machine.execAuxReturn c s
  | .auxFastTrip c => Sys2Proof.Machine.execAuxFastTrip c s
  | .energySnapshot m c => Sys2Proof.Machine.execEnergySnapshot m c s
  | .refereeEvent h e => Sys2Proof.Machine.execRefereeEvent h e s
  | .leakyCountLeak h => Sys2Proof.Machine.execLeakyCountLeak h s
  | .bankRetireDone h k ix => Sys2Proof.Machine.execBankRetireDone h k ix s
  | .pseudoChannelCopyDone h pc slots badSlots badWays => Sys2Proof.Machine.execPseudoChannelCopyDone h pc slots badSlots badWays s
  | .evqHeadWrite m h v => Sys2Proof.Machine.execEvqHeadWrite m h v s
  | .scorebookUnfreeze m h => Sys2Proof.Machine.execScorebookUnfreeze m h s
  | .softEventRaise m h v => Sys2Proof.Machine.execSoftEventRaise m h v s
  | .unfence m h v => Sys2Proof.Machine.execUnfence m h v s
  | .requalStart m h bank => Sys2Proof.Machine.execRequalStart m h bank s
  | .requalEnd h selfTest => Sys2Proof.Machine.execRequalEnd h selfTest s
  | .aliveToggle h => Sys2Proof.Machine.execAliveToggle h s
  | .ageingMeasure h slow => Sys2Proof.Machine.execAgeingMeasure h slow s
  | .plateLatch h => Sys2Proof.Machine.execPlateLatch h s
  | .plateHeaderWrite h => Sys2Proof.Machine.execPlateHeaderWrite h s
  | .bwWindowClose h => Sys2Proof.Machine.execBwWindowClose h s
  | .portPromote m p => Sys2Proof.Machine.execPortPromote m p s
  | .promoteRateChange p k => Sys2Proof.Machine.execPromoteRateChange p k s
  | .handoverRequest m h => Sys2Proof.Machine.execHandoverRequest m h s
  | .handoverDone => Sys2Proof.Machine.execHandoverDone s
  | .mctpMessage b typ code len eid => Sys2Proof.Machine.execMctpMessage b typ code len eid s
  | .nop h ecc => Sys2Proof.Machine.execNop h ecc s
  | .halt h => Sys2Proof.Machine.execHalt h s
  | .mov h rd rs => Sys2Proof.Machine.execMov h rd rs s
  | .movs h rd sel => Sys2Proof.Machine.execMovs h rd sel s
  | .movi h rd x => Sys2Proof.Machine.execMovi h rd x s
  | .add h rd rs rt => Sys2Proof.Machine.execAdd h rd rs rt s
  | .sub h rd rs rt => Sys2Proof.Machine.execSub h rd rs rt s
  | .tand h rd rs rt => Sys2Proof.Machine.execTand h rd rs rt s
  | .tor h rd rs rt => Sys2Proof.Machine.execTor h rd rs rt s
  | .txor h rd rs rt => Sys2Proof.Machine.execTxor h rd rs rt s
  | .shl h rd rs rt => Sys2Proof.Machine.execShl h rd rs rt s
  | .shr h rd rs rt => Sys2Proof.Machine.execShr h rd rs rt s
  | .sar h rd rs rt => Sys2Proof.Machine.execSar h rd rs rt s
  | .cmp h rs rt => Sys2Proof.Machine.execCmp h rs rt s
  | .tst h rs rt => Sys2Proof.Machine.execTst h rs rt s
  | .mul h rd rs rt => Sys2Proof.Machine.execMul h rd rs rt s
  | .addi h rd rs x => Sys2Proof.Machine.execAddi h rd rs x s
  | .subi h rd rs x => Sys2Proof.Machine.execSubi h rd rs x s
  | .andi h rd rs x => Sys2Proof.Machine.execAndi h rd rs x s
  | .ori h rd rs x => Sys2Proof.Machine.execOri h rd rs x s
  | .xori h rd rs x => Sys2Proof.Machine.execXori h rd rs x s
  | .shli h rd rs n => Sys2Proof.Machine.execShli h rd rs n s
  | .shri h rd rs n => Sys2Proof.Machine.execShri h rd rs n s
  | .sari h rd rs n => Sys2Proof.Machine.execSari h rd rs n s
  | .cmpi h rs x => Sys2Proof.Machine.execCmpi h rs x s
  | .tsti h rs x => Sys2Proof.Machine.execTsti h rs x s
  | .bfx h rd rs pos len1 => Sys2Proof.Machine.execBfx h rd rs pos len1 s
  | .bfi h rd rs pos len1 => Sys2Proof.Machine.execBfi h rd rs pos len1 s
  | .ldCs h rd rs nobase d x late => Sys2Proof.Machine.execLdCs h rd rs nobase d x late s
  | .ldScratch h rd rs nobase d off ecc => Sys2Proof.Machine.execLdScratch h rd rs nobase d off ecc s
  | .stCs h rd rs nobase d x => Sys2Proof.Machine.execStCs h rd rs nobase d x s
  | .stScratch h rd rs nobase d off => Sys2Proof.Machine.execStScratch h rd rs nobase d off s
  | .smp h rd rs k => Sys2Proof.Machine.execSmp h rd rs k s
  | .branch h cond off => Sys2Proof.Machine.execBranch h cond off s
  | .loop h len count => Sys2Proof.Machine.execLoop h len count s
  | .endl h => Sys2Proof.Machine.execEndl h s
  | .refill h rs n => Sys2Proof.Machine.execRefill h rs n s
  | .fence h rs => Sys2Proof.Machine.execFence h rs s
  | .plate h tag => Sys2Proof.Machine.execPlate h tag s
  | .scan h rd rs n => Sys2Proof.Machine.execScan h rd rs n s
  | .arm h rs n => Sys2Proof.Machine.execArm h rs n s
  | .send h rs n => Sys2Proof.Machine.execSend h rs n s
  | .alarmFire h a => Sys2Proof.Machine.execAlarmFire h a s
  | .oboxHeadWrite m h v => Sys2Proof.Machine.execOboxHeadWrite m h v s
  | .referenceRestored r => Sys2Proof.Machine.execReferenceRestored r s
  | .linkRecovery p k why => Sys2Proof.Machine.execLinkRecovery p k why s
  | .l0pWidthChanged p k => Sys2Proof.Machine.execL0pWidthChanged p k s
  | .wireRemapDone h g => Sys2Proof.Machine.execWireRemapDone h g s
  | .auxiliaryFeedGood c feed => Sys2Proof.Machine.execAuxiliaryFeedGood c feed s
  | .shutterLinkLost h => Sys2Proof.Machine.execShutterLinkLost h s
  | .shutterLinkRestored h => Sys2Proof.Machine.execShutterLinkRestored h s
  | .loopbackRefused p k => Sys2Proof.Machine.execLoopbackRefused p k s
  | .bothReferencesLost => Sys2Proof.Machine.execBothReferencesLost s
  | .fmIdentify cci => Sys2Proof.Machine.execFmIdentify cci s
  | .fmBackgroundOperationStatus cci => Sys2Proof.Machine.execFmBackgroundOperationStatus cci s
  | .fmGetResponseMessageLimit cci => Sys2Proof.Machine.execFmGetResponseMessageLimit cci s
  | .fmSetResponseMessageLimit cci n => Sys2Proof.Machine.execFmSetResponseMessageLimit cci n s
  | .fmRequestAbortBackgroundOp cci => Sys2Proof.Machine.execFmRequestAbortBackgroundOp cci s
  | .fmGetEventRecords cci => Sys2Proof.Machine.execFmGetEventRecords cci s
  | .fmClearEventRecords cci all n => Sys2Proof.Machine.execFmClearEventRecords cci all n s
  | .fmGetEventInterruptPolicy cci => Sys2Proof.Machine.execFmGetEventInterruptPolicy cci s
  | .fmSetEventInterruptPolicy cci w => Sys2Proof.Machine.execFmSetEventInterruptPolicy cci w s
  | .fmIdentifySwitchDevice cci => Sys2Proof.Machine.execFmIdentifySwitchDevice cci s
  | .fmGetPhysicalPortState cci ps => Sys2Proof.Machine.execFmGetPhysicalPortState cci ps s
  | .ppcAssertPerst cci p => Sys2Proof.Machine.execPpcAssertPerst cci p s
  | .ppcDeassertPerst cci p => Sys2Proof.Machine.execPpcDeassertPerst cci p s
  | .ppcResetPpb cci p k => Sys2Proof.Machine.execPpcResetPpb cci p k s
  | .fmSendPpbConfigRequest cci p k wr off data => Sys2Proof.Machine.execFmSendPpbConfigRequest cci p k wr off data s
  | .fmGetVcsInfo cci t => Sys2Proof.Machine.execFmGetVcsInfo cci t s
  | .bindVppb cci t v p k ld n tk => Sys2Proof.Machine.execBindVppb cci t v p k ld n tk s
  | .unbindVppbWaitLinkDown cci t v n tk => Sys2Proof.Machine.execUnbindVppbWaitLinkDown cci t v n tk s
  | .unbindVppbManaged cci t v n tk => Sys2Proof.Machine.execUnbindVppbManaged cci t v n tk s
  | .unbindVppbSurprise cci t v n tk => Sys2Proof.Machine.execUnbindVppbSurprise cci t v n tk s
  | .fmGenerateAerEvent cci t v kind => Sys2Proof.Machine.execFmGenerateAerEvent cci t v kind s
  | .fmTunnelManagementCommand cci p k payload => Sys2Proof.Machine.execFmTunnelManagementCommand cci p k payload s
  | .fmSendLdConfigRequest cci p k ld payload => Sys2Proof.Machine.execFmSendLdConfigRequest cci p k ld payload s
  | .fmSendLdMemoryRequest cci p k ld payload => Sys2Proof.Machine.execFmSendLdMemoryRequest cci p k ld payload s
  | .fmTunnelledCommand cci code p k payload => Sys2Proof.Machine.execFmTunnelledCommand cci code p k payload s
  | .initiateDynamicCapacityAdd cci t p k ld base len share n tk => Sys2Proof.Machine.execInitiateDynamicCapacityAdd cci t p k ld base len share n tk s
  | .initiateDynamicCapacityRelease cci done t p k ld base len n tk => Sys2Proof.Machine.execInitiateDynamicCapacityRelease cci done t p k ld base len n tk s
  | .fmPbrCommand cci code mandatory tbl idx v => Sys2Proof.Machine.execFmPbrCommand cci code mandatory tbl idx v s
  | .fmUnsupportedCommand cci code => Sys2Proof.Machine.execFmUnsupportedCommand cci code s
  | .getBindingState cci t => Sys2Proof.Machine.execGetBindingState cci t s
  | .stageBindingRows cci t rows tk at_ => Sys2Proof.Machine.execStageBindingRows cci t rows tk at_ s
  | .getSlotState cci p => Sys2Proof.Machine.execGetSlotState cci p s
  | .tenantResetCommand cci t => Sys2Proof.Machine.execTenantResetCommand cci t s
  | .getTenantState cci t => Sys2Proof.Machine.execGetTenantState cci t s
  | .setSwitchCciTenant cci t on => Sys2Proof.Machine.execSetSwitchCciTenant cci t on s
  | .fmCciWrite m t v => Sys2Proof.Machine.execFmCciWrite m t v s
  | .alertPulseEnd => Sys2Proof.Machine.execAlertPulseEnd s
  | .alertResume m => Sys2Proof.Machine.execAlertResume m s
  | .alertModeWrite m mode => Sys2Proof.Machine.execAlertModeWrite m mode s
  | .lifeCountUpdate => Sys2Proof.Machine.execLifeCountUpdate s
  | .domePowerUp => Sys2Proof.Machine.execDomePowerUp s
  | .domeStart => Sys2Proof.Machine.execDomeStart s
  | .strapSample prim boot auto_ finder i3c => Sys2Proof.Machine.execStrapSample prim boot auto_ finder i3c s
  | .porReset => Sys2Proof.Machine.execPorReset s
  | .coldReset m => Sys2Proof.Machine.execColdReset m s
  | .warmReset m => Sys2Proof.Machine.execWarmReset m s
  | .railGo m => Sys2Proof.Machine.execRailGo m s
  | .railDownWrite m => Sys2Proof.Machine.execRailDownWrite m s
  | .railEnableNext n => Sys2Proof.Machine.execRailEnableNext n s
  | .railPgTimeout n => Sys2Proof.Machine.execRailPgTimeout n s
  | .railRetry => Sys2Proof.Machine.execRailRetry s
  | .pwrGoodFall n => Sys2Proof.Machine.execPwrGoodFall n s
  | .standbyLow => Sys2Proof.Machine.execStandbyLow s
  | .domeStop => Sys2Proof.Machine.execDomeStop s
  | .domeI3cAccess a w => Sys2Proof.Machine.execDomeI3cAccess a w s
  | .halvesRelease => Sys2Proof.Machine.execHalvesRelease s
  | .bootImageCheck ra rb va vb => Sys2Proof.Machine.execBootImageCheck ra rb va vb s
  | .uartImageLoad r v => Sys2Proof.Machine.execUartImageLoad r v s
  | .finderRequest m => Sys2Proof.Machine.execFinderRequest m s
  | .hbmTrainingDone h ok => Sys2Proof.Machine.execHbmTrainingDone h ok s
  | .trimRequest m => Sys2Proof.Machine.execTrimRequest m s
  | .obsWatchdogKick m h => Sys2Proof.Machine.execObsWatchdogKick m h s
  | .obsWatchdogExpiry h => Sys2Proof.Machine.execObsWatchdogExpiry h s
  | .clusterRestartDone h => Sys2Proof.Machine.execClusterRestartDone h s
  | .journalRebuildDone => Sys2Proof.Machine.execJournalRebuildDone s
  | .spdmMessage pl q => Sys2Proof.Machine.execSpdmMessage pl q s
  | .getFwInfo cci => Sys2Proof.Machine.execGetFwInfo cci s
  | .transferFw cci slot off len last v => Sys2Proof.Machine.execTransferFw cci slot off len last v s
  | .activateFw cci slot online r v compat => Sys2Proof.Machine.execActivateFw cci slot online r v compat s
  | .commitSecurityVersion cci v => Sys2Proof.Machine.execCommitSecurityVersion cci v s
  | .dbgNonceRead m => Sys2Proof.Machine.execDbgNonceRead m s
  | .dbgAuthSignature good => Sys2Proof.Machine.execDbgAuthSignature good s
  | .dbgDeauth m => Sys2Proof.Machine.execDbgDeauth m s
  | .jtagIdcode => Sys2Proof.Machine.execJtagIdcode s
  | .jtagBypass => Sys2Proof.Machine.execJtagBypass s
  | .jtagSamplePreload balls cells => Sys2Proof.Machine.execJtagSamplePreload balls cells s
  | .jtagExtest => Sys2Proof.Machine.execJtagExtest s
  | .jtagClamp => Sys2Proof.Machine.execJtagClamp s
  | .jtagHighz => Sys2Proof.Machine.execJtagHighz s
  | .dbgCoreControl h c op => Sys2Proof.Machine.execDbgCoreControl h c op s
  | .freeze => Sys2Proof.Machine.execFreeze s
  | .freezeScan => Sys2Proof.Machine.execFreezeScan s

end Sys2Proof.Machine
end

