-- ==== Sys2Proof/Machine/Tick.lean ====
section
/-! DEFINITION. What passes in one MRD_x clock when no command waits: the Meridian moves on (R29), and LEVEL counters count the
states that hold (R435). -/

namespace Sys2Proof.Machine

open Sys2Proof

/-- CORE_x clocks in one MRD_x clock: 2.0 GHz and 500 MHz.
[log 43, DESIGN CHOICE] -/
def coreClocks : Nat := 4

/-- The Meridian of a half has reached its next boundary, which waits for its command.
[log 1, DESIGN CHOICE] -/
def merDue (s : State) (h : Half) : Bool :=
  let r := s.mrd.get h
  r.hold == 0 && decide ((((s.tn h + 1) * 1000 * nsU : Nat) : Int) ≤ (s.mer h : Int) + max 0 (merInc r))

/-- Does a countable state hold (R436)?
[log 43, DESIGN CHOICE] -/
def stateHolds (s : State) (h : Half) (unit event inst : Nat) : Bool :=
  match unit, event with
  | 1, 3 => (mfind (s.core.get h).held inst).any fun l => !l.isEmpty
  | 2, 4 => inst == 0 && s.flag (CORE_STAT h) CORE_STAT_DF_FULL
  | 3, 5 => winWaits s h inst
  | 6, 1 => (s.qos.get h).arbs.any fun e => e.2.waiting.contains inst
  | 7, 4 => decide (inst < 64) && linkPm s (64 * h.idx + inst) == pmL0P
  | _, _ => false

/-- The LEVEL counters of a half over one MRD_x clock (R435).
[log 43, DESIGN CHOICE] -/
def levelTick (s : State) (h : Half) : State :=
  (s.phm.get h).sel.foldl (fun s e =>
    if bitB (s.phm.get h).grp (e.1 / 16) && selMode e.2 == 2 && stateHolds s h (selUnit e.2) (selEvent e.2) (selInst e.2)
    then phmAdd s h e.1 coreClocks else s) s

/-- One MRD_x clock of a half.
[log 1, DESIGN CHOICE] -/
def clockTick (s : State) (h : Half) : State := if merDue s h then s else levelTick (merTick s h) h

/-- One MRD_x clock with no command waiting. The halves' clocks run from their release on (R31), until a freeze (R493); rails on their way down go on (R456).
[log 1, DESIGN CHOICE; log 13, DESIGN CHOICE] -/
def idleTick (s : State) : State :=
  let s := railsStep s
  if halvesRun s then clockTick (clockTick s .east) .west else s

end Sys2Proof.Machine
end

