-- ==== Sys2Proof/Safety.lean ====
section
/-! DEFINITION. What statements about runs are made of: commands that complete, what a command leaves as it was, and a Tirop
instruction about to run. -/

namespace Sys2Proof.Machine

open Sys2Proof

/-- A command completes: it answers a next state, and neither a fault nor a refusal. -/
def completes (o : Host.Outcome State Fault Refusal) : Prop := ∃ t, o = .next t

/-- The register table is in its canonical form (R8): equal contents are equal data. -/
def regsCanon (s : State) : Prop := canon resetWord s.regs = true

/-- Only the registers, and no register but those of a list, differ between two states. -/
def onlyRegs (l : List Nat) (s t : State) : Prop := t = { s with regs := t.regs } ∧ ∀ a, a ∉ l → t.rd a = s.rd a

/-- A word with one field replaced: field f holds n modulo its width, and every bit outside f is as it was. -/
def fieldSet (old new : Word) (f : Fld) (n : Nat) : Prop :=
  fldGet new f = n % 2 ^ f.width ∧ ∀ i, i < 32 → (i < f.lo ∨ f.lo + f.width ≤ i) → new.getLsbD i = old.getLsbD i

/-- One field of one register changes, and nothing else in the machine. -/
def onlyField (s t : State) (a : Nat) (f : Fld) (n : Nat) : Prop := onlyRegs [a] s t ∧ fieldSet (s.rd a) (t.rd a) f n

/-- A held output that is a store to the scratch a program may write (R42, R54). -/
def scrOnly : TOut → Bool
  | .scr i _ => decide (i < 2016)
  | _ => false

/-- Does field f hold bit i of its register? -/
def fldHas (f : Fld) (i : Nat) : Prop := f.lo ≤ i ∧ i < f.lo + f.width

/-- A bit of a field after a write (R6), by the field's access type: `opn`, an RWL field is not locked; `o` the bit before, `n` the
bit written. -/
def bitTaken (opn : Bool) (acc : Acc) (o n : Bool) : Bool :=
  match acc with
  | .rw => n
  | .rw1c => o && !n
  | .rw1s => o || n
  | .rwl => if opn then n else o
  | .ro => o
  | .wo => o
  | .rc => o

/-- A register has taken a written word, bit by bit, by the access type of the one field that holds the bit; a bit of no field
reads 0 (R6, R9). -/
def wordTaken (opn : Bool) (d : RegDesc) (old v new : Word) : Prop :=
  ∀ i, i < 32 →
    (∀ f ∈ d.flds, fldHas f i → (∀ g ∈ d.flds, g ≠ f → ¬ fldHas g i) →
      new.getLsbD i = bitTaken opn f.acc (old.getLsbD i) (v.getLsbD i))
    ∧ ((∀ f ∈ d.flds, ¬ fldHas f i) → new.getLsbD i = false)

/-- A register of the switch core, the Catalogue, the Stacker, the classes, a tenant, the Shutter or the Photometer that takes a
write by its access types alone: no rule of its block says more of it, it is no word 2 of a staged row and no word of a live table
(R62). -/
def plainReg (a : Nat) (d : RegDesc) : Bool :=
  !liveTable a && decide (rowStatus ∉ d.flds)
    && ((decide (0x02000000 ≤ a) && decide (a < 0x08000000)
          && !([CORE_CTL .east, CORE_CTL .west, CORE_POOL .east, CORE_POOL .west, CAT_CTL .east, CAT_CTL .west,
            STK_CTL .east, STK_CTL .west].contains a)
          && !(decide (CAT_TAINT .east 0 ≤ a) && decide (a ≤ CAT_TAINT .east 15))
          && !(decide (CAT_TAINT .west 0 ≤ a) && decide (a ≤ CAT_TAINT .west 15)))
        || (decide (0x09000000 ≤ a) && decide (a < 0x0A000000) && decide (a % 0x800000 < 0x10 ∨ 0x20 ≤ a % 0x800000))
        || (decide (0x0A000000 ≤ a) && decide (a < 0x0A400000) && !([0, 8, 0x4000].contains (a % 0x10000)))
        || (decide (0x0C000000 ≤ a) && decide (a < 0x0D000000) && decide (0x28 < a % 0x1000) && a % 0x1000 != 0x80)
        || (decide (0x0D000000 ≤ a) && decide (a < 0x0E000000) && !([PHM_GRP .east, PHM_GRP .west].contains a)))

/-- A master may act on the register at a: the Umpire does not deny it DBG, and the bridge does not cut it off (R27, R302). -/
def mayAct (s : State) (m : Master) (a : Nat) : Prop := m ≠ .dap ∧ reaches s (s.masterHalf m) a = true

/-- A register that reporting an event may change: the Referee's own, and those that R409-R427 name outside its block. -/
def refReg (a : Nat) : Bool :=
  (decide (0x0E000000 ≤ a) && decide (a < 0x0F000000))
    || [MRD_ALERT_CTL, TRP_STAT .east, TRP_STAT .west, TRP_DEFER .east, TRP_DEFER .west, TRP_SWAP_STAT .east,
        TRP_SWAP_STAT .west, QOS_ROT_STAT .east, QOS_ROT_STAT .west, CORE_STAT .east, CORE_STAT .west].contains a

/-- The bits of a register that Viral changes: the VIRAL bit of a tenant's SF_TEN_STAT (R414). -/
def viralBits (a : Nat) : Word := if 0x0A000000 ≤ a ∧ a < 0x0A400000 ∧ a % 0x10000 = 4 then 4 else 0

/-- t is u but for what reporting events changes: the Referee's registers and records, the handler lists and the pair of a half
that enters control hold, ALERT_L, Viral and what is sent to hosts (R409-R427). -/
def refOnly (u t : State) : Prop :=
  (∀ a, refReg a = false → t.rd a ||| viralBits a = u.rd a ||| viralBits a)
    ∧ t = { u with regs := t.regs, trp := t.trp, ref := t.ref, alert := t.alert, viral := t.viral, sent := t.sent }
    ∧ ∀ h, t.trp.get h = { u.trp.get h with
        phase := (t.trp.get h).phase, held := (t.trp.get h).held, hlist := (t.trp.get h).hlist,
        arrivals := (t.trp.get h).arrivals, dispatched := (t.trp.get h).dispatched }

/-- t is u but for what counting in the Photometer changes (R434-R438): counters, their wraps, and the events a wrap raises. -/
def countOnly (u t : State) : Prop :=
  (∀ a, refReg a = false → a < 0x0D000000 ∨ 0x0E000000 ≤ a →
      t.rd a ||| viralBits a = u.rd a ||| viralBits a)
    ∧ refOnly { u with regs := t.regs } t

/-- The pair of half h is about to run instruction i, which takes `cost` cycles and ends before cycle 960 (R49, R497, R498).
[log 20, DESIGN CHOICE] -/
def atInstr (s : State) (h : Half) (i : Instr) (cost : Nat) : Prop :=
  running (s.trp.get h) = true ∧ fetchTirop s h = some i.clean ∧ (s.trp.get h).bc < 960 ∧ (s.trp.get h).bc + cost ≤ 960

/-- How many words an immediate takes with its instruction (R500). -/
def immWords : Imm → Nat
  | .short _ => 1
  | .x _ => 2

/-- A pair that has run an instruction: the cycles it took and the words it filled (R497, R498). -/
def Trp.ran1 (t : Trp) (cost len : Nat) : Trp := { t with bc := t.bc + cost, pc := t.pc + len }

/-- The flags C and V, with Z and N of the result (R503). -/
def Trp.flags (t : Trp) (r : BitVec 64) (c v : Bool) : Trp :=
  { t with zf := decide (r = 0), nf := r.getLsbD 63, cf := c, vf := v }

/-- The machine with the pair of half h become t: nothing else differs. -/
def pairNext (s : State) (h : Half) (t : Trp) : Host.Outcome State Fault Refusal := .next { s with trp := s.trp.set h t }

/-- An invariant of the pair: while it runs, BC has not passed 960, at most two loops are active, and the held outputs keep the
limits of R56. -/
def pairInv (t : Trp) : Prop := running t = true → t.bc ≤ 960 ∧ t.loops.length ≤ 2 ∧ limitsOk t.held = true

end Sys2Proof.Machine
end

