-- ==== Sys2Proof/WellFormed.lean ====
section
/-! DEFINITION. Which commands are well formed: an operand that names one of a number of things is below that number, and a Tirop
instruction is one that R500-R513 allow. -/

namespace Sys2Proof

/-- A CS master that exists (R11, R472): an Observer core 0-3 of a half, a function 0-255 of a tenant.
[log 118, DESIGN CHOICE] -/
def Master.wf : Master → Bool
  | .obs _ c => decide (c < 4)
  | .tirop _ => true
  | .dap => true
  | .mctp => true
  | .dome => true
  | .host t f => decide (t < 64) && decide (f < 256)

/-- Commands with an operand that can be out of range. The other commands are listed last.
[log 112, DESIGN CHOICE] -/
def Instr.wf : Instr → Bool
  | .lowWordRead m a => m.wf && decide (a < 2 ^ 64)
  | .highWordWrite m a _ => m.wf && decide (a < 2 ^ 64)
  | .snapshotWrite m a _ => m.wf && decide (a < 2 ^ 64)
  | .rcCounterRead m a _ => m.wf && decide (a < 2 ^ 64)
  | .registerWrite m a _ => m.wf && decide (a < 2 ^ 64)
  | .csStopTimeout m a _ => m.wf && decide (a < 2 ^ 64)
  | .trpRunSet m _ => m.wf
  | .trpRunClear m _ => m.wf
  | .trpSelWrite m _ _ => m.wf
  | .bankWrite m _ _ _ _ => m.wf
  | .swapRequest m _ _ _ _ => m.wf
  | .swapAbort m _ _ _ => m.wf
  | .portEnable m _ _ => m.wf
  | .portDisable m _ _ => m.wf
  | .l0pWidthWrite m _ _ _ => m.wf
  | .complianceWrite m _ _ _ => m.wf
  | .reeqWrite m _ _ => m.wf
  | .retrainWrite m _ _ => m.wf
  | .subportDisableWrite m _ _ _ => m.wf
  | .laneClear m _ _ => m.wf
  | .eyeStart m _ _ => m.wf
  | .eyeAbort m _ _ _ => m.wf
  | .requestEgress _ _ cls _ => decide (cls < 9)
  | .cellArrival _ st => decide (st < 32)
  | .heldCellAdmit _ st cls => decide (st < 32) && decide (cls < 9)
  | .spillWrite _ st => decide (st < 32)
  | .coreLockSet m _ => m.wf
  | .dfEnable m _ => m.wf
  | .wireFailed _ _ w _ => decide (w < 66)
  | .wireReturn m _ _ _ => m.wf
  | .rejoinRequest m _ => m.wf
  | .rowCancel m a => m.wf && decide (a < 2 ^ 32) && a % 32 == 0
  | .slotPower cci _ _ _ => decide (cci < 68)
  | .tenantResetWrite m _ _ => m.wf
  | .biconflictReceived _ t _ => decide (t < 64)
  | .taintLift m _ _ => m.wf
  | .imageEnable m _ => m.wf
  | .stackerEnable m _ => m.wf
  | .stagedRuleWrite m _ _ _ => m.wf
  | .umpireFaultLogClear m _ => m.wf
  | .qosLockSet m _ => m.wf
  | .rotationGrant _ _ waiting => waiting.all fun r => decide (r < 7)
  | .sqPush _ _ _ len _ => decide (1 ≤ len) && decide (len ≤ 64)
  | .sfPoolQuotaWrite m _ _ => m.wf
  | .energySnapshot m _ => m.wf
  | .refereeEvent _ e => decide (e.cls < 32) && decide (1 ≤ e.count)
  | .bankRetireDone _ k _ => decide (1 ≤ k) && decide (k ≤ 4)
  | .pseudoChannelCopyDone _ pc _ _ _ => decide (pc < 32)
  | .evqHeadWrite m _ _ => m.wf
  | .scorebookUnfreeze m _ => m.wf
  | .softEventRaise m _ _ => m.wf
  | .unfence m _ _ => m.wf
  | .requalStart m _ _ => m.wf
  | .portPromote m _ => m.wf
  | .handoverRequest m _ => m.wf
  | .mctpMessage _ _ _ len _ => decide (len ≤ 65536)
  | .bfx _ _ _ pos len1 => decide (pos.toNat + len1.toNat + 1 ≤ 64)
  | .bfi _ _ _ pos len1 => decide (pos.toNat + len1.toNat + 1 ≤ 64)
  | .branch _ cond _ => cond != 15
  | .send _ rs n => decide (1 ≤ n.toNat) && decide (n.toNat ≤ 6) && decide (rs.toNat + n.toNat ≤ 16)
  | .oboxHeadWrite m _ _ => m.wf
  | .fmIdentify cci => decide (cci < 68)
  | .fmBackgroundOperationStatus cci => decide (cci < 68)
  | .fmGetResponseMessageLimit cci => decide (cci < 68)
  | .fmSetResponseMessageLimit cci _ => decide (cci < 68)
  | .fmRequestAbortBackgroundOp cci => decide (cci < 68)
  | .fmGetEventRecords cci => decide (cci < 68)
  | .fmClearEventRecords cci _ _ => decide (cci < 68)
  | .fmGetEventInterruptPolicy cci => decide (cci < 68)
  | .fmSetEventInterruptPolicy cci _ => decide (cci < 68)
  | .fmIdentifySwitchDevice cci => decide (cci < 68)
  | .fmGetPhysicalPortState cci _ => decide (cci < 68)
  | .ppcAssertPerst cci _ => decide (cci < 68)
  | .ppcDeassertPerst cci _ => decide (cci < 68)
  | .ppcResetPpb cci _ _ => decide (cci < 68)
  | .fmSendPpbConfigRequest cci _ _ _ _ _ => decide (cci < 68)
  | .fmGetVcsInfo cci _ => decide (cci < 68)
  | .bindVppb cci _ _ _ _ _ _ _ => decide (cci < 68)
  | .unbindVppbWaitLinkDown cci _ _ _ _ => decide (cci < 68)
  | .unbindVppbManaged cci _ _ _ _ => decide (cci < 68)
  | .unbindVppbSurprise cci _ _ _ _ => decide (cci < 68)
  | .fmGenerateAerEvent cci _ _ _ => decide (cci < 68)
  | .fmTunnelManagementCommand cci _ _ _ => decide (cci < 68)
  | .fmSendLdConfigRequest cci _ _ _ _ => decide (cci < 68)
  | .fmSendLdMemoryRequest cci _ _ _ _ => decide (cci < 68)
  | .fmTunnelledCommand cci _ _ _ _ => decide (cci < 68)
  | .initiateDynamicCapacityAdd cci _ _ _ _ _ _ _ _ _ => decide (cci < 68)
  | .initiateDynamicCapacityRelease cci _ _ _ _ _ _ _ _ _ => decide (cci < 68)
  | .fmPbrCommand cci _ _ _ _ _ => decide (cci < 68)
  | .fmUnsupportedCommand cci _ => decide (cci < 68)
  | .getBindingState cci _ => decide (cci < 68)
  | .stageBindingRows cci _ rows _ _ => decide (cci < 68) && rows.all fun r => r.2.length == 8
  | .getSlotState cci _ => decide (cci < 68)
  | .tenantResetCommand cci _ => decide (cci < 68)
  | .getTenantState cci _ => decide (cci < 68)
  | .setSwitchCciTenant cci _ _ => decide (cci < 68)
  | .fmCciWrite m _ _ => m.wf
  | .alertResume m => m.wf
  | .alertModeWrite m _ => m.wf
  | .coldReset m => m.wf
  | .warmReset m => m.wf
  | .railGo m => m.wf
  | .railDownWrite m => m.wf
  | .domeI3cAccess a _ => decide (a < 2 ^ 32)
  | .finderRequest m => m.wf
  | .trimRequest m => m.wf
  | .obsWatchdogKick m _ => m.wf
  | .getFwInfo cci => decide (cci < 68)
  | .transferFw cci slot _ _ _ _ => decide (cci < 68) && decide (slot < 256)
  | .activateFw cci slot _ _ _ _ => decide (cci < 68) && decide (slot < 256)
  | .commitSecurityVersion cci _ => decide (cci < 68)
  | .dbgNonceRead m => m.wf
  | .dbgDeauth m => m.wf
  | .transitBoundary _ _ | .shutterSamplesReady _ | .tiropCutoff _ | .transitSeal _ _ | .handlerBacklog _
  | .msyncFrameSend _ | .msyncFrameReceived _ _ _ _ | .msyncLoss _ | .linkTrained _ _ _ | .partnerCoeffRequest _ _ _ _ _ _
  | .heldLinkWriteApply _ _ | .partnerL0pRequest _ _ _ | .l1Entry _ _ | .l1Exit _ _ | .laneFailed _ _ _
  | .changeRequestReissue _ _ | .referenceLost _ | .eyeScanDone _ _ | .requestIngress _ _ _ | .responseReceived _ _ _
  | .completionTimeout _ | .quarantineExpiry _ | .flitReceived _ _ _ _ _ | .flitAckReceived _ _ _ _
  | .ideKeyProgram _ _ _ _ _ | .ideCheckFailed _ _ _ | .devloadSample _ _ | .volleyDecision _ _ _ _
  | .deepFieldReturn _ _ _ | .linkDown _ _ | .bridgeFlitReceived _ _ _ | .bridgeNakReceived _ _ | .dozeEnter _ _
  | .dozeExit _ _ | .bridgeDown | .bridgeRetrained | .splitDeclared | .crossingQuarantineExpiry _ | .rejoinAutoAttempt _
  | .rejoinTrained | .rejoinLockDone | .rejoinReconciled | .mirrorResyncDone _ | .bind _ _ _ | .unbind _ _ _
  | .hpWaitExpiry _ _ | .hostPowerControlWrite _ _ _ _ | .presenceAccepted _ _ | .perstRelease _ | .surpriseRemoval _ _
  | .hotResetReceived _ _ | .sbrUpstream _ | .tenantResetEnd _ | .sbrDownstream _ _ | .catalogueRequest _ _
  | .waitPoolResume _ | .snoopResponseReceived _ | .writeBackReceived _ | .deviceWriteComplete _ | .passStart _
  | .passEnd _ | .imageCopyDone _ | .stackerLineReceived _ _ _ | .partialReceived _ _ | .chunkWritten _
  | .resultWriteRetry _ | .jobTimeout _ | .stagedPageCopyDone _ | .ephemerisEntryStart _ | .rotationWindowStart _ _
  | .rotationWatchdog _ _ | .frontEndRestartDone _ | .queueEnable _ _ _ _ | .queueDisable _ _ _ _ | .queueFlush _ _ _ _
  | .queueHeadWrite _ _ _ _ | .descNop _ _ _ | .descCopy _ _ _ _ | .copyComplete _ _ | .descPass _ _ _
  | .datagramReceived _ | .vfEnableWrite _ _ _ | .vfFrozen _ _ | .bmeClear _ _ | .flrStart _ _ | .flrTimeout _ _
  | .flrComplete _ _ | .migFreeze _ _ _ _ | .migSave _ _ | .saveHeaderWrite _ | .migRestore _ _ _ _ | .restoreCheckDone _
  | .migThaw _ _ _ _ | .migAbort _ | .shut _ _ _ | .shutterConversion _ _ | .fastTrip _ | .rampTimeout _ | .gateFault _
  | .fetShort _ | .stopGateOff _ | .retryWaitExpiry _ | .attemptReset _ | .reverseTurnOff _ _ | .feedBad _ _
  | .feedGood _ _ | .auxSwitchover _ _ | .auxReturn _ | .auxFastTrip _ | .leakyCountLeak _ | .requalEnd _ _
  | .aliveToggle _ | .ageingMeasure _ _ | .plateLatch _ | .plateHeaderWrite _ | .bwWindowClose _ | .promoteRateChange _ _
  | .handoverDone | .nop _ _ | .halt _ | .mov _ _ _ | .movs _ _ _ | .movi _ _ _ | .add _ _ _ _ | .sub _ _ _ _
  | .tand _ _ _ _ | .tor _ _ _ _ | .txor _ _ _ _ | .shl _ _ _ _ | .shr _ _ _ _ | .sar _ _ _ _ | .cmp _ _ _ | .tst _ _ _
  | .mul _ _ _ _ | .addi _ _ _ _ | .subi _ _ _ _ | .andi _ _ _ _ | .ori _ _ _ _ | .xori _ _ _ _ | .shli _ _ _ _
  | .shri _ _ _ _ | .sari _ _ _ _ | .cmpi _ _ _ | .tsti _ _ _ | .ldCs _ _ _ _ _ _ _ | .ldScratch _ _ _ _ _ _ _
  | .stCs _ _ _ _ _ _ | .stScratch _ _ _ _ _ _ | .smp _ _ _ _ | .loop _ _ _ | .endl _ | .refill _ _ _ | .fence _ _
  | .plate _ _ | .scan _ _ _ _ | .arm _ _ _ | .alarmFire _ _ | .referenceRestored _ | .linkRecovery _ _ _
  | .l0pWidthChanged _ _ | .wireRemapDone _ _ | .auxiliaryFeedGood _ _ | .shutterLinkLost _ | .shutterLinkRestored _
  | .loopbackRefused _ _ | .bothReferencesLost | .alertPulseEnd | .lifeCountUpdate | .domePowerUp | .domeStart
  | .strapSample _ _ _ _ _ | .porReset | .railEnableNext _ | .railPgTimeout _ | .railRetry | .pwrGoodFall _ | .standbyLow
  | .domeStop | .halvesRelease | .bootImageCheck _ _ _ _ | .uartImageLoad _ _ | .hbmTrainingDone _ _ | .obsWatchdogExpiry _
  | .clusterRestartDone _ | .journalRebuildDone | .spdmMessage _ _ | .dbgAuthSignature _ | .jtagIdcode | .jtagBypass
  | .jtagSamplePreload _ _ | .jtagExtest | .jtagClamp | .jtagHighz | .dbgCoreControl _ _ _ | .freeze | .freezeScan => true

end Sys2Proof
end

