-- ==== Sys2Proof/Certificates/Slice0/Obligations.lean ====
section
/-! DEFINITION. The statements for the provers, each a proposition of its own, in the order of the spec's chapters. -/

open Sys2Proof Sys2Proof.Machine

/-- A step with a command at the front of the queue is exec of that command on the state with the queue's rest. It
rests on the model's own choices in log 1. -/
def Obligations.StepRunsFrontCommand : Prop :=
  ∀ (s : State) (c : Instr) (rest : List Instr), s.pending = c :: rest → step s = exec c { s with pending := rest }

/-- Whatever the state, every command of the table answers a next state: none ends in a fault or a refusal. It rests
on the model's own choices in log 2, 13, 20. -/
def Obligations.EveryCommandCompletes : Prop := ∀ (c : Instr) (s : State), completes (exec c s)

/-- The words of a well-formed Tirop instruction spell it (R499-R513), whatever word follows a one-word instruction.
-/
def Obligations.TiropWordsRoundTrip : Prop :=
  ∀ (i : Instr) (h : Half), i.wf = true → tiropHalf i = some h →
    (∃ w, encodeTirop i = [w] ∧ ∀ nxt, decodeTirop h w nxt = some i.clean)
      ∨ ∃ w k, encodeTirop i = [w, k] ∧ decodeTirop h w k = some i.clean

/-- R503, sums and differences: ADD, ADDI, SUB, SUBI, MUL, CMP and CMPI write the result and the four flags as the
rule states, take their cycles and words, and change nothing else; the compares write no register. It rests on the
model's own choices in log 20. -/
def Obligations.TiropSumsAndCompares : Prop :=
  ∀ (s : State) (h : Half) (rd rs rt : Reg) (m : Imm),
    let t := s.trp.get h
    let x := t.reg rs
    let y := t.reg rt
    let k := immS m
    let addC (x y : BitVec 64) : Bool := decide ((x.toNat + y.toNat) / 2 ^ 64 = 1)
    let addV (x y : BitVec 64) : Bool := (x.getLsbD 63 == y.getLsbD 63) && ((x + y).getLsbD 63 != x.getLsbD 63)
    let subC (x y : BitVec 64) : Bool := decide (y.toNat ≤ x.toNat)
    let subV (x y : BitVec 64) : Bool := (x.getLsbD 63 != y.getLsbD 63) && ((x - y).getLsbD 63 != x.getLsbD 63)
    (atInstr s h (.add h rd rs rt) 1 →
      exec (.add h rd rs rt) s = pairNext s h (((t.setReg rd (x + y)).flags (x + y) (addC x y) (addV x y)).ran1 1 1))
    ∧ (atInstr s h (.addi h rd rs m) 1 →
      exec (.addi h rd rs m) s = pairNext s h (((t.setReg rd (x + k)).flags (x + k) (addC x k) (addV x k)).ran1 1 (immWords m)))
    ∧ (atInstr s h (.sub h rd rs rt) 1 →
      exec (.sub h rd rs rt) s = pairNext s h (((t.setReg rd (x - y)).flags (x - y) (subC x y) (subV x y)).ran1 1 1))
    ∧ (atInstr s h (.subi h rd rs m) 1 →
      exec (.subi h rd rs m) s = pairNext s h (((t.setReg rd (x - k)).flags (x - k) (subC x k) (subV x k)).ran1 1 (immWords m)))
    ∧ (atInstr s h (.cmp h rs rt) 1 →
      exec (.cmp h rs rt) s = pairNext s h ((t.flags (x - y) (subC x y) (subV x y)).ran1 1 1))
    ∧ (atInstr s h (.cmpi h rs m) 1 →
      exec (.cmpi h rs m) s = pairNext s h ((t.flags (x - k) (subC x k) (subV x k)).ran1 1 (immWords m)))
    ∧ (atInstr s h (.mul h rd rs rt) 4 →
      exec (.mul h rd rs rt) s =
        pairNext s h (((t.setReg rd (x * y)).flags (x * y) (decide (x.toNat * y.toNat / 2 ^ 64 ≠ 0)) false).ran1 4 1))

/-- R503, logic and moves: AND, OR, XOR, TST and their immediate forms write the result bit by bit with C and V 0;
MOV, MOVS and MOVI write a register and no flag. It rests on the model's own choices in log 20. -/
def Obligations.TiropLogicAndMoves : Prop :=
  ∀ (s : State) (h : Half) (rd rs rt : Reg) (m : Imm) (sel : Special),
    let t := s.trp.get h
    let x := t.reg rs
    let y := t.reg rt
    let k := immZ m
    let put (r : BitVec 64) (n : Nat) := pairNext s h (((t.setReg rd r).flags r false false).ran1 1 n)
    let isAnd (x y r : BitVec 64) : Prop := ∀ i, r.getLsbD i = (x.getLsbD i && y.getLsbD i)
    let isOr (x y r : BitVec 64) : Prop := ∀ i, r.getLsbD i = (x.getLsbD i || y.getLsbD i)
    let isXor (x y r : BitVec 64) : Prop := ∀ i, r.getLsbD i = (x.getLsbD i ^^ y.getLsbD i)
    (atInstr s h (.tand h rd rs rt) 1 → ∃ r, isAnd x y r ∧ exec (.tand h rd rs rt) s = put r 1)
    ∧ (atInstr s h (.andi h rd rs m) 1 → ∃ r, isAnd x k r ∧ exec (.andi h rd rs m) s = put r (immWords m))
    ∧ (atInstr s h (.tor h rd rs rt) 1 → ∃ r, isOr x y r ∧ exec (.tor h rd rs rt) s = put r 1)
    ∧ (atInstr s h (.ori h rd rs m) 1 → ∃ r, isOr x k r ∧ exec (.ori h rd rs m) s = put r (immWords m))
    ∧ (atInstr s h (.txor h rd rs rt) 1 → ∃ r, isXor x y r ∧ exec (.txor h rd rs rt) s = put r 1)
    ∧ (atInstr s h (.xori h rd rs m) 1 → ∃ r, isXor x k r ∧ exec (.xori h rd rs m) s = put r (immWords m))
    ∧ (atInstr s h (.tst h rs rt) 1 → ∃ r, isAnd x y r ∧
        exec (.tst h rs rt) s = pairNext s h ((t.flags r false false).ran1 1 1))
    ∧ (atInstr s h (.tsti h rs m) 1 → ∃ r, isAnd x k r ∧
        exec (.tsti h rs m) s = pairNext s h ((t.flags r false false).ran1 1 (immWords m)))
    ∧ (atInstr s h (.mov h rd rs) 1 → exec (.mov h rd rs) s = pairNext s h ((t.setReg rd x).ran1 1 1))
    ∧ (atInstr s h (.movi h rd m) 1 → exec (.movi h rd m) s = pairNext s h ((t.setReg rd (immS m)).ran1 1 (immWords m)))
    ∧ (atInstr s h (.movs h rd sel) 1 → ∃ r : BitVec 64, exec (.movs h rd sel) s = pairNext s h ((t.setReg rd r).ran1 1 1)
        ∧ (sel = .tn → r.toNat = t.tn % 2 ^ 64) ∧ (sel = .bc → r.toNat = t.bc)
        ∧ (sel = .half → r.toNat = if h = .east then 0 else 1) ∧ (sel = .split → r.toNat = if t.splitAt then 1 else 0))

/-- R503, shifts and bit fields: SHL, SHR, SAR and their immediate forms with C the last bit shifted out and V 0; BFX
and BFI with C and V 0. A register's shift count is its low six bits. It rests on the model's own choices in log 20.
-/
def Obligations.TiropShiftsAndFields : Prop :=
  ∀ (s : State) (h : Half) (rd rs rt : Reg) (n pos len1 : BitVec 6),
    let t := s.trp.get h
    let x := t.reg rs
    let c := (t.reg rt).toNat % 64
    let len := len1.toNat + 1
    let put (r : BitVec 64) (c : Bool) := pairNext s h (((t.setReg rd r).flags r c false).ran1 1 1)
    let outL (c : Nat) : Bool := decide (x.toNat * 2 ^ c / 2 ^ 64 % 2 = 1)
    let outR (c : Nat) : Bool := decide (x.toNat * 2 / 2 ^ c % 2 = 1)
    let isShl (c : Nat) (r : BitVec 64) : Prop := r.toNat = x.toNat * 2 ^ c % 2 ^ 64
    let isShr (c : Nat) (r : BitVec 64) : Prop := r.toNat = x.toNat / 2 ^ c
    let isSar (c : Nat) (r : BitVec 64) : Prop := r.toInt = x.toInt / 2 ^ c
    (atInstr s h (.shl h rd rs rt) 1 → ∃ r, isShl c r ∧ exec (.shl h rd rs rt) s = put r (outL c))
    ∧ (atInstr s h (.shli h rd rs n) 1 → ∃ r, isShl n.toNat r ∧ exec (.shli h rd rs n) s = put r (outL n.toNat))
    ∧ (atInstr s h (.shr h rd rs rt) 1 → ∃ r, isShr c r ∧ exec (.shr h rd rs rt) s = put r (outR c))
    ∧ (atInstr s h (.shri h rd rs n) 1 → ∃ r, isShr n.toNat r ∧ exec (.shri h rd rs n) s = put r (outR n.toNat))
    ∧ (atInstr s h (.sar h rd rs rt) 1 → ∃ r, isSar c r ∧ exec (.sar h rd rs rt) s = put r (outR c))
    ∧ (atInstr s h (.sari h rd rs n) 1 → ∃ r, isSar n.toNat r ∧ exec (.sari h rd rs n) s = put r (outR n.toNat))
    ∧ (atInstr s h (.bfx h rd rs pos len1) 1 → ∃ r,
        (∀ i, r.getLsbD i = (decide (i < len) && x.getLsbD (pos.toNat + i))) ∧ exec (.bfx h rd rs pos len1) s = put r false)
    ∧ (atInstr s h (.bfi h rd rs pos len1) 1 → ∃ r,
        (∀ i, i < 64 → r.getLsbD i =
          if pos.toNat ≤ i ∧ i < pos.toNat + len then x.getLsbD (i - pos.toNat) else (t.reg rd).getLsbD i)
        ∧ exec (.bfi h rd rs pos len1) s = put r false)

/-- R44, R54, R506, R507, R509: scratch loads and stores, CS stores, held CS loads, late CS loads and SMP. A store is
held until the seal; a load of a held address returns the held value; late data reads as all ones. It rests on the
model's own choices in log 20, 22. -/
def Obligations.TiropLoadsAndStores : Prop :=
  ∀ (s : State) (h : Half) (rd rs : Reg) (nb d : Bool) (x : Imm) (off k : BitVec 14) (e : Ecc) (c : Nat) (v : Word),
    let t := s.trp.get h
    let b := if nb then 0 else t.reg rs
    let i := (b.toNat + off.toNat) % 16384 / 8
    let a := (b + immS x).toNat / 4 * 4
    let hold (os : List TOut) (c n : Nat) := pairNext s h (({ t with held := t.held ++ os } : Trp).ran1 c n)
    let ch := (t.reg rs).toNat
    (e ≠ .double → atInstr s h (.ldScratch h rd rs nb d off e) 2 → ∃ v : BitVec 64,
        exec (.ldScratch h rd rs nb d off e) s = pairNext s h ((t.setReg rd v).ran1 2 1)
        ∧ (heldScr t.held i = some v ∨ heldScr t.held i = none ∧ v.toNat = s.rd64 (TRP_SCRATCH h (2 * i))))
    ∧ (atInstr s h (.stScratch h rd rs nb d off) 2 → limitsOk (t.held ++ [.scr i (t.reg rd)]) = true → i < 2016 →
        exec (.stScratch h rd rs nb d off) s = hold [.scr i (t.reg rd)] 2 1)
    ∧ (atInstr s h (.stScratch h rd rs nb d off) 2 → limitsOk t.held = true → 2016 ≤ i →
        exec (.stScratch h rd rs nb d off) s = hold [] 2 1)
    ∧ (lsCost t h rs nb false x = some c → atInstr s h (.stCs h rd rs nb false x) c →
        limitsOk (t.held ++ [.cs a ((t.reg rd).extractLsb' 0 32)]) = true →
        exec (.stCs h rd rs nb false x) s = hold [.cs a ((t.reg rd).extractLsb' 0 32)] c (immWords x))
    ∧ (lsCost t h rs nb false x = some c → atInstr s h (.ldCs h rd rs nb false x false) c → heldCs t.held a = some v →
        exec (.ldCs h rd rs nb false x false) s = pairNext s h ((t.setReg rd (v.zeroExtend 64)).ran1 c (immWords x)))
    ∧ (lsCost t h rs nb false x = some c → atInstr s h (.ldCs h rd rs nb false x true) c → heldCs t.held a = none →
        ∃ u, exec (.ldCs h rd rs nb false x true) s = .next u ∧ (u.trp.get h).reg rd = 0xFFFFFFFF)
    ∧ (t.samplesReady = true → serves h ch = true → k.toNat ≤ 10 → atInstr s h (.smp h rd rs k) (120 - t.bc + 4) →
        ∃ v : BitVec 64, exec (.smp h rd rs k) s = pairNext s h ((t.setReg rd v).ran1 (120 - t.bc + 4) 1)
          ∧ v.extractLsb' 0 32 = (s.chan ch).ready.getD k.toNat 0
          ∧ (k.toNat = 4 ∨ k.toNat = 5 ∨ k.toNat = 7 → v.toInt = ((s.chan ch).ready.getD k.toNat 0).toInt)
          ∧ (k.toNat ≠ 4 → k.toNat ≠ 5 → k.toNat ≠ 7 → v.toNat = ((s.chan ch).ready.getD k.toNat 0).toNat))

/-- R504, R505: NOP; Bcc forward with its cost and the loops it leaves, condition 15 being no instruction; LOOP; ENDL
going round and falling through; HALT with no event waiting leaves the pair idle. -/
def Obligations.TiropControlFlow : Prop :=
  ∀ (s : State) (h : Half) (e : Ecc) (cond : BitVec 4) (off count : BitVec 14) (len : BitVec 12) (l : LoopRec) (r : List LoopRec),
    let t := s.trp.get h
    let holds := [t.zf, !t.zf, t.nf, !t.nf, t.cf, !t.cf, t.vf, !t.vf, true, t.nf == t.vf, t.nf != t.vf,
      !t.zf && t.nf == t.vf, t.zf || t.nf != t.vf, t.cf && !t.zf, !t.cf || t.zf].getD cond.toNat false
    let target := t.pc + 1 + off.toNat
    (e ≠ .double → atInstr s h (.nop h e) 1 → exec (.nop h e) s = pairNext s h (t.ran1 1 1))
    ∧ (atInstr s h (.branch h cond off) 2 → holds = true → exec (.branch h cond off) s =
        pairNext s h { t with bc := t.bc + 2, pc := target, loops := t.loops.dropWhile fun l => decide (l.stop < target) })
    ∧ (atInstr s h (.branch h cond off) 1 → holds = false → exec (.branch h cond off) s = pairNext s h (t.ran1 1 1))
    ∧ (atInstr s h (.loop h len count) 1 → count ≠ 0 → 2 ≤ len.toNat → t.loops.length < 2 → exec (.loop h len count) s =
        pairNext s h (({ t with loops := ⟨t.pc + 1, t.pc + len.toNat, count.toNat⟩ :: t.loops } : Trp).ran1 1 1))
    ∧ (atInstr s h (.endl h) 1 → t.loops = l :: r → l.stop = t.pc → 1 < l.count → 1 ≤ l.start → exec (.endl h) s =
        pairNext s h { t with bc := t.bc + 1, pc := l.start, loops := { l with count := l.count - 1 } :: r })
    ∧ (atInstr s h (.endl h) 1 → t.loops = l :: r → l.stop = t.pc → l.count = 1 → exec (.endl h) s =
        pairNext s h (({ t with loops := r } : Trp).ran1 1 1))
    ∧ (atInstr s h (.halt h) 1 → t.hlist = [] → exec (.halt h) s =
        pairNext s h (({ t with loops := [], phase := .idle, hlist := [] } : Trp).ran1 1 1))
    ∧ (cond = 15 → fetchTirop s h ≠ some (.branch h cond off))

/-- R51: a HALT with an event waiting whose class has a VALID handler that fits starts that handler: its record is
written to scratch 0x3F00, w14 holds the class and w15 0x3F00, and PC is at the handler's entry four cycles later.
Where it does not fit, dispatch stops: that event and every event behind it stay in order, each deferred once more. -/
def Obligations.HaltStartsHandler : Prop :=
  ∀ (s : State) (h : Half) (e : HEvt) (r : List HEvt),
    let t := s.trp.get h
    let w := hndWord s h e.evt.cls
    (atInstr s h (.halt h) 1 → t.hlist = e :: r → e.evt.cls < 32 → hndValid w = true → t.bc + 5 + hndWcet w ≤ 960 →
      ∃ u, exec (.halt h) s = .next u ∧ (u.trp.get h).phase = .handler ∧ (u.trp.get h).pc = hndEntry w
        ∧ (u.trp.get h).bc = t.bc + 5 ∧ ((u.trp.get h).reg 14).toNat = e.evt.cls ∧ (u.trp.get h).reg 15 = 0x3F00
        ∧ (u.trp.get h).hlist = r ∧ (u.trp.get h).dispatched = t.dispatched ++ [⟨e.evt, 0, false⟩] ∧ (u.trp.get h).loops = []
        ∧ (∀ k, k < 8 → u.rd (TRP_SCRATCH h (0xFC0 + k)) = (recWords e.evt).getD k 0)
        ∧ (∀ a, (a < TRP_SCRATCH h 0xFC0 ∨ TRP_SCRATCH h 0xFC8 ≤ a) → u.rd a = s.rd a))
    ∧ (atInstr s h (.halt h) 1 → t.hlist = e :: r → hndValid w = true → 960 < t.bc + 5 + hndWcet w →
      ∃ u, exec (.halt h) s = .next u ∧ (u.trp.get h).phase = .idle ∧ (u.trp.get h).dispatched = t.dispatched
        ∧ (u.trp.get h).bc = t.bc + 1 ∧ (u.trp.get h).hlist.map HEvt.evt = t.hlist.map HEvt.evt
        ∧ (u.trp.get h).hlist.map HEvt.deferred = t.hlist.map fun x => x.deferred + 1)

/-- R310, R440, R510 to R514: REFILL, BIND, UNBIND, SHUT, PLATE and ARM copy their rows at issue and SEND its
registers, all held until the seal; no register of the pair and nothing outside the pair changes, but that a BIND of
the generation row freezes the Umpire's staged page, in both halves while the bridge carries it. It rests on the
model's own choices in log 20. -/
def Obligations.TiropTableInstructionsHold : Prop :=
  ∀ (s : State) (h : Half) (rs : Reg) (n : BitVec 14) (tag : BitVec 8) (tb : RowTable) (j : Nat),
    let t := s.trp.get h
    let rows := (rowsOf s h tb j n.toNat).map TOut.row
    let hold (os : List TOut) (c : Nat) := pairNext s h (({ t with held := t.held ++ os } : Trp).ran1 c 1)
    let at_ := (t.reg rs).toNat
    let vs := (List.range n.toNat).map fun j => (scrLoad s h (at_ / 8 + j)).toNat
    let alarms := vs.map fun v => TOut.row ⟨.alarm, v / 2 ^ 32 % 32, 0, [BitVec.ofNat 32 v, BitVec.ofNat 32 (v / 2 ^ 32)]⟩
    (rowsAt (refillTables h) at_ n.toNat = some (tb, j) → atInstr s h (.refill h rs n) (8 + 2 * n.toNat) →
        limitsOk (t.held ++ rows) = true → exec (.refill h rs n) s = hold rows (8 + 2 * n.toNat))
    ∧ (rowsAt (bindTables h) at_ n.toNat = some (tb, j) → tb.kind ≠ .gen → atInstr s h (.bind h rs n) (16 + 8 * n.toNat) →
        limitsOk (t.held ++ rows) = true → exec (.bind h rs n) s = hold rows (16 + 8 * n.toNat))
    ∧ (rowsAt (bindTables h) at_ n.toNat = some (tb, j) → tb.kind = .gen → atInstr s h (.bind h rs n) (16 + 8 * n.toNat) →
        limitsOk (t.held ++ rows) = true → holdsGen t = false → ∃ u, exec (.bind h rs n) s = .next u
          ∧ u.trp = s.trp.set h (({ t with held := t.held ++ rows } : Trp).ran1 (16 + 8 * n.toNat) 1)
          ∧ onlyRegs [UMP_STAT .east, UMP_STAT .west] { s with trp := u.trp, ump := u.ump } u
          ∧ u.flag (UMP_STAT h) UMP_STAT_STG_BUSY = true
          ∧ (s.carries = true → u.flag (UMP_STAT h.other) UMP_STAT_STG_BUSY = true)
          ∧ (s.carries = false → u.rd (UMP_STAT h.other) = s.rd (UMP_STAT h.other)))
    ∧ (rowsAt (unbindTables h) at_ n.toNat = some (tb, j) → atInstr s h (.unbind h rs n) (16 + 8 * n.toNat) →
        limitsOk (t.held ++ rows) = true → exec (.unbind h rs n) s = hold rows (16 + 8 * n.toNat))
    ∧ (rowsAt (shutTables h) at_ n.toNat = some (tb, j) → atInstr s h (.shut h rs n) (8 + 24 * n.toNat) →
        limitsOk (t.held ++ rows) = true → exec (.shut h rs n) s = hold rows (8 + 24 * n.toNat))
    ∧ (atInstr s h (.plate h tag) 6 → limitsOk (t.held ++ [.row ⟨.plate, tag.toNat, 0, []⟩]) = true →
        exec (.plate h tag) s = hold [.row ⟨.plate, tag.toNat, 0, []⟩] 6)
    ∧ (at_ % 8 = 0 → at_ + 8 * n.toNat ≤ 16384 → 1 ≤ n.toNat → n.toNat ≤ 32 → vs.all alarmOk = true →
        atInstr s h (.arm h rs n) (4 + 2 * n.toNat) → limitsOk (t.held ++ alarms) = true →
        exec (.arm h rs n) s = hold alarms (4 + 2 * n.toNat))
    ∧ (atInstr s h (.send h rs n) (8 + 2 * n.toNat) →
        limitsOk (t.held ++ [.send ((List.range n.toNat).map fun j => t.reg (rs + BitVec.ofNat 4 j))]) = true →
        exec (.send h rs n) s = hold [.send ((List.range n.toNat).map fun j => t.reg (rs + BitVec.ofNat 4 j))] (8 + 2 * n.toNat))

/-- R511, R512: SCAN's bit i says whether field f of channel c + i is nonzero (level) or differs from its reference,
with the flags of the result and the references updated as held outputs; FENCE sets Z and C and clears N and V. It
rests on the model's own choices in log 20, 22. -/
def Obligations.TiropScanAndFence : Prop :=
  ∀ (s : State) (h : Half) (rd rs : Reg) (n : BitVec 14) (f c : Nat) (level : Bool),
    let t := s.trp.get h
    ((t.reg rs).toNat = level.toNat * 4096 + f * 256 + c → f ≤ 6 → 1 ≤ n.toNat → n.toNat ≤ 32 → c < 32 →
        serves h c = true → serves h (c + n.toNat - 1) = true → t.samplesReady = true →
        atInstr s h (.scan h rd rs n) (120 - t.bc + (8 + n.toNat)) →
        ∃ (v : BitVec 64) (refs : List TOut), exec (.scan h rd rs n) s =
            pairNext s h (({ (t.setReg rd v).flags v false false with nf := false, held := t.held ++ refs } : Trp).ran1
              (120 - t.bc + (8 + n.toNat)) 1)
          ∧ (∀ i, v.getLsbD i = (decide (i < n.toNat) && decide (scanField s (c + i) f ≠
              if level then 0 else scanRefOf t (16 * (c + i) + f))))
          ∧ refs = if level then [] else (List.range n.toNat).map fun i => .ref (16 * (c + i) + f) (scanField s (c + i) f))
    ∧ (atInstr s h (.fence h rs) 4 → exec (.fence h rs) s =
        pairNext s h (({ t with zf := fenceZ s h ((t.reg rs).toNat % 65536), cf := decide (s.phase h ≠ phUP), nf := false,
                                vf := false } : Trp).ran1 4 1))

/-- R505, R509, R510, R515: what makes LOOP, ENDL, SMP and a table instruction fault. The Transit's outputs are
discarded, the pair stops, FAULT_CNT counts, and TRP_FAULT records the code and the PC when it held no fault. It rests
on the model's own choices in log 20, 21. -/
def Obligations.TiropFaultsStopThePair : Prop :=
  ∀ (s : State) (h : Half) (i : Instr) (code : Nat),
    let t := s.trp.get h
    atInstr s h i 0 → t.requal = none → holdsGen t = false →
    ((∃ len count, i = .loop h len count ∧ code = fcLOOP ∧ (count = 0 ∨ len.toNat < 2 ∨ 2 ≤ t.loops.length))
      ∨ (i = .endl h ∧ code = fcLOOP ∧ t.loops = [])
      ∨ (∃ rd rs k, i = .smp h rd rs k ∧ code = fcOPERAND ∧ 10 < k.toNat)
      ∨ (∃ rs n, i = .refill h rs n ∧ code = fcOPERAND ∧ rowsAt (refillTables h) (t.reg rs).toNat n.toNat = none)) →
    ∃ u, exec i s = .next u ∧ (u.trp.get h).w = t.w ∧ (u.trp.get h).phase = .stopped ∧ (u.trp.get h).held = []
      ∧ (u.trp.get h).loops = [] ∧ (u.trp.get h).dispatched = []
      ∧ u.fget (TRP_ERRCNT1 h) TRP_ERRCNT1_FAULT_CNT
          = min (s.fget (TRP_ERRCNT1 h) TRP_ERRCNT1_FAULT_CNT + 1) (2 ^ TRP_ERRCNT1_FAULT_CNT.width - 1)
      ∧ (s.flag (TRP_FAULT h) TRP_FAULT_VALID = false →
          u.flag (TRP_FAULT h) TRP_FAULT_VALID = true ∧ u.fget (TRP_FAULT h) TRP_FAULT_CODE = code
          ∧ u.fget (TRP_FAULT h) TRP_FAULT_PC = t.pc % 2 ^ TRP_FAULT_PC.width ∧ u.rd64 (TRP_FAULT_TN_LO h) = t.tn % 2 ^ 64)

/-- Every step with a Tirop instruction of either half at the front of the queue keeps the pairs' invariant (R56, R57,
R505). It rests on the model's own choices in log 20. -/
def Obligations.PairInvariantKept : Prop :=
  ∀ (s t : State) (i : Instr) (rest : List Instr) (h : Half), s.pending = i :: rest → tiropHalf i = some h →
    (∀ g, pairInv (s.trp.get g)) → step s = .next t → ∀ g, pairInv (t.trp.get g)

/-- R7, R11, R487: a low-word read returns the live word and latches the high word for that master alone, which its
next read of the high word returns; with no latch a read returns the live word; a read clears an RC counter and leaves
the additions of its own clock; a stop that times out answers all ones. -/
def Obligations.ReadsLatchClearAndTimeOut : Prop :=
  ∀ (s : State) (m : Master) (a : Nat) (d : RegDesc) (f : Fld) (v coinc : Word),
    let h := s.masterHalf m
    let b := accessAddr m a
    let k := copyKey h b
    let allowed := m = .dap → check s h .dbg ⟨5, 0, b⟩ pR = .allow
    let hits := allowed ∧ decodeAt m b k = some d ∧ reaches s h b = true
    (hits → latched s m k = none → k ≠ MRD_DBG_NONCE 0 → d.lo64 = true → rcMask d.flds = 0 →
        ∃ t, exec (.lowWordRead m a) s = .next t ∧ t.sent = .out outREAD [b, (s.rd k).toNat] :: s.sent
          ∧ latched t m (k + 4) = some (s.rd (k + 4)) ∧ (∀ c, t.rd c = s.rd c)
          ∧ ∀ n c, n ≠ m → latched t n c = latched s n c)
    ∧ (hits → latched s m k = some v →
        ∃ t, exec (.lowWordRead m a) s = .next t ∧ t.sent = .out outREAD [b, v.toNat] :: s.sent ∧ latched t m k = none
          ∧ (∀ c, t.rd c = s.rd c) ∧ ∀ n c, n ≠ m → latched t n c = latched s n c)
    ∧ (hits → latched s m k = none → k ≠ MRD_DBG_NONCE 0 → d.lo64 = false → rcMask d.flds = 0 →
        ∃ t, exec (.lowWordRead m a) s = .next t ∧ t.sent = .out outREAD [b, (s.rd k).toNat] :: s.sent
          ∧ (∀ c, t.rd c = s.rd c) ∧ ∀ n c, latched t n c = latched s n c)
    ∧ (hits → latched s m k = none → k ≠ MRD_DBG_NONCE 0 → d.lo64 = false → d.flds = [f] → f.acc = .rc → f.lo + f.width ≤ 32 →
        ∃ t, exec (.rcCounterRead m a coinc) s = .next t ∧ t.sent = .out outREAD [b, (s.rd k).toNat] :: s.sent
          ∧ fieldSet (s.rd k) (t.rd k) f (fldGet coinc f) ∧ ∀ c, c ≠ k → t.rd c = s.rd c)
    ∧ (∃ u, refOnly s u ∧ exec (.csStopTimeout m a true) s = .next u
        ∧ exec (.csStopTimeout m a false) s = .next { u with sent := .out outREAD [b, 0xFFFFFFFF] :: u.sent })

/-- R6, R10, R12, R13, R62: a write of an undecoded address or of a live table changes nothing but the Referee's
record. A register takes a written word bit by bit, each bit by the access type of its field: RW, RO, WO, RC, RW1C,
RW1S and RWL. The low word of a 64-bit register waits for the high word, and both are taken together. A snapshot write
copies both accumulators of a channel. It rests on the model's own choices in log 37, 41. -/
def Obligations.WritesFollowAccessTypes : Prop :=
  ∀ (s : State) (h : Half) (c a : Nat) (d dl : RegDesc) (v lo : Word) (ch : BitVec 5),
    let m := Master.obs h c
    let hits (d : RegDesc) := decodeAt m a (copyKey h a) = some d ∧ reaches s h a = true
    let opn := rwlOpen s a
    a % 4 = 0 → a < 2 ^ 28 →
    (decodeAt m a (copyKey h a) = none →
        exec (.registerWrite m a v) s = .next (csDecodeError s ((homeOf a).getD h) a)
          ∧ refOnly s (csDecodeError s ((homeOf a).getD h) a))
    ∧ (hits d → liveTable a = true →
        exec (.registerWrite m a v) s = .next (writeDiscarded s ((homeOf a).getD h) a)
          ∧ refOnly s (writeDiscarded s ((homeOf a).getD h) a))
    ∧ (hits d → plainReg a d = true → d.lo64 = false → lowOf a = none →
        ∃ t, exec (.registerWrite m a v) s = .next t ∧ onlyRegs [a] s t ∧ wordTaken opn d (s.rd a) v (t.rd a))
    ∧ (hits d → liveTable a = false → pairOnly a = false → d.lo64 = true →
        exec (.registerWrite m a v) s = .next { s with heldLow := minsert s.heldLow a v })
    ∧ (hits d → liveTable a = false → pairOnly a = false → d.lo64 = false → lowOf a = some dl → 4 ≤ a →
        mfind s.heldLow (a - 4) = some lo →
        ∃ t, exec (.highWordWrite m a v) s = .next t
          ∧ onlyRegs [a - 4, a] { s with heldLow := merase s.heldLow (a - 4) } t
          ∧ wordTaken (rwlOpen s (a - 4)) dl (s.rd (a - 4)) lo (t.rd (a - 4)) ∧ wordTaken (rwlOpen (s.wr (a - 4) (t.rd (a - 4))) a) d (s.rd a) v (t.rd a))
    ∧ (hits d → liveTable a = false → pairOnly a = false → d.lo64 = false → lowOf a = some dl → mfind s.heldLow (a - 4) = none →
        ∃ t, exec (.highWordWrite m a v) s = .next t ∧ onlyRegs [a] s t ∧ wordTaken opn d (s.rd a) v (t.rd a))
    ∧ (reaches s h (SHT_ESNAP ch.toNat) = true → v.getLsbD 0 = true →
        ∃ t, exec (.snapshotWrite m (SHT_ESNAP ch.toNat) v) s = .next t
          ∧ (∀ i, i < 4 → t.rd (SHT_E ch.toNat i) = (words128 (s.chan ch.toNat).accMB).getD i 0
              ∧ t.rd (SHT_E ch.toNat (i + 4)) = (words128 (s.chan ch.toNat).accXB).getD i 0)
          ∧ onlyRegs ((List.range 8).map (SHT_E ch.toNat)) s t)
    ∧ (reaches s h (SHT_ESNAP ch.toNat) = true →
        ∃ t, exec (.energySnapshot m ch) s = .next t
          ∧ (∀ i, i < 4 → t.rd (SHT_E ch.toNat i) = (words128 (s.chan ch.toNat).accMB).getD i 0
              ∧ t.rd (SHT_E ch.toNat (i + 4)) = (words128 (s.chan ch.toNat).accXB).getD i 0)
          ∧ onlyRegs ((List.range 8).map (SHT_E ch.toNat)) s t)

/-- R46: at a boundary the pair starts in a fixed state: every register, flag and loop is cleared, BC is 0, nothing is
held, and the Transit is open. R29, R35: with no step due, reaching the boundary moves the Meridian to its first clock
at or past the next multiple of 1,000 ns and TN to its number. -/
def Obligations.BoundaryOpensTheNextTransit : Prop :=
  ∀ (s : State) (h : Half) (x : BoundaryIn),
    (∃ t, exec (.transitBoundary h x) s = .next t
        ∧ (t.trp.get h).w = Vector.replicate 16 0 ∧ (t.trp.get h).bc = 0 ∧ (t.trp.get h).loops = [] ∧ (t.trp.get h).held = []
        ∧ (t.trp.get h).zf = false ∧ (t.trp.get h).nf = false ∧ (t.trp.get h).cf = false ∧ (t.trp.get h).vf = false
        ∧ (t.trp.get h).dispatched = [] ∧ (t.trp.get h).samplesReady = false ∧ (t.trp.get h).tn = t.tn h
        ∧ ((t.trp.get h).phase = .main → (t.trp.get h).pc = bits (bankWord t h 1).toNat 13 0))
    ∧ ((s.mrd.get h).step = 0 → s.mer h ≤ (s.tn h + 1) * 1000 * 65536 → s.tn h + 1 < 2 ^ 48 → 1 < (s.mrd.get h).inc + (s.mrd.get h).adj →
        (s.mrd.get h).inc + (s.mrd.get h).adj < 2 ^ 18 →
        (merBoundary s h).tn h = s.tn h + 1 ∧ (s.tn h + 1) * 1000 * 65536 ≤ (merBoundary s h).mer h
        ∧ (merBoundary s h).mer h ≤ (s.tn h + 1) * 1000 * 65536 + ((s.mrd.get h).inc + (s.mrd.get h).adj)
        ∧ ((merBoundary s h).mrd.get h).hold = 0
        ∧ (∀ a, a ≠ MRD_NOW_LO h → a ≠ MRD_NOW_LO h + 4 → a ≠ MRD_TN_LO h → a ≠ MRD_TN_LO h + 4 → a ≠ MRD_FRAC h →
            (merBoundary s h).rd a = s.rd a))

/-- R54, R55, R59, R513: a seal takes place once in a Transit and releases the pair's held outputs in issue order.
After it every word of scratch reads as the pair itself last saw it; a held CS store has written its register; a SEND
stands in the outbox under the next SEQ, or is counted as dropped where the outbox is full. A pair that did not run
releases nothing. A mismatch, at the seal or while the pair runs before cycle 960, discards every held output, stops
the pair, returns its events, and is marked, counted and reported. It rests on the model's own choices in log 25, 26.
-/
def Obligations.SealReleasesOrDiscards : Prop :=
  ∀ (s : State) (h : Half) (a : Nat) (v : Word) (d : RegDesc) (ws : List (BitVec 64)) (mm : Bool),
    let t := s.trp.get h
    let p := TRP_OBOX_PTR h
    let tail := s.fget p TRP_OBOX_PTR_TAIL
    let used := (tail + 65536 - s.fget p TRP_OBOX_PTR_HEAD) % 65536
    let quiet := t.done = false ∧ t.requal = none ∧ t.rows = [] ∧ s.trp.west.rows = [] ∧ t.commits = [] ∧ swapOpen s h = false
    let released (u : State) : Prop := (u.trp.get h).held = [] ∧ (u.trp.get h).sealed = true ∧ (u.trp.get h).done = true
      ∧ (u.trp.get h).rel = true
    let ended (done : Bool) : Trp := { t with
      phase := .stopped, held := [], hlist := t.dispatched ++ t.hlist, dispatched := [], loops := [],
      sealed := t.sealed || done, done := done }
    let gone (done : Bool) (u : State) : State :=
      (({ u with trp := s.trp.set h (ended done) } : State).fset (TRP_STAT h) TRP_STAT_MISMATCH 1).fbump
        (TRP_ERRCNT h) TRP_ERRCNT_MISMATCH_CNT 1
    let told (u : State) := raise u h (evtU 2 1 0 0 0 0)
    (t.done = true → exec (.transitSeal h mm) s = .next s)
    ∧ (quiet → t.ran = true → t.phase = .idle → t.held.all scrOnly = true →
        ∃ u, exec (.transitSeal h false) s = .next u ∧ released u
          ∧ (∀ i, i < 2048 → u.rd64 (TRP_SCRATCH h (2 * i)) = (scrLoad s h i).toNat)
          ∧ u.fget (TRP_STAT h) TRP_STAT_LAST_BC = t.bc % 2 ^ TRP_STAT_LAST_BC.width
          ∧ ∀ b, b < 0x0A000000 → refReg b = false → u.rd b = s.rd b)
    ∧ (quiet → t.ran = true → t.phase = .idle → t.held = [.cs a v] → a % 4 = 0 → plainReg a d = true →
        decodeAt (.tirop h) a (copyKey h a) = some d → reaches s h a = true → d.lo64 = false → lowOf a = none →
        d.flds = [⟨0, 32, .rw, 0, false⟩] →
        ∃ u, exec (.transitSeal h false) s = .next u ∧ released u ∧ u.rd a = v)
    ∧ (quiet → t.ran = true → t.phase = .idle → t.held = [.send ws] → used < 32 →
        ∃ u, exec (.transitSeal h false) s = .next u ∧ released u
          ∧ u.fget p TRP_OBOX_PTR_TAIL = (tail + 1) % 65536 ∧ (u.trp.get h).oboxSeq = (t.oboxSeq + 1) % 65536
          ∧ u.rd64 (TRP_OBOX h (tail % 32) 0) = t.tn % 2 ^ 64
          ∧ u.rd (TRP_OBOX h (tail % 32) 2) = BitVec.ofNat 32 (t.oboxSeq * 65536 + ws.length)
          ∧ ∀ j, j < 6 → u.rd64 (TRP_OBOX h (tail % 32) (4 + 2 * j)) = (ws.getD j 0).toNat)
    ∧ (quiet → t.ran = true → t.phase = .idle → t.held = [.send ws] → 32 ≤ used →
        ∃ u, exec (.transitSeal h false) s = .next u ∧ released u
          ∧ u.fget p TRP_OBOX_PTR_TAIL = tail ∧ (u.trp.get h).oboxSeq = (t.oboxSeq + 1) % 65536
          ∧ u.fget (TRP_ERRCNT1 h) TRP_ERRCNT1_SENDDROP_CNT
              = min (s.fget (TRP_ERRCNT1 h) TRP_ERRCNT1_SENDDROP_CNT + 1) (2 ^ TRP_ERRCNT1_SENDDROP_CNT.width - 1))
    ∧ (quiet → t.ran = false →
        ∃ u, exec (.transitSeal h false) s = .next u ∧ u.regs = s.regs ∧ (u.trp.get h).held = t.held ∧ (u.trp.get h).rel = t.rel
          ∧ (u.trp.get h).sealed = true ∧ (u.trp.get h).done = true)
    ∧ (quiet → t.ran = true → t.phase ≠ .stopped → (running t = true → t.sealed = true) → holdsGen t = false →
        exec (.transitSeal h true) s = .next (settleAll (told (gone true (oldestReport s h))) h))
    ∧ (t.done = false → t.requal = none → running t = true → t.bc < 960 → t.sealed = false → holdsGen t = false →
        exec (.transitSeal h true) s = .next (told (gone false s)))

/-- R48, R53, R57: the samples of the half's sixteen channels become readable, and nothing else changes; a pair still
running at cycle 960 is cut off, its outputs discarded and its events returned, and that is marked, counted and
reported; one that does not run is left; an event deferred for 64 Transits is reported once, and no other. It rests on
the model's own choices in log 22, 36. -/
def Obligations.SamplesCutoffAndBacklog : Prop :=
  ∀ (s : State) (h : Half) (rq : Bool × Nat),
    let t := s.trp.get h
    let ended : Trp := { t with
      phase := .stopped, held := [], hlist := t.dispatched ++ t.hlist, dispatched := [], loops := [], sealed := true, bc := 960 }
    let told (e : HEvt) : HEvt := if 64 ≤ e.deferred then { e with told := true } else e
    (∃ u, exec (.shutterSamplesReady h) s = .next u ∧ u.trp = s.trp.set h { t with samplesReady := true }
        ∧ u = { s with trp := u.trp, chans := u.chans }
        ∧ (∀ c, c < 32 → chanHalf c = h → u.chan c = { s.chan c with ready := (s.chan c).smp })
        ∧ (∀ c, c < 32 → chanHalf c = h.other → u.chan c = s.chan c))
    ∧ (running t = false → exec (.tiropCutoff h) s = .next { s with trp := s.trp.set h { t with sealed := true } })
    ∧ (running t = true → t.requal = none → holdsGen t = false →
        exec (.tiropCutoff h) s = .next (raise
          ((({ s with trp := s.trp.set h ended } : State).fset (TRP_STAT h) TRP_STAT_CUTOFF 1).fbump (TRP_ERRCNT h) TRP_ERRCNT_CUTOFF_CNT 1)
          h (evtU 2 0 0 0 0 0)))
    ∧ (running t = true → t.requal = some rq → holdsGen t = false →
        exec (.tiropCutoff h) s = .next { s with trp := s.trp.set h { ended with requalBad := true } })
    ∧ ((∀ e ∈ t.hlist, e.deferred < 64 ∨ e.told = true) → exec (.handlerBacklog h) s = .next s)
    ∧ ((∃ e ∈ t.hlist, 64 ≤ e.deferred ∧ e.told = false) →
        exec (.handlerBacklog h) s =
          .next (raise { s with trp := s.trp.set h { t with hlist := t.hlist.map told } } h (evtU 2 2 0 0 0 0)))

/-- R43: RUN waits for the next boundary; SEL names the active bank while RUN is 0, and with RUN 1 a write that would
change it is discarded; both banks may be written while RUN is 0, and while RUN is 1 only the standby bank with no
takeover pending. R65, R67: a request for a takeover, by Transit number or by time rounded up, is PENDING for that
Transit when it lies at least two Transits ahead; in control hold or with RUN 0 it ends ABORTED with reason 6, nearer
with reason 2; a second request changes no takeover; an abort of a pending one ends it with reason 1, or sets
TOO_LATE. It rests on the model's own choices in log 37, 114, 123. -/
def Obligations.BanksAreWrittenAndTakenOver : Prop :=
    (∀ (s : State) (m : Master) (h : Half) (sel b : Bool) (i : BitVec 14) (v : Word),
      let t := s.trp.get h
      let run := s.fget (TRP_CTL h) TRP_CTL_RUN
      let cur := s.fget (TRP_CTL h) TRP_CTL_SEL
      let bank := TRP_BANK h b.toNat i.toNat
      let pend := s.fget (TRP_SWAP_STAT h) TRP_SWAP_STAT_STATE = 1
      let lost (o : Host.Outcome State Fault Refusal) (a : Nat) : Prop := o = .next (writeDiscarded s h a) ∧ refOnly s (writeDiscarded s h a)
      (mayAct s m (TRP_CTL h) → exec (.trpRunSet m h) s = .next { s with trp := s.trp.set h { t with runPend := some true } })
      ∧ (mayAct s m (TRP_CTL h) → exec (.trpRunClear m h) s = .next { s with trp := s.trp.set h { t with runPend := some false } })
      ∧ (mayAct s m (TRP_CTL h) → run = 0 →
          ∃ u, exec (.trpSelWrite m h sel) s = .next u ∧ onlyRegs [TRP_CTL h, TRP_STAT h] s u
            ∧ fieldSet (s.rd (TRP_CTL h)) (u.rd (TRP_CTL h)) TRP_CTL_SEL sel.toNat
            ∧ fieldSet (s.rd (TRP_STAT h)) (u.rd (TRP_STAT h)) TRP_STAT_ACTIVE sel.toNat)
      ∧ (mayAct s m (TRP_CTL h) → run = 1 → sel.toNat = cur → exec (.trpSelWrite m h sel) s = .next s)
      ∧ (mayAct s m (TRP_CTL h) → run = 1 → sel.toNat ≠ cur → lost (exec (.trpSelWrite m h sel) s) (TRP_CTL h))
      ∧ (mayAct s m bank → run = 0 → exec (.bankWrite m h b i v) s = .next (s.wr bank v) ∧ (s.wr bank v).rd bank = v)
      ∧ (mayAct s m bank → run = 1 → b.toNat ≠ cur → ¬ pend →
          exec (.bankWrite m h b i v) s = .next (s.wr bank v) ∧ (s.wr bank v).rd bank = v)
      ∧ (mayAct s m bank → run = 1 → (b.toNat = cur ∨ pend) → lost (exec (.bankWrite m h b i v) s) bank))
    ∧ (∀ (s : State) (m : Master) (h : Half) (pair mode ab : Bool),
      let c := TRP_SWAP_CTL h
      let a := TRP_SWAP_STAT h
      let t := s.trp.get h
      let st (u : State) := u.fget a TRP_SWAP_STAT_STATE
      let pend := st s = 1
      let target := if mode then (s.rd64 (TRP_SWAP_AT_LO h) + 999) / 1000 else s.rd64 (TRP_SWAP_AT_LO h)
      let held := s.flag (TRP_STAT h) TRP_STAT_HOLD = true ∨ s.fget (TRP_CTL h) TRP_CTL_RUN = 0
      let late := t.swapGo = true ∨ (t.sealed = true ∧ s.tn h + 1 = t.swapT)
      let asked (u : State) : Prop := onlyRegs [c, a] { s with trp := u.trp } u ∧ u.fget c TRP_SWAP_CTL_PAIR = pair.toNat
        ∧ u.fget c TRP_SWAP_CTL_MODE = mode.toNat
      let set (u : State) : Prop := asked u ∧ st u = 1 ∧ u.fget a TRP_SWAP_STAT_REASON = 0 ∧ u.fget a TRP_SWAP_STAT_TOO_LATE = 0
        ∧ u.trp = s.trp.set h { t with swapT := target, swapPair := pair, swapGo := false }
      let ends (u : State) (why : Nat) : Prop := asked u ∧ st u = 3 ∧ u.fget a TRP_SWAP_STAT_REASON = why ∧ u.trp = s.trp
      mayAct s m c →
      (¬ pend → ¬ held → s.tn h + 2 ≤ target → ∃ u, exec (.swapRequest m h pair mode ab) s = .next u ∧ set u)
      ∧ (pend → ¬ late → ¬ held → s.tn h + 2 ≤ target → ∃ u, exec (.swapRequest m h pair mode true) s = .next u ∧ set u)
      ∧ (¬ pend → ¬ held → target < s.tn h + 2 → ∃ u, exec (.swapRequest m h pair mode ab) s = .next u ∧ ends u 2)
      ∧ (¬ pend → held → ∃ u, exec (.swapRequest m h pair mode ab) s = .next u ∧ ends u 6)
      ∧ (pend → ∃ u, exec (.swapRequest m h pair mode false) s = .next u ∧ asked u ∧ u.rd a = s.rd a ∧ u.trp = s.trp)
      ∧ (pend → ¬ late → ∃ u, exec (.swapAbort m h pair mode) s = .next u ∧ ends u 1)
      ∧ (pend → late → ∃ u, exec (.swapAbort m h pair mode) s = .next u ∧ asked u ∧ u.trp = s.trp
          ∧ fieldSet (s.rd a) (u.rd a) TRP_SWAP_STAT_TOO_LATE 1)
      ∧ (¬ pend → ∃ u, exec (.swapAbort m h pair mode) s = .next u ∧ asked u ∧ u.rd a = s.rd a ∧ u.trp = s.trp))

/-- R38 to R41: an MSYNC frame is sent by a leader, or by a locked follower, with OUT_EN in the half with authority at
every 1,000th Transit, and what it holds; a follower's frame with a bad CRC is marked and reported; a good one within
4 ns counts toward the lock, which the eighth in a row sets, one beyond 16 ns loses the lock; frames lost end the run.
R513, R514: an armed alarm that is due fires: its ARM bit clears and its TRP_ALARM bit sets; one not due or not armed
does nothing; an outbox HEAD that does not pass TAIL is taken, and one that does is discarded. It rests on the model's
own choices in log 42, 45. -/
def Obligations.MsyncFramesAlarmsAndOutbox : Prop :=
    (∀ (s : State) (h : Half) (tn arr : Nat) (crc : BitVec 8),
      let r := s.mrd.get h
      let q := MRD_SYNC_STAT h
      let e : Int := (arr : Int) - r.dly * 4096 - tn * 1000 * 65536
      let locked := s.flag q MRD_SYNC_STAT_LOCKED = true
      let sends := roleOf r = 1 ∨ (roleOf r = 2 ∧ locked)
      let lock := s.phase h = phLOCK
      let own := lock ∧ s.flag (CDB_STAT h) CDB_STAT_ISLANDED = true
      let steps := maySteps s r e = true ∧ ¬ lock
      let mer (good : Nat) : Mrd := { r with
        good := good, seen := true, adj := if own then r.adj else adjStep r.adj (rateSeen r e),
        step := if steps then -e else r.step, phaseErr := if own then r.phaseErr else if steps then 0 else e }
      let took (good : Nat) : State := ({ s with mrd := s.mrd.set h (mer good) } : State).fset q MRD_SYNC_STAT_ERR (errField e)
      let ended : State := { s with mrd := s.mrd.set h { r with good := 0 } }
      (s.tn h % 1000 = 0 → outEn r = true → s.auth h = h → sends →
          exec (.msyncFrameSend h) s = .next { s with sent := .msync (manchester (frameBits (s.tn h))) :: s.sent })
      ∧ ((s.tn h % 1000 ≠ 0 ∨ outEn r = false ∨ s.auth h ≠ h ∨ ¬ sends) → exec (.msyncFrameSend h) s = .next s)
      ∧ (roleOf r ≠ 2 → exec (.msyncFrameReceived h tn crc arr) s = .next s)
      ∧ (roleOf r ≠ 2 → exec (.msyncLoss h) s = .next s)
      ∧ (roleOf r = 2 → crc ≠ crc8 tn →
          exec (.msyncFrameReceived h tn crc arr) s = .next (raise (s.fset q MRD_SYNC_STAT_CRC_ERR 1) h (evt 1 2 0 0)))
      ∧ (roleOf r = 2 → crc = crc8 tn → e.natAbs ≤ 4 * 65536 → r.good < 7 →
          exec (.msyncFrameReceived h tn crc arr) s = .next (took (r.good + 1)))
      ∧ (roleOf r = 2 → crc = crc8 tn → e.natAbs ≤ 4 * 65536 → 7 ≤ r.good →
          exec (.msyncFrameReceived h tn crc arr) s = .next ((took (r.good + 1)).fset q MRD_SYNC_STAT_LOCKED 1))
      ∧ (roleOf r = 2 → crc = crc8 tn → 4 * 65536 < e.natAbs → (e.natAbs ≤ 16 * 65536 ∨ ¬ locked) →
          exec (.msyncFrameReceived h tn crc arr) s = .next (took 0))
      ∧ (roleOf r = 2 → crc = crc8 tn → 16 * 65536 < e.natAbs → locked →
          exec (.msyncFrameReceived h tn crc arr) s = .next (raise ((took 0).fset q MRD_SYNC_STAT_LOCKED 0) h (evt 1 1 0 0)))
      ∧ (roleOf r = 2 → ¬ locked → exec (.msyncLoss h) s = .next (ended.fset q MRD_SYNC_STAT_LOSS 1))
      ∧ (roleOf r = 2 → locked → exec (.msyncLoss h) s =
          .next ((raise (ended.fset q MRD_SYNC_STAT_LOCKED 0) h (evt 1 1 0 0)).fset q MRD_SYNC_STAT_LOSS 1)))
    ∧ (∀ (s : State) (m : Master) (h : Half) (a : BitVec 5) (k : Nat) (v : Word),
      let p := TRP_OBOX_PTR h
      let hd := s.fget p TRP_OBOX_PTR_HEAD
      let ahead := (fldGet v TRP_OBOX_PTR_HEAD + 65536 - hd) % 65536
      let room := (s.fget p TRP_OBOX_PTR_TAIL + 65536 - hd) % 65536
      let t := s.trp.get h
      let due := k ≤ s.tn h ∨ (k = s.tn h + 1 ∧ t.sealed = true)
      (mfind t.alarms a.toNat = some k → due →
          ∃ u, exec (.alarmFire h a) s = .next u ∧ u.trp = s.trp.set h { t with alarms := merase t.alarms a.toNat }
            ∧ (∀ i, i < 32 → (u.rd (TRP_ALARM h)).getLsbD i = ((s.rd (TRP_ALARM h)).getLsbD i || decide (i = a.toNat)))
            ∧ (∀ i, i < 32 → (u.rd (TRP_ALARM_ARM h)).getLsbD i = ((s.rd (TRP_ALARM_ARM h)).getLsbD i && decide (i ≠ a.toNat)))
            ∧ onlyRegs [TRP_ALARM h, TRP_ALARM_ARM h] { s with trp := u.trp } u)
      ∧ (mfind t.alarms a.toNat = some k → ¬ due → exec (.alarmFire h a) s = .next s)
      ∧ (mfind t.alarms a.toNat = none → exec (.alarmFire h a) s = .next s)
      ∧ (mayAct s m p → ahead ≤ room →
          ∃ u, exec (.oboxHeadWrite m h v) s = .next u ∧ onlyField s u p TRP_OBOX_PTR_HEAD (fldGet v TRP_OBOX_PTR_HEAD))
      ∧ (mayAct s m p → room < ahead →
          exec (.oboxHeadWrite m h v) s = .next (writeDiscarded s h p) ∧ refOnly s (writeDiscarded s h p)))

/-- R73, R75, R76, R95, R162: PRT_CFG takes a write that sets or clears EN without touching MODE or ROLE; a sub-port
that is disabled, loses its link or refuses loopback shows DOWN with no width; a sub-port that trains at its full
width is in L0. It rests on the model's own choices in log 97. -/
def Obligations.PortsTrainAndGoDown : Prop :=
  ∀ (s : State) (m : Master) (p : BitVec 5) (k : BitVec 2) (v : Word) (rate : Nat) (rev l0p : Bool) (dev : DevInfo)
    (eqs : List EqRun) (cred : List (Nat × Nat)),
    let P := p.toNat
    let K := k.toNat
    let d := subNode P K
    let cfg := PRT_CFG P
    let st := PRT_LNK_STAT P K
    let same := (s.rd cfg &&& 0xCC) = (v &&& 0xCC)
    let down (t : State) : Prop := t.fget st PRT_LNK_STAT_PM = 0 ∧ t.fget st PRT_LNK_STAT_TWIDTH = 0 ∧ t.fget st PRT_LNK_STAT_AWIDTH = 0
    (mayAct s m cfg → s.flag cfg PRT_CFG_EN = false → same →
        reserveTotal (s.wr cfg ((v ||| 1) &&& 0xF7FC)) P ≤ 8192 →
        ∃ t, exec (.portEnable m p v) s = .next t ∧ t.rd cfg = (v ||| 1) &&& 0xF7FD ∧ ∀ j ∈ subsOf t P, (t.sub (subNode P j)).off = false)
    ∧ (mayAct s m cfg → s.flag cfg PRT_CFG_EN = true → same →
        ∃ t, exec (.portDisable m p v) s = .next t ∧ t.rd cfg = v &&& 0xF7FC)
    ∧ (mayAct s m (PRT_LNK_CTL P K) → s.flag (PRT_LNK_CTL P K) PRT_LNK_CTL_DISABLE = false → inService s d = false →
        ∃ t, exec (.subportDisableWrite m p k true) s = .next t ∧ down t
          ∧ t.flag (PRT_LNK_CTL P K) PRT_LNK_CTL_DISABLE = true)
    ∧ (∃ t, exec (.linkDown p k) s = .next t ∧ down t ∧ (inService s d = false → ∀ a, a ≠ st → a ≠ MRD_PROMOTED → a ≠ PRT_LANE_STAT P →
          a ≠ PRT_EYE_CNT_LO P → a ≠ PRT_EYE_CNT_LO P + 4 → a ≠ PRT_EYE_ERR P → a ≠ PRT_EYE_STAT P → t.rd a = s.rd a))
    ∧ (inService s d = false → ∃ t, exec (.loopbackRefused p k) s = .next t ∧ down t
        ∧ t.fget (PRT_LERRCNT1 P K) PRT_LERRCNT1_LPBK_CNT
            = min (s.fget (PRT_LERRCNT1 P K) PRT_LERRCNT1_LPBK_CNT + 1) (2 ^ PRT_LERRCNT1_LPBK_CNT.width - 1))
    ∧ (mayTrain s d = true → linkUp s d = false → linkPm s d ≠ pmL1 → linkPm s d ≠ pmRECOV →
        s.flag (PRT_LNK_CTL P K) PRT_LNK_CTL_COMPL = false → 5 ≤ min rate (maxRate s P) → min rate (maxRate s P) < 16 →
        minWidth s P ≤ subLanes s P → (∀ i, i < 16 → laneFailed s P i = false) →
        ∃ t, exec (.linkTrained p k (.up rate (subLanes s P) rev l0p dev eqs cred)) s = .next t
          ∧ t.fget st PRT_LNK_STAT_PM = pmL0 ∧ t.fget st PRT_LNK_STAT_RATE = min rate (maxRate s P)
          ∧ t.fget st PRT_LNK_STAT_TWIDTH = subLanes s P ∧ t.fget st PRT_LNK_STAT_AWIDTH = subLanes s P
          ∧ (t.sub d).reached = true ∧ (t.sub d).fails = 0 ∧ (t.sub d).dev = some dev)

/-- R78, R93, R100: writes of PRT_LNK_CTL that change one field. A compliance write changes the field; a retrain and a
re-equalisation take the link to Recovery, or wait while a change is under way; a width write asks for the width that
fits. It rests on the model's own choices in log 97, 125. -/
def Obligations.LinkControlWrites : Prop :=
  ∀ (s : State) (m : Master) (p : BitVec 5) (k : BitVec 2) (on : Bool) (w : BitVec 3),
    let P := p.toNat
    let K := k.toNat
    let d := subNode P K
    let c := PRT_LNK_CTL P K
    let x := s.sub d
    let recov (t : State) : Prop := linkPm t d = pmRECOV ∧ (t.sub d).change = true
      ∧ t.fget (PRT_LERRCNT0 P K) PRT_LERRCNT0_RECOV_CNT
          = min (s.fget (PRT_LERRCNT0 P K) PRT_LERRCNT0_RECOV_CNT + 1) (2 ^ PRT_LERRCNT0_RECOV_CNT.width - 1)
    let fits := l0pFits (s.fset c PRT_LNK_CTL_L0P_W w.toNat) P K
    mayAct s m c → s.rd c &&& 0xF1 = s.rd c →
    (∃ t, exec (.complianceWrite m p k on) s = .next t ∧ t.flag c PRT_LNK_CTL_COMPL = on
        ∧ ∀ a, a ≠ c → a ≠ MRD_PROMOTED → t.rd a = s.rd a)
    ∧ (x.reached = true → x.change = false → ∃ t, exec (.retrainWrite m p k) s = .next t ∧ recov t ∧ t.rd c = s.rd c)
    ∧ (x.reached = true → x.change = true → ∃ t, exec (.retrainWrite m p k) s = .next t ∧ (t.sub d).heldRetrain = true ∧ linkPm t d = linkPm s d)
    ∧ (x.reached = true → x.change = false → linkUp s d = true →
        ∃ t, exec (.reeqWrite m p k) s = .next t ∧ recov t ∧ (t.sub d).eq = true ∧ t.rd c = s.rd c)
    ∧ (x.reached = true → x.change = false → linkUp s d = true → l0pMay s P K = true →
        s.fget c PRT_LNK_CTL_L0P_W ≠ w.toNat → fits ≠ 0 → fits ≠ s.fget (PRT_LNK_STAT P K) PRT_LNK_STAT_AWIDTH →
        ∃ t, exec (.l0pWidthWrite m p k w) s = .next t ∧ (t.sub d).l0pTo = some fits ∧ (t.sub d).change = true
          ∧ t.fget c PRT_LNK_CTL_L0P_W = w.toNat)
    ∧ (x.change = false → linkUp s d = true → x.heldRetrain = true →
        ∃ t, exec (.heldLinkWriteApply p k) s = .next t ∧ recov t ∧ (t.sub d).heldRetrain = false)

/-- R91, R93, R94, R98, R99, R466: how a link that is up moves between L0, L0p, L1 and Recovery, by the partner's
requests, its own that were withdrawn, and a promotion. It rests on the model's own choices in log 97, 127. -/
def Obligations.LinkStatesMove : Prop :=
  ∀ (s : State) (m : Master) (p : BitVec 5) (k : BitVec 2) (w tn : Nat) (why : Option LinkAsk)
    (rest : List (Nat × LinkAsk)),
    let P := p.toNat
    let K := k.toNat
    let d := subNode P K
    let st := PRT_LNK_STAT P K
    let x := s.sub d
    let aw := s.fget st PRT_LNK_STAT_AWIDTH
    let tw := s.fget st PRT_LNK_STAT_TWIDTH
    (linkUp s d = true → s.flag (PRT_CFG P) PRT_CFG_L1_EN = true → x.change = false →
        ∃ t, exec (.l1Entry p k) s = .next t ∧ linkPm t d = pmL1)
    ∧ (linkPm s d = pmL1 → ∃ t, exec (.l1Exit p k) s = .next t ∧ linkPm t d = if aw < tw then pmL0P else pmL0)
    ∧ (x.l0pTo = some w → w < 32 → linkUp s d = true →
        ∃ t, exec (.l0pWidthChanged p k) s = .next t ∧ t.fget st PRT_LNK_STAT_AWIDTH = w ∧ (t.sub d).l0pTo = none
          ∧ (t.sub d).change = false ∧ linkPm t d = if w < tw then pmL0P else pmL0)
    ∧ (inService s d = true → linkPm s d ≠ pmRECOV → x.ask = none →
        ∃ t, exec (.linkRecovery p k why) s = .next t ∧ linkPm t d = pmRECOV ∧ (t.sub d).change = true ∧ (t.sub d).l0pTo = none
          ∧ (t.sub d).withdrawn = x.withdrawn)
    ∧ (inService s d = true → linkPm s d ≠ pmRECOV → x.ask = some .width → (why = none ∨ givesWay s P = true) →
        ∃ t, exec (.linkRecovery p k why) s = .next t ∧ linkPm t d = pmRECOV ∧ (t.sub d).l0pTo = none
          ∧ (s.tn (nodeHalf d), LinkAsk.width) ∈ (t.sub d).withdrawn)
    ∧ (x.ask = some .width → (why = some .rate ∨ why = some .reeq) → givesWay s P = false →
        exec (.linkRecovery p k why) s = .next s)
    ∧ (linkUp s d = true → l0pMay s P K = true → w ∈ [1, 2, 4, 8, 16] → w ≤ tw → lanesOk s P K w (s.flag st PRT_LNK_STAT_REV) = true →
        x.change = false → x.ask = none →
        ∃ t, exec (.partnerL0pRequest p k w) s = .next t ∧ (t.sub d).l0pTo = some w ∧ (t.sub d).change = true)
    ∧ (x.withdrawn = (tn, .width) :: rest → tn < s.tn (nodeHalf d) → linkUp s d = true → x.change = false → l0pMay s P K = true →
        l0pFits s P K ≠ 0 → l0pFits s P K ≠ aw →
        ∃ t, exec (.changeRequestReissue p k) s = .next t ∧ (t.sub d).withdrawn = rest ∧ (t.sub d).l0pTo = some (l0pFits s P K))
    ∧ (x.rateTo = some tn → linkUp s d = true → x.change = false → s.fget (PRT_TAG_STAT P K) PRT_TAG_STAT_LIVE = 0 →
        s.fget st PRT_LNK_STAT_RATE < maxRate s P →
        ∃ t, exec (.promoteRateChange p k) s = .next t ∧ linkPm t d = pmRECOV ∧ (t.sub d).eq = true ∧ (t.sub d).change = true)
    ∧ (mayAct s m MRD_PROMOTE → finderOnly s = false →
        ∃ t, exec (.portPromote m p) s = .next t ∧ onlyRegs [MRD_PROMOTE] s t
          ∧ ∀ i, i < 32 → (t.rd MRD_PROMOTE).getLsbD i = ((s.rd MRD_PROMOTE).getLsbD i || decide (i = P)))

/-- R82 to R91, R96, R97: a failed lane is marked, and a cleared one is unmarked; a partner's coefficients are applied
when valid and otherwise counted; a lost reference gives way to the other; an eye scan starts, ends and is aborted. It
rests on the model's own choices in log 98, 99, 126, 128, 129. -/
def Obligations.LanesReferencesAndEye : Prop :=
  ∀ (s : State) (m : Master) (p : BitVec 5) (n : BitVec 4) (cm1 c0 cp1 : BitVec 6) (v : Word) (cnt err why rate c : Nat) (l : BitVec 16)
    (r : BitVec 1),
    let P := p.toNat
    let N := n.toNat
    let ls := PRT_LANE_STAT P
    let txc := PRT_TXC P N
    let ec := PRT_EYE_CTL P
    let es := PRT_EYE_STAT P
    let valid := cm1.toNat ≤ 12 ∧ cp1.toNat ≤ 18 ∧ cm1.toNat + c0.toNat + cp1.toNat = 48 ∧ cm1.toNat + cp1.toNat + 12 ≤ c0.toNat
    let rej := PRT_LERRCNT1 P (laneSub s P N)
    let d := subNode P (laneSub s P N)
    let thr := s.fget (PRT_LANE_THR P) PRT_LANE_THR_THR
    let marks (t : State) : Prop := laneFailed t P N = true ∧ ∀ i, i < 16 → i ≠ N → laneFailed t P i = laneFailed s P i
    let w := (v ||| 0x80000000) &&& 0xBFFFFFFF &&& 0x3FFFFF0F
    let act := s.fget MRD_REF_STAT MRD_REF_STAT_ACTIVE
    let okF (r : Nat) : Fld := if r = 0 then MRD_REF_STAT_A_OK else MRD_REF_STAT_B_OK
    (laneFailed s P N = false → linkUp s d = true →
        (∃ t, exec (.laneFailed p n .lock) s = .next t ∧ marks t)
        ∧ (thr < corrected s d N + c → ∃ t, exec (.laneFailed p n (.fec c)) s = .next t ∧ marks t)
        ∧ (corrected s d N + c ≤ thr → ∃ t, exec (.laneFailed p n (.fec c)) s = .next t ∧ t.regs = s.regs
            ∧ corrected t d N = corrected s d N + c))
    ∧ (mayAct s m (PRT_LANE_CLR P) → (∀ k, k < 4 → inService s (subNode P k) = false ∧ (s.sub (subNode P k)).reached = false) →
        ∃ t, exec (.laneClear m p l) s = .next t ∧ onlyRegs [ls] s t ∧ ∀ i, i < 16 → laneFailed t P i = (laneFailed s P i && !l.getLsbD i))
    ∧ (valid → (linkUp s d = true ∨ rate ≤ (s.sub d).eqRate) →
        ∃ t, exec (.partnerCoeffRequest p n rate cm1 c0 cp1) s = .next t ∧ onlyRegs [txc] s t ∧ t.fget txc PRT_TXC_CM1 = cm1.toNat
          ∧ t.fget txc PRT_TXC_C0 = c0.toNat ∧ t.fget txc PRT_TXC_CP1 = cp1.toNat)
    ∧ (¬ valid → (linkUp s d = true ∨ rate ≤ (s.sub d).eqRate) →
        ∃ t, exec (.partnerCoeffRequest p n rate cm1 c0 cp1) s = .next t ∧ onlyField s t rej PRT_LERRCNT1_EQREJ_CNT
          (min (s.fget rej PRT_LERRCNT1_EQREJ_CNT + 1) (2 ^ PRT_LERRCNT1_EQREJ_CNT.width - 1)))
    ∧ (s.fget MRD_REF_STAT MRD_REF_STAT_ACTIVE = r.toNat → refOk s (1 - r.toNat) = true →
        ∃ t, exec (.referenceLost r) s = .next t ∧ t.flag MRD_REF_STAT (okF r.toNat) = false
          ∧ t.fget MRD_REF_STAT MRD_REF_STAT_ACTIVE = 1 - r.toNat ∧ t.flag MRD_REF_STAT MRD_REF_STAT_SWITCHED = true)
    ∧ (r.toNat = act ∨ refOk s act = true →
        ∃ t, exec (.referenceRestored r) s = .next t ∧ onlyField { s with mgt := t.mgt } t MRD_REF_STAT (okF r.toNat) 1)
    ∧ (r.toNat ≠ act → refOk s act = false →
        ∃ t, exec (.referenceRestored r) s = .next t ∧ t.fget MRD_REF_STAT MRD_REF_STAT_ACTIVE = 1 - act
          ∧ t.flag MRD_REF_STAT MRD_REF_STAT_SWITCHED = true)
    ∧ (∃ t, exec .bothReferencesLost s = .next t ∧ t.flag MRD_REF_STAT MRD_REF_STAT_A_OK = false
        ∧ t.flag MRD_REF_STAT MRD_REF_STAT_B_OK = false ∧ ∀ q, q < 32 → mfind t.mgt.pclkAt q = none)
    ∧ (mayAct s m ec → s.fget es PRT_EYE_STAT_STATE ≠ 1 → eyeRefusal (s.wr ec w) P = none →
        ∃ t, exec (.eyeStart m p v) s = .next t ∧ t.fget es PRT_EYE_STAT_STATE = 1 ∧ t.rd64 (PRT_EYE_CNT_LO P) = 0
          ∧ t.rd (PRT_EYE_ERR P) = 0 ∧ t.rd ec = w)
    ∧ (mayAct s m ec → s.fget es PRT_EYE_STAT_STATE ≠ 1 → eyeRefusal (s.wr ec w) P = some why → why < 16 →
        ∃ t, exec (.eyeStart m p v) s = .next t ∧ t.fget es PRT_EYE_STAT_STATE = 3 ∧ t.fget es PRT_EYE_STAT_REASON = why)
    ∧ (mayAct s m ec → s.fget es PRT_EYE_STAT_STATE = 1 →
        ∃ t, exec (.eyeAbort m p cnt err) s = .next t ∧ t.fget es PRT_EYE_STAT_STATE = 3 ∧ t.fget es PRT_EYE_STAT_REASON = 1
          ∧ t.rd64 (PRT_EYE_CNT_LO P) = cnt % 2 ^ s.fget ec PRT_EYE_CTL_LIMIT)
    ∧ (s.fget es PRT_EYE_STAT_STATE = 1 →
        ∃ t, exec (.eyeScanDone p err) s = .next t ∧ t.fget es PRT_EYE_STAT_STATE = 2
          ∧ t.rd64 (PRT_EYE_CNT_LO P) = 2 ^ s.fget ec PRT_EYE_CTL_LIMIT
          ∧ (t.rd (PRT_EYE_ERR P)).toNat = min (min err (2 ^ s.fget ec PRT_EYE_CTL_LIMIT)) (2 ^ 32 - 1))

/-- R4, R19, R21, R22, R103, R120, R315: what becomes of a request at its ingress. One that Kezen does not support is
answered Unsupported Request, and its credit goes back; the vPPB's identity is read at the station; a request for a
device becomes a message bound for the device's sub-port, under the requester's own tag; a denied one forms no
message, is answered with poisoned data and is logged as an ACS violation. It rests on the model's own choices in log
53, 54, 135. -/
def Obligations.RequestsAreAnsweredOrForwarded : Prop :=
  ∀ (s : State) (p : BitVec 5) (k : BitVec 2) (r : ReqIn) (tn v fn off n : Nat) (dec : Bool) (pc : Piece),
    let d := subNode p.toNat k.toNat
    let h := nodeHalf d
    let asks := [(pc, pieceNeed s (rawMsg s d tn r) pc)]
    let goes := r.unsupported = false ∧ ideOpen s d = true ∧ cxlDevice s d = true ∧ reqTenant s d r = some tn ∧ inReset s tn = false
    let entered (t : State) (n : Nat) : Prop := ∃ m, t.msg s.net.next = some m ∧ t.net.next = s.net.next + 1
      ∧ m.op = r.op ∧ m.src = d ∧ m.tag = r.tag ∧ m.tenant = tn ∧ m.dst = n ∧ m.data = r.data % 2 ^ (8 * r.len) ∧ m.attr = r.attr
    let credited (t : State) : Prop := nget (t.sub d).rxCred (opClass r.op) = nget (s.sub d).rxCred (opClass r.op) + 1
    let mem := r.tgt = .pieces [pc] ∧ pc.kind = 0 ∧ pieceWin s pc = none ∧ pieceBound s h tn pc = true
      ∧ cxlDevice s (memSub pc.idx) = true
    linkUp s d = true → isRsp r.op = false →
    (r.unsupported = true → nonPosted r.op = true →
        ∃ t, exec (.requestIngress p k r) s = .next t ∧ t = { s with sent := t.sent, subs := t.subs } ∧ credited t
          ∧ t.sent = .rsp d (rspOp r.op) r.tag rkUR 0 .noop (rspId (rawMsg s d ((reqTenant s d r).getD 64) r) (rspOp r.op)) r.len r.attr
              (if rspOp r.op = .drs ∨ rspOp r.op = .h2dData then 2 ^ 512 - 1 else 0) :: s.sent)
    ∧ (goes → r.op = .cfgRd → r.tgt = .cfgVppb v 0 → v ≤ 32 → r.len = 4 →
        ∃ t, exec (.requestIngress p k r) s = .next t ∧ credited t ∧ t.net = s.net ∧ t.core = s.core ∧ t.regs = s.regs
          ∧ t.sent = .rsp d .cpl r.tag rkOK 0 .noop (tn * 64 + v) 4 r.attr 0x5120CAE5 :: s.sent)
    ∧ (goes → (r.op = .cfgRd ∨ r.op = .cfgWr) → r.tgt = .cfgBelow v fn off dec → v ≠ 0 → vppbNode s h tn v = some n → n < 128 →
        (nodeHalf n = h ∨ s.phase h = phUP) → dec = false → r.data < 2 ^ (8 * r.len) →
        ∃ t, exec (.requestIngress p k r) s = .next t ∧ entered t n)
    ∧ (goes → mem → opIsIo r.op = false → r.op ≠ .mctp → reqDenied s h tn asks = none → extMissed s h tn r.op r.len [pc] = none →
        pieceCut s h tn r.op r.len pc = false →
        ∃ t, exec (.requestIngress p k r) s = .next t ∧ entered t (memSub pc.idx))
    ∧ (goes → mem → r.op = .memRd → r.snp = .none → hostGone s tn d = false → reqDenied s h tn asks ≠ none →
        ∃ t, exec (.requestIngress p k r) s = .next t ∧ t.net = s.net ∧ t.core = s.core ∧ credited t
          ∧ .aer tn 32 aerACS (hdrOf .memRd r.tag pc.addr r.len) ∈ t.sent
          ∧ .rsp d .drs r.tag rkPOISON (s.sub (memSub pc.idx)).level .noop r.ld r.len r.attr (2 ^ 512 - 1) ∈ t.sent)

/-- R22, R104, R105, R107, R111, R116, R123, R134: the oldest message of a class leaves its sub-port. A request takes
a free entry of the port's tag table with its timeout and goes out under it, or waits for one; MemSpecRd, which
nothing answers, leaves its entry free; a posted request takes none; a response goes out under the requester's tag; a
message whose flits do not fit into the sub-port's share of the replay buffer stays. It rests on the model's own
choices in log 48, 49, 50, 75, 135. -/
def Obligations.MessagesLeaveAtEgress : Prop :=
  ∀ (s : State) (p : BitVec 5) (k : BitVec 2) (cls n e : Nat) (ecc : CellEcc) (m : Msg),
    let P := p.toNat
    let d := subNode P k.toNat
    let fits := (s.sub d).unacked + flitsOf m ≤ replayShare s d
    let left (t : State) : Prop := t.msg n = none ∧ (t.sub d).unacked = (s.sub d).unacked + flitsOf m
      ∧ nget (t.sub d).txCred (opClass m.op) = nget (s.sub d).txCred (opClass m.op) - 1
    let asks := m.src < 128 ∧ m.tgt.kind ≠ 9 ∧ isRsp m.op = false ∧ nonPosted m.op = true
    egressHead s d cls = some (n, m) → linkUp s d = true → m.itag = none →
    (fits → asks → tagFree s d m.op = true → m.op ≠ .memSpecRd → e < tagRange m.op → mfind s.net.tags (tagKey P e) = none →
        ∃ t e' x g, exec (.requestEgress p k cls .clean) s = .next t ∧ left t ∧ e' < tagRange m.op
          ∧ mfind s.net.tags (tagKey P e') = none
          ∧ mfind t.net.tags (tagKey P e') = some x ∧ x.msg = m ∧ x.sub = d ∧ x.quar = none ∧ x.tmo = portTmo s d m.op
          ∧ x.start = s.now (nodeHalf d) ∧ .req d m.op (tagField m.op g e') m.ld m.tgt.addr m.len m.hold m.snp m.tc m.attr m.poison m.data
              ∈ t.sent)
    ∧ (fits → asks → tagFree s d m.op = true → m.op = .memSpecRd → e < tagRange m.op → mfind s.net.tags (tagKey P e) = none →
        ∃ t e' g, exec (.requestEgress p k cls .clean) s = .next t ∧ left t ∧ e' < tagRange m.op
          ∧ mfind s.net.tags (tagKey P e') = none ∧ t.net.tags = s.net.tags
          ∧ .req d m.op (tagField m.op g e') m.ld m.tgt.addr m.len m.hold m.snp m.tc m.attr m.poison m.data ∈ t.sent)
    ∧ (fits → asks → tagFree s d m.op = false → exec (.requestEgress p k cls .clean) s = .next s)
    ∧ (fits → m.src < 128 → m.tgt.kind ≠ 9 → m.tgt.kind ≠ 10 → isRsp m.op = false → nonPosted m.op = false →
        ∃ t, exec (.requestEgress p k cls .clean) s = .next t ∧ left t ∧ t.net.tags = s.net.tags
          ∧ .req d m.op 0 m.ld m.tgt.addr m.len m.hold m.snp m.tc m.attr m.poison m.data ∈ t.sent)
    ∧ (fits → isRsp m.op = true → inReset s m.tenant = false → hostGone s m.tenant d = false →
        ∃ t, exec (.requestEgress p k cls .clean) s = .next t ∧ left t ∧ t.net.tags = s.net.tags
          ∧ .rsp d m.op m.tag (rspKind m) (rspLoad m) m.hold m.ld m.len m.attr m.data ∈ t.sent)
    ∧ (¬ fits →
        ∃ t, exec (.requestEgress p k cls ecc) s = .next t ∧ t.net = s.net ∧ t.core = s.core ∧ t.sent = s.sent
          ∧ (t.sub d).stalled = true)

/-- R22, R112, R114-R119: a response that matches a live entry frees it and goes on under the requester's tag; one
that matches none counts as unexpected; a late one, or one at the boundary at which its entry is due, counts and goes
nowhere. At a boundary an entry that is due is quarantined, and its requester answered; an entry whose quarantine is
over is free. It rests on the model's own choices in log 3, 136. -/
def Obligations.ResponsesAndTimeouts : Prop :=
  ∀ (s : State) (p : BitVec 5) (k : BitVec 2) (r : RspIn) (h : Half) (x : TagEnt) (e : Nat),
    let P := p.toNat
    let d := subNode P k.toNat
    let c0 := PRT_TXERRCNT0 P k.toNat
    let c1 := PRT_TXERRCNT1 P k.toNat
    let more (t : State) (a : Nat) (f : Fld) : Prop := t.fget a f = min (s.fget a f + 1) (2 ^ f.width - 1)
    (linkUp s d = true → r.internal = false → tagMatch s d r = some (e, x) → x.quar = none → tagDue s x = false → r.final = true →
        inReset s x.msg.tenant = false → hostGone s x.msg.tenant x.msg.src = false →
        (nodeHalf x.msg.src = nodeHalf d ∨ s.phase (nodeHalf d) = phUP) →
        ∃ t m, exec (.responseReceived p k r) s = .next t ∧ mfind t.net.tags e = none ∧ t.msg s.net.next = some m
          ∧ m.op = r.op ∧ m.dst = x.msg.src ∧ m.tag = x.msg.tag ∧ m.data = r.data ∧ m.attr = r.attr)
    ∧ (linkUp s d = true → r.internal = false → tagMatch s d r = none →
        ∃ t, exec (.responseReceived p k r) s = .next t ∧ more t c1 PRT_TXERRCNT1_UNEXP_CNT ∧ t.net = s.net ∧ t.core = s.core)
    ∧ (linkUp s d = true → r.internal = false → tagMatch s d r = some (e, x) → x.quar ≠ none →
        ∃ t, exec (.responseReceived p k r) s = .next t ∧ more t c0 PRT_TXERRCNT0_LATE_CNT ∧ t.net.msgs = s.net.msgs
          ∧ t.sent = s.sent ∧ (r.final = true → mfind t.net.tags e = none))
    ∧ (linkUp s d = true → r.internal = false → tagMatch s d r = some (e, x) → x.quar = none → tagDue s x = true →
        ∃ t, exec (.responseReceived p k r) s = .next t ∧ more t c0 PRT_TXERRCNT0_LATE_CNT ∧ more t c0 PRT_TXERRCNT0_CTO_CNT
          ∧ t.net.msgs = s.net.msgs ∧ (r.final = true → mfind t.net.tags e = none))
    ∧ (tagsDue s h = [] → itagsDue s h = [] → exec (.completionTimeout h) s = .next s)
    ∧ (tagsDue s h = [(e, x)] → itagsDue s h = [] → x.sub = d → x.msg.op = .mRd → x.msg.src < 128 →
        nodeHalf x.msg.src = nodeHalf d → inReset s x.msg.tenant = false → hostGone s x.msg.tenant x.msg.src = false →
        ∃ t y, exec (.completionTimeout h) s = .next t ∧ mfind t.net.tags e = some y
          ∧ y = { x with quar := some (boundaryNs s (nodeHalf d)) } ∧ more t c0 PRT_TXERRCNT0_CTO_CNT
          ∧ .rsp x.msg.src .cpl x.msg.tag rkCA 0 .noop (x.msg.tenant * 64 + 32) x.left x.msg.attr 0 ∈ t.sent
          ∧ .aer x.msg.tenant 32 aerCTO (hdrOf .mRd x.msg.tag x.msg.tgt.addr x.left) ∈ t.sent)
    ∧ (∃ t, exec (.quarantineExpiry h) s = .next t
        ∧ (∀ e x, (e, x) ∈ s.net.tags → nodeHalf x.sub = h → quarOver s h x.quar x.tmo = true → mfind t.net.tags e = none)
        ∧ ∀ e, (∀ x, (e, x) ∈ s.net.tags → nodeHalf x.sub ≠ h ∨ quarOver s h x.quar x.tmo = false) →
            mfind t.net.tags e = mfind s.net.tags e)

/-- R121-R127: a flit in turn is accepted with the credits it brings, and a replay counted; an acknowledgement frees
replay buffer space and uses no credit; with an SPDM session IDE keys make a stream Secure, and without one they do
nothing; a failed check makes it Insecure; a sample of the queue depth moves the marking level over the marks and back
below the hysteresis. It rests on the model's own choices in log 50, 51, 75. -/
def Obligations.FlitsIdeAndDevLoad : Prop :=
  ∀ (s : State) (p : BitVec 5) (k : BitVec 2) (q : BitVec 10) (fec skid nak : Bool) (a n key : Nat)
    (cred : List (Nat × Nat)),
    let P := p.toNat
    let K := k.toNat
    let d := subNode P K
    let x := s.sub d
    let ide := PRT_IDE P K
    let dup := PRT_TXERRCNT2 P K
    let b := queueDepth s d
    let lvl (t : State) : Nat := (t.sub d).level
    let on (j : Nat) : Prop := 0 < markOf s d j
    let hys := 16384 * s.fget (PRT_DLD_CFG P K) PRT_DLD_CFG_HYS
    (inService s d = true → q.toNat = (x.rxSeq + 1) % 1024 →
        ∃ t, exec (.flitReceived p k q fec cred) s = .next t ∧ countOnly { s with subs := t.subs } t
          ∧ t.sub d = { x with rxSeq := q.toNat, txCred := (t.sub d).txCred }
          ∧ (∀ j, nget (t.sub d).txCred j = nget x.txCred j + ((cred.filter fun e => e.1 == j).map fun e => e.2).sum)
          ∧ ∀ b, b ≠ d → t.sub b = s.sub b)
    ∧ (inService s d = true → q.toNat ≠ (x.rxSeq + 1) % 1024 → (x.rxSeq + 1024 - q.toNat) % 1024 < 512 →
        ∃ t, exec (.flitReceived p k q fec cred) s = .next t ∧ t.subs = s.subs
          ∧ t.fget dup PRT_TXERRCNT2_REPLAY_DUP_CNT
              = min (s.fget dup PRT_TXERRCNT2_REPLAY_DUP_CNT + 1) (2 ^ PRT_TXERRCNT2_REPLAY_DUP_CNT.width - 1))
    ∧ (∃ t, exec (.flitAckReceived p k a nak) s = .next t
        ∧ (t.sub d).unacked = x.unacked - a
        ∧ ((t.sub d).unacked < replayShare s d → (t.sub d).stalled = false)
        ∧ (t.sub d).txCred = x.txCred
        ∧ countOnly { s with subs := t.subs } t)
    ∧ (spdmOpen s d = false → ∀ st : BitVec 1, exec (.ideKeyProgram p k st skid key) s = .next s)
    ∧ (spdmOpen s d = true → ∃ t, exec (.ideKeyProgram p k 0 skid key) s = .next t ∧ onlyField { s with subs := t.subs } t ide PRT_IDE_IO_SEC 1
        ∧ t.sub d = { x with keyIo := some (key % 2 ^ 256) })
    ∧ (spdmOpen s d = true → ∃ t, exec (.ideKeyProgram p k 1 skid key) s = .next t ∧ onlyRegs [ide] { s with subs := t.subs } t
        ∧ t.flag ide PRT_IDE_MEM_SEC = true ∧ t.flag ide PRT_IDE_SKID = skid ∧ t.flag ide PRT_IDE_IO_SEC = s.flag ide PRT_IDE_IO_SEC
        ∧ t.sub d = { x with keyMem := some (key % 2 ^ 256) })
    ∧ (∀ st : BitVec 1, ∃ t, exec (.ideCheckFailed p k st) s = .next t
        ∧ t.flag ide PRT_IDE_IO_SEC = (st != 0 && s.flag ide PRT_IDE_IO_SEC)
        ∧ t.flag ide PRT_IDE_MEM_SEC = (st == 0 && s.flag ide PRT_IDE_MEM_SEC) ∧ t.net = s.net ∧ t.core = s.core)
    ∧ (∃ t, exec (.devloadSample p k) s = .next t
        ∧ (x.level < n → n < 4 → on n → markOf s d n < b → (∀ j, n < j → j < 4 → on j → b ≤ markOf s d j) → lvl t = n)
        ∧ ((∀ j, x.level < j → j < 4 → on j → b ≤ markOf s d j) →
            (x.level = 0 ∨ on x.level ∧ markOf s d x.level ≤ b + hys → lvl t = x.level)
            ∧ (n < x.level → b + hys < markOf s d x.level → (n = 0 ∨ on n) → (∀ j, n < j → j < x.level → ¬ on j) → lvl t = n)))

/-- R133, R141, R142, R145-R147: an arriving cell joins the tail of its queue in the first pool that takes it, or
waits behind a held cell of its source and class; a held cell that a pool now takes joins its queue; a matched message
crosses to the input of its unit or to the egress buffer of its sub-port. It rests on the model's own choices in log
74, 75. -/
def Obligations.CellsAreAdmittedAndCross : Prop :=
  ∀ (s : State) (h : Half) (st n q : Nat) (c : Cell) (m : Msg) (r rest : List (Nat × Cell)) (l : List Cell) (v : Voq) (pl : Pool)
    (blocked : List Nat),
    let C := s.core.get h
    let d := keyDest q
    let x := d * 9 + clsOf m
    let joins (t : State) (pl : Pool) : Prop := ((t.core.get h).voq q).chip = (C.voq q).chip ++ [{ c with pool := pl }]
    let open_ := cellMc s c = false ∧ catFull s c = false ∧ (C.voq q).spilled = false ∧ plainPool s h q [d] (cellYellow s c) = some pl
    let alone := C.voqs = [(q, v)] ∧ C.mcq = [] ∧ C.spill = [] ∧ C.busy = [] ∧ lget C.inbox 28 = [] ∧ keyStation q < 32
      ∧ headGroup v.chip = some ([c], l) ∧ c.msgs = [n] ∧ s.msg n = some m
    (lget C.formed st = (q, c) :: r → cellDead s h c = [] → classHeld s h st q c = false → open_ →
        ∃ t, exec (.cellArrival h st) s = .next t ∧ joins t pl ∧ lget (t.core.get h).formed st = r)
    ∧ (lget C.formed st = (q, c) :: r → cellDead s h c = [] → classHeld s h st q c = true →
        ∃ t, exec (.cellArrival h st) s = .next t ∧ lget (t.core.get h).held st = lget C.held st ++ [(q, c)] ∧ (t.core.get h).voqs = C.voqs)
    ∧ (open_ → lget C.held st = (q, c) :: rest →
        ∃ t, exec (.heldCellAdmit h st (keyCls q)) s = .next t ∧ joins t pl ∧ lget (t.core.get h).held st = rest)
    ∧ (alone → 72 ≤ d → d ≠ 76 → egrUsed s h d (clsOf m) ≤ 63 → x ∉ blocked →
        ∃ t, exec (.volleyDecision h blocked .clean .clean) s = .next t ∧ ((t.core.get h).voq q).chip = l
          ∧ lget (t.core.get h).inbox (d - 48) = lget C.inbox (d - 48) ++ [n] ∧ (t.core.get h).slot = C.slot + 1)
    ∧ (alone → d < 64 → destReady s h blocked d 1 [m] = true →
        ∃ t, exec (.volleyDecision h blocked .clean .clean) s = .next t ∧ ((t.core.get h).voq q).chip = l
          ∧ lget (t.core.get h).egr x = lget C.egr x ++ [(n, 1)] ∧ (t.core.get h).slot = C.slot + 1)

/-- R143, R148-R154, R464: a cell that has crossed to station 29 goes to the tail of its deep segment, a pushed-out
one to its head; it waits while the Deep Field is not ready or its queue is at its limit of pages; a page that returns
joins the on-chip segment in order. CORE_CTL.LOCK and DF_EN set by a write of 1, DF_EN not in Finder service. It rests
on the model's own choices in log 73. -/
def Obligations.DeepFieldAndCoreControl : Prop :=
  ∀ (s : State) (m : Master) (h : Half) (st q : Nat) (c : Cell) (r : List (Nat × Cell)) (pg : List Cell) (rest : List (List Cell)),
    let C := s.core.get h
    let V := C.voq q
    let a := CORE_CTL h
    let used := CORE_DF_STAT h
    let new := if c.po then deepPushOut V.deep c else deepAppend V.deep c
    let room := dfUsed s h + new.length ≤ dfPages s h + V.deep.length
    let within := voqPages V + new.length ≤ voqPageMax s h + V.deep.length
    (lget C.writer st = (q, c) :: r → dfReady s h = true → room → within →
        ∃ t, exec (.spillWrite h st) s = .next t ∧ lget (t.core.get h).writer st = r ∧ ((t.core.get h).voq q).deep = new
          ∧ ((t.core.get h).voq q).chip = V.chip
          ∧ t.fget used CORE_DF_STAT_USED = (dfUsed s h + new.length - V.deep.length) % 2 ^ CORE_DF_STAT_USED.width)
    ∧ ((lget C.writer st = [] ∨ dfReady s h = false) → exec (.spillWrite h st) s = .next s)
    ∧ (lget C.writer st = (q, c) :: r → dfReady s h = true → room → ¬ within → exec (.spillWrite h st) s = .next s)
    ∧ (lget C.writer st = (q, c) :: r → dfReady s h = true → ¬ room →
        ∃ t, exec (.spillWrite h st) s = .next t ∧ t.core = s.core)
    ∧ (V.ret = pg :: rest → dfReady s h = true →
        ∃ t, exec (.deepFieldReturn h q .clean) s = .next t ∧ ((t.core.get h).voq q).ret = rest
          ∧ ((t.core.get h).voq q).chip = V.chip ++ pg ∧ ((t.core.get h).voq q).deep = V.deep
          ∧ t.fget used CORE_DF_STAT_USED = (dfUsed s h - 1) % 2 ^ CORE_DF_STAT_USED.width)
    ∧ (V.ret = [] → exec (.deepFieldReturn h q .clean) s = .next s)
    ∧ (mayAct s m a → ∃ t, exec (.coreLockSet m h) s = .next t ∧ onlyField s t a CORE_CTL_LOCK 1)
    ∧ (mayAct s m a → finderOnly s = false →
        ∃ t, exec (.dfEnable m h) s = .next t ∧ onlyRegs [a, CORE_STAT h] s t ∧ t.flag a CORE_CTL_DF_EN = true
          ∧ t.flag (CORE_STAT h) CORE_STAT_DF_READY = (!s.flag (QOS_ROT_STAT h) QOS_ROT_STAT_RESTART && !rotFenced s h 0))
    ∧ (mayAct s m a → finderOnly s = true → ∃ t, exec (.dfEnable m h) s = .next t ∧ t.rd a = s.rd a ∧ t.core = s.core)

/-- R166-R178: a flit in turn is accepted with its cells and XOFF; one that fails its CRC delivers nothing and calls
for a NAK, an idle one or one out of turn delivers nothing; a NAK restarts the replay behind the last flit accepted,
and the sixteenth in a row takes the bridge down; a failed wire is marked and remapped, a returned one is good again;
a transmitter with nothing to do enters Doze and leaves it when it has something to send. It rests on the model's own
choices in log 77, 139, 141. -/
def Obligations.BridgeFlitsAndWires : Prop :=
  ∀ (s : State) (m : Master) (h : Half) (g : BitVec 3) (f : BFlit) (w : Nat) (lost : Bool) (v : BitVec 7) (flips : List Nat),
    let o := h.other
    let G := g.toNat
    let B := s.cdb.get h
    let due := ((mfind B.rxSeq G).getD 255 + 1) % 256
    let rx (t : State) : List (Nat × Cell) := lget (t.core.get h).formed (16 + G)
    let got := bodyTake f.body (mfind B.part G)
    let after := bgrp (bridgeAck s h G ((mfind (s.cdb.get o).rxSeq G).getD 255)) h G
    let far := bgrp s o G
    let naks := grpWidth s h G ≠ 2 ∧ far.remap = false ∧ (s.cdb.get o).naking.contains G = true
    let st := CDB_STAT h
    let W := v.toNat
    let sent := grpWidth s h G ≠ 2 ∧ (flitSend s o G).1 = some f
    let kept (t : State) : Prop := t.core = s.core ∧ t.net = s.net ∧ (t.cdb.get h).rxSeq = B.rxSeq ∧ (t.cdb.get h).part = B.part
    (grpWidth s h G ≠ 2 → (flitSend s o G).1 = none → exec (.bridgeFlitReceived h g flips) s = .next (flitSend s o G).2)
    ∧ (sent → crcPasses flips = false →
        ∃ t, exec (.bridgeFlitReceived h g flips) s = .next t ∧ kept t ∧ (t.cdb.get h).naking.contains G = true)
    ∧ (sent → crcPasses flips = true → flitIdle f.body = false → f.seq = due → B.cross = [] →
        ∃ t, exec (.bridgeFlitReceived h g flips) s = .next t ∧ mfind (t.cdb.get h).rxSeq G = some f.seq
          ∧ (t.cdb.get h).xoffRx = (s.cdb.get o).xoffTx ∧ mfind (t.cdb.get h).part G = got.1
          ∧ (rx t).map (fun e => (e.2.msgs, e.2.slots)) = (rx s ++ got.2).map fun e => (e.2.msgs, e.2.slots))
    ∧ (sent → crcPasses flips = true → (flitIdle f.body = true ∨ f.seq ≠ due) →
        ∃ t, exec (.bridgeFlitReceived h g flips) s = .next t ∧ kept t ∧ (t.cdb.get h).xoffRx = (s.cdb.get o).xoffTx)
    ∧ (naks → after.naks ≠ 15 →
        ∃ t, exec (.bridgeNakReceived h g) s = .next t ∧ bgrp t h G = { after with pos := 0, naks := after.naks + 1 }
          ∧ (t.cdb.get o).naking.contains G = false)
    ∧ (naks → after.naks = 15 → s.phase .east = phUP →
        ∃ t, exec (.bridgeNakReceived h g) s = .next t ∧ t.phase .east = phRETRAIN ∧ t.phase .west = phRETRAIN)
    ∧ ((s.cdb.get o).naking.contains G = false → exec (.bridgeNakReceived h g) s = .next s)
    ∧ (w < 66 → bitB (wmapNat s h G) w = false → (lost = true ∨ wparOver s h G w = true) → s.phase h = phUP → 33 ≤ wiresGood s h G →
        wireUsed s h G w = true →
        ∃ t, exec (.wireFailed h g w lost) s = .next t ∧ bitB (wmapNat t h G) w = true
          ∧ (h = .east ∨ (bgrp s .west G).remap = false → (bgrp t o G).remap = true)
          ∧ t.fget (CDB_ERRCNT1 h) CDB_ERRCNT1_REMAP_CNT
              = min (s.fget (CDB_ERRCNT1 h) CDB_ERRCNT1_REMAP_CNT + 1) (2 ^ CDB_ERRCNT1_REMAP_CNT.width - 1))
    ∧ (lost = false → wparOver s h G w = false → exec (.wireFailed h g w lost) s = .next s)
    ∧ (W < 66 → mayAct s m (CDB_WMAP h G (W / 32)) →
        ∃ t, exec (.wireReturn m h g v) s = .next t ∧ bitB (wmapNat t h G) W = false
          ∧ ∀ i, i < 66 → i ≠ W → bitB (wmapNat t h G) i = bitB (wmapNat s h G) i)
    ∧ (far.remap = true → ∃ t, exec (.wireRemapDone h g) s = .next t
        ∧ bgrp t o G = { far with remap := false, pos := 0, map := wmapNat s h G })
    ∧ (far.remap = false → exec (.wireRemapDone h g) s = .next s)
    ∧ (s.flag (CDB_CTL h) CDB_CTL_DOZE_EN = true → (bgrp s h G).wait = [] → (bgrp s h G).replay = [] → (bgrp s h G).remap = false →
        grpWidth s o G ≠ 2 → B.xoffTx = (s.cdb.get o).xoffRx →
        (bgrp s h G).idle + 8 * max 1 (s.fget (CDB_CTL h) CDB_CTL_DOZE_IDLE) ≤ s.now h →
        ∃ t, exec (.dozeEnter h g) s = .next t ∧ onlyRegs [st] s t ∧ bitB (t.fget st CDB_STAT_DOZE) G = true)
    ∧ (hasCause s h G = true → ∃ t, exec (.dozeExit h g) s = .next t ∧ onlyRegs [st] s t
        ∧ ∀ i, i < 8 → bitB (t.fget st CDB_STAT_DOZE) i = (bitB (s.fget st CDB_STAT_DOZE) i && i != G))
    ∧ (hasCause s h G = false → exec (.dozeExit h g) s = .next s)

/-- R180-R182, R186: when the bridge goes down from UP both halves retrain, nothing stays in its groups and every
crossing entry ends; groups that train within 15 µs bring it UP again; after 15 µs each half declares the split and
notes the time; a crossing entry is free once its quarantine is over. It rests on the model's own choices in log 4,
78, 142. -/
def Obligations.BridgeDownAndSplit : Prop :=
  ∀ (s : State) (h : Half),
    let both (t : State) (ph : Nat) : Prop := t.phase .east = ph ∧ t.phase .west = ph
    let at0 := (s.cdb.get .east).downAt.getD 0
    let w := 2 * toNs (s.fget (CDB_CTL h) CDB_CTL_XQ)
    (s.phase .east = phUP → SMap.wf (s.cdb.get .east).cross = true → SMap.wf (s.cdb.get .west).cross = true →
        ∃ t, exec .bridgeDown s = .next t ∧ both t phRETRAIN ∧ (t.cdb.get h).grps = []
          ∧ ∀ e ∈ (t.cdb.get h).cross, e.2.quar ≠ none)
    ∧ (s.phase .east = phRETRAIN ∨ s.phase .east = phSPLIT → exec .bridgeDown s = .next s)
    ∧ (s.phase .east = phRETRAIN → bridgeTrains s = true → s.now .east ≤ at0 + 15000 →
        ∃ t, exec .bridgeRetrained s = .next t ∧ both t phUP ∧ (t.cdb.get h).downAt = none)
    ∧ (s.phase .east = phRETRAIN → at0 + 15000 ≤ s.now .east →
        ∃ t, exec .splitDeclared s = .next t ∧ both t phSPLIT ∧ t.rd64 (CDB_SPLIT_AT_LO h) = s.now h
          ∧ t.flag (CDB_STAT h) CDB_STAT_ISLANDED = (s.auth h != h))
    ∧ (∃ t, exec (.crossingQuarantineExpiry h) s = .next t ∧ t = { s with cdb := t.cdb }
        ∧ ∀ e, e ∈ (t.cdb.get h).cross ↔
            e ∈ (s.cdb.get h).cross ∧ ∀ q, e.2.quar = some q → boundaryNs s h < q + w)

/-- R190, R191, R194: a rejoin goes from an attempt through LOCK, SYNC and RECONCILE to UP, each step when its
condition holds, and a resynchronised mirror is protected again. It rests on the model's own choices in log 72, 79. -/
def Obligations.RejoinSteps : Prop :=
  ∀ (s : State) (m : Master) (h : Half) (t0 : Nat),
    let both (t : State) (ph : Nat) : Prop := t.phase .east = ph ∧ t.phase .west = ph
    (mayAct s m (CDB_CTL h) → ∃ t, exec (.rejoinRequest m h) s = .next t ∧ (t.cdb.get h).attemptReq = true
        ∧ t.rd (CDB_CTL h) = s.rd (CDB_CTL h) &&& 0xFFFF3 ∧ ∀ a, a ≠ CDB_CTL h → t.rd a = s.rd a)
    ∧ (s.tn h % 100000 = 0 → s.flag (CDB_CTL h) CDB_CTL_REJOIN_AUTO = true → s.phase .east = phSPLIT →
        ∃ t, exec (.rejoinAutoAttempt h) s = .next t ∧ t.regs = s.regs ∧ (t.cdb.get .east).attempt = some (s.now .east)
          ∧ (t.cdb.get .west).attempt = some (s.now .west))
    ∧ (s.tn h % 100000 ≠ 0 → exec (.rejoinAutoAttempt h) s = .next s)
    ∧ ((s.cdb.get .east).attempt = some t0 → s.phase .east = phSPLIT → bridgeTrains s = true → s.now .east ≤ t0 + 15000 →
        ∃ t, exec .rejoinTrained s = .next t ∧ both t phLOCK ∧ (t.cdb.get .east).attempt = none)
    ∧ (s.phase .east = phLOCK → merApart s ≤ 2 * nsU →
        ∃ t, exec .rejoinLockDone s = .next t ∧ both t phSYNC ∧ (t.cdb.get h).lockEnd = some (s.now h))
    ∧ (s.phase .east = phRECONCILE → s.fget (CDB_QLINES .east) CDB_QLINES_QLINES = 0 →
        s.fget (CDB_QLINES .west) CDB_QLINES_QLINES = 0 →
        ∃ t, exec .rejoinReconciled s = .next t ∧ (t.cdb.get .east).upNext = true ∧ (t.cdb.get .west).upNext = true ∧ t.regs = s.regs)
    ∧ ((s.cdb.get h).resync = true →
        ∃ t, exec (.mirrorResyncDone h) s = .next t ∧ (t.cdb.get h).resync = false ∧ (t.cdb.get h).regions = []
          ∧ t.flag (CDB_STAT h) CDB_STAT_MIRROR_UNPROT = false)

/-- R204, R209-R216, R464: CANCEL of a staged row; the wait of a managed removal that runs out; a slot's power by the
FM and by a host; presence that is accepted, PERST that is released, and a surprise removal, reported to the FM and
the bound vPPBs. It rests on the model's own choices in log 95, 96, 116, 154. -/
def Obligations.RowsSlotsAndPresence : Prop :=
  ∀ (s : State) (m : Master) (h : Half) (a w cci i : Nat) (t : BitVec 6) (v : BitVec 5) (p : BitVec 5) (on : Bool) (tk : BitVec 16)
    (e : Nat × Nat × Nat × Nat) (lost : Bool),
    let T := t.toNat
    let V := v.toNat
    let P := p.toNat
    let row := SHT_PSTAGE P 0
    let st := PRT_SLOT_STAT P
    let staged (u : State) (on : Bool) : Prop := u.rd row = BitVec.ofNat 32 ((if on then 1 else 2) * 2 ^ 28)
      ∧ u.rd (row + 8) = BitVec.ofNat 32 tk.toNat
    let told (u : State) (f : Vp → Prop) : Prop := ∀ d ∈ portNodes s P, ∀ x ∈ vppbsOf s (nodeHalf d) d, f (u.vp x.1 x.2)
    let here := s.flag st PRT_SLOT_STAT_PRSNT
    let drop := s.flag st PRT_SLOT_STAT_PWR && (if lost then !here else (portNodes s P).any fun d => !inService s d)
    (mayAct s m a → a ≠ UMP_GSTAGE .east 0 → rowWord2 a = some (h, w) → (s.rd w).getLsbD 31 = false →
        ∃ u, exec (.rowCancel m a) s = .next u ∧ onlyRegs [w] { s with mgt := u.mgt } u ∧ u.rd w = s.rd w ||| 0x80000000
          ∧ u.mgt.lateCancel = if (s.trp.get h).sealed then w :: s.mgt.lateCancel else s.mgt.lateCancel)
    ∧ ((s.mgt.managed.find? fun e => e.1 == T && e.2.1 == V) = some e → e.2.2.1 = SF_BSTAGE T i 0 → i < 128 →
        e.2.2.2 + max 1 (s.fget (SF_TEN_CTL T) SF_TEN_CTL_HP_WAIT) * 1000000 ≤ s.now (tenantHalf T) →
        ∃ u, exec (.hpWaitExpiry t v) s = .next u ∧ u.rd e.2.2.1 = s.rd e.2.2.1 ||| 0x04000000
          ∧ (∀ x ∈ u.mgt.managed, ¬ (x.1 = T ∧ x.2.1 = V))
          ∧ u.fget (SF_TEN_ERRCNT T) SF_TEN_ERRCNT_HPWAIT_CNT = min (s.fget (SF_TEN_ERRCNT T) SF_TEN_ERRCNT_HPWAIT_CNT + 1)
              (2 ^ SF_TEN_ERRCNT_HPWAIT_CNT.width - 1))
    ∧ (rowTaken s row = false → mfind s.mgt.bg cci = none → cciReach s cci [chanHalf P] = true →
        ∃ u, exec (.slotPower cci p on tk) s = .next u ∧ staged u on ∧ .ans opSLOTPWR rcSTARTED [cci, 0] ∈ u.sent
          ∧ mfind u.mgt.bg cci = some ⟨opSLOTPWR, [row], 0, false, []⟩)
    ∧ (rowTaken s row = true → ∃ u, exec (.slotPower cci p on tk) s = .next u ∧ .ans opSLOTPWR rcBUSY [cci, exBUSY] ∈ u.sent
          ∧ u.mgt = s.mgt)
    ∧ (ownsSlot s T V = [P] → rowTaken s row = false →
        ∃ u, exec (.hostPowerControlWrite t v (!on) tk) s = .next u ∧ staged u on ∧ (u.vp T V).off = !on)
    ∧ (here ≠ on → prsntStable s P on = true →
        ∃ u, exec (.presenceAccepted p on) s = .next u ∧ u.flag st PRT_SLOT_STAT_PRSNT = on
          ∧ .out outFMREC [18, 0, P] ∈ u.sent ∧ told u fun x => x.pds = on ∧ x.pdc = true)
    ∧ ((here = on ∨ prsntStable s P on = false) → exec (.presenceAccepted p on) s = .next s)
    ∧ (perstMay s P = true → ∃ u, exec (.perstRelease p) s = .next u ∧ onlyField s u st PRT_SLOT_STAT_PERST 0)
    ∧ (perstMay s P = false → exec (.perstRelease p) s = .next s)
    ∧ (drop = true → ∃ u, exec (.surpriseRemoval p lost) s = .next u ∧ .out outFMREC [18, 1, P] ∈ u.sent
          ∧ told u fun x => x.pds = here ∧ x.pdc = true ∧ x.dllsc = true)
    ∧ (drop = false → exec (.surpriseRemoval p lost) s = .next s)

/-- R208, R217, R218, R220: every cause of a tenant reset sets RST, notes the Transit, queues the Catalogue's scrub in
both halves and resets the Service Function, unless one is under way; it ends at a later boundary with none of the
tenant's cells queued. FM_CCI stands in one tenant alone. A Secondary Bus Reset below goes to what the vPPB is bound
to. It rests on the model's own choices in log 116. -/
def Obligations.TenantResets : Prop :=
  ∀ (s : State) (m : Master) (h : Half) (t : BitVec 6) (p v : BitVec 5) (k : BitVec 2) (w : Word) (b : VBind),
    let T := t.toNat
    let d := subNode p.toNat k.toNat
    let H := tenantHalf T
    let begun (u : State) : Prop := inReset u T = true ∧ mfind u.mgt.rstAt T = some (s.tn H) ∧ (.scrub T) ∈ (u.cat.get h).jobs
      ∧ (u.fn T 0).flr.isSome = true ∧ u.fget (SF_PF_STAT T) SF_PF_STAT_NUMVF = 0
    let ctl := SF_TEN_CTL T
    let bound := v ≠ 0 ∧ mfind (s.binds.get H).vb (vpKey T v.toNat) = some b
    (inReset s T = false → uspTenant s (nodeHalf d) d = some T → ∃ u, exec (.hotResetReceived p k) s = .next u ∧ begun u)
    ∧ (inReset s T = false → ∃ u, exec (.sbrUpstream t) s = .next u ∧ begun u)
    ∧ (mayAct s m (SF_TEN_RST T) → inReset s T = false → w.getLsbD 0 = true →
        ∃ u, exec (.tenantResetWrite m t w) s = .next u ∧ begun u)
    ∧ (inReset s T = true → exec (.sbrUpstream t) s = .next s)
    ∧ (inReset s T = true → mfind s.mgt.rstAt T ≠ some (s.tn H) → tenantQueued s .east T = false → tenantQueued s .west T = false →
        ∃ u, exec (.tenantResetEnd t) s = .next u ∧ inReset u T = false ∧ mfind u.mgt.rstAt T = none ∧ T ∉ u.viral)
    ∧ (inReset s T = true → tenantQueued s h T = true → exec (.tenantResetEnd t) s = .next s)
    ∧ (mayAct s m ctl → ∃ u, exec (.fmCciWrite m t w) s = .next u ∧ u.fget ctl SF_TEN_CTL_HP_WAIT = bits w.toNat 23 8
        ∧ u.flag ctl SF_TEN_CTL_FM_CCI = w.getLsbD 0
        ∧ ∀ x, x < 64 → x ≠ T → u.flag (SF_TEN_CTL x) SF_TEN_CTL_FM_CCI = (!w.getLsbD 0 && s.flag (SF_TEN_CTL x) SF_TEN_CTL_FM_CCI))
    ∧ (∃ u, exec (.sbrDownstream t 0) s = .next u ∧ (u.fn T 0).flr.isSome = true)
    ∧ (bound → ∃ u, exec (.sbrDownstream t v) s = .next u ∧ u.regs = s.regs ∧ (u.vp T v.toNat).pdc = false
        ∧ u.sent = match b.ld with
          | none => .out outHOTRST [b.sub] :: s.sent
          | some l => if b.share then s.sent else .out outLDRST [b.sub, l] :: s.sent)

/-- R233-R239, R246, R249, R250: the Catalogue serves a shared read of a line it does not hold by reading the device,
and of a line with a slot from the Line Store; a waiting request goes on when its line is free; snoop responses and
write-backs join their transaction; a completed device write ends a Line Store eviction, and a failed one keeps the
slot and bars its way; a BIConflict is acknowledged to its host. It rests on the model's own choices in log 61, 65,
148, 150, 152. -/
def Obligations.CatalogueServesRequests : Prop :=
  ∀ (s : State) (h : Half) (n w k i id t d : Nat) (m : Msg) (e : CatEnt) (sl : LsSlot) (x : Txn) (way : Nat) (r : IDone) (cw : CatWr),
    let c := s.cat.get h
    let set := setOf s h (lineWin k) (lineL k)
    let alone := lget (s.core.get h).inbox 30 = [n] ∧ s.msg n = some m
    let carried := nodeHalf m.src = h ∨ s.phase h = phUP ∨ s.phase h = phRETRAIN
    let shared := m.op = .memRd ∧ m.hold = .s ∧ m.itag = none ∧ m.src < 128 ∧ m.deny = false ∧ carried
    let line := findWin s h (memSub m.tgt.idx) (memLd m.tgt.idx) m.tgt.addr = some w ∧ k = lineKey w ((m.tgt.addr - winBase s h w) / 64)
      ∧ lineWin k = w
    let calm := catRoom s h = true ∧ c.pass = none ∧ c.taintFull = false ∧ scrubQueued s h m.tenant = false ∧ slotFenced s h k = false
      ∧ txnOf s h k = none ∧ lineAwaited s h k = false
    let fresh := lineWin k < 64 ∧ findEnt s h k = none ∧ tainted s h set = false ∧ (freeWay s h set).isSome = true
    let asked (u : State) : Prop := (∃ y, txnOf u h k = some y ∧ y.kind = .rdS ∧ y.msg = some m ∧ y.devRd = 1 ∧ y.pend = [])
      ∧ (findEnt u h k).any (fun z => z.2.hold = 0 ∧ z.2.slot = none ∧ z.2.age = 2) = true
      ∧ ∃ q, u.msg s.net.next = some q ∧ q.op = .memRd ∧ q.dst = winSub s h (lineWin k) ∧ q.tag = k ∧ q.len = 64
          ∧ q.tgt.addr = winBase s h (lineWin k) + 64 * lineL k
    let answer (u : State) (op : Op) : Prop := ∃ q, u.msg s.net.next = some q ∧ q.op = op ∧ q.dst = m.src ∧ q.tag = m.tag
      ∧ (op = .drs → q.data = lineSlice sl.data m.tgt.addr m.len ∧ q.hold = .s ∧ q.poison = e.psn)
    let slot (u : State) : Option LsSlot := mfind (u.cat.get h).slots (slotKey e.win e.l way)
    let held := findEnt s h k = some (i, e)
    let entry (u : State) : Option CatEnt := mfind (u.cat.get h).ents i
    let failed (u : State) : Prop := u.fget (CAT_ERRCNT2 h) CAT_ERRCNT2_LSWB_FAIL
      = min (s.fget (CAT_ERRCNT2 h) CAT_ERRCNT2_LSWB_FAIL + 1) (2 ^ CAT_ERRCNT2_LSWB_FAIL.width - 1)
    (alone → shared → line → calm → fresh → ∃ u, exec (.catalogueRequest h .clean) s = .next u ∧ asked u)
    ∧ (alone → shared → line → calm → held → e.excl = false → quarantined s h e = false → e.slot = some way → slot s = some sl →
        ∃ u, exec (.catalogueRequest h .clean) s = .next u ∧ answer u .drs ∧ txnOf u h k = none
          ∧ (entry u).any (fun z => bitB z.hold m.tenant && z.age = 3) = true)
    ∧ (alone → shared → catRoom s h = false → exec (.catalogueRequest h .clean) s = .next s)
    ∧ (waitNext s h = some (n, m) → msgLine s h m = some k → c.pass = none → shared → fresh →
        ∃ u, exec (.waitPoolResume h) s = .next u ∧ asked u ∧ (u.cat.get h).wait = c.wait.erase n)
    ∧ (alone → m.op = .biRsp → m.tag = k → m.tenant = t → m.hold = .i → txnOf s h k = some x → x.snp = .inv → t ∈ x.pend → held →
        (x.pend.erase t ≠ [] → ∃ u, exec (.snoopResponseReceived h) s = .next u
            ∧ txnOf u h k = some { x with pend := x.pend.erase t, keep := .i }
            ∧ (entry u).any (fun z => z.hold = holdClr e.hold t) = true)
        ∧ (x.pend = [t] → x.kind = .recall → x.devRd = 0 → x.devWr = false → x.writes = [] → e.hold = 2 ^ t → e.slot = none →
            ∃ u, exec (.snoopResponseReceived h) s = .next u ∧ txnOf u h k = none ∧ entry u = none))
    ∧ (alone → msgLine s h m = some k → isWriteBack s h k m = true → m.itag = none → carried → txnOf s h k = some x → held →
        e.slot = some way →
        ∃ u, exec (.writeBackReceived h) s = .next u ∧ answer u .ndr ∧ (slot u).any (fun z => z.data = m.data) = true
          ∧ txnOf u h k = some { x with wb := some m.data, data := m.data, poison := m.poison }
          ∧ entry u = some { e with slot := some way, psn := m.poison })
    ∧ (s.net.idone = [r] → r.half = h → r.own = .catWrite k id → txnOf s h k = some x → x.kind = .lsEvict → x.pend = [] →
        x.writes = [cw] → cw.id = id → cw.use = .slot → x.devRd = 0 → x.devWr = false → held → e.hold ≠ 0 → e.slot = some way →
        slot s = some sl →
        ∃ u, exec (.deviceWriteComplete h) s = .next u ∧ txnOf u h k = none
          ∧ (r.ok = true → slot u = none ∧ entry u = some { e with slot := none, psn := false })
          ∧ (r.ok = false → slot u = some { sl with barred := s.tn h + 1024 } ∧ entry u = some e ∧ failed u))
    ∧ (s.net.idone = [r] → r.half = h → r.own = .catWrite k id → r.ok = true → txnOf s h k = some x → x.kind = .recall → x.pend = [] →
        x.writes = [cw] → cw.id = id → cw.use = .absorb (some m) → x.devRd = 0 → x.devWr = false → m.op = .memWr → m.itag = none →
        m.src < 128 → carried → findEnt s h k = none →
        ∃ u, exec (.deviceWriteComplete h) s = .next u ∧ txnOf u h k = none ∧ answer u .ndr)
    ∧ (uspOf s h t = some d → ∃ u q, exec (.biconflictReceived h t k) s = .next u ∧ u.msg s.net.next = some q ∧ q.op = .ndr
          ∧ q.dst = d ∧ q.tag = k ∧ q.snp = .cur ∧ q.gen = s.net.next ∧ u.cat = s.cat ∧ u.regs = s.regs)

/-- R242-R245, R254, R255, R258, R464: the taint list, the walker's passes, and the image of the Catalogue with its
mirror. It rests on the model's own choices in log 66, 68, 71, 72, 151, 153. -/
def Obligations.CatalogueWalkerAndImage : Prop :=
  ∀ (s : State) (m : Master) (h : Half) (j : BitVec 4) (w : Nat) (late : Bool) (js : List CatJob),
    let c := s.cat.get h
    let st := CAT_STAT h
    let tn (i : Nat) := CAT_TAINT h i
    let I := j.toNat
    let ctl := CAT_CTL h
    let go := c.jobs.filter (jobGoes s h)
    (mayAct s m (tn I) → ∃ u, exec (.taintLift m h j) s = .next u ∧ onlyRegs [tn I, st] s u ∧ u.flag (tn I) CAT_TAINT_VALID = false
        ∧ u.flag st CAT_STAT_TAINTED = (List.range 16).any fun i => i != I && s.flag (tn i) CAT_TAINT_VALID)
    ∧ (c.pass = none → go ≠ [] → ∃ u, exec (.passStart h) s = .next u ∧ (u.cat.get h).pass = some go
        ∧ (u.cat.get h).jobs = c.jobs.filter (fun j => !jobGoes s h j) ∧ u.flag st CAT_STAT_PASS = true)
    ∧ ((c.pass.isSome = true ∨ go = []) → exec (.passStart h) s = .next s)
    ∧ (c.pass = some js → ∃ u, exec (.passEnd h) s = .next u
        ∧ (u.cat.get h).pass = (if disabling u h then some js else none)
        ∧ (disabling u h = false → u.flag st CAT_STAT_PASS = false)
        ∧ (js = [.disable w late] → w < 64 → c.ents = [] → c.txns = [] →
            u.rd (CAT_WIN_CTL h w) = s.rd (CAT_WIN_CTL h w) &&& 0x5FFFFFFF))
    ∧ (c.pass = none → exec (.passEnd h) s = .next s)
    ∧ (mayAct s m ctl → finderOnly s = false → s.flag ctl CAT_CTL_IMG_EN = false →
        ∃ u, exec (.imageEnable m h) s = .next u ∧ onlyField { s with cat := u.cat } u ctl CAT_CTL_IMG_EN 1
          ∧ (u.cat.get h).copying = true)
    ∧ (c.copying = true → ∃ u, exec (.imageCopyDone h) s = .next u ∧ u.flag st CAT_STAT_IMG = true ∧ (u.cat.get h).copying = false
        ∧ (∀ e ∈ (u.cat.get h).ents, e.1 ∈ setKeys (setFull e.2.win e.2.l))
        ∧ (mirrorAway s h = false → ∀ e ∈ (u.cat.get h).ents, mfind (u.cat.get h).mirror e.1 = some (entWord (some e.2)))
        ∧ (mirrorAway s h = true → ∀ e ∈ (u.cat.get h).ents, regionOf e.1 ∈ (u.cdb.get h).regions))
    ∧ (c.copying = false → exec (.imageCopyDone h) s = .next s)

/-- R266, R272-R274, R286, R287, R289, R464: what becomes of a contribution line: applied once, a duplicate discarded
and counted, one for no job rejected and counted; a ready partial joins its home frame; a written chunk advances
WBASE; a failed result line is tried again and then ends its job; a job that has run out of time is aborted. It rests
on the model's own choices in log 83, 84, 86, 156. -/
def Obligations.StackerTakesLinesAndEndsJobs : Prop :=
  ∀ (s : State) (m : Master) (h : Half) (q : BitVec 2) (j : BitVec 10) (kk : BitVec 14) (n i k : Nat) (g : Msg) (x : Job) (p : Chunk) (d : IDone),
    let J := j.toNat
    let H := jobHalf J
    let K := kk.toNat
    let st := jobStat J
    let c := x.chunk k
    let l := lineIn x.ctx g
    let c' := applyLine x k l g.data { c with lines := nset c.lines l (nget c.lines l ||| 2 ^ i) }
    let arrives := lget (s.core.get h).inbox (24 + q.toNat) = [n] ∧ s.msg n = some g ∧ lineJob g = J ∧ h = H
    let addend := jobOf s J = some x ∧ x.endAt = none ∧ badLineWrite (some x.ctx) g = false ∧ contributor x.ctx g = some i
      ∧ lineExp g = false ∧ jobState s J = jsADD ∧ k = lineChunk x.ctx g ∧ jobWbase s J ≤ k ∧ k < jobWbase s J + cxWin x.ctx
    let got := bitB (nget c.lines l) i
    let bumped (u : State) (a : Nat) (f : Fld) : Prop := u.fget a f = min (s.fget a f + 1) (2 ^ f.width - 1)
    let y := mergePartial x K (farMask s J x.ctx) p
    let far (u : State) : Option Chunk := mfind ((mfind (u.stk.get H.other).shadow J).getD []) K
    (arrives → addend → got = false → chunkDone { x with chunks := minsert x.chunks k c' } k = false →
        ∃ u, exec (.stackerLineReceived h q .clean) s = .next u ∧ jobOf u J = some { x with chunks := minsert x.chunks k c' })
    ∧ (arrives → addend → got = true → ∃ u, exec (.stackerLineReceived h q .clean) s = .next u ∧ u.stk = s.stk
        ∧ bumped u (STK_JOB_CNT2 H (J % 512)) STK_JOB_CNT2_DUP_CNT)
    ∧ (arrives → jobOpen s J = false → badLineWrite none g = false →
        ∃ u, exec (.stackerLineReceived h q .clean) s = .next u ∧ u.stk = s.stk ∧ bumped u (STK_ERRCNT0 h) STK_ERRCNT0_NOJOB_CNT)
    ∧ (jobOf s J = some x → far s = some p → s.phase H = phUP → shadowReady x K (farMask s J x.ctx) p = true →
        partialDup x K (farMask s J x.ctx) = false → jobWbase s J ≤ K → x.endAt = none → chunkDone y K = false →
        ∃ u, exec (.partialReceived j kk) s = .next u ∧ jobOf u J = some y ∧ far u = none)
    ∧ (jobOf s J = some x → x.endAt = none → s.net.idone = [] → x.todo = [] → x.complete = [(k, 0)] → x.nWritten + 1 ≠ nChunks x.ctx →
        cxNote x.ctx = 0 →
        ∃ u z, exec (.chunkWritten j) s = .next u ∧ jobOf u J = some z ∧ z.nWritten = x.nWritten + 1 ∧ z.complete = []
          ∧ mfind z.chunks k = none
          ∧ u.fget st STK_JOB_STAT_WBASE
              = advanceWbase (jobWbase s J) (k :: x.written) (x.written.length + 1) % 2 ^ STK_JOB_STAT_WBASE.width)
    ∧ (jobOf s J = some x → x.todo = [] → s.net.idone = [d] → d.own = .stk J k n 0 → d.ok = false → n < 1024 →
        (mfind x.complete k).isSome = true →
        (x.retried = [] → ∃ u z, exec (.resultWriteRetry j) s = .next u ∧ jobOf u J = some z
            ∧ mfind z.retried (k * 1024 + n) = some (s.tn H + 1) ∧ z.dest = x.dest)
        ∧ (x.retried = [(k * 1024 + n, 0)] → ∃ u z, exec (.resultWriteRetry j) s = .next u ∧ jobOf u J = some z ∧ z.dest = true))
    ∧ (jobOf s J = some x → jobExpired s J x = true → x.complete = [] →
        ∃ u, exec (.jobTimeout j) s = .next u ∧ jobOf u J = none ∧ jobState u J = jsABORTED
          ∧ u.fget st STK_JOB_STAT_REASON = jrTIMEOUT ∧ u.rd64 (STK_JOB_END_LO H (J % 512)) = s.now H)
    ∧ (jobOf s J = some x → jobExpired s J x = false → exec (.jobTimeout j) s = .next s)
    ∧ (mayAct s m (STK_CTL h) → finderOnly s = false →
        ∃ u, exec (.stackerEnable m h) s = .next u ∧ onlyRegs [STK_CTL h, STK_STAT h, STK_RUN h] s u
          ∧ u.flag (STK_CTL h) STK_CTL_EN = true ∧ u.fget (STK_STAT h) STK_STAT_CHIP_FREE = chipFree s h % 2 ^ STK_STAT_CHIP_FREE.width)

/-- R264, R276: the accumulators hold exact sums, so two addends leave the same frame in either order, at the same
element or at two, whatever their values; the frame's tables are in their canonical form. -/
def Obligations.StackerSumsKeepNoOrder : Prop :=
  ∀ (f : Nat) (a : Int) (c : Chunk) (e1 r1 e2 r2 : Nat),
    let one := applyElem 0 f a (applyElem 0 f a c e1 r1) e2 r2
    (SMap.wf c.acc = true → SMap.wf c.spec = true →
      one = applyElem 0 f a (applyElem 0 f a c e2 r2) e1 r1 ∧ SMap.wf one.acc = true ∧ SMap.wf one.spec = true)

/-- R299, R309, R310, R314, R316: a write of the staged page reaches both copies, the writer's alone during a split,
and neither while it is frozen; the copy that follows a generation's application leaves the rules in force in the
staged page; the fault log is cleared by its writer. It rests on the model's own choices in log 80, 81. -/
def Obligations.UmpirePageAndFaultLog : Prop :=
  ∀ (s : State) (m : Master) (h : Half) (n : BitVec 15) (k : BitVec 3) (v : Word),
    let o := s.masterHalf m
    let r (h : Half) := UMP_RULE h n.toNat k.toNat
    let fl := UMP_FLOG_INFO h
    let busy := s.flag (UMP_STAT o) UMP_STAT_STG_BUSY
    let cut := s.phase o = phRETRAIN ∨ s.phase o = phSPLIT
    (m ≠ .dap → busy = false → ¬ cut → ∃ u, exec (.stagedRuleWrite m n k v) s = .next u ∧ u.rd (r .east) = v ∧ u.rd (r .west) = v
        ∧ onlyRegs [r .east, r .west, UMP_STAT .east, UMP_STAT .west] s u)
    ∧ (m ≠ .dap → busy = false → cut → ∃ u, exec (.stagedRuleWrite m n k v) s = .next u ∧ u.rd (r o) = v
        ∧ u.rd (r o.other) = s.rd (r o.other))
    ∧ (m ≠ .dap → busy = true → ∃ u, exec (.stagedRuleWrite m n k v) s = .next u ∧ u.rd (r .east) = s.rd (r .east)
        ∧ u.rd (r .west) = s.rd (r .west) ∧ u.fget (UMP_ERRCNT1 o) UMP_ERRCNT1_STGDISC_CNT
            = min (s.fget (UMP_ERRCNT1 o) UMP_ERRCNT1_STGDISC_CNT + 1) (2 ^ UMP_ERRCNT1_STGDISC_CNT.width - 1))
    ∧ ((s.ump.get h).copying = true → regsCanon s →
        ∃ u, exec (.stagedPageCopyDone h) s = .next u ∧ u.flag (UMP_STAT h) UMP_STAT_STG_BUSY = false
          ∧ u.rd (r h) = s.rd (UMP_ACTIVE h n.toNat k.toNat) ∧ (u.ump.get h).copying = false)
    ∧ ((s.ump.get h).copying = false → exec (.stagedPageCopyDone h) s = .next s)
    ∧ (mayAct s m fl → ∃ u, exec (.umpireFaultLogClear m h) s = .next u ∧ onlyRegs [fl] s u
        ∧ u.flag fl UMP_FLOG_INFO_VALID = false ∧ u.flag fl UMP_FLOG_INFO_MORE = false)

/-- R321, R332, R337, R340, R416: the QOS lock; the Ephemeris entry in force; Rotation's quotas and its grant, HIGH
with quota first and else in turn; a held grant that bites fences its requester and restarts the front end, and the
restart's end lifts the fence unless a second bite keeps it. It rests on the model's own choices in log 90. -/
def Obligations.QosLocksGatesAndRotation : Prop :=
  ∀ (s : State) (m : Master) (h : Half) (p pc : BitVec 5) (l : EphList) (wait : List Nat) (r : Nat),
    let c := QOS_CTL h
    let st := QOS_ROT_STAT h
    let a := arbOf s h pc.toNat
    let ws := wait.filter fun r => r < 7 ∧ rotFenced s h r = false
    let fresh := rotFind a.ptr fun r => ws.contains r && rotHigh s h r && decide (0 < a.quota.getD r 0)
    let turn := rotFind a.ptr fun r => ws.contains r
    let granted (u : State) (q : List Nat) : Prop := arbOf u h pc.toNat = ⟨(r + 1) % 7, q, ws.erase r, some r⟩
    (mayAct s m c → ∃ u, exec (.qosLockSet m h) s = .next u ∧ onlyField s u c QOS_CTL_LOCK 1)
    ∧ (mfind (s.qos.get (portHalf p.toNat)).active p.toNat = some l →
        ∃ u, exec (.ephemerisEntryStart p) s = .next u ∧ u.regs = s.regs
          ∧ mfind (u.qos.get (portHalf p.toNat)).active p.toNat = some { l with cur := ephNow s (portHalf p.toNat) l })
    ∧ (∃ u, exec (.rotationWindowStart h pc) s = .next u ∧ u.regs = s.regs ∧ (arbOf u h pc.toNat).ptr = a.ptr
        ∧ ∀ i, i < 7 → (arbOf u h pc.toNat).quota[i]? = some (if rotHigh s h i then rotQuota s h i else 0))
    ∧ (s.flag st QOS_ROT_STAT_RESTART = false → fresh = some r →
        ∃ u, exec (.rotationGrant h pc wait) s = .next u ∧ granted u (a.quota.set r (a.quota.getD r 0 - 1)))
    ∧ (s.flag st QOS_ROT_STAT_RESTART = false → fresh = none → turn = some r →
        ∃ u, exec (.rotationGrant h pc wait) s = .next u ∧ granted u a.quota)
    ∧ (a.granted = some r → r < 7 →
        ∃ u, exec (.rotationWatchdog h pc) s = .next u ∧ (u.qos.get h).biter = some r ∧ (arbOf u h pc.toNat).granted = none
          ∧ mfind (u.qos.get h).lastBite r = some (s.tn h)
          ∧ ((∃ t, mfind (s.qos.get h).lastBite r = some t ∧ s.tn h ≤ t + 1000000) → r ∈ (u.qos.get h).sticky))
    ∧ (s.flag st QOS_ROT_STAT_RESTART = true → (s.qos.get h).biter = some r → r < 7 →
        ∃ u, exec (.frontEndRestartDone h) s = .next u ∧ (u.qos.get h).biter = none ∧ u.flag st QOS_ROT_STAT_RESTART = false
          ∧ rotFenced u h r = (rotFenced s h r && (s.qos.get h).sticky.contains r))

/-- R353-R360, R370, R374: a queue is enabled when its size and the queue SRAM allow, with QERR otherwise; disabled
and flushed; its head moves within what it holds; a push of one whole entry joins the SQ, any other is counted. It
rests on the model's own choices in log 59. -/
def Obligations.QueuesOfAFunction : Prop :=
  ∀ (s : State) (t : BitVec 6) (fn : BitVec 8) (q : BitVec 2) (v : Word) (off : BitVec 10) (len : Nat) (data : Line),
    let T := t.toNat
    let F := fn.toNat
    let Q := q.toNat
    let h := tenantHalf T
    let z := fldGet v SF_QCFG_SIZE
    let n := fldGet v SF_QPTR_HEAD
    let err := SF_FN_ERRCNT1 T F
    let fits := 4 ≤ z ∧ z ≤ qMax Q ∧ sramUsed s h + 2 ^ z ≤ sramSize s h
    let pushes := len = 64 ∧ off.toNat % 64 = 0 ∧ qState s T F 0 = qRUNNING ∧ qOcc s T F 0 < qSize s T F 0
    let bumped (u : State) (f : Fld) : Prop := u.fget err f = min (s.fget err f + 1) (2 ^ f.width - 1)
    fnExists s T F = true → (s.fn T F).flr = none → fnGone s T F = false → inReset s T = false → (s.fn T F).freeze = false → q ≠ 3 →
    (qEn s T F Q = false → fits →
        ∃ u, exec (.queueEnable t fn q v) s = .next u ∧ qEn u T F Q = true ∧ qState u T F Q = qRUNNING ∧ u.rd (SF_QPTR T F Q) = 0
          ∧ qSize u T F Q = 2 ^ z)
    ∧ (qEn s T F Q = false → ¬ fits →
        ∃ u, exec (.queueEnable t fn q v) s = .next u ∧ qEn u T F Q = false ∧ u.flag (SF_QCFG T F Q) SF_QCFG_QERR = true)
    ∧ (qEn s T F Q = true →
        ∃ u, exec (.queueDisable t fn q v) s = .next u ∧ qEn u T F Q = false ∧ qState u T F Q = qDISABLED ∧ u.rd (SF_QPTR T F Q) = 0)
    ∧ (qEn s T F Q = true → v.getLsbD 0 = true → atBoundary s T F Q = true →
        ∃ u, exec (.queueFlush t fn q v) s = .next u ∧ qHead u T F Q = qTail s T F Q ∧ qTail u T F Q = qTail s T F Q)
    ∧ (q ≠ 0 → (n + 2 ^ 16 - qHead s T F Q) % 2 ^ 16 ≤ qOcc s T F Q →
        ∃ u, exec (.queueHeadWrite t fn q v) s = .next u ∧ qHead u T F Q = n ∧ qTail u T F Q = qTail s T F Q)
    ∧ (q ≠ 0 → qOcc s T F Q < (n + 2 ^ 16 - qHead s T F Q) % 2 ^ 16 →
        ∃ u, exec (.queueHeadWrite t fn q v) s = .next u ∧ onlyRegs [err] s u ∧ bumped u SF_FN_ERRCNT1_PTR_ERR)
    ∧ (pushes → ∃ u, exec (.sqPush t fn off len data) s = .next u ∧ qTail u T F 0 = (qTail s T F 0 + 1) % 2 ^ 16
          ∧ entryAt u T F 0 (qTail s T F 0) = data.toNat)
    ∧ (¬ pushes → ∃ u, exec (.sqPush t fn off len data) s = .next u ∧ onlyRegs [err] s u ∧ bumped u SF_FN_ERRCNT1_SQ_DISC)

/-- R359, R361-R368: a NOP completes; a COPY is taken and goes on or completes, one out of range completes with
BADDESC; a copy that is done writes its completion; a PASS goes out as one datagram to the receivers its sender may
reach; a datagram joins the RQ of a receiver that accepts it. It rests on the model's own choices in log 88, 89, 157.
-/
def Obligations.DescriptorsAndDatagrams : Prop :=
  ∀ (s : State) (t x : BitVec 6) (fn : BitVec 8) (segs : List CopySeg) (d : Desc) (h : Half) (n : Nat) (m : Msg),
    let T := t.toNat
    let F := fn.toNat
    let H := tenantHalf T
    let e := headEntry s T F
    let prog := (s.fn T F).prog
    let hd := qHead s T F 0
    let ct := qTail s T F 1
    let typ := bytesAt e 0 1
    let k := bytesAt e 1 1
    let X := x.toNat
    let R := m.tgt.idx
    let len := 1 + (m.len + 63) / 64
    let ready := headReady s T F = true ∧ qEn s T F 1 = true ∧ prog = []
    let head (u : State) (k : Nat) : Prop := qHead u T F 0 = (hd + k) % 2 ^ 16
    let completes (u : State) (st : Nat) : Prop := qTail u T F 1 = (ct + 1) % 2 ^ 16 ∧ (u.fn T F).prog = []
      ∧ bytesAt (entryAt u T F 1 ct) 0 1 = 0x81 ∧ bytesAt (entryAt u T F 1 ct) 2 1 = st ∧ bytesAt (entryAt u T F 1 ct) 4 2 = hd
    (ready → typ = 0 → zeroBytes e 1 7 = true → zeroBytes e 16 48 = true →
        ∃ u, exec (.descNop t fn .clean) s = .next u ∧ head u 1 ∧ completes u csOK)
    ∧ (ready → 3 ≤ typ → ∃ u, exec (.descNop t fn .clean) s = .next u ∧ head u 1 ∧ completes u csBADDESC)
    ∧ (ready → typ = 1 → copyOk e = false → ∃ u, exec (.descCopy t fn segs .clean) s = .next u ∧ head u 1 ∧ completes u csBADDESC)
    ∧ (ready → typ = 1 → copyOk e = true → segsFit (bytesAt e 16 8) (bytesAt e 24 8) (bytesAt e 32 4) segs = true →
        ∃ u, exec (.descCopy t fn segs .clean) s = .next u ∧ head u 1
          ∧ ((∃ y ∈ (u.fn T F).prog, y.idx = hd ∧ y.typ = 1 ∧ y.parts.length = segs.length) ∨ qTail u T F 1 = (ct + 1) % 2 ^ 16))
    ∧ (prog = [d] → d.todo = [] → descDone s T d = true → qEn s T F 1 = true → s.net.idone = [] →
        ∃ u, exec (.copyComplete t fn) s = .next u ∧ qTail u T F 1 = (ct + 1) % 2 ^ 16 ∧ entryAt u T F 1 ct = cqEntry s T F d
          ∧ (u.fn T F).prog = [])
    ∧ (ready → typ = 2 → passOk e = true → F = 0 → (policerOf s H T).on = false →
        bitB (bytesAt e 16 8) X = true → bitB (sendMask s T) X = true → tenantHalf X = H →
        ∃ u y, exec (.descPass t fn .clean) s = .next u ∧ head u k ∧ u.msg s.net.next = some y ∧ y.tag = bytesAt e 8 8
          ∧ y.tenant = T ∧ y.dst = unitNode H 28 ∧ y.len = passLen e ∧ y.data = passData s T F k (passLen e)
          ∧ bitB y.tgt.addr X = true)
    ∧ (ready → typ = 2 → k < 2 → passOk e = false → ∃ u, exec (.descPass t fn .clean) s = .next u ∧ head u 1 ∧ completes u csBADDESC)
    ∧ (lget (s.core.get h).inbox 28 = [n] → s.msg n = some m → m.tgt.kind = 10 → m.tgt.addr = 2 ^ X → tenantHalf X = h →
        R < 256 → m.ld < 256 → m.tenant < 64 → bitB (acceptMask s X) m.tenant = true → fnExists s X R = true →
        (s.fn X R).flr = none → fnGone s X R = false → qState s X R 2 = qRUNNING → qFits s X R 2 len = true →
        ∃ u, exec (.datagramReceived h) s = .next u ∧ qTail u X R 2 = (qTail s X R 2 + len) % 2 ^ 16
          ∧ entryAt u X R 2 (qTail s X R 2) = (datagramEntries s X R m).headD 0)

/-- R348, R349, R369-R371, R374: the VF quota and VF Enable; a VF that has nothing live is frozen; Bus Master Enable
cleared halts the queues; a function-level reset begins, quarantines what stays out, and ends with the function as
after reset. It rests on the model's own choices in log 57, 58, 158. -/
def Obligations.FunctionsStopAndReset : Prop :=
  ∀ (s : State) (m : Master) (t : BitVec 6) (fn : BitVec 8) (v : Word) (en : Bool) (n : BitVec 16) (b : Nat),
    let T := t.toNat
    let F := fn.toNat
    let quota := fldGet v SF_POOL_QUOTA
    let st := SF_FN_STAT T F
    let here := fnExists s T F = true ∧ fnGone s T F = false
    (mayAct s m (SF_POOL T) → (s.fn T 0).vfe = false → quotaOthers s T + quota ≤ 4096 →
        ∃ u, exec (.sfPoolQuotaWrite m t v) s = .next u ∧ u.fget (SF_POOL T) SF_POOL_QUOTA = quota ∧ (u.fn T 0).totalVfs = min 255 quota)
    ∧ (mayAct s m (SF_POOL T) → (s.fn T 0).vfe = true ∨ 4096 < quotaOthers s T + quota →
        ∃ u, exec (.sfPoolQuotaWrite m t v) s = .next u ∧ u.rd (SF_POOL T) = s.rd (SF_POOL T) ∧ u.fns = s.fns)
    ∧ (fnGone s T 0 = false → inReset s T = false →
        ∃ u, exec (.vfEnableWrite t en n) s = .next u ∧ (u.fn T 0).vfe = en ∧ (u.fn T 0).numvfs = n.toNat
          ∧ u.flag (SF_PF_STAT T) SF_PF_STAT_VFE_REQ = true)
    ∧ ((s.fn T F).freeze = true → (s.fn T F).prog = [] → fnLive s (fnKey T F) = [] → (s.fn T F).flr = none →
        ∃ u, exec (.vfFrozen t fn) s = .next u ∧ fnFrozen u T F = true ∧ u.fget (SF_ALIVE T F) SF_ALIVE_STATE = 3 ∧ u.fns = s.fns)
    ∧ (here → ∃ u, exec (.bmeClear t fn) s = .next u ∧ (u.fn T F).bme = false ∧ (u.fn T F).prog = []
        ∧ (∀ q, q < 3 → qEn s T F q = true → qState u T F q = qHALTED)
        ∧ ∀ q, q < 3 → qEn s T F q = false → qState u T F q = qState s T F q)
    ∧ (here → F ≠ 0 → (s.fn T F).flr = none →
        ∃ u, exec (.flrStart t fn) s = .next u ∧ (u.fn T F).flr = some (s.now (tenantHalf T)) ∧ (u.fn T F).prog = []
          ∧ u.flag st SF_FN_STAT_FLR = true)
    ∧ (here → F = 0 → ∃ u, exec (.flrStart t fn) s = .next u ∧ (u.fn T 0).flr.isSome = true ∧ (u.fn T 0).vfe = false
        ∧ u.flag st SF_FN_STAT_FLR = true)
    ∧ ((s.fn T F).flr = some b → (s.fn T F).flrOut = false → b + 900000 ≤ s.now (tenantHalf T) →
        ∃ u, exec (.flrTimeout t fn) s = .next u ∧ fnLive u (fnKey T F) = [] ∧ (u.fn T F).flrOut = true)
    ∧ ((s.fn T F).flr = some b → fnLive s (fnKey T F) = [] → (s.fn T F).remove = false →
        ∃ u, exec (.flrComplete t fn) s = .next u ∧ (u.fn T F).flr = none ∧ (u.fn T F).bme = false ∧ u.flag st SF_FN_STAT_FLR = false
          ∧ ∀ q, q < 3 → qEn u T F q = false)
    ∧ ((s.fn T F).flr = some b → fnLive s (fnKey T F) = [] → (s.fn T F).remove = true →
        (s.net.itags.any fun e => ownFn e.2.own == some (fnKey T F)) = false →
        ∃ u, exec (.flrComplete t fn) s = .next u ∧ mfind u.fns (fnKey T F) = none)

/-- R350, R373-R375: the commands of a migration. FREEZE, RESTORE and THAW stage their function row and are pending;
SAVE writes a frozen VF's image, its header last, and refuses any other VF; RESTORE takes a good image and refuses a
bad one; ABORT ends a transfer, cancels a staged row, or comes too late. It rests on the model's own choices in log
87, 158. -/
def Obligations.MigrationCommands : Prop :=
  ∀ (s : State) (t : BitVec 6) (vf : BitVec 8) (n : BitVec 4) (tk : BitVec 16) (m : Mig) (d i : Nat),
    let T := t.toNat
    let H := tenantHalf T
    let V := vf.toNat
    let N := n.toNat
    let mig (u : State) := (u.fn T 0).mig
    let st := SF_MIG_STAT T 0
    let free := mig s = none ∧ (s.fn T 0).flr = none ∧ fnGone s T 0 = false
    let pends (u : State) (cmd op : Nat) : Prop := mig u = some ⟨cmd, V, some N, 0, false, [], [], 0⟩
      ∧ u.fget st SF_MIG_STAT_STATE = mgPENDING ∧ u.rd (SF_FSTAGE T N 0) = BitVec.ofNat 32 (op * 2 ^ 28 + V * 2 ^ 8)
      ∧ u.rd (SF_FSTAGE T N 2) = BitVec.ofNat 32 tk.toNat
    let ended (u : State) (c why : Nat) : Prop := mig u = none ∧ u.fget st SF_MIG_STAT_STATE = c ∧ u.fget st SF_MIG_STAT_REASON = why
    let restored := s.modFn T m.vf fun f => { f with restoring := false }
    let word (j : Nat) := bytesAt (nget m.lines 1) j 4
    (free → ∃ u, exec (.migFreeze t vf n tk) s = .next u ∧ pends u 1 4)
    ∧ (free → ∃ u, exec (.migRestore t vf n tk) s = .next u ∧ pends u 3 5)
    ∧ (free → ∃ u, exec (.migThaw t vf n tk) s = .next u ∧ pends u 4 6)
    ∧ (free → fnExists s T V = true → fnFrozen s T V = true →
        ∃ u, exec (.migSave t vf) s = .next u ∧ (mig u).any (fun m => m.cmd = 2 ∧ m.vf = V ∧ m.stage = 1) = true
          ∧ u.fget st SF_MIG_STAT_STATE = mgPENDING
          ∧ u.fget (SF_MIG_LEN T 0) SF_MIG_LEN_LEN = imageLen s T V % 2 ^ SF_MIG_LEN_LEN.width)
    ∧ (free → fnExists s T V = true → fnFrozen s T V = false → ∃ u, exec (.migSave t vf) s = .next u ∧ ended u mgABORTED 5)
    ∧ (mig s = some m → m.cmd = 2 → m.stage = 1 → m.bad = true → ∃ u, exec (.saveHeaderWrite t) s = .next u ∧ ended u mgABORTED 4)
    ∧ (mig s = some m → m.cmd = 2 → m.stage = 1 → m.bad = false → m.out = 0 → m.todo = [] → s.net.itags = [] →
        check s H (.tenant T) ⟨4, T, imageAddr s T 0⟩ pW = .allow → mfind (s.binds.get H).usp T = some d →
        ∃ u y, exec (.saveHeaderWrite t) s = .next u ∧ (mig u).any (fun m => m.stage = 2 ∧ m.out = 1) = true
          ∧ u.msg s.net.next = some y ∧ y.op = .mWr ∧ y.dst = d ∧ y.tgt.addr = imageAddr s T 0 ∧ y.data = imageHeader s T m.vf)
    ∧ (mig s = some m → m.cmd = 3 → m.stage = 1 → m.bad = false → m.out = 0 → m.todo = [] → m.vf ≠ 0 → m.vf < 256 →
        (imageOk m = false → ∃ u, exec (.restoreCheckDone t) s = .next u ∧ ended u mgABORTED 2)
        ∧ (imageOk m = true → sramSize restored H < sramUsed restored H + imageRoom m →
            ∃ u, exec (.restoreCheckDone t) s = .next u ∧ ended u mgABORTED 3)
        ∧ (imageOk m = true → sramUsed restored H + imageRoom m ≤ sramSize restored H →
            ∃ u, exec (.restoreCheckDone t) s = .next u ∧ mig u = some { m with stage := 3 } ∧ u.regs = s.regs
              ∧ ended (restoreCommit u T) mgCOMPLETED 0
              ∧ ∀ q, q < 3 → (restoreCommit u T).rd (SF_QPTR T m.vf q) = BitVec.ofNat 32 (word (12 * q + 4))
                ∧ qState (restoreCommit u T) T m.vf q = if bitB (word (12 * q)) 0 then qFROZEN else qDISABLED))
    ∧ (fnExists s T 0 = true → (s.fn T 0).flr = none → fnGone s T 0 = false → inReset s T = false → (s.fn T 0).freeze = false →
        (mig s = some m → m.row = none → m.vf < 256 → ∃ u, exec (.migAbort t) s = .next u ∧ ended u mgABORTED 1)
        ∧ (mig s = some m → m.row = some i → i < 16 → m.stage = 0 → (s.rd (SF_FSTAGE T i 2)).getLsbD 31 = false →
            ∃ u, exec (.migAbort t) s = .next u ∧ u.rd (SF_FSTAGE T i 2) = s.rd (SF_FSTAGE T i 2) ||| 0x80000000 ∧ mig u = mig s)
        ∧ (mig s = none → s.fget st SF_MIG_STAT_STATE = mgCOMPLETED →
            ∃ u, exec (.migAbort t) s = .next u ∧ onlyField s u st SF_MIG_STAT_TOO_LATE 1))

/-- R379, R385-R390, R393, R395: a conversion clamps its codes and adds to the integrators and accumulators; each trip
is counted where it arose, clears power good and leads to the retry wait, to LATCHED, to GFAULT or, while stopping, to
OFF. It rests on the model's own choices in log 101, 103. -/
def Obligations.ShutterConvertsAndTrips : Prop :=
  ∀ (s : State) (c : BitVec 5) (x : Conv) (fd : BitVec 1),
    let C := c.toNat
    let l := leaderOf s C
    let st := shtState s l
    let y := s.chan C
    let now := s.now (chanHalf l)
    let kind (u : State) := u.fget (SHT_STAT C) SHT_STAT_TRIP
    let counts (u : State) (a : Nat) (f : Fld) : Prop := u.fget a f = min (s.fget a f + 1) (2 ^ f.width - 1)
    let dark (u : State) : Prop := u.flag (SHT_STAT l) SHT_STAT_PG = false ∧ u.flag (PRT_SLOT_STAT l) PRT_SLOT_STAT_PERST = true
    let ended (u : State) (why : Nat) : Prop := s.fget (SHT_STAT l) SHT_STAT_RSEQ = rsRUNNING →
      u.fget (SHT_STAT l) SHT_STAT_RSEQ = rsABORTED ∧ u.fget (SHT_STAT l) SHT_STAT_RWHY = why
    let mayRetry := shtSet s l (SHT_CTL l) SHT_CTL_RETRY_EN = 1 ∧ s.fget (SHT_STAT l) SHT_STAT_ATTEMPT ≠ 15
    let retried (u : State) : Prop :=
      (mayRetry → shtState u l = stRETRYWAIT ∧ u.fget (SHT_STAT l) SHT_STAT_RSEQ = rsRUNNING
        ∧ (u.chan l).waitTo = (s.chan l).rampAt + 64 * max 1 ((now - (s.chan l).rampAt + 999) / 1000) * 1000)
      ∧ (¬ mayRetry → shtState u l = stLATCHED ∧ ended u rwEXHAUSTED)
    let feed : Fld := if fd = 0 then SHT_STAT_FEED_A_OK else SHT_STAT_FEED_B_OK
    let inRange (lo v hi : Int) : Prop := lo ≤ v ∧ v ≤ hi
    (∃ (u : State) (k : Codes), exec (.shutterConversion c x) s = .next u
        ∧ inRange 0 k.vout 1310720 ∧ inRange 0 k.vmid 1310720 ∧ inRange 0 k.vx 327680
        ∧ inRange (-8388608) k.i 8388607 ∧ inRange (-524288) k.ix 524287
        ∧ (shtSet s C (SHT_CAL C) SHT_CAL_VGAIN = 0 → k.vout = min 1310720 x.vout ∧ k.vmid = min 1310720 x.vmid)
        ∧ (u.chan C).n = y.n + 1 ∧ (u.chan C).accM = y.accM + k.vout * k.i ∧ (u.chan C).accX = y.accX + k.vx * k.ix
        ∧ ((u.chan C).efet : Int) = max 0 (min ((soaMax s C : Nat) : Int) ((y.efet : Int) + (k.vmid - k.vout) * k.i))
        ∧ (follower s C = false → ganged s C = false →
            ((u.chan C).heat : Int) = max 0 (min ((heatMax s C : Nat) : Int) ((y.heat : Int) + (k.i * k.i - nomCode s C * nomCode s C))))
        ∧ (st = stRAMP → l = C → pgTh s C * k.vmid ≤ 100 * k.vout → x.vgs8 = true → u.flag (SHT_STAT C) SHT_STAT_RAMP_DONE = true)
        ∧ (shtArmed st = false → shtState u l = st)
        ∧ (shtArmed st = true → soaMax s C ≤ (u.chan C).efet → kind u = tkSOA)
        ∧ (shtArmed st = true → (u.chan C).efet < soaMax s C → follower s C = false → ganged s C = false → heatMax s C ≤ (u.chan C).heat → kind u = tkI2T))
    ∧ (shtArmed st = true → ∃ u, exec (.fastTrip c) s = .next u ∧ kind u = tkFAST
        ∧ counts u (SHT_ERRCNT0 C) SHT_ERRCNT0_FAST_CNT ∧ dark u
        ∧ (if st = stSTOPPING then shtState u l = stOFF else retried u))
    ∧ (shtArmed st = false → exec (.fastTrip c) s = .next s)
    ∧ (st = stRAMP → (s.chan l).reached = false →
        (s.chan l).rampAt + 100000 * max 1 (shtSet s l (SHT_RAMP l) SHT_RAMP_RAMP_TMO) ≤ now →
        ∃ u, exec (.rampTimeout c) s = .next u ∧ u.fget (SHT_STAT l) SHT_STAT_TRIP = tkRAMP
          ∧ counts u (SHT_ERRCNT1 l) SHT_ERRCNT1_RAMP_CNT ∧ dark u ∧ retried u)
    ∧ (st = stRAMP ∨ st = stON → ∃ u, exec (.gateFault c) s = .next u ∧ kind u = tkGATE
        ∧ counts u (SHT_ERRCNT2 C) SHT_ERRCNT2_GATE_CNT ∧ dark u ∧ shtState u l = stGFAULT ∧ ended u rwFAULT)
    ∧ (st = stSTOPPING → ∃ u, exec (.gateFault c) s = .next u ∧ kind u = tkGATE ∧ dark u ∧ shtState u l = stOFF)
    ∧ (shtArmed st = false → exec (.gateFault c) s = .next s)
    ∧ (s.flag (SHT_STAT C) SHT_STAT_FET_SHORT = false → ∃ u, exec (.fetShort c) s = .next u ∧ kind u = tkSHORT
        ∧ u.flag (SHT_STAT C) SHT_STAT_FET_SHORT = true ∧ dark u ∧ shtState u l = stGFAULT ∧ ended u rwFAULT)
    ∧ (s.flag (SHT_STAT C) feed = true → s.flag (SHT_STAT C) SHT_STAT_FET_SHORT = false →
        ∃ u, exec (.reverseTurnOff c fd) s = .next u ∧ counts u (SHT_ERRCNT3 C) SHT_ERRCNT3_REV_CNT
          ∧ onlyRegs [SHT_ERRCNT3 C] { s with chans := u.chans } u ∧ feedFet u C fd.toNat = false
          ∧ u.chan C = { y with rev := (u.chan C).rev })
    ∧ (s.flag (SHT_STAT C) feed = false ∨ s.flag (SHT_STAT C) SHT_STAT_FET_SHORT = true → exec (.reverseTurnOff c fd) s = .next s)

/-- R380, R384, R392-R394, R396, R397, R406: a stop ends OFF; a retry ramps again as the next attempt; the main feeds
come and go; the auxiliary output takes the other feed, returns to its preferred one and trips; a half's Shutter link
is lost and restored. It rests on the model's own choices in log 103, 104. -/
def Obligations.ShutterRampsFeedsAndAuxiliary : Prop :=
  ∀ (s : State) (c : BitVec 5) (h : Half) (fd : BitVec 1) (good : Bool) (t : Nat),
    let C := c.toNat
    let l := leaderOf s C
    let st := shtState s l
    let now := s.now (chanHalf l)
    let stat := SHT_STAT C
    let src := s.fget stat SHT_STAT_AUX_SRC
    let f := if fd = 0 then SHT_STAT_FEED_A_OK else SHT_STAT_FEED_B_OK
    let g := if fd = 0 then SHT_STAT_FEED_B_OK else SHT_STAT_FEED_A_OK
    let othersGood := ∀ i ∈ gangOf s l, i ≠ C → feedGood s i = true
    let counts (u : State) (a : Nat) (f : Fld) : Prop := u.fget a f = min (s.fget a f + 1) (2 ^ f.width - 1)
    let ramps (u : State) : Prop := shtState u l = stRAMP ∧ (u.chan l).rampAt = now
      ∧ u.flag (SHT_STAT l) SHT_STAT_RAMP_DONE = false ∧ u.fget (SHT_STAT l) SHT_STAT_PGQ = 0
    let supplied (u : State) (n : Nat) : Prop := u.fget stat SHT_STAT_AUX_SRC = n ∧ u.flag stat SHT_STAT_AUX_OK = true
    let on := s.flag stat SHT_STAT_AUX_ON = true
    let ok := s.flag stat SHT_STAT_AUX_OK
    (st = stSTOPPING → (s.chan l).stopAt + 10000 ≤ now → ∃ u, exec (.stopGateOff c) s = .next u ∧ shtState u l = stOFF
        ∧ u.flag (SHT_STAT l) SHT_STAT_PG = false ∧ u.flag (PRT_SLOT_STAT l) PRT_SLOT_STAT_PERST = true
        ∧ u.flag (PRT_SLOT_STAT l) PRT_SLOT_STAT_PWR = false)
    ∧ (st = stRETRYWAIT → (s.chan l).waitTo ≤ now → s.fget (SHT_STAT l) SHT_STAT_ATTEMPT < 15 →
        ∃ u, exec (.retryWaitExpiry c) s = .next u
          ∧ u.fget (SHT_STAT l) SHT_STAT_ATTEMPT = s.fget (SHT_STAT l) SHT_STAT_ATTEMPT + 1
          ∧ counts u (SHT_ERRCNT2 l) SHT_ERRCNT2_RETRY_CNT
          ∧ (feedGood s l = true → ramps u) ∧ (feedGood s l = false → shtState u l = stFEEDWAIT))
    ∧ (st = stRETRYWAIT → now < (s.chan l).waitTo → exec (.retryWaitExpiry c) s = .next s)
    ∧ (mfind s.mgt.pgAt l = some t → t + 1000000000 ≤ s.now (portHalf l) →
        ∃ u, exec (.attemptReset c) s = .next u ∧ onlyField s u (SHT_STAT l) SHT_STAT_ATTEMPT 0)
    ∧ (s.flag stat f = true → ∃ u, exec (.feedBad c fd) s = .next u ∧ u.flag stat f = false ∧ u.flag stat g = s.flag stat g
        ∧ (s.flag stat g = true ∨ (st ≠ stRAMP ∧ st ≠ stON) → shtState u l = st)
        ∧ (s.flag stat g = false → st = stRAMP ∨ st = stON → shtState u l = stFEEDWAIT ∧ u.fget stat SHT_STAT_TRIP = tkFEEDS))
    ∧ (s.flag stat f = false → ∃ u, exec (.feedGood c fd) s = .next u ∧ u.flag stat f = true
        ∧ (st ≠ stFEEDWAIT → shtState u l = st)
        ∧ (st = stFEEDWAIT → othersGood → shtSet s l (SHT_CTL l) SHT_CTL_AUTO_FEED = 1 → ramps u)
        ∧ (st = stFEEDWAIT → othersGood → shtSet s l (SHT_CTL l) SHT_CTL_AUTO_FEED = 0 → shtState u l = stOFF))
    ∧ (ok = true → ∃ u, exec (.auxSwitchover c good) s = .next u ∧ auxGood u C src = false ∧ auxGood u C (1 - src) = good
        ∧ if good then supplied u (1 - src) ∧ counts u (SHT_ERRCNT3 C) SHT_ERRCNT3_AUXSW_CNT else u.flag stat SHT_STAT_AUX_OK = false)
    ∧ (ok = true → src ≠ auxPref s C → ∃ u, exec (.auxReturn c) s = .next u ∧ supplied u (auxPref s C)
        ∧ counts u (SHT_ERRCNT3 C) SHT_ERRCNT3_AUXSW_CNT)
    ∧ (ok = true → ∃ u, exec (.auxFastTrip c) s = .next u ∧ u.flag stat SHT_STAT_AUX_ON = false ∧ u.flag stat SHT_STAT_AUX_OK = false
        ∧ shtState u C = shtState s C)
    ∧ (∃ u, exec (.auxiliaryFeedGood c fd) s = .next u ∧ auxGood u C fd.toNat = true
        ∧ (on → ok = false → supplied u fd.toNat ∧ onlyRegs [stat] { s with chans := u.chans } u)
        ∧ (¬ on ∨ ok = true → u = { s with chans := u.chans }))
    ∧ (∃ u, exec (.shutterLinkLost h) s = .next u ∧ h.idx ∈ u.dome.linkLost ∧ u = { s with dome := u.dome })
    ∧ (∃ u, exec (.shutterLinkRestored h) s = .next u ∧ h.idx ∉ u.dome.linkLost ∧ u = { s with dome := u.dome }
        ∧ (h.other.idx ∈ u.dome.linkLost ↔ h.other.idx ∈ s.dome.linkLost))

/-- R409-R411, R415, R416, R418, R424-R428: an event becomes a record with the next SEQ, in the Scorebook and the next
handler list, or, where its class and instance put it before the record of one stamp, with that record's SEQ; it adds
to its unit's leaky count, and at the threshold the unit is retired. A drained bank goes to a spare or is lost. The
Scorebook is unfrozen, software raises an event, a fence ends at the next boundary, and a requalification runs 1,000
Transits. It rests on the model's own choices in log 34, 35, 159, 160. -/
def Obligations.RefereeRecordsAndRetires : Prop :=
  ∀ (s : State) (m : Master) (h : Half) (e : EvSpec) (v : Word) (x : Evt) (k i n pc j : Nat) (b good : Bool)
    (ls bad ways : List Nat) (sl : LsSlot) (ce : CatEnt),
    let sev := sevOf e.cls e.cause
    let runs := halvesRun s = true
    let other := e.cls < 29 ∧ ¬ (e.cls = 13 ∧ e.cause = 1) ∧ ¬ (e.cls = 15 ∧ e.cause = 2) ∧ ¬ (e.cls = 20 ∧ e.cause = 1)
    let plain := other ∧ runs
    let r := s.ref.get h
    let before (e : EvSpec) (x : Evt) : Prop := x.ns = s.now h ∧ (e.cls < x.cls ∨ e.cls = x.cls ∧ e.inst < x.inst)
    let fresh (e : EvSpec) (sev : Nat) : Prop :=
      r.recent.find? (fun x => mergeable x e sev) = none ∧ hlistFull s h = false ∧ ∀ x ∈ r.recent, ¬ before e x
    let seq := s.fget (REF_SEQ h) REF_SEQ_SEQ
    let sb := s.fget (REF_SB_PTR h) REF_SB_PTR_NEXT
    let recorded (u : State) (e : EvSpec) (sev : Nat) : Prop := u.fget (REF_SEQ h) REF_SEQ_SEQ = (seq + 1) % 2 ^ 32
      ∧ ∃ x, (u.trp.get h).arrivals = (s.trp.get h).arrivals ++ [x] ∧ x.cls = e.cls ∧ x.cause = e.cause ∧ x.sev = sev ∧ x.inst = e.inst
        ∧ x.seq = seq ∧ x.ns = s.now h ∧ x.half = h
    let soft := evt 28 (fldGet v REF_RAISE_CAUSE) 0 0
    let lc := REF_LCNT h k i
    let w := if sev = 1 then s.fget (REF_LEAK h k) REF_LEAK_W_CORR else s.fget (REF_LEAK h k) REF_LEAK_W_UNC
    let C := min (s.fget lc REF_LCNT_COUNT + e.count * w) 255
    let used := mget (fun _ => 0) r.sparesUsed k
    let rq := REF_REQUAL h
    let res (u : State) := u.fget rq REF_REQUAL_RESULT
    let hold := s.flag (TRP_STAT h) TRP_STAT_HOLD = true
    (29 ≤ e.cls → exec (.refereeEvent h e) s = .next s)
    ∧ (other → ¬ runs → exec (.refereeEvent h e) s = .next s)
    ∧ (plain → e.unit = none → sev < 5 → fresh e sev → ∃ u, exec (.refereeEvent h e) s = .next u ∧ recorded u e sev
        ∧ (s.flag (REF_CLS h e.cls) REF_CLS_SB = true → s.flag (REF_STAT h) REF_STAT_SB_FROZEN = false →
            (u.rd (REF_SB h sb 0)).toNat / 2 ^ 27 = e.cls ∧ (u.rd (REF_SB h sb 0)).toNat / 2 ^ 24 % 8 = sev
            ∧ (u.rd (REF_SB h sb 1)).toNat = seq ∧ (u.rd (REF_SB h sb 4)).toNat = e.cause % 2 ^ 16 * 2 ^ 16 + min e.count 0xFFFF
            ∧ u.fget (REF_SB_PTR h) REF_SB_PTR_NEXT = (sb + 1) % 64))
    ∧ (plain → e.unit = none → sev < 5 → r.recent = [x] → mergeable x e sev = false → before e x → x.sbSlot = none →
        x.evqIdx = none → ∃ u, exec (.refereeEvent h e) s = .next u ∧ u.fget (REF_SEQ h) REF_SEQ_SEQ = (seq + 1) % 2 ^ 32
          ∧ let y := (u.ref.get h).recent.getD 1 x
            (u.ref.get h).recent = [{ x with seq := seq }, y] ∧ y.cls = e.cls ∧ y.cause = e.cause ∧ y.sev = sev ∧ y.inst = e.inst
              ∧ y.ns = x.ns ∧ y.seq = x.seq)
    ∧ (plain → e.unit = none → sev < 5 → r.recent.find? (fun x => mergeable x e sev) = some x →
        ∃ u, exec (.refereeEvent h e) s = .next u ∧ u.rd (REF_SEQ h) = s.rd (REF_SEQ h)
          ∧ (u.ref.get h).recent.length = r.recent.length
          ∧ ∃ y ∈ (u.ref.get h).recent, y.seq = x.seq ∧ y.count = min (x.count + e.count) 0xFFFF)
    ∧ (plain → e.unit = none → sev = 5 → ∃ u, exec (.refereeEvent h e) s = .next u
        ∧ u.flag (REF_STAT h) REF_STAT_FATAL_DEV = true ∧ ∀ t, t < 64 → t ∈ u.viral)
    ∧ (plain → e.unit = some (k, i) → 1 ≤ k → k ≤ 4 → i < 512 → 1 ≤ sev → sev ≤ 3 → s.flag lc REF_LCNT_RETIRED = false →
        ∃ u, exec (.refereeEvent h e) s = .next u ∧ u.fget lc REF_LCNT_COUNT = C
          ∧ (max 1 (s.fget (REF_LEAK h k) REF_LEAK_THRESH) ≤ C → u.flag lc REF_LCNT_RETIRED = true ∧ (k, i) ∈ (u.ref.get h).draining)
          ∧ (C < max 1 (s.fget (REF_LEAK h k) REF_LEAK_THRESH) →
              u.flag lc REF_LCNT_RETIRED = false ∧ (u.ref.get h).draining = r.draining))
    ∧ ((k, i) ∈ r.draining → k ≤ 4 → i < 512 → s.flag lc REF_LCNT_RETIRED = true →
        ∃ u, exec (.bankRetireDone h k i) s = .next u ∧ (u.ref.get h).draining = r.draining.erase (k, i)
          ∧ mget (fun _ => 0) (u.ref.get h).sparesUsed k = (if used < spareBanks k then used + 1 else used)
          ∧ mget (fun _ => 0) (u.ref.get h).banksLost k = mget (fun _ => 0) r.banksLost k + (if used < spareBanks k then 0 else 1))
    ∧ ((k, i) ∉ r.draining → exec (.bankRetireDone h k i) s = .next s)
    ∧ (pc ∈ r.hbmCopy → ∃ u, exec (.pseudoChannelCopyDone h pc ls bad ways) s = .next u ∧ (u.ref.get h).hbmCopy = r.hbmCopy.erase pc
        ∧ (u.ref.get h).hbmRetired = r.hbmRetired ∧ (ls = [] → bad = [] → ways = [] → u = { s with ref := u.ref })
        ∧ (ls = [] → bad = [j] → ways = [] → mfind (s.cat.get h).slots j = some sl → findEnt s h (lineKey sl.win sl.l) = some (i, ce) →
            ce.slot.isSome = true → mfind (u.cat.get h).ents i = some { ce with psn := true }))
    ∧ (pc ∉ r.hbmCopy → exec (.pseudoChannelCopyDone h pc ls bad ways) s = .next s)
    ∧ (mayAct s m (REF_STAT h) → ∃ u, exec (.scorebookUnfreeze m h) s = .next u ∧ onlyField s u (REF_STAT h) REF_STAT_SB_FROZEN 0)
    ∧ (mayAct s m (REF_RAISE h) → runs → fresh soft (min 3 (fldGet v REF_RAISE_SEV)) →
        ∃ u, exec (.softEventRaise m h v) s = .next u ∧ recorded u soft (min 3 (fldGet v REF_RAISE_SEV)) ∧ refOnly s u)
    ∧ (mayAct s m (REF_UNFENCE h) → ∃ u, exec (.unfence m h v) s = .next u ∧ u = { s with ref := u.ref }
        ∧ (u.ref.get h).unfence = r.unfence ++ if fldGet v REF_UNFENCE_KIND = 6 then [fldGet v REF_UNFENCE_INSTANCE] else [])
    ∧ (mayAct s m rq → hold → (s.trp.get h).requal = none → (b = true → bankValid s h (1 - s.fget (TRP_CTL h) TRP_CTL_SEL) = true) →
        ∃ u, exec (.requalStart m h b) s = .next u ∧ (u.trp.get h).requal = some (b, 1000) ∧ res u = rqRUNNING
          ∧ u.flag rq REF_REQUAL_BANK = b ∧ onlyRegs [rq] { s with trp := u.trp } u)
    ∧ (mayAct s m rq → hold → (s.trp.get h).requal = none → b = true → bankValid s h (1 - s.fget (TRP_CTL h) TRP_CTL_SEL) = false →
        ∃ u, exec (.requalStart m h b) s = .next u ∧ u.trp = s.trp ∧ res u = rqFAIL)
    ∧ (mayAct s m rq → ¬ hold → ∃ u, exec (.requalStart m h b) s = .next u ∧ onlyField s u rq REF_REQUAL_BANK b.toNat)
    ∧ ((s.trp.get h).requal = some (b, n) →
        ((s.trp.get h).requalBad = true ∨ (n = 0 ∧ good = false) → ∃ u, exec (.requalEnd h good) s = .next u ∧ res u = rqFAIL
            ∧ (u.trp.get h).requal = none ∧ (u.trp.get h).requalPass = (s.trp.get h).requalPass)
        ∧ ((s.trp.get h).requalBad = false → n = 0 → good = true → ∃ u, exec (.requalEnd h good) s = .next u ∧ res u = rqPASS
            ∧ (u.trp.get h).requal = none ∧ (u.trp.get h).requalPass = some b)
        ∧ ((s.trp.get h).requalBad = false → n ≠ 0 → exec (.requalEnd h good) s = .next s))

/-- R419-R424, R431, R432, R536: leaky counts fall at their multiples; the event queue's HEAD moves within what it
holds; ALERT_L's pulse ends, its toggle runs, stops and resumes, its mode changes; the life count and the ageing
monitor. It rests on the model's own choices in log 46, 47. -/
def Obligations.AlertsLeaksAndMonitors : Prop :=
  ∀ (s : State) (m : Master) (h : Half) (v : Word) (k i : Nat) (mode : BitVec 2) (slow : BitVec 16),
    let a := MRD_ALERT_CTL
    let md := s.fget a MRD_ALERT_CTL_MODE
    let stopped := s.flag a MRD_ALERT_CTL_STOPPED = true
    let level (b : Bool) : State := { s with alert := { s.alert with low := b } }
    let p := REF_EVQ_PTR h
    let hd := s.fget p REF_EVQ_PTR_HEAD
    let nw := fldGet v REF_EVQ_PTR_HEAD
    let occ := (s.fget p REF_EVQ_PTR_TAIL + 2 ^ 16 - hd) % 2 ^ 16
    let lc := REF_LCNT h k i
    let leaks := s.tn h % 2 ^ min 40 (s.fget (REF_LEAK h k) REF_LEAK_LEAK_EXP) = 0 ∧ s.flag lc REF_LCNT_RETIRED = false
    ((s.ref.get h).leakTn ≠ some (s.tn h) → regsCanon s → k ≤ 5 → i < 512 →
        ∃ u, exec (.leakyCountLeak h) s = .next u ∧ (u.ref.get h).leakTn = some (s.tn h)
          ∧ (leaks → u.fget lc REF_LCNT_COUNT = s.fget lc REF_LCNT_COUNT - 1) ∧ (¬ leaks → u.rd lc = s.rd lc))
    ∧ ((s.ref.get h).leakTn = some (s.tn h) → exec (.leakyCountLeak h) s = .next s)
    ∧ (mayAct s m p → (nw + 2 ^ 16 - hd) % 2 ^ 16 ≤ occ → ∃ u, exec (.evqHeadWrite m h v) s = .next u
        ∧ fieldSet (s.rd p) (u.rd p) REF_EVQ_PTR_HEAD nw ∧ onlyRegs [p, REF_STAT h] { s with alert := u.alert } u
        ∧ (∀ x, x < 32 → x ≠ REF_STAT_EVQ_HI.lo → (u.rd (REF_STAT h)).getLsbD x = (s.rd (REF_STAT h)).getLsbD x)
        ∧ u.flag (REF_STAT h) REF_STAT_EVQ_HI = (s.fget (REF_EVQ_WM h) REF_EVQ_WM_HIGH != 0
            && decide (s.fget (REF_EVQ_WM h) REF_EVQ_WM_HIGH ≤ (s.fget p REF_EVQ_PTR_TAIL + 2 ^ 16 - nw) % 2 ^ 16)))
    ∧ (mayAct s m p → occ < (nw + 2 ^ 16 - hd) % 2 ^ 16 →
        ∃ u, exec (.evqHeadWrite m h v) s = .next u ∧ u.fget p REF_EVQ_PTR_HEAD = hd ∧ refOnly s u)
    ∧ (s.alert.pulse = true → ∃ u, exec .alertPulseEnd s = .next u ∧ u.alert.pulse = false ∧ u = { s with alert := u.alert }
        ∧ u.alert.low = if md = 0 then s.flag a MRD_ALERT_CTL_HOLD else s.alert.low)
    ∧ (s.dome.run = false ∨ md = 0 ∨ stopped → exec (.aliveToggle h) s = .next s)
    ∧ (s.dome.run = true → md ≠ 0 → ¬ stopped → s.fget MRD_SVC_STAT MRD_SVC_STAT_PHASE ≤ 1 → exec (.aliveToggle h) s = .next (level (!s.alert.low)))
    ∧ (s.dome.run = true → md ≠ 0 → ¬ stopped → 1 < s.fget MRD_SVC_STAT MRD_SVC_STAT_PHASE →
        (s.tn h % 1000 = 0 → exec (.aliveToggle h) s = .next (level true))
        ∧ (s.tn h % 1000 = 500 → exec (.aliveToggle h) s = .next (level false))
        ∧ (s.tn h % 1000 ≠ 0 → s.tn h % 1000 ≠ 500 → exec (.aliveToggle h) s = .next s))
    ∧ (mayAct s m a → ∃ u, exec (.alertResume m) s = .next u ∧ onlyField s u a MRD_ALERT_CTL_STOPPED 0)
    ∧ (mayAct s m a → ∃ u, exec (.alertModeWrite m mode) s = .next u ∧ u.fget a MRD_ALERT_CTL_MODE = mode.toNat
        ∧ onlyRegs [a] { s with alert := u.alert } u
        ∧ (md = 0 ∨ mode ≠ 0 → u.alert = s.alert)
        ∧ (md ≠ 0 → mode = 0 → u.alert.low = u.flag a MRD_ALERT_CTL_HOLD
            ∧ (stopped → u.flag a MRD_ALERT_CTL_STOPPED = false ∧ u.flag a MRD_ALERT_CTL_HOLD = true)
            ∧ (¬ stopped → u.flag a MRD_ALERT_CTL_HOLD = s.flag a MRD_ALERT_CTL_HOLD)))
    ∧ (s.tn .east % 1000000 = 0 → s.dome.lifeTn ≠ some (s.tn .east) → ∃ u, exec .lifeCountUpdate s = .next u
        ∧ u.rd64 MRD_LIFE_LO = (s.rd64 MRD_LIFE_LO + if s.dome.hot then 16 else 10) % 2 ^ 64 ∧ u.dome.hot = false
        ∧ u.dome.lifeTn = some (s.tn .east))
    ∧ (s.tn .east % 1000000 ≠ 0 → exec .lifeCountUpdate s = .next s)
    ∧ (∃ u w, exec (.ageingMeasure h slow) s = .next u ∧ onlyField s w (REF_AGE h) REF_AGE_SLOW slow.toNat
        ∧ (slow.toNat ≤ s.fget (REF_AGE h) REF_AGE_THR → u = w)
        ∧ (s.fget (REF_AGE h) REF_AGE_THR < slow.toNat → refOnly w u
            ∧ (halvesRun s = true → ∀ g, (s.ref.get g).recent = [] → u.fget (REF_SEQ g) REF_SEQ_SEQ = (s.fget (REF_SEQ g) REF_SEQ_SEQ + 1) % 2 ^ 32)))

/-- R440-R446: at a boundary a plate that is due takes the next SEQ and latches every counter, unless one is being
written, when it is missed; one that no sub-port leads to is abandoned. The header goes out once every body line is
answered, and with it the plate is done. A bandwidth window ends with the bytes of its length. It rests on the model's
own choices in log 48, 105. -/
def Obligations.PlatesAndBandwidth : Prop :=
  ∀ (s : State) (h : Half) (x : PlateImg) (d i : Nat),
    let p := s.phm.get h
    let k := s.tn h
    let sq := (s.fget (PHM_SEQ h) PHM_SEQ_SEQ + 1) % 2 ^ 32
    let due := p.latched ≠ some k ∧ (plateCad s h k = true ∨ p.tirTag.isSome = true)
    let host := (s.rd (PHM_DEST h)).getLsbD 31 = true
    let owner := bits (s.rd (PHM_DEST h)).toNat 26 21
    let fails (u : State) : Prop := u.fget (PHM_ERRCNT h) PHM_ERRCNT_PLFAIL_CNT
      = min (s.fget (PHM_ERRCNT h) PHM_ERRCNT_PLFAIL_CNT + 1) (2 ^ PHM_ERRCNT_PLFAIL_CNT.width - 1)
    let done (u : State) : Prop := (u.phm.get h).plate = none ∧ u.flag (PHM_STAT h) PHM_STAT_BUSY = false
    let ready := p.plate = some x ∧ x.todo = [] ∧ x.waiting = [] ∧ s.net.idone = []
    (¬ due → exec (.plateLatch h) s = .next s)
    ∧ (due → p.plate = some x → ∃ u, exec (.plateLatch h) s = .next u ∧ (u.phm.get h).plate = some x
        ∧ (u.phm.get h).missed = min 0xFFFF (p.missed + 1) ∧ u.rd (PHM_SEQ h) = s.rd (PHM_SEQ h) ∧ (u.phm.get h).tirTag = none)
    ∧ (due → p.plate = none → host → mfind (s.binds.get h).usp owner = none →
        ∃ u, exec (.plateLatch h) s = .next u ∧ done u ∧ fails u ∧ u.fget (PHM_SEQ h) PHM_SEQ_SEQ = sq)
    ∧ (due → p.plate = none → host → mfind (s.binds.get h).usp owner = some d → isSplit s h = false →
        (∀ l ∈ [1, 9, 17, 25, 33], check s h (.tenant owner) ⟨4, owner, plateAddr (plateImg s h k 0 true true 0) l⟩ pW = .allow) →
        ∃ u y, exec (.plateLatch h) s = .next u ∧ (u.phm.get h).plate = some y ∧ y.seq = sq ∧ y.tn = k ∧ y.missed = p.missed
          ∧ (∀ n, n < 256 → nget y.cnts n = s.rd64 (PHM_CNT_LO h n)) ∧ y.tag = p.tirTag.getD 0 ∧ y.waiting ++ y.todo = [1, 9, 17, 25, 33]
          ∧ u.fget (PHM_SEQ h) PHM_SEQ_SEQ = sq ∧ u.flag (PHM_STAT h) PHM_STAT_BUSY = true)
    ∧ (p.plate = some x → x.todo = [] → x.waiting ≠ [] → s.net.idone = [] → exec (.plateHeaderWrite h) s = .next s)
    ∧ (ready → plateHost x = true → mfind (s.binds.get h).usp (plateOwner x) = some d → isSplit s h = false → s.net.itags = [] →
        check s h (.tenant (plateOwner x)) ⟨4, plateOwner x, plateAddr x 0⟩ pW = .allow →
        ∃ u y, exec (.plateHeaderWrite h) s = .next u ∧ done u ∧ u.msg s.net.next = some y ∧ y.op = .mWr ∧ y.dst = d
          ∧ y.tgt.addr = plateAddr x 0 ∧ y.len = 64 ∧ y.data = plateData x h 0 1)
    ∧ (ready → plateHost x = true → mfind (s.binds.get h).usp (plateOwner x) = none →
        ∃ u, exec (.plateHeaderWrite h) s = .next u ∧ done u ∧ fails u)
    ∧ (s.tn h % 2 ^ p.wexp = 0 → p.bwTn ≠ some (s.tn h) → i < 16 → ∃ u, exec (.bwWindowClose h) s = .next u
        ∧ u.rd (PHM_BW_RX h i) = BitVec.ofNat 32 (nget p.rxBytes i / 2 ^ p.wexp)
        ∧ u.rd (PHM_BW_TX h i) = BitVec.ofNat 32 (nget p.txBytes i / 2 ^ p.wexp)
        ∧ (u.phm.get h).rxBytes = [] ∧ (u.phm.get h).txBytes = [] ∧ (u.phm.get h).bwTn = some (s.tn h))
    ∧ (s.tn h % 2 ^ p.wexp ≠ 0 → exec (.bwWindowClose h) s = .next s)

/-- R205, R206, R208, R475: the commands of a CCI that read, set a limit or a policy, or clear event records: each is
answered once, leaves its class queue and changes nothing else; during a split one that needs the other half's
registers is Busy. The codes and the layout of an answer are the model's (log 92). It rests on the model's own
choices in log 92, 94. -/
def Obligations.CciCommandsAreAnswered : Prop :=
  ∀ (s : State) (cci n w o : Nat) (e : Nat × Nat × Nat) (b : BgOp) (all : Bool) (t : BitVec 6) (p : BitVec 5) (k : BitVec 2)
    (ps : List (BitVec 5)),
    let T := t.toNat
    let P := p.toNat
    let cls := OBS_CLS_STAT (cciHalf s cci) (cciClass cci)
    let reach (hs : List Half) : Prop := cciReach s cci hs = true
    let done (u : State) (code ret ext : Nat) (data : List Nat) : Prop :=
      onlyField { s with sent := u.sent, mgt := u.mgt } u cls OBS_CLS_STAT_QUEUED (s.fget cls OBS_CLS_STAT_QUEUED - 1)
        ∧ u.sent = .ans code ret (cci :: ext :: data) :: s.sent
    let reads (c : Instr) (code : Nat) (data : List Nat) : Prop :=
      ∃ u, exec c s = .next u ∧ done u code rcSUCCESS 0 data ∧ u.mgt = s.mgt
    (∃ x y, reads (.fmIdentify cci) 0x0001 [0xCAE5, 0x5120, x, y, s.rd64 (MRD_DBG_SERIAL 0), 13, 0])
    ∧ (mfind s.mgt.bg cci = some b → reads (.fmBackgroundOperationStatus cci) 0x0002 [1, b.code, 0, 0])
    ∧ (mfind s.mgt.bg cci = none → mfind s.mgt.last cci = some e →
        reads (.fmBackgroundOperationStatus cci) 0x0002 [0, e.1, e.2.1, e.2.2])
    ∧ reads (.fmGetResponseMessageLimit cci) 0x0003 [(mfind s.mgt.limit cci).getD 13]
    ∧ (8 ≤ n → n ≤ 13 → ∃ u, exec (.fmSetResponseMessageLimit cci n) s = .next u ∧ done u 0x0004 rcSUCCESS 0 [n]
        ∧ mfind u.mgt.limit cci = some n)
    ∧ (n < 8 ∨ 13 < n → ∃ u, exec (.fmSetResponseMessageLimit cci n) s = .next u ∧ done u 0x0004 rcINVALID 0 [] ∧ u.mgt = s.mgt)
    ∧ reads (.fmGetEventRecords cci) 0x0100 (s.mgt.events.flatMap fun e => [e.1, e.2.1, e.2.2])
    ∧ (∃ u, exec (.fmClearEventRecords cci all n) s = .next u ∧ done u 0x0101 rcSUCCESS 0 []
        ∧ u.mgt = { s.mgt with events := if all then [] else s.mgt.events.drop n })
    ∧ reads (.fmGetEventInterruptPolicy cci) 0x0102 [s.mgt.policy]
    ∧ (∃ u, exec (.fmSetEventInterruptPolicy cci w) s = .next u ∧ done u 0x0103 rcSUCCESS 0 [] ∧ u.mgt = { s.mgt with policy := w })
    ∧ (∃ act usp bound, reads (.fmIdentifySwitchDevice cci) 0x5100 [32, act, 64, usp, 2112, bound]
        ∧ (∀ i, i < 32 → act.testBit i = s.flag (PRT_CFG i) PRT_CFG_EN) ∧ usp = (s.binds.get (cciHalf s cci)).usp.length)
    ∧ (reach (ps.map fun p => portHalf p.toNat) →
        reads (.fmGetPhysicalPortState cci ps) 0x5101 (ps.flatMap fun p => portState s p.toNat))
    ∧ (cciReach s cci [portHalf P] = false → ∃ u, exec (.fmGetPhysicalPortState cci [p]) s = .next u
        ∧ done u 0x5101 rcBUSY exSPLIT [] ∧ u.mgt = s.mgt)
    ∧ (reach [portHalf P] → ∃ u, exec (.fmSendPpbConfigRequest cci p k true o w) s = .next u ∧ done u 0x5103 rcSUCCESS 0 []
        ∧ u.mgt = (cfgWrite s (64 + P) (33 + k.toNat) o w).mgt)
    ∧ (reach [portHalf P] → ∃ u v, exec (.fmSendPpbConfigRequest cci p k false o w) s = .next u ∧ v < 2 ^ 32
        ∧ u.sent = .ans 0x5103 rcSUCCESS [cci, 0, v] :: s.sent ∧ ∀ a, a ≠ cls → u.rd a = s.rd a)
    ∧ (reach [tenantHalf T] → reads (.fmGetVcsInfo cci t) 0x5200 (vcsInfo s T))
    ∧ (reach [tenantHalf T] → reads (.getBindingState cci t) 0xC000 (bindingState s T))
    ∧ (reach [portHalf P] → reads (.getSlotState cci p) 0xC011 [(s.rd (PRT_SLOT_STAT P)).toNat, (s.rd (SHT_STAT P)).toNat])
    ∧ (reach [tenantHalf T] → s.latches = [] → mayAct s (.obs (cciHalf s cci) 0) (SF_TEN_STAT T) → mayAct s (.obs (cciHalf s cci) 0) (SF_TEN_ERRCNT T) →
        ∃ u, exec (.getTenantState cci t) s = .next u
          ∧ u.sent = .ans 0xC021 rcSUCCESS [cci, 0, (s.rd (SF_TEN_STAT T)).toNat, (s.rd (SF_TEN_ERRCNT T)).toNat] :: s.sent)

/-- R205, R208, R214: commands passed on to a device, Physical Port Control, AER events, PBR and unsupported commands,
and FM_CCI. It rests on the model's own choices in log 55, 92, 94. -/
def Obligations.FmForwardsAndControls : Prop :=
  ∀ (s : State) (cci code kind : Nat) (payload : List Nat) (t v : BitVec 6) (p : BitVec 5) (k : BitVec 2) (ld : BitVec 4) (on : Bool)
    (tbl idx x : Nat),
    let T := t.toNat
    let P := p.toNat
    let d := subNode P k.toNat
    let cls := OBS_CLS_STAT (cciHalf s cci) (cciClass cci)
    let entry := tbl * 2 ^ 32 + idx
    let perst (u : State) := u.flag (PRT_SLOT_STAT P) PRT_SLOT_STAT_PERST
    let forwards (c : Instr) (code : Nat) (data : List Nat) : Prop := ∃ u, exec c s = .next u
      ∧ onlyField { s with sent := u.sent } u cls OBS_CLS_STAT_QUEUED (s.fget cls OBS_CLS_STAT_QUEUED - 1)
      ∧ u.sent = .out outFORWARD (code :: d :: data) :: s.sent
    let answers (u : State) (code ret : Nat) : Prop := .ans code ret [cci, 0] ∈ u.sent
    (cciReach s cci [nodeHalf d] = true →
        forwards (.fmTunnelManagementCommand cci p k payload) 0x5300 payload
        ∧ forwards (.fmSendLdConfigRequest cci p k ld payload) 0x5301 (ld.toNat :: payload)
        ∧ forwards (.fmSendLdMemoryRequest cci p k ld payload) 0x5302 (ld.toNat :: payload)
        ∧ forwards (.fmTunnelledCommand cci code p k payload) code payload)
    ∧ (cciReach s cci [portHalf P] = true →
        (∃ u, exec (.ppcAssertPerst cci p) s = .next u ∧ answers u opPPC rcSUCCESS ∧ perst u = true ∧ P ∈ u.mgt.perst)
        ∧ (∃ u, exec (.ppcDeassertPerst cci p) s = .next u ∧ answers u opPPC rcSUCCESS ∧ P ∉ u.mgt.perst
            ∧ perst u = (perst s && !perstMay { s with mgt := u.mgt } P))
        ∧ (mayTrain s d = true → inService s d = false → ∃ u, exec (.ppcResetPpb cci p k) s = .next u ∧ answers u opPPC rcSUCCESS
            ∧ linkPm u d = pmDOWN ∧ u.fget (PRT_LNK_STAT P k.toNat) PRT_LNK_STAT_TWIDTH = 0)
        ∧ (mayTrain s d = false → ∃ u, exec (.ppcResetPpb cci p k) s = .next u ∧ answers u opPPC rcSUCCESS
            ∧ onlyRegs [cls] { s with sent := u.sent } u))
    ∧ (cciReach s cci [tenantHalf T] = true →
        (v.toNat ≤ 32 → ∃ u, exec (.fmGenerateAerEvent cci t v kind) s = .next u
            ∧ answers u 0x5203 rcSUCCESS ∧ .aer T v.toNat kind [] ∈ u.sent
            ∧ onlyField { s with sent := u.sent, mgt := u.mgt } u cls OBS_CLS_STAT_QUEUED (s.fget cls OBS_CLS_STAT_QUEUED - 1))
        ∧ (32 < v.toNat → ∃ u, exec (.fmGenerateAerEvent cci t v kind) s = .next u
            ∧ u.sent = .ans 0x5203 rcINVALID [cci, 0] :: s.sent)
        ∧ (∃ u, exec (.setSwitchCciTenant cci t on) s = .next u ∧ answers u 0xC022 rcSUCCESS
            ∧ u.flag (SF_TEN_CTL T) SF_TEN_CTL_FM_CCI = on
            ∧ u.fget (SF_TEN_CTL T) SF_TEN_CTL_HP_WAIT = s.fget (SF_TEN_CTL T) SF_TEN_CTL_HP_WAIT
            ∧ ∀ x, x < 64 → x ≠ T → u.flag (SF_TEN_CTL x) SF_TEN_CTL_FM_CCI = (!on && s.flag (SF_TEN_CTL x) SF_TEN_CTL_FM_CCI)))
    ∧ (∃ u, exec (.fmPbrCommand cci code true tbl idx (some x)) s = .next u ∧ u.sent = .ans code rcSUCCESS [cci, 0, x] :: s.sent
        ∧ onlyRegs [cls] { s with sent := u.sent, mgt := u.mgt } u ∧ mfind u.mgt.pbr entry = some x
        ∧ ∀ k, k ≠ entry → mfind u.mgt.pbr k = mfind s.mgt.pbr k)
    ∧ (mfind s.mgt.pbr entry = some x → ∃ u, exec (.fmPbrCommand cci code true tbl idx none) s = .next u
        ∧ u.sent = .ans code rcSUCCESS [cci, 0, x] :: s.sent ∧ onlyRegs [cls] { s with sent := u.sent } u)
    ∧ (mfind s.mgt.pbr entry = none → ∃ u y, exec (.fmPbrCommand cci code true tbl idx none) s = .next u
        ∧ u.sent = .ans code rcSUCCESS [cci, 0, y] :: s.sent ∧ ∀ a, a ≠ cls → u.rd a = s.rd a)
    ∧ (∃ u, exec (.fmPbrCommand cci code false tbl idx none) s = .next u ∧ u.sent = .ans code rcUNSUPPORTED [cci, 0] :: s.sent
        ∧ onlyRegs [cls] { s with sent := u.sent } u)
    ∧ (∃ u, exec (.fmUnsupportedCommand cci code) s = .next u ∧ u.sent = .ans code rcUNSUPPORTED [cci, 0] :: s.sent
        ∧ onlyRegs [cls] { s with sent := u.sent } u)

/-- R199, R206-R210, R217: a command that needs a binding row stages it with its TICKET and runs in the background,
one at a time for each CCI: Bind vPPB, the three kinds of Unbind vPPB, Dynamic Capacity Add and Release, Stage Binding
Rows; and Tenant Reset. It rests on the model's own choices in log 92, 93. -/
def Obligations.BindingCommandsStageRows : Prop :=
  ∀ (s : State) (cci base len : Nat) (t : BitVec 6) (v p : BitVec 5) (k : BitVec 2) (l : BitVec 4) (n : BitVec 6) (tk : BitVec 16)
    (b : VBind) (o : BgOp) (share : Bool) (rows : List (BitVec 6 × List Word)) (at_ : Option Nat),
    let T := t.toNat
    let V := v.toNat
    let d := subNode p.toNat k.toNat
    let a := SF_BSTAGE T n.toNat 0
    let cls := OBS_CLS_STAT (cciHalf s cci) (cciClass cci)
    let free := mfind s.mgt.bg cci = none ∧ cciReach s cci [tenantHalf T] = true
    let ready := free ∧ rowTaken s a = false
    let w (x : Nat) : Word := BitVec.ofNat 32 x
    let staged (u : State) (w0 w1 : Nat) : Prop := u.rd a = w w0 ∧ u.rd (a + 4) = w w1 ∧ u.rd (a + 8) = w tk.toNat
    let runs (u : State) (code : Nat) (rows : List Nat) : Prop := .ans code rcSTARTED [cci, 0] ∈ u.sent
      ∧ ∃ o, mfind u.mgt.bg cci = some o ∧ o.code = code ∧ o.rows = rows ∧ o.tenant = T
    let refused (u : State) (code ret ext : Nat) : Prop := u.sent = .ans code ret [cci, ext] :: s.sent
      ∧ onlyRegs [cls] { s with sent := u.sent } u
    let bound := mfind (s.binds.get (tenantHalf T)).vb (vpKey T V) = some b
    let unbinds (u : State) (surp : Bool) : Prop := runs u opUNBIND [a]
      ∧ (b.ld = none → staged u (2 * 2 ^ 28 + surp.toNat * 2 ^ 26 + V * 2 ^ 8 + T) (b.sub / 4 * 2 ^ 8 + b.sub % 4 * 2 ^ 6))
      ∧ ∀ l, b.ld = some l →
          staged u (3 * 2 ^ 28 + b.share.toNat * 2 ^ 27 + surp.toNat * 2 ^ 26 + V * 2 ^ 8 + T) (b.sub / 4 * 2 ^ 8 + b.sub % 4 * 2 ^ 6 + l)
    let leaves (u : State) : Prop := (T, V, a, s.now (tenantHalf T)) ∈ u.mgt.managed ∧ (u.vp T V).pds = false ∧ (u.vp T V).pdc = true
      ∧ u.flag (SF_TEN_STAT T) SF_TEN_STAT_HP_WAITING = true
    (ready → ∃ u, exec (.bindVppb cci t v p k none n tk) s = .next u ∧ runs u opBIND [a]
        ∧ staged u (2 * 2 ^ 28 + V * 2 ^ 8 + T) (d / 4 * 2 ^ 8 + d % 4 * 2 ^ 6))
    ∧ (ready → ∃ u, exec (.bindVppb cci t v p k (some l) n tk) s = .next u ∧ runs u opBIND [a]
        ∧ staged u (3 * 2 ^ 28 + V * 2 ^ 8 + T) (d / 4 * 2 ^ 8 + d % 4 * 2 ^ 6 + l.toNat))
    ∧ (rowTaken s a = true → ∃ u, exec (.bindVppb cci t v p k none n tk) s = .next u ∧ refused u opBIND rcBUSY exBUSY)
    ∧ (rowTaken s a = false → cciReach s cci [tenantHalf T] = true → mfind s.mgt.bg cci = some o →
        ∃ u, exec (.bindVppb cci t v p k none n tk) s = .next u ∧ refused u opBIND rcBUSY exBUSY)
    ∧ (ready → bound → ∃ u, exec (.unbindVppbWaitLinkDown cci t v n tk) s = .next u ∧ unbinds u false
        ∧ (if b.ld = none then (a, b.sub) ∈ u.mgt.waitDown else leaves u))
    ∧ (ready → bound → ∃ u, exec (.unbindVppbManaged cci t v n tk) s = .next u ∧ unbinds u false ∧ leaves u)
    ∧ (ready → bound → ∃ u, exec (.unbindVppbSurprise cci t v n tk) s = .next u ∧ unbinds u true ∧ u.mgt.managed = s.mgt.managed)
    ∧ (mfind (s.binds.get (tenantHalf T)).vb (vpKey T V) = none →
        ∃ u, exec (.unbindVppbSurprise cci t v n tk) s = .next u ∧ refused u opUNBIND rcINVALID stNO_TARGET)
    ∧ (ready → ∃ u, exec (.initiateDynamicCapacityAdd cci t p k l base len share n tk) s = .next u ∧ runs u opDCADD [a]
        ∧ staged u (4 * 2 ^ 28 + share.toNat * 2 ^ 27 + T) (d / 4 * 2 ^ 8 + d % 4 * 2 ^ 6 + l.toNat)
        ∧ u.rd (a + 12) = w base ∧ u.rd (a + 16) = w (base / 2 ^ 32) ∧ u.rd (a + 20) = w len ∧ u.rd (a + 24) = w (len / 2 ^ 32))
    ∧ (mfind s.mgt.bg cci = none → cciReach s cci [tenantHalf T, nodeHalf d] = true →
        ∃ u, exec (.initiateDynamicCapacityRelease cci false t p k l base len n tk) s = .next u ∧ runs u opDCREL []
          ∧ .out outFORWARD [opDCREL, d, l.toNat, base, len] ∈ u.sent)
    ∧ (mfind s.mgt.bg cci = some o → o.code = opDCREL → o.rows = [] → o.tenant = T → o.fwd = [d, l.toNat, base, len] →
        rowTaken s a = false →
        ∃ u, exec (.initiateDynamicCapacityRelease cci true 0 0 0 0 0 0 n tk) s = .next u
          ∧ mfind u.mgt.bg cci = some { o with rows := [a] } ∧ staged u (4 * 2 ^ 28 + T) (d / 4 * 2 ^ 8 + d % 4 * 2 ^ 6 + l.toNat)
          ∧ u.rd (a + 12) = w base ∧ u.rd (a + 16) = w (base / 2 ^ 32) ∧ u.rd (a + 20) = w len ∧ u.rd (a + 24) = w (len / 2 ^ 32))
    ∧ (free → 1 ≤ rows.length → rows.length ≤ 8 → (rows.map Prod.fst).Nodup → (∀ r ∈ rows, rowTaken s (SF_BSTAGE T r.1.toNat 0) = false) →
        ∃ u, exec (.stageBindingRows cci t rows tk at_) s = .next u ∧ runs u 0xC001 (rows.map fun r => SF_BSTAGE T r.1.toNat 0)
          ∧ ∀ r ∈ rows, ∀ i, i < 8 → u.rd (SF_BSTAGE T r.1.toNat i) = if i = 2 then w tk.toNat else r.2.getD i 0)
    ∧ (rows = [] ∨ 8 < rows.length → ∃ u, exec (.stageBindingRows cci t rows tk at_) s = .next u ∧ refused u 0xC001 rcINVALID 0)
    ∧ (free → inReset s T = false → ∃ u, exec (.tenantResetCommand cci t) s = .next u ∧ runs u opTENRST []
        ∧ inReset u T = true ∧ mfind u.mgt.rstAt T = some (s.tn (tenantHalf T)))

/-- R448, R450, R452: a Dome power-up loses every state but the flash and the fuses; the Dome starts in STARTUP mode;
the straps are sampled; a reset at POR_L and a cold reset return every register to its reset value but those a cold
reset keeps; a warm reset keeps what the Dome and the Shutter die hold and the sticky fields, and starts both halves
again; a frozen device ignores it. It rests on the model's own choices in log 9, 10, 16, 17. -/
def Obligations.ResetsOfTheDevice : Prop :=
  ∀ (s : State) (m : Master) (prim boot auto_ finder : Bool) (i3c : BitVec 3),
    let strap (u : State) (f : Fld) := u.flag MRD_STRAP f
    let en (u : State) := u.fget MRD_PWR_STAT MRD_PWR_STAT_EN
    let rails (u : State) (again : Bool) : Prop :=
      (en s ≠ 0 → pwrState u = pwDOWN ∧ u.dome.down = some (pwOFF, again) ∧ en u = en s ∧ svcPhase u = svDOME)
        ∧ (en s = 0 → again = false → pwrState u = pwOFF ∧ en u = 0 ∧ svcPhase u = svDOME)
        ∧ (en s = 0 → again = true → pwrState u = pwUP ∧ en u = 1 ∧ svcPhase u = svRAILS)
    let cold (u : State) : Prop := (∀ a, a ≠ MRD_PWR_STAT → a ≠ MRD_SVC_STAT → u.rd a = if coldKept a then s.rd a else resetWord a)
      ∧ (∀ c, (u.chan c).accM = (s.chan c).accM ∧ (u.chan c).accX = (s.chan c).accX ∧ (u.chan c).heat = 0 ∧ (u.chan c).efet = 0)
      ∧ u.trp = State.reset.trp ∧ u.net = State.reset.net ∧ u.fw.minSvn = s.fw.minSvn ∧ u.pending = s.pending
    let again (a : Nat) : Bool := a == MRD_SVC_CTL || a == MRD_SVC_STAT || a == MRD_DBG_STAT || a == UMP_STAT .east || a == UMP_STAT .west
      || (List.range 32).any fun p => a == PRT_SLOT_STAT p
    (∃ u, exec .domePowerUp s = .next u ∧ u = { State.reset with fw := u.fw, spdm := u.spdm, sent := s.sent, fresh := s.fresh, pending := s.pending }
        ∧ u.fw.minSvn = s.fw.minSvn ∧ u.fw.svn = s.fw.svn ∧ u.spdm.certs = s.spdm.certs ∧ u.spdm.sessions = [])
    ∧ (s.dome.run = false → ∃ u, exec .domeStart s = .next u ∧ u.dome.run = true ∧ u.alert.low = false
        ∧ u.fget MRD_ALERT_CTL MRD_ALERT_CTL_MODE = 1 ∧ onlyRegs [MRD_ALERT_CTL] { s with dome := u.dome, alert := u.alert } u)
    ∧ (s.dome.run = true → exec .domeStart s = .next s)
    ∧ (∃ u, exec (.strapSample prim boot auto_ finder i3c) s = .next u ∧ strap u MRD_STRAP_PRIM_SEL = prim ∧ strap u MRD_STRAP_BOOT = boot
        ∧ strap u MRD_STRAP_FINDER_ONLY = finder ∧ strap u MRD_STRAP_PWR_AUTO = auto_ ∧ u.fget MRD_STRAP MRD_STRAP_I3C_ADDR = i3c.toNat
        ∧ (auto_ = true → pwrState s = pwOFF → s.dome.retry = false → s.dome.down = none → pwrState u = pwUP ∧ en u = 1
            ∧ svcPhase u = svRAILS)
        ∧ (s.dome.down = none → auto_ = false ∨ pwrState s ≠ pwOFF ∨ s.dome.retry = true → onlyRegs [MRD_STRAP] s u)
        ∧ ∀ left again, s.dome.down = some (left, again) →
            onlyRegs [MRD_STRAP] { s with dome := { s.dome with down := some (left, again || auto_) } } u)
    ∧ (regsCanon s → ∃ u, exec .porReset s = .next u ∧ cold u ∧ rails u false)
    ∧ (regsCanon s → mayAct s m MRD_RST_CTL →
        ∃ u, exec (.coldReset m) s = .next u ∧ cold u ∧ rails u (s.flag MRD_STRAP MRD_STRAP_PWR_AUTO))
    ∧ (regsCanon s → mayAct s m MRD_RST_CTL → frozen s = false → ∃ u, exec (.warmReset m) s = .next u
        ∧ svcPhase u = svBOOT ∧ u.dome.released = true ∧ u.trp = State.reset.trp ∧ u.net = State.reset.net
        ∧ (∀ a, domeHeld a = true → again a = false → u.rd a = s.rd a)
        ∧ (∀ a, domeHeld a = false → again a = false → u.rd a = rsWord a (s.rd a))
        ∧ ∀ c, (u.chan c).accM = (s.chan c).accM ∧ (u.chan c).heat = (s.chan c).heat)
    ∧ (mayAct s m MRD_RST_CTL → frozen s = true → exec (.warmReset m) s = .next s)

/-- R453-R457, R471, R529: GO starts the rails; each good rail enables the next, and the eighth ends the sequence; a
rail that is late ends the attempt, which is tried again twice before LOCKOUT; DOWN, a rail's fall and a low standby
feed. On the way down the highest rail goes low first, one in each step with no command waiting (log 14). It
rests on the model's own choices in log 14. -/
def Obligations.RailsGoUpAndDown : Prop :=
  ∀ (s : State) (m : Master) (n : BitVec 3) (c left : Nat) (again : Bool),
    let N := n.toNat
    let en (u : State) := u.fget MRD_PWR_STAT MRD_PWR_STAT_EN
    let att (u : State) := u.fget MRD_PWR_STAT MRD_PWR_STAT_ATTEMPTS
    let starts (u : State) : Prop := pwrState u = pwUP ∧ en u = 1 ∧ svcPhase u = svRAILS ∧ u.dome.retry = false
    let pg (u : State) := u.fget MRD_PWR_STAT MRD_PWR_STAT_PG
    let down (u : State) (st : Nat) : Prop := svcPhase u = svDOME
      ∧ (en s = 0 → pwrState u = st ∧ en u = 0 ∧ pg u = 0 ∧ u.dome.down = none)
      ∧ (en s ≠ 0 → pwrState u = pwDOWN ∧ en u = en s ∧ pg u = pg s ∧ u.dome.down = some (st, false))
      ∧ u.dome.released = false ∧ u.trp = State.reset.trp ∧ u.net = State.reset.net
      ∧ (c < 32 → follower s c = false → shtState s c ≠ stGFAULT → shtState u c = stOFF)
      ∧ (c < 32 → u.flag (SHT_STAT c) SHT_STAT_AUX_ON = false)
    let waits := pwrState s = pwUP ∧ railEn s N = true ∧ railPg s N = false
    let falls (x : Option (Nat × Bool)) (r : Bool) : State := { s with dome := { s.dome with down := x, retry := r } }
    (mayAct s m MRD_PWR_CTL → pwrState s ≠ pwUP → pwrState s ≠ pwON → s.dome.down = none →
        ∃ u, exec (.railGo m) s = .next u ∧ starts u ∧ att u = 0
          ∧ onlyRegs [MRD_PWR_STAT, MRD_SVC_STAT] { s with dome := u.dome } u)
    ∧ (mayAct s m MRD_PWR_CTL → pwrState s = pwUP ∨ pwrState s = pwON → exec (.railGo m) s = .next s)
    ∧ (mayAct s m MRD_PWR_CTL → pwrState s ≠ pwUP → pwrState s ≠ pwON → s.dome.down = some (left, again) →
        ∃ u, exec (.railGo m) s = .next u ∧ att u = 0 ∧ onlyRegs [MRD_PWR_STAT] (falls (some (left, true)) false) u)
    ∧ (mayAct s m MRD_PWR_CTL → regsCanon s → pwrState s ≠ pwFAULT → pwrState s ≠ pwLOCKOUT → s.dome.down = none →
        ∃ u, exec (.railDownWrite m) s = .next u ∧ down u pwOFF)
    ∧ (mayAct s m MRD_PWR_CTL → pwrState s ≠ pwFAULT → pwrState s ≠ pwLOCKOUT → s.dome.down = some (left, again) →
        exec (.railDownWrite m) s = .next (falls (some (left, false)) false))
    ∧ (mayAct s m MRD_PWR_CTL → pwrState s = pwFAULT ∨ pwrState s = pwLOCKOUT → exec (.railDownWrite m) s = .next s)
    ∧ (waits → N = 7 → ∃ u, exec (.railEnableNext n) s = .next u ∧ pwrState u = pwON ∧ att u = 0 ∧ railPg u 7 = true
        ∧ onlyRegs [MRD_PWR_STAT] s u)
    ∧ (waits → N < 7 → railEn s (N + 1) = false → ∃ u, exec (.railEnableNext n) s = .next u ∧ pwrState u = pwUP
        ∧ onlyRegs [MRD_PWR_STAT] s u ∧ ∀ i, i < 8 →
          railPg u i = (railPg s i || decide (i = N)) ∧ railEn u i = (railEn s i || decide (i = N + 1)))
    ∧ (¬ waits → exec (.railEnableNext n) s = .next s ∧ exec (.railPgTimeout n) s = .next s)
    ∧ (waits → regsCanon s → ∃ u, exec (.railPgTimeout n) s = .next u ∧ down u pwOFF
        ∧ u.fget MRD_PWR_STAT MRD_PWR_STAT_FAIL_RAIL = N ∧ att u = min 3 (att s + 1) ∧ u.dome.retry = true)
    ∧ (s.dome.retry = true → s.dome.down = none → att s < 3 → ∃ u, exec .railRetry s = .next u ∧ starts u ∧ att u = att s)
    ∧ (s.dome.retry = true → s.dome.down = none → 3 ≤ att s → ∃ u, exec .railRetry s = .next u ∧ pwrState u = pwLOCKOUT ∧ u.dome.retry = false
        ∧ u.alert.low = true ∧ u.flag MRD_ALERT_CTL MRD_ALERT_CTL_STOPPED = true)
    ∧ (s.dome.retry = false ∨ s.dome.down.isSome = true → exec .railRetry s = .next s)
    ∧ (railEn s N = true → railPg s N = true → regsCanon s → ∃ u, exec (.pwrGoodFall n) s = .next u ∧ down u pwFAULT)
    ∧ (railEn s N = false ∨ railPg s N = false → exec (.pwrGoodFall n) s = .next s)
    ∧ (∃ u, exec .standbyLow s = .next u ∧ refOnly s u
        ∧ (halvesRun s = false → u = s)
        ∧ (halvesRun s = true → ∀ g, (s.ref.get g).recent = [] → u.fget (REF_SEQ g) REF_SEQ_SEQ = (s.fget (REF_SEQ g) REF_SEQ_SEQ + 1) % 2 ^ 32))
    ∧ (s.pending = [] → s.dome.released = false → s.dome.down = some (left, again) → railEn s N = true →
        (∀ j, j < 8 → N < j → railEn s j = false) → ∃ u, step s = .next u
          ∧ (en s ≠ 2 ^ N → onlyRegs [MRD_PWR_STAT] s u ∧ pwrState u = pwrState s ∧ railPg u N = false
              ∧ ∀ i, i < 8 → railEn u i = (railEn s i && decide (i ≠ N)) ∧ (i ≠ N → railPg u i = railPg s i))
          ∧ (en s = 2 ^ N → again = false → onlyRegs [MRD_PWR_STAT] (falls none s.dome.retry) u ∧ pwrState u = left % 8 ∧ en u = 0 ∧ pg u = 0)
          ∧ (en s = 2 ^ N → again = true → pwrState u = pwUP ∧ en u = 1 ∧ pg u = 0 ∧ svcPhase u = svRAILS ∧ u.dome.down = none))
    ∧ (∃ u, exec .domeStop s = .next u ∧ u.dome.run = false ∧ u = { s with dome := u.dome })

/-- R451, R458-R465: the halves are released with both Meridians at 0; the preferred image is checked first and runs
where it is valid, else the other; with neither the boot fails until an image comes through the UART. Finder and trim
requests wait for the boundary, and the third failed training of a stack is an HBM event. The Dome's I3C target
answers until the halves run. It rests on the model's own choices in log 15, 40. -/
def Obligations.HalvesBootAndTrain : Prop :=
  ∀ (s : State) (m : Master) (h : Half) (ra rb r : BitVec 3) (va vb v : BitVec 16)
    (a : Nat) (d : RegDesc) (x : Word),
    let b := MRD_BOOT_STAT
    let answers := s.dome.run = true ∧ (s.dome.released = false ∨ frozen s = true)
    let boots := s.dome.released = true ∧ svcPhase s = svBOOT
    let p := prefImage s
    let res (i : Nat) := if i = 0 then imageResult s ra.toNat va.toNat else imageResult s rb.toNat vb.toNat
    let svn (i : Nat) := if i = 0 then va.toNat else vb.toNat
    let resOf (u : State) (i : Nat) := u.fget b (if i = 0 then MRD_BOOT_STAT_RES_A else MRD_BOOT_STAT_RES_B)
    let runs (u : State) (i : Nat) : Prop := u.fget b MRD_BOOT_STAT_RUNNING = i ∧ u.fget b MRD_BOOT_STAT_SVN = svn i
      ∧ u.flag b MRD_BOOT_STAT_BOOT_FAIL = false ∧ (u.obs.get .east).img = i ∧ (u.obs.get .west).img = i
      ∧ u.flag (OBS_STAT (s.auth .east)) OBS_STAT_ROLE = true ∧ u.flag (OBS_STAT (s.auth .east).other) OBS_STAT_ROLE = false
    let n := nget s.dome.hbmFails h.idx
    let trained := h.idx ∈ s.dome.hbmOk ∨ 3 ≤ n
    let w (k : Nat) : State := { s with dome := { s.dome with hbmFails := nset s.dome.hbmFails h.idx k } }
    (pwrState s = pwON → svcPhase s = svRAILS → s.dome.released = false → ∃ u, exec .halvesRelease s = .next u ∧ u.now .east = 0 ∧ u.now .west = 0
        ∧ u.tn .east = 0 ∧ u.tn .west = 0 ∧ svcPhase u = svBOOT ∧ u.dome.released = true)
    ∧ (pwrState s ≠ pwON ∨ svcPhase s ≠ svRAILS ∨ s.dome.released = true → exec .halvesRelease s = .next s)
    ∧ (boots → res p = 1 → ∃ u, exec (.bootImageCheck ra rb va vb) s = .next u ∧ runs u p ∧ resOf u p = 1
        ∧ resOf u (1 - p) = resOf s (1 - p))
    ∧ (boots → res p ≠ 1 → res (1 - p) = 1 → ∃ u, exec (.bootImageCheck ra rb va vb) s = .next u ∧ runs u (1 - p)
        ∧ resOf u p = res p ∧ resOf u (1 - p) = 1)
    ∧ (boots → res p ≠ 1 → res (1 - p) ≠ 1 → ∃ u, exec (.bootImageCheck ra rb va vb) s = .next u
        ∧ u.flag b MRD_BOOT_STAT_BOOT_FAIL = true ∧ resOf u p = res p ∧ resOf u (1 - p) = res (1 - p) ∧ u.dome.released = false
        ∧ u.alert.low = true ∧ u.flag MRD_ALERT_CTL MRD_ALERT_CTL_STOPPED = true)
    ∧ (¬ boots → exec (.bootImageCheck ra rb va vb) s = .next s)
    ∧ (s.flag b MRD_BOOT_STAT_BOOT_FAIL = true → s.dome.released = false → imageResult s r.toNat v.toNat = 1 → ∃ u, exec (.uartImageLoad r v) s = .next u
        ∧ u.fget b MRD_BOOT_STAT_SVN = v.toNat ∧ (u.obs.get .east).img = 2 ∧ (u.obs.get .west).img = 2 ∧ u.dome.released = true
        ∧ u.fw = s.fw)
    ∧ (s.flag b MRD_BOOT_STAT_BOOT_FAIL = false ∨ s.dome.released = true ∨ imageResult s r.toNat v.toNat ≠ 1 → exec (.uartImageLoad r v) s = .next s)
    ∧ (mayAct s m MRD_SVC_CTL → ∃ u, exec (.finderRequest m) s = .next u ∧ onlyField s u MRD_SVC_CTL MRD_SVC_CTL_FINDER 1)
    ∧ (mayAct s m MRD_SVC_CTL → finderOnly s = false → ∃ u, exec (.trimRequest m) s = .next u ∧ onlyField s u MRD_SVC_CTL MRD_SVC_CTL_TRIM 1)
    ∧ (mayAct s m MRD_SVC_CTL → finderOnly s = true → ∃ u, exec (.trimRequest m) s = .next u ∧ refOnly s u)
    ∧ (¬ trained → ∃ u, exec (.hbmTrainingDone h true) s = .next u ∧ h.idx ∈ u.dome.hbmOk ∧ u = { s with dome := u.dome })
    ∧ (¬ trained → n < 2 → exec (.hbmTrainingDone h false) s = .next (w (n + 1)))
    ∧ (¬ trained → n = 2 → ∃ u, exec (.hbmTrainingDone h false) s = .next u ∧ refOnly (w 3) u)
    ∧ (trained → ∀ ok, exec (.hbmTrainingDone h ok) s = .next s)
    ∧ (answers → a % 4 = 0 → a < 0x01000000 → domeReg a = none →
        exec (.domeI3cAccess a none) s = .next { s with sent := .out outREAD [a, 0] :: s.sent }
        ∧ exec (.domeI3cAccess a (some x)) s = .next s)
    ∧ (answers → a % 4 = 0 → a < 0x01000000 → domeReg a = some d → d.lo64 = false → rcMask d.flds = 0 → a ≠ MRD_DBG_NONCE 0 → s.latches = [] →
        exec (.domeI3cAccess a none) s = .next { s with sent := .out outREAD [a, (s.rd a).toNat] :: s.sent })
    ∧ (answers → ∃ u, exec (.domeI3cAccess MRD_BOOT_CTL (some x)) s = .next u ∧ onlyRegs [MRD_BOOT_CTL] s u
        ∧ u.fget MRD_BOOT_CTL MRD_BOOT_CTL_PREF = fldGet x MRD_BOOT_CTL_PREF
        ∧ u.fget MRD_BOOT_CTL MRD_BOOT_CTL_PREF_V = fldGet x MRD_BOOT_CTL_PREF_V)
    ∧ (¬ answers → ∀ y, exec (.domeI3cAccess a y) s = .next s)

/-- R475-R478, R480, R482, R484, R489: a watchdog is kicked; one that runs out on the primary hands over to the
standby, on the standby makes it not ready; a cluster that has restarted is the standby, or the primary where there is
none; a planned handover swaps the roles and moves the queues; a message joins its class queue, or is answered Busy.
It rests on the model's own choices in log 92, 109, 110. -/
def Obligations.ClustersHandOverAndQueue : Prop :=
  ∀ (s : State) (m : Master) (h : Half) (b typ code len c : Nat) (e : Option Nat),
    let role (u : State) (h : Half) := u.flag (OBS_STAT h) OBS_STAT_ROLE
    let ready (u : State) (h : Half) := u.flag (OBS_STAT h) OBS_STAT_STANDBY_READY
    let journal (u : State) (h : Half) := u.flag (OBS_STAT h) OBS_STAT_JOURNAL_OK
    let due := (s.obs.get h).held = false
      ∧ (s.obs.get h).kick + max 1 (s.fget (OBS_WDOG h) OBS_WDOG_TMO) * 1000000 ≤ s.now h
    let may := ready s h = true ∧ journal s h = true ∧ isSplit s h = false
    let queued (u : State) (h : Half) := u.fget (OBS_CLS_STAT h c) OBS_CLS_STAT_QUEUED
    let cls := OBS_CLS_STAT (mctpHalf s b) (mctpClass s b typ code)
    let taken := mctpAccepts s b typ = true ∧ len ≤ 8192
    (mayAct s m (OBS_WDOG h) → ∃ u, exec (.obsWatchdogKick m h) s = .next u ∧ (u.obs.get h).kick = s.now h ∧ u = { s with obs := u.obs })
    ∧ (¬ due → exec (.obsWatchdogExpiry h) s = .next s)
    ∧ (due → role s h = true → ∃ u, exec (.obsWatchdogExpiry h) s = .next u ∧ role u h = false ∧ (u.obs.get h).held = true
        ∧ u.fget (OBS_ERRCNT h) OBS_ERRCNT_FAILOVER_CNT
            = min (s.fget (OBS_ERRCNT h) OBS_ERRCNT_FAILOVER_CNT + 1) (2 ^ OBS_ERRCNT_FAILOVER_CNT.width - 1)
        ∧ journal u .east = false ∧ journal u .west = false ∧ u.fget MRD_ALERT_CTL MRD_ALERT_CTL_MODE = 3
        ∧ ((s.obs.get h.other).held = false → role u h.other = true) ∧ u.spdm.sessions = [] ∧ u.fw.xfer = none
        ∧ (c < 67 → queued u h = 0))
    ∧ (due → role s h = false → ∃ u, exec (.obsWatchdogExpiry h) s = .next u ∧ (u.obs.get h).held = true ∧ ready u h.other = false
        ∧ journal u .east = false ∧ journal u .west = false ∧ role u h = false ∧ role u h.other = role s h.other)
    ∧ (role s h = true → exec (.clusterRestartDone h) s = .next s)
    ∧ (role s h = false → s.fw.act = none → ∃ u, exec (.clusterRestartDone h) s = .next u ∧ (u.obs.get h).held = false
        ∧ (u.obs.get h).kick = s.now h ∧ (role s h.other = true → ready u h.other = true ∧ role u h = false)
        ∧ (role s h.other = false → role u h = true) ∧ onlyRegs [OBS_STAT .east, OBS_STAT .west] { s with obs := u.obs } u)
    ∧ (mayAct s m (OBS_CTL h) → may → ∃ u, exec (.handoverRequest m h) s = .next u ∧ u.fw.handover = some h ∧ u = { s with fw := u.fw })
    ∧ (mayAct s m (OBS_CTL h) → ¬ may → ∃ u, exec (.handoverRequest m h) s = .next u
        ∧ onlyField s u (OBS_ERRCNT h) OBS_ERRCNT_HO_REFUSED_CNT
            (min (s.fget (OBS_ERRCNT h) OBS_ERRCNT_HO_REFUSED_CNT + 1) (2 ^ OBS_ERRCNT_HO_REFUSED_CNT.width - 1)))
    ∧ (s.fw.handover = some h → s.fw.act = none → ∃ u, exec .handoverDone s = .next u ∧ role u h = false ∧ role u h.other = true
        ∧ ready u h = false ∧ ready u h.other = true ∧ u.fw.handover = none
        ∧ (c < 67 → queued u h = 0
            ∧ queued u h.other = if queued s h = 0 then queued s h.other else min 16 (queued s h.other + queued s h)))
    ∧ (s.fw.handover = none → exec .handoverDone s = .next s)
    ∧ (isSplit s .east = false → isSplit s .west = false → ∃ u, exec .journalRebuildDone s = .next u
        ∧ journal u .east = true ∧ journal u .west = true ∧ role u h = role s h ∧ onlyRegs [OBS_STAT .east, OBS_STAT .west] s u)
    ∧ (isSplit s h = true → exec .journalRebuildDone s = .next s)
    ∧ (¬ taken → exec (.mctpMessage b typ code len e) s = .next { s with sent := .out outMCTPERR [b, typ] :: s.sent })
    ∧ (taken → typ = 0 → ∃ u, exec (.mctpMessage b typ code len e) s = .next u ∧ u.sent = .out outMCTPCTL [b, code] :: s.sent
        ∧ (∀ i, e = some i → mfind u.mctp.eids b = some i) ∧ u = { s with sent := u.sent, mctp := u.mctp })
    ∧ (taken → typ ≠ 0 → s.fget cls OBS_CLS_STAT_QUEUED < 16 →
        ∃ u, exec (.mctpMessage b typ code len e) s = .next u ∧ onlyField s u cls OBS_CLS_STAT_QUEUED (s.fget cls OBS_CLS_STAT_QUEUED + 1))
    ∧ (taken → typ ≠ 0 → 16 ≤ s.fget cls OBS_CLS_STAT_QUEUED → ∃ u, exec (.mctpMessage b typ code len e) s = .next u
        ∧ onlyField { s with sent := u.sent } u cls OBS_CLS_STAT_BUSY_CNT
            (min (s.fget cls OBS_CLS_STAT_BUSY_CNT + 1) (2 ^ OBS_CLS_STAT_BUSY_CNT.width - 1))
        ∧ (typ ≠ 5 → typ ≠ 6 → u.sent = .ans code rcBUSY [b, exBUSY] :: s.sent))

/-- R204, R206, R481, R488-R490: SPDM requests are answered with measurements, chains and sessions; firmware is
transferred in order to the slot not running, activated, and its security version committed; an abort cancels the rows
of a background operation. It rests on the model's own choices in log 92, 108, 111. -/
def Obligations.FirmwareSpdmAndAborts : Prop :=
  ∀ (s : State) (cci slot off len i a w : Nat) (h : Half) (pl : SpdmPlace) (last online compat : Bool) (r : BitVec 3) (v : BitVec 16)
    (o : BgOp) (x : Activation),
    let p := obsPrimary s
    let house := OBS_CLS_STAT (cciHalf s cci) 2
    let answers (u : State) (code ret : Nat) (data : List Nat) : Prop := u.sent = .ans code ret (cci :: 0 :: data) :: s.sent
    let spdm (u : State) (l : List Nat) : Prop := u.sent = .out outSPDM (placeNo pl :: l) :: s.sent
    let own := placeResponds pl = true
    let goes := match s.fw.xfer with | some (k, o) => if k = slot then o else 0 | none => 0
    let fits := (slot = 1 ∨ slot = 2) ∧ slot ≠ slotRunning s ∧ (off = 0 ∨ off = goes)
    let east := (s.obs.get .east).held = false ∧ cciReach s cci [.east] = true
    let good := (slot = 1 ∨ slot = 2) ∧ imageResult s r.toNat v.toNat = 1
    let both := v.toNat = s.fget MRD_BOOT_STAT MRD_BOOT_STAT_SVN ∧ (s.obs.get .east).img = (s.obs.get .west).img
      ∧ (s.obs.get .east).held = false ∧ (s.obs.get .west).held = false
    (own → (∃ u, exec (.spdmMessage pl (.measurement 5)) s = .next u ∧ spdm u [0xE0, 0, s.fw.minSvn])
      ∧ (5 < i → ∃ u, exec (.spdmMessage pl (.measurement i)) s = .next u ∧ spdm u [0xE0, 1])
      ∧ (1 ≤ i → i ≤ 7 → ∃ u, exec (.spdmMessage pl (.setCertificate i a true)) s = .next u ∧ spdm u [0xEE, 0, i]
          ∧ mfind u.spdm.certs i = some a)
      ∧ (∃ u, exec (.spdmMessage pl (.setCertificate i a false)) s = .next u ∧ spdm u [0xEE, 1] ∧ u.spdm = s.spdm)
      ∧ (1 ≤ i → mfind s.spdm.certs i = some a → ∃ u, exec (.spdmMessage pl (.certificate i)) s = .next u ∧ spdm u [0x82, 0, a]))
    ∧ (∃ u, exec (.spdmMessage pl (.startSession i)) s = .next u ∧ (placeNo pl, i) ∈ u.spdm.sessions)
    ∧ (∃ u, exec (.spdmMessage pl (.endSession i)) s = .next u ∧ (placeNo pl, i) ∉ u.spdm.sessions)
    ∧ (∃ u, exec (.getFwInfo cci) s = .next u ∧ answers u 0x0200 rcSUCCESS [2, slotRunning s, nget s.fw.svn 0, nget s.fw.svn 1]
        ∧ onlyField { s with sent := u.sent } u house OBS_CLS_STAT_QUEUED (s.fget house OBS_CLS_STAT_QUEUED - 1))
    ∧ (east → fits → ∃ u, exec (.transferFw cci slot off len last v) s = .next u ∧ answers u 0x0201 rcSUCCESS []
        ∧ u.fw.xfer = (if last then none else some (slot, off + len))
        ∧ nget u.fw.svn (slot - 1) = if last then v.toNat else nget s.fw.svn (slot - 1))
    ∧ (east → ¬ fits → ∃ u, exec (.transferFw cci slot off len last v) s = .next u ∧ answers u 0x0201 rcINVALID [] ∧ u.fw = s.fw)
    ∧ (¬ good ∨ (online = true ∧ compat = false) →
        ∃ u, exec (.activateFw cci slot online r v compat) s = .next u ∧ answers u opACTFW rcINVALID [] ∧ u.fw = s.fw)
    ∧ (good → ∃ u, exec (.activateFw cci slot false r v compat) s = .next u ∧ answers u opACTFW rcSUCCESS []
        ∧ u.fget MRD_BOOT_CTL MRD_BOOT_CTL_PREF = slot - 1 ∧ u.flag MRD_BOOT_CTL MRD_BOOT_CTL_PREF_V = true ∧ u.fw = s.fw)
    ∧ (good → compat = true → cciReach s cci [.east, .west] = true → mfind s.mgt.bg cci = none → s.fw.act = none →
        ∃ u, exec (.activateFw cci slot true r v compat) s = .next u ∧ answers u opACTFW rcSTARTED []
          ∧ u.fw.act = some ⟨cci, slot - 1, v.toNat, false⟩ ∧ (u.obs.get p.other).held = true
          ∧ u.flag (OBS_STAT p) OBS_STAT_STANDBY_READY = false)
    ∧ (both → ∃ u, exec (.commitSecurityVersion cci v) s = .next u ∧ answers u 0xC032 rcSUCCESS []
        ∧ u.fw.minSvn = max s.fw.minSvn v.toNat)
    ∧ (¬ both → ∃ u, exec (.commitSecurityVersion cci v) s = .next u ∧ answers u 0xC032 rcINVALID [] ∧ u.fw = s.fw)
    ∧ (mfind s.mgt.bg cci = none → ∃ u, exec (.fmRequestAbortBackgroundOp cci) s = .next u ∧ answers u 0x0005 rcSUCCESS []
        ∧ u.mgt = s.mgt)
    ∧ (mfind s.mgt.bg cci = some o → o.code ≠ opACTFW → o.rows = [a] → rowWord2 a = some (h, w) → w < 0x0F000000 →
        (s.rd w).getLsbD 31 = false → ∃ u, exec (.fmRequestAbortBackgroundOp cci) s = .next u ∧ answers u 0x0005 rcSUCCESS []
          ∧ u.rd w = s.rd w ||| 0x80000000)
    ∧ (mfind s.mgt.bg cci = some o → o.code = opACTFW → s.fw.act = some x → (s.obs.get p).img ≠ x.slot →
        ∃ u, exec (.fmRequestAbortBackgroundOp cci) s = .next u ∧ u.fw.act = none ∧ mfind u.mgt.bg cci = none
          ∧ mfind u.mgt.last cci = some (opACTFW, rcABORTED, 0) ∧ (u.obs.get p.other).img = (s.obs.get p).img)
    ∧ (mfind s.mgt.bg cci = some o → o.code = opACTFW → s.fw.act = some x → (s.obs.get p).img = x.slot →
        ∃ u, exec (.fmRequestAbortBackgroundOp cci) s = .next u ∧ u.fw.act = some x ∧ mfind u.mgt.bg cci = some { o with late := true })

/-- R491-R495: the nonce, the signature and the eight failures that lock authentication; deauthentication; the TAP's
instructions, those that drive the boundary only when authenticated with the rails not up; control of a standby core;
the freeze and its scan. It rests on the model's own choices in log 12, 106, 107. -/
def Obligations.DebugTapAndFreeze : Prop :=
  ∀ (s : State) (m : Master) (h : Half) (c : BitVec 2) (op : CoreOp) (k : Nat) (good : Bool) (balls cells : List Bool),
    let d := MRD_DBG_STAT
    let auth (u : State) := u.flag d MRD_DBG_STAT_AUTH
    let grants := good = true ∧ s.dome.nonce = true ∧ s.flag d MRD_DBG_STAT_DISABLED = false
    let n := min 8 (s.fget d MRD_DBG_STAT_AUTHFAIL + 1)
    let locked := s.flag d MRD_DBG_STAT_LOCKOUT
    let ir (i : TapIr) : State := { s with tap := { s.tap with ir := i } }
    let drives := auth s = true ∧ svcPhase s ≤ svRAILS
    let standby := auth s = true ∧ isPrimary s h = false
    let st := MRD_FRZ_STAT
    (mayAct s (.obs h k) (MRD_DBG_NONCE 0) → s.latches = [] → ∃ u, exec (.dbgNonceRead (.obs h k)) s = .next u
        ∧ u.dome.nonce = true ∧ u.sent = .out outREAD [MRD_DBG_NONCE 0, (u.rd (MRD_DBG_NONCE 0)).toNat] :: s.sent
        ∧ ∀ a, (∀ i, i < 12 → a ≠ MRD_DBG_NONCE i) → u.rd a = s.rd a)
    ∧ (locked = true → exec (.dbgAuthSignature good) s = .next s)
    ∧ (locked = false → grants → ∃ u, exec (.dbgAuthSignature good) s = .next u ∧ auth u = true
        ∧ u.flag (UMP_STAT .east) UMP_STAT_DBG_AUTH = true ∧ u.flag (UMP_STAT .west) UMP_STAT_DBG_AUTH = true
        ∧ onlyRegs [d, UMP_STAT .east, UMP_STAT .west] s u)
    ∧ (locked = false → ¬ grants → ∃ u, exec (.dbgAuthSignature good) s = .next u ∧ auth u = auth s ∧ u.dome.nonce = false
        ∧ u.fget d MRD_DBG_STAT_AUTHFAIL = n ∧ u.flag d MRD_DBG_STAT_LOCKOUT = decide (8 ≤ n)
        ∧ ∀ i, i < 12 → u.rd (MRD_DBG_NONCE i) = 0)
    ∧ (mayAct s m MRD_DBG_CTL → ∃ u, exec (.dbgDeauth m) s = .next u ∧ auth u = false
        ∧ u.flag (UMP_STAT .east) UMP_STAT_DBG_AUTH = false ∧ u.flag (UMP_STAT .west) UMP_STAT_DBG_AUTH = false
        ∧ onlyRegs [d, UMP_STAT .east, UMP_STAT .west] s u)
    ∧ exec .jtagIdcode s = .next { ir .idcode with sent := .out outTDO [0x15120001] :: s.sent }
    ∧ exec .jtagBypass s = .next (ir .bypass)
    ∧ exec (.jtagSamplePreload balls cells) s
        = .next { s with tap := ⟨.sample, cells⟩, sent := .out outTDO (balls.map Bool.toNat) :: s.sent }
    ∧ (drives → exec .jtagExtest s = .next (ir .extest) ∧ exec .jtagClamp s = .next (ir .clamp) ∧ exec .jtagHighz s = .next (ir .highz))
    ∧ (¬ drives → exec .jtagExtest s = .next s ∧ exec .jtagClamp s = .next s ∧ exec .jtagHighz s = .next s)
    ∧ (standby → ∃ u, exec (.dbgCoreControl h c op) s = .next u
        ∧ (op = .halt → c.toNat ∈ (u.obs.get h).halted) ∧ (op = .resume → c.toNat ∉ (u.obs.get h).halted)
        ∧ (op = .step ∨ op = .abstract → (u.obs.get h).halted = (s.obs.get h).halted)
        ∧ (isPrimary s h.other = true → u.flag (OBS_STAT h.other) OBS_STAT_STANDBY_READY
            = ((u.obs.get h).halted.isEmpty && !(s.obs.get h).held))
        ∧ onlyRegs [OBS_STAT h.other] { s with obs := u.obs } u)
    ∧ (¬ standby → exec (.dbgCoreControl h c op) s = .next s)
    ∧ (s.flag MRD_FRZ_CTL MRD_FRZ_CTL_EN = true → s.dome.released = true → ∃ u, exec .freeze s = .next u ∧ frozen u = true
        ∧ u.alert.low = true ∧ u.flag MRD_ALERT_CTL MRD_ALERT_CTL_STOPPED = true
        ∧ onlyRegs [st, MRD_ALERT_CTL] { s with alert := u.alert } u)
    ∧ (s.flag MRD_FRZ_CTL MRD_FRZ_CTL_EN = false ∨ s.dome.released = false → exec .freeze s = .next s)
    ∧ (frozen s = true → auth s = true → ∃ u, exec .freezeScan s = .next u ∧ u.tap.ir = .freezeScan
        ∧ u.sent = .out outFREEZE (freezeSet s) :: s.sent
        ∧ u.fget st MRD_FRZ_STAT_READOUT = min (s.fget st MRD_FRZ_STAT_READOUT + 1) (2 ^ MRD_FRZ_STAT_READOUT.width - 1))
    ∧ (frozen s = false ∨ auth s = false → exec .freezeScan s = .next s)

/-- R8, R31, R46, R448: after Dome power-up every register reads its reset value, both Meridians stand at 0, no
command waits, and the pairs' invariant holds. It rests on the model's own choices in log 9, 10, 11, 117. -/
def Obligations.ResetState : Prop :=
  (∀ a, State.reset.rd a = resetWord a) ∧ State.reset.pending = [] ∧ State.reset.viral = []
    ∧ (∀ h : Half, State.reset.now h = 0 ∧ State.reset.tn h = 0 ∧ pairInv (State.reset.trp.get h)
        ∧ (State.reset.trp.get h).w = Vector.replicate 16 0)
    ∧ (∀ h : Half, State.reset.fget (REF_AGE h) REF_AGE_THR = 300 ∧ State.reset.rd (REF_CTL h) = 3
        ∧ State.reset.rd (QOS_ROT_QUOTA0 h) = 0x30206000 ∧ State.reset.rd (CORE_CTL h) = 1)
    ∧ (∀ c : BitVec 5, State.reset.rd (SHT_RAMP c.toNat) = 0x00500BB8 ∧ State.reset.rd (SHT_HTRIP c.toNat) = 0x2800
        ∧ State.reset.rd (PRT_EQ_CFG c.toNat) = 0x444444)
    ∧ State.reset.rd MRD_PWR_CTL = 0x140100 ∧ regsCanon State.reset
end

