-- ==== Sys2Proof/Laws/Sparse.lean ====
section
/-! SUPPORT. The laws of sparse tables: a read after a write to the same key gives the value written, a
write leaves every other key alone, and every operation keeps the canonical form. -/

namespace Sys2Proof.Machine

variable {α : Type}

theorem mfind_eq_none_of_forall_ne (m : SMap α) (k : Nat) (h : ∀ e ∈ m, k ≠ e.1) : mfind m k = none := by
  induction m with
  | nil => rfl
  | cons a r ih =>
    obtain ⟨j, y⟩ := a
    have hj : k ≠ j := h (j, y) (by simp)
    have hr : mfind r k = none := ih fun e he => h e (by simp [he])
    simp [mfind, hj, hr]

@[simp] theorem mfind_minsert_same (m : SMap α) (k : Nat) (x : α) : mfind (minsert m k x) k = some x := by
  induction m with
  | nil => simp [minsert, mfind]
  | cons a r ih =>
    obtain ⟨j, y⟩ := a
    unfold minsert
    split
    · simp [mfind]
    · split
      · simp [mfind]
      · next h1 h2 => simp [mfind, h2, ih]

theorem mfind_minsert_ne (m : SMap α) {k j : Nat} (x : α) (h : j ≠ k) :
    mfind (minsert m k x) j = mfind m j := by
  induction m with
  | nil => simp [minsert, mfind, h]
  | cons a r ih =>
    obtain ⟨i, y⟩ := a
    unfold minsert
    split
    · simp [mfind, h]
    · split
      · next h1 h2 => subst h2; simp [mfind, h]
      · simp only [mfind, ih]

theorem mfind_merase_ne (m : SMap α) {k j : Nat} (h : j ≠ k) : mfind (merase m k) j = mfind m j := by
  induction m with
  | nil => rfl
  | cons a r ih =>
    obtain ⟨i, y⟩ := a
    unfold merase
    split
    · next h1 => subst h1; simp [mfind, h, ih]
    · simp only [mfind, ih]

theorem wf_cons {j : Nat} {y : α} {r : SMap α} :
    SMap.wf ((j, y) :: r) = true ↔ (∀ e ∈ r, j < e.1) ∧ SMap.wf r = true := by
  simp [SMap.wf]

@[simp] theorem mfind_merase_same (m : SMap α) (k : Nat) : mfind (merase m k) k = none := by
  induction m with
  | nil => rfl
  | cons a r ih =>
    obtain ⟨i, y⟩ := a
    unfold merase
    split
    · exact ih
    · next h => simp [mfind, h, ih]

theorem mem_minsert (m : SMap α) (k : Nat) (x : α) {e : Nat × α} (h : e ∈ minsert m k x) :
    e = (k, x) ∨ e ∈ m := by
  induction m with
  | nil => simpa [minsert] using h
  | cons a r ih =>
    obtain ⟨i, y⟩ := a
    unfold minsert at h
    split at h
    · simpa using h
    · split at h
      · simp only [List.mem_cons] at h ⊢; tauto
      · simp only [List.mem_cons] at h ⊢
        rcases h with h | h
        · exact Or.inr (Or.inl h)
        · rcases ih h with h | h <;> tauto

theorem mem_merase (m : SMap α) (k : Nat) {e : Nat × α} (h : e ∈ merase m k) : e ∈ m := by
  induction m with
  | nil => simp [merase] at h
  | cons a r ih =>
    obtain ⟨i, y⟩ := a
    unfold merase at h
    split at h
    · exact List.mem_cons_of_mem _ (ih h)
    · simp only [List.mem_cons] at h ⊢
      rcases h with h | h
      · exact Or.inl h
      · exact Or.inr (ih h)

theorem minsert_wf (m : SMap α) (k : Nat) (x : α) (hw : SMap.wf m = true) : SMap.wf (minsert m k x) = true := by
  induction m with
  | nil => simp [minsert, SMap.wf]
  | cons a r ih =>
    obtain ⟨i, y⟩ := a
    obtain ⟨h1, h2⟩ := wf_cons.mp hw
    unfold minsert
    split
    · next h =>
      refine wf_cons.mpr ⟨fun e he => ?_, hw⟩
      rcases List.mem_cons.mp he with rfl | he
      · exact h
      · exact lt_trans h (h1 e he)
    · split
      · next h h' => subst h'; exact wf_cons.mpr ⟨h1, h2⟩
      · next h h' =>
        refine wf_cons.mpr ⟨fun e he => ?_, ih h2⟩
        rcases mem_minsert r k x he with rfl | he
        · show i < k; omega
        · exact h1 e he

theorem merase_wf (m : SMap α) (k : Nat) (hw : SMap.wf m = true) : SMap.wf (merase m k) = true := by
  induction m with
  | nil => rfl
  | cons a r ih =>
    obtain ⟨i, y⟩ := a
    obtain ⟨h1, h2⟩ := wf_cons.mp hw
    unfold merase
    split
    · exact ih h2
    · exact wf_cons.mpr ⟨fun e he => h1 e (mem_merase r k he), ih h2⟩

variable [DecidableEq α]

@[simp] theorem mget_mset_same (d : Nat → α) (m : SMap α) (k : Nat) (x : α) : mget d (mset d m k x) k = x := by
  unfold mset
  split
  · next h => simp [mget, h]
  · simp [mget]

theorem mget_mset_ne (d : Nat → α) (m : SMap α) {k j : Nat} (x : α) (h : j ≠ k) :
    mget d (mset d m k x) j = mget d m j := by
  unfold mset
  split
  · simp [mget, mfind_merase_ne m h]
  · simp [mget, mfind_minsert_ne m x h]

/-- Every write of a table keeps its canonical form. -/
theorem mset_canon (d : Nat → α) (m : SMap α) (k : Nat) (x : α) (hc : canon d m = true) :
    canon d (mset d m k x) = true := by
  simp only [canon, Bool.and_eq_true, List.all_eq_true, decide_eq_true_eq] at hc ⊢
  unfold mset
  split
  · exact ⟨merase_wf m k hc.1, fun e he => hc.2 e (mem_merase m k he)⟩
  · next h =>
    refine ⟨minsert_wf m k x hc.1, fun e he => ?_⟩
    rcases mem_minsert m k x he with rfl | he
    · exact h
    · exact hc.2 e he

end Sys2Proof.Machine
end

