-- ==== Sys2Proof/Laws/State.lean ====
section
/-! SUPPORT. For each update of the state, what it leaves of every field it does not touch, so that no proof unfolds a record
update. -/

namespace Sys2Proof.Machine

open Sys2Proof

@[simp] theorem pair_get_set_same {α : Type} (p : Pair α) (h : Half) (x : α) : (p.set h x).get h = x := by cases h <;> rfl
@[simp] theorem pair_get_set_other {α : Type} (p : Pair α) (h : Half) (x : α) : (p.set h x).get h.other = p.get h.other := by
  cases h <;> rfl
@[simp] theorem pair_get_other_set {α : Type} (p : Pair α) (h : Half) (x : α) : (p.set h.other x).get h = p.get h := by
  cases h <;> rfl
@[simp] theorem half_other_other (h : Half) : h.other.other = h := by cases h <;> rfl
@[simp] theorem half_other_ne (h : Half) : h.other ≠ h := by cases h <;> decide

@[simp] theorem State.wr_latches (s : State) (a : Nat) (v : Word) : (s.wr a v).latches = s.latches := rfl
@[simp] theorem State.wr_heldLow (s : State) (a : Nat) (v : Word) : (s.wr a v).heldLow = s.heldLow := rfl
@[simp] theorem State.wr_mrd (s : State) (a : Nat) (v : Word) : (s.wr a v).mrd = s.mrd := rfl
@[simp] theorem State.wr_trp (s : State) (a : Nat) (v : Word) : (s.wr a v).trp = s.trp := rfl
@[simp] theorem State.wr_ref (s : State) (a : Nat) (v : Word) : (s.wr a v).ref = s.ref := rfl
@[simp] theorem State.wr_phm (s : State) (a : Nat) (v : Word) : (s.wr a v).phm = s.phm := rfl
@[simp] theorem State.wr_ump (s : State) (a : Nat) (v : Word) : (s.wr a v).ump = s.ump := rfl
@[simp] theorem State.wr_subs (s : State) (a : Nat) (v : Word) : (s.wr a v).subs = s.subs := rfl
@[simp] theorem State.wr_core (s : State) (a : Nat) (v : Word) : (s.wr a v).core = s.core := rfl
@[simp] theorem State.wr_net (s : State) (a : Nat) (v : Word) : (s.wr a v).net = s.net := rfl
@[simp] theorem State.wr_cdb (s : State) (a : Nat) (v : Word) : (s.wr a v).cdb = s.cdb := rfl
@[simp] theorem State.wr_binds (s : State) (a : Nat) (v : Word) : (s.wr a v).binds = s.binds := rfl
@[simp] theorem State.wr_qos (s : State) (a : Nat) (v : Word) : (s.wr a v).qos = s.qos := rfl
@[simp] theorem State.wr_cat (s : State) (a : Nat) (v : Word) : (s.wr a v).cat = s.cat := rfl
@[simp] theorem State.wr_fns (s : State) (a : Nat) (v : Word) : (s.wr a v).fns = s.fns := rfl
@[simp] theorem State.wr_stk (s : State) (a : Nat) (v : Word) : (s.wr a v).stk = s.stk := rfl
@[simp] theorem State.wr_mgt (s : State) (a : Nat) (v : Word) : (s.wr a v).mgt = s.mgt := rfl
@[simp] theorem State.wr_chans (s : State) (a : Nat) (v : Word) : (s.wr a v).chans = s.chans := rfl
@[simp] theorem State.wr_alert (s : State) (a : Nat) (v : Word) : (s.wr a v).alert = s.alert := rfl
@[simp] theorem State.wr_dome (s : State) (a : Nat) (v : Word) : (s.wr a v).dome = s.dome := rfl
@[simp] theorem State.wr_obs (s : State) (a : Nat) (v : Word) : (s.wr a v).obs = s.obs := rfl
@[simp] theorem State.wr_fw (s : State) (a : Nat) (v : Word) : (s.wr a v).fw = s.fw := rfl
@[simp] theorem State.wr_spdm (s : State) (a : Nat) (v : Word) : (s.wr a v).spdm = s.spdm := rfl
@[simp] theorem State.wr_tap (s : State) (a : Nat) (v : Word) : (s.wr a v).tap = s.tap := rfl
@[simp] theorem State.wr_mctp (s : State) (a : Nat) (v : Word) : (s.wr a v).mctp = s.mctp := rfl
@[simp] theorem State.wr_viral (s : State) (a : Nat) (v : Word) : (s.wr a v).viral = s.viral := rfl
@[simp] theorem State.wr_sent (s : State) (a : Nat) (v : Word) : (s.wr a v).sent = s.sent := rfl
@[simp] theorem State.wr_fresh (s : State) (a : Nat) (v : Word) : (s.wr a v).fresh = s.fresh := rfl
@[simp] theorem State.wr_pending (s : State) (a : Nat) (v : Word) : (s.wr a v).pending = s.pending := rfl

@[simp] theorem State.fset_latches (s : State) (a : Nat) (f : Fld) (n : Nat) : (s.fset a f n).latches = s.latches := rfl
@[simp] theorem State.fset_heldLow (s : State) (a : Nat) (f : Fld) (n : Nat) : (s.fset a f n).heldLow = s.heldLow := rfl
@[simp] theorem State.fset_mrd (s : State) (a : Nat) (f : Fld) (n : Nat) : (s.fset a f n).mrd = s.mrd := rfl
@[simp] theorem State.fset_trp (s : State) (a : Nat) (f : Fld) (n : Nat) : (s.fset a f n).trp = s.trp := rfl
@[simp] theorem State.fset_ref (s : State) (a : Nat) (f : Fld) (n : Nat) : (s.fset a f n).ref = s.ref := rfl
@[simp] theorem State.fset_phm (s : State) (a : Nat) (f : Fld) (n : Nat) : (s.fset a f n).phm = s.phm := rfl
@[simp] theorem State.fset_ump (s : State) (a : Nat) (f : Fld) (n : Nat) : (s.fset a f n).ump = s.ump := rfl
@[simp] theorem State.fset_subs (s : State) (a : Nat) (f : Fld) (n : Nat) : (s.fset a f n).subs = s.subs := rfl
@[simp] theorem State.fset_core (s : State) (a : Nat) (f : Fld) (n : Nat) : (s.fset a f n).core = s.core := rfl
@[simp] theorem State.fset_net (s : State) (a : Nat) (f : Fld) (n : Nat) : (s.fset a f n).net = s.net := rfl
@[simp] theorem State.fset_cdb (s : State) (a : Nat) (f : Fld) (n : Nat) : (s.fset a f n).cdb = s.cdb := rfl
@[simp] theorem State.fset_binds (s : State) (a : Nat) (f : Fld) (n : Nat) : (s.fset a f n).binds = s.binds := rfl
@[simp] theorem State.fset_qos (s : State) (a : Nat) (f : Fld) (n : Nat) : (s.fset a f n).qos = s.qos := rfl
@[simp] theorem State.fset_cat (s : State) (a : Nat) (f : Fld) (n : Nat) : (s.fset a f n).cat = s.cat := rfl
@[simp] theorem State.fset_fns (s : State) (a : Nat) (f : Fld) (n : Nat) : (s.fset a f n).fns = s.fns := rfl
@[simp] theorem State.fset_stk (s : State) (a : Nat) (f : Fld) (n : Nat) : (s.fset a f n).stk = s.stk := rfl
@[simp] theorem State.fset_mgt (s : State) (a : Nat) (f : Fld) (n : Nat) : (s.fset a f n).mgt = s.mgt := rfl
@[simp] theorem State.fset_chans (s : State) (a : Nat) (f : Fld) (n : Nat) : (s.fset a f n).chans = s.chans := rfl
@[simp] theorem State.fset_alert (s : State) (a : Nat) (f : Fld) (n : Nat) : (s.fset a f n).alert = s.alert := rfl
@[simp] theorem State.fset_dome (s : State) (a : Nat) (f : Fld) (n : Nat) : (s.fset a f n).dome = s.dome := rfl
@[simp] theorem State.fset_obs (s : State) (a : Nat) (f : Fld) (n : Nat) : (s.fset a f n).obs = s.obs := rfl
@[simp] theorem State.fset_fw (s : State) (a : Nat) (f : Fld) (n : Nat) : (s.fset a f n).fw = s.fw := rfl
@[simp] theorem State.fset_spdm (s : State) (a : Nat) (f : Fld) (n : Nat) : (s.fset a f n).spdm = s.spdm := rfl
@[simp] theorem State.fset_tap (s : State) (a : Nat) (f : Fld) (n : Nat) : (s.fset a f n).tap = s.tap := rfl
@[simp] theorem State.fset_mctp (s : State) (a : Nat) (f : Fld) (n : Nat) : (s.fset a f n).mctp = s.mctp := rfl
@[simp] theorem State.fset_viral (s : State) (a : Nat) (f : Fld) (n : Nat) : (s.fset a f n).viral = s.viral := rfl
@[simp] theorem State.fset_sent (s : State) (a : Nat) (f : Fld) (n : Nat) : (s.fset a f n).sent = s.sent := rfl
@[simp] theorem State.fset_fresh (s : State) (a : Nat) (f : Fld) (n : Nat) : (s.fset a f n).fresh = s.fresh := rfl
@[simp] theorem State.fset_pending (s : State) (a : Nat) (f : Fld) (n : Nat) : (s.fset a f n).pending = s.pending := rfl

@[simp] theorem State.fsetB_latches (s : State) (a : Nat) (f : Fld) (b : Bool) : (s.fsetB a f b).latches = s.latches := rfl
@[simp] theorem State.fsetB_heldLow (s : State) (a : Nat) (f : Fld) (b : Bool) : (s.fsetB a f b).heldLow = s.heldLow := rfl
@[simp] theorem State.fsetB_mrd (s : State) (a : Nat) (f : Fld) (b : Bool) : (s.fsetB a f b).mrd = s.mrd := rfl
@[simp] theorem State.fsetB_trp (s : State) (a : Nat) (f : Fld) (b : Bool) : (s.fsetB a f b).trp = s.trp := rfl
@[simp] theorem State.fsetB_ref (s : State) (a : Nat) (f : Fld) (b : Bool) : (s.fsetB a f b).ref = s.ref := rfl
@[simp] theorem State.fsetB_phm (s : State) (a : Nat) (f : Fld) (b : Bool) : (s.fsetB a f b).phm = s.phm := rfl
@[simp] theorem State.fsetB_ump (s : State) (a : Nat) (f : Fld) (b : Bool) : (s.fsetB a f b).ump = s.ump := rfl
@[simp] theorem State.fsetB_subs (s : State) (a : Nat) (f : Fld) (b : Bool) : (s.fsetB a f b).subs = s.subs := rfl
@[simp] theorem State.fsetB_core (s : State) (a : Nat) (f : Fld) (b : Bool) : (s.fsetB a f b).core = s.core := rfl
@[simp] theorem State.fsetB_net (s : State) (a : Nat) (f : Fld) (b : Bool) : (s.fsetB a f b).net = s.net := rfl
@[simp] theorem State.fsetB_cdb (s : State) (a : Nat) (f : Fld) (b : Bool) : (s.fsetB a f b).cdb = s.cdb := rfl
@[simp] theorem State.fsetB_binds (s : State) (a : Nat) (f : Fld) (b : Bool) : (s.fsetB a f b).binds = s.binds := rfl
@[simp] theorem State.fsetB_qos (s : State) (a : Nat) (f : Fld) (b : Bool) : (s.fsetB a f b).qos = s.qos := rfl
@[simp] theorem State.fsetB_cat (s : State) (a : Nat) (f : Fld) (b : Bool) : (s.fsetB a f b).cat = s.cat := rfl
@[simp] theorem State.fsetB_fns (s : State) (a : Nat) (f : Fld) (b : Bool) : (s.fsetB a f b).fns = s.fns := rfl
@[simp] theorem State.fsetB_stk (s : State) (a : Nat) (f : Fld) (b : Bool) : (s.fsetB a f b).stk = s.stk := rfl
@[simp] theorem State.fsetB_mgt (s : State) (a : Nat) (f : Fld) (b : Bool) : (s.fsetB a f b).mgt = s.mgt := rfl
@[simp] theorem State.fsetB_chans (s : State) (a : Nat) (f : Fld) (b : Bool) : (s.fsetB a f b).chans = s.chans := rfl
@[simp] theorem State.fsetB_alert (s : State) (a : Nat) (f : Fld) (b : Bool) : (s.fsetB a f b).alert = s.alert := rfl
@[simp] theorem State.fsetB_dome (s : State) (a : Nat) (f : Fld) (b : Bool) : (s.fsetB a f b).dome = s.dome := rfl
@[simp] theorem State.fsetB_obs (s : State) (a : Nat) (f : Fld) (b : Bool) : (s.fsetB a f b).obs = s.obs := rfl
@[simp] theorem State.fsetB_fw (s : State) (a : Nat) (f : Fld) (b : Bool) : (s.fsetB a f b).fw = s.fw := rfl
@[simp] theorem State.fsetB_spdm (s : State) (a : Nat) (f : Fld) (b : Bool) : (s.fsetB a f b).spdm = s.spdm := rfl
@[simp] theorem State.fsetB_tap (s : State) (a : Nat) (f : Fld) (b : Bool) : (s.fsetB a f b).tap = s.tap := rfl
@[simp] theorem State.fsetB_mctp (s : State) (a : Nat) (f : Fld) (b : Bool) : (s.fsetB a f b).mctp = s.mctp := rfl
@[simp] theorem State.fsetB_viral (s : State) (a : Nat) (f : Fld) (b : Bool) : (s.fsetB a f b).viral = s.viral := rfl
@[simp] theorem State.fsetB_sent (s : State) (a : Nat) (f : Fld) (b : Bool) : (s.fsetB a f b).sent = s.sent := rfl
@[simp] theorem State.fsetB_fresh (s : State) (a : Nat) (f : Fld) (b : Bool) : (s.fsetB a f b).fresh = s.fresh := rfl
@[simp] theorem State.fsetB_pending (s : State) (a : Nat) (f : Fld) (b : Bool) : (s.fsetB a f b).pending = s.pending := rfl

@[simp] theorem State.fbump_latches (s : State) (a : Nat) (f : Fld) (n : Nat) : (s.fbump a f n).latches = s.latches := rfl
@[simp] theorem State.fbump_heldLow (s : State) (a : Nat) (f : Fld) (n : Nat) : (s.fbump a f n).heldLow = s.heldLow := rfl
@[simp] theorem State.fbump_mrd (s : State) (a : Nat) (f : Fld) (n : Nat) : (s.fbump a f n).mrd = s.mrd := rfl
@[simp] theorem State.fbump_trp (s : State) (a : Nat) (f : Fld) (n : Nat) : (s.fbump a f n).trp = s.trp := rfl
@[simp] theorem State.fbump_ref (s : State) (a : Nat) (f : Fld) (n : Nat) : (s.fbump a f n).ref = s.ref := rfl
@[simp] theorem State.fbump_phm (s : State) (a : Nat) (f : Fld) (n : Nat) : (s.fbump a f n).phm = s.phm := rfl
@[simp] theorem State.fbump_ump (s : State) (a : Nat) (f : Fld) (n : Nat) : (s.fbump a f n).ump = s.ump := rfl
@[simp] theorem State.fbump_subs (s : State) (a : Nat) (f : Fld) (n : Nat) : (s.fbump a f n).subs = s.subs := rfl
@[simp] theorem State.fbump_core (s : State) (a : Nat) (f : Fld) (n : Nat) : (s.fbump a f n).core = s.core := rfl
@[simp] theorem State.fbump_net (s : State) (a : Nat) (f : Fld) (n : Nat) : (s.fbump a f n).net = s.net := rfl
@[simp] theorem State.fbump_cdb (s : State) (a : Nat) (f : Fld) (n : Nat) : (s.fbump a f n).cdb = s.cdb := rfl
@[simp] theorem State.fbump_binds (s : State) (a : Nat) (f : Fld) (n : Nat) : (s.fbump a f n).binds = s.binds := rfl
@[simp] theorem State.fbump_qos (s : State) (a : Nat) (f : Fld) (n : Nat) : (s.fbump a f n).qos = s.qos := rfl
@[simp] theorem State.fbump_cat (s : State) (a : Nat) (f : Fld) (n : Nat) : (s.fbump a f n).cat = s.cat := rfl
@[simp] theorem State.fbump_fns (s : State) (a : Nat) (f : Fld) (n : Nat) : (s.fbump a f n).fns = s.fns := rfl
@[simp] theorem State.fbump_stk (s : State) (a : Nat) (f : Fld) (n : Nat) : (s.fbump a f n).stk = s.stk := rfl
@[simp] theorem State.fbump_mgt (s : State) (a : Nat) (f : Fld) (n : Nat) : (s.fbump a f n).mgt = s.mgt := rfl
@[simp] theorem State.fbump_chans (s : State) (a : Nat) (f : Fld) (n : Nat) : (s.fbump a f n).chans = s.chans := rfl
@[simp] theorem State.fbump_alert (s : State) (a : Nat) (f : Fld) (n : Nat) : (s.fbump a f n).alert = s.alert := rfl
@[simp] theorem State.fbump_dome (s : State) (a : Nat) (f : Fld) (n : Nat) : (s.fbump a f n).dome = s.dome := rfl
@[simp] theorem State.fbump_obs (s : State) (a : Nat) (f : Fld) (n : Nat) : (s.fbump a f n).obs = s.obs := rfl
@[simp] theorem State.fbump_fw (s : State) (a : Nat) (f : Fld) (n : Nat) : (s.fbump a f n).fw = s.fw := rfl
@[simp] theorem State.fbump_spdm (s : State) (a : Nat) (f : Fld) (n : Nat) : (s.fbump a f n).spdm = s.spdm := rfl
@[simp] theorem State.fbump_tap (s : State) (a : Nat) (f : Fld) (n : Nat) : (s.fbump a f n).tap = s.tap := rfl
@[simp] theorem State.fbump_mctp (s : State) (a : Nat) (f : Fld) (n : Nat) : (s.fbump a f n).mctp = s.mctp := rfl
@[simp] theorem State.fbump_viral (s : State) (a : Nat) (f : Fld) (n : Nat) : (s.fbump a f n).viral = s.viral := rfl
@[simp] theorem State.fbump_sent (s : State) (a : Nat) (f : Fld) (n : Nat) : (s.fbump a f n).sent = s.sent := rfl
@[simp] theorem State.fbump_fresh (s : State) (a : Nat) (f : Fld) (n : Nat) : (s.fbump a f n).fresh = s.fresh := rfl
@[simp] theorem State.fbump_pending (s : State) (a : Nat) (f : Fld) (n : Nat) : (s.fbump a f n).pending = s.pending := rfl

@[simp] theorem State.wr64_latches (s : State) (a v : Nat) : (s.wr64 a v).latches = s.latches := rfl
@[simp] theorem State.wr64_heldLow (s : State) (a v : Nat) : (s.wr64 a v).heldLow = s.heldLow := rfl
@[simp] theorem State.wr64_mrd (s : State) (a v : Nat) : (s.wr64 a v).mrd = s.mrd := rfl
@[simp] theorem State.wr64_trp (s : State) (a v : Nat) : (s.wr64 a v).trp = s.trp := rfl
@[simp] theorem State.wr64_ref (s : State) (a v : Nat) : (s.wr64 a v).ref = s.ref := rfl
@[simp] theorem State.wr64_phm (s : State) (a v : Nat) : (s.wr64 a v).phm = s.phm := rfl
@[simp] theorem State.wr64_ump (s : State) (a v : Nat) : (s.wr64 a v).ump = s.ump := rfl
@[simp] theorem State.wr64_subs (s : State) (a v : Nat) : (s.wr64 a v).subs = s.subs := rfl
@[simp] theorem State.wr64_core (s : State) (a v : Nat) : (s.wr64 a v).core = s.core := rfl
@[simp] theorem State.wr64_net (s : State) (a v : Nat) : (s.wr64 a v).net = s.net := rfl
@[simp] theorem State.wr64_cdb (s : State) (a v : Nat) : (s.wr64 a v).cdb = s.cdb := rfl
@[simp] theorem State.wr64_binds (s : State) (a v : Nat) : (s.wr64 a v).binds = s.binds := rfl
@[simp] theorem State.wr64_qos (s : State) (a v : Nat) : (s.wr64 a v).qos = s.qos := rfl
@[simp] theorem State.wr64_cat (s : State) (a v : Nat) : (s.wr64 a v).cat = s.cat := rfl
@[simp] theorem State.wr64_fns (s : State) (a v : Nat) : (s.wr64 a v).fns = s.fns := rfl
@[simp] theorem State.wr64_stk (s : State) (a v : Nat) : (s.wr64 a v).stk = s.stk := rfl
@[simp] theorem State.wr64_mgt (s : State) (a v : Nat) : (s.wr64 a v).mgt = s.mgt := rfl
@[simp] theorem State.wr64_chans (s : State) (a v : Nat) : (s.wr64 a v).chans = s.chans := rfl
@[simp] theorem State.wr64_alert (s : State) (a v : Nat) : (s.wr64 a v).alert = s.alert := rfl
@[simp] theorem State.wr64_dome (s : State) (a v : Nat) : (s.wr64 a v).dome = s.dome := rfl
@[simp] theorem State.wr64_obs (s : State) (a v : Nat) : (s.wr64 a v).obs = s.obs := rfl
@[simp] theorem State.wr64_fw (s : State) (a v : Nat) : (s.wr64 a v).fw = s.fw := rfl
@[simp] theorem State.wr64_spdm (s : State) (a v : Nat) : (s.wr64 a v).spdm = s.spdm := rfl
@[simp] theorem State.wr64_tap (s : State) (a v : Nat) : (s.wr64 a v).tap = s.tap := rfl
@[simp] theorem State.wr64_mctp (s : State) (a v : Nat) : (s.wr64 a v).mctp = s.mctp := rfl
@[simp] theorem State.wr64_viral (s : State) (a v : Nat) : (s.wr64 a v).viral = s.viral := rfl
@[simp] theorem State.wr64_sent (s : State) (a v : Nat) : (s.wr64 a v).sent = s.sent := rfl
@[simp] theorem State.wr64_fresh (s : State) (a v : Nat) : (s.wr64 a v).fresh = s.fresh := rfl
@[simp] theorem State.wr64_pending (s : State) (a v : Nat) : (s.wr64 a v).pending = s.pending := rfl

@[simp] theorem State.setMer_latches (s : State) (h : Half) (m : Nat) : (s.setMer h m).latches = s.latches := rfl
@[simp] theorem State.setMer_heldLow (s : State) (h : Half) (m : Nat) : (s.setMer h m).heldLow = s.heldLow := rfl
@[simp] theorem State.setMer_mrd (s : State) (h : Half) (m : Nat) : (s.setMer h m).mrd = s.mrd := rfl
@[simp] theorem State.setMer_trp (s : State) (h : Half) (m : Nat) : (s.setMer h m).trp = s.trp := rfl
@[simp] theorem State.setMer_ref (s : State) (h : Half) (m : Nat) : (s.setMer h m).ref = s.ref := rfl
@[simp] theorem State.setMer_phm (s : State) (h : Half) (m : Nat) : (s.setMer h m).phm = s.phm := rfl
@[simp] theorem State.setMer_ump (s : State) (h : Half) (m : Nat) : (s.setMer h m).ump = s.ump := rfl
@[simp] theorem State.setMer_subs (s : State) (h : Half) (m : Nat) : (s.setMer h m).subs = s.subs := rfl
@[simp] theorem State.setMer_core (s : State) (h : Half) (m : Nat) : (s.setMer h m).core = s.core := rfl
@[simp] theorem State.setMer_net (s : State) (h : Half) (m : Nat) : (s.setMer h m).net = s.net := rfl
@[simp] theorem State.setMer_cdb (s : State) (h : Half) (m : Nat) : (s.setMer h m).cdb = s.cdb := rfl
@[simp] theorem State.setMer_binds (s : State) (h : Half) (m : Nat) : (s.setMer h m).binds = s.binds := rfl
@[simp] theorem State.setMer_qos (s : State) (h : Half) (m : Nat) : (s.setMer h m).qos = s.qos := rfl
@[simp] theorem State.setMer_cat (s : State) (h : Half) (m : Nat) : (s.setMer h m).cat = s.cat := rfl
@[simp] theorem State.setMer_fns (s : State) (h : Half) (m : Nat) : (s.setMer h m).fns = s.fns := rfl
@[simp] theorem State.setMer_stk (s : State) (h : Half) (m : Nat) : (s.setMer h m).stk = s.stk := rfl
@[simp] theorem State.setMer_mgt (s : State) (h : Half) (m : Nat) : (s.setMer h m).mgt = s.mgt := rfl
@[simp] theorem State.setMer_chans (s : State) (h : Half) (m : Nat) : (s.setMer h m).chans = s.chans := rfl
@[simp] theorem State.setMer_alert (s : State) (h : Half) (m : Nat) : (s.setMer h m).alert = s.alert := rfl
@[simp] theorem State.setMer_dome (s : State) (h : Half) (m : Nat) : (s.setMer h m).dome = s.dome := rfl
@[simp] theorem State.setMer_obs (s : State) (h : Half) (m : Nat) : (s.setMer h m).obs = s.obs := rfl
@[simp] theorem State.setMer_fw (s : State) (h : Half) (m : Nat) : (s.setMer h m).fw = s.fw := rfl
@[simp] theorem State.setMer_spdm (s : State) (h : Half) (m : Nat) : (s.setMer h m).spdm = s.spdm := rfl
@[simp] theorem State.setMer_tap (s : State) (h : Half) (m : Nat) : (s.setMer h m).tap = s.tap := rfl
@[simp] theorem State.setMer_mctp (s : State) (h : Half) (m : Nat) : (s.setMer h m).mctp = s.mctp := rfl
@[simp] theorem State.setMer_viral (s : State) (h : Half) (m : Nat) : (s.setMer h m).viral = s.viral := rfl
@[simp] theorem State.setMer_sent (s : State) (h : Half) (m : Nat) : (s.setMer h m).sent = s.sent := rfl
@[simp] theorem State.setMer_fresh (s : State) (h : Half) (m : Nat) : (s.setMer h m).fresh = s.fresh := rfl
@[simp] theorem State.setMer_pending (s : State) (h : Half) (m : Nat) : (s.setMer h m).pending = s.pending := rfl

@[simp] theorem State.draw_regs (s : State) : s.draw.2.regs = s.regs := rfl
@[simp] theorem State.draw_latches (s : State) : s.draw.2.latches = s.latches := rfl
@[simp] theorem State.draw_heldLow (s : State) : s.draw.2.heldLow = s.heldLow := rfl
@[simp] theorem State.draw_mrd (s : State) : s.draw.2.mrd = s.mrd := rfl
@[simp] theorem State.draw_trp (s : State) : s.draw.2.trp = s.trp := rfl
@[simp] theorem State.draw_ref (s : State) : s.draw.2.ref = s.ref := rfl
@[simp] theorem State.draw_phm (s : State) : s.draw.2.phm = s.phm := rfl
@[simp] theorem State.draw_ump (s : State) : s.draw.2.ump = s.ump := rfl
@[simp] theorem State.draw_subs (s : State) : s.draw.2.subs = s.subs := rfl
@[simp] theorem State.draw_core (s : State) : s.draw.2.core = s.core := rfl
@[simp] theorem State.draw_net (s : State) : s.draw.2.net = s.net := rfl
@[simp] theorem State.draw_cdb (s : State) : s.draw.2.cdb = s.cdb := rfl
@[simp] theorem State.draw_binds (s : State) : s.draw.2.binds = s.binds := rfl
@[simp] theorem State.draw_qos (s : State) : s.draw.2.qos = s.qos := rfl
@[simp] theorem State.draw_cat (s : State) : s.draw.2.cat = s.cat := rfl
@[simp] theorem State.draw_fns (s : State) : s.draw.2.fns = s.fns := rfl
@[simp] theorem State.draw_stk (s : State) : s.draw.2.stk = s.stk := rfl
@[simp] theorem State.draw_mgt (s : State) : s.draw.2.mgt = s.mgt := rfl
@[simp] theorem State.draw_chans (s : State) : s.draw.2.chans = s.chans := rfl
@[simp] theorem State.draw_alert (s : State) : s.draw.2.alert = s.alert := rfl
@[simp] theorem State.draw_dome (s : State) : s.draw.2.dome = s.dome := rfl
@[simp] theorem State.draw_obs (s : State) : s.draw.2.obs = s.obs := rfl
@[simp] theorem State.draw_fw (s : State) : s.draw.2.fw = s.fw := rfl
@[simp] theorem State.draw_spdm (s : State) : s.draw.2.spdm = s.spdm := rfl
@[simp] theorem State.draw_tap (s : State) : s.draw.2.tap = s.tap := rfl
@[simp] theorem State.draw_mctp (s : State) : s.draw.2.mctp = s.mctp := rfl
@[simp] theorem State.draw_viral (s : State) : s.draw.2.viral = s.viral := rfl
@[simp] theorem State.draw_sent (s : State) : s.draw.2.sent = s.sent := rfl
@[simp] theorem State.draw_pending (s : State) : s.draw.2.pending = s.pending := rfl

@[simp] theorem State.emit_regs (s : State) (x : Sent) : (s.emit x).regs = s.regs := rfl
@[simp] theorem State.emit_latches (s : State) (x : Sent) : (s.emit x).latches = s.latches := rfl
@[simp] theorem State.emit_heldLow (s : State) (x : Sent) : (s.emit x).heldLow = s.heldLow := rfl
@[simp] theorem State.emit_mrd (s : State) (x : Sent) : (s.emit x).mrd = s.mrd := rfl
@[simp] theorem State.emit_trp (s : State) (x : Sent) : (s.emit x).trp = s.trp := rfl
@[simp] theorem State.emit_ref (s : State) (x : Sent) : (s.emit x).ref = s.ref := rfl
@[simp] theorem State.emit_phm (s : State) (x : Sent) : (s.emit x).phm = s.phm := rfl
@[simp] theorem State.emit_ump (s : State) (x : Sent) : (s.emit x).ump = s.ump := rfl
@[simp] theorem State.emit_subs (s : State) (x : Sent) : (s.emit x).subs = s.subs := rfl
@[simp] theorem State.emit_core (s : State) (x : Sent) : (s.emit x).core = s.core := rfl
@[simp] theorem State.emit_net (s : State) (x : Sent) : (s.emit x).net = s.net := rfl
@[simp] theorem State.emit_cdb (s : State) (x : Sent) : (s.emit x).cdb = s.cdb := rfl
@[simp] theorem State.emit_binds (s : State) (x : Sent) : (s.emit x).binds = s.binds := rfl
@[simp] theorem State.emit_qos (s : State) (x : Sent) : (s.emit x).qos = s.qos := rfl
@[simp] theorem State.emit_cat (s : State) (x : Sent) : (s.emit x).cat = s.cat := rfl
@[simp] theorem State.emit_fns (s : State) (x : Sent) : (s.emit x).fns = s.fns := rfl
@[simp] theorem State.emit_stk (s : State) (x : Sent) : (s.emit x).stk = s.stk := rfl
@[simp] theorem State.emit_mgt (s : State) (x : Sent) : (s.emit x).mgt = s.mgt := rfl
@[simp] theorem State.emit_chans (s : State) (x : Sent) : (s.emit x).chans = s.chans := rfl
@[simp] theorem State.emit_alert (s : State) (x : Sent) : (s.emit x).alert = s.alert := rfl
@[simp] theorem State.emit_dome (s : State) (x : Sent) : (s.emit x).dome = s.dome := rfl
@[simp] theorem State.emit_obs (s : State) (x : Sent) : (s.emit x).obs = s.obs := rfl
@[simp] theorem State.emit_fw (s : State) (x : Sent) : (s.emit x).fw = s.fw := rfl
@[simp] theorem State.emit_spdm (s : State) (x : Sent) : (s.emit x).spdm = s.spdm := rfl
@[simp] theorem State.emit_tap (s : State) (x : Sent) : (s.emit x).tap = s.tap := rfl
@[simp] theorem State.emit_mctp (s : State) (x : Sent) : (s.emit x).mctp = s.mctp := rfl
@[simp] theorem State.emit_viral (s : State) (x : Sent) : (s.emit x).viral = s.viral := rfl
@[simp] theorem State.emit_fresh (s : State) (x : Sent) : (s.emit x).fresh = s.fresh := rfl
@[simp] theorem State.emit_pending (s : State) (x : Sent) : (s.emit x).pending = s.pending := rfl

@[simp] theorem State.modMrd_regs (s : State) (h : Half) (f : Mrd → Mrd) : (s.modMrd h f).regs = s.regs := rfl
@[simp] theorem State.modMrd_latches (s : State) (h : Half) (f : Mrd → Mrd) : (s.modMrd h f).latches = s.latches := rfl
@[simp] theorem State.modMrd_heldLow (s : State) (h : Half) (f : Mrd → Mrd) : (s.modMrd h f).heldLow = s.heldLow := rfl
@[simp] theorem State.modMrd_trp (s : State) (h : Half) (f : Mrd → Mrd) : (s.modMrd h f).trp = s.trp := rfl
@[simp] theorem State.modMrd_ref (s : State) (h : Half) (f : Mrd → Mrd) : (s.modMrd h f).ref = s.ref := rfl
@[simp] theorem State.modMrd_phm (s : State) (h : Half) (f : Mrd → Mrd) : (s.modMrd h f).phm = s.phm := rfl
@[simp] theorem State.modMrd_ump (s : State) (h : Half) (f : Mrd → Mrd) : (s.modMrd h f).ump = s.ump := rfl
@[simp] theorem State.modMrd_subs (s : State) (h : Half) (f : Mrd → Mrd) : (s.modMrd h f).subs = s.subs := rfl
@[simp] theorem State.modMrd_core (s : State) (h : Half) (f : Mrd → Mrd) : (s.modMrd h f).core = s.core := rfl
@[simp] theorem State.modMrd_net (s : State) (h : Half) (f : Mrd → Mrd) : (s.modMrd h f).net = s.net := rfl
@[simp] theorem State.modMrd_cdb (s : State) (h : Half) (f : Mrd → Mrd) : (s.modMrd h f).cdb = s.cdb := rfl
@[simp] theorem State.modMrd_binds (s : State) (h : Half) (f : Mrd → Mrd) : (s.modMrd h f).binds = s.binds := rfl
@[simp] theorem State.modMrd_qos (s : State) (h : Half) (f : Mrd → Mrd) : (s.modMrd h f).qos = s.qos := rfl
@[simp] theorem State.modMrd_cat (s : State) (h : Half) (f : Mrd → Mrd) : (s.modMrd h f).cat = s.cat := rfl
@[simp] theorem State.modMrd_fns (s : State) (h : Half) (f : Mrd → Mrd) : (s.modMrd h f).fns = s.fns := rfl
@[simp] theorem State.modMrd_stk (s : State) (h : Half) (f : Mrd → Mrd) : (s.modMrd h f).stk = s.stk := rfl
@[simp] theorem State.modMrd_mgt (s : State) (h : Half) (f : Mrd → Mrd) : (s.modMrd h f).mgt = s.mgt := rfl
@[simp] theorem State.modMrd_chans (s : State) (h : Half) (f : Mrd → Mrd) : (s.modMrd h f).chans = s.chans := rfl
@[simp] theorem State.modMrd_alert (s : State) (h : Half) (f : Mrd → Mrd) : (s.modMrd h f).alert = s.alert := rfl
@[simp] theorem State.modMrd_dome (s : State) (h : Half) (f : Mrd → Mrd) : (s.modMrd h f).dome = s.dome := rfl
@[simp] theorem State.modMrd_obs (s : State) (h : Half) (f : Mrd → Mrd) : (s.modMrd h f).obs = s.obs := rfl
@[simp] theorem State.modMrd_fw (s : State) (h : Half) (f : Mrd → Mrd) : (s.modMrd h f).fw = s.fw := rfl
@[simp] theorem State.modMrd_spdm (s : State) (h : Half) (f : Mrd → Mrd) : (s.modMrd h f).spdm = s.spdm := rfl
@[simp] theorem State.modMrd_tap (s : State) (h : Half) (f : Mrd → Mrd) : (s.modMrd h f).tap = s.tap := rfl
@[simp] theorem State.modMrd_mctp (s : State) (h : Half) (f : Mrd → Mrd) : (s.modMrd h f).mctp = s.mctp := rfl
@[simp] theorem State.modMrd_viral (s : State) (h : Half) (f : Mrd → Mrd) : (s.modMrd h f).viral = s.viral := rfl
@[simp] theorem State.modMrd_sent (s : State) (h : Half) (f : Mrd → Mrd) : (s.modMrd h f).sent = s.sent := rfl
@[simp] theorem State.modMrd_fresh (s : State) (h : Half) (f : Mrd → Mrd) : (s.modMrd h f).fresh = s.fresh := rfl
@[simp] theorem State.modMrd_pending (s : State) (h : Half) (f : Mrd → Mrd) : (s.modMrd h f).pending = s.pending := rfl

@[simp] theorem State.modTrp_regs (s : State) (h : Half) (f : Trp → Trp) : (s.modTrp h f).regs = s.regs := rfl
@[simp] theorem State.modTrp_latches (s : State) (h : Half) (f : Trp → Trp) : (s.modTrp h f).latches = s.latches := rfl
@[simp] theorem State.modTrp_heldLow (s : State) (h : Half) (f : Trp → Trp) : (s.modTrp h f).heldLow = s.heldLow := rfl
@[simp] theorem State.modTrp_mrd (s : State) (h : Half) (f : Trp → Trp) : (s.modTrp h f).mrd = s.mrd := rfl
@[simp] theorem State.modTrp_ref (s : State) (h : Half) (f : Trp → Trp) : (s.modTrp h f).ref = s.ref := rfl
@[simp] theorem State.modTrp_phm (s : State) (h : Half) (f : Trp → Trp) : (s.modTrp h f).phm = s.phm := rfl
@[simp] theorem State.modTrp_ump (s : State) (h : Half) (f : Trp → Trp) : (s.modTrp h f).ump = s.ump := rfl
@[simp] theorem State.modTrp_subs (s : State) (h : Half) (f : Trp → Trp) : (s.modTrp h f).subs = s.subs := rfl
@[simp] theorem State.modTrp_core (s : State) (h : Half) (f : Trp → Trp) : (s.modTrp h f).core = s.core := rfl
@[simp] theorem State.modTrp_net (s : State) (h : Half) (f : Trp → Trp) : (s.modTrp h f).net = s.net := rfl
@[simp] theorem State.modTrp_cdb (s : State) (h : Half) (f : Trp → Trp) : (s.modTrp h f).cdb = s.cdb := rfl
@[simp] theorem State.modTrp_binds (s : State) (h : Half) (f : Trp → Trp) : (s.modTrp h f).binds = s.binds := rfl
@[simp] theorem State.modTrp_qos (s : State) (h : Half) (f : Trp → Trp) : (s.modTrp h f).qos = s.qos := rfl
@[simp] theorem State.modTrp_cat (s : State) (h : Half) (f : Trp → Trp) : (s.modTrp h f).cat = s.cat := rfl
@[simp] theorem State.modTrp_fns (s : State) (h : Half) (f : Trp → Trp) : (s.modTrp h f).fns = s.fns := rfl
@[simp] theorem State.modTrp_stk (s : State) (h : Half) (f : Trp → Trp) : (s.modTrp h f).stk = s.stk := rfl
@[simp] theorem State.modTrp_mgt (s : State) (h : Half) (f : Trp → Trp) : (s.modTrp h f).mgt = s.mgt := rfl
@[simp] theorem State.modTrp_chans (s : State) (h : Half) (f : Trp → Trp) : (s.modTrp h f).chans = s.chans := rfl
@[simp] theorem State.modTrp_alert (s : State) (h : Half) (f : Trp → Trp) : (s.modTrp h f).alert = s.alert := rfl
@[simp] theorem State.modTrp_dome (s : State) (h : Half) (f : Trp → Trp) : (s.modTrp h f).dome = s.dome := rfl
@[simp] theorem State.modTrp_obs (s : State) (h : Half) (f : Trp → Trp) : (s.modTrp h f).obs = s.obs := rfl
@[simp] theorem State.modTrp_fw (s : State) (h : Half) (f : Trp → Trp) : (s.modTrp h f).fw = s.fw := rfl
@[simp] theorem State.modTrp_spdm (s : State) (h : Half) (f : Trp → Trp) : (s.modTrp h f).spdm = s.spdm := rfl
@[simp] theorem State.modTrp_tap (s : State) (h : Half) (f : Trp → Trp) : (s.modTrp h f).tap = s.tap := rfl
@[simp] theorem State.modTrp_mctp (s : State) (h : Half) (f : Trp → Trp) : (s.modTrp h f).mctp = s.mctp := rfl
@[simp] theorem State.modTrp_viral (s : State) (h : Half) (f : Trp → Trp) : (s.modTrp h f).viral = s.viral := rfl
@[simp] theorem State.modTrp_sent (s : State) (h : Half) (f : Trp → Trp) : (s.modTrp h f).sent = s.sent := rfl
@[simp] theorem State.modTrp_fresh (s : State) (h : Half) (f : Trp → Trp) : (s.modTrp h f).fresh = s.fresh := rfl
@[simp] theorem State.modTrp_pending (s : State) (h : Half) (f : Trp → Trp) : (s.modTrp h f).pending = s.pending := rfl

@[simp] theorem State.modRef_regs (s : State) (h : Half) (f : Ref → Ref) : (s.modRef h f).regs = s.regs := rfl
@[simp] theorem State.modRef_latches (s : State) (h : Half) (f : Ref → Ref) : (s.modRef h f).latches = s.latches := rfl
@[simp] theorem State.modRef_heldLow (s : State) (h : Half) (f : Ref → Ref) : (s.modRef h f).heldLow = s.heldLow := rfl
@[simp] theorem State.modRef_mrd (s : State) (h : Half) (f : Ref → Ref) : (s.modRef h f).mrd = s.mrd := rfl
@[simp] theorem State.modRef_trp (s : State) (h : Half) (f : Ref → Ref) : (s.modRef h f).trp = s.trp := rfl
@[simp] theorem State.modRef_phm (s : State) (h : Half) (f : Ref → Ref) : (s.modRef h f).phm = s.phm := rfl
@[simp] theorem State.modRef_ump (s : State) (h : Half) (f : Ref → Ref) : (s.modRef h f).ump = s.ump := rfl
@[simp] theorem State.modRef_subs (s : State) (h : Half) (f : Ref → Ref) : (s.modRef h f).subs = s.subs := rfl
@[simp] theorem State.modRef_core (s : State) (h : Half) (f : Ref → Ref) : (s.modRef h f).core = s.core := rfl
@[simp] theorem State.modRef_net (s : State) (h : Half) (f : Ref → Ref) : (s.modRef h f).net = s.net := rfl
@[simp] theorem State.modRef_cdb (s : State) (h : Half) (f : Ref → Ref) : (s.modRef h f).cdb = s.cdb := rfl
@[simp] theorem State.modRef_binds (s : State) (h : Half) (f : Ref → Ref) : (s.modRef h f).binds = s.binds := rfl
@[simp] theorem State.modRef_qos (s : State) (h : Half) (f : Ref → Ref) : (s.modRef h f).qos = s.qos := rfl
@[simp] theorem State.modRef_cat (s : State) (h : Half) (f : Ref → Ref) : (s.modRef h f).cat = s.cat := rfl
@[simp] theorem State.modRef_fns (s : State) (h : Half) (f : Ref → Ref) : (s.modRef h f).fns = s.fns := rfl
@[simp] theorem State.modRef_stk (s : State) (h : Half) (f : Ref → Ref) : (s.modRef h f).stk = s.stk := rfl
@[simp] theorem State.modRef_mgt (s : State) (h : Half) (f : Ref → Ref) : (s.modRef h f).mgt = s.mgt := rfl
@[simp] theorem State.modRef_chans (s : State) (h : Half) (f : Ref → Ref) : (s.modRef h f).chans = s.chans := rfl
@[simp] theorem State.modRef_alert (s : State) (h : Half) (f : Ref → Ref) : (s.modRef h f).alert = s.alert := rfl
@[simp] theorem State.modRef_dome (s : State) (h : Half) (f : Ref → Ref) : (s.modRef h f).dome = s.dome := rfl
@[simp] theorem State.modRef_obs (s : State) (h : Half) (f : Ref → Ref) : (s.modRef h f).obs = s.obs := rfl
@[simp] theorem State.modRef_fw (s : State) (h : Half) (f : Ref → Ref) : (s.modRef h f).fw = s.fw := rfl
@[simp] theorem State.modRef_spdm (s : State) (h : Half) (f : Ref → Ref) : (s.modRef h f).spdm = s.spdm := rfl
@[simp] theorem State.modRef_tap (s : State) (h : Half) (f : Ref → Ref) : (s.modRef h f).tap = s.tap := rfl
@[simp] theorem State.modRef_mctp (s : State) (h : Half) (f : Ref → Ref) : (s.modRef h f).mctp = s.mctp := rfl
@[simp] theorem State.modRef_viral (s : State) (h : Half) (f : Ref → Ref) : (s.modRef h f).viral = s.viral := rfl
@[simp] theorem State.modRef_sent (s : State) (h : Half) (f : Ref → Ref) : (s.modRef h f).sent = s.sent := rfl
@[simp] theorem State.modRef_fresh (s : State) (h : Half) (f : Ref → Ref) : (s.modRef h f).fresh = s.fresh := rfl
@[simp] theorem State.modRef_pending (s : State) (h : Half) (f : Ref → Ref) : (s.modRef h f).pending = s.pending := rfl

@[simp] theorem State.modPhm_regs (s : State) (h : Half) (f : Phm → Phm) : (s.modPhm h f).regs = s.regs := rfl
@[simp] theorem State.modPhm_latches (s : State) (h : Half) (f : Phm → Phm) : (s.modPhm h f).latches = s.latches := rfl
@[simp] theorem State.modPhm_heldLow (s : State) (h : Half) (f : Phm → Phm) : (s.modPhm h f).heldLow = s.heldLow := rfl
@[simp] theorem State.modPhm_mrd (s : State) (h : Half) (f : Phm → Phm) : (s.modPhm h f).mrd = s.mrd := rfl
@[simp] theorem State.modPhm_trp (s : State) (h : Half) (f : Phm → Phm) : (s.modPhm h f).trp = s.trp := rfl
@[simp] theorem State.modPhm_ref (s : State) (h : Half) (f : Phm → Phm) : (s.modPhm h f).ref = s.ref := rfl
@[simp] theorem State.modPhm_ump (s : State) (h : Half) (f : Phm → Phm) : (s.modPhm h f).ump = s.ump := rfl
@[simp] theorem State.modPhm_subs (s : State) (h : Half) (f : Phm → Phm) : (s.modPhm h f).subs = s.subs := rfl
@[simp] theorem State.modPhm_core (s : State) (h : Half) (f : Phm → Phm) : (s.modPhm h f).core = s.core := rfl
@[simp] theorem State.modPhm_net (s : State) (h : Half) (f : Phm → Phm) : (s.modPhm h f).net = s.net := rfl
@[simp] theorem State.modPhm_cdb (s : State) (h : Half) (f : Phm → Phm) : (s.modPhm h f).cdb = s.cdb := rfl
@[simp] theorem State.modPhm_binds (s : State) (h : Half) (f : Phm → Phm) : (s.modPhm h f).binds = s.binds := rfl
@[simp] theorem State.modPhm_qos (s : State) (h : Half) (f : Phm → Phm) : (s.modPhm h f).qos = s.qos := rfl
@[simp] theorem State.modPhm_cat (s : State) (h : Half) (f : Phm → Phm) : (s.modPhm h f).cat = s.cat := rfl
@[simp] theorem State.modPhm_fns (s : State) (h : Half) (f : Phm → Phm) : (s.modPhm h f).fns = s.fns := rfl
@[simp] theorem State.modPhm_stk (s : State) (h : Half) (f : Phm → Phm) : (s.modPhm h f).stk = s.stk := rfl
@[simp] theorem State.modPhm_mgt (s : State) (h : Half) (f : Phm → Phm) : (s.modPhm h f).mgt = s.mgt := rfl
@[simp] theorem State.modPhm_chans (s : State) (h : Half) (f : Phm → Phm) : (s.modPhm h f).chans = s.chans := rfl
@[simp] theorem State.modPhm_alert (s : State) (h : Half) (f : Phm → Phm) : (s.modPhm h f).alert = s.alert := rfl
@[simp] theorem State.modPhm_dome (s : State) (h : Half) (f : Phm → Phm) : (s.modPhm h f).dome = s.dome := rfl
@[simp] theorem State.modPhm_obs (s : State) (h : Half) (f : Phm → Phm) : (s.modPhm h f).obs = s.obs := rfl
@[simp] theorem State.modPhm_fw (s : State) (h : Half) (f : Phm → Phm) : (s.modPhm h f).fw = s.fw := rfl
@[simp] theorem State.modPhm_spdm (s : State) (h : Half) (f : Phm → Phm) : (s.modPhm h f).spdm = s.spdm := rfl
@[simp] theorem State.modPhm_tap (s : State) (h : Half) (f : Phm → Phm) : (s.modPhm h f).tap = s.tap := rfl
@[simp] theorem State.modPhm_mctp (s : State) (h : Half) (f : Phm → Phm) : (s.modPhm h f).mctp = s.mctp := rfl
@[simp] theorem State.modPhm_viral (s : State) (h : Half) (f : Phm → Phm) : (s.modPhm h f).viral = s.viral := rfl
@[simp] theorem State.modPhm_sent (s : State) (h : Half) (f : Phm → Phm) : (s.modPhm h f).sent = s.sent := rfl
@[simp] theorem State.modPhm_fresh (s : State) (h : Half) (f : Phm → Phm) : (s.modPhm h f).fresh = s.fresh := rfl
@[simp] theorem State.modPhm_pending (s : State) (h : Half) (f : Phm → Phm) : (s.modPhm h f).pending = s.pending := rfl

@[simp] theorem State.modUmp_regs (s : State) (h : Half) (f : Ump → Ump) : (s.modUmp h f).regs = s.regs := rfl
@[simp] theorem State.modUmp_latches (s : State) (h : Half) (f : Ump → Ump) : (s.modUmp h f).latches = s.latches := rfl
@[simp] theorem State.modUmp_heldLow (s : State) (h : Half) (f : Ump → Ump) : (s.modUmp h f).heldLow = s.heldLow := rfl
@[simp] theorem State.modUmp_mrd (s : State) (h : Half) (f : Ump → Ump) : (s.modUmp h f).mrd = s.mrd := rfl
@[simp] theorem State.modUmp_trp (s : State) (h : Half) (f : Ump → Ump) : (s.modUmp h f).trp = s.trp := rfl
@[simp] theorem State.modUmp_ref (s : State) (h : Half) (f : Ump → Ump) : (s.modUmp h f).ref = s.ref := rfl
@[simp] theorem State.modUmp_phm (s : State) (h : Half) (f : Ump → Ump) : (s.modUmp h f).phm = s.phm := rfl
@[simp] theorem State.modUmp_subs (s : State) (h : Half) (f : Ump → Ump) : (s.modUmp h f).subs = s.subs := rfl
@[simp] theorem State.modUmp_core (s : State) (h : Half) (f : Ump → Ump) : (s.modUmp h f).core = s.core := rfl
@[simp] theorem State.modUmp_net (s : State) (h : Half) (f : Ump → Ump) : (s.modUmp h f).net = s.net := rfl
@[simp] theorem State.modUmp_cdb (s : State) (h : Half) (f : Ump → Ump) : (s.modUmp h f).cdb = s.cdb := rfl
@[simp] theorem State.modUmp_binds (s : State) (h : Half) (f : Ump → Ump) : (s.modUmp h f).binds = s.binds := rfl
@[simp] theorem State.modUmp_qos (s : State) (h : Half) (f : Ump → Ump) : (s.modUmp h f).qos = s.qos := rfl
@[simp] theorem State.modUmp_cat (s : State) (h : Half) (f : Ump → Ump) : (s.modUmp h f).cat = s.cat := rfl
@[simp] theorem State.modUmp_fns (s : State) (h : Half) (f : Ump → Ump) : (s.modUmp h f).fns = s.fns := rfl
@[simp] theorem State.modUmp_stk (s : State) (h : Half) (f : Ump → Ump) : (s.modUmp h f).stk = s.stk := rfl
@[simp] theorem State.modUmp_mgt (s : State) (h : Half) (f : Ump → Ump) : (s.modUmp h f).mgt = s.mgt := rfl
@[simp] theorem State.modUmp_chans (s : State) (h : Half) (f : Ump → Ump) : (s.modUmp h f).chans = s.chans := rfl
@[simp] theorem State.modUmp_alert (s : State) (h : Half) (f : Ump → Ump) : (s.modUmp h f).alert = s.alert := rfl
@[simp] theorem State.modUmp_dome (s : State) (h : Half) (f : Ump → Ump) : (s.modUmp h f).dome = s.dome := rfl
@[simp] theorem State.modUmp_obs (s : State) (h : Half) (f : Ump → Ump) : (s.modUmp h f).obs = s.obs := rfl
@[simp] theorem State.modUmp_fw (s : State) (h : Half) (f : Ump → Ump) : (s.modUmp h f).fw = s.fw := rfl
@[simp] theorem State.modUmp_spdm (s : State) (h : Half) (f : Ump → Ump) : (s.modUmp h f).spdm = s.spdm := rfl
@[simp] theorem State.modUmp_tap (s : State) (h : Half) (f : Ump → Ump) : (s.modUmp h f).tap = s.tap := rfl
@[simp] theorem State.modUmp_mctp (s : State) (h : Half) (f : Ump → Ump) : (s.modUmp h f).mctp = s.mctp := rfl
@[simp] theorem State.modUmp_viral (s : State) (h : Half) (f : Ump → Ump) : (s.modUmp h f).viral = s.viral := rfl
@[simp] theorem State.modUmp_sent (s : State) (h : Half) (f : Ump → Ump) : (s.modUmp h f).sent = s.sent := rfl
@[simp] theorem State.modUmp_fresh (s : State) (h : Half) (f : Ump → Ump) : (s.modUmp h f).fresh = s.fresh := rfl
@[simp] theorem State.modUmp_pending (s : State) (h : Half) (f : Ump → Ump) : (s.modUmp h f).pending = s.pending := rfl

@[simp] theorem State.modCore_regs (s : State) (h : Half) (f : Core → Core) : (s.modCore h f).regs = s.regs := rfl
@[simp] theorem State.modCore_latches (s : State) (h : Half) (f : Core → Core) : (s.modCore h f).latches = s.latches := rfl
@[simp] theorem State.modCore_heldLow (s : State) (h : Half) (f : Core → Core) : (s.modCore h f).heldLow = s.heldLow := rfl
@[simp] theorem State.modCore_mrd (s : State) (h : Half) (f : Core → Core) : (s.modCore h f).mrd = s.mrd := rfl
@[simp] theorem State.modCore_trp (s : State) (h : Half) (f : Core → Core) : (s.modCore h f).trp = s.trp := rfl
@[simp] theorem State.modCore_ref (s : State) (h : Half) (f : Core → Core) : (s.modCore h f).ref = s.ref := rfl
@[simp] theorem State.modCore_phm (s : State) (h : Half) (f : Core → Core) : (s.modCore h f).phm = s.phm := rfl
@[simp] theorem State.modCore_ump (s : State) (h : Half) (f : Core → Core) : (s.modCore h f).ump = s.ump := rfl
@[simp] theorem State.modCore_subs (s : State) (h : Half) (f : Core → Core) : (s.modCore h f).subs = s.subs := rfl
@[simp] theorem State.modCore_net (s : State) (h : Half) (f : Core → Core) : (s.modCore h f).net = s.net := rfl
@[simp] theorem State.modCore_cdb (s : State) (h : Half) (f : Core → Core) : (s.modCore h f).cdb = s.cdb := rfl
@[simp] theorem State.modCore_binds (s : State) (h : Half) (f : Core → Core) : (s.modCore h f).binds = s.binds := rfl
@[simp] theorem State.modCore_qos (s : State) (h : Half) (f : Core → Core) : (s.modCore h f).qos = s.qos := rfl
@[simp] theorem State.modCore_cat (s : State) (h : Half) (f : Core → Core) : (s.modCore h f).cat = s.cat := rfl
@[simp] theorem State.modCore_fns (s : State) (h : Half) (f : Core → Core) : (s.modCore h f).fns = s.fns := rfl
@[simp] theorem State.modCore_stk (s : State) (h : Half) (f : Core → Core) : (s.modCore h f).stk = s.stk := rfl
@[simp] theorem State.modCore_mgt (s : State) (h : Half) (f : Core → Core) : (s.modCore h f).mgt = s.mgt := rfl
@[simp] theorem State.modCore_chans (s : State) (h : Half) (f : Core → Core) : (s.modCore h f).chans = s.chans := rfl
@[simp] theorem State.modCore_alert (s : State) (h : Half) (f : Core → Core) : (s.modCore h f).alert = s.alert := rfl
@[simp] theorem State.modCore_dome (s : State) (h : Half) (f : Core → Core) : (s.modCore h f).dome = s.dome := rfl
@[simp] theorem State.modCore_obs (s : State) (h : Half) (f : Core → Core) : (s.modCore h f).obs = s.obs := rfl
@[simp] theorem State.modCore_fw (s : State) (h : Half) (f : Core → Core) : (s.modCore h f).fw = s.fw := rfl
@[simp] theorem State.modCore_spdm (s : State) (h : Half) (f : Core → Core) : (s.modCore h f).spdm = s.spdm := rfl
@[simp] theorem State.modCore_tap (s : State) (h : Half) (f : Core → Core) : (s.modCore h f).tap = s.tap := rfl
@[simp] theorem State.modCore_mctp (s : State) (h : Half) (f : Core → Core) : (s.modCore h f).mctp = s.mctp := rfl
@[simp] theorem State.modCore_viral (s : State) (h : Half) (f : Core → Core) : (s.modCore h f).viral = s.viral := rfl
@[simp] theorem State.modCore_sent (s : State) (h : Half) (f : Core → Core) : (s.modCore h f).sent = s.sent := rfl
@[simp] theorem State.modCore_fresh (s : State) (h : Half) (f : Core → Core) : (s.modCore h f).fresh = s.fresh := rfl
@[simp] theorem State.modCore_pending (s : State) (h : Half) (f : Core → Core) : (s.modCore h f).pending = s.pending := rfl

@[simp] theorem State.modCdb_regs (s : State) (h : Half) (f : Cdb → Cdb) : (s.modCdb h f).regs = s.regs := rfl
@[simp] theorem State.modCdb_latches (s : State) (h : Half) (f : Cdb → Cdb) : (s.modCdb h f).latches = s.latches := rfl
@[simp] theorem State.modCdb_heldLow (s : State) (h : Half) (f : Cdb → Cdb) : (s.modCdb h f).heldLow = s.heldLow := rfl
@[simp] theorem State.modCdb_mrd (s : State) (h : Half) (f : Cdb → Cdb) : (s.modCdb h f).mrd = s.mrd := rfl
@[simp] theorem State.modCdb_trp (s : State) (h : Half) (f : Cdb → Cdb) : (s.modCdb h f).trp = s.trp := rfl
@[simp] theorem State.modCdb_ref (s : State) (h : Half) (f : Cdb → Cdb) : (s.modCdb h f).ref = s.ref := rfl
@[simp] theorem State.modCdb_phm (s : State) (h : Half) (f : Cdb → Cdb) : (s.modCdb h f).phm = s.phm := rfl
@[simp] theorem State.modCdb_ump (s : State) (h : Half) (f : Cdb → Cdb) : (s.modCdb h f).ump = s.ump := rfl
@[simp] theorem State.modCdb_subs (s : State) (h : Half) (f : Cdb → Cdb) : (s.modCdb h f).subs = s.subs := rfl
@[simp] theorem State.modCdb_core (s : State) (h : Half) (f : Cdb → Cdb) : (s.modCdb h f).core = s.core := rfl
@[simp] theorem State.modCdb_net (s : State) (h : Half) (f : Cdb → Cdb) : (s.modCdb h f).net = s.net := rfl
@[simp] theorem State.modCdb_binds (s : State) (h : Half) (f : Cdb → Cdb) : (s.modCdb h f).binds = s.binds := rfl
@[simp] theorem State.modCdb_qos (s : State) (h : Half) (f : Cdb → Cdb) : (s.modCdb h f).qos = s.qos := rfl
@[simp] theorem State.modCdb_cat (s : State) (h : Half) (f : Cdb → Cdb) : (s.modCdb h f).cat = s.cat := rfl
@[simp] theorem State.modCdb_fns (s : State) (h : Half) (f : Cdb → Cdb) : (s.modCdb h f).fns = s.fns := rfl
@[simp] theorem State.modCdb_stk (s : State) (h : Half) (f : Cdb → Cdb) : (s.modCdb h f).stk = s.stk := rfl
@[simp] theorem State.modCdb_mgt (s : State) (h : Half) (f : Cdb → Cdb) : (s.modCdb h f).mgt = s.mgt := rfl
@[simp] theorem State.modCdb_chans (s : State) (h : Half) (f : Cdb → Cdb) : (s.modCdb h f).chans = s.chans := rfl
@[simp] theorem State.modCdb_alert (s : State) (h : Half) (f : Cdb → Cdb) : (s.modCdb h f).alert = s.alert := rfl
@[simp] theorem State.modCdb_dome (s : State) (h : Half) (f : Cdb → Cdb) : (s.modCdb h f).dome = s.dome := rfl
@[simp] theorem State.modCdb_obs (s : State) (h : Half) (f : Cdb → Cdb) : (s.modCdb h f).obs = s.obs := rfl
@[simp] theorem State.modCdb_fw (s : State) (h : Half) (f : Cdb → Cdb) : (s.modCdb h f).fw = s.fw := rfl
@[simp] theorem State.modCdb_spdm (s : State) (h : Half) (f : Cdb → Cdb) : (s.modCdb h f).spdm = s.spdm := rfl
@[simp] theorem State.modCdb_tap (s : State) (h : Half) (f : Cdb → Cdb) : (s.modCdb h f).tap = s.tap := rfl
@[simp] theorem State.modCdb_mctp (s : State) (h : Half) (f : Cdb → Cdb) : (s.modCdb h f).mctp = s.mctp := rfl
@[simp] theorem State.modCdb_viral (s : State) (h : Half) (f : Cdb → Cdb) : (s.modCdb h f).viral = s.viral := rfl
@[simp] theorem State.modCdb_sent (s : State) (h : Half) (f : Cdb → Cdb) : (s.modCdb h f).sent = s.sent := rfl
@[simp] theorem State.modCdb_fresh (s : State) (h : Half) (f : Cdb → Cdb) : (s.modCdb h f).fresh = s.fresh := rfl
@[simp] theorem State.modCdb_pending (s : State) (h : Half) (f : Cdb → Cdb) : (s.modCdb h f).pending = s.pending := rfl

@[simp] theorem State.modBinds_regs (s : State) (h : Half) (f : BindTab → BindTab) : (s.modBinds h f).regs = s.regs := rfl
@[simp] theorem State.modBinds_latches (s : State) (h : Half) (f : BindTab → BindTab) : (s.modBinds h f).latches = s.latches := rfl
@[simp] theorem State.modBinds_heldLow (s : State) (h : Half) (f : BindTab → BindTab) : (s.modBinds h f).heldLow = s.heldLow := rfl
@[simp] theorem State.modBinds_mrd (s : State) (h : Half) (f : BindTab → BindTab) : (s.modBinds h f).mrd = s.mrd := rfl
@[simp] theorem State.modBinds_trp (s : State) (h : Half) (f : BindTab → BindTab) : (s.modBinds h f).trp = s.trp := rfl
@[simp] theorem State.modBinds_ref (s : State) (h : Half) (f : BindTab → BindTab) : (s.modBinds h f).ref = s.ref := rfl
@[simp] theorem State.modBinds_phm (s : State) (h : Half) (f : BindTab → BindTab) : (s.modBinds h f).phm = s.phm := rfl
@[simp] theorem State.modBinds_ump (s : State) (h : Half) (f : BindTab → BindTab) : (s.modBinds h f).ump = s.ump := rfl
@[simp] theorem State.modBinds_subs (s : State) (h : Half) (f : BindTab → BindTab) : (s.modBinds h f).subs = s.subs := rfl
@[simp] theorem State.modBinds_core (s : State) (h : Half) (f : BindTab → BindTab) : (s.modBinds h f).core = s.core := rfl
@[simp] theorem State.modBinds_net (s : State) (h : Half) (f : BindTab → BindTab) : (s.modBinds h f).net = s.net := rfl
@[simp] theorem State.modBinds_cdb (s : State) (h : Half) (f : BindTab → BindTab) : (s.modBinds h f).cdb = s.cdb := rfl
@[simp] theorem State.modBinds_qos (s : State) (h : Half) (f : BindTab → BindTab) : (s.modBinds h f).qos = s.qos := rfl
@[simp] theorem State.modBinds_cat (s : State) (h : Half) (f : BindTab → BindTab) : (s.modBinds h f).cat = s.cat := rfl
@[simp] theorem State.modBinds_fns (s : State) (h : Half) (f : BindTab → BindTab) : (s.modBinds h f).fns = s.fns := rfl
@[simp] theorem State.modBinds_stk (s : State) (h : Half) (f : BindTab → BindTab) : (s.modBinds h f).stk = s.stk := rfl
@[simp] theorem State.modBinds_mgt (s : State) (h : Half) (f : BindTab → BindTab) : (s.modBinds h f).mgt = s.mgt := rfl
@[simp] theorem State.modBinds_chans (s : State) (h : Half) (f : BindTab → BindTab) : (s.modBinds h f).chans = s.chans := rfl
@[simp] theorem State.modBinds_alert (s : State) (h : Half) (f : BindTab → BindTab) : (s.modBinds h f).alert = s.alert := rfl
@[simp] theorem State.modBinds_dome (s : State) (h : Half) (f : BindTab → BindTab) : (s.modBinds h f).dome = s.dome := rfl
@[simp] theorem State.modBinds_obs (s : State) (h : Half) (f : BindTab → BindTab) : (s.modBinds h f).obs = s.obs := rfl
@[simp] theorem State.modBinds_fw (s : State) (h : Half) (f : BindTab → BindTab) : (s.modBinds h f).fw = s.fw := rfl
@[simp] theorem State.modBinds_spdm (s : State) (h : Half) (f : BindTab → BindTab) : (s.modBinds h f).spdm = s.spdm := rfl
@[simp] theorem State.modBinds_tap (s : State) (h : Half) (f : BindTab → BindTab) : (s.modBinds h f).tap = s.tap := rfl
@[simp] theorem State.modBinds_mctp (s : State) (h : Half) (f : BindTab → BindTab) : (s.modBinds h f).mctp = s.mctp := rfl
@[simp] theorem State.modBinds_viral (s : State) (h : Half) (f : BindTab → BindTab) : (s.modBinds h f).viral = s.viral := rfl
@[simp] theorem State.modBinds_sent (s : State) (h : Half) (f : BindTab → BindTab) : (s.modBinds h f).sent = s.sent := rfl
@[simp] theorem State.modBinds_fresh (s : State) (h : Half) (f : BindTab → BindTab) : (s.modBinds h f).fresh = s.fresh := rfl
@[simp] theorem State.modBinds_pending (s : State) (h : Half) (f : BindTab → BindTab) : (s.modBinds h f).pending = s.pending := rfl

@[simp] theorem State.modQos_regs (s : State) (h : Half) (f : Qos → Qos) : (s.modQos h f).regs = s.regs := rfl
@[simp] theorem State.modQos_latches (s : State) (h : Half) (f : Qos → Qos) : (s.modQos h f).latches = s.latches := rfl
@[simp] theorem State.modQos_heldLow (s : State) (h : Half) (f : Qos → Qos) : (s.modQos h f).heldLow = s.heldLow := rfl
@[simp] theorem State.modQos_mrd (s : State) (h : Half) (f : Qos → Qos) : (s.modQos h f).mrd = s.mrd := rfl
@[simp] theorem State.modQos_trp (s : State) (h : Half) (f : Qos → Qos) : (s.modQos h f).trp = s.trp := rfl
@[simp] theorem State.modQos_ref (s : State) (h : Half) (f : Qos → Qos) : (s.modQos h f).ref = s.ref := rfl
@[simp] theorem State.modQos_phm (s : State) (h : Half) (f : Qos → Qos) : (s.modQos h f).phm = s.phm := rfl
@[simp] theorem State.modQos_ump (s : State) (h : Half) (f : Qos → Qos) : (s.modQos h f).ump = s.ump := rfl
@[simp] theorem State.modQos_subs (s : State) (h : Half) (f : Qos → Qos) : (s.modQos h f).subs = s.subs := rfl
@[simp] theorem State.modQos_core (s : State) (h : Half) (f : Qos → Qos) : (s.modQos h f).core = s.core := rfl
@[simp] theorem State.modQos_net (s : State) (h : Half) (f : Qos → Qos) : (s.modQos h f).net = s.net := rfl
@[simp] theorem State.modQos_cdb (s : State) (h : Half) (f : Qos → Qos) : (s.modQos h f).cdb = s.cdb := rfl
@[simp] theorem State.modQos_binds (s : State) (h : Half) (f : Qos → Qos) : (s.modQos h f).binds = s.binds := rfl
@[simp] theorem State.modQos_cat (s : State) (h : Half) (f : Qos → Qos) : (s.modQos h f).cat = s.cat := rfl
@[simp] theorem State.modQos_fns (s : State) (h : Half) (f : Qos → Qos) : (s.modQos h f).fns = s.fns := rfl
@[simp] theorem State.modQos_stk (s : State) (h : Half) (f : Qos → Qos) : (s.modQos h f).stk = s.stk := rfl
@[simp] theorem State.modQos_mgt (s : State) (h : Half) (f : Qos → Qos) : (s.modQos h f).mgt = s.mgt := rfl
@[simp] theorem State.modQos_chans (s : State) (h : Half) (f : Qos → Qos) : (s.modQos h f).chans = s.chans := rfl
@[simp] theorem State.modQos_alert (s : State) (h : Half) (f : Qos → Qos) : (s.modQos h f).alert = s.alert := rfl
@[simp] theorem State.modQos_dome (s : State) (h : Half) (f : Qos → Qos) : (s.modQos h f).dome = s.dome := rfl
@[simp] theorem State.modQos_obs (s : State) (h : Half) (f : Qos → Qos) : (s.modQos h f).obs = s.obs := rfl
@[simp] theorem State.modQos_fw (s : State) (h : Half) (f : Qos → Qos) : (s.modQos h f).fw = s.fw := rfl
@[simp] theorem State.modQos_spdm (s : State) (h : Half) (f : Qos → Qos) : (s.modQos h f).spdm = s.spdm := rfl
@[simp] theorem State.modQos_tap (s : State) (h : Half) (f : Qos → Qos) : (s.modQos h f).tap = s.tap := rfl
@[simp] theorem State.modQos_mctp (s : State) (h : Half) (f : Qos → Qos) : (s.modQos h f).mctp = s.mctp := rfl
@[simp] theorem State.modQos_viral (s : State) (h : Half) (f : Qos → Qos) : (s.modQos h f).viral = s.viral := rfl
@[simp] theorem State.modQos_sent (s : State) (h : Half) (f : Qos → Qos) : (s.modQos h f).sent = s.sent := rfl
@[simp] theorem State.modQos_fresh (s : State) (h : Half) (f : Qos → Qos) : (s.modQos h f).fresh = s.fresh := rfl
@[simp] theorem State.modQos_pending (s : State) (h : Half) (f : Qos → Qos) : (s.modQos h f).pending = s.pending := rfl

@[simp] theorem State.modCat_regs (s : State) (h : Half) (f : Cat → Cat) : (s.modCat h f).regs = s.regs := rfl
@[simp] theorem State.modCat_latches (s : State) (h : Half) (f : Cat → Cat) : (s.modCat h f).latches = s.latches := rfl
@[simp] theorem State.modCat_heldLow (s : State) (h : Half) (f : Cat → Cat) : (s.modCat h f).heldLow = s.heldLow := rfl
@[simp] theorem State.modCat_mrd (s : State) (h : Half) (f : Cat → Cat) : (s.modCat h f).mrd = s.mrd := rfl
@[simp] theorem State.modCat_trp (s : State) (h : Half) (f : Cat → Cat) : (s.modCat h f).trp = s.trp := rfl
@[simp] theorem State.modCat_ref (s : State) (h : Half) (f : Cat → Cat) : (s.modCat h f).ref = s.ref := rfl
@[simp] theorem State.modCat_phm (s : State) (h : Half) (f : Cat → Cat) : (s.modCat h f).phm = s.phm := rfl
@[simp] theorem State.modCat_ump (s : State) (h : Half) (f : Cat → Cat) : (s.modCat h f).ump = s.ump := rfl
@[simp] theorem State.modCat_subs (s : State) (h : Half) (f : Cat → Cat) : (s.modCat h f).subs = s.subs := rfl
@[simp] theorem State.modCat_core (s : State) (h : Half) (f : Cat → Cat) : (s.modCat h f).core = s.core := rfl
@[simp] theorem State.modCat_net (s : State) (h : Half) (f : Cat → Cat) : (s.modCat h f).net = s.net := rfl
@[simp] theorem State.modCat_cdb (s : State) (h : Half) (f : Cat → Cat) : (s.modCat h f).cdb = s.cdb := rfl
@[simp] theorem State.modCat_binds (s : State) (h : Half) (f : Cat → Cat) : (s.modCat h f).binds = s.binds := rfl
@[simp] theorem State.modCat_qos (s : State) (h : Half) (f : Cat → Cat) : (s.modCat h f).qos = s.qos := rfl
@[simp] theorem State.modCat_fns (s : State) (h : Half) (f : Cat → Cat) : (s.modCat h f).fns = s.fns := rfl
@[simp] theorem State.modCat_stk (s : State) (h : Half) (f : Cat → Cat) : (s.modCat h f).stk = s.stk := rfl
@[simp] theorem State.modCat_mgt (s : State) (h : Half) (f : Cat → Cat) : (s.modCat h f).mgt = s.mgt := rfl
@[simp] theorem State.modCat_chans (s : State) (h : Half) (f : Cat → Cat) : (s.modCat h f).chans = s.chans := rfl
@[simp] theorem State.modCat_alert (s : State) (h : Half) (f : Cat → Cat) : (s.modCat h f).alert = s.alert := rfl
@[simp] theorem State.modCat_dome (s : State) (h : Half) (f : Cat → Cat) : (s.modCat h f).dome = s.dome := rfl
@[simp] theorem State.modCat_obs (s : State) (h : Half) (f : Cat → Cat) : (s.modCat h f).obs = s.obs := rfl
@[simp] theorem State.modCat_fw (s : State) (h : Half) (f : Cat → Cat) : (s.modCat h f).fw = s.fw := rfl
@[simp] theorem State.modCat_spdm (s : State) (h : Half) (f : Cat → Cat) : (s.modCat h f).spdm = s.spdm := rfl
@[simp] theorem State.modCat_tap (s : State) (h : Half) (f : Cat → Cat) : (s.modCat h f).tap = s.tap := rfl
@[simp] theorem State.modCat_mctp (s : State) (h : Half) (f : Cat → Cat) : (s.modCat h f).mctp = s.mctp := rfl
@[simp] theorem State.modCat_viral (s : State) (h : Half) (f : Cat → Cat) : (s.modCat h f).viral = s.viral := rfl
@[simp] theorem State.modCat_sent (s : State) (h : Half) (f : Cat → Cat) : (s.modCat h f).sent = s.sent := rfl
@[simp] theorem State.modCat_fresh (s : State) (h : Half) (f : Cat → Cat) : (s.modCat h f).fresh = s.fresh := rfl
@[simp] theorem State.modCat_pending (s : State) (h : Half) (f : Cat → Cat) : (s.modCat h f).pending = s.pending := rfl

@[simp] theorem State.modStk_regs (s : State) (h : Half) (f : Stk → Stk) : (s.modStk h f).regs = s.regs := rfl
@[simp] theorem State.modStk_latches (s : State) (h : Half) (f : Stk → Stk) : (s.modStk h f).latches = s.latches := rfl
@[simp] theorem State.modStk_heldLow (s : State) (h : Half) (f : Stk → Stk) : (s.modStk h f).heldLow = s.heldLow := rfl
@[simp] theorem State.modStk_mrd (s : State) (h : Half) (f : Stk → Stk) : (s.modStk h f).mrd = s.mrd := rfl
@[simp] theorem State.modStk_trp (s : State) (h : Half) (f : Stk → Stk) : (s.modStk h f).trp = s.trp := rfl
@[simp] theorem State.modStk_ref (s : State) (h : Half) (f : Stk → Stk) : (s.modStk h f).ref = s.ref := rfl
@[simp] theorem State.modStk_phm (s : State) (h : Half) (f : Stk → Stk) : (s.modStk h f).phm = s.phm := rfl
@[simp] theorem State.modStk_ump (s : State) (h : Half) (f : Stk → Stk) : (s.modStk h f).ump = s.ump := rfl
@[simp] theorem State.modStk_subs (s : State) (h : Half) (f : Stk → Stk) : (s.modStk h f).subs = s.subs := rfl
@[simp] theorem State.modStk_core (s : State) (h : Half) (f : Stk → Stk) : (s.modStk h f).core = s.core := rfl
@[simp] theorem State.modStk_net (s : State) (h : Half) (f : Stk → Stk) : (s.modStk h f).net = s.net := rfl
@[simp] theorem State.modStk_cdb (s : State) (h : Half) (f : Stk → Stk) : (s.modStk h f).cdb = s.cdb := rfl
@[simp] theorem State.modStk_binds (s : State) (h : Half) (f : Stk → Stk) : (s.modStk h f).binds = s.binds := rfl
@[simp] theorem State.modStk_qos (s : State) (h : Half) (f : Stk → Stk) : (s.modStk h f).qos = s.qos := rfl
@[simp] theorem State.modStk_cat (s : State) (h : Half) (f : Stk → Stk) : (s.modStk h f).cat = s.cat := rfl
@[simp] theorem State.modStk_fns (s : State) (h : Half) (f : Stk → Stk) : (s.modStk h f).fns = s.fns := rfl
@[simp] theorem State.modStk_mgt (s : State) (h : Half) (f : Stk → Stk) : (s.modStk h f).mgt = s.mgt := rfl
@[simp] theorem State.modStk_chans (s : State) (h : Half) (f : Stk → Stk) : (s.modStk h f).chans = s.chans := rfl
@[simp] theorem State.modStk_alert (s : State) (h : Half) (f : Stk → Stk) : (s.modStk h f).alert = s.alert := rfl
@[simp] theorem State.modStk_dome (s : State) (h : Half) (f : Stk → Stk) : (s.modStk h f).dome = s.dome := rfl
@[simp] theorem State.modStk_obs (s : State) (h : Half) (f : Stk → Stk) : (s.modStk h f).obs = s.obs := rfl
@[simp] theorem State.modStk_fw (s : State) (h : Half) (f : Stk → Stk) : (s.modStk h f).fw = s.fw := rfl
@[simp] theorem State.modStk_spdm (s : State) (h : Half) (f : Stk → Stk) : (s.modStk h f).spdm = s.spdm := rfl
@[simp] theorem State.modStk_tap (s : State) (h : Half) (f : Stk → Stk) : (s.modStk h f).tap = s.tap := rfl
@[simp] theorem State.modStk_mctp (s : State) (h : Half) (f : Stk → Stk) : (s.modStk h f).mctp = s.mctp := rfl
@[simp] theorem State.modStk_viral (s : State) (h : Half) (f : Stk → Stk) : (s.modStk h f).viral = s.viral := rfl
@[simp] theorem State.modStk_sent (s : State) (h : Half) (f : Stk → Stk) : (s.modStk h f).sent = s.sent := rfl
@[simp] theorem State.modStk_fresh (s : State) (h : Half) (f : Stk → Stk) : (s.modStk h f).fresh = s.fresh := rfl
@[simp] theorem State.modStk_pending (s : State) (h : Half) (f : Stk → Stk) : (s.modStk h f).pending = s.pending := rfl

@[simp] theorem State.modObs_regs (s : State) (h : Half) (f : Obs → Obs) : (s.modObs h f).regs = s.regs := rfl
@[simp] theorem State.modObs_latches (s : State) (h : Half) (f : Obs → Obs) : (s.modObs h f).latches = s.latches := rfl
@[simp] theorem State.modObs_heldLow (s : State) (h : Half) (f : Obs → Obs) : (s.modObs h f).heldLow = s.heldLow := rfl
@[simp] theorem State.modObs_mrd (s : State) (h : Half) (f : Obs → Obs) : (s.modObs h f).mrd = s.mrd := rfl
@[simp] theorem State.modObs_trp (s : State) (h : Half) (f : Obs → Obs) : (s.modObs h f).trp = s.trp := rfl
@[simp] theorem State.modObs_ref (s : State) (h : Half) (f : Obs → Obs) : (s.modObs h f).ref = s.ref := rfl
@[simp] theorem State.modObs_phm (s : State) (h : Half) (f : Obs → Obs) : (s.modObs h f).phm = s.phm := rfl
@[simp] theorem State.modObs_ump (s : State) (h : Half) (f : Obs → Obs) : (s.modObs h f).ump = s.ump := rfl
@[simp] theorem State.modObs_subs (s : State) (h : Half) (f : Obs → Obs) : (s.modObs h f).subs = s.subs := rfl
@[simp] theorem State.modObs_core (s : State) (h : Half) (f : Obs → Obs) : (s.modObs h f).core = s.core := rfl
@[simp] theorem State.modObs_net (s : State) (h : Half) (f : Obs → Obs) : (s.modObs h f).net = s.net := rfl
@[simp] theorem State.modObs_cdb (s : State) (h : Half) (f : Obs → Obs) : (s.modObs h f).cdb = s.cdb := rfl
@[simp] theorem State.modObs_binds (s : State) (h : Half) (f : Obs → Obs) : (s.modObs h f).binds = s.binds := rfl
@[simp] theorem State.modObs_qos (s : State) (h : Half) (f : Obs → Obs) : (s.modObs h f).qos = s.qos := rfl
@[simp] theorem State.modObs_cat (s : State) (h : Half) (f : Obs → Obs) : (s.modObs h f).cat = s.cat := rfl
@[simp] theorem State.modObs_fns (s : State) (h : Half) (f : Obs → Obs) : (s.modObs h f).fns = s.fns := rfl
@[simp] theorem State.modObs_stk (s : State) (h : Half) (f : Obs → Obs) : (s.modObs h f).stk = s.stk := rfl
@[simp] theorem State.modObs_mgt (s : State) (h : Half) (f : Obs → Obs) : (s.modObs h f).mgt = s.mgt := rfl
@[simp] theorem State.modObs_chans (s : State) (h : Half) (f : Obs → Obs) : (s.modObs h f).chans = s.chans := rfl
@[simp] theorem State.modObs_alert (s : State) (h : Half) (f : Obs → Obs) : (s.modObs h f).alert = s.alert := rfl
@[simp] theorem State.modObs_dome (s : State) (h : Half) (f : Obs → Obs) : (s.modObs h f).dome = s.dome := rfl
@[simp] theorem State.modObs_fw (s : State) (h : Half) (f : Obs → Obs) : (s.modObs h f).fw = s.fw := rfl
@[simp] theorem State.modObs_spdm (s : State) (h : Half) (f : Obs → Obs) : (s.modObs h f).spdm = s.spdm := rfl
@[simp] theorem State.modObs_tap (s : State) (h : Half) (f : Obs → Obs) : (s.modObs h f).tap = s.tap := rfl
@[simp] theorem State.modObs_mctp (s : State) (h : Half) (f : Obs → Obs) : (s.modObs h f).mctp = s.mctp := rfl
@[simp] theorem State.modObs_viral (s : State) (h : Half) (f : Obs → Obs) : (s.modObs h f).viral = s.viral := rfl
@[simp] theorem State.modObs_sent (s : State) (h : Half) (f : Obs → Obs) : (s.modObs h f).sent = s.sent := rfl
@[simp] theorem State.modObs_fresh (s : State) (h : Half) (f : Obs → Obs) : (s.modObs h f).fresh = s.fresh := rfl
@[simp] theorem State.modObs_pending (s : State) (h : Half) (f : Obs → Obs) : (s.modObs h f).pending = s.pending := rfl

@[simp] theorem State.modNet_regs (s : State) (f : Net → Net) : (s.modNet f).regs = s.regs := rfl
@[simp] theorem State.modNet_latches (s : State) (f : Net → Net) : (s.modNet f).latches = s.latches := rfl
@[simp] theorem State.modNet_heldLow (s : State) (f : Net → Net) : (s.modNet f).heldLow = s.heldLow := rfl
@[simp] theorem State.modNet_mrd (s : State) (f : Net → Net) : (s.modNet f).mrd = s.mrd := rfl
@[simp] theorem State.modNet_trp (s : State) (f : Net → Net) : (s.modNet f).trp = s.trp := rfl
@[simp] theorem State.modNet_ref (s : State) (f : Net → Net) : (s.modNet f).ref = s.ref := rfl
@[simp] theorem State.modNet_phm (s : State) (f : Net → Net) : (s.modNet f).phm = s.phm := rfl
@[simp] theorem State.modNet_ump (s : State) (f : Net → Net) : (s.modNet f).ump = s.ump := rfl
@[simp] theorem State.modNet_subs (s : State) (f : Net → Net) : (s.modNet f).subs = s.subs := rfl
@[simp] theorem State.modNet_core (s : State) (f : Net → Net) : (s.modNet f).core = s.core := rfl
@[simp] theorem State.modNet_cdb (s : State) (f : Net → Net) : (s.modNet f).cdb = s.cdb := rfl
@[simp] theorem State.modNet_binds (s : State) (f : Net → Net) : (s.modNet f).binds = s.binds := rfl
@[simp] theorem State.modNet_qos (s : State) (f : Net → Net) : (s.modNet f).qos = s.qos := rfl
@[simp] theorem State.modNet_cat (s : State) (f : Net → Net) : (s.modNet f).cat = s.cat := rfl
@[simp] theorem State.modNet_fns (s : State) (f : Net → Net) : (s.modNet f).fns = s.fns := rfl
@[simp] theorem State.modNet_stk (s : State) (f : Net → Net) : (s.modNet f).stk = s.stk := rfl
@[simp] theorem State.modNet_mgt (s : State) (f : Net → Net) : (s.modNet f).mgt = s.mgt := rfl
@[simp] theorem State.modNet_chans (s : State) (f : Net → Net) : (s.modNet f).chans = s.chans := rfl
@[simp] theorem State.modNet_alert (s : State) (f : Net → Net) : (s.modNet f).alert = s.alert := rfl
@[simp] theorem State.modNet_dome (s : State) (f : Net → Net) : (s.modNet f).dome = s.dome := rfl
@[simp] theorem State.modNet_obs (s : State) (f : Net → Net) : (s.modNet f).obs = s.obs := rfl
@[simp] theorem State.modNet_fw (s : State) (f : Net → Net) : (s.modNet f).fw = s.fw := rfl
@[simp] theorem State.modNet_spdm (s : State) (f : Net → Net) : (s.modNet f).spdm = s.spdm := rfl
@[simp] theorem State.modNet_tap (s : State) (f : Net → Net) : (s.modNet f).tap = s.tap := rfl
@[simp] theorem State.modNet_mctp (s : State) (f : Net → Net) : (s.modNet f).mctp = s.mctp := rfl
@[simp] theorem State.modNet_viral (s : State) (f : Net → Net) : (s.modNet f).viral = s.viral := rfl
@[simp] theorem State.modNet_sent (s : State) (f : Net → Net) : (s.modNet f).sent = s.sent := rfl
@[simp] theorem State.modNet_fresh (s : State) (f : Net → Net) : (s.modNet f).fresh = s.fresh := rfl
@[simp] theorem State.modNet_pending (s : State) (f : Net → Net) : (s.modNet f).pending = s.pending := rfl

@[simp] theorem State.modMgt_regs (s : State) (f : Mgt → Mgt) : (s.modMgt f).regs = s.regs := rfl
@[simp] theorem State.modMgt_latches (s : State) (f : Mgt → Mgt) : (s.modMgt f).latches = s.latches := rfl
@[simp] theorem State.modMgt_heldLow (s : State) (f : Mgt → Mgt) : (s.modMgt f).heldLow = s.heldLow := rfl
@[simp] theorem State.modMgt_mrd (s : State) (f : Mgt → Mgt) : (s.modMgt f).mrd = s.mrd := rfl
@[simp] theorem State.modMgt_trp (s : State) (f : Mgt → Mgt) : (s.modMgt f).trp = s.trp := rfl
@[simp] theorem State.modMgt_ref (s : State) (f : Mgt → Mgt) : (s.modMgt f).ref = s.ref := rfl
@[simp] theorem State.modMgt_phm (s : State) (f : Mgt → Mgt) : (s.modMgt f).phm = s.phm := rfl
@[simp] theorem State.modMgt_ump (s : State) (f : Mgt → Mgt) : (s.modMgt f).ump = s.ump := rfl
@[simp] theorem State.modMgt_subs (s : State) (f : Mgt → Mgt) : (s.modMgt f).subs = s.subs := rfl
@[simp] theorem State.modMgt_core (s : State) (f : Mgt → Mgt) : (s.modMgt f).core = s.core := rfl
@[simp] theorem State.modMgt_net (s : State) (f : Mgt → Mgt) : (s.modMgt f).net = s.net := rfl
@[simp] theorem State.modMgt_cdb (s : State) (f : Mgt → Mgt) : (s.modMgt f).cdb = s.cdb := rfl
@[simp] theorem State.modMgt_binds (s : State) (f : Mgt → Mgt) : (s.modMgt f).binds = s.binds := rfl
@[simp] theorem State.modMgt_qos (s : State) (f : Mgt → Mgt) : (s.modMgt f).qos = s.qos := rfl
@[simp] theorem State.modMgt_cat (s : State) (f : Mgt → Mgt) : (s.modMgt f).cat = s.cat := rfl
@[simp] theorem State.modMgt_fns (s : State) (f : Mgt → Mgt) : (s.modMgt f).fns = s.fns := rfl
@[simp] theorem State.modMgt_stk (s : State) (f : Mgt → Mgt) : (s.modMgt f).stk = s.stk := rfl
@[simp] theorem State.modMgt_chans (s : State) (f : Mgt → Mgt) : (s.modMgt f).chans = s.chans := rfl
@[simp] theorem State.modMgt_alert (s : State) (f : Mgt → Mgt) : (s.modMgt f).alert = s.alert := rfl
@[simp] theorem State.modMgt_dome (s : State) (f : Mgt → Mgt) : (s.modMgt f).dome = s.dome := rfl
@[simp] theorem State.modMgt_obs (s : State) (f : Mgt → Mgt) : (s.modMgt f).obs = s.obs := rfl
@[simp] theorem State.modMgt_fw (s : State) (f : Mgt → Mgt) : (s.modMgt f).fw = s.fw := rfl
@[simp] theorem State.modMgt_spdm (s : State) (f : Mgt → Mgt) : (s.modMgt f).spdm = s.spdm := rfl
@[simp] theorem State.modMgt_tap (s : State) (f : Mgt → Mgt) : (s.modMgt f).tap = s.tap := rfl
@[simp] theorem State.modMgt_mctp (s : State) (f : Mgt → Mgt) : (s.modMgt f).mctp = s.mctp := rfl
@[simp] theorem State.modMgt_viral (s : State) (f : Mgt → Mgt) : (s.modMgt f).viral = s.viral := rfl
@[simp] theorem State.modMgt_sent (s : State) (f : Mgt → Mgt) : (s.modMgt f).sent = s.sent := rfl
@[simp] theorem State.modMgt_fresh (s : State) (f : Mgt → Mgt) : (s.modMgt f).fresh = s.fresh := rfl
@[simp] theorem State.modMgt_pending (s : State) (f : Mgt → Mgt) : (s.modMgt f).pending = s.pending := rfl

@[simp] theorem State.modFw_regs (s : State) (f : Fw → Fw) : (s.modFw f).regs = s.regs := rfl
@[simp] theorem State.modFw_latches (s : State) (f : Fw → Fw) : (s.modFw f).latches = s.latches := rfl
@[simp] theorem State.modFw_heldLow (s : State) (f : Fw → Fw) : (s.modFw f).heldLow = s.heldLow := rfl
@[simp] theorem State.modFw_mrd (s : State) (f : Fw → Fw) : (s.modFw f).mrd = s.mrd := rfl
@[simp] theorem State.modFw_trp (s : State) (f : Fw → Fw) : (s.modFw f).trp = s.trp := rfl
@[simp] theorem State.modFw_ref (s : State) (f : Fw → Fw) : (s.modFw f).ref = s.ref := rfl
@[simp] theorem State.modFw_phm (s : State) (f : Fw → Fw) : (s.modFw f).phm = s.phm := rfl
@[simp] theorem State.modFw_ump (s : State) (f : Fw → Fw) : (s.modFw f).ump = s.ump := rfl
@[simp] theorem State.modFw_subs (s : State) (f : Fw → Fw) : (s.modFw f).subs = s.subs := rfl
@[simp] theorem State.modFw_core (s : State) (f : Fw → Fw) : (s.modFw f).core = s.core := rfl
@[simp] theorem State.modFw_net (s : State) (f : Fw → Fw) : (s.modFw f).net = s.net := rfl
@[simp] theorem State.modFw_cdb (s : State) (f : Fw → Fw) : (s.modFw f).cdb = s.cdb := rfl
@[simp] theorem State.modFw_binds (s : State) (f : Fw → Fw) : (s.modFw f).binds = s.binds := rfl
@[simp] theorem State.modFw_qos (s : State) (f : Fw → Fw) : (s.modFw f).qos = s.qos := rfl
@[simp] theorem State.modFw_cat (s : State) (f : Fw → Fw) : (s.modFw f).cat = s.cat := rfl
@[simp] theorem State.modFw_fns (s : State) (f : Fw → Fw) : (s.modFw f).fns = s.fns := rfl
@[simp] theorem State.modFw_stk (s : State) (f : Fw → Fw) : (s.modFw f).stk = s.stk := rfl
@[simp] theorem State.modFw_mgt (s : State) (f : Fw → Fw) : (s.modFw f).mgt = s.mgt := rfl
@[simp] theorem State.modFw_chans (s : State) (f : Fw → Fw) : (s.modFw f).chans = s.chans := rfl
@[simp] theorem State.modFw_alert (s : State) (f : Fw → Fw) : (s.modFw f).alert = s.alert := rfl
@[simp] theorem State.modFw_dome (s : State) (f : Fw → Fw) : (s.modFw f).dome = s.dome := rfl
@[simp] theorem State.modFw_obs (s : State) (f : Fw → Fw) : (s.modFw f).obs = s.obs := rfl
@[simp] theorem State.modFw_spdm (s : State) (f : Fw → Fw) : (s.modFw f).spdm = s.spdm := rfl
@[simp] theorem State.modFw_tap (s : State) (f : Fw → Fw) : (s.modFw f).tap = s.tap := rfl
@[simp] theorem State.modFw_mctp (s : State) (f : Fw → Fw) : (s.modFw f).mctp = s.mctp := rfl
@[simp] theorem State.modFw_viral (s : State) (f : Fw → Fw) : (s.modFw f).viral = s.viral := rfl
@[simp] theorem State.modFw_sent (s : State) (f : Fw → Fw) : (s.modFw f).sent = s.sent := rfl
@[simp] theorem State.modFw_fresh (s : State) (f : Fw → Fw) : (s.modFw f).fresh = s.fresh := rfl
@[simp] theorem State.modFw_pending (s : State) (f : Fw → Fw) : (s.modFw f).pending = s.pending := rfl

@[simp] theorem State.modSub_regs (s : State) (d : Nat) (f : Sub → Sub) : (s.modSub d f).regs = s.regs := rfl
@[simp] theorem State.modSub_latches (s : State) (d : Nat) (f : Sub → Sub) : (s.modSub d f).latches = s.latches := rfl
@[simp] theorem State.modSub_heldLow (s : State) (d : Nat) (f : Sub → Sub) : (s.modSub d f).heldLow = s.heldLow := rfl
@[simp] theorem State.modSub_mrd (s : State) (d : Nat) (f : Sub → Sub) : (s.modSub d f).mrd = s.mrd := rfl
@[simp] theorem State.modSub_trp (s : State) (d : Nat) (f : Sub → Sub) : (s.modSub d f).trp = s.trp := rfl
@[simp] theorem State.modSub_ref (s : State) (d : Nat) (f : Sub → Sub) : (s.modSub d f).ref = s.ref := rfl
@[simp] theorem State.modSub_phm (s : State) (d : Nat) (f : Sub → Sub) : (s.modSub d f).phm = s.phm := rfl
@[simp] theorem State.modSub_ump (s : State) (d : Nat) (f : Sub → Sub) : (s.modSub d f).ump = s.ump := rfl
@[simp] theorem State.modSub_core (s : State) (d : Nat) (f : Sub → Sub) : (s.modSub d f).core = s.core := rfl
@[simp] theorem State.modSub_net (s : State) (d : Nat) (f : Sub → Sub) : (s.modSub d f).net = s.net := rfl
@[simp] theorem State.modSub_cdb (s : State) (d : Nat) (f : Sub → Sub) : (s.modSub d f).cdb = s.cdb := rfl
@[simp] theorem State.modSub_binds (s : State) (d : Nat) (f : Sub → Sub) : (s.modSub d f).binds = s.binds := rfl
@[simp] theorem State.modSub_qos (s : State) (d : Nat) (f : Sub → Sub) : (s.modSub d f).qos = s.qos := rfl
@[simp] theorem State.modSub_cat (s : State) (d : Nat) (f : Sub → Sub) : (s.modSub d f).cat = s.cat := rfl
@[simp] theorem State.modSub_fns (s : State) (d : Nat) (f : Sub → Sub) : (s.modSub d f).fns = s.fns := rfl
@[simp] theorem State.modSub_stk (s : State) (d : Nat) (f : Sub → Sub) : (s.modSub d f).stk = s.stk := rfl
@[simp] theorem State.modSub_mgt (s : State) (d : Nat) (f : Sub → Sub) : (s.modSub d f).mgt = s.mgt := rfl
@[simp] theorem State.modSub_chans (s : State) (d : Nat) (f : Sub → Sub) : (s.modSub d f).chans = s.chans := rfl
@[simp] theorem State.modSub_alert (s : State) (d : Nat) (f : Sub → Sub) : (s.modSub d f).alert = s.alert := rfl
@[simp] theorem State.modSub_dome (s : State) (d : Nat) (f : Sub → Sub) : (s.modSub d f).dome = s.dome := rfl
@[simp] theorem State.modSub_obs (s : State) (d : Nat) (f : Sub → Sub) : (s.modSub d f).obs = s.obs := rfl
@[simp] theorem State.modSub_fw (s : State) (d : Nat) (f : Sub → Sub) : (s.modSub d f).fw = s.fw := rfl
@[simp] theorem State.modSub_spdm (s : State) (d : Nat) (f : Sub → Sub) : (s.modSub d f).spdm = s.spdm := rfl
@[simp] theorem State.modSub_tap (s : State) (d : Nat) (f : Sub → Sub) : (s.modSub d f).tap = s.tap := rfl
@[simp] theorem State.modSub_mctp (s : State) (d : Nat) (f : Sub → Sub) : (s.modSub d f).mctp = s.mctp := rfl
@[simp] theorem State.modSub_viral (s : State) (d : Nat) (f : Sub → Sub) : (s.modSub d f).viral = s.viral := rfl
@[simp] theorem State.modSub_sent (s : State) (d : Nat) (f : Sub → Sub) : (s.modSub d f).sent = s.sent := rfl
@[simp] theorem State.modSub_fresh (s : State) (d : Nat) (f : Sub → Sub) : (s.modSub d f).fresh = s.fresh := rfl
@[simp] theorem State.modSub_pending (s : State) (d : Nat) (f : Sub → Sub) : (s.modSub d f).pending = s.pending := rfl

@[simp] theorem State.modChan_regs (s : State) (c : Nat) (f : Chan → Chan) : (s.modChan c f).regs = s.regs := rfl
@[simp] theorem State.modChan_latches (s : State) (c : Nat) (f : Chan → Chan) : (s.modChan c f).latches = s.latches := rfl
@[simp] theorem State.modChan_heldLow (s : State) (c : Nat) (f : Chan → Chan) : (s.modChan c f).heldLow = s.heldLow := rfl
@[simp] theorem State.modChan_mrd (s : State) (c : Nat) (f : Chan → Chan) : (s.modChan c f).mrd = s.mrd := rfl
@[simp] theorem State.modChan_trp (s : State) (c : Nat) (f : Chan → Chan) : (s.modChan c f).trp = s.trp := rfl
@[simp] theorem State.modChan_ref (s : State) (c : Nat) (f : Chan → Chan) : (s.modChan c f).ref = s.ref := rfl
@[simp] theorem State.modChan_phm (s : State) (c : Nat) (f : Chan → Chan) : (s.modChan c f).phm = s.phm := rfl
@[simp] theorem State.modChan_ump (s : State) (c : Nat) (f : Chan → Chan) : (s.modChan c f).ump = s.ump := rfl
@[simp] theorem State.modChan_subs (s : State) (c : Nat) (f : Chan → Chan) : (s.modChan c f).subs = s.subs := rfl
@[simp] theorem State.modChan_core (s : State) (c : Nat) (f : Chan → Chan) : (s.modChan c f).core = s.core := rfl
@[simp] theorem State.modChan_net (s : State) (c : Nat) (f : Chan → Chan) : (s.modChan c f).net = s.net := rfl
@[simp] theorem State.modChan_cdb (s : State) (c : Nat) (f : Chan → Chan) : (s.modChan c f).cdb = s.cdb := rfl
@[simp] theorem State.modChan_binds (s : State) (c : Nat) (f : Chan → Chan) : (s.modChan c f).binds = s.binds := rfl
@[simp] theorem State.modChan_qos (s : State) (c : Nat) (f : Chan → Chan) : (s.modChan c f).qos = s.qos := rfl
@[simp] theorem State.modChan_cat (s : State) (c : Nat) (f : Chan → Chan) : (s.modChan c f).cat = s.cat := rfl
@[simp] theorem State.modChan_fns (s : State) (c : Nat) (f : Chan → Chan) : (s.modChan c f).fns = s.fns := rfl
@[simp] theorem State.modChan_stk (s : State) (c : Nat) (f : Chan → Chan) : (s.modChan c f).stk = s.stk := rfl
@[simp] theorem State.modChan_mgt (s : State) (c : Nat) (f : Chan → Chan) : (s.modChan c f).mgt = s.mgt := rfl
@[simp] theorem State.modChan_alert (s : State) (c : Nat) (f : Chan → Chan) : (s.modChan c f).alert = s.alert := rfl
@[simp] theorem State.modChan_dome (s : State) (c : Nat) (f : Chan → Chan) : (s.modChan c f).dome = s.dome := rfl
@[simp] theorem State.modChan_obs (s : State) (c : Nat) (f : Chan → Chan) : (s.modChan c f).obs = s.obs := rfl
@[simp] theorem State.modChan_fw (s : State) (c : Nat) (f : Chan → Chan) : (s.modChan c f).fw = s.fw := rfl
@[simp] theorem State.modChan_spdm (s : State) (c : Nat) (f : Chan → Chan) : (s.modChan c f).spdm = s.spdm := rfl
@[simp] theorem State.modChan_tap (s : State) (c : Nat) (f : Chan → Chan) : (s.modChan c f).tap = s.tap := rfl
@[simp] theorem State.modChan_mctp (s : State) (c : Nat) (f : Chan → Chan) : (s.modChan c f).mctp = s.mctp := rfl
@[simp] theorem State.modChan_viral (s : State) (c : Nat) (f : Chan → Chan) : (s.modChan c f).viral = s.viral := rfl
@[simp] theorem State.modChan_sent (s : State) (c : Nat) (f : Chan → Chan) : (s.modChan c f).sent = s.sent := rfl
@[simp] theorem State.modChan_fresh (s : State) (c : Nat) (f : Chan → Chan) : (s.modChan c f).fresh = s.fresh := rfl
@[simp] theorem State.modChan_pending (s : State) (c : Nat) (f : Chan → Chan) : (s.modChan c f).pending = s.pending := rfl

@[simp] theorem State.modFn_regs (s : State) (t n : Nat) (f : Fn → Fn) : (s.modFn t n f).regs = s.regs := rfl
@[simp] theorem State.modFn_latches (s : State) (t n : Nat) (f : Fn → Fn) : (s.modFn t n f).latches = s.latches := rfl
@[simp] theorem State.modFn_heldLow (s : State) (t n : Nat) (f : Fn → Fn) : (s.modFn t n f).heldLow = s.heldLow := rfl
@[simp] theorem State.modFn_mrd (s : State) (t n : Nat) (f : Fn → Fn) : (s.modFn t n f).mrd = s.mrd := rfl
@[simp] theorem State.modFn_trp (s : State) (t n : Nat) (f : Fn → Fn) : (s.modFn t n f).trp = s.trp := rfl
@[simp] theorem State.modFn_ref (s : State) (t n : Nat) (f : Fn → Fn) : (s.modFn t n f).ref = s.ref := rfl
@[simp] theorem State.modFn_phm (s : State) (t n : Nat) (f : Fn → Fn) : (s.modFn t n f).phm = s.phm := rfl
@[simp] theorem State.modFn_ump (s : State) (t n : Nat) (f : Fn → Fn) : (s.modFn t n f).ump = s.ump := rfl
@[simp] theorem State.modFn_subs (s : State) (t n : Nat) (f : Fn → Fn) : (s.modFn t n f).subs = s.subs := rfl
@[simp] theorem State.modFn_core (s : State) (t n : Nat) (f : Fn → Fn) : (s.modFn t n f).core = s.core := rfl
@[simp] theorem State.modFn_net (s : State) (t n : Nat) (f : Fn → Fn) : (s.modFn t n f).net = s.net := rfl
@[simp] theorem State.modFn_cdb (s : State) (t n : Nat) (f : Fn → Fn) : (s.modFn t n f).cdb = s.cdb := rfl
@[simp] theorem State.modFn_binds (s : State) (t n : Nat) (f : Fn → Fn) : (s.modFn t n f).binds = s.binds := rfl
@[simp] theorem State.modFn_qos (s : State) (t n : Nat) (f : Fn → Fn) : (s.modFn t n f).qos = s.qos := rfl
@[simp] theorem State.modFn_cat (s : State) (t n : Nat) (f : Fn → Fn) : (s.modFn t n f).cat = s.cat := rfl
@[simp] theorem State.modFn_stk (s : State) (t n : Nat) (f : Fn → Fn) : (s.modFn t n f).stk = s.stk := rfl
@[simp] theorem State.modFn_mgt (s : State) (t n : Nat) (f : Fn → Fn) : (s.modFn t n f).mgt = s.mgt := rfl
@[simp] theorem State.modFn_chans (s : State) (t n : Nat) (f : Fn → Fn) : (s.modFn t n f).chans = s.chans := rfl
@[simp] theorem State.modFn_alert (s : State) (t n : Nat) (f : Fn → Fn) : (s.modFn t n f).alert = s.alert := rfl
@[simp] theorem State.modFn_dome (s : State) (t n : Nat) (f : Fn → Fn) : (s.modFn t n f).dome = s.dome := rfl
@[simp] theorem State.modFn_obs (s : State) (t n : Nat) (f : Fn → Fn) : (s.modFn t n f).obs = s.obs := rfl
@[simp] theorem State.modFn_fw (s : State) (t n : Nat) (f : Fn → Fn) : (s.modFn t n f).fw = s.fw := rfl
@[simp] theorem State.modFn_spdm (s : State) (t n : Nat) (f : Fn → Fn) : (s.modFn t n f).spdm = s.spdm := rfl
@[simp] theorem State.modFn_tap (s : State) (t n : Nat) (f : Fn → Fn) : (s.modFn t n f).tap = s.tap := rfl
@[simp] theorem State.modFn_mctp (s : State) (t n : Nat) (f : Fn → Fn) : (s.modFn t n f).mctp = s.mctp := rfl
@[simp] theorem State.modFn_viral (s : State) (t n : Nat) (f : Fn → Fn) : (s.modFn t n f).viral = s.viral := rfl
@[simp] theorem State.modFn_sent (s : State) (t n : Nat) (f : Fn → Fn) : (s.modFn t n f).sent = s.sent := rfl
@[simp] theorem State.modFn_fresh (s : State) (t n : Nat) (f : Fn → Fn) : (s.modFn t n f).fresh = s.fresh := rfl
@[simp] theorem State.modFn_pending (s : State) (t n : Nat) (f : Fn → Fn) : (s.modFn t n f).pending = s.pending := rfl
@[simp] theorem State.wrWords_latches (s : State) (a : Nat) (ws : List Word) : (s.wrWords a ws).latches = s.latches := by
  induction ws generalizing s a with
  | nil => rfl
  | cons w r ih => rw [State.wrWords, ih]; rfl
@[simp] theorem State.wrWords_heldLow (s : State) (a : Nat) (ws : List Word) : (s.wrWords a ws).heldLow = s.heldLow := by
  induction ws generalizing s a with
  | nil => rfl
  | cons w r ih => rw [State.wrWords, ih]; rfl
@[simp] theorem State.wrWords_mrd (s : State) (a : Nat) (ws : List Word) : (s.wrWords a ws).mrd = s.mrd := by
  induction ws generalizing s a with
  | nil => rfl
  | cons w r ih => rw [State.wrWords, ih]; rfl
@[simp] theorem State.wrWords_trp (s : State) (a : Nat) (ws : List Word) : (s.wrWords a ws).trp = s.trp := by
  induction ws generalizing s a with
  | nil => rfl
  | cons w r ih => rw [State.wrWords, ih]; rfl
@[simp] theorem State.wrWords_ref (s : State) (a : Nat) (ws : List Word) : (s.wrWords a ws).ref = s.ref := by
  induction ws generalizing s a with
  | nil => rfl
  | cons w r ih => rw [State.wrWords, ih]; rfl
@[simp] theorem State.wrWords_phm (s : State) (a : Nat) (ws : List Word) : (s.wrWords a ws).phm = s.phm := by
  induction ws generalizing s a with
  | nil => rfl
  | cons w r ih => rw [State.wrWords, ih]; rfl
@[simp] theorem State.wrWords_ump (s : State) (a : Nat) (ws : List Word) : (s.wrWords a ws).ump = s.ump := by
  induction ws generalizing s a with
  | nil => rfl
  | cons w r ih => rw [State.wrWords, ih]; rfl
@[simp] theorem State.wrWords_subs (s : State) (a : Nat) (ws : List Word) : (s.wrWords a ws).subs = s.subs := by
  induction ws generalizing s a with
  | nil => rfl
  | cons w r ih => rw [State.wrWords, ih]; rfl
@[simp] theorem State.wrWords_core (s : State) (a : Nat) (ws : List Word) : (s.wrWords a ws).core = s.core := by
  induction ws generalizing s a with
  | nil => rfl
  | cons w r ih => rw [State.wrWords, ih]; rfl
@[simp] theorem State.wrWords_net (s : State) (a : Nat) (ws : List Word) : (s.wrWords a ws).net = s.net := by
  induction ws generalizing s a with
  | nil => rfl
  | cons w r ih => rw [State.wrWords, ih]; rfl
@[simp] theorem State.wrWords_cdb (s : State) (a : Nat) (ws : List Word) : (s.wrWords a ws).cdb = s.cdb := by
  induction ws generalizing s a with
  | nil => rfl
  | cons w r ih => rw [State.wrWords, ih]; rfl
@[simp] theorem State.wrWords_binds (s : State) (a : Nat) (ws : List Word) : (s.wrWords a ws).binds = s.binds := by
  induction ws generalizing s a with
  | nil => rfl
  | cons w r ih => rw [State.wrWords, ih]; rfl
@[simp] theorem State.wrWords_qos (s : State) (a : Nat) (ws : List Word) : (s.wrWords a ws).qos = s.qos := by
  induction ws generalizing s a with
  | nil => rfl
  | cons w r ih => rw [State.wrWords, ih]; rfl
@[simp] theorem State.wrWords_cat (s : State) (a : Nat) (ws : List Word) : (s.wrWords a ws).cat = s.cat := by
  induction ws generalizing s a with
  | nil => rfl
  | cons w r ih => rw [State.wrWords, ih]; rfl
@[simp] theorem State.wrWords_fns (s : State) (a : Nat) (ws : List Word) : (s.wrWords a ws).fns = s.fns := by
  induction ws generalizing s a with
  | nil => rfl
  | cons w r ih => rw [State.wrWords, ih]; rfl
@[simp] theorem State.wrWords_stk (s : State) (a : Nat) (ws : List Word) : (s.wrWords a ws).stk = s.stk := by
  induction ws generalizing s a with
  | nil => rfl
  | cons w r ih => rw [State.wrWords, ih]; rfl
@[simp] theorem State.wrWords_mgt (s : State) (a : Nat) (ws : List Word) : (s.wrWords a ws).mgt = s.mgt := by
  induction ws generalizing s a with
  | nil => rfl
  | cons w r ih => rw [State.wrWords, ih]; rfl
@[simp] theorem State.wrWords_chans (s : State) (a : Nat) (ws : List Word) : (s.wrWords a ws).chans = s.chans := by
  induction ws generalizing s a with
  | nil => rfl
  | cons w r ih => rw [State.wrWords, ih]; rfl
@[simp] theorem State.wrWords_alert (s : State) (a : Nat) (ws : List Word) : (s.wrWords a ws).alert = s.alert := by
  induction ws generalizing s a with
  | nil => rfl
  | cons w r ih => rw [State.wrWords, ih]; rfl
@[simp] theorem State.wrWords_dome (s : State) (a : Nat) (ws : List Word) : (s.wrWords a ws).dome = s.dome := by
  induction ws generalizing s a with
  | nil => rfl
  | cons w r ih => rw [State.wrWords, ih]; rfl
@[simp] theorem State.wrWords_obs (s : State) (a : Nat) (ws : List Word) : (s.wrWords a ws).obs = s.obs := by
  induction ws generalizing s a with
  | nil => rfl
  | cons w r ih => rw [State.wrWords, ih]; rfl
@[simp] theorem State.wrWords_fw (s : State) (a : Nat) (ws : List Word) : (s.wrWords a ws).fw = s.fw := by
  induction ws generalizing s a with
  | nil => rfl
  | cons w r ih => rw [State.wrWords, ih]; rfl
@[simp] theorem State.wrWords_spdm (s : State) (a : Nat) (ws : List Word) : (s.wrWords a ws).spdm = s.spdm := by
  induction ws generalizing s a with
  | nil => rfl
  | cons w r ih => rw [State.wrWords, ih]; rfl
@[simp] theorem State.wrWords_tap (s : State) (a : Nat) (ws : List Word) : (s.wrWords a ws).tap = s.tap := by
  induction ws generalizing s a with
  | nil => rfl
  | cons w r ih => rw [State.wrWords, ih]; rfl
@[simp] theorem State.wrWords_mctp (s : State) (a : Nat) (ws : List Word) : (s.wrWords a ws).mctp = s.mctp := by
  induction ws generalizing s a with
  | nil => rfl
  | cons w r ih => rw [State.wrWords, ih]; rfl
@[simp] theorem State.wrWords_viral (s : State) (a : Nat) (ws : List Word) : (s.wrWords a ws).viral = s.viral := by
  induction ws generalizing s a with
  | nil => rfl
  | cons w r ih => rw [State.wrWords, ih]; rfl
@[simp] theorem State.wrWords_sent (s : State) (a : Nat) (ws : List Word) : (s.wrWords a ws).sent = s.sent := by
  induction ws generalizing s a with
  | nil => rfl
  | cons w r ih => rw [State.wrWords, ih]; rfl
@[simp] theorem State.wrWords_fresh (s : State) (a : Nat) (ws : List Word) : (s.wrWords a ws).fresh = s.fresh := by
  induction ws generalizing s a with
  | nil => rfl
  | cons w r ih => rw [State.wrWords, ih]; rfl
@[simp] theorem State.wrWords_pending (s : State) (a : Nat) (ws : List Word) : (s.wrWords a ws).pending = s.pending := by
  induction ws generalizing s a with
  | nil => rfl
  | cons w r ih => rw [State.wrWords, ih]; rfl
@[simp] theorem State.fsets_latches (s : State) (a : Nat) (l : List (Fld × Nat)) : (s.fsets a l).latches = s.latches := by
  induction l generalizing s with
  | nil => rfl
  | cons x r ih => rw [State.fsets, List.foldl_cons]; exact (ih _).trans rfl
@[simp] theorem State.fsets_heldLow (s : State) (a : Nat) (l : List (Fld × Nat)) : (s.fsets a l).heldLow = s.heldLow := by
  induction l generalizing s with
  | nil => rfl
  | cons x r ih => rw [State.fsets, List.foldl_cons]; exact (ih _).trans rfl
@[simp] theorem State.fsets_mrd (s : State) (a : Nat) (l : List (Fld × Nat)) : (s.fsets a l).mrd = s.mrd := by
  induction l generalizing s with
  | nil => rfl
  | cons x r ih => rw [State.fsets, List.foldl_cons]; exact (ih _).trans rfl
@[simp] theorem State.fsets_trp (s : State) (a : Nat) (l : List (Fld × Nat)) : (s.fsets a l).trp = s.trp := by
  induction l generalizing s with
  | nil => rfl
  | cons x r ih => rw [State.fsets, List.foldl_cons]; exact (ih _).trans rfl
@[simp] theorem State.fsets_ref (s : State) (a : Nat) (l : List (Fld × Nat)) : (s.fsets a l).ref = s.ref := by
  induction l generalizing s with
  | nil => rfl
  | cons x r ih => rw [State.fsets, List.foldl_cons]; exact (ih _).trans rfl
@[simp] theorem State.fsets_phm (s : State) (a : Nat) (l : List (Fld × Nat)) : (s.fsets a l).phm = s.phm := by
  induction l generalizing s with
  | nil => rfl
  | cons x r ih => rw [State.fsets, List.foldl_cons]; exact (ih _).trans rfl
@[simp] theorem State.fsets_ump (s : State) (a : Nat) (l : List (Fld × Nat)) : (s.fsets a l).ump = s.ump := by
  induction l generalizing s with
  | nil => rfl
  | cons x r ih => rw [State.fsets, List.foldl_cons]; exact (ih _).trans rfl
@[simp] theorem State.fsets_subs (s : State) (a : Nat) (l : List (Fld × Nat)) : (s.fsets a l).subs = s.subs := by
  induction l generalizing s with
  | nil => rfl
  | cons x r ih => rw [State.fsets, List.foldl_cons]; exact (ih _).trans rfl
@[simp] theorem State.fsets_core (s : State) (a : Nat) (l : List (Fld × Nat)) : (s.fsets a l).core = s.core := by
  induction l generalizing s with
  | nil => rfl
  | cons x r ih => rw [State.fsets, List.foldl_cons]; exact (ih _).trans rfl
@[simp] theorem State.fsets_net (s : State) (a : Nat) (l : List (Fld × Nat)) : (s.fsets a l).net = s.net := by
  induction l generalizing s with
  | nil => rfl
  | cons x r ih => rw [State.fsets, List.foldl_cons]; exact (ih _).trans rfl
@[simp] theorem State.fsets_cdb (s : State) (a : Nat) (l : List (Fld × Nat)) : (s.fsets a l).cdb = s.cdb := by
  induction l generalizing s with
  | nil => rfl
  | cons x r ih => rw [State.fsets, List.foldl_cons]; exact (ih _).trans rfl
@[simp] theorem State.fsets_binds (s : State) (a : Nat) (l : List (Fld × Nat)) : (s.fsets a l).binds = s.binds := by
  induction l generalizing s with
  | nil => rfl
  | cons x r ih => rw [State.fsets, List.foldl_cons]; exact (ih _).trans rfl
@[simp] theorem State.fsets_qos (s : State) (a : Nat) (l : List (Fld × Nat)) : (s.fsets a l).qos = s.qos := by
  induction l generalizing s with
  | nil => rfl
  | cons x r ih => rw [State.fsets, List.foldl_cons]; exact (ih _).trans rfl
@[simp] theorem State.fsets_cat (s : State) (a : Nat) (l : List (Fld × Nat)) : (s.fsets a l).cat = s.cat := by
  induction l generalizing s with
  | nil => rfl
  | cons x r ih => rw [State.fsets, List.foldl_cons]; exact (ih _).trans rfl
@[simp] theorem State.fsets_fns (s : State) (a : Nat) (l : List (Fld × Nat)) : (s.fsets a l).fns = s.fns := by
  induction l generalizing s with
  | nil => rfl
  | cons x r ih => rw [State.fsets, List.foldl_cons]; exact (ih _).trans rfl
@[simp] theorem State.fsets_stk (s : State) (a : Nat) (l : List (Fld × Nat)) : (s.fsets a l).stk = s.stk := by
  induction l generalizing s with
  | nil => rfl
  | cons x r ih => rw [State.fsets, List.foldl_cons]; exact (ih _).trans rfl
@[simp] theorem State.fsets_mgt (s : State) (a : Nat) (l : List (Fld × Nat)) : (s.fsets a l).mgt = s.mgt := by
  induction l generalizing s with
  | nil => rfl
  | cons x r ih => rw [State.fsets, List.foldl_cons]; exact (ih _).trans rfl
@[simp] theorem State.fsets_chans (s : State) (a : Nat) (l : List (Fld × Nat)) : (s.fsets a l).chans = s.chans := by
  induction l generalizing s with
  | nil => rfl
  | cons x r ih => rw [State.fsets, List.foldl_cons]; exact (ih _).trans rfl
@[simp] theorem State.fsets_alert (s : State) (a : Nat) (l : List (Fld × Nat)) : (s.fsets a l).alert = s.alert := by
  induction l generalizing s with
  | nil => rfl
  | cons x r ih => rw [State.fsets, List.foldl_cons]; exact (ih _).trans rfl
@[simp] theorem State.fsets_dome (s : State) (a : Nat) (l : List (Fld × Nat)) : (s.fsets a l).dome = s.dome := by
  induction l generalizing s with
  | nil => rfl
  | cons x r ih => rw [State.fsets, List.foldl_cons]; exact (ih _).trans rfl
@[simp] theorem State.fsets_obs (s : State) (a : Nat) (l : List (Fld × Nat)) : (s.fsets a l).obs = s.obs := by
  induction l generalizing s with
  | nil => rfl
  | cons x r ih => rw [State.fsets, List.foldl_cons]; exact (ih _).trans rfl
@[simp] theorem State.fsets_fw (s : State) (a : Nat) (l : List (Fld × Nat)) : (s.fsets a l).fw = s.fw := by
  induction l generalizing s with
  | nil => rfl
  | cons x r ih => rw [State.fsets, List.foldl_cons]; exact (ih _).trans rfl
@[simp] theorem State.fsets_spdm (s : State) (a : Nat) (l : List (Fld × Nat)) : (s.fsets a l).spdm = s.spdm := by
  induction l generalizing s with
  | nil => rfl
  | cons x r ih => rw [State.fsets, List.foldl_cons]; exact (ih _).trans rfl
@[simp] theorem State.fsets_tap (s : State) (a : Nat) (l : List (Fld × Nat)) : (s.fsets a l).tap = s.tap := by
  induction l generalizing s with
  | nil => rfl
  | cons x r ih => rw [State.fsets, List.foldl_cons]; exact (ih _).trans rfl
@[simp] theorem State.fsets_mctp (s : State) (a : Nat) (l : List (Fld × Nat)) : (s.fsets a l).mctp = s.mctp := by
  induction l generalizing s with
  | nil => rfl
  | cons x r ih => rw [State.fsets, List.foldl_cons]; exact (ih _).trans rfl
@[simp] theorem State.fsets_viral (s : State) (a : Nat) (l : List (Fld × Nat)) : (s.fsets a l).viral = s.viral := by
  induction l generalizing s with
  | nil => rfl
  | cons x r ih => rw [State.fsets, List.foldl_cons]; exact (ih _).trans rfl
@[simp] theorem State.fsets_sent (s : State) (a : Nat) (l : List (Fld × Nat)) : (s.fsets a l).sent = s.sent := by
  induction l generalizing s with
  | nil => rfl
  | cons x r ih => rw [State.fsets, List.foldl_cons]; exact (ih _).trans rfl
@[simp] theorem State.fsets_fresh (s : State) (a : Nat) (l : List (Fld × Nat)) : (s.fsets a l).fresh = s.fresh := by
  induction l generalizing s with
  | nil => rfl
  | cons x r ih => rw [State.fsets, List.foldl_cons]; exact (ih _).trans rfl
@[simp] theorem State.fsets_pending (s : State) (a : Nat) (l : List (Fld × Nat)) : (s.fsets a l).pending = s.pending := by
  induction l generalizing s with
  | nil => rfl
  | cons x r ih => rw [State.fsets, List.foldl_cons]; exact (ih _).trans rfl

end Sys2Proof.Machine
end

