-- ==== Sys2Proof/Laws/Regs.lean ====
section
/-! SUPPORT. Registers and their fields: a read after a write, fields of one word, and what leaves every register as it was. -/

namespace Sys2Proof.Machine

open Sys2Proof

@[simp] theorem rd_wr_same (s : State) (a : Nat) (v : Word) : (s.wr a v).rd a = v := mget_mset_same _ _ _ _

theorem rd_wr_ne (s : State) {a b : Nat} (v : Word) (h : b ≠ a) : (s.wr a v).rd b = s.rd b := mget_mset_ne _ _ _ h

/-- Bit i of a field's mask. -/
theorem testBit_fldMask (f : Fld) (i : Nat) :
    (fldMask f).getLsbD i = (decide (i < 32) && decide (f.lo ≤ i) && decide (i < f.lo + f.width)) := by
  simp only [fldMask, BitVec.getLsbD_ofNat, Nat.testBit_shiftLeft, Nat.testBit_two_pow_sub_one]
  by_cases h1 : f.lo ≤ i
  · by_cases h2 : i < f.lo + f.width
    · have : i - f.lo < f.width := by omega
      simp [h1, h2, this]
    · have : ¬ i - f.lo < f.width := by omega
      simp [h1, h2, this]
  · simp [h1]

/-- Bit i of a word with a field set. -/
theorem getLsbD_fldPut (v : Word) (f : Fld) (n i : Nat) :
    (fldPut v f n).getLsbD i =
      (decide (i < 32) && (if f.lo ≤ i ∧ i < f.lo + f.width then n.testBit (i - f.lo) else v.getLsbD i)) := by
  simp only [fldPut, BitVec.getLsbD_or, BitVec.getLsbD_and, BitVec.getLsbD_not, testBit_fldMask, BitVec.getLsbD_ofNat,
    Nat.testBit_shiftLeft, Nat.testBit_mod_two_pow]
  by_cases h0 : i < 32
  · by_cases h1 : f.lo ≤ i
    · by_cases h2 : i < f.lo + f.width
      · have : i - f.lo < f.width := by omega
        simp [h0, h1, h2, this]
      · have : ¬ i - f.lo < f.width := by omega
        simp [h0, h1, h2, this]
    · simp [h0, h1]
  · have : v.getLsbD i = false := BitVec.getLsbD_of_ge v i (by omega)
    simp [h0, this]

/-- A field reads as what was put there, modulo its width. -/
theorem fldGet_fldPut_same (v : Word) (f : Fld) (n : Nat) (h : f.lo + f.width ≤ 32) :
    fldGet (fldPut v f n) f = n % 2 ^ f.width := by
  apply Nat.eq_of_testBit_eq
  intro i
  simp only [fldGet, Nat.testBit_mod_two_pow, Nat.testBit_shiftRight]
  by_cases hi : i < f.width
  · have e : (fldPut v f n).toNat.testBit (f.lo + i) = (fldPut v f n).getLsbD (f.lo + i) := rfl
    rw [e, getLsbD_fldPut]
    have h1 : f.lo + i < 32 := by omega
    have h2 : f.lo + i < f.lo + f.width := by omega
    simp [hi, h1]
  · simp [hi]

/-- A field keeps its value when another field is put. -/
theorem fldGet_fldPut_ne (v : Word) (f g : Fld) (n : Nat) (h : g.lo + g.width ≤ f.lo ∨ f.lo + f.width ≤ g.lo)
    (hg : g.lo + g.width ≤ 32) : fldGet (fldPut v f n) g = fldGet v g := by
  apply Nat.eq_of_testBit_eq
  intro i
  simp only [fldGet, Nat.testBit_mod_two_pow, Nat.testBit_shiftRight]
  by_cases hi : i < g.width
  · have e : ∀ w : Word, w.toNat.testBit (g.lo + i) = w.getLsbD (g.lo + i) := fun _ => rfl
    rw [e, e, getLsbD_fldPut]
    have h1 : g.lo + i < 32 := by omega
    have h2 : ¬ (f.lo ≤ g.lo + i ∧ g.lo + i < f.lo + f.width) := by omega
    simp [h1, h2]
  · simp [hi]

theorem fget_fset_same (s : State) (a : Nat) (f : Fld) (n : Nat) (h : f.lo + f.width ≤ 32) :
    (s.fset a f n).fget a f = n % 2 ^ f.width := by
  simp only [State.fset, State.fget, rd_wr_same, fldGet_fldPut_same _ _ _ h]

theorem fget_fset_ne (s : State) (a : Nat) (f g : Fld) (n : Nat) (h : g.lo + g.width ≤ f.lo ∨ f.lo + f.width ≤ g.lo)
    (hg : g.lo + g.width ≤ 32) : (s.fset a f n).fget a g = s.fget a g := by
  simp only [State.fset, State.fget, rd_wr_same, fldGet_fldPut_ne _ _ _ _ h hg]

theorem rd_fset_ne (s : State) {a b : Nat} (f : Fld) (n : Nat) (h : b ≠ a) : (s.fset a f n).rd b = s.rd b := rd_wr_ne _ _ h

theorem fget_wr_ne (s : State) {a b : Nat} (v : Word) (g : Fld) (h : b ≠ a) : (s.wr a v).fget b g = s.fget b g := by
  simp only [State.fget, rd_wr_ne _ _ h]

theorem fget_fset_at_ne (s : State) {a b : Nat} (f g : Fld) (n : Nat) (h : b ≠ a) : (s.fset a f n).fget b g = s.fget b g :=
  fget_wr_ne _ _ _ h

/-- The register table keeps its canonical form under a write. -/
theorem wr_canon (s : State) (a : Nat) (v : Word) (h : canon resetWord s.regs = true) : canon resetWord (s.wr a v).regs = true :=
  mset_canon _ _ _ _ h

theorem fset_canon (s : State) (a : Nat) (f : Fld) (n : Nat) (h : canon resetWord s.regs = true) :
    canon resetWord (s.fset a f n).regs = true := wr_canon _ _ _ h

theorem rd64_wr64_same (s : State) (a v : Nat) (h : v < 2 ^ 64) : (s.wr64 a v).rd64 a = v := by
  simp only [State.rd64, State.wr64, rd_wr_same, rd_wr_ne _ _ (show a ≠ a + 4 by omega), BitVec.toNat_ofNat]
  omega

theorem rd_wr64_ne (s : State) {a b v : Nat} (h1 : b ≠ a) (h2 : b ≠ a + 4) : (s.wr64 a v).rd b = s.rd b := by
  simp only [State.wr64, rd_wr_ne _ _ h2, rd_wr_ne _ _ h1]

@[simp] theorem State.modMrd_rd (s : State) (h : Half) (f : Mrd → Mrd) (a : Nat) : (s.modMrd h f).rd a = s.rd a := rfl
@[simp] theorem State.modMrd_fget (s : State) (h : Half) (f : Mrd → Mrd) (a : Nat) (g : Fld) : (s.modMrd h f).fget a g = s.fget a g := rfl
@[simp] theorem State.modTrp_rd (s : State) (h : Half) (f : Trp → Trp) (a : Nat) : (s.modTrp h f).rd a = s.rd a := rfl
@[simp] theorem State.modTrp_fget (s : State) (h : Half) (f : Trp → Trp) (a : Nat) (g : Fld) : (s.modTrp h f).fget a g = s.fget a g := rfl
@[simp] theorem State.modRef_rd (s : State) (h : Half) (f : Ref → Ref) (a : Nat) : (s.modRef h f).rd a = s.rd a := rfl
@[simp] theorem State.modRef_fget (s : State) (h : Half) (f : Ref → Ref) (a : Nat) (g : Fld) : (s.modRef h f).fget a g = s.fget a g := rfl
@[simp] theorem State.modPhm_rd (s : State) (h : Half) (f : Phm → Phm) (a : Nat) : (s.modPhm h f).rd a = s.rd a := rfl
@[simp] theorem State.modPhm_fget (s : State) (h : Half) (f : Phm → Phm) (a : Nat) (g : Fld) : (s.modPhm h f).fget a g = s.fget a g := rfl
@[simp] theorem State.modUmp_rd (s : State) (h : Half) (f : Ump → Ump) (a : Nat) : (s.modUmp h f).rd a = s.rd a := rfl
@[simp] theorem State.modUmp_fget (s : State) (h : Half) (f : Ump → Ump) (a : Nat) (g : Fld) : (s.modUmp h f).fget a g = s.fget a g := rfl
@[simp] theorem State.modCore_rd (s : State) (h : Half) (f : Core → Core) (a : Nat) : (s.modCore h f).rd a = s.rd a := rfl
@[simp] theorem State.modCore_fget (s : State) (h : Half) (f : Core → Core) (a : Nat) (g : Fld) : (s.modCore h f).fget a g = s.fget a g := rfl
@[simp] theorem State.modCdb_rd (s : State) (h : Half) (f : Cdb → Cdb) (a : Nat) : (s.modCdb h f).rd a = s.rd a := rfl
@[simp] theorem State.modCdb_fget (s : State) (h : Half) (f : Cdb → Cdb) (a : Nat) (g : Fld) : (s.modCdb h f).fget a g = s.fget a g := rfl
@[simp] theorem State.modBinds_rd (s : State) (h : Half) (f : BindTab → BindTab) (a : Nat) : (s.modBinds h f).rd a = s.rd a := rfl
@[simp] theorem State.modBinds_fget (s : State) (h : Half) (f : BindTab → BindTab) (a : Nat) (g : Fld) : (s.modBinds h f).fget a g = s.fget a g := rfl
@[simp] theorem State.modQos_rd (s : State) (h : Half) (f : Qos → Qos) (a : Nat) : (s.modQos h f).rd a = s.rd a := rfl
@[simp] theorem State.modQos_fget (s : State) (h : Half) (f : Qos → Qos) (a : Nat) (g : Fld) : (s.modQos h f).fget a g = s.fget a g := rfl
@[simp] theorem State.modCat_rd (s : State) (h : Half) (f : Cat → Cat) (a : Nat) : (s.modCat h f).rd a = s.rd a := rfl
@[simp] theorem State.modCat_fget (s : State) (h : Half) (f : Cat → Cat) (a : Nat) (g : Fld) : (s.modCat h f).fget a g = s.fget a g := rfl
@[simp] theorem State.modStk_rd (s : State) (h : Half) (f : Stk → Stk) (a : Nat) : (s.modStk h f).rd a = s.rd a := rfl
@[simp] theorem State.modStk_fget (s : State) (h : Half) (f : Stk → Stk) (a : Nat) (g : Fld) : (s.modStk h f).fget a g = s.fget a g := rfl
@[simp] theorem State.modObs_rd (s : State) (h : Half) (f : Obs → Obs) (a : Nat) : (s.modObs h f).rd a = s.rd a := rfl
@[simp] theorem State.modObs_fget (s : State) (h : Half) (f : Obs → Obs) (a : Nat) (g : Fld) : (s.modObs h f).fget a g = s.fget a g := rfl
@[simp] theorem State.modNet_rd (s : State) (f : Net → Net) (a : Nat) : (s.modNet f).rd a = s.rd a := rfl
@[simp] theorem State.modNet_fget (s : State) (f : Net → Net) (a : Nat) (g : Fld) : (s.modNet f).fget a g = s.fget a g := rfl
@[simp] theorem State.modMgt_rd (s : State) (f : Mgt → Mgt) (a : Nat) : (s.modMgt f).rd a = s.rd a := rfl
@[simp] theorem State.modMgt_fget (s : State) (f : Mgt → Mgt) (a : Nat) (g : Fld) : (s.modMgt f).fget a g = s.fget a g := rfl
@[simp] theorem State.modFw_rd (s : State) (f : Fw → Fw) (a : Nat) : (s.modFw f).rd a = s.rd a := rfl
@[simp] theorem State.modFw_fget (s : State) (f : Fw → Fw) (a : Nat) (g : Fld) : (s.modFw f).fget a g = s.fget a g := rfl
@[simp] theorem State.modSub_rd (s : State) (d : Nat) (f : Sub → Sub) (a : Nat) : (s.modSub d f).rd a = s.rd a := rfl
@[simp] theorem State.modSub_fget (s : State) (d : Nat) (f : Sub → Sub) (a : Nat) (g : Fld) : (s.modSub d f).fget a g = s.fget a g := rfl
@[simp] theorem State.modChan_rd (s : State) (c : Nat) (f : Chan → Chan) (a : Nat) : (s.modChan c f).rd a = s.rd a := rfl
@[simp] theorem State.modChan_fget (s : State) (c : Nat) (f : Chan → Chan) (a : Nat) (g : Fld) : (s.modChan c f).fget a g = s.fget a g := rfl
@[simp] theorem State.modFn_rd (s : State) (t n : Nat) (f : Fn → Fn) (a : Nat) : (s.modFn t n f).rd a = s.rd a := rfl
@[simp] theorem State.modFn_fget (s : State) (t n : Nat) (f : Fn → Fn) (a : Nat) (g : Fld) : (s.modFn t n f).fget a g = s.fget a g := rfl
@[simp] theorem State.emit_rd (s : State) (x : Sent) (a : Nat) : (s.emit x).rd a = s.rd a := rfl
@[simp] theorem State.emit_fget (s : State) (x : Sent) (a : Nat) (g : Fld) : (s.emit x).fget a g = s.fget a g := rfl
@[simp] theorem State.draw_rd (s : State) (a : Nat) : s.draw.2.rd a = s.rd a := rfl
@[simp] theorem State.draw_fget (s : State) (a : Nat) (g : Fld) : s.draw.2.fget a g = s.fget a g := rfl

end Sys2Proof.Machine
end

