-- ==== Sys2Proof/Laws/Raise.lean ====
section
/-! SUPPORT. What reporting an event can change: `raise_refOnly` says it once for `raise`, whatever the event. -/

namespace Sys2Proof.Machine

open Sys2Proof

theorem refOnly_refl (s : State) : refOnly s s := ⟨fun _ _ => rfl, rfl, fun _ => rfl⟩

theorem refOnly_trans {s t u : State} (h1 : refOnly s t) (h2 : refOnly t u) : refOnly s u := by
  obtain ⟨a1, b1, c1⟩ := h1
  obtain ⟨a2, b2, c2⟩ := h2
  refine ⟨fun a ha => (a2 a ha).trans (a1 a ha), ?_, fun h => ?_⟩
  · rw [b2, b1]
  · rw [c2 h, c1 h]

theorem refOnly_wr (s : State) {a : Nat} (v : Word) (ha : refReg a = true) : refOnly s (s.wr a v) := by
  refine ⟨fun b hb => by rw [rd_wr_ne s v (by rintro rfl; simp [ha] at hb)], rfl, fun _ => rfl⟩

/-- A register outside the Referee's, with no Viral bit, reads as before; so does any bit of one but its Viral bit. -/
theorem refOnly_rd {s t : State} (h : refOnly s t) {a : Nat} (ha : refReg a = false) (hv : viralBits a = 0) : t.rd a = s.rd a := by
  simpa [hv] using h.1 a ha

theorem refOnly_bit {s t : State} (h : refOnly s t) {a : Nat} (ha : refReg a = false) {i : Nat} (hi : (viralBits a).getLsbD i = false) :
    (t.rd a).getLsbD i = (s.rd a).getLsbD i := by
  simpa [hi] using congrArg (fun w => w.getLsbD i) (h.1 a ha)

theorem refOnly_fset (s : State) {a : Nat} (f : Fld) (n : Nat) (ha : refReg a = true) : refOnly s (s.fset a f n) :=
  refOnly_wr s _ ha

theorem refOnly_wrWords (ws : List Word) : ∀ (s : State) (a : Nat),
    (∀ k, k < ws.length → refReg (a + 4 * k) = true) → refOnly s (s.wrWords a ws) := by
  induction ws with
  | nil => exact fun s a _ => refOnly_refl s
  | cons w r ih =>
    intro s a h
    refine refOnly_trans (refOnly_wr s w (by simpa using h 0 (by simp))) (ih _ _ fun k hk => ?_)
    have := h (k + 1) (by simpa using hk)
    rwa [show a + 4 + 4 * k = a + 4 * (k + 1) by omega]

theorem refOnly_modRef (s : State) (h : Half) (f : Ref → Ref) : refOnly s (s.modRef h f) :=
  ⟨fun _ _ => rfl, rfl, fun _ => rfl⟩

theorem refOnly_alert (s : State) (x : Alert) : refOnly s { s with alert := x } := ⟨fun _ _ => rfl, rfl, fun _ => rfl⟩

/-- A change of a pair's handler list, arrivals, phase or held outputs. -/
theorem refOnly_modTrp (s : State) (h : Half) (f : Trp → Trp)
    (hf : ∀ t, f t = { t with phase := (f t).phase, held := (f t).held, hlist := (f t).hlist, arrivals := (f t).arrivals,
                              dispatched := (f t).dispatched }) : refOnly s (s.modTrp h f) := by
  refine ⟨fun _ _ => rfl, rfl, fun g => ?_⟩
  cases h <;> cases g <;> first | rfl | exact hf _

/-- An address of the Referee's block. -/
theorem refReg_block {a : Nat} (h1 : 0x0E000000 ≤ a) (h2 : a < 0x0F000000) : refReg a = true := by
  simp [refReg, h1, h2]

theorem half_idx_lt (h : Half) : h.idx < 2 := by cases h <;> decide

theorem refReg_evq (h : Half) (t k : Nat) (hk : k < 8) : refReg (REF_EVQ h (t % 1024) k) = true := by
  have := half_idx_lt h
  exact refReg_block (by simp only [REF_EVQ]; omega) (by simp only [REF_EVQ]; omega)

theorem refReg_sb (h : Half) (n k : Nat) (hn : n < 64) (hk : k < 8) : refReg (REF_SB h n k) = true := by
  have := half_idx_lt h
  exact refReg_block (by simp only [REF_SB]; omega) (by simp only [REF_SB]; omega)

theorem recWords_length (e : Evt) : (recWords e).length = 8 := rfl

theorem refOnly_evqWords (s : State) (h : Half) (t : Nat) (e : Evt) :
    refOnly s (s.wrWords (REF_EVQ h (t % 1024) 0) (recWords e)) :=
  refOnly_wrWords _ _ _ fun k hk => by
    have := refReg_evq h t k (by simpa [recWords_length] using hk)
    simpa [REF_EVQ, Nat.add_assoc] using this

theorem refOnly_sbWords (s : State) (h : Half) (n : Nat) (hn : n < 64) (e : Evt) :
    refOnly s (s.wrWords (REF_SB h n 0) (recWords e)) :=
  refOnly_wrWords _ _ _ fun k hk => by
    have := refReg_sb h n k hn (by simpa [recWords_length] using hk)
    simpa [REF_SB, Nat.add_assoc] using this

theorem evqLevel_refOnly (s : State) (h : Half) : refOnly s (evqLevel s h) := by
  have h0 : refOnly s (s.fsetB (REF_STAT h) REF_STAT_EVQ_HI (evqAtHigh s h)) :=
    refOnly_fset _ _ _ (by cases h <;> decide)
  unfold evqLevel
  simp only
  split
  · exact refOnly_trans h0 (refOnly_alert _ _)
  · split
    · exact refOnly_trans h0 (refOnly_alert _ _)
    · exact h0

theorem evqPush_refOnly (s : State) (h : Half) (e : Evt) : refOnly s (evqPush s h (recWords e)) := by
  refine refOnly_trans (refOnly_evqWords s h _ e) (refOnly_trans (refOnly_fset _ _ _ ?_) (evqLevel_refOnly _ _))
  cases h <;> decide

theorem evqRecord_refOnly (s : State) (h : Half) (e : Evt) : refOnly s (evqRecord s h e).1 := by
  have h0 : refOnly s (s.fbump (REF_ERRCNT1 h) REF_ERRCNT1_EVQ_DROP_CNT 1) := refOnly_fset _ _ _ (by cases h <;> decide)
  unfold evqRecord
  simp only
  split
  · exact evqPush_refOnly s h e
  · split
    · exact refOnly_trans h0 (refOnly_wr _ _ (refReg_evq h _ 4 (by decide)))
    · exact refOnly_trans h0 (evqPush_refOnly _ _ _)

theorem fget_lt (s : State) (a : Nat) (f : Fld) : s.fget a f < 2 ^ f.width := Nat.mod_lt _ (Nat.two_pow_pos _)

theorem sbRecord_refOnly (s : State) (h : Half) (e : Evt) : refOnly s (sbRecord s h e).1 := by
  have hp : refReg (REF_SB_PTR h) = true := by cases h <;> decide
  unfold sbRecord
  simp only
  split
  · exact refOnly_refl s
  · have h1 := refOnly_sbWords s h (s.fget (REF_SB_PTR h) REF_SB_PTR_NEXT) (fget_lt s _ REF_SB_PTR_NEXT) e
    refine refOnly_trans ?_ (refOnly_fset _ _ _ hp)
    split
    · exact refOnly_trans h1 (refOnly_fset _ _ _ hp)
    · exact h1

theorem alertRequest_refOnly (s : State) : refOnly s (alertRequest s) := by
  have hp : refReg MRD_ALERT_CTL = true := by decide
  unfold alertRequest
  simp only
  split
  · split
    · exact refOnly_trans (refOnly_alert _ _) (refOnly_fset _ _ _ hp)
    · exact refOnly_alert _ _
  · exact refOnly_trans (refOnly_alert _ _) (refOnly_fset _ _ _ hp)

theorem refOnly_ite {s a b : State} (c : Prop) [Decidable c] (ha : refOnly s a) (hb : refOnly s b) :
    refOnly s (if c then a else b) := by split <;> assumption

theorem sbCopy_refOnly (s : State) (h : Half) (e : Evt) : refOnly s (sbCopy s h e) := by
  unfold sbCopy
  split
  · exact refOnly_ite _ (refOnly_sbWords _ _ _ (Nat.mod_lt _ (by decide)) _) (refOnly_refl _)
  · exact refOnly_refl _

theorem evqCopy_refOnly (s : State) (h : Half) (e : Evt) : refOnly s (evqCopy s h e) := by
  unfold evqCopy
  split
  · exact refOnly_ite _ (refOnly_evqWords _ _ _ _) (refOnly_refl _)
  · exact refOnly_refl _

theorem updateCopies_refOnly (s : State) (h : Half) (e : Evt) : refOnly s (updateCopies s h e) :=
  refOnly_trans (refOnly_trans (sbCopy_refOnly _ _ _) (evqCopy_refOnly _ _ _)) (refOnly_modTrp _ _ _ fun _ => rfl)

theorem putRecord_refOnly (s : State) (h : Half) (e : Evt) : refOnly s (putRecord s h e) := by
  unfold putRecord
  simp only
  cases e.sbSlot <;> cases e.evqIdx
  · exact refOnly_refl s
  · exact refOnly_evqWords _ _ _ _
  · exact refOnly_sbWords _ _ _ (Nat.mod_lt _ (by decide)) _
  · exact refOnly_trans (refOnly_sbWords _ _ _ (Nat.mod_lt _ (by decide)) _) (refOnly_evqWords _ _ _ _)

theorem tradePlaces_refOnly (s : State) (h : Half) (e x : Evt) : refOnly s (tradePlaces s h e x) :=
  refOnly_trans (refOnly_trans (putRecord_refOnly _ _ _) (putRecord_refOnly _ _ _)) (refOnly_modTrp _ _ _ fun _ => rfl)

theorem inOrder_refOnly (s : State) (h : Half) (e : Evt) (l : List Evt) : refOnly s (inOrder s h e l).1 := by
  induction l generalizing s e with
  | nil => exact refOnly_refl s
  | cons x l ih =>
    simp only [inOrder]
    split
    · exact refOnly_trans (tradePlaces_refOnly s h e x) (ih _ _)
    · exact refOnly_refl s

theorem newRecord_refOnly (s : State) (h : Half) (sp : EvSpec) (sev : Nat) : refOnly s (newRecord s h sp sev) := by
  unfold newRecord
  simp only
  generalize hA : s.fset (REF_SEQ h) REF_SEQ_SEQ _ = A
  have hA' : refOnly s A := hA ▸ refOnly_fset _ _ _ (by cases h <;> decide)
  generalize hB : (if hlistFull s h = true then A.fbump (TRP_DEFER h) TRP_DEFER_LOST_CNT 1 else A) = B
  have hB' : refOnly s B := by
    rw [← hB]
    exact refOnly_ite _ (refOnly_trans hA' (refOnly_fset _ _ _ (by cases h <;> decide))) hA'
  generalize hC : (if B.flag (REF_CLS h sp.cls) REF_CLS_SB = true then sbRecord B h _ else (B, none)) = C
  have hC' : refOnly s C.1 := by
    rw [← hC]
    split
    · exact refOnly_trans hB' (sbRecord_refOnly _ _ _)
    · exact hB'
  generalize hD : (if (B.flag (REF_CLS h sp.cls) REF_CLS_EVQ && B.flag (REF_CTL h) REF_CTL_EVQ_EN) = true then
    evqRecord C.1 h _ else (C.1, none)) = D
  have hD' : refOnly s D.1 := by
    rw [← hD]
    split
    · exact refOnly_trans hC' (evqRecord_refOnly _ _ _)
    · exact hC'
  generalize hE : (if alerts D.1 h sp.cls sev = true then alertRequest D.1 else D.1) = E
  have hE' : refOnly s E := by
    rw [← hE]
    exact refOnly_ite _ (refOnly_trans hD' (alertRequest_refOnly _)) hD'
  exact refOnly_trans (refOnly_trans (refOnly_ite _ hE' (refOnly_trans hE' (refOnly_modTrp _ _ _ fun _ => rfl)))
    (inOrder_refOnly _ h _ _)) (refOnly_modRef _ _ _)

theorem record_refOnly (s : State) (h : Half) (sp : EvSpec) (sev : Nat) : refOnly s (record s h sp sev) := by
  unfold record
  split
  · exact refOnly_trans (refOnly_modRef _ _ _) (updateCopies_refOnly _ _ _)
  · exact newRecord_refOnly _ _ _ _

theorem setViral_refOnly (s : State) (t : Nat) (ht : t < 64) : refOnly s (setViral s t) := by
  unfold setViral
  split
  · exact refOnly_refl s
  · simp only
    refine refOnly_trans (t := _) ?_ (record_refOnly _ _ _ _)
    refine refOnly_trans (t := { s with viral := t :: s.viral, sent := .viral t :: s.sent })
      ⟨fun _ _ => rfl, rfl, fun _ => rfl⟩ ⟨fun a _ => ?_, rfl, fun _ => rfl⟩
    by_cases e : a = SF_TEN_STAT t
    · subst e
      have hm : viralBits (SF_TEN_STAT t) = 4 := by
        unfold viralBits
        exact if_pos (by simp only [SF_TEN_STAT]; omega)
      rw [hm]
      simp only [State.fset, rd_wr_same]
      have hs : State.rd { s with viral := t :: s.viral, sent := .viral t :: s.sent } (SF_TEN_STAT t) = s.rd (SF_TEN_STAT t) := rfl
      rw [hs]
      generalize s.rd (SF_TEN_STAT t) = v
      have h1 : fldMask SF_TEN_STAT_VIRAL = 4 := by decide
      have h2 : BitVec.ofNat 32 ((1 % 2 ^ SF_TEN_STAT_VIRAL.width) <<< SF_TEN_STAT_VIRAL.lo) = 4 := by decide
      simp only [fldPut, h1, h2]
      ext i
      simp only [BitVec.getElem_or, BitVec.getElem_and, BitVec.getElem_not]
      cases v[i] <;> cases (4 : BitVec 32)[i] <;> rfl
    · simp only [State.fset]
      rw [rd_wr_ne _ _ e]

theorem setViralAll_refOnly (s : State) : refOnly s (setViralAll s) := by
  have : ∀ (l : List Nat) (s : State), (∀ t ∈ l, t < 64) → refOnly s (l.foldl setViral s) := by
    intro l
    induction l with
    | nil => exact fun s _ => refOnly_refl s
    | cons a r ih => exact fun s h => refOnly_trans (setViral_refOnly s a (h a (by simp))) (ih _ fun t ht => h t (by simp [ht]))
  exact this _ _ fun t ht => by simpa using ht

theorem fatalDevice_refOnly (s : State) (h : Half) : refOnly s (fatalDevice s h) := by
  have hp : refReg (REF_STAT h) = true := by cases h <;> decide
  unfold fatalDevice
  simp only
  refine refOnly_trans ?_ (setViralAll_refOnly _)
  exact refOnly_ite _ (refOnly_trans (refOnly_fset _ _ _ hp) (refOnly_fset _ _ _ hp)) (refOnly_fset _ _ _ hp)

theorem swapAbortWith_refOnly (s : State) (h : Half) (r : Nat) : refOnly s (swapAbortWith s h r) := by
  have hp : refReg (TRP_SWAP_STAT h) = true := by cases h <;> decide
  exact refOnly_trans (refOnly_fset _ _ _ hp) (refOnly_fset _ _ _ hp)

theorem enterHold_refOnly (s : State) (h : Half) : refOnly s (enterHold s h) := by
  unfold enterHold
  simp only
  generalize hA : s.fset (TRP_STAT h) TRP_STAT_HOLD 1 = A
  have hA' : refOnly s A := hA ▸ refOnly_fset _ _ _ (by cases h <;> decide)
  generalize hB : (if A.fget (TRP_SWAP_STAT h) TRP_SWAP_STAT_STATE = 1 ∧ (A.trp.get h).swapGo = false
    then swapAbortWith A h 6 else A) = B
  have hB' : refOnly A B := by rw [← hB]; exact refOnly_ite _ (swapAbortWith_refOnly _ _ _) (refOnly_refl _)
  exact refOnly_trans (refOnly_trans hA' hB') (refOnly_trans (refOnly_modTrp _ _ _ fun _ => rfl) (refOnly_fset _ _ _ (by decide)))

/-- A unit's register lies in the Referee's block. -/
theorem refReg_lcnt (h : Half) {k i : Nat} (hk : k ≤ 5) (hi : i < 2 ^ 16) : refReg (REF_LCNT h k i) = true := by
  have := half_idx_lt h
  exact refReg_block (by simp only [REF_LCNT]; omega) (by simp only [REF_LCNT]; omega)

theorem retireUnit_refOnly (s : State) (h : Half) {k i : Nat} (hk : k ≤ 5) (hi : i < 2 ^ 16) : refOnly s (retireUnit s h k i) := by
  have h0 : refOnly s (s.fset (REF_LCNT h k i) REF_LCNT_RETIRED 1) := refOnly_fset _ _ _ (refReg_lcnt h hk hi)
  unfold retireUnit
  simp only
  split
  · exact refOnly_trans h0 (refOnly_trans (enterHold_refOnly _ _) (record_refOnly _ _ _ _))
  · refine refOnly_trans h0 (refOnly_trans ?_ (record_refOnly _ _ _ _))
    refine refOnly_trans (refOnly_modRef _ _ _) (refOnly_trans (refOnly_fset _ _ _ ?_) (refOnly_fset _ _ _ ?_)) <;>
      cases h <;> decide
  · exact refOnly_trans h0 (refOnly_trans (refOnly_modRef _ _ _) (record_refOnly _ _ _ _))

theorem leakyAdd_refOnly (s : State) (h : Half) (sp : EvSpec) (sev : Nat) (hu : ∀ k i, sp.unit = some (k, i) → i < 2 ^ 16) :
    refOnly s (leakyAdd s h sp sev) := by
  unfold leakyAdd
  split
  · next k i e =>
    split
    · next hc => exact refOnly_fset _ _ _ (refReg_lcnt h hc.1 (hu k i e))
    · exact refOnly_refl s
  · exact refOnly_refl s

theorem raiseLive_refOnly (s : State) (h : Half) (sp : EvSpec) (sev : Nat) (hu : ∀ k i, sp.unit = some (k, i) → i < 2 ^ 16) :
    refOnly s (raiseLive s h sp sev) := by
  unfold raiseLive
  simp only
  generalize hA : (if sev = 5 then fatalDevice s h else s) = A
  have hA' : refOnly s A := by rw [← hA]; exact refOnly_ite _ (fatalDevice_refOnly s h) (refOnly_refl s)
  have hB := refOnly_trans (refOnly_trans hA' (leakyAdd_refOnly A h sp sev hu)) (record_refOnly _ h sp sev)
  split
  · next k i e =>
    refine refOnly_trans hB ?_
    unfold atThresh at e
    split at e
    · next k' i' e' =>
      split at e
      · next hc => cases e; exact retireUnit_refOnly _ _ hc.1 (hu _ _ e')
      · cases e
    · cases e
  · exact hB

/-- Reporting an event changes nothing but what R409 to R427 name. -/
theorem raiseSev_refOnly (s : State) (h : Half) (sp : EvSpec) (sev : Nat) (hu : ∀ k i, sp.unit = some (k, i) → i < 2 ^ 16) :
    refOnly s (raiseSev s h sp sev) :=
  refOnly_ite _ (raiseLive_refOnly s h sp sev hu) (refOnly_refl s)

theorem raise_refOnly (s : State) (h : Half) (sp : EvSpec) (hu : ∀ k i, sp.unit = some (k, i) → i < 2 ^ 16) :
    refOnly s (raise s h sp) := raiseSev_refOnly s h sp _ hu

/-- An event that belongs to no unit. -/
theorem raise_evt_refOnly (s : State) (h : Half) (cls cause inst detail : Nat) :
    refOnly s (raise s h (evt cls cause inst detail)) := raise_refOnly s h _ fun _ _ e => by simp [evt] at e

theorem writeDiscarded_refOnly (s : State) (h : Half) (a : Nat) : refOnly s (writeDiscarded s h a) :=
  refOnly_trans (refOnly_fset _ _ _ (by cases h <;> decide)) (raise_evt_refOnly _ _ _ _ _ _)

theorem csDecodeError_refOnly (s : State) (h : Half) (a : Nat) : refOnly s (csDecodeError s h a) :=
  refOnly_trans (refOnly_fset _ _ _ (by cases h <;> decide)) (raise_evt_refOnly _ _ _ _ _ _)

theorem csUnreachable_refOnly (s : State) (h : Half) (a : Nat) : refOnly s (csUnreachable s h a) :=
  refOnly_trans (refOnly_fset _ _ _ (by cases h <;> decide)) (raise_evt_refOnly _ _ _ _ _ _)

end Sys2Proof.Machine
end

