-- ==== Sys2Proof/Laws/Count.lean ====
section
/-! SUPPORT. What counting in the Photometer can change, said once. -/

namespace Sys2Proof.Machine

open Sys2Proof

theorem refOnly_countOnly {s t : State} (h : refOnly s t) : countOnly s t :=
  ⟨fun a ha _ => h.1 a ha, fun _ _ => rfl, by rw [h.2.1], fun g => by simpa using h.2.2 g⟩

theorem countOnly_refl (s : State) : countOnly s s := refOnly_countOnly (refOnly_refl s)

theorem countOnly_trans {s t u : State} (h1 : countOnly s t) (h2 : countOnly t u) : countOnly s u := by
  obtain ⟨a1, -, b1, c1⟩ := h1
  obtain ⟨a2, -, b2, c2⟩ := h2
  refine ⟨fun a ha hb => (a2 a ha hb).trans (a1 a ha hb), fun _ _ => rfl, ?_, fun g => ?_⟩
  · rw [b2, b1]
  · have e1 := c1 g
    have e2 := c2 g
    simp only at e1 e2 ⊢
    rw [e2, e1]

theorem countOnly_wr (s : State) {a : Nat} (v : Word) (h1 : 0x0D000000 ≤ a) (h2 : a < 0x0E000000) : countOnly s (s.wr a v) :=
  ⟨fun b _ hb => by rw [rd_wr_ne s v (by omega)], fun _ _ => rfl, rfl, fun _ => rfl⟩

theorem countOnly_wr64 (s : State) {a : Nat} (v : Nat) (h1 : 0x0D000000 ≤ a) (h2 : a + 4 < 0x0E000000) : countOnly s (s.wr64 a v) :=
  countOnly_trans (countOnly_wr s _ h1 (by omega)) (countOnly_wr _ _ (by omega) h2)

theorem phmAdd_countOnly (s : State) (h : Half) (c k : Nat) : countOnly s (phmAdd s h c k) := by
  have hn : c % 256 < 256 := Nat.mod_lt _ (by decide)
  have hi := half_idx_lt h
  have b1 : 0x0D000000 ≤ PHM_CNT_LO h (c % 256) := by simp only [PHM_CNT_LO]; omega
  have b2 : PHM_CNT_LO h (c % 256) + 4 < 0x0E000000 := by simp only [PHM_CNT_LO]; omega
  have b3 : 0x0D000000 ≤ PHM_WRAP h (c % 256 / 32) := by simp only [PHM_WRAP]; omega
  have b4 : PHM_WRAP h (c % 256 / 32) < 0x0E000000 := by simp only [PHM_WRAP]; omega
  unfold phmAdd
  simp only
  split
  · exact countOnly_wr64 _ _ b1 b2
  · split
    · exact countOnly_trans (countOnly_trans (countOnly_wr64 _ _ b1 b2) (countOnly_wr _ _ b3 b4))
        (refOnly_countOnly (raise_evt_refOnly _ _ _ _ _ _))
    · exact countOnly_trans (countOnly_wr64 _ _ b1 b2) (countOnly_wr _ _ b3 b4)

theorem countOnly_foldl {α : Type} (f : State → α → State) (hf : ∀ s x, countOnly s (f s x)) (l : List α) :
    ∀ s, countOnly s (l.foldl f s) := by
  induction l with
  | nil => exact countOnly_refl
  | cons a r ih => exact fun s => countOnly_trans (hf s a) (ih _)

theorem tally_countOnly (s : State) (h : Half) (u e i k : Nat) : countOnly s (tally s h u e i k) := by
  refine countOnly_foldl _ (fun s x => ?_) _ s
  split
  · split
    · exact countOnly_refl _
    · exact phmAdd_countOnly _ _ _ _
  · exact countOnly_refl _

theorem tallyRise_countOnly (s : State) (h : Half) (u e i : Nat) : countOnly s (tallyRise s h u e i) := by
  refine countOnly_foldl _ (fun s x => ?_) _ s
  split
  · exact phmAdd_countOnly _ _ _ _
  · exact countOnly_refl _

end Sys2Proof.Machine
end

