-- ==== Sys2Proof/Laws/Tirop.lean ====
section
/-! SUPPORT. Running a Tirop instruction, and gating a write by a CS master: what the shared operations answer. -/

namespace Sys2Proof.Machine

open Sys2Proof

@[simp] theorem Pair.get_set {α : Type} (p : Pair α) (h : Half) (x : α) : (p.set h x).get h = x := by cases h <;> rfl
@[simp] theorem Pair.get_set_other {α : Type} (p : Pair α) (h : Half) (x : α) : (p.set h x).get h.other = p.get h.other := by
  cases h <;> rfl
@[simp] theorem Pair.set_set {α : Type} (p : Pair α) (h : Half) (x y : α) : (p.set h x).set h y = p.set h y := by cases h <;> rfl

/-- An instruction that is about to run has its effect, then BC and PC advance. -/
theorem tirRun_eq (s : State) (h : Half) (i : Instr) (cost : Nat) (f : State → State) (hi : atInstr s h i cost) :
    tirRun s h i cost none f = advance (f s) h cost (tiropLen i) := by
  obtain ⟨h1, h2, h3, h4⟩ := hi
  have a : ¬ 960 ≤ (s.trp.get h).bc := by omega
  have b : ¬ 960 < (s.trp.get h).bc + cost := by omega
  simp [tirRun, h1, h2, a, b]

/-- An instruction whose effect is on the pair alone. -/
theorem tirRun_pair (s : State) (h : Half) (i : Instr) (cost : Nat) (f : Trp → Trp) (hi : atInstr s h i cost) :
    Host.Outcome.next (tirRun s h i cost none fun s => s.modTrp h f)
      = pairNext s h ((f (s.trp.get h)).ran1 cost (tiropLen i)) := by
  simp [tirRun_eq _ _ _ _ _ hi, advance, State.modTrp, pairNext, Trp.ran1]

theorem tirReg_eq (s : State) (h : Half) (i : Instr) (cost : Nat) (f : Trp → Trp) (hi : atInstr s h i cost) :
    tirReg s h i cost f = pairNext s h ((f (s.trp.get h)).ran1 cost (tiropLen i)) := tirRun_pair s h i cost f hi

/-- A fault found in the first cycle. -/
theorem tirRun_fault (s : State) (h : Half) (i : Instr) (cost code : Nat) (f : State → State) (hi : atInstr s h i 0) :
    tirRun s h i cost (some code) f = tFault s h code := by
  obtain ⟨h1, h2, h3, _⟩ := hi
  have a : ¬ 960 ≤ (s.trp.get h).bc := by omega
  simp [tirRun, h1, h2, a]

/-- An output is held when the limits of R56 allow it. -/
theorem holdOuts_eq (s : State) (h : Half) (i : Instr) (cost : Nat) (os : List TOut) (hi : atInstr s h i cost)
    (hl : limitsOk ((s.trp.get h).held ++ os) = true) :
    Host.Outcome.next (holdOuts s h i cost none os)
      = pairNext s h (({ s.trp.get h with held := (s.trp.get h).held ++ os } : Trp).ran1 cost (tiropLen i)) := by
  have e : holdOuts s h i cost none os = tirRun s h i cost none fun s => s.modTrp h fun t => { t with held := t.held ++ os } := by
    simp [holdOuts, hl]
  rw [e, tirRun_pair _ _ _ _ _ hi]

@[simp] theorem encI_length (op : BitVec 6) (rd rs : Reg) (m : BitVec 3) (x : Imm) : (encI op rd rs m x).length = immWords x := by
  cases x <;> rfl

/-- A master that may act on a register has its write's effect. -/
theorem csGate_mayAct (s : State) (m : Master) (a : Nat) (f : State → State) (hm : mayAct s m a) : csGate s m a f = f s := by
  obtain ⟨h1, h2⟩ := hm
  cases m <;> simp_all [csGate, dbgGate]

/-- A write that cannot reach its register changes nothing but what the Referee records. -/
theorem csGate_unreachable (s : State) (m : Master) (a : Nat) (f : State → State) (hm : m ≠ .dap)
    (hr : reaches s (s.masterHalf m) a = false) : csGate s m a f = csUnreachable s (s.masterHalf m) a := by
  cases m <;> simp_all [csGate, dbgGate]

end Sys2Proof.Machine
end

