-- ==== Sys2Proof/Machine/Balls.lean ====
section
/-! DEFINITION. Where every ball lies (spec 19, R520-R525): which signal or supply the ball at a row and a column carries. -/

namespace Sys2Proof.Machine

open Sys2Proof

/-- A signal that a ball carries, with its lane, port, channel or bit; `mgt` a ball of the management field by its place in R524's
table; a supply, or ground. -/
inductive Ball where
  | rxP (lane : Nat)
  | rxN (lane : Nat)
  | txP (lane : Nat)
  | txN (lane : Nat)
  | pclkP (p : Nat)
  | pclkN (p : Nat)
  | shutter (c : Nat) (signal : String)
  | mgt (signal : String)
  | supply (rail : String)
  | vss
  deriving DecidableEq, Repr

/-- The letters of rows 1 to 19 (R520). -/
def rowLetters : List String :=
  ["A", "B", "C", "D", "E", "F", "G", "H", "J", "K", "L", "M", "N", "P", "T", "U", "V", "W", "Y"]

/-- The name of a row, 1 to 88 (R520). -/
def rowName (r : Nat) : String :=
  let n := r - 1
  let lead := ["", "A", "B", "C", "D"].getD (n / 19) ""
  lead ++ rowLetters.getD (n % 19) ""

/-- The name of a ball: its row, then its column (R520). -/
def ballName (r c : Nat) : String := rowName r ++ toString c

/-- The row of offset i of port p's field, and the column of offset j (R522): the ports of the East half lie in columns 45 to 88,
those of the West half mirrored in columns 44 to 1; the first eight of a half in the north band, the others in the south. -/
def portRow (p i : Nat) : Nat :=
  let q := p % 16
  let fr := q % 8 / 4
  if q < 8 then 1 + 9 * fr + i else 88 - 9 * fr - i
def portCol (p j : Nat) : Nat :=
  let fc := p % 16 % 8 % 4
  if p < 16 then 45 + 11 * fc + j else 44 - 11 * fc - j

/-- What the ball at offsets i, j of port p's field carries (R522). -/
def portBall (p i j : Nat) : Ball :=
  let lane := 16 * p + 4 * (i % 4) + j / 3
  if i = 8 then (if j = 0 then .pclkP p else if j = 1 then .pclkN p else .vss)
  else if j % 3 = 2 then .vss
  else if i < 4 then (if j % 3 = 0 then .rxP lane else .rxN lane)
  else if j % 3 = 0 then .txP lane else .txN lane

/-- The row of offset i of channel c's field, and the column of offset j (R523). -/
def shtRow (c i : Nat) : Nat := 41 + 4 * (c % 16 / 4) + i
def shtCol (c j : Nat) : Nat := if c < 16 then 45 + 5 * (c % 4) + j else 44 - 5 * (c % 4) - j

/-- The signals of a channel's field by row of the table (R523); none is VSS. -/
def shtSignals : List (List String) :=
  [["SHT_GA", "SHT_VA", "", "SHT_VB", "SHT_GB"],
   ["SHT_VM", "SHT_GH", "", "SHT_VO", "SLOT_PERST_L"],
   ["SHT_CSP", "SHT_CSN", "", "SHT_GXA", "SHT_GXB"],
   ["SHT_XSP", "SHT_XSN", "SLOT_PRSNT_L", "SHT_VX", ""]]

/-- What the ball at offsets i, j of channel c's field carries (R523). -/
def shtBall (c i j : Nat) : Ball :=
  let x := (shtSignals.getD i []).getD j ""
  if x = "" then .vss else .shutter c x

/-- The management field, rows 57 to 64 and columns 41 to 48 (R524); none is VSS. -/
def mgtSignals : List (List String) :=
  [["REFCLK_A_P", "REFCLK_A_N", "", "MSYNC_IN", "MSYNC_OUT", "", "REFCLK_B_P", "REFCLK_B_N"],
   ["PWR_EN[0]", "PWR_EN[1]", "PWR_EN[2]", "PWR_EN[3]", "PWR_EN[4]", "PWR_EN[5]", "PWR_EN[6]", "PWR_EN[7]"],
   ["PWR_GOOD[0]", "PWR_GOOD[1]", "PWR_GOOD[2]", "PWR_GOOD[3]", "PWR_GOOD[4]", "PWR_GOOD[5]", "PWR_GOOD[6]", "PWR_GOOD[7]"],
   ["ALERT_L", "EVQ_HI_L", "FREEZE_L", "POR_L", "WITNESS_E", "WITNESS_W", "UART_TX", "UART_RX"],
   ["STRAP_PRIM_SEL", "STRAP_BOOT", "STRAP_PWR_AUTO", "STRAP_FINDER_ONLY", "STRAP_I3C_ADDR[0]", "STRAP_I3C_ADDR[1]",
    "STRAP_I3C_ADDR[2]", ""],
   ["I3C0_SCL", "I3C0_SDA", "I3C1_SCL", "I3C1_SDA", "TCK", "TMS", "TDI", "TDO"],
   ["TRST_L", "QSPIA_SCK", "QSPIA_CS_L", "QSPIA_IO[0]", "QSPIA_IO[1]", "QSPIA_IO[2]", "QSPIA_IO[3]", ""],
   ["VDOME_CAP", "QSPIB_SCK", "QSPIB_CS_L", "QSPIB_IO[0]", "QSPIB_IO[1]", "QSPIB_IO[2]", "QSPIB_IO[3]", ""]]

/-- Is a number between two others, both included? -/
def within (lo hi n : Nat) : Bool := decide (lo ≤ n) && decide (n ≤ hi)

/-- The supply of a power ball at row r and column c where r + c is odd (R525); at its edges zone Z2 lies over Z3's rows. -/
def zoneSupply (r c : Nat) : String :=
  if within 19 21 r || within 68 70 r then "VDD_SDS"
  else if r = 22 ∨ r = 67 then "VDD_SDSH"
  else if c = 1 ∨ c = 88 then "VPP_HBM"
  else if within 2 5 c || within 84 87 c then "VDD_HBM"
  else if within 6 12 c || within 77 83 c then "VDDQ_HBM"
  else if within 23 28 r then "VDD_SRAM"
  else if within 57 64 r && within 37 40 c then "VSTBY_12"
  else if within 57 64 r && within 49 52 c then "VDD_IO"
  else "VDD_CORE"

/-- The field of a port that a column of a port band belongs to: its number in the row of four, and its offset j (R522). -/
def portOfCol (c : Nat) : Bool × Nat × Nat := if 45 ≤ c then (true, (c - 45) / 11, (c - 45) % 11) else (false, (44 - c) / 11, (44 - c) % 11)

/-- What the ball at row r, column c of the grid carries (R521-R525). -/
def ballAt (r c : Nat) : Ball :=
  if r ≤ 18 ∨ 71 ≤ r then
    let n := if r ≤ 18 then r - 1 else 88 - r
    let x := portOfCol c
    portBall ((if x.1 then 0 else 16) + (if r ≤ 18 then 0 else 8) + 4 * (n / 9) + x.2.1) (n % 9) x.2.2
  else if within 41 56 r && within 25 64 c then
    let e := decide (45 ≤ c)
    let k := if e then c - 45 else 44 - c
    shtBall ((if e then 0 else 16) + 4 * ((r - 41) / 4) + k / 5) ((r - 41) % 4) (k % 5)
  else if within 57 64 r && within 41 48 c then
    let x := (mgtSignals.getD (r - 57) []).getD (c - 41) ""
    if x = "" then .vss else .mgt x
  else if (r + c) % 2 = 0 then .vss else .supply (zoneSupply r c)

end Sys2Proof.Machine
end

