-- ==== Sys2Proof/Tests/Slice0.lean ====
section
/-! SUPPORT. Tests: terms that WellFormed refuses, words and values that the spec's worked examples give, and for each statement with
hypotheses a state and operands that meet them. -/

namespace Sys2Proof.Tests

open Sys2Proof Sys2Proof.Machine

set_option Elab.async false

/-! ### Commands each of which breaks one bound of WellFormed -/

theorem test_wf_refuses0 :
    ([.lowWordRead (.obs .east 4) 0, .lowWordRead .dap (2 ^ 64), .highWordWrite (.obs .east 4) 0 0,
        .highWordWrite .dap (2 ^ 64) 0, .snapshotWrite (.obs .east 4) 0 0, .snapshotWrite .dap (2 ^ 64) 0,
        .rcCounterRead (.obs .east 4) 0 0, .rcCounterRead .dap (2 ^ 64) 0, .registerWrite (.obs .east 4) 0 0,
        .registerWrite .dap (2 ^ 64) 0, .csStopTimeout (.obs .east 4) 0 false, .csStopTimeout .dap (2 ^ 64) false] : List Instr).all (fun i => !i.wf) = true := by decide +kernel

theorem test_wf_refuses1 :
    ([.trpRunSet (.obs .east 4) .east, .trpRunClear (.obs .east 4) .east, .trpSelWrite (.obs .east 4) .east false,
        .bankWrite (.obs .east 4) .east false 0 0, .swapRequest (.obs .east 4) .east false false false,
        .swapAbort (.obs .east 4) .east false false, .portEnable (.obs .east 4) 0 0, .portDisable (.obs .east 4) 0 0,
        .l0pWidthWrite (.obs .east 4) 0 0 0, .complianceWrite (.obs .east 4) 0 0 false, .reeqWrite (.obs .east 4) 0 0,
        .retrainWrite (.obs .east 4) 0 0] : List Instr).all (fun i => !i.wf) = true := by decide +kernel

theorem test_wf_refuses2 :
    ([.subportDisableWrite (.obs .east 4) 0 0 false, .laneClear (.obs .east 4) 0 0, .eyeStart (.obs .east 4) 0 0,
        .eyeAbort (.obs .east 4) 0 0 0, .requestEgress 0 0 (9) .clean, .cellArrival .east (32),
        .heldCellAdmit .east (32) 0, .heldCellAdmit .east 0 (9), .spillWrite .east (32),
        .coreLockSet (.obs .east 4) .east, .dfEnable (.obs .east 4) .east, .wireFailed .east 0 (66) false] : List Instr).all (fun i => !i.wf) = true := by decide +kernel

theorem test_wf_refuses3 :
    ([.wireReturn (.obs .east 4) .east 0 0, .rejoinRequest (.obs .east 4) .east, .rowCancel (.obs .east 4) 0,
        .rowCancel .dap (2 ^ 32), .slotPower (68) 0 false 0, .tenantResetWrite (.obs .east 4) 0 0,
        .biconflictReceived .east (64) 0, .taintLift (.obs .east 4) .east 0, .imageEnable (.obs .east 4) .east,
        .stackerEnable (.obs .east 4) .east, .stagedRuleWrite (.obs .east 4) 0 0 0,
        .umpireFaultLogClear (.obs .east 4) .east] : List Instr).all (fun i => !i.wf) = true := by decide +kernel

theorem test_wf_refuses4 :
    ([.qosLockSet (.obs .east 4) .east, .sfPoolQuotaWrite (.obs .east 4) 0 0, .energySnapshot (.obs .east 4) 0,
        .bankRetireDone .east (4 + 1) 0, .pseudoChannelCopyDone .east (32) [] [] [],
        .evqHeadWrite (.obs .east 4) .east 0, .scorebookUnfreeze (.obs .east 4) .east,
        .softEventRaise (.obs .east 4) .east 0, .unfence (.obs .east 4) .east 0,
        .requalStart (.obs .east 4) .east false, .portPromote (.obs .east 4) 0, .handoverRequest (.obs .east 4) .east] : List Instr).all (fun i => !i.wf) = true := by decide +kernel

theorem test_wf_refuses5 :
    ([.mctpMessage 0 0 0 (65536 + 1) none, .oboxHeadWrite (.obs .east 4) .east 0, .fmIdentify (68),
        .fmBackgroundOperationStatus (68), .fmGetResponseMessageLimit (68), .fmSetResponseMessageLimit (68) 0,
        .fmRequestAbortBackgroundOp (68), .fmGetEventRecords (68), .fmClearEventRecords (68) false 0,
        .fmGetEventInterruptPolicy (68), .fmSetEventInterruptPolicy (68) 0, .fmIdentifySwitchDevice (68)] : List Instr).all (fun i => !i.wf) = true := by decide +kernel

theorem test_wf_refuses6 :
    ([.fmGetPhysicalPortState (68) [], .ppcAssertPerst (68) 0, .ppcDeassertPerst (68) 0, .ppcResetPpb (68) 0 0,
        .fmSendPpbConfigRequest (68) 0 0 false 0 0, .fmGetVcsInfo (68) 0, .bindVppb (68) 0 0 0 0 none 0 0,
        .unbindVppbWaitLinkDown (68) 0 0 0 0, .unbindVppbManaged (68) 0 0 0 0, .unbindVppbSurprise (68) 0 0 0 0,
        .fmGenerateAerEvent (68) 0 0 0, .fmTunnelManagementCommand (68) 0 0 []] : List Instr).all (fun i => !i.wf) = true := by decide +kernel

theorem test_wf_refuses7 :
    ([.fmSendLdConfigRequest (68) 0 0 0 [], .fmSendLdMemoryRequest (68) 0 0 0 [], .fmTunnelledCommand (68) 0 0 0 [],
        .initiateDynamicCapacityAdd (68) 0 0 0 0 0 0 false 0 0,
        .initiateDynamicCapacityRelease (68) false 0 0 0 0 0 0 0 0, .fmPbrCommand (68) 0 false 0 0 none,
        .fmUnsupportedCommand (68) 0, .getBindingState (68) 0, .stageBindingRows (68) 0 [] 0 none,
        .getSlotState (68) 0, .tenantResetCommand (68) 0, .getTenantState (68) 0] : List Instr).all (fun i => !i.wf) = true := by decide +kernel

theorem test_wf_refuses8 :
    ([.setSwitchCciTenant (68) 0 false, .fmCciWrite (.obs .east 4) 0 0, .alertResume (.obs .east 4),
        .alertModeWrite (.obs .east 4) 0, .coldReset (.obs .east 4), .warmReset (.obs .east 4),
        .railGo (.obs .east 4), .railDownWrite (.obs .east 4), .domeI3cAccess (2 ^ 32) none,
        .finderRequest (.obs .east 4), .trimRequest (.obs .east 4), .obsWatchdogKick (.obs .east 4) .east] : List Instr).all (fun i => !i.wf) = true := by decide +kernel

theorem test_wf_refuses9 :
    ([.getFwInfo (68), .transferFw (68) 0 0 0 false 0, .transferFw 0 (256) 0 0 false 0,
        .activateFw (68) 0 false 0 0 false, .activateFw 0 (256) false 0 0 false, .commitSecurityVersion (68) 0,
        .dbgNonceRead (.obs .east 4), .dbgDeauth (.obs .east 4), .lowWordRead (.host 64 0) 0,
        .lowWordRead (.host 0 256) 0, .rowCancel .dap 16, .rotationGrant .east 0 [7]] : List Instr).all (fun i => !i.wf) = true := by decide +kernel

theorem test_wf_refuses10 :
    ([.sqPush 0 0 0 0 0, .sqPush 0 0 0 65 0, .refereeEvent .east ⟨32, 0, 0, none, 0, 1⟩,
        .refereeEvent .east ⟨0, 0, 0, none, 0, 0⟩, .bankRetireDone .east 0 0, .bankRetireDone .east 5 0,
        .bfx .east 0 0 60 4, .bfi .east 0 0 60 4, .branch .east 15 0, .send .east 0 0, .send .east 0 7,
        .send .east 11 6] : List Instr).all (fun i => !i.wf) = true := by decide +kernel

theorem test_wf_refuses11 :
    ([.stageBindingRows 0 0 [(0, [1])] 0 none, .stageBindingRows 68 0 [(0, List.replicate 8 0)] 0 none,
        .biconflictReceived .east 64 0, .mctpMessage 0 0 0 65537 none, .transferFw 68 0 0 0 false 0,
        .transferFw 0 256 0 0 false 0] : List Instr).all (fun i => !i.wf) = true := by decide +kernel

/-- States that differ from reset in some fields or words of the registers, in one active rule, in one queue, in one function. -/
def setF (l : List (Nat × Fld × Nat)) (s : State := State.reset) : State := l.foldl (fun s e => s.fset e.1 e.2.1 e.2.2) s
def setW (l : List (Nat × Nat)) (s : State := State.reset) : State := l.foldl (fun s e => s.wr e.1 (BitVec.ofNat 32 e.2)) s
def rule (h : Half) (n kind idx : Nat) (s : State := State.reset) : State :=
  setW [(UMP_ACTIVE h n 2, 0x80000000 + kind * 2 ^ 28 + idx * 2 ^ 16 + 40 * 256 + 15), (UMP_ACTIVE h n 3, 0xFFFFFFFF), (UMP_ACTIVE h n 4, 0xFFFFFFFF)] s
def qset (t fn q size st hd tl : Nat) (s : State := State.reset) : State :=
  setF [(SF_QCFG t fn q, SF_QCFG_EN, 1), (SF_QCFG t fn q, SF_QCFG_SIZE, size), (SF_QCFG t fn q, SF_QCFG_STATE, st),
    (SF_QPTR t fn q, SF_QPTR_HEAD, hd), (SF_QPTR t fn q, SF_QPTR_TAIL, tl)] s
def putFn (t fn : Nat) (f : Fn → Fn) (s : State := State.reset) : State := s.modFn t fn f

/-! ### Words of spec 18 (R499 to R513): the four worked encodings first, then one word of each kind, bit by bit -/

theorem test_dec_ld_scratch : decodeTirop .east 0x9041BF00 0 = some (.ldScratch .east 1 0 true false 0x3F00 .clean) := by decide
theorem test_dec_addi_x : decodeTirop .east 0x619A0003 0xFC000800 = some (.addi .east 6 6 (.x 0x0C000800)) := by decide
theorem test_dec_st_cs : decodeTirop .east 0x95D80000 0 = some (.stCs .east 7 6 false false (.short 0)) := by decide
theorem test_dec_shut : decodeTirop .east 0xCC180001 0 = some (.shut .east 6 1) := by decide
theorem test_dec_mov : decodeTirop .east 0x10D40000 0 = some (.mov .east 3 5) := by decide
theorem test_dec_add : decodeTirop .east 0x2048C000 0 = some (.add .east 1 2 3) := by decide
theorem test_dec_cmp : decodeTirop .east 0x400D4000 0 = some (.cmp .east 3 5) := by decide
theorem test_dec_mul : decodeTirop .east 0x4848C000 0 = some (.mul .east 1 2 3) := by decide
theorem test_dec_shli : decodeTirop .east 0x7588000C 0 = some (.shli .east 6 2 12) := by decide
theorem test_dec_bfx : decodeTirop .east 0x8884000F 0 = some (.bfx .east 2 1 0 15) := by decide
theorem test_dec_smp : decodeTirop .east 0x99140009 0 = some (.smp .east 4 5 9) := by decide
theorem test_dec_branch : decodeTirop .east 0xA0400007 0 = some (.branch .east 1 7) := by decide
theorem test_dec_loop : decodeTirop .east 0xA448C005 0 = some (.loop .east 0x123 5) := by decide
theorem test_dec_endl : decodeTirop .east 0xA8000000 0 = some (.endl .east) := by decide
theorem test_dec_refill : decodeTirop .east 0xC0080040 0 = some (.refill .east 2 64) := by decide
theorem test_dec_fence : decodeTirop .east 0xD00C0000 0 = some (.fence .east 3) := by decide
theorem test_dec_scan : decodeTirop .east 0xD9580010 0 = some (.scan .east 5 6 16) := by decide
theorem test_dec_arm : decodeTirop .east 0xDC040002 0 = some (.arm .east 1 2) := by decide
theorem test_dec_send : decodeTirop .east 0xE0040003 0 = some (.send .east 1 3) := by decide
theorem test_dec_halt_nop :
    decodeTirop .west 0x08000000 0 = some (.halt .west) ∧ decodeTirop .west 0x04000000 0 = some (.nop .west .clean) := by decide
/-- Opcode 0x00, a constant word and condition 15 spell no instruction. -/
theorem test_dec_none :
    decodeTirop .east 0 0 = none ∧ decodeTirop .east 0xFC000800 0 = none ∧ decodeTirop .east 0xA3C00007 0 = none := by decide

/-! ### Worked examples -/

/-- Spec 18: handler word 0xC100_0571 is PRIO 12, ENTRY 0x0400, WCET 87, VALID. -/
theorem test_handler_word :
    hndPrio 0xC1000571 = 12 ∧ hndEntry 0xC1000571 = 0x400 ∧ hndWcet 0xC1000571 = 87 ∧ hndValid 0xC1000571 = true := by decide

/-- R45: the CRC-32 of "123456789" by its polynomial's published check value. -/
theorem test_crc32 : crc32 [0x31, 0x32, 0x33, 0x34, 0x35, 0x36, 0x37, 0x38, 0x39] = 0xCBF43926 := by decide +kernel

/-- R38: the CRC-8 of polynomial 0x07 from 0, of an MSYNC frame for TN 0 and for TN 1. -/
theorem test_crc8 : crc8 0 = 0 ∧ crc8 1 = 0x07 := by decide +kernel

/-- Spec 01, the follower: DLY 56 is 3.5 ns; M = 5,000,000,010.25 ns at the edge of TN 5,000,000 gives e = 6.75 ns, ERR 27. -/
theorem test_phase_error :
    phaseErrOf { State.reset.mrd.east with dly := 56 } (5000000010 * 65536 + 16384) 5000000 = 442368 ∧ errField 442368 = 27 := by decide +kernel

/-- Spec 08: L = 0x48_D15A in East window 3 has SET 0x44_D15A and LSSET 0x04_D15A. -/
theorem test_set_of_line : setFull 3 0x48D15A = 0x44D15A ∧ lsSet 3 0x48D15A = 0x04D15A := by decide

/-- Spec 09: element 0 of the job with A = 31: 1.75 × 2^-57 is 3.5 steps of the grid, ties to even; the sum rounds to 1.0. -/
theorem test_stacker_sum :
    (match numOf 0 0x23600000 with | .fin n m e => gridOf 31 n m e | _ => none) = some 4
      ∧ (match numOf 0 0xCE800000 with | .fin n m e => gridOf 31 n m e | _ => none) = some (-(2 ^ 88))
      ∧ (sumResult 0 31 (2 ^ 58 + 4) 0).1 = 0x3F800000 := by decide +kernel

/-- Spec 09: an element that met both infinities, and one out of a FIXED window. -/
theorem test_stacker_special : (specResult 0 (sPINF + sNINF)).1 = 0x7FC05303 ∧ (specResult 0 sRANGE).1 = 0x7FC05302 := by decide +kernel

/-- Spec 19: the balls of lanes 89 and 432 and of PCLK 5, and their names. -/
theorem test_balls :
    ballAt 12 59 = .rxP 89 ∧ ballAt 12 60 = .rxN 89 ∧ ballAt 16 60 = .txN 89 ∧ ballAt 18 56 = .pclkP 5 ∧ ballAt 88 11 = .rxP 432
      ∧ ballAt 88 10 = .rxN 432 ∧ ballAt 46 38 = .shutter 21 "SHT_GH" ∧ ballName 12 59 = "M59" ∧ ballName 88 11 = "DM11" := by
  decide +kernel

/-- A rule as its words 2, BASE and TSET. -/
def umpRule (n w2 base set : Nat) (s : State) : State :=
  [base % 2 ^ 32, base / 2 ^ 32, w2, set % 2 ^ 32, set / 2 ^ 32].zipIdx.foldl
    (fun s e => s.wr (UMP_ACTIVE .east n e.2) (BitVec.ofNat 32 e.1)) s

/-- The rule set of spec 10's worked example. -/
def umpExample : State :=
  umpRule 5 0x84022411 0x0000004000000000 0 (umpRule 4 0xA0001E08 0x0000000940000000 0x0000100000001020
    (umpRule 3 0x84021E01 0x0000004040000000 0x1000 (umpRule 2 0x84021E07 0x0000004000000000 0x0000100000001020
    (umpRule 1 0x84021420 0x0000004000000000 0x0000100000001000 (umpRule 0 0x84021427 0x0000004000000000 0x20 State.reset)))))

/-- The same with DBG_AUTH 1. -/
def umpAuth : State := umpExample.fset (UMP_STAT .east) UMP_STAT_DBG_AUTH 1

/-- Its checks of tenants. -/
theorem test_ump_tenants :
    check umpExample .east (.tenant 44) ⟨0, 0x402, 0x4012345680⟩ (pR + pCOH) = .allow
      ∧ check umpExample .east (.tenant 12) ⟨0, 0x402, 0x4000008000⟩ (pR + pCOH) = .deny (some 1)
      ∧ check umpExample .east (.tenant 5) ⟨0, 0x402, 0x4000008000⟩ (pR + pW + pCOH) = .allow
      ∧ check umpExample .east (.tenant 12) ⟨0, 0x402, 0x4040000040⟩ pW = .deny (some 3)
      ∧ check umpExample .east (.tenant 44) ⟨0, 0x402, 0x4080000000⟩ pR = .deny none
      ∧ check umpExample .east (.tenant 5) ⟨2, 0, 0x0940000040⟩ pSTK = .allow := by decide +kernel

/-- Its checks of DBG. -/
theorem test_ump_dbg :
    check umpAuth .east .dbg ⟨0, 0x402, 0x4000001000⟩ pR = .deny (some 0)
      ∧ check umpExample .east .dbg ⟨0, 0x402, 0x4020000000⟩ pR = .allow
      ∧ check umpExample .east .dbg ⟨0, 0x402, 0x4020000000⟩ pW = .deny (some 5) := by decide +kernel

/-- A state after a step, or the state before it. -/
def after (s : State) (i : Instr) : State :=
  match exec i s with
  | .next t => t
  | _ => s

/-- Spec 00, reading a 64-bit count: the low word's read latches the high word, which the count has left when it is read. -/
theorem test_read_latch :
    let s := (State.reset.wr (MRD_TN_LO .east) 0xFFFFFFFE).wr (MRD_TN_LO .east + 4) 1
    let t := after s (.lowWordRead (.obs .east 0) (MRD_TN_LO .east))
    let u := after ((t.wr (MRD_TN_LO .east) 0).wr (MRD_TN_LO .east + 4) 2) (.lowWordRead (.obs .east 0) (MRD_TN_LO .east + 4))
    u.sent = [.out outREAD [MRD_TN_LO .east + 4, 1], .out outREAD [MRD_TN_LO .east, 0xFFFFFFFE]] := by decide +kernel

/-- R410: of two events with one stamp the one of the smaller class has the earlier SEQ and the earlier places, though it came later. -/
theorem test_same_stamp :
    let s := { State.reset with dome := { State.reset.dome with released := true } }
    let t := after (after s (.refereeEvent .east ⟨5, 0, 9, some (0, 9), 0, 1⟩)) (.refereeEvent .east ⟨1, 0, 2, some (0, 2), 0, 1⟩)
    [0, 1].map (fun n => ((t.rd (REF_SB .east n 0)).toNat / 2 ^ 27, (t.rd (REF_SB .east n 1)).toNat)) = [(1, 0), (5, 1)]
      ∧ [0, 1].map (fun n => ((t.rd (REF_EVQ .east n 0)).toNat / 2 ^ 27, (t.rd (REF_EVQ .east n 1)).toNat)) = [(1, 0), (5, 1)]
      ∧ t.trp.east.arrivals.map (fun e => (e.cls, e.seq)) = [(5, 1), (1, 0)] := by decide +kernel

/-- Spec 11, the rate change: shaper 12 at 7,812.5 bytes per Transit goes from -40 to 7,772.5 tokens; at 15,625 it stops at DEPTH. -/
theorem test_shaper_refill :
    let s := setW [(QOS_SHP_LIVE .east 12 1, 0x1E848000), (QOS_SHP_LIVE .east 12 3, 16384)] State.reset
    let f := setW [(QOS_SHP_LIVE .east 12 1, 0x3D090000)] s
    tokens (shpRefill (setTokens s .east 12 (-40 * 65536)) .east 12) .east 12 = 15545 * 32768
      ∧ tokens (shpRefill (setTokens f .east 12 (11915 * 32768)) .east 12) .east 12 = 16384 * 65536 := by decide +kernel

/-- A step takes the front of the queue. -/
theorem test_step_queue :
    (match step { State.reset with pending := [.endl .east, .nop .west .clean] } with
      | .next t => decide (t.pending = [.nop .west .clean]) | _ => false) = true := by decide +kernel

theorem test_step_idle : step State.reset = .next State.reset := rfl

/-! ### For each statement with hypotheses, a state and operands that meet them -/

/-- A helper of the witnesses below. -/
def tir (w : List Word) (f : Trp → Trp := id) (s : State := State.reset) : State :=
  ((setW [(TRP_BANK .west 0 100, (w.getD 0 0).toNat), (TRP_BANK .west 0 101, (w.getD 1 0).toNat)] s).modTrp .west fun t => f { t with phase := .main, pc := 100, bc := 50 })

/-- A helper of the witnesses below. -/
def RCREG : Nat := ((regTable.find? fun d => d.flds.length == 1 && (d.flds.all fun f => f.acc == .rc)).getD ⟨0,[],0,[],false⟩).base

/-- A helper of the witnesses below. -/
def LOADDR : Nat := ((regTable.find? fun d => d.lo64 && d.flds == [(⟨0, 32, .rw, 0, false⟩ : Fld)] && decide (d.base < 0x10000000) && (match descAt (d.base + 4) with | some e => e.flds == [(⟨0, 32, .rw, 0, false⟩ : Fld)] | none => false)).getD ⟨0,[],0,[],false⟩).base

/-- A helper of the witnesses below. -/
def rel (s : State) : State := { s with dome := { s.dome with released := true } }

/-- A helper of the witnesses below. -/
def RWD : RegDesc := ((regTable.find? fun d => d.flds == [(⟨0, 32, .rw, 0, false⟩ : Fld)] && !d.lo64 && (lowOf d.base).isNone && plainReg d.base d && decodeAt (.tirop .west) d.base (copyKey .west d.base) == some d && reaches State.reset .west d.base).getD ⟨0,[],0,[],false⟩)

/-- A helper of the witnesses below. -/
def SL0 : LsSlot := ⟨1, 2, 9, 0, 0⟩

/-- A helper of the witnesses below. -/
def CE0 : CatEnt := ⟨1, 2, 1, false, some 3, false, 0⟩

/-- A helper of the witnesses below. -/
def runs (s : State) : State := { s with dome := { s.dome with run := true } }

/-- A helper of the witnesses below. -/
def VB1 : VBind := ⟨some 15, 127, true⟩

theorem wit_TiropSumsAndCompares :
    (let s : State := tir (encodeTirop (.mul .west 7 3 15))
       (fun t => (t.setReg 3 0xFFFFFFFFFFFFFFFF).setReg 15 0xFFFFFFFFFFFFFFFF);
     let h : Half := .west;
     let rd : Reg := 7;
     let rs : Reg := 3;
     let rt : Reg := 15;
     (atInstr s h (.mul h rd rs rt) 4)) ∧
    (let s : State := tir (encodeTirop (.cmpi .west 3 (.x 0xFFFFFFFF)))
       (fun t => (t.setReg 3 0xFFFFFFFFFFFFFFFF).setReg 15 0xFFFFFFFFFFFFFFFF);
     let h : Half := .west;
     let rs : Reg := 3;
     let m : Imm := .x 0xFFFFFFFF;
     (atInstr s h (.cmpi h rs m) 1)) ∧
    (let s : State := tir (encodeTirop (.cmp .west 3 15))
       (fun t => (t.setReg 3 0xFFFFFFFFFFFFFFFF).setReg 15 0xFFFFFFFFFFFFFFFF);
     let h : Half := .west;
     let rs : Reg := 3;
     let rt : Reg := 15;
     (atInstr s h (.cmp h rs rt) 1)) ∧
    (let s : State := tir (encodeTirop (.subi .west 7 3 (.x 0xFFFFFFFF)))
       (fun t => (t.setReg 3 0xFFFFFFFFFFFFFFFF).setReg 15 0xFFFFFFFFFFFFFFFF);
     let h : Half := .west;
     let rd : Reg := 7;
     let rs : Reg := 3;
     let m : Imm := .x 0xFFFFFFFF;
     (atInstr s h (.subi h rd rs m) 1)) ∧
    (let s : State := tir (encodeTirop (.sub .west 7 3 15))
       (fun t => (t.setReg 3 0xFFFFFFFFFFFFFFFF).setReg 15 0xFFFFFFFFFFFFFFFF);
     let h : Half := .west;
     let rd : Reg := 7;
     let rs : Reg := 3;
     let rt : Reg := 15;
     (atInstr s h (.sub h rd rs rt) 1)) ∧
    (let s : State := tir (encodeTirop (.addi .west 7 3 (.x 0xFFFFFFFF)))
       (fun t => (t.setReg 3 0xFFFFFFFFFFFFFFFF).setReg 15 0xFFFFFFFFFFFFFFFF);
     let h : Half := .west;
     let rd : Reg := 7;
     let rs : Reg := 3;
     let m : Imm := .x 0xFFFFFFFF;
     (atInstr s h (.addi h rd rs m) 1)) ∧
    (let s : State := tir (encodeTirop (.add .west 7 3 15))
       (fun t => (t.setReg 3 0xFFFFFFFFFFFFFFFF).setReg 15 0xFFFFFFFFFFFFFFFF);
     let h : Half := .west;
     let rd : Reg := 7;
     let rs : Reg := 3;
     let rt : Reg := 15;
     (atInstr s h (.add h rd rs rt) 1)) := by
  refine ⟨?_, ?_, ?_, ?_, ?_, ?_, ?_⟩ <;> dsimp only [mayAct, atInstr, regsCanon] <;> decide +kernel

theorem wit_TiropLogicAndMoves :
    (let s : State := tir (encodeTirop (.movs .west 7 .bc)) (fun t => { t with tn := 5 });
     let h : Half := .west;
     let rd : Reg := 7;
     let sel : Special := .bc;
     (atInstr s h (.movs h rd sel) 1)) ∧
    (let s : State := tir (encodeTirop (.movi .west 7 (.x 0xFFFFFFFF)))
       (fun t => (t.setReg 3 0xFFFFFFFFFFFFFFFF).setReg 15 0xFFFFFFFFFFFFFFFF);
     let h : Half := .west;
     let rd : Reg := 7;
     let m : Imm := .x 0xFFFFFFFF;
     (atInstr s h (.movi h rd m) 1)) ∧
    (let s : State := tir (encodeTirop (.mov .west 7 3))
       (fun t => (t.setReg 3 0xFFFFFFFFFFFFFFFF).setReg 15 0xFFFFFFFFFFFFFFFF);
     let h : Half := .west;
     let rd : Reg := 7;
     let rs : Reg := 3;
     (atInstr s h (.mov h rd rs) 1)) ∧
    (let s : State := tir (encodeTirop (.tsti .west 3 (.x 0xFFFFFFFF)))
       (fun t => (t.setReg 3 0xFFFFFFFFFFFFFFFF).setReg 15 0xFFFFFFFFFFFFFFFF);
     let h : Half := .west;
     let rs : Reg := 3;
     let m : Imm := .x 0xFFFFFFFF;
     (atInstr s h (.tsti h rs m) 1)) ∧
    (let s : State := tir (encodeTirop (.tst .west 3 15))
       (fun t => (t.setReg 3 0xFFFFFFFFFFFFFFFF).setReg 15 0xFFFFFFFFFFFFFFFF);
     let h : Half := .west;
     let rs : Reg := 3;
     let rt : Reg := 15;
     (atInstr s h (.tst h rs rt) 1)) ∧
    (let s : State := tir (encodeTirop (.xori .west 7 3 (.x 0xFFFFFFFF)))
       (fun t => (t.setReg 3 0xFFFFFFFFFFFFFFFF).setReg 15 0xFFFFFFFFFFFFFFFF);
     let h : Half := .west;
     let rd : Reg := 7;
     let rs : Reg := 3;
     let m : Imm := .x 0xFFFFFFFF;
     (atInstr s h (.xori h rd rs m) 1)) ∧
    (let s : State := tir (encodeTirop (.txor .west 7 3 15))
       (fun t => (t.setReg 3 0xFFFFFFFFFFFFFFFF).setReg 15 0xFFFFFFFFFFFFFFFF);
     let h : Half := .west;
     let rd : Reg := 7;
     let rs : Reg := 3;
     let rt : Reg := 15;
     (atInstr s h (.txor h rd rs rt) 1)) ∧
    (let s : State := tir (encodeTirop (.ori .west 7 3 (.x 0xFFFFFFFF)))
       (fun t => (t.setReg 3 0xFFFFFFFFFFFFFFFF).setReg 15 0xFFFFFFFFFFFFFFFF);
     let h : Half := .west;
     let rd : Reg := 7;
     let rs : Reg := 3;
     let m : Imm := .x 0xFFFFFFFF;
     (atInstr s h (.ori h rd rs m) 1)) ∧
    (let s : State := tir (encodeTirop (.tor .west 7 3 15))
       (fun t => (t.setReg 3 0xFFFFFFFFFFFFFFFF).setReg 15 0xFFFFFFFFFFFFFFFF);
     let h : Half := .west;
     let rd : Reg := 7;
     let rs : Reg := 3;
     let rt : Reg := 15;
     (atInstr s h (.tor h rd rs rt) 1)) ∧
    (let s : State := tir (encodeTirop (.andi .west 7 3 (.x 0xFFFFFFFF)))
       (fun t => (t.setReg 3 0xFFFFFFFFFFFFFFFF).setReg 15 0xFFFFFFFFFFFFFFFF);
     let h : Half := .west;
     let rd : Reg := 7;
     let rs : Reg := 3;
     let m : Imm := .x 0xFFFFFFFF;
     (atInstr s h (.andi h rd rs m) 1)) ∧
    (let s : State := tir (encodeTirop (.tand .west 7 3 15))
       (fun t => (t.setReg 3 0xFFFFFFFFFFFFFFFF).setReg 15 0xFFFFFFFFFFFFFFFF);
     let h : Half := .west;
     let rd : Reg := 7;
     let rs : Reg := 3;
     let rt : Reg := 15;
     (atInstr s h (.tand h rd rs rt) 1)) := by
  refine ⟨?_, ?_, ?_, ?_, ?_, ?_, ?_, ?_, ?_, ?_, ?_⟩ <;> dsimp only [mayAct, atInstr, regsCanon] <;> decide +kernel

theorem wit_TiropShiftsAndFields :
    (let s : State := tir (encodeTirop (.bfi .west 7 3 63 0)) (fun t => (t.setReg 3 0xFFFFFFFFFFFFFFFF).setReg 15 1);
     let h : Half := .west;
     let rd : Reg := 7;
     let rs : Reg := 3;
     let pos : BitVec 6 := 63;
     let len1 : BitVec 6 := 0;
     (atInstr s h (.bfi h rd rs pos len1) 1)) ∧
    (let s : State := tir (encodeTirop (.bfx .west 7 3 63 0)) (fun t => (t.setReg 3 0xFFFFFFFFFFFFFFFF).setReg 15 1);
     let h : Half := .west;
     let rd : Reg := 7;
     let rs : Reg := 3;
     let pos : BitVec 6 := 63;
     let len1 : BitVec 6 := 0;
     (atInstr s h (.bfx h rd rs pos len1) 1)) ∧
    (let s : State := tir (encodeTirop (.sari .west 7 3 1)) (fun t => (t.setReg 3 0xFFFFFFFFFFFFFFFF).setReg 15 1);
     let h : Half := .west;
     let rd : Reg := 7;
     let rs : Reg := 3;
     let n : BitVec 6 := 1;
     (atInstr s h (.sari h rd rs n) 1)) ∧
    (let s : State := tir (encodeTirop (.shri .west 7 3 1)) (fun t => (t.setReg 3 0xFFFFFFFFFFFFFFFF).setReg 15 1);
     let h : Half := .west;
     let rd : Reg := 7;
     let rs : Reg := 3;
     let n : BitVec 6 := 1;
     (atInstr s h (.shri h rd rs n) 1)) ∧
    (let s : State := tir (encodeTirop (.shli .west 7 3 1)) (fun t => (t.setReg 3 0xFFFFFFFFFFFFFFFF).setReg 15 1);
     let h : Half := .west;
     let rd : Reg := 7;
     let rs : Reg := 3;
     let n : BitVec 6 := 1;
     (atInstr s h (.shli h rd rs n) 1)) ∧
    (let s : State := tir (encodeTirop (.sar .west 7 3 15)) (fun t => (t.setReg 3 0xFFFFFFFFFFFFFFFF).setReg 15 1);
     let h : Half := .west;
     let rd : Reg := 7;
     let rs : Reg := 3;
     let rt : Reg := 15;
     (atInstr s h (.sar h rd rs rt) 1)) ∧
    (let s : State := tir (encodeTirop (.shr .west 7 3 15)) (fun t => (t.setReg 3 0xFFFFFFFFFFFFFFFF).setReg 15 1);
     let h : Half := .west;
     let rd : Reg := 7;
     let rs : Reg := 3;
     let rt : Reg := 15;
     (atInstr s h (.shr h rd rs rt) 1)) ∧
    (let s : State := tir (encodeTirop (.shl .west 7 3 15)) (fun t => (t.setReg 3 0xFFFFFFFFFFFFFFFF).setReg 15 1);
     let h : Half := .west;
     let rd : Reg := 7;
     let rs : Reg := 3;
     let rt : Reg := 15;
     (atInstr s h (.shl h rd rs rt) 1)) := by
  refine ⟨?_, ?_, ?_, ?_, ?_, ?_, ?_, ?_⟩ <;> dsimp only [mayAct, atInstr, regsCanon] <;> decide +kernel

theorem wit_TiropLoadsAndStores :
    (let s : State := tir (encodeTirop (.smp .west 7 3 9))
       (fun t => { (t.setReg 3 16) with samplesReady := true, bc := 0 })
       ({ State.reset with
           chans := minsert State.reset.chans 16
             { State.reset.chan 16 with ready := [1, 2, 3, 4, 0xFFFFFFFF, 6, 7, 0x80000000, 9, 0xFFFFFFFF, 11] } });
     let h : Half := .west;
     let rd : Reg := 7;
     let rs : Reg := 3;
     let k : BitVec 14 := 9;
     let t := s.trp.get h;
     let ch := (t.reg rs).toNat;
     (t.samplesReady = true) ∧ (serves h ch = true) ∧ (k.toNat ≤ 10) ∧
       (atInstr s h (.smp h rd rs k) (120 - t.bc + 4))) ∧
    (let s : State := tir (encodeTirop (.ldCs .west 7 3 true false (.x 0x02000010) false))
       (fun t => { (t.setReg 3 0x13) with bc := 50 });
     let h : Half := .west;
     let rd : Reg := 7;
     let rs : Reg := 3;
     let nb : Bool := true;
     let x : Imm := .x 0x02000010;
     let c : Nat := 24;
     let t := s.trp.get h;
     let b := if nb then 0 else t.reg rs;
     let a := (b + immS x).toNat / 4 * 4;
     (lsCost t h rs nb false x = some c) ∧ (atInstr s h (.ldCs h rd rs nb false x true) c) ∧ (heldCs t.held a = none)) ∧
    (let s : State := tir (encodeTirop (.ldCs .west 7 3 true false (.x 0x02000010) false))
       (fun t => { (t.setReg 3 0x13) with held := [.cs 0x02000010 7, .cs 0x02000010 9] });
     let h : Half := .west;
     let rd : Reg := 7;
     let rs : Reg := 3;
     let nb : Bool := true;
     let x : Imm := .x 0x02000010;
     let c : Nat := 24;
     let v : Word := 9;
     let t := s.trp.get h;
     let b := if nb then 0 else t.reg rs;
     let a := (b + immS x).toNat / 4 * 4;
     (lsCost t h rs nb false x = some c) ∧ (atInstr s h (.ldCs h rd rs nb false x false) c) ∧
       (heldCs t.held a = some v)) ∧
    (let s : State := tir (encodeTirop (.stCs .west 7 3 false false (.x 0x0D000010)))
       (fun t => { (t.setReg 3 0x13).setReg 7 0x123456789 with bc := 50 });
     let h : Half := .west;
     let rd : Reg := 7;
     let rs : Reg := 3;
     let nb : Bool := false;
     let x : Imm := .x 0x0D000010;
     let c : Nat := 24;
     let t := s.trp.get h;
     let b := if nb then 0 else t.reg rs;
     let a := (b + immS x).toNat / 4 * 4;
     (lsCost t h rs nb false x = some c) ∧ (atInstr s h (.stCs h rd rs nb false x) c) ∧
       (limitsOk (t.held ++ [.cs a ((t.reg rd).extractLsb' 0 32)]) = true)) ∧
    (let s : State := tir (encodeTirop (.stScratch .west 7 3 true false 16128))
       (fun t => { (t.setReg 3 0x10) with bc := 50 });
     let h : Half := .west;
     let rd : Reg := 7;
     let rs : Reg := 3;
     let nb : Bool := true;
     let d : Bool := false;
     let off : BitVec 14 := 16128;
     let t := s.trp.get h;
     let b := if nb then 0 else t.reg rs;
     let i := (b.toNat + off.toNat) % 16384 / 8;
     (atInstr s h (.stScratch h rd rs nb d off) 2) ∧ (limitsOk t.held = true) ∧ (2016 ≤ i)) ∧
    (let s : State := tir (encodeTirop (.stScratch .west 7 3 true false 16111))
       (fun t => { (t.setReg 3 0x10) with bc := 50 });
     let h : Half := .west;
     let rd : Reg := 7;
     let rs : Reg := 3;
     let nb : Bool := true;
     let d : Bool := false;
     let off : BitVec 14 := 16111;
     let t := s.trp.get h;
     let b := if nb then 0 else t.reg rs;
     let i := (b.toNat + off.toNat) % 16384 / 8;
     (atInstr s h (.stScratch h rd rs nb d off) 2) ∧ (limitsOk (t.held ++ [.scr i (t.reg rd)]) = true) ∧ (i < 2016)) ∧
    (let s : State := tir (encodeTirop (.ldScratch .west 7 3 false false 16 .corrected))
       (fun t => { (t.setReg 3 0x10) with bc := 50 });
     let h : Half := .west;
     let rd : Reg := 7;
     let rs : Reg := 3;
     let nb : Bool := false;
     let d : Bool := false;
     let off : BitVec 14 := 16;
     let e : Ecc := .corrected;
     (e ≠ .double) ∧ (atInstr s h (.ldScratch h rd rs nb d off e) 2)) := by
  refine ⟨?_, ?_, ?_, ?_, ?_, ?_, ?_⟩ <;> dsimp only [mayAct, atInstr, regsCanon] <;> decide +kernel

theorem wit_TiropControlFlow :
    (let s : State := tir (encodeTirop (.nop .west .clean)) (fun t => { t with bc := 959 });
     let h : Half := .west;
     let e : Ecc := .clean;
     (e ≠ .double) ∧ (atInstr s h (.nop h e) 1)) ∧
    (let s : State := tir (encodeTirop (.halt .west)) (fun t => { t with loops := [⟨90, 100, 3⟩] });
     let h : Half := .west;
     let t := s.trp.get h;
     (atInstr s h (.halt h) 1) ∧ (t.hlist = [])) ∧
    (let s : State := tir (encodeTirop (.endl .west)) (fun t => { t with loops := [⟨90, 100, 1⟩, ⟨80, 120, 1⟩] });
     let h : Half := .west;
     let l : LoopRec := ⟨90, 100, 1⟩;
     let r : List LoopRec := [⟨80, 120, 1⟩];
     let t := s.trp.get h;
     (atInstr s h (.endl h) 1) ∧ (t.loops = l :: r) ∧ (l.stop = t.pc) ∧ (l.count = 1)) ∧
    (let s : State := tir (encodeTirop (.endl .west)) (fun t => { t with loops := [⟨90, 100, 3⟩, ⟨80, 120, 1⟩] });
     let h : Half := .west;
     let l : LoopRec := ⟨90, 100, 3⟩;
     let r : List LoopRec := [⟨80, 120, 1⟩];
     let t := s.trp.get h;
     (atInstr s h (.endl h) 1) ∧ (t.loops = l :: r) ∧ (l.stop = t.pc) ∧ (1 < l.count) ∧ (1 ≤ l.start)) ∧
    (let s : State := tir (encodeTirop (.loop .west 4095 16383)) (fun t => { t with loops := [⟨90, 100, 3⟩] });
     let h : Half := .west;
     let count : BitVec 14 := 16383;
     let len : BitVec 12 := 4095;
     let t := s.trp.get h;
     (atInstr s h (.loop h len count) 1) ∧ (count ≠ 0) ∧ (2 ≤ len.toNat) ∧ (t.loops.length < 2)) ∧
    (let cond : BitVec 4 := 15;
     (cond = 15)) ∧
    (let s : State := tir (encodeTirop (.branch .west 14 77))
       (fun t => { t with zf := false, nf := true, cf := true, vf := false, loops := [⟨101, 150, 2⟩, ⟨90, 178, 2⟩] });
     let h : Half := .west;
     let cond : BitVec 4 := 14;
     let off : BitVec 14 := 77;
     let t := s.trp.get h;
     let holds := [t.zf, !t.zf, t.nf, !t.nf, t.cf, !t.cf, t.vf, !t.vf, true, t.nf == t.vf, t.nf != t.vf,
         !t.zf && t.nf == t.vf, t.zf || t.nf != t.vf, t.cf && !t.zf, !t.cf || t.zf].getD cond.toNat false;
     (atInstr s h (.branch h cond off) 1) ∧ (holds = false)) ∧
    (let s : State := tir (encodeTirop (.branch .west 14 77))
       (fun t => { t with zf := false, nf := true, cf := false, vf := true, loops := [⟨101, 150, 2⟩, ⟨90, 178, 2⟩] });
     let h : Half := .west;
     let cond : BitVec 4 := 14;
     let off : BitVec 14 := 77;
     let t := s.trp.get h;
     let holds := [t.zf, !t.zf, t.nf, !t.nf, t.cf, !t.cf, t.vf, !t.vf, true, t.nf == t.vf, t.nf != t.vf,
         !t.zf && t.nf == t.vf, t.zf || t.nf != t.vf, t.cf && !t.zf, !t.cf || t.zf].getD cond.toNat false;
     (atInstr s h (.branch h cond off) 2) ∧ (holds = true)) := by
  refine ⟨?_, ?_, ?_, ?_, ?_, ?_, ?_, ?_⟩ <;> dsimp only [mayAct, atInstr, regsCanon] <;> decide +kernel

theorem wit_HaltStartsHandler :
    (let s : State := tir (encodeTirop (.halt .west))
       (fun t => { t with
           hlist := [⟨⟨6, 0, 2, 127, 0, .west, false, 77, 12345678901, 1, 0, 5, none, none⟩, 3, false⟩],
           bc := 51 }) (setW [(TRP_BANK .west 0 14, 0xFA3891)]);
     let h : Half := .west;
     let e : HEvt := ⟨⟨6, 0, 2, 127, 0, .west, false, 77, 12345678901, 1, 0, 5, none, none⟩, 3, false⟩;
     let r : List HEvt := [];
     let t := s.trp.get h;
     let w := hndWord s h e.evt.cls;
     (atInstr s h (.halt h) 1) ∧ (t.hlist = e :: r) ∧ (hndValid w = true) ∧ (960 < t.bc + 5 + hndWcet w)) ∧
    (let s : State := tir (encodeTirop (.halt .west))
       (fun t => { t with
           hlist := [⟨⟨6, 0, 2, 127, 0, .west, false, 77, 12345678901, 1, 0, 5, none, none⟩, 3, false⟩],
           bc := 50 }) (setW [(TRP_BANK .west 0 14, 0x1)]);
     let h : Half := .west;
     let e : HEvt := ⟨⟨6, 0, 2, 127, 0, .west, false, 77, 12345678901, 1, 0, 5, none, none⟩, 3, false⟩;
     let r : List HEvt := [];
     let t := s.trp.get h;
     let w := hndWord s h e.evt.cls;
     (atInstr s h (.halt h) 1) ∧ (t.hlist = e :: r) ∧ (e.evt.cls < 32) ∧ (hndValid w = true) ∧
       (t.bc + 5 + hndWcet w ≤ 960)) := by
  refine ⟨?_, ?_⟩ <;> dsimp only [mayAct, atInstr, regsCanon] <;> decide +kernel

theorem wit_TiropTableInstructionsHold :
    (let s : State := tir (encodeTirop (.bind .west 3 1))
       (fun t => { (t.setReg 3 (BitVec.ofNat 64 (UMP_GSTAGE .east 0))) with bc := 50 })
       (setF [(CDB_STAT .east, CDB_STAT_PHASE, 2), (CDB_STAT .west, CDB_STAT_PHASE, 2)]);
     let h : Half := .west;
     let rs : Reg := 3;
     let n : BitVec 14 := 1;
     let tb : RowTable := ⟨.gen, UMP_GSTAGE .east 0, 32, 1, 8⟩;
     let j : Nat := 0;
     let t := s.trp.get h;
     let rows := (rowsOf s h tb j n.toNat).map TOut.row;
     let at_ := (t.reg rs).toNat;
     (rowsAt (bindTables h) at_ n.toNat = some (tb, j)) ∧ (tb.kind = .gen) ∧
       (atInstr s h (.bind h rs n) (16 + 8 * n.toNat)) ∧ (limitsOk (t.held ++ rows) = true) ∧ (holdsGen t = false)) ∧
    (let s : State := tir (encodeTirop (.send .west 14 2)) (fun t => { (t.setReg 3 5) with bc := 50 });
     let h : Half := .west;
     let rs : Reg := 14;
     let n : BitVec 14 := 2;
     let j : Nat := 254;
     let t := s.trp.get h;
     (atInstr s h (.send h rs n) (8 + 2 * n.toNat)) ∧
       (limitsOk (t.held ++ [.send ((List.range n.toNat).map fun j => t.reg (rs + BitVec.ofNat 4 j))]) = true)) ∧
    (let s : State := tir (encodeTirop (.arm .west 3 2)) (fun t => { (t.setReg 3 16368) with bc := 50 })
       (setW [(TRP_SCRATCH .west 4092, 1), (TRP_SCRATCH .west 4093, 31), (TRP_SCRATCH .west 4094, 5),
           (TRP_SCRATCH .west 4095, 0x8000001F)]);
     let h : Half := .west;
     let rs : Reg := 3;
     let n : BitVec 14 := 2;
     let j : Nat := 254;
     let t := s.trp.get h;
     let at_ := (t.reg rs).toNat;
     let vs := (List.range n.toNat).map fun j => (scrLoad s h (at_ / 8 + j)).toNat;
     let alarms := vs.map fun v => TOut.row
       ⟨.alarm, v / 2 ^ 32 % 32, 0, [BitVec.ofNat 32 v, BitVec.ofNat 32 (v / 2 ^ 32)]⟩;
     (at_ % 8 = 0) ∧ (at_ + 8 * n.toNat ≤ 16384) ∧ (1 ≤ n.toNat) ∧ (n.toNat ≤ 32) ∧ (vs.all alarmOk = true) ∧
       (atInstr s h (.arm h rs n) (4 + 2 * n.toNat)) ∧ (limitsOk (t.held ++ alarms) = true)) ∧
    (let s : State := tir (encodeTirop (.plate .west 255)) (fun t => { t with bc := 50 });
     let h : Half := .west;
     let tag : BitVec 8 := 255;
     let t := s.trp.get h;
     (atInstr s h (.plate h tag) 6) ∧ (limitsOk (t.held ++ [.row ⟨.plate, tag.toNat, 0, []⟩]) = true)) ∧
    (let s : State := tir (encodeTirop (.shut .west 3 2))
       (fun t => { (t.setReg 3 (BitVec.ofNat 64 (SHT_PSTAGE 16 0 + 14 * 0x1000))) with bc := 50 });
     let h : Half := .west;
     let rs : Reg := 3;
     let n : BitVec 14 := 2;
     let tb : RowTable := ⟨.power, SHT_PSTAGE 16 0, 0x1000, 16, 8⟩;
     let j : Nat := 14;
     let t := s.trp.get h;
     let rows := (rowsOf s h tb j n.toNat).map TOut.row;
     let at_ := (t.reg rs).toNat;
     (rowsAt (shutTables h) at_ n.toNat = some (tb, j)) ∧ (atInstr s h (.shut h rs n) (8 + 24 * n.toNat)) ∧
       (limitsOk (t.held ++ rows) = true)) ∧
    (let s : State := tir (encodeTirop (.unbind .west 3 2))
       (fun t => { (t.setReg 3 (BitVec.ofNat 64 (SF_BSTAGE 63 62 0))) with bc := 50 });
     let h : Half := .west;
     let rs : Reg := 3;
     let n : BitVec 14 := 2;
     let tb : RowTable := ⟨.unbinding, SF_BSTAGE 63 0 0, 32, 64, 8⟩;
     let j : Nat := 62;
     let t := s.trp.get h;
     let rows := (rowsOf s h tb j n.toNat).map TOut.row;
     let at_ := (t.reg rs).toNat;
     (rowsAt (unbindTables h) at_ n.toNat = some (tb, j)) ∧ (atInstr s h (.unbind h rs n) (16 + 8 * n.toNat)) ∧
       (limitsOk (t.held ++ rows) = true)) ∧
    (let s : State := tir (encodeTirop (.bind .west 3 2))
       (fun t => { (t.setReg 3 (BitVec.ofNat 64 (SF_BSTAGE 63 62 0))) with bc := 50 });
     let h : Half := .west;
     let rs : Reg := 3;
     let n : BitVec 14 := 2;
     let tb : RowTable := ⟨.binding, SF_BSTAGE 63 0 0, 32, 64, 8⟩;
     let j : Nat := 62;
     let t := s.trp.get h;
     let rows := (rowsOf s h tb j n.toNat).map TOut.row;
     let at_ := (t.reg rs).toNat;
     (rowsAt (bindTables h) at_ n.toNat = some (tb, j)) ∧ (tb.kind ≠ .gen) ∧
       (atInstr s h (.bind h rs n) (16 + 8 * n.toNat)) ∧ (limitsOk (t.held ++ rows) = true)) ∧
    (let s : State := tir (encodeTirop (.refill .west 3 2))
       (fun t => { (t.setReg 3 (BitVec.ofNat 64 (QOS_SHP_STAGE .west 254 0))) with bc := 50 });
     let h : Half := .west;
     let rs : Reg := 3;
     let n : BitVec 14 := 2;
     let tb : RowTable := ⟨.shaper, QOS_SHP_STAGE .west 0 0, 16, 256, 4⟩;
     let j : Nat := 254;
     let t := s.trp.get h;
     let rows := (rowsOf s h tb j n.toNat).map TOut.row;
     let at_ := (t.reg rs).toNat;
     (rowsAt (refillTables h) at_ n.toNat = some (tb, j)) ∧ (atInstr s h (.refill h rs n) (8 + 2 * n.toNat)) ∧
       (limitsOk (t.held ++ rows) = true)) := by
  refine ⟨?_, ?_, ?_, ?_, ?_, ?_, ?_, ?_⟩ <;> dsimp only [mayAct, atInstr, regsCanon] <;> decide +kernel

theorem wit_TiropScanAndFence :
    (let s : State := tir (encodeTirop (.fence .west 3)) (fun t => { (t.setReg 3 5) with bc := 50 });
     let h : Half := .west;
     let rs : Reg := 3;
     (atInstr s h (.fence h rs) 4)) ∧
    (let s : State := tir (encodeTirop (.scan .west 7 3 16))
       (fun t => { (t.setReg 3 (3 * 256 + 16)) with samplesReady := true })
       ({ State.reset with
           chans := minsert State.reset.chans 31
             { State.reset.chan 31 with ready := [1, 2, 3, 4, 0xFFFFFFFF, 6, 7, 0x80000000, 9, 0xFFFFFFFF, 0x30] } });
     let h : Half := .west;
     let rd : Reg := 7;
     let rs : Reg := 3;
     let n : BitVec 14 := 16;
     let f : Nat := 3;
     let c : Nat := 16;
     let level : Bool := false;
     let t := s.trp.get h;
     ((t.reg rs).toNat = level.toNat * 4096 + f * 256 + c) ∧ (f ≤ 6) ∧ (1 ≤ n.toNat) ∧ (n.toNat ≤ 32) ∧ (c < 32) ∧
       (serves h c = true) ∧ (serves h (c + n.toNat - 1) = true) ∧ (t.samplesReady = true) ∧
       (atInstr s h (.scan h rd rs n) (120 - t.bc + (8 + n.toNat)))) := by
  refine ⟨?_, ?_⟩ <;> dsimp only [mayAct, atInstr, regsCanon] <;> decide +kernel

theorem wit_ReadsLatchClearAndTimeOut :
    (let s : State := setF [(MRD_NOW_LO .east, ⟨0, 32, .ro, 0, false⟩, 77)] (setW [(0x104, 5)]);
     let m : Master := .host 33 7;
     let a : Nat := 0x40;
     let d : RegDesc := ((descAt (0x200000000 + 0x100000 * 33 + 0x1000 * 7 + 0x40)).getD ⟨0,[],0,[],false⟩);
     let h := s.masterHalf m;
     let b := accessAddr m a;
     let k := copyKey h b;
     let allowed := m = .dap → check s h .dbg ⟨5, 0, b⟩ pR = .allow;
     let hits := allowed ∧ decodeAt m b k = some d ∧ reaches s h b = true;
     (hits) ∧ (latched s m k = none) ∧ (k ≠ MRD_DBG_NONCE 0) ∧ (d.lo64 = false) ∧ (rcMask d.flds = 0)) ∧
    (let s : State := { State.reset with latches := [(.mctp, 0x104, 9)] };
     let m : Master := .mctp;
     let a : Nat := 0x104;
     let d : RegDesc := ((descAt 0x104).getD ⟨0,[],0,[],false⟩);
     let v : Word := 9;
     let h := s.masterHalf m;
     let b := accessAddr m a;
     let k := copyKey h b;
     let allowed := m = .dap → check s h .dbg ⟨5, 0, b⟩ pR = .allow;
     let hits := allowed ∧ decodeAt m b k = some d ∧ reaches s h b = true;
     (hits) ∧ (latched s m k = some v)) ∧
    (let s : State := setF [(MRD_NOW_LO .east, ⟨0, 32, .ro, 0, false⟩, 77)] (setW [(0x104, 5)]);
     let m : Master := .tirop .west;
     let a : Nat := 0x101;
     let d : RegDesc := ((descAt 0x100).getD ⟨0,[],0,[],false⟩);
     let h := s.masterHalf m;
     let b := accessAddr m a;
     let k := copyKey h b;
     let allowed := m = .dap → check s h .dbg ⟨5, 0, b⟩ pR = .allow;
     let hits := allowed ∧ decodeAt m b k = some d ∧ reaches s h b = true;
     (hits) ∧ (latched s m k = none) ∧ (k ≠ MRD_DBG_NONCE 0) ∧ (d.lo64 = true) ∧ (rcMask d.flds = 0)) ∧
    (let s : State := setW [(RCREG, 0x00FF00FF)];
     let m : Master := .obs .west 0;
     let a : Nat := RCREG;
     let d : RegDesc := ((descAt RCREG).getD ⟨0,[],0,[],false⟩);
     let f : Fld := ((descAt RCREG).getD ⟨0,[],0,[],false⟩).flds.headD ⟨0,0,.ro,0,false⟩;
     let h := s.masterHalf m;
     let b := accessAddr m a;
     let k := copyKey h b;
     let allowed := m = .dap → check s h .dbg ⟨5, 0, b⟩ pR = .allow;
     let hits := allowed ∧ decodeAt m b k = some d ∧ reaches s h b = true;
     (hits) ∧ (latched s m k = none) ∧ (k ≠ MRD_DBG_NONCE 0) ∧ (d.lo64 = false) ∧ (d.flds = [f]) ∧ (f.acc = .rc) ∧
       (f.lo + f.width ≤ 32)) := by
  refine ⟨?_, ?_, ?_, ?_⟩ <;> dsimp only [mayAct, atInstr, regsCanon] <;> decide +kernel

theorem wit_WritesFollowAccessTypes :
    (let s : State := setF [(CDB_STAT .west, CDB_STAT_PHASE, 2), (CDB_STAT .east, CDB_STAT_PHASE, 2)];
     let h : Half := .west;
     let c : Nat := 3;
     let a : Nat := 0xFFFFFFC;
     let v : Word := 0xFFFFFFFF;
     let ch : BitVec 5 := 0;
     let m := Master.obs h c;
     (a % 4 = 0) ∧ (a < 2 ^ 28) ∧ (decodeAt m a (copyKey h a) = none) ∧ (reaches s h (SHT_ESNAP ch.toNat) = true) ∧
       (v.getLsbD 0 = true)) ∧
    (let s : State := State.reset;
     let h : Half := .east;
     let c : Nat := 3;
     let a : Nat := (LOADDR + 4);
     let d : RegDesc := ((descAt (LOADDR + 4)).getD ⟨0,[],0,[],false⟩);
     let dl : RegDesc := ((descAt LOADDR).getD ⟨0,[],0,[],false⟩);
     let m := Master.obs h c;
     let hits (d : RegDesc) := decodeAt m a (copyKey h a) = some d ∧ reaches s h a = true;
     (a % 4 = 0) ∧ (a < 2 ^ 28) ∧ (hits d) ∧ (liveTable a = false) ∧ (pairOnly a = false) ∧ (d.lo64 = false) ∧
       (lowOf a = some dl) ∧ (mfind s.heldLow (a - 4) = none)) ∧
    (let s : State := { State.reset with heldLow := [(LOADDR, 0x12345678)] };
     let h : Half := .east;
     let c : Nat := 3;
     let a : Nat := (LOADDR + 4);
     let d : RegDesc := ((descAt (LOADDR + 4)).getD ⟨0,[],0,[],false⟩);
     let dl : RegDesc := ((descAt LOADDR).getD ⟨0,[],0,[],false⟩);
     let lo : Word := 0x12345678;
     let m := Master.obs h c;
     let hits (d : RegDesc) := decodeAt m a (copyKey h a) = some d ∧ reaches s h a = true;
     (a % 4 = 0) ∧ (a < 2 ^ 28) ∧ (hits d) ∧ (liveTable a = false) ∧ (pairOnly a = false) ∧ (d.lo64 = false) ∧
       (lowOf a = some dl) ∧ (4 ≤ a) ∧ (mfind s.heldLow (a - 4) = some lo)) ∧
    (let s : State := State.reset;
     let h : Half := .east;
     let c : Nat := 3;
     let a : Nat := LOADDR;
     let d : RegDesc := ((descAt LOADDR).getD ⟨0,[],0,[],false⟩);
     let m := Master.obs h c;
     let hits (d : RegDesc) := decodeAt m a (copyKey h a) = some d ∧ reaches s h a = true;
     (a % 4 = 0) ∧ (a < 2 ^ 28) ∧ (hits d) ∧ (liveTable a = false) ∧ (pairOnly a = false) ∧ (d.lo64 = true)) ∧
    (let s : State := setF [(QOS_CTL .west, QOS_CTL_LOCK, 1)];
     let h : Half := .east;
     let c : Nat := 3;
     let a : Nat := 0x09800004;
     let d : RegDesc := ((descAt 0x09800004).getD ⟨0,[],0,[],false⟩);
     let m := Master.obs h c;
     let hits (d : RegDesc) := decodeAt m a (copyKey h a) = some d ∧ reaches s h a = true;
     (a % 4 = 0) ∧ (a < 2 ^ 28) ∧ (hits d) ∧ (plainReg a d = true) ∧ (d.lo64 = false) ∧ (lowOf a = none)) ∧
    (let s : State := State.reset;
     let h : Half := .west;
     let c : Nat := 3;
     let a : Nat := 0x05001000;
     let d : RegDesc := ((descAt 0x05001000).getD ⟨0,[],0,[],false⟩);
     let m := Master.obs h c;
     let hits (d : RegDesc) := decodeAt m a (copyKey h a) = some d ∧ reaches s h a = true;
     (a % 4 = 0) ∧ (a < 2 ^ 28) ∧ (hits d) ∧ (liveTable a = true)) := by
  refine ⟨?_, ?_, ?_, ?_, ?_, ?_⟩ <;> dsimp only [mayAct, atInstr, regsCanon] <;> decide +kernel

theorem wit_BoundaryOpensTheNextTransit :
    let s : State := setW [(MRD_TN_LO .west, 0xFFFFFFFF)]
      ({ State.reset with
          trp := State.reset.trp.set .west
            { trpReset with w := Vector.replicate 16 5, bc := 960, zf := true, phase := .main, held := [.scr 1 2] } });
    let h : Half := .west;
    ((s.mrd.get h).step = 0) ∧ (s.mer h ≤ (s.tn h + 1) * 1000 * 65536) ∧ (s.tn h + 1 < 2 ^ 48) ∧
      (1 < (s.mrd.get h).inc + (s.mrd.get h).adj) ∧ ((s.mrd.get h).inc + (s.mrd.get h).adj < 2 ^ 18) := by
  dsimp only [mayAct, atInstr, regsCanon]
  decide +kernel

theorem wit_SealReleasesOrDiscards :
    (let s : State := rel ({ State.reset with
           trp := State.reset.trp.set .west
             { trpReset with
               ran := true,
               phase := .idle,
               held := [.scr 1 2],
               dispatched := [⟨⟨6, 0, 2, 127, 0, .west, false, 77, 12345678901, 1, 0, 5, none, none⟩, 3, false⟩] } });
     let h : Half := .west;
     let t := s.trp.get h;
     let quiet := t.done = false ∧ t.requal = none ∧ t.rows = [] ∧ s.trp.west.rows = [] ∧ t.commits = [] ∧ swapOpen s
       h = false;
     (quiet) ∧ (t.ran = true) ∧ (t.phase = .idle) ∧ (t.held.all scrOnly = true) ∧ (t.phase ≠ .stopped) ∧
       ((running t = true → t.sealed = true)) ∧ (holdsGen t = false)) ∧
    (let s : State := rel ({ State.reset with
           trp := State.reset.trp.set .west
             { trpReset with
               ran := true,
               phase := .handler,
               bc := 300,
               held := [.scr 1 2],
               dispatched := [⟨⟨6, 0, 2, 127, 0, .west, false, 77, 12345678901, 1, 0, 5, none, none⟩, 3, false⟩] } });
     let h : Half := .west;
     let t := s.trp.get h;
     (t.done = false) ∧ (t.requal = none) ∧ (running t = true) ∧ (t.bc < 960) ∧ (t.sealed = false) ∧
       (holdsGen t = false)) ∧
    (let s : State := setF [(TRP_OBOX_PTR .west, TRP_OBOX_PTR_TAIL, 16),
         (TRP_OBOX_PTR .west, TRP_OBOX_PTR_HEAD, 65520)]
       ({ State.reset with
           trp := State.reset.trp.set .west
             { trpReset with ran := true, oboxSeq := 65535, held := [.send [1, 2, 0xFFFFFFFFFFFFFFFF]] } });
     let h : Half := .west;
     let ws : List (BitVec 64) := [1, 2, 0xFFFFFFFFFFFFFFFF];
     let t := s.trp.get h;
     let p := TRP_OBOX_PTR h;
     let tail := s.fget p TRP_OBOX_PTR_TAIL;
     let used := (tail + 65536 - s.fget p TRP_OBOX_PTR_HEAD) % 65536;
     let quiet := t.done = false ∧ t.requal = none ∧ t.rows = [] ∧ s.trp.west.rows = [] ∧ t.commits = [] ∧ swapOpen s
       h = false;
     (quiet) ∧ (t.ran = true) ∧ (t.phase = .idle) ∧ (t.held = [.send ws]) ∧ (32 ≤ used)) ∧
    (let s : State := setF [(TRP_OBOX_PTR .west, TRP_OBOX_PTR_TAIL, 65535),
         (TRP_OBOX_PTR .west, TRP_OBOX_PTR_HEAD, 65504)]
       ({ State.reset with
           trp := State.reset.trp.set .west
             { trpReset with ran := true, oboxSeq := 65535, held := [.send [1, 2, 0xFFFFFFFFFFFFFFFF]] } });
     let h : Half := .west;
     let ws : List (BitVec 64) := [1, 2, 0xFFFFFFFFFFFFFFFF];
     let t := s.trp.get h;
     let p := TRP_OBOX_PTR h;
     let tail := s.fget p TRP_OBOX_PTR_TAIL;
     let used := (tail + 65536 - s.fget p TRP_OBOX_PTR_HEAD) % 65536;
     let quiet := t.done = false ∧ t.requal = none ∧ t.rows = [] ∧ s.trp.west.rows = [] ∧ t.commits = [] ∧ swapOpen s
       h = false;
     (quiet) ∧ (t.ran = true) ∧ (t.phase = .idle) ∧ (t.held = [.send ws]) ∧ (used < 32)) ∧
    (let s : State := { State.reset with
         trp := State.reset.trp.set .west { trpReset with ran := true, held := [.cs RWD.base 0x12345678] } };
     let h : Half := .west;
     let a : Nat := RWD.base;
     let v : Word := 0x12345678;
     let d : RegDesc := RWD;
     let t := s.trp.get h;
     let quiet := t.done = false ∧ t.requal = none ∧ t.rows = [] ∧ s.trp.west.rows = [] ∧ t.commits = [] ∧ swapOpen s
       h = false;
     (quiet) ∧ (t.ran = true) ∧ (t.phase = .idle) ∧ (t.held = [.cs a v]) ∧ (a % 4 = 0) ∧ (plainReg a d = true) ∧
       (decodeAt (.tirop h) a (copyKey h a) = some d) ∧ (reaches s h a = true) ∧ (d.lo64 = false) ∧ (lowOf a = none) ∧
       (d.flds = [⟨0, 32, .rw, 0, false⟩])) ∧
    (let s : State := { State.reset with trp := State.reset.trp.set .west { trpReset with done := true } };
     let h : Half := .west;
     let t := s.trp.get h;
     (t.done = true)) ∧
    (let s : State := State.reset;
     let h : Half := .west;
     let t := s.trp.get h;
     let quiet := t.done = false ∧ t.requal = none ∧ t.rows = [] ∧ s.trp.west.rows = [] ∧ t.commits = [] ∧ swapOpen s
       h = false;
     (quiet) ∧ (t.ran = false)) := by
  refine ⟨?_, ?_, ?_, ?_, ?_, ?_, ?_⟩ <;> dsimp only [mayAct, atInstr, regsCanon] <;> decide +kernel

theorem wit_SamplesCutoffAndBacklog :
    (let s : State := { State.reset with
         trp := State.reset.trp.set .west
           { trpReset with
             hlist := [⟨⟨6, 0, 2, 127, 0, .west, false, 77, 12345678901, 1, 0, 5, none, none⟩, 64, true⟩] } };
     let h : Half := .west;
     let t := s.trp.get h;
     (running t = false) ∧ ((∀ e ∈ t.hlist, e.deferred < 64 ∨ e.told = true))) ∧
    (let s : State := rel ({ State.reset with
           trp := State.reset.trp.set .west
             { trpReset with
               hlist := [⟨⟨6, 0, 2, 127, 0, .west, false, 77, 12345678901, 1, 0, 5, none, none⟩, 64, false⟩,
                   ⟨⟨6, 0, 2, 127, 0, .west, false, 77, 12345678901, 1, 0, 5, none, none⟩, 63, false⟩] } });
     let h : Half := .west;
     let t := s.trp.get h;
     ((∃ e ∈ t.hlist, 64 ≤ e.deferred ∧ e.told = false))) ∧
    (let s : State := rel ({ State.reset with
           trp := State.reset.trp.set .west
             { trpReset with phase := .handler, bc := 300, requal := some (true, 5), held := [.scr 1 2] } });
     let h : Half := .west;
     let rq : Bool × Nat := (true, 5);
     let t := s.trp.get h;
     (running t = true) ∧ (t.requal = some rq) ∧ (holdsGen t = false)) ∧
    (let s : State := rel ({ State.reset with
           trp := State.reset.trp.set .west { trpReset with phase := .handler, bc := 300, held := [.scr 1 2] } });
     let h : Half := .west;
     let t := s.trp.get h;
     (running t = true) ∧ (t.requal = none) ∧ (holdsGen t = false)) := by
  refine ⟨?_, ?_, ?_, ?_⟩ <;> dsimp only [mayAct, atInstr, regsCanon] <;> decide +kernel

theorem wit_BanksAreWrittenAndTakenOver :
    (let s : State := setF [(TRP_CTL .west, TRP_CTL_RUN, 1), (TRP_SWAP_STAT .west, TRP_SWAP_STAT_STATE, 1)];
     let m : Master := .obs .east 1;
     let h : Half := .west;
     let sel : Bool := true;
     let b : Bool := false;
     let i : BitVec 14 := 16383;
     let run := s.fget (TRP_CTL h) TRP_CTL_RUN;
     let cur := s.fget (TRP_CTL h) TRP_CTL_SEL;
     let bank := TRP_BANK h b.toNat i.toNat;
     let pend := s.fget (TRP_SWAP_STAT h) TRP_SWAP_STAT_STATE = 1;
     (mayAct s m (TRP_CTL h)) ∧ (run = 1) ∧ (sel.toNat ≠ cur) ∧ (mayAct s m bank) ∧ ((b.toNat = cur ∨ pend))) ∧
    (let s : State := State.reset;
     let m : Master := .obs .east 1;
     let h : Half := .west;
     let b : Bool := true;
     let i : BitVec 14 := 16383;
     let run := s.fget (TRP_CTL h) TRP_CTL_RUN;
     let bank := TRP_BANK h b.toNat i.toNat;
     (mayAct s m (TRP_CTL h)) ∧ (run = 0) ∧ (mayAct s m bank)) ∧
    (let s : State := setF [(TRP_CTL .west, TRP_CTL_RUN, 1)];
     let m : Master := .obs .east 1;
     let h : Half := .west;
     let sel : Bool := false;
     let b : Bool := true;
     let i : BitVec 14 := 16383;
     let run := s.fget (TRP_CTL h) TRP_CTL_RUN;
     let cur := s.fget (TRP_CTL h) TRP_CTL_SEL;
     let bank := TRP_BANK h b.toNat i.toNat;
     let pend := s.fget (TRP_SWAP_STAT h) TRP_SWAP_STAT_STATE = 1;
     (mayAct s m (TRP_CTL h)) ∧ (run = 1) ∧ (sel.toNat = cur) ∧ (mayAct s m bank) ∧ (b.toNat ≠ cur) ∧ (¬ pend)) ∧
    (let s : State := setW [(TRP_SWAP_AT_LO .west, 1001)]
       (setF [(TRP_CTL .west, TRP_CTL_RUN, 1), (TRP_SWAP_STAT .west, TRP_SWAP_STAT_STATE, 1)]);
     let m : Master := .obs .east 1;
     let h : Half := .west;
     let mode : Bool := true;
     let c := TRP_SWAP_CTL h;
     let a := TRP_SWAP_STAT h;
     let t := s.trp.get h;
     let st (u : State) := u.fget a TRP_SWAP_STAT_STATE;
     let pend := st s = 1;
     let target := if mode then (s.rd64 (TRP_SWAP_AT_LO h) + 999) / 1000 else s.rd64 (TRP_SWAP_AT_LO h);
     let held := s.flag (TRP_STAT h) TRP_STAT_HOLD = true ∨ s.fget (TRP_CTL h) TRP_CTL_RUN = 0;
     let late := t.swapGo = true ∨ (t.sealed = true ∧ s.tn h + 1 = t.swapT);
     (mayAct s m c) ∧ (pend) ∧ (¬ late) ∧ (¬ held) ∧ (s.tn h + 2 ≤ target)) ∧
    (let s : State := setW [(TRP_SWAP_AT_LO .west, 1)] (setF [(TRP_CTL .west, TRP_CTL_RUN, 1)]);
     let m : Master := .obs .east 1;
     let h : Half := .west;
     let mode : Bool := false;
     let c := TRP_SWAP_CTL h;
     let a := TRP_SWAP_STAT h;
     let st (u : State) := u.fget a TRP_SWAP_STAT_STATE;
     let pend := st s = 1;
     let target := if mode then (s.rd64 (TRP_SWAP_AT_LO h) + 999) / 1000 else s.rd64 (TRP_SWAP_AT_LO h);
     let held := s.flag (TRP_STAT h) TRP_STAT_HOLD = true ∨ s.fget (TRP_CTL h) TRP_CTL_RUN = 0;
     (mayAct s m c) ∧ (¬ pend) ∧ (¬ held) ∧ (target < s.tn h + 2)) ∧
    (let s : State := setW [(TRP_SWAP_AT_LO .west, 2)]
       ({ setF [(TRP_CTL .west, TRP_CTL_RUN, 1), (TRP_SWAP_STAT .west, TRP_SWAP_STAT_STATE, 1)] with
           trp := State.reset.trp.set .west { trpReset with swapT := 2, swapGo := true } });
     let m : Master := .obs .east 1;
     let h : Half := .west;
     let c := TRP_SWAP_CTL h;
     let a := TRP_SWAP_STAT h;
     let t := s.trp.get h;
     let st (u : State) := u.fget a TRP_SWAP_STAT_STATE;
     let pend := st s = 1;
     let late := t.swapGo = true ∨ (t.sealed = true ∧ s.tn h + 1 = t.swapT);
     (mayAct s m c) ∧ (pend) ∧ (late)) ∧
    (let s : State := setW [(TRP_SWAP_AT_LO .west, 1001)] (setF [(TRP_CTL .west, TRP_CTL_RUN, 1)]);
     let m : Master := .obs .east 1;
     let h : Half := .west;
     let mode : Bool := true;
     let c := TRP_SWAP_CTL h;
     let a := TRP_SWAP_STAT h;
     let st (u : State) := u.fget a TRP_SWAP_STAT_STATE;
     let pend := st s = 1;
     let target := if mode then (s.rd64 (TRP_SWAP_AT_LO h) + 999) / 1000 else s.rd64 (TRP_SWAP_AT_LO h);
     let held := s.flag (TRP_STAT h) TRP_STAT_HOLD = true ∨ s.fget (TRP_CTL h) TRP_CTL_RUN = 0;
     (mayAct s m c) ∧ (¬ pend) ∧ (¬ held) ∧ (s.tn h + 2 ≤ target)) ∧
    (let s : State := State.reset;
     let m : Master := .obs .east 1;
     let h : Half := .west;
     let c := TRP_SWAP_CTL h;
     let a := TRP_SWAP_STAT h;
     let st (u : State) := u.fget a TRP_SWAP_STAT_STATE;
     let pend := st s = 1;
     let held := s.flag (TRP_STAT h) TRP_STAT_HOLD = true ∨ s.fget (TRP_CTL h) TRP_CTL_RUN = 0;
     (mayAct s m c) ∧ (¬ pend) ∧ (held)) := by
  refine ⟨?_, ?_, ?_, ?_, ?_, ?_, ?_, ?_⟩ <;> dsimp only [mayAct, atInstr, regsCanon] <;> decide +kernel

theorem wit_MsyncFramesAlarmsAndOutbox :
    (let s : State := setF [(TRP_OBOX_PTR .east, TRP_OBOX_PTR_TAIL, 7), (TRP_OBOX_PTR .east, TRP_OBOX_PTR_HEAD, 65535)];
     let h : Half := .east;
     let r := s.mrd.get h;
     let q := MRD_SYNC_STAT h;
     let locked := s.flag q MRD_SYNC_STAT_LOCKED = true;
     let sends := roleOf r = 1 ∨ (roleOf r = 2 ∧ locked);
     ((s.tn h % 1000 ≠ 0 ∨ outEn r = false ∨ s.auth h ≠ h ∨ ¬ sends)) ∧ (roleOf r ≠ 2)) ∧
    (let s : State := { State.reset with mrd := State.reset.mrd.set .east { mrdReset with ctl := 2, good := 6 } };
     let h : Half := .east;
     let tn : Nat := 1000;
     let arr : Nat := (1000 * 1000 * 65536 + 500000);
     let crc : BitVec 8 := (crc8 1000);
     let r := s.mrd.get h;
     let q := MRD_SYNC_STAT h;
     let e : Int := (arr : Int) - r.dly * 4096 - tn * 1000 * 65536;
     let locked := s.flag q MRD_SYNC_STAT_LOCKED = true;
     (roleOf r = 2) ∧ (crc = crc8 tn) ∧ (4 * 65536 < e.natAbs) ∧ ((e.natAbs ≤ 16 * 65536 ∨ ¬ locked)) ∧ (¬ locked)) ∧
    (let s : State := setF [(MRD_SYNC_STAT .east, MRD_SYNC_STAT_LOCKED, 1)]
       (rel ({ State.reset with mrd := State.reset.mrd.set .east { mrdReset with ctl := 2, good := 6 } }));
     let h : Half := .east;
     let tn : Nat := 1000;
     let arr : Nat := (1000 * 1000 * 65536);
     let crc : BitVec 8 := (crc8 1000);
     let r := s.mrd.get h;
     let q := MRD_SYNC_STAT h;
     let e : Int := (arr : Int) - r.dly * 4096 - tn * 1000 * 65536;
     let locked := s.flag q MRD_SYNC_STAT_LOCKED = true;
     (roleOf r = 2) ∧ (crc = crc8 tn) ∧ (e.natAbs ≤ 4 * 65536) ∧ (r.good < 7) ∧ (locked)) ∧
    (let s : State := { State.reset with mrd := State.reset.mrd.set .east { mrdReset with ctl := 2, good := 6 } };
     let h : Half := .east;
     let tn : Nat := 1000;
     let crc : BitVec 8 := (crc8 1000 + 1);
     let r := s.mrd.get h;
     (roleOf r = 2) ∧ (crc ≠ crc8 tn)) ∧
    (let s : State := setF [(MRD_SYNC_STAT .east, MRD_SYNC_STAT_LOCKED, 1)]
       (rel ({ State.reset with mrd := State.reset.mrd.set .east { mrdReset with ctl := 2, good := 6 } }));
     let h : Half := .east;
     let tn : Nat := 1000;
     let arr : Nat := (1000 * 1000 * 65536 + 2000000);
     let crc : BitVec 8 := (crc8 1000);
     let r := s.mrd.get h;
     let q := MRD_SYNC_STAT h;
     let e : Int := (arr : Int) - r.dly * 4096 - tn * 1000 * 65536;
     let locked := s.flag q MRD_SYNC_STAT_LOCKED = true;
     (roleOf r = 2) ∧ (crc = crc8 tn) ∧ (16 * 65536 < e.natAbs) ∧ (locked)) ∧
    (let s : State := { State.reset with mrd := State.reset.mrd.set .east { mrdReset with ctl := 2, good := 7 } };
     let h : Half := .east;
     let tn : Nat := 1000;
     let arr : Nat := (1000 * 1000 * 65536);
     let crc : BitVec 8 := (crc8 1000);
     let r := s.mrd.get h;
     let e : Int := (arr : Int) - r.dly * 4096 - tn * 1000 * 65536;
     (roleOf r = 2) ∧ (crc = crc8 tn) ∧ (e.natAbs ≤ 4 * 65536) ∧ (7 ≤ r.good)) ∧
    (let s : State := { State.reset with mrd := State.reset.mrd.set .east { mrdReset with ctl := 9, good := 6 } };
     let h : Half := .east;
     let r := s.mrd.get h;
     let q := MRD_SYNC_STAT h;
     let locked := s.flag q MRD_SYNC_STAT_LOCKED = true;
     let sends := roleOf r = 1 ∨ (roleOf r = 2 ∧ locked);
     (s.tn h % 1000 = 0) ∧ (outEn r = true) ∧ (s.auth h = h) ∧ (sends)) ∧
    (let s : State := setF [(TRP_OBOX_PTR .east, TRP_OBOX_PTR_TAIL, 7), (TRP_OBOX_PTR .east, TRP_OBOX_PTR_HEAD, 65535)];
     let m : Master := .obs .east 1;
     let h : Half := .east;
     let a : BitVec 5 := 31;
     let v : Word := 0x00080000;
     let p := TRP_OBOX_PTR h;
     let hd := s.fget p TRP_OBOX_PTR_HEAD;
     let ahead := (fldGet v TRP_OBOX_PTR_HEAD + 65536 - hd) % 65536;
     let room := (s.fget p TRP_OBOX_PTR_TAIL + 65536 - hd) % 65536;
     let t := s.trp.get h;
     (mfind t.alarms a.toNat = none) ∧ (mayAct s m p) ∧ (ahead ≤ room)) ∧
    (let s : State := setF [(TRP_OBOX_PTR .east, TRP_OBOX_PTR_TAIL, 7), (TRP_OBOX_PTR .east, TRP_OBOX_PTR_HEAD, 65535)];
     let m : Master := .obs .east 1;
     let h : Half := .east;
     let v : Word := 8;
     let p := TRP_OBOX_PTR h;
     let hd := s.fget p TRP_OBOX_PTR_HEAD;
     let ahead := (fldGet v TRP_OBOX_PTR_HEAD + 65536 - hd) % 65536;
     let room := (s.fget p TRP_OBOX_PTR_TAIL + 65536 - hd) % 65536;
     (mayAct s m p) ∧ (room < ahead)) ∧
    (let s : State := setW [(MRD_TN_LO .west, 5), (TRP_ALARM_ARM .west, 0xFFFFFFFF)]
       ({ State.reset with trp := State.reset.trp.set .west { trpReset with alarms := [(3, 5), (31, 5)] } });
     let h : Half := .west;
     let a : BitVec 5 := 31;
     let k : Nat := 5;
     let t := s.trp.get h;
     let due := k ≤ s.tn h ∨ (k = s.tn h + 1 ∧ t.sealed = true);
     (mfind t.alarms a.toNat = some k) ∧ (due)) ∧
    (let s : State := { State.reset with
         trp := State.reset.trp.set .west { trpReset with alarms := [(3, 5), (31, 5)] } };
     let h : Half := .west;
     let a : BitVec 5 := 31;
     let k : Nat := 5;
     let t := s.trp.get h;
     let due := k ≤ s.tn h ∨ (k = s.tn h + 1 ∧ t.sealed = true);
     (mfind t.alarms a.toNat = some k) ∧ (¬ due)) := by
  refine ⟨?_, ?_, ?_, ?_, ?_, ?_, ?_, ?_, ?_, ?_, ?_⟩ <;> dsimp only [mayAct, atInstr, regsCanon] <;> decide +kernel

theorem wit_PortsTrainAndGoDown :
    (let s : State := setF [(PRT_CFG 31, PRT_CFG_MODE, 2), (PRT_CFG 31, PRT_CFG_EN, 1)] (State.reset);
     let m : Master := .obs .west 1;
     let p : BitVec 5 := 31;
     let k : BitVec 2 := 3;
     let v : Word := 0x48;
     let rate : Nat := 5;
     let P := p.toNat;
     let K := k.toNat;
     let d := subNode P K;
     let cfg := PRT_CFG P;
     let same := (s.rd cfg &&& 0xCC) = (v &&& 0xCC);
     (mayAct s m cfg) ∧ (s.flag cfg PRT_CFG_EN = true) ∧ (same) ∧ (mayAct s m (PRT_LNK_CTL P K)) ∧
       (s.flag (PRT_LNK_CTL P K) PRT_LNK_CTL_DISABLE = false) ∧ (inService s d = false) ∧ (mayTrain s d = true) ∧
       (linkUp s d = false) ∧ (linkPm s d ≠ pmL1) ∧ (linkPm s d ≠ pmRECOV) ∧
       (s.flag (PRT_LNK_CTL P K) PRT_LNK_CTL_COMPL = false) ∧ (5 ≤ min rate (maxRate s P)) ∧
       (min rate (maxRate s P) < 16) ∧ (minWidth s P ≤ subLanes s P) ∧ ((∀ i, i < 16 → laneFailed s P i = false))) ∧
    (let s : State := State.reset;
     let m : Master := .obs .west 1;
     let p : BitVec 5 := 31;
     let v : Word := 0xFFFFFF73;
     let P := p.toNat;
     let cfg := PRT_CFG P;
     let same := (s.rd cfg &&& 0xCC) = (v &&& 0xCC);
     (mayAct s m cfg) ∧ (s.flag cfg PRT_CFG_EN = false) ∧ (same) ∧
       (reserveTotal (s.wr cfg ((v ||| 1) &&& 0xF7FC)) P ≤ 8192)) := by
  refine ⟨?_, ?_⟩ <;> dsimp only [mayAct, atInstr, regsCanon] <;> decide +kernel

theorem wit_LinkControlWrites :
    (let s : State := setF [(PRT_CFG 31, PRT_CFG_MODE, 2), (PRT_CFG 31, PRT_CFG_EN, 1),
         (PRT_LNK_STAT 31 3, PRT_LNK_STAT_RATE, 6), (PRT_LNK_STAT 31 3, PRT_LNK_STAT_PM, 2),
         (PRT_LNK_STAT 31 3, PRT_LNK_STAT_TWIDTH, 4), (PRT_LNK_STAT 31 3, PRT_LNK_STAT_AWIDTH, 4),
         (PRT_CFG 31, PRT_CFG_L0P_EN, 1), (PRT_CFG 31, PRT_CFG_L1_EN, 1)]
       ({ State.reset with subs := [(127, { subReset with reached := true, l0pOk := true, heldRetrain := true })] });
     let m : Master := .obs .west 1;
     let p : BitVec 5 := 31;
     let k : BitVec 2 := 3;
     let w : BitVec 3 := 2;
     let P := p.toNat;
     let K := k.toNat;
     let d := subNode P K;
     let c := PRT_LNK_CTL P K;
     let x := s.sub d;
     let fits := l0pFits (s.fset c PRT_LNK_CTL_L0P_W w.toNat) P K;
     (mayAct s m c) ∧ (s.rd c &&& 0xF1 = s.rd c) ∧ (x.reached = true) ∧ (x.change = false) ∧ (linkUp s d = true) ∧
       (l0pMay s P K = true) ∧ (s.fget c PRT_LNK_CTL_L0P_W ≠ w.toNat) ∧ (fits ≠ 0) ∧
       (fits ≠ s.fget (PRT_LNK_STAT P K) PRT_LNK_STAT_AWIDTH) ∧ (x.heldRetrain = true)) ∧
    (let s : State := setF [(PRT_CFG 31, PRT_CFG_MODE, 2), (PRT_CFG 31, PRT_CFG_EN, 1),
         (PRT_LNK_STAT 31 3, PRT_LNK_STAT_RATE, 6), (PRT_LNK_STAT 31 3, PRT_LNK_STAT_PM, 2),
         (PRT_LNK_STAT 31 3, PRT_LNK_STAT_TWIDTH, 4), (PRT_LNK_STAT 31 3, PRT_LNK_STAT_AWIDTH, 4),
         (PRT_CFG 31, PRT_CFG_L0P_EN, 1), (PRT_CFG 31, PRT_CFG_L1_EN, 1)]
       ({ State.reset with subs := [(127, { subReset with reached := true, l0pOk := true, change := true })] });
     let m : Master := .obs .west 1;
     let p : BitVec 5 := 31;
     let k : BitVec 2 := 3;
     let P := p.toNat;
     let K := k.toNat;
     let d := subNode P K;
     let c := PRT_LNK_CTL P K;
     let x := s.sub d;
     (mayAct s m c) ∧ (s.rd c &&& 0xF1 = s.rd c) ∧ (x.reached = true) ∧ (x.change = true)) := by
  refine ⟨?_, ?_⟩ <;> dsimp only [mayAct, atInstr, regsCanon] <;> decide +kernel

theorem wit_LinkStatesMove :
    (let s : State := setF [(PRT_CFG 31, PRT_CFG_MODE, 2), (PRT_CFG 31, PRT_CFG_EN, 1),
         (PRT_LNK_STAT 31 3, PRT_LNK_STAT_RATE, 6), (PRT_LNK_STAT 31 3, PRT_LNK_STAT_PM, 2),
         (PRT_LNK_STAT 31 3, PRT_LNK_STAT_TWIDTH, 4), (PRT_LNK_STAT 31 3, PRT_LNK_STAT_AWIDTH, 4),
         (PRT_CFG 31, PRT_CFG_L0P_EN, 1), (PRT_CFG 31, PRT_CFG_L1_EN, 1), (PRT_CFG 31, PRT_CFG_MAXRATE, 2)]
       ({ State.reset with
           subs := [(127, { subReset with reached := true, l0pOk := true, rateTo := some 4 })],
           dome := { State.reset.dome with promo := 2 ^ 31 } });
     let m : Master := .obs .west 1;
     let p : BitVec 5 := 31;
     let k : BitVec 2 := 3;
     let w : Nat := 2;
     let tn : Nat := 4;
     let P := p.toNat;
     let K := k.toNat;
     let d := subNode P K;
     let st := PRT_LNK_STAT P K;
     let x := s.sub d;
     let tw := s.fget st PRT_LNK_STAT_TWIDTH;
     (linkUp s d = true) ∧ (s.flag (PRT_CFG P) PRT_CFG_L1_EN = true) ∧ (x.change = false) ∧ (inService s d = true) ∧
       (linkPm s d ≠ pmRECOV) ∧ (x.ask = none) ∧ (l0pMay s P K = true) ∧ (w ∈ [1, 2, 4, 8, 16]) ∧ (w ≤ tw) ∧
       (lanesOk s P K w (s.flag st PRT_LNK_STAT_REV) = true) ∧ (x.rateTo = some tn) ∧
       (s.fget (PRT_TAG_STAT P K) PRT_TAG_STAT_LIVE = 0) ∧ (s.fget st PRT_LNK_STAT_RATE < maxRate s P) ∧
       (mayAct s m MRD_PROMOTE) ∧ (finderOnly s = false)) ∧
    (let s : State := setF [(PRT_CFG 31, PRT_CFG_MODE, 2), (PRT_CFG 31, PRT_CFG_EN, 1),
         (PRT_LNK_STAT 31 3, PRT_LNK_STAT_RATE, 6), (PRT_LNK_STAT 31 3, PRT_LNK_STAT_PM, 2),
         (PRT_LNK_STAT 31 3, PRT_LNK_STAT_TWIDTH, 4), (PRT_LNK_STAT 31 3, PRT_LNK_STAT_AWIDTH, 4),
         (PRT_CFG 31, PRT_CFG_L0P_EN, 1), (PRT_CFG 31, PRT_CFG_L1_EN, 1), (PRT_CFG 31, PRT_CFG_ROLE, 3)]
       ({ State.reset with
           subs := [(127,
                 { subReset with reached := true, l0pOk := true, ask := some .width, l0pTo := some 2, change := true })] });
     let p : BitVec 5 := 31;
     let k : BitVec 2 := 3;
     let w : Nat := 2;
     let why : Option LinkAsk := some .rate;
     let P := p.toNat;
     let K := k.toNat;
     let d := subNode P K;
     let x := s.sub d;
     (x.l0pTo = some w) ∧ (w < 32) ∧ (linkUp s d = true) ∧ (inService s d = true) ∧ (linkPm s d ≠ pmRECOV) ∧
       (x.ask = some .width) ∧ ((why = none ∨ givesWay s P = true))) ∧
    (let s : State := setF [(PRT_CFG 31, PRT_CFG_MODE, 2), (PRT_CFG 31, PRT_CFG_EN, 1),
         (PRT_LNK_STAT 31 3, PRT_LNK_STAT_RATE, 6), (PRT_LNK_STAT 31 3, PRT_LNK_STAT_PM, 2),
         (PRT_LNK_STAT 31 3, PRT_LNK_STAT_TWIDTH, 4), (PRT_LNK_STAT 31 3, PRT_LNK_STAT_AWIDTH, 4),
         (PRT_CFG 31, PRT_CFG_L0P_EN, 1), (PRT_CFG 31, PRT_CFG_L1_EN, 1), (PRT_CFG 31, PRT_CFG_ROLE, 0)]
       ({ State.reset with
           subs := [(127,
                 { subReset with reached := true, l0pOk := true, ask := some .width, l0pTo := some 2, change := true })] });
     let p : BitVec 5 := 31;
     let k : BitVec 2 := 3;
     let why : Option LinkAsk := some .reeq;
     let P := p.toNat;
     let K := k.toNat;
     let d := subNode P K;
     let x := s.sub d;
     (x.ask = some .width) ∧ ((why = some .rate ∨ why = some .reeq)) ∧ (givesWay s P = false)) ∧
    (let s : State := setF [(PRT_CFG 31, PRT_CFG_MODE, 2), (PRT_CFG 31, PRT_CFG_EN, 1),
         (PRT_LNK_STAT 31 3, PRT_LNK_STAT_RATE, 6), (PRT_LNK_STAT 31 3, PRT_LNK_STAT_PM, 2),
         (PRT_LNK_STAT 31 3, PRT_LNK_STAT_TWIDTH, 4), (PRT_LNK_STAT 31 3, PRT_LNK_STAT_AWIDTH, 4),
         (PRT_CFG 31, PRT_CFG_L0P_EN, 1), (PRT_CFG 31, PRT_CFG_L1_EN, 1), (PRT_LNK_CTL 31 3, PRT_LNK_CTL_L0P_W, 1),
         (MRD_TN_LO .west, ⟨0, 32, .ro, 0, false⟩, 5)]
       ({ State.reset with
           subs := [(127, { subReset with reached := true, l0pOk := true, withdrawn := [(4, .width)] })] });
     let p : BitVec 5 := 31;
     let k : BitVec 2 := 3;
     let tn : Nat := 4;
     let rest : List (Nat × LinkAsk) := [];
     let P := p.toNat;
     let K := k.toNat;
     let d := subNode P K;
     let st := PRT_LNK_STAT P K;
     let x := s.sub d;
     let aw := s.fget st PRT_LNK_STAT_AWIDTH;
     (x.withdrawn = (tn, .width) :: rest) ∧ (tn < s.tn (nodeHalf d)) ∧ (linkUp s d = true) ∧ (x.change = false) ∧
       (l0pMay s P K = true) ∧ (l0pFits s P K ≠ 0) ∧ (l0pFits s P K ≠ aw)) ∧
    (let s : State := setF [(PRT_CFG 31, PRT_CFG_MODE, 2), (PRT_CFG 31, PRT_CFG_EN, 1),
         (PRT_LNK_STAT 31 3, PRT_LNK_STAT_RATE, 6), (PRT_LNK_STAT 31 3, PRT_LNK_STAT_PM, 4),
         (PRT_LNK_STAT 31 3, PRT_LNK_STAT_TWIDTH, 4), (PRT_LNK_STAT 31 3, PRT_LNK_STAT_AWIDTH, 4),
         (PRT_CFG 31, PRT_CFG_L0P_EN, 1), (PRT_CFG 31, PRT_CFG_L1_EN, 1)]
       ({ State.reset with subs := [(127, { subReset with reached := true, l0pOk := true })] });
     let p : BitVec 5 := 31;
     let k : BitVec 2 := 3;
     let P := p.toNat;
     let K := k.toNat;
     let d := subNode P K;
     (linkPm s d = pmL1)) := by
  refine ⟨?_, ?_, ?_, ?_, ?_⟩ <;> dsimp only [mayAct, atInstr, regsCanon] <;> decide +kernel

theorem wit_LanesReferencesAndEye :
    (let s : State := setF [(PRT_CFG 31, PRT_CFG_MODE, 2), (PRT_CFG 31, PRT_CFG_EN, 1),
         (PRT_LNK_STAT 31 3, PRT_LNK_STAT_RATE, 6), (PRT_LNK_STAT 31 3, PRT_LNK_STAT_PM, 2),
         (PRT_LNK_STAT 31 3, PRT_LNK_STAT_TWIDTH, 4), (PRT_LNK_STAT 31 3, PRT_LNK_STAT_AWIDTH, 4),
         (PRT_CFG 31, PRT_CFG_L0P_EN, 1), (PRT_CFG 31, PRT_CFG_L1_EN, 1)]
       ({ State.reset with subs := [(127, { subReset with reached := true, l0pOk := true })] });
     let m : Master := .obs .west 1;
     let p : BitVec 5 := 31;
     let n : BitVec 4 := 15;
     let cm1 : BitVec 6 := 12;
     let c0 : BitVec 6 := 36;
     let cp1 : BitVec 6 := 0;
     let v : Word := 0x14005F0F;
     let why : Nat := 5;
     let rate : Nat := 5;
     let c : Nat := 9;
     let r : BitVec 1 := 0;
     let P := p.toNat;
     let N := n.toNat;
     let ec := PRT_EYE_CTL P;
     let es := PRT_EYE_STAT P;
     let valid := cm1.toNat ≤ 12 ∧ cp1.toNat ≤ 18 ∧ cm1.toNat + c0.toNat + cp1.toNat = 48 ∧ cm1.toNat + cp1.toNat + 12
       ≤ c0.toNat;
     let d := subNode P (laneSub s P N);
     let thr := s.fget (PRT_LANE_THR P) PRT_LANE_THR_THR;
     let w := (v ||| 0x80000000) &&& 0xBFFFFFFF &&& 0x3FFFFF0F;
     let act := s.fget MRD_REF_STAT MRD_REF_STAT_ACTIVE;
     (laneFailed s P N = false) ∧ (linkUp s d = true) ∧ (corrected s d N + c ≤ thr) ∧ (valid) ∧
       ((linkUp s d = true ∨ rate ≤ (s.sub d).eqRate)) ∧ (r.toNat = act ∨ refOk s act = true) ∧ (mayAct s m ec) ∧
       (s.fget es PRT_EYE_STAT_STATE ≠ 1) ∧ (eyeRefusal (s.wr ec w) P = some why) ∧ (why < 16)) ∧
    (let s : State := setF [(PRT_EYE_STAT 31, PRT_EYE_STAT_STATE, 1), (PRT_EYE_CTL 31, PRT_EYE_CTL_LIMIT, 40)];
     let m : Master := .obs .west 1;
     let p : BitVec 5 := 31;
     let P := p.toNat;
     let ec := PRT_EYE_CTL P;
     let es := PRT_EYE_STAT P;
     (mayAct s m (PRT_LANE_CLR P)) ∧
       ((∀ k, k < 4 → inService s (subNode P k) = false ∧ (s.sub (subNode P k)).reached = false)) ∧ (mayAct s m ec) ∧
       (s.fget es PRT_EYE_STAT_STATE = 1)) ∧
    (let s : State := setF [(PRT_CFG 31, PRT_CFG_MODE, 2), (PRT_CFG 31, PRT_CFG_EN, 1),
         (PRT_LNK_STAT 31 3, PRT_LNK_STAT_RATE, 6), (PRT_LNK_STAT 31 3, PRT_LNK_STAT_PM, 2),
         (PRT_LNK_STAT 31 3, PRT_LNK_STAT_TWIDTH, 4), (PRT_LNK_STAT 31 3, PRT_LNK_STAT_AWIDTH, 4),
         (PRT_CFG 31, PRT_CFG_L0P_EN, 1), (PRT_CFG 31, PRT_CFG_L1_EN, 1)]
       ({ State.reset with subs := [(127, { subReset with reached := true, l0pOk := true })] });
     let m : Master := .obs .west 1;
     let p : BitVec 5 := 31;
     let v : Word := 0x2800200F;
     let P := p.toNat;
     let ec := PRT_EYE_CTL P;
     let es := PRT_EYE_STAT P;
     let w := (v ||| 0x80000000) &&& 0xBFFFFFFF &&& 0x3FFFFF0F;
     (mayAct s m ec) ∧ (s.fget es PRT_EYE_STAT_STATE ≠ 1) ∧ (eyeRefusal (s.wr ec w) P = none)) ∧
    (let s : State := setF [(MRD_REF_STAT, MRD_REF_STAT_B_OK, 1), (MRD_REF_STAT, MRD_REF_STAT_A_OK, 1),
         (MRD_REF_STAT, MRD_REF_STAT_ACTIVE, 1)];
     let r : BitVec 1 := 1;
     (s.fget MRD_REF_STAT MRD_REF_STAT_ACTIVE = r.toNat) ∧ (refOk s (1 - r.toNat) = true)) ∧
    (let s : State := State.reset;
     let r : BitVec 1 := 1;
     let act := s.fget MRD_REF_STAT MRD_REF_STAT_ACTIVE;
     (r.toNat ≠ act) ∧ (refOk s act = false)) ∧
    (let s : State := setF [(PRT_CFG 31, PRT_CFG_MODE, 2), (PRT_CFG 31, PRT_CFG_EN, 1),
         (PRT_LNK_STAT 31 3, PRT_LNK_STAT_RATE, 6), (PRT_LNK_STAT 31 3, PRT_LNK_STAT_PM, 2),
         (PRT_LNK_STAT 31 3, PRT_LNK_STAT_TWIDTH, 4), (PRT_LNK_STAT 31 3, PRT_LNK_STAT_AWIDTH, 4),
         (PRT_CFG 31, PRT_CFG_L0P_EN, 1), (PRT_CFG 31, PRT_CFG_L1_EN, 1)]
       ({ State.reset with subs := [(127, { subReset with reached := true, l0pOk := true })] });
     let p : BitVec 5 := 31;
     let n : BitVec 4 := 15;
     let cm1 : BitVec 6 := 13;
     let c0 : BitVec 6 := 36;
     let cp1 : BitVec 6 := 0;
     let rate : Nat := 5;
     let P := p.toNat;
     let N := n.toNat;
     let valid := cm1.toNat ≤ 12 ∧ cp1.toNat ≤ 18 ∧ cm1.toNat + c0.toNat + cp1.toNat = 48 ∧ cm1.toNat + cp1.toNat + 12
       ≤ c0.toNat;
     let d := subNode P (laneSub s P N);
     (¬ valid) ∧ ((linkUp s d = true ∨ rate ≤ (s.sub d).eqRate))) ∧
    (let s : State := setF [(PRT_CFG 31, PRT_CFG_MODE, 2), (PRT_CFG 31, PRT_CFG_EN, 1),
         (PRT_LNK_STAT 31 3, PRT_LNK_STAT_RATE, 6), (PRT_LNK_STAT 31 3, PRT_LNK_STAT_PM, 2),
         (PRT_LNK_STAT 31 3, PRT_LNK_STAT_TWIDTH, 4), (PRT_LNK_STAT 31 3, PRT_LNK_STAT_AWIDTH, 4),
         (PRT_CFG 31, PRT_CFG_L0P_EN, 1), (PRT_CFG 31, PRT_CFG_L1_EN, 1), (PRT_LANE_THR 31, PRT_LANE_THR_THR, 8)]
       ({ State.reset with subs := [(127, { subReset with reached := true, l0pOk := true })] });
     let p : BitVec 5 := 31;
     let n : BitVec 4 := 15;
     let c : Nat := 9;
     let P := p.toNat;
     let N := n.toNat;
     let d := subNode P (laneSub s P N);
     let thr := s.fget (PRT_LANE_THR P) PRT_LANE_THR_THR;
     (laneFailed s P N = false) ∧ (linkUp s d = true) ∧ (thr < corrected s d N + c)) := by
  refine ⟨?_, ?_, ?_, ?_, ?_, ?_, ?_⟩ <;> dsimp only [mayAct, atInstr, regsCanon] <;> decide +kernel

theorem wit_RequestsAreAnsweredOrForwarded :
    (let s : State := setF [(PRT_CFG 31, PRT_CFG_MODE, 2), (PRT_CFG 31, PRT_CFG_EN, 1),
         (PRT_LNK_STAT 31 3, PRT_LNK_STAT_PM, 2), (PRT_CFG 17, PRT_CFG_MODE, 2),
         (PRT_LNK_STAT 17 2, PRT_LNK_STAT_PM, 3)]
       ({ State.reset with binds := State.reset.binds.set .west ⟨[(33, 127)], [(vpKey 33 5, ⟨none, 3, false⟩)], []⟩ });
     let p : BitVec 5 := 31;
     let k : BitVec 2 := 3;
     let r : ReqIn := ⟨.cfgRd, 513, 0, .cfgBelow 5 7 4095 false, 64, 2 ^ 512 - 1, false, .s, .none, 3, 5, false,
         false, false, 7⟩;
     let tn : Nat := 33;
     let v : Nat := 5;
     let fn : Nat := 7;
     let off : Nat := 4095;
     let n : Nat := 3;
     let dec : Bool := false;
     let d := subNode p.toNat k.toNat;
     let h := nodeHalf d;
     let goes := r.unsupported = false ∧ ideOpen s d = true ∧ cxlDevice s d = true ∧ reqTenant s d r = some tn ∧
       inReset s tn = false;
     (linkUp s d = true) ∧ (isRsp r.op = false) ∧ (goes) ∧ ((r.op = .cfgRd ∨ r.op = .cfgWr)) ∧
       (r.tgt = .cfgBelow v fn off dec) ∧ (v ≠ 0) ∧ (vppbNode s h tn v = some n) ∧ (n < 128) ∧
       ((nodeHalf n = h ∨ s.phase h = phUP)) ∧ (dec = false) ∧ (r.data < 2 ^ (8 * r.len))) ∧
    (let s : State := rule .west 0 0 0x8C0
       (setF [(PRT_CFG 31, PRT_CFG_MODE, 2), (PRT_CFG 31, PRT_CFG_EN, 1), (PRT_LNK_STAT 31 3, PRT_LNK_STAT_PM, 2),
           (PRT_CFG 17, PRT_CFG_MODE, 2), (PRT_LNK_STAT 17 2, PRT_LNK_STAT_PM, 3)]
         ({ State.reset with
             binds := State.reset.binds.set .west ⟨[(33, 127)], [(vpKey 33 5, ⟨none, 70, false⟩)], []⟩ }));
     let p : BitVec 5 := 31;
     let k : BitVec 2 := 3;
     let r : ReqIn := ⟨.memRd, 513, 0, .pieces [⟨0, 0x8C0, 2 ^ 40 - 64⟩], 64, 0xABCD, false, .s, .none, 3, 5, false,
         false, false, 7⟩;
     let tn : Nat := 33;
     let pc : Piece := ⟨0, 0x8C0, 2 ^ 40 - 64⟩;
     let d := subNode p.toNat k.toNat;
     let h := nodeHalf d;
     let asks := [(pc, pieceNeed s (rawMsg s d tn r) pc)];
     let goes := r.unsupported = false ∧ ideOpen s d = true ∧ cxlDevice s d = true ∧ reqTenant s d r = some tn ∧
       inReset s tn = false;
     let mem := r.tgt = .pieces [pc] ∧ pc.kind = 0 ∧ pieceWin s pc = none ∧ pieceBound s h tn pc = true ∧ cxlDevice s
       (memSub pc.idx) = true;
     (linkUp s d = true) ∧ (isRsp r.op = false) ∧ (goes) ∧ (mem) ∧ (opIsIo r.op = false) ∧ (r.op ≠ .mctp) ∧
       (reqDenied s h tn asks = none) ∧ (extMissed s h tn r.op r.len [pc] = none) ∧
       (pieceCut s h tn r.op r.len pc = false)) ∧
    (let s : State := setF [(PRT_CFG 31, PRT_CFG_MODE, 2), (PRT_CFG 31, PRT_CFG_EN, 1),
         (PRT_LNK_STAT 31 3, PRT_LNK_STAT_PM, 2), (PRT_CFG 17, PRT_CFG_MODE, 2),
         (PRT_LNK_STAT 17 2, PRT_LNK_STAT_PM, 3)]
       ({ State.reset with binds := State.reset.binds.set .west ⟨[(33, 127)], [(vpKey 33 5, ⟨none, 70, false⟩)], []⟩ });
     let p : BitVec 5 := 31;
     let k : BitVec 2 := 3;
     let r : ReqIn := ⟨.memRd, 513, 0, .pieces [⟨0, 0x8C0, 2 ^ 40 - 64⟩], 64, 0xABCD, false, .s, .none, 3, 5, false,
         false, false, 7⟩;
     let tn : Nat := 33;
     let pc : Piece := ⟨0, 0x8C0, 2 ^ 40 - 64⟩;
     let d := subNode p.toNat k.toNat;
     let h := nodeHalf d;
     let asks := [(pc, pieceNeed s (rawMsg s d tn r) pc)];
     let goes := r.unsupported = false ∧ ideOpen s d = true ∧ cxlDevice s d = true ∧ reqTenant s d r = some tn ∧
       inReset s tn = false;
     let mem := r.tgt = .pieces [pc] ∧ pc.kind = 0 ∧ pieceWin s pc = none ∧ pieceBound s h tn pc = true ∧ cxlDevice s
       (memSub pc.idx) = true;
     (linkUp s d = true) ∧ (isRsp r.op = false) ∧ (goes) ∧ (mem) ∧ (r.op = .memRd) ∧ (r.snp = .none) ∧
       (hostGone s tn d = false) ∧ (reqDenied s h tn asks ≠ none)) ∧
    (let s : State := setF [(PRT_CFG 31, PRT_CFG_MODE, 2), (PRT_CFG 31, PRT_CFG_EN, 1),
         (PRT_LNK_STAT 31 3, PRT_LNK_STAT_PM, 2), (PRT_CFG 17, PRT_CFG_MODE, 2),
         (PRT_LNK_STAT 17 2, PRT_LNK_STAT_PM, 3)]
       ({ State.reset with binds := State.reset.binds.set .west ⟨[(33, 127)], [(vpKey 33 5, ⟨none, 70, false⟩)], []⟩ });
     let p : BitVec 5 := 31;
     let k : BitVec 2 := 3;
     let r : ReqIn := ⟨.cfgRd, 513, 0, .cfgVppb 0 0, 4, 0xABCD, false, .s, .none, 3, 5, false, false, false, 7⟩;
     let tn : Nat := 33;
     let v : Nat := 0;
     let d := subNode p.toNat k.toNat;
     let goes := r.unsupported = false ∧ ideOpen s d = true ∧ cxlDevice s d = true ∧ reqTenant s d r = some tn ∧
       inReset s tn = false;
     (linkUp s d = true) ∧ (isRsp r.op = false) ∧ (goes) ∧ (r.op = .cfgRd) ∧ (r.tgt = .cfgVppb v 0) ∧ (v ≤ 32) ∧
       (r.len = 4)) ∧
    (let s : State := setF [(PRT_CFG 31, PRT_CFG_MODE, 2), (PRT_CFG 31, PRT_CFG_EN, 1),
         (PRT_LNK_STAT 31 3, PRT_LNK_STAT_PM, 2), (PRT_CFG 17, PRT_CFG_MODE, 2),
         (PRT_LNK_STAT 17 2, PRT_LNK_STAT_PM, 3)]
       ({ State.reset with binds := State.reset.binds.set .west ⟨[(33, 127)], [(vpKey 33 5, ⟨none, 70, false⟩)], []⟩ });
     let p : BitVec 5 := 31;
     let k : BitVec 2 := 3;
     let r : ReqIn := ⟨.memRd, 513, 0, .none, 64, 0xABCD, false, .s, .none, 3, 5, false, false, true, 7⟩;
     let d := subNode p.toNat k.toNat;
     (linkUp s d = true) ∧ (isRsp r.op = false) ∧ (r.unsupported = true) ∧ (nonPosted r.op = true)) := by
  refine ⟨?_, ?_, ?_, ?_, ?_⟩ <;> dsimp only [mayAct, atInstr, regsCanon] <;> decide +kernel

theorem wit_MessagesLeaveAtEgress :
    (let s : State := setF [(PRT_CFG 31, PRT_CFG_MODE, 2), (PRT_CFG 31, PRT_CFG_EN, 1),
         (PRT_LNK_STAT 31 3, PRT_LNK_STAT_PM, 2), (PRT_CFG 17, PRT_CFG_MODE, 2),
         (PRT_LNK_STAT 17 2, PRT_LNK_STAT_PM, 3)]
       ({ State.reset with
           binds := State.reset.binds.set .west ⟨[(33, 127)], [(vpKey 33 5, ⟨none, 70, false⟩)], []⟩,
           core := State.reset.core.set .west { coreReset with egr := [(63 * 9 + 3, [(3, 4)])] },
           net := { netReset with
               msgs := [(3,
                     { blankMsg .memRd 70 127 513 33 3 with tgt := ⟨0, 0x8C0, 2 ^ 40⟩, len := 64, data := 0xABCD })],
               next := 9,
               tags := (List.range 8192).map fun i =>
                 (31 * 8192 + i,
                   ⟨{ blankMsg .memRd 70 127 513 33 3 with tgt := ⟨0, 0x8C0, 2 ^ 40⟩, len := 64, data := 0xABCD },
                       127, 5, 64000, none, 64, false⟩) } });
     let p : BitVec 5 := 31;
     let k : BitVec 2 := 3;
     let cls : Nat := 3;
     let n : Nat := 3;
     let m : Msg := { blankMsg .memRd 70 127 513 33 3 with tgt := ⟨0, 0x8C0, 2 ^ 40⟩, len := 64, data := 0xABCD };
     let P := p.toNat;
     let d := subNode P k.toNat;
     let fits := (s.sub d).unacked + flitsOf m ≤ replayShare s d;
     let asks := m.src < 128 ∧ m.tgt.kind ≠ 9 ∧ isRsp m.op = false ∧ nonPosted m.op = true;
     (egressHead s d cls = some (n, m)) ∧ (linkUp s d = true) ∧ (m.itag = none) ∧ (fits) ∧ (asks) ∧
       (tagFree s d m.op = false)) ∧
    (let s : State := setF [(PRT_CFG 31, PRT_CFG_MODE, 2), (PRT_CFG 31, PRT_CFG_EN, 1),
         (PRT_LNK_STAT 31 3, PRT_LNK_STAT_PM, 2), (PRT_CFG 17, PRT_CFG_MODE, 2),
         (PRT_LNK_STAT 17 2, PRT_LNK_STAT_PM, 3)]
       ({ State.reset with
           binds := State.reset.binds.set .west ⟨[(33, 127)], [(vpKey 33 5, ⟨none, 70, false⟩)], []⟩,
           core := State.reset.core.set .west { coreReset with egr := [(63 * 9 + 3, [(3, 4)])] },
           net := { netReset with
               msgs := [(3,
                     { blankMsg .mWr 70 127 513 33 3 with tgt := ⟨0, 0x8C0, 2 ^ 40⟩, len := 64, data := 0xABCD })],
               next := 9 } });
     let p : BitVec 5 := 31;
     let k : BitVec 2 := 3;
     let cls : Nat := 3;
     let n : Nat := 3;
     let m : Msg := { blankMsg .mWr 70 127 513 33 3 with tgt := ⟨0, 0x8C0, 2 ^ 40⟩, len := 64, data := 0xABCD };
     let P := p.toNat;
     let d := subNode P k.toNat;
     let fits := (s.sub d).unacked + flitsOf m ≤ replayShare s d;
     (egressHead s d cls = some (n, m)) ∧ (linkUp s d = true) ∧ (m.itag = none) ∧ (fits) ∧ (m.src < 128) ∧
       (m.tgt.kind ≠ 9) ∧ (m.tgt.kind ≠ 10) ∧ (isRsp m.op = false) ∧ (nonPosted m.op = false)) ∧
    (let s : State := setF [(PRT_CFG 31, PRT_CFG_MODE, 2), (PRT_CFG 31, PRT_CFG_EN, 1),
         (PRT_LNK_STAT 31 3, PRT_LNK_STAT_PM, 2), (PRT_CFG 17, PRT_CFG_MODE, 2),
         (PRT_LNK_STAT 17 2, PRT_LNK_STAT_PM, 3)]
       ({ State.reset with
           binds := State.reset.binds.set .west ⟨[(33, 127)], [(vpKey 33 5, ⟨none, 70, false⟩)], []⟩,
           core := State.reset.core.set .west { coreReset with egr := [(63 * 9 + 3, [(3, 4)])] },
           net := { netReset with
               msgs := [(3,
                     { blankMsg .memSpecRd 70 127 513 33 3 with tgt := ⟨0, 0x8C0, 2 ^ 40⟩, len := 64, data := 0xABCD })],
               next := 9 } });
     let p : BitVec 5 := 31;
     let k : BitVec 2 := 3;
     let cls : Nat := 3;
     let n : Nat := 3;
     let e : Nat := 0;
     let m : Msg := { blankMsg .memSpecRd 70 127 513 33 3 with tgt := ⟨0, 0x8C0, 2 ^ 40⟩, len := 64, data := 0xABCD };
     let P := p.toNat;
     let d := subNode P k.toNat;
     let fits := (s.sub d).unacked + flitsOf m ≤ replayShare s d;
     let asks := m.src < 128 ∧ m.tgt.kind ≠ 9 ∧ isRsp m.op = false ∧ nonPosted m.op = true;
     (egressHead s d cls = some (n, m)) ∧ (linkUp s d = true) ∧ (m.itag = none) ∧ (fits) ∧ (asks) ∧
       (tagFree s d m.op = true) ∧ (m.op = .memSpecRd) ∧ (e < tagRange m.op) ∧ (mfind s.net.tags (tagKey P e) = none)) ∧
    (let s : State := setF [(PRT_CFG 31, PRT_CFG_MODE, 2), (PRT_CFG 31, PRT_CFG_EN, 1),
         (PRT_LNK_STAT 31 3, PRT_LNK_STAT_PM, 2), (PRT_CFG 17, PRT_CFG_MODE, 2),
         (PRT_LNK_STAT 17 2, PRT_LNK_STAT_PM, 3)]
       ({ State.reset with
           binds := State.reset.binds.set .west ⟨[(33, 127)], [(vpKey 33 5, ⟨none, 70, false⟩)], []⟩,
           core := State.reset.core.set .west { coreReset with egr := [(63 * 9 + 3, [(3, 4)])] },
           net := { netReset with
               msgs := [(3,
                     { blankMsg .biSnp 70 127 513 33 3 with tgt := ⟨0, 0x8C0, 2 ^ 40⟩, len := 64, data := 0xABCD })],
               next := 9 } });
     let p : BitVec 5 := 31;
     let k : BitVec 2 := 3;
     let cls : Nat := 3;
     let n : Nat := 3;
     let e : Nat := 4095;
     let m : Msg := { blankMsg .biSnp 70 127 513 33 3 with tgt := ⟨0, 0x8C0, 2 ^ 40⟩, len := 64, data := 0xABCD };
     let P := p.toNat;
     let d := subNode P k.toNat;
     let fits := (s.sub d).unacked + flitsOf m ≤ replayShare s d;
     let asks := m.src < 128 ∧ m.tgt.kind ≠ 9 ∧ isRsp m.op = false ∧ nonPosted m.op = true;
     (egressHead s d cls = some (n, m)) ∧ (linkUp s d = true) ∧ (m.itag = none) ∧ (fits) ∧ (asks) ∧
       (tagFree s d m.op = true) ∧ (m.op ≠ .memSpecRd) ∧ (e < tagRange m.op) ∧ (mfind s.net.tags (tagKey P e) = none)) ∧
    (let s : State := setF [(PRT_CFG 31, PRT_CFG_MODE, 2), (PRT_CFG 31, PRT_CFG_EN, 1),
         (PRT_LNK_STAT 31 3, PRT_LNK_STAT_PM, 2), (PRT_CFG 17, PRT_CFG_MODE, 2),
         (PRT_LNK_STAT 17 2, PRT_LNK_STAT_PM, 3)]
       ({ State.reset with
           binds := State.reset.binds.set .west ⟨[(33, 127)], [(vpKey 33 5, ⟨none, 70, false⟩)], []⟩,
           core := State.reset.core.set .west { coreReset with egr := [(63 * 9 + 3, [(3, 4)])] },
           net := { netReset with
               msgs := [(3,
                     { blankMsg .memRd 70 127 513 33 3 with tgt := ⟨0, 0x8C0, 2 ^ 40⟩, len := 64, data := 0xABCD })],
               next := 9 },
           subs := [(127, { subReset with unacked := 256 })] });
     let p : BitVec 5 := 31;
     let k : BitVec 2 := 3;
     let cls : Nat := 3;
     let n : Nat := 3;
     let m : Msg := { blankMsg .memRd 70 127 513 33 3 with tgt := ⟨0, 0x8C0, 2 ^ 40⟩, len := 64, data := 0xABCD };
     let P := p.toNat;
     let d := subNode P k.toNat;
     let fits := (s.sub d).unacked + flitsOf m ≤ replayShare s d;
     (egressHead s d cls = some (n, m)) ∧ (linkUp s d = true) ∧ (m.itag = none) ∧ (¬ fits)) ∧
    (let s : State := setF [(PRT_CFG 31, PRT_CFG_MODE, 2), (PRT_CFG 31, PRT_CFG_EN, 1),
         (PRT_LNK_STAT 31 3, PRT_LNK_STAT_PM, 2), (PRT_CFG 17, PRT_CFG_MODE, 2),
         (PRT_LNK_STAT 17 2, PRT_LNK_STAT_PM, 3)]
       ({ State.reset with
           binds := State.reset.binds.set .west ⟨[(33, 127)], [(vpKey 33 5, ⟨none, 70, false⟩)], []⟩,
           core := State.reset.core.set .west { coreReset with egr := [(63 * 9 + 3, [(3, 4)])] },
           net := { netReset with
               msgs := [(3,
                     { blankMsg .drs 70 127 513 33 3 with tgt := ⟨7, 0x8C0, 2 ^ 40⟩, len := 64, data := 0xABCD })],
               next := 9 } });
     let p : BitVec 5 := 31;
     let k : BitVec 2 := 3;
     let cls : Nat := 3;
     let n : Nat := 3;
     let m : Msg := { blankMsg .drs 70 127 513 33 3 with tgt := ⟨7, 0x8C0, 2 ^ 40⟩, len := 64, data := 0xABCD };
     let P := p.toNat;
     let d := subNode P k.toNat;
     let fits := (s.sub d).unacked + flitsOf m ≤ replayShare s d;
     (egressHead s d cls = some (n, m)) ∧ (linkUp s d = true) ∧ (m.itag = none) ∧ (fits) ∧ (isRsp m.op = true) ∧
       (inReset s m.tenant = false) ∧ (hostGone s m.tenant d = false)) := by
  refine ⟨?_, ?_, ?_, ?_, ?_, ?_⟩ <;> dsimp only [mayAct, atInstr, regsCanon] <;> decide +kernel

theorem wit_ResponsesAndTimeouts :
    (let s : State := setF [(PRT_CFG 31, PRT_CFG_MODE, 2), (PRT_CFG 31, PRT_CFG_EN, 1),
         (PRT_LNK_STAT 31 3, PRT_LNK_STAT_PM, 2), (PRT_CFG 17, PRT_CFG_MODE, 2),
         (PRT_LNK_STAT 17 2, PRT_LNK_STAT_PM, 3), (MRD_TN_LO .west, ⟨0, 32, .ro, 0, false⟩, 128),
         (PRT_TAG_STAT 31 3, PRT_TAG_STAT_LIVE, 1)]
       ({ State.reset with
           binds := State.reset.binds.set .west ⟨[(33, 70)], [(vpKey 33 5, ⟨none, 127, false⟩)], []⟩,
           net := { netReset with
               tags := [(31 * 8192 + 4097,
                     ⟨{ blankMsg .memRd 70 127 513 33 3 with tgt := ⟨0, 0x8C0, 2 ^ 40⟩, len := 64, data := 0xABCD },
                         127, 5, 64000, some 7, 64, false⟩)],
               uses := [(31 * 8192 + 4097, 3)],
               next := 9 } });
     let p : BitVec 5 := 31;
     let k : BitVec 2 := 3;
     let r : RspIn := ⟨.drs, 2 * 8192 + 4097, false, 64, true, false, false, 0xFFFF, .s, 2, 0, 5, false, 0⟩;
     let h : Half := .west;
     let x : TagEnt := ⟨{ blankMsg .memRd 70 127 513 33 3 with tgt := ⟨0, 0x8C0, 2 ^ 40⟩, len := 64, data := 0xABCD },
         127, 5, 64000, some 7, 64, false⟩;
     let e : Nat := 31 * 8192 + 4097;
     let P := p.toNat;
     let d := subNode P k.toNat;
     (linkUp s d = true) ∧ (r.internal = false) ∧ (tagMatch s d r = some (e, x)) ∧ (x.quar ≠ none) ∧
       (tagsDue s h = []) ∧ (itagsDue s h = [])) ∧
    (let s : State := setF [(PRT_CFG 31, PRT_CFG_MODE, 2), (PRT_CFG 31, PRT_CFG_EN, 1),
         (PRT_LNK_STAT 31 3, PRT_LNK_STAT_PM, 2), (PRT_CFG 17, PRT_CFG_MODE, 2),
         (PRT_LNK_STAT 17 2, PRT_LNK_STAT_PM, 3), (MRD_TN_LO .west, ⟨0, 32, .ro, 0, false⟩, 65),
         (PRT_TAG_STAT 31 3, PRT_TAG_STAT_LIVE, 1)]
       ({ State.reset with
           binds := State.reset.binds.set .west ⟨[(33, 70)], [(vpKey 33 5, ⟨none, 127, false⟩)], []⟩,
           net := { netReset with
               tags := [(31 * 8192 + 4097,
                     ⟨{ blankMsg .mRd 70 127 513 33 3 with tgt := ⟨0, 0x8C0, 2 ^ 40⟩, len := 64, data := 0xABCD },
                         127, 5, 64000, none, 64, false⟩)],
               uses := [(31 * 8192 + 4097, 3)],
               next := 9 } });
     let p : BitVec 5 := 31;
     let k : BitVec 2 := 3;
     let r : RspIn := ⟨.drs, 2 * 8192 + 4097, false, 64, true, false, false, 0xFFFF, .s, 2, 0, 5, false, 0⟩;
     let h : Half := .west;
     let x : TagEnt := ⟨{ blankMsg .mRd 70 127 513 33 3 with tgt := ⟨0, 0x8C0, 2 ^ 40⟩, len := 64, data := 0xABCD },
         127, 5, 64000, none, 64, false⟩;
     let e : Nat := 31 * 8192 + 4097;
     let P := p.toNat;
     let d := subNode P k.toNat;
     (linkUp s d = true) ∧ (r.internal = false) ∧ (tagMatch s d r = none) ∧ (tagsDue s h = [(e, x)]) ∧
       (itagsDue s h = []) ∧ (x.sub = d) ∧ (x.msg.op = .mRd) ∧ (x.msg.src < 128) ∧ (nodeHalf x.msg.src = nodeHalf d) ∧
       (inReset s x.msg.tenant = false) ∧ (hostGone s x.msg.tenant x.msg.src = false)) ∧
    (let s : State := setF [(PRT_CFG 31, PRT_CFG_MODE, 2), (PRT_CFG 31, PRT_CFG_EN, 1),
         (PRT_LNK_STAT 31 3, PRT_LNK_STAT_PM, 2), (PRT_CFG 17, PRT_CFG_MODE, 2),
         (PRT_LNK_STAT 17 2, PRT_LNK_STAT_PM, 3), (MRD_TN_LO .west, ⟨0, 32, .ro, 0, false⟩, 65),
         (PRT_TAG_STAT 31 3, PRT_TAG_STAT_LIVE, 1)]
       ({ State.reset with
           binds := State.reset.binds.set .west ⟨[(33, 70)], [(vpKey 33 5, ⟨none, 127, false⟩)], []⟩,
           net := { netReset with
               tags := [(31 * 8192 + 4097,
                     ⟨{ blankMsg .memRd 70 127 513 33 3 with tgt := ⟨0, 0x8C0, 2 ^ 40⟩, len := 64, data := 0xABCD },
                         127, 5, 64000, none, 64, false⟩)],
               uses := [(31 * 8192 + 4097, 3)],
               next := 9 } });
     let p : BitVec 5 := 31;
     let k : BitVec 2 := 3;
     let r : RspIn := ⟨.drs, 2 * 8192 + 4097, false, 64, true, false, false, 0xFFFF, .s, 2, 0, 5, false, 0⟩;
     let x : TagEnt := ⟨{ blankMsg .memRd 70 127 513 33 3 with tgt := ⟨0, 0x8C0, 2 ^ 40⟩, len := 64, data := 0xABCD },
         127, 5, 64000, none, 64, false⟩;
     let e : Nat := 31 * 8192 + 4097;
     let P := p.toNat;
     let d := subNode P k.toNat;
     (linkUp s d = true) ∧ (r.internal = false) ∧ (tagMatch s d r = some (e, x)) ∧ (x.quar = none) ∧
       (tagDue s x = true)) ∧
    (let s : State := setF [(PRT_CFG 31, PRT_CFG_MODE, 2), (PRT_CFG 31, PRT_CFG_EN, 1),
         (PRT_LNK_STAT 31 3, PRT_LNK_STAT_PM, 2), (PRT_CFG 17, PRT_CFG_MODE, 2),
         (PRT_LNK_STAT 17 2, PRT_LNK_STAT_PM, 3), (PRT_TAG_STAT 31 3, PRT_TAG_STAT_LIVE, 1)]
       ({ State.reset with
           binds := State.reset.binds.set .west ⟨[(33, 70)], [(vpKey 33 5, ⟨none, 127, false⟩)], []⟩,
           net := { netReset with
               tags := [(31 * 8192 + 4097,
                     ⟨{ blankMsg .memRd 70 127 513 33 3 with tgt := ⟨0, 0x8C0, 2 ^ 40⟩, len := 64, data := 0xABCD },
                         127, 5, 64000, none, 64, false⟩)],
               uses := [(31 * 8192 + 4097, 3)],
               next := 9 } });
     let p : BitVec 5 := 31;
     let k : BitVec 2 := 3;
     let r : RspIn := ⟨.drs, 2 * 8192 + 4097, false, 64, true, false, false, 0xFFFF, .s, 2, 0, 5, false, 0⟩;
     let x : TagEnt := ⟨{ blankMsg .memRd 70 127 513 33 3 with tgt := ⟨0, 0x8C0, 2 ^ 40⟩, len := 64, data := 0xABCD },
         127, 5, 64000, none, 64, false⟩;
     let e : Nat := 31 * 8192 + 4097;
     let P := p.toNat;
     let d := subNode P k.toNat;
     (linkUp s d = true) ∧ (r.internal = false) ∧ (tagMatch s d r = some (e, x)) ∧ (x.quar = none) ∧
       (tagDue s x = false) ∧ (r.final = true) ∧ (inReset s x.msg.tenant = false) ∧
       (hostGone s x.msg.tenant x.msg.src = false) ∧
       ((nodeHalf x.msg.src = nodeHalf d ∨ s.phase (nodeHalf d) = phUP))) := by
  refine ⟨?_, ?_, ?_, ?_⟩ <;> dsimp only [mayAct, atInstr, regsCanon] <;> decide +kernel

theorem wit_FlitsIdeAndDevLoad :
    (let s : State := { setF [(PRT_CFG 31, PRT_CFG_MODE, 2), (PRT_CFG 31, PRT_CFG_EN, 1),
           (PRT_LNK_STAT 31 3, PRT_LNK_STAT_PM, 2), (PRT_CFG 17, PRT_CFG_MODE, 2),
           (PRT_LNK_STAT 17 2, PRT_LNK_STAT_PM, 3)]
         ({ State.reset with
             binds := State.reset.binds.set .west ⟨[(33, 127)], [(vpKey 33 5, ⟨none, 70, false⟩)], []⟩ }) with
         spdm := ⟨[(33, 0)], []⟩ };
     let p : BitVec 5 := 31;
     let k : BitVec 2 := 3;
     let q : BitVec 10 := 0;
     let P := p.toNat;
     let K := k.toNat;
     let d := subNode P K;
     let x := s.sub d;
     (inService s d = true) ∧ (q.toNat ≠ (x.rxSeq + 1) % 1024) ∧ ((x.rxSeq + 1024 - q.toNat) % 1024 < 512) ∧
       (spdmOpen s d = true)) ∧
    (let s : State := setF [(PRT_CFG 31, PRT_CFG_MODE, 2), (PRT_CFG 31, PRT_CFG_EN, 1),
         (PRT_LNK_STAT 31 3, PRT_LNK_STAT_PM, 2), (PRT_CFG 17, PRT_CFG_MODE, 2),
         (PRT_LNK_STAT 17 2, PRT_LNK_STAT_PM, 3)]
       ({ State.reset with
           binds := State.reset.binds.set .west ⟨[(33, 127)], [(vpKey 33 5, ⟨none, 70, false⟩)], []⟩,
           subs := [(127, { subReset with rxSeq := 1023, unacked := 256, stalled := true })] });
     let p : BitVec 5 := 31;
     let k : BitVec 2 := 3;
     let q : BitVec 10 := 0;
     let P := p.toNat;
     let K := k.toNat;
     let d := subNode P K;
     let x := s.sub d;
     (inService s d = true) ∧ (q.toNat = (x.rxSeq + 1) % 1024) ∧ (spdmOpen s d = false)) := by
  refine ⟨?_, ?_⟩ <;> dsimp only [mayAct, atInstr, regsCanon] <;> decide +kernel

theorem wit_CellsAreAdmittedAndCross :
    (let s : State := { State.reset with
         core := State.reset.core.set .west
           { coreReset with
             formed := [(31,
                   [((31 * 1440 + 78 * 18 + 3 * 2 + 1), ⟨[3], 0, true, 0, false, .none⟩),
                       (7, ⟨[3], 0, true, 0, false, .none⟩)])],
             held := [(31, [((31 * 1440 + 78 * 18 + 3 * 2 + 1), ⟨[3], 0, true, 0, false, .none⟩)])] },
         net := { netReset with
             msgs := [(3, { blankMsg .memRd 70 (unitNode .west 30) 9 33 0 with tgt := ⟨0, 0xFFE, 0⟩ })],
             next := 9 } };
     let h : Half := .west;
     let st : Nat := 31;
     let q : Nat := (31 * 1440 + 78 * 18 + 3 * 2 + 1);
     let c : Cell := ⟨[3], 0, true, 0, false, .none⟩;
     let r : List (Nat × Cell) := [(7, ⟨[3], 0, true, 0, false, .none⟩)];
     let rest : List (Nat × Cell) := [];
     let pl : Pool := .guar 31;
     let C := s.core.get h;
     let d := keyDest q;
     let open_ := cellMc s c = false ∧ catFull s c = false ∧ (C.voq q).spilled = false ∧ plainPool s h q [d]
       (cellYellow s c) = some pl;
     (lget C.formed st = (q, c) :: r) ∧ (cellDead s h c = []) ∧ (classHeld s h st q c = true) ∧ (open_) ∧
       (lget C.held st = (q, c) :: rest)) ∧
    (let s : State := setF [(PRT_CFG 31, PRT_CFG_MODE, 2), (PRT_CFG 31, PRT_CFG_EN, 1),
         (PRT_LNK_STAT 31 3, PRT_LNK_STAT_PM, 2)]
       ({ State.reset with
           core := State.reset.core.set .west
             { coreReset with
               voqs := [((31 * 1440 + 63 * 18 + 3 * 2), ⟨[⟨[3], 0, true, 0, false, .shared⟩], [], [], false⟩)] },
           net := { netReset with
               msgs := [(3, { blankMsg .memRd 70 127 9 33 0 with tgt := ⟨0, 0xFFE, 0⟩ })],
               next := 9 },
           subs := [(127, { subReset with txCred := [(3, 1)] })] });
     let h : Half := .west;
     let n : Nat := 3;
     let q : Nat := (31 * 1440 + 63 * 18 + 3 * 2);
     let c : Cell := ⟨[3], 0, true, 0, false, .shared⟩;
     let m : Msg := { blankMsg .memRd 70 127 9 33 0 with tgt := ⟨0, 0xFFE, 0⟩ };
     let l : List Cell := [];
     let v : Voq := ⟨[⟨[3], 0, true, 0, false, .shared⟩], [], [], false⟩;
     let blocked : List Nat := [];
     let C := s.core.get h;
     let d := keyDest q;
     let alone := C.voqs = [(q, v)] ∧ C.mcq = [] ∧ C.spill = [] ∧ C.busy = [] ∧ lget C.inbox 28 = [] ∧ keyStation q <
       32 ∧ headGroup v.chip = some ([c], l) ∧ c.msgs = [n] ∧ s.msg n = some m;
     (alone) ∧ (d < 64) ∧ (destReady s h blocked d 1 [m] = true)) ∧
    (let s : State := { State.reset with
         core := State.reset.core.set .west
           { coreReset with
             voqs := [((31 * 1440 + 78 * 18 + 3 * 2), ⟨[⟨[3], 0, true, 0, false, .shared⟩], [], [], false⟩)] },
         net := { netReset with
             msgs := [(3, { blankMsg .memRd 70 (unitNode .west 30) 9 33 0 with tgt := ⟨0, 0xFFE, 0⟩ })],
             next := 9 } };
     let h : Half := .west;
     let n : Nat := 3;
     let q : Nat := (31 * 1440 + 78 * 18 + 3 * 2);
     let c : Cell := ⟨[3], 0, true, 0, false, .shared⟩;
     let m : Msg := { blankMsg .memRd 70 (unitNode .west 30) 9 33 0 with tgt := ⟨0, 0xFFE, 0⟩ };
     let l : List Cell := [];
     let v : Voq := ⟨[⟨[3], 0, true, 0, false, .shared⟩], [], [], false⟩;
     let blocked : List Nat := [1, 2];
     let C := s.core.get h;
     let d := keyDest q;
     let x := d * 9 + clsOf m;
     let alone := C.voqs = [(q, v)] ∧ C.mcq = [] ∧ C.spill = [] ∧ C.busy = [] ∧ lget C.inbox 28 = [] ∧ keyStation q <
       32 ∧ headGroup v.chip = some ([c], l) ∧ c.msgs = [n] ∧ s.msg n = some m;
     (alone) ∧ (72 ≤ d) ∧ (d ≠ 76) ∧ (egrUsed s h d (clsOf m) ≤ 63) ∧ (x ∉ blocked)) ∧
    (let s : State := { State.reset with
         core := State.reset.core.set .west
           { coreReset with
             formed := [(31,
                   [((31 * 1440 + 78 * 18 + 3 * 2 + 1), ⟨[3], 0, true, 0, false, .none⟩),
                       (7, ⟨[3], 0, true, 0, false, .none⟩)])] },
         net := { netReset with
             msgs := [(3, { blankMsg .memRd 70 (unitNode .west 30) 9 33 0 with tgt := ⟨0, 0xFFE, 0⟩ })],
             next := 9 } };
     let h : Half := .west;
     let st : Nat := 31;
     let q : Nat := (31 * 1440 + 78 * 18 + 3 * 2 + 1);
     let c : Cell := ⟨[3], 0, true, 0, false, .none⟩;
     let r : List (Nat × Cell) := [(7, ⟨[3], 0, true, 0, false, .none⟩)];
     let pl : Pool := .guar 31;
     let C := s.core.get h;
     let d := keyDest q;
     let open_ := cellMc s c = false ∧ catFull s c = false ∧ (C.voq q).spilled = false ∧ plainPool s h q [d]
       (cellYellow s c) = some pl;
     (lget C.formed st = (q, c) :: r) ∧ (cellDead s h c = []) ∧ (classHeld s h st q c = false) ∧ (open_)) := by
  refine ⟨?_, ?_, ?_, ?_⟩ <;> dsimp only [mayAct, atInstr, regsCanon] <;> decide +kernel

theorem wit_DeepFieldAndCoreControl :
    (let s : State := setW [(MRD_STRAP, 0xFFFFFFFF)];
     let m : Master := .obs .west 1;
     let h : Half := .west;
     let st : Nat := 31;
     let q : Nat := (31 * 1440 + 78 * 18 + 3 * 2);
     let C := s.core.get h;
     let V := C.voq q;
     let a := CORE_CTL h;
     ((lget C.writer st = [] ∨ dfReady s h = false)) ∧ (V.ret = []) ∧ (mayAct s m a) ∧ (finderOnly s = true)) ∧
    (let s : State := setF [(CORE_DF_CTL .west, CORE_DF_CTL_VOQ_MAX, 1)]
       (setF [(CORE_STAT .west, CORE_STAT_DF_READY, 1), (CORE_CTL .west, CORE_CTL_DF_EN, 1),
           (CORE_DF_STAT .west, CORE_DF_STAT_USED, 9)]
         ({ State.reset with
             core := State.reset.core.set .west
               { coreReset with
                 writer := [(31,
                       [((31 * 1440 + 78 * 18 + 3 * 2), ⟨[3], 0, true, 0, false, .none⟩),
                           (7, ⟨[3], 0, true, 0, false, .none⟩)])],
                 voqs := [((31 * 1440 + 78 * 18 + 3 * 2),
                       ⟨[], List.replicate 256 (List.replicate 28 (⟨[3], 0, true, 0, false, .none⟩)), [], true⟩)] },
             net := { netReset with
                 msgs := [(3, { blankMsg .memRd 70 (unitNode .west 30) 9 33 0 with tgt := ⟨0, 0xFFE, 0⟩ })],
                 next := 9 } }));
     let m : Master := .obs .west 1;
     let h : Half := .west;
     let st : Nat := 31;
     let q : Nat := (31 * 1440 + 78 * 18 + 3 * 2);
     let c : Cell := ⟨[3], 0, true, 0, false, .none⟩;
     let r : List (Nat × Cell) := [(7, ⟨[3], 0, true, 0, false, .none⟩)];
     let C := s.core.get h;
     let V := C.voq q;
     let a := CORE_CTL h;
     let new := if c.po then deepPushOut V.deep c else deepAppend V.deep c;
     let room := dfUsed s h + new.length ≤ dfPages s h + V.deep.length;
     let within := voqPages V + new.length ≤ voqPageMax s h + V.deep.length;
     (lget C.writer st = (q, c) :: r) ∧ (dfReady s h = true) ∧ (room) ∧ (¬ within) ∧ (mayAct s m a) ∧
       (finderOnly s = false)) ∧
    (let s : State := setF [(CORE_STAT .west, CORE_STAT_DF_READY, 1), (CORE_CTL .west, CORE_CTL_DF_EN, 1),
         (CORE_DF_STAT .west, CORE_DF_STAT_USED, 3145728)]
       ({ State.reset with
           core := State.reset.core.set .west
             { coreReset with
               writer := [(31,
                     [((31 * 1440 + 78 * 18 + 3 * 2), ⟨[3], 0, true, 0, false, .none⟩),
                         (7, ⟨[3], 0, true, 0, false, .none⟩)])] },
           net := { netReset with
               msgs := [(3, { blankMsg .memRd 70 (unitNode .west 30) 9 33 0 with tgt := ⟨0, 0xFFE, 0⟩ })],
               next := 9 } });
     let h : Half := .west;
     let st : Nat := 31;
     let q : Nat := (31 * 1440 + 78 * 18 + 3 * 2);
     let c : Cell := ⟨[3], 0, true, 0, false, .none⟩;
     let r : List (Nat × Cell) := [(7, ⟨[3], 0, true, 0, false, .none⟩)];
     let C := s.core.get h;
     let V := C.voq q;
     let new := if c.po then deepPushOut V.deep c else deepAppend V.deep c;
     let room := dfUsed s h + new.length ≤ dfPages s h + V.deep.length;
     (lget C.writer st = (q, c) :: r) ∧ (dfReady s h = true) ∧ (¬ room)) ∧
    (let s : State := setF [(CORE_STAT .west, CORE_STAT_DF_READY, 1), (CORE_CTL .west, CORE_CTL_DF_EN, 1),
         (CORE_DF_STAT .west, CORE_DF_STAT_USED, 2)]
       ({ State.reset with
           core := State.reset.core.set .west
             { coreReset with
               voqs := [((31 * 1440 + 78 * 18 + 3 * 2),
                     ⟨[⟨[3], 0, true, 0, false, .shared⟩], [],
                         [[⟨[3], 0, true, 0, true, .head⟩, ⟨[3], 0, true, 0, false, .none⟩],
                             [⟨[3], 0, true, 0, false, .none⟩]], true⟩)] },
           net := { netReset with
               msgs := [(3, { blankMsg .memRd 70 (unitNode .west 30) 9 33 0 with tgt := ⟨0, 0xFFE, 0⟩ })],
               next := 9 } });
     let h : Half := .west;
     let q : Nat := (31 * 1440 + 78 * 18 + 3 * 2);
     let pg : List Cell := [⟨[3], 0, true, 0, true, .head⟩, ⟨[3], 0, true, 0, false, .none⟩];
     let rest : List (List Cell) := [[⟨[3], 0, true, 0, false, .none⟩]];
     let C := s.core.get h;
     let V := C.voq q;
     (V.ret = pg :: rest) ∧ (dfReady s h = true)) ∧
    (let s : State := setF [(CORE_STAT .west, CORE_STAT_DF_READY, 1), (CORE_CTL .west, CORE_CTL_DF_EN, 1),
         (CORE_DF_STAT .west, CORE_DF_STAT_USED, 1)]
       ({ State.reset with
           core := State.reset.core.set .west
             { coreReset with
               writer := [(31, [((31 * 1440 + 78 * 18 + 3 * 2), ⟨[3], 0, true, 0, true, .head⟩)])],
               voqs := [((31 * 1440 + 78 * 18 + 3 * 2), ⟨[], [[⟨[3], 0, true, 0, true, .head⟩]], [], true⟩)] },
           net := { netReset with
               msgs := [(3, { blankMsg .memRd 70 (unitNode .west 30) 9 33 0 with tgt := ⟨0, 0xFFE, 0⟩ })],
               next := 9 } });
     let h : Half := .west;
     let st : Nat := 31;
     let q : Nat := (31 * 1440 + 78 * 18 + 3 * 2);
     let c : Cell := ⟨[3], 0, true, 0, true, .head⟩;
     let r : List (Nat × Cell) := [];
     let C := s.core.get h;
     let V := C.voq q;
     let new := if c.po then deepPushOut V.deep c else deepAppend V.deep c;
     let room := dfUsed s h + new.length ≤ dfPages s h + V.deep.length;
     let within := voqPages V + new.length ≤ voqPageMax s h + V.deep.length;
     (lget C.writer st = (q, c) :: r) ∧ (dfReady s h = true) ∧ (room) ∧ (within)) := by
  refine ⟨?_, ?_, ?_, ?_, ?_⟩ <;> dsimp only [mayAct, atInstr, regsCanon] <;> decide +kernel

theorem wit_BridgeFlitsAndWires :
    (let s : State := setF [(CDB_CTL .west, CDB_CTL_DOZE_EN, 1), (MRD_NOW_LO .west, ⟨0, 32, .ro, 0, false⟩, 100000)];
     let m : Master := .obs .west 1;
     let h : Half := .west;
     let g : BitVec 3 := 7;
     let v : BitVec 7 := 65;
     let o := h.other;
     let G := g.toNat;
     let B := s.cdb.get h;
     let far := bgrp s o G;
     let W := v.toNat;
     ((s.cdb.get o).naking.contains G = false) ∧ (W < 66) ∧ (mayAct s m (CDB_WMAP h G (W / 32))) ∧ (far.remap = false)
       ∧ (s.flag (CDB_CTL h) CDB_CTL_DOZE_EN = true) ∧ ((bgrp s h G).wait = []) ∧ ((bgrp s h G).replay = []) ∧
       ((bgrp s h G).remap = false) ∧ (grpWidth s o G ≠ 2) ∧ (B.xoffTx = (s.cdb.get o).xoffRx) ∧
       ((bgrp s h G).idle + 8 * max 1 (s.fget (CDB_CTL h) CDB_CTL_DOZE_IDLE) ≤ s.now h) ∧ (hasCause s h G = false)) ∧
    (let s : State := { State.reset with
         cdb := (State.reset.cdb.set .west { cdbReset with attemptReq := false }).set .east
           { cdbReset with grps := [(7, ⟨[], [], 3, 0, 0, false, true, none, 0, 0, 0⟩)] } };
     let h : Half := .west;
     let g : BitVec 3 := 7;
     let o := h.other;
     let G := g.toNat;
     let far := bgrp s o G;
     (grpWidth s h G ≠ 2) ∧ ((flitSend s o G).1 = none) ∧ (far.remap = true)) ∧
    (let s : State := setF [(CDB_STAT .west, CDB_STAT_DOZE, 255)]
       ({ State.reset with
           cdb := (State.reset.cdb.set .west { cdbReset with xoffTx := [2] }).set .east
             { cdbReset with attemptReq := false } });
     let h : Half := .west;
     let g : BitVec 3 := 7;
     let G := g.toNat;
     (hasCause s h G = true)) ∧
    (let s : State := { State.reset with
         cdb := (State.reset.cdb.set .west { cdbReset with wpar := [(7, 63, 0), (7, 63, 0), (7, 63, 0)] }).set .east
           { cdbReset with attemptReq := false } };
     let h : Half := .west;
     let g : BitVec 3 := 7;
     let w : Nat := 63;
     let lost : Bool := false;
     let G := g.toNat;
     (lost = false) ∧ (wparOver s h G w = false)) ∧
    (let s : State := State.reset;
     let h : Half := .east;
     let g : BitVec 3 := 7;
     let w : Nat := 63;
     let lost : Bool := true;
     let G := g.toNat;
     (w < 66) ∧ (bitB (wmapNat s h G) w = false) ∧ ((lost = true ∨ wparOver s h G w = true)) ∧ (s.phase h = phUP) ∧
       (33 ≤ wiresGood s h G) ∧ (wireUsed s h G w = true)) ∧
    (let s : State := { State.reset with
         cdb := (State.reset.cdb.set .west
             { cdbReset with grps := [(7, ⟨[], [⟨4, []⟩, ⟨5, []⟩], 2, 0, 15, false, false, none, 0, 0, 0⟩)] }).set
           .east { cdbReset with naking := [7], rxSeq := [(7, 3)] } };
     let h : Half := .west;
     let g : BitVec 3 := 7;
     let o := h.other;
     let G := g.toNat;
     let after := bgrp (bridgeAck s h G ((mfind (s.cdb.get o).rxSeq G).getD 255)) h G;
     let far := bgrp s o G;
     let naks := grpWidth s h G ≠ 2 ∧ far.remap = false ∧ (s.cdb.get o).naking.contains G = true;
     (naks) ∧ (after.naks = 15) ∧ (s.phase .east = phUP)) ∧
    (let s : State := { State.reset with
         cdb := (State.reset.cdb.set .west
             { cdbReset with grps := [(7, ⟨[], [⟨4, []⟩, ⟨5, []⟩], 2, 0, 14, false, false, none, 0, 0, 0⟩)] }).set
           .east { cdbReset with naking := [7], rxSeq := [(7, 3)] } };
     let h : Half := .west;
     let g : BitVec 3 := 7;
     let o := h.other;
     let G := g.toNat;
     let after := bgrp (bridgeAck s h G ((mfind (s.cdb.get o).rxSeq G).getD 255)) h G;
     let far := bgrp s o G;
     let naks := grpWidth s h G ≠ 2 ∧ far.remap = false ∧ (s.cdb.get o).naking.contains G = true;
     (naks) ∧ (after.naks ≠ 15)) ∧
    (let s : State := { State.reset with
         cdb := (State.reset.cdb.set .west { cdbReset with rxSeq := [(7, 255)] }).set .east
           { cdbReset with
             grps := [(7,
                   ⟨[],
                       [⟨0,
                             [.desc 5 ⟨[3], 4, true, 0, false, .none⟩, .pay, .pay, .pay, .pay] ++ List.replicate 10
                               .fill⟩], 0, 9, 0, false, false, none, 0, 0, 0⟩)] },
         net := { netReset with
             msgs := [(3, { blankMsg .memRd 3 (unitNode .west 30) 9 33 0 with tgt := ⟨0, 0xFFE, 0⟩ })] } };
     let h : Half := .west;
     let g : BitVec 3 := 7;
     let f : BFlit := ⟨0, [.desc 5 ⟨[3], 4, true, 0, false, .none⟩, .pay, .pay, .pay, .pay] ++ List.replicate 10 .fill⟩;
     let flips : List Nat := [];
     let o := h.other;
     let G := g.toNat;
     let B := s.cdb.get h;
     let due := ((mfind B.rxSeq G).getD 255 + 1) % 256;
     let sent := grpWidth s h G ≠ 2 ∧ (flitSend s o G).1 = some f;
     (sent) ∧ (crcPasses flips = true) ∧ (flitIdle f.body = false) ∧ (f.seq = due) ∧ (B.cross = [])) ∧
    (let s : State := { State.reset with
         cdb := (State.reset.cdb.set .west { cdbReset with attemptReq := false }).set .east
           { cdbReset with grps := [(7, ⟨[], [], 0, 0, 0, false, false, none, 0, 0, 0⟩)], xoffTx := [2] },
         net := { netReset with
             msgs := [(3, { blankMsg .memRd 3 (unitNode .west 30) 9 33 0 with tgt := ⟨0, 0xFFE, 0⟩ })] } };
     let h : Half := .west;
     let g : BitVec 3 := 7;
     let f : BFlit := ⟨0, List.replicate 15 .fill⟩;
     let flips : List Nat := [];
     let o := h.other;
     let G := g.toNat;
     let B := s.cdb.get h;
     let due := ((mfind B.rxSeq G).getD 255 + 1) % 256;
     let sent := grpWidth s h G ≠ 2 ∧ (flitSend s o G).1 = some f;
     (sent) ∧ (crcPasses flips = true) ∧ ((flitIdle f.body = true ∨ f.seq ≠ due))) ∧
    (let s : State := { State.reset with
         cdb := (State.reset.cdb.set .west { cdbReset with attemptReq := false }).set .east
           { cdbReset with
             grps := [(7, ⟨[(5, ⟨[3], 4, true, 0, false, .none⟩)], [], 0, 0, 0, false, false, none, 0, 0, 0⟩)] },
         net := { netReset with
             msgs := [(3, { blankMsg .memRd 3 (unitNode .west 30) 9 33 0 with tgt := ⟨0, 0xFFE, 0⟩ })] } };
     let h : Half := .west;
     let g : BitVec 3 := 7;
     let f : BFlit := ⟨0, [.desc 5 ⟨[3], 4, true, 0, false, .none⟩, .pay, .pay, .pay, .pay] ++ List.replicate 10 .fill⟩;
     let flips : List Nat := [2047, 5];
     let o := h.other;
     let G := g.toNat;
     let sent := grpWidth s h G ≠ 2 ∧ (flitSend s o G).1 = some f;
     (sent) ∧ (crcPasses flips = false)) := by
  refine ⟨?_, ?_, ?_, ?_, ?_, ?_, ?_, ?_, ?_, ?_⟩ <;> dsimp only [mayAct, atInstr, regsCanon] <;> decide +kernel

theorem wit_BridgeDownAndSplit :
    (let s : State := setF [(CDB_STAT .west, CDB_STAT_PHASE, 1), (CDB_STAT .east, CDB_STAT_PHASE, 1),
         (MRD_NOW_LO .east, ⟨0, 32, .ro, 0, false⟩, 15005)]
       ({ State.reset with
           cdb := (State.reset.cdb.set .west { cdbReset with attemptReq := false }).set .east
             { cdbReset with downAt := some 5 } });
     let at0 := (s.cdb.get .east).downAt.getD 0;
     (s.phase .east = phRETRAIN ∨ s.phase .east = phSPLIT) ∧ (s.phase .east = phRETRAIN) ∧ (bridgeTrains s = true) ∧
       (s.now .east ≤ at0 + 15000) ∧ (at0 + 15000 ≤ s.now .east)) ∧
    (let s : State := setF [(MRD_TN_LO .west, ⟨0, 32, .ro, 0, false⟩, 4096)]
       ({ State.reset with
           cdb := (State.reset.cdb.set .west
               { cdbReset with
                 cross := [(3, ⟨{ blankMsg .memRd 3 (unitNode .west 30) 9 33 0 with tgt := ⟨0, 0xFFE, 0⟩ }, none⟩),
                     (5, ⟨{ blankMsg .memRd 3 (unitNode .west 30) 9 33 0 with tgt := ⟨0, 0xFFE, 0⟩ }, some 4⟩),
                     (7, ⟨{ blankMsg .memRd 3 (unitNode .west 30) 9 33 0 with tgt := ⟨0, 0xFFE, 0⟩ }, some 4096000⟩)] }).set
             .east { cdbReset with attemptReq := false } });
     (s.phase .east = phUP) ∧ (SMap.wf (s.cdb.get .east).cross = true) ∧ (SMap.wf (s.cdb.get .west).cross = true)) := by
  refine ⟨?_, ?_⟩ <;> dsimp only [mayAct, atInstr, regsCanon] <;> decide +kernel

theorem wit_RejoinSteps :
    (let s : State := setF [(CDB_STAT .west, CDB_STAT_PHASE, 2), (CDB_STAT .east, CDB_STAT_PHASE, 2)]
       ({ State.reset with
           cdb := (State.reset.cdb.set .west { cdbReset with attemptReq := false }).set .east
             { cdbReset with attempt := some 5 } });
     let m : Master := .obs .west 1;
     let h : Half := .west;
     let t0 : Nat := 5;
     (mayAct s m (CDB_CTL h)) ∧ (s.tn h % 100000 = 0) ∧ (s.flag (CDB_CTL h) CDB_CTL_REJOIN_AUTO = true) ∧
       (s.phase .east = phSPLIT) ∧ ((s.cdb.get .east).attempt = some t0) ∧ (bridgeTrains s = true) ∧
       (s.now .east ≤ t0 + 15000)) ∧
    (let s : State := setF [(CDB_STAT .west, CDB_STAT_MIRROR_UNPROT, 1)]
       ({ State.reset with
           cdb := (State.reset.cdb.set .west { cdbReset with resync := true, regions := [3] }).set .east
             { cdbReset with attemptReq := false } });
     let h : Half := .west;
     ((s.cdb.get h).resync = true)) ∧
    (let s : State := setF [(CDB_STAT .west, CDB_STAT_PHASE, 5), (CDB_STAT .east, CDB_STAT_PHASE, 5)] (State.reset);
     (s.phase .east = phRECONCILE) ∧ (s.fget (CDB_QLINES .east) CDB_QLINES_QLINES = 0) ∧
       (s.fget (CDB_QLINES .west) CDB_QLINES_QLINES = 0)) ∧
    (let s : State := setF [(CDB_STAT .west, CDB_STAT_PHASE, 3), (CDB_STAT .east, CDB_STAT_PHASE, 3)] (State.reset);
     (s.phase .east = phLOCK) ∧ (merApart s ≤ 2 * nsU)) ∧
    (let s : State := setF [(MRD_TN_LO .west, ⟨0, 32, .ro, 0, false⟩, 99999)];
     let h : Half := .west;
     (s.tn h % 100000 ≠ 0)) := by
  refine ⟨?_, ?_, ?_, ?_, ?_⟩ <;> dsimp only [mayAct, atInstr, regsCanon] <;> decide +kernel

theorem wit_RowsSlotsAndPresence :
    (let s : State := setF [(PRT_SLOT_CTL 31, PRT_SLOT_CTL_HOST_PWR, 1)]
       { State.reset with binds := State.reset.binds.set .west ⟨[], [(vpKey 33 5, ⟨none, 4 * 31, false⟩)], []⟩ };
     let m : Master := .obs .west 0;
     let h : Half := .west;
     let a : Nat := SHT_PSTAGE 31 0;
     let w : Nat := SHT_PSTAGE 31 0 + 8;
     let cci : Nat := 0;
     let t : BitVec 6 := 33;
     let v : BitVec 5 := 5;
     let p : BitVec 5 := 31;
     let on : Bool := true;
     let lost : Bool := false;
     let T := t.toNat;
     let V := v.toNat;
     let P := p.toNat;
     let row := SHT_PSTAGE P 0;
     let st := PRT_SLOT_STAT P;
     let here := s.flag st PRT_SLOT_STAT_PRSNT;
     let drop := s.flag st PRT_SLOT_STAT_PWR && (if lost then !here else (portNodes s P).any fun d => !inService s d);
     (mayAct s m a) ∧ (a ≠ UMP_GSTAGE .east 0) ∧ (rowWord2 a = some (h, w)) ∧ ((s.rd w).getLsbD 31 = false) ∧
       (rowTaken s row = false) ∧ (mfind s.mgt.bg cci = none) ∧ (cciReach s cci [chanHalf P] = true) ∧
       (ownsSlot s T V = [P]) ∧ ((here = on ∨ prsntStable s P on = false)) ∧ (perstMay s P = false) ∧ (drop = false)) ∧
    (let s : State := setF [(PRT_SLOT_STAT 31, PRT_SLOT_STAT_PRSNT, 1), (PRT_SLOT_STAT 31, PRT_SLOT_STAT_PWR, 1),
         (PRT_SLOT_CTL 31, PRT_SLOT_CTL_DEBOUNCE, 3), (MRD_NOW_LO .west, ⟨0, 32, .ro, 0, false⟩, 3000000)]
       { State.reset with
         mgt := { mgtReset with prs := [(31, (false, 0))] },
         binds := State.reset.binds.set .west ⟨[], [(vpKey 33 5, ⟨none, 4 * 31, false⟩)], []⟩ };
     let p : BitVec 5 := 31;
     let on : Bool := false;
     let lost : Bool := false;
     let P := p.toNat;
     let st := PRT_SLOT_STAT P;
     let here := s.flag st PRT_SLOT_STAT_PRSNT;
     let drop := s.flag st PRT_SLOT_STAT_PWR && (if lost then !here else (portNodes s P).any fun d => !inService s d);
     (here ≠ on) ∧ (prsntStable s P on = true) ∧ (drop = true)) ∧
    (let s : State := setF [(PRT_SLOT_STAT 31, PRT_SLOT_STAT_PERST, 1), (PRT_SLOT_STAT 31, PRT_SLOT_STAT_PG, 1),
         (MRD_NOW_LO .west, ⟨0, 32, .ro, 0, false⟩, 100000000)]
       ({ State.reset with mgt := { mgtReset with pgAt := [(31, 0)], pclkAt := [(31, 0)] } });
     let p : BitVec 5 := 31;
     let P := p.toNat;
     (perstMay s P = true)) ∧
    (let s : State := { State.reset with
         mgt := { mgtReset with bg := [(0, ⟨opSLOTPWR, [SHT_PSTAGE 31 0], 0, false, []⟩)] } };
     let p : BitVec 5 := 31;
     let P := p.toNat;
     let row := SHT_PSTAGE P 0;
     (rowTaken s row = true)) ∧
    (let s : State := setF [(MRD_NOW_LO .west, ⟨0, 32, .ro, 0, false⟩, 1000000000)]
       ({ State.reset with mgt := { mgtReset with managed := [(33, 5, SF_BSTAGE 33 127 0, 0), (33, 4, 7, 0)] } });
     let i : Nat := 127;
     let t : BitVec 6 := 33;
     let v : BitVec 5 := 5;
     let e : Nat × Nat × Nat × Nat := (33, 5, SF_BSTAGE 33 127 0, 0);
     let T := t.toNat;
     let V := v.toNat;
     ((s.mgt.managed.find? fun e => e.1 == T && e.2.1 == V) = some e) ∧ (e.2.2.1 = SF_BSTAGE T i 0) ∧ (i < 128) ∧
       (e.2.2.2 + max 1 (s.fget (SF_TEN_CTL T) SF_TEN_CTL_HP_WAIT) * 1000000 ≤ s.now (tenantHalf T))) := by
  refine ⟨?_, ?_, ?_, ?_, ?_⟩ <;> dsimp only [mayAct, atInstr, regsCanon] <;> decide +kernel

theorem wit_TenantResets :
    (let s : State := { State.reset with
         binds := State.reset.binds.set .west ⟨[], [(vpKey 33 5, ⟨some 3, 9, true⟩)], []⟩ };
     let m : Master := .obs .west 0;
     let t : BitVec 6 := 33;
     let v : BitVec 5 := 5;
     let w : Word := 0x00FFFF01;
     let b : VBind := ⟨some 3, 9, true⟩;
     let T := t.toNat;
     let H := tenantHalf T;
     let ctl := SF_TEN_CTL T;
     let bound := v ≠ 0 ∧ mfind (s.binds.get H).vb (vpKey T v.toNat) = some b;
     (inReset s T = false) ∧ (mayAct s m (SF_TEN_RST T)) ∧ (w.getLsbD 0 = true) ∧ (mayAct s m ctl) ∧ (bound)) ∧
    (let s : State := setF [(SF_TEN_STAT 33, SF_TEN_STAT_RST, 1)]
       { State.reset with
         core := State.reset.core.set .west { coreReset with egr := [(3, [(7, 0)])] },
         net := { netReset with msgs := [(7, blankMsg .mWr 0 0 0 33 0)] } };
     let h : Half := .west;
     let t : BitVec 6 := 33;
     let T := t.toNat;
     (inReset s T = true) ∧ (tenantQueued s h T = true)) ∧
    (let s : State := setF [(SF_TEN_STAT 33, SF_TEN_STAT_RST, 1), (MRD_TN_LO .west, ⟨0, 32, .ro, 0, false⟩, 1)]
       { State.reset with viral := [33, 2], mgt := { mgtReset with rstAt := [(33, 0)] } };
     let t : BitVec 6 := 33;
     let T := t.toNat;
     let H := tenantHalf T;
     (inReset s T = true) ∧ (mfind s.mgt.rstAt T ≠ some (s.tn H)) ∧ (tenantQueued s .east T = false) ∧
       (tenantQueued s .west T = false)) ∧
    (let s : State := { State.reset with binds := State.reset.binds.set .west ⟨[(33, 127)], [], []⟩ };
     let t : BitVec 6 := 33;
     let p : BitVec 5 := 31;
     let k : BitVec 2 := 3;
     let T := t.toNat;
     let d := subNode p.toNat k.toNat;
     (inReset s T = false) ∧ (uspTenant s (nodeHalf d) d = some T)) := by
  refine ⟨?_, ?_, ?_, ?_⟩ <;> dsimp only [mayAct, atInstr, regsCanon] <;> decide +kernel

theorem wit_CatalogueServesRequests :
    (let s : State := setW [(CAT_WIN_CTL .west 63, 0xC0000000 + 38 * 2^18 + 31 * 2^13 + 3 * 2^11 + 15),
         (CAT_WIN_BASE_LO .west 63 + 4, 0x40)]
       ({ State.reset with
           core := State.reset.core.set .west { coreReset with inbox := [(30, [3])] },
           net := { netReset with
               msgs := [(3,
                     { blankMsg .memRd 70 (unitNode .west 30) 513 33 1 with
                         tgt := ⟨0, 0xFFE, (2 ^ 39 - 64)⟩,
                         len := 64,
                         hold := .s })],
               next := 9 },
           cat := State.reset.cat.set .west
             { catReset with txns := (List.range 16384).map fun i => (i, newTxn .recall none) },
           binds := State.reset.binds.set .west ⟨[(33, 70)], [], []⟩ });
     let h : Half := .west;
     let n : Nat := 3;
     let t : Nat := 33;
     let d : Nat := 70;
     let m : Msg := { blankMsg .memRd 70 (unitNode .west 30) 513 33 1 with
         tgt := ⟨0, 0xFFE, (2 ^ 39 - 64)⟩,
         len := 64,
         hold := .s };
     let alone := lget (s.core.get h).inbox 30 = [n] ∧ s.msg n = some m;
     let carried := nodeHalf m.src = h ∨ s.phase h = phUP ∨ s.phase h = phRETRAIN;
     let shared := m.op = .memRd ∧ m.hold = .s ∧ m.itag = none ∧ m.src < 128 ∧ m.deny = false ∧ carried;
     (alone) ∧ (shared) ∧ (catRoom s h = false) ∧ (uspOf s h t = some d)) ∧
    (let s : State := setW [(CAT_WIN_CTL .west 63, 0xC0000000 + 38 * 2^18 + 31 * 2^13 + 3 * 2^11 + 15),
         (CAT_WIN_BASE_LO .west 63 + 4, 0x40)]
       ({ State.reset with
           core := State.reset.core.set .west { coreReset with inbox := [(30, [3])] },
           net := { netReset with
               msgs := [(3,
                     { blankMsg .memRd 70 (unitNode .west 30) 513 33 1 with
                         tgt := ⟨0, 0xFFE, (2 ^ 39 - 64)⟩,
                         len := 64,
                         hold := .s })],
               next := 9,
               idone := [⟨.catWrite (63 * 2 ^ 36 + 2 ^ 32 - 1) 5, .west, 33, true, 0, false⟩] },
           cat := State.reset.cat.set .west
             { catReset with
               txns := [((63 * 2 ^ 36 + 2 ^ 32 - 1),
                     { newTxn .recall (none) with
                         pend := [],
                         snp := .none,
                         keep := .i,
                         wb := none,
                         writes := [⟨5, 0x77, false,
                               .absorb (some ({ blankMsg .memWr 70 (unitNode .west 30) 513 33 1 with
                                       tgt := ⟨0, 0xFFE, (2 ^ 39 - 64)⟩,
                                       len := 64,
                                       hold := .i,
                                       data := 0x77 }))⟩],
                         devRd := 0,
                         data := 0,
                         devWr := false })] },
           binds := State.reset.binds.set .west ⟨[(33, 70)], [], []⟩ });
     let h : Half := .west;
     let k : Nat := (63 * 2 ^ 36 + 2 ^ 32 - 1);
     let id : Nat := 5;
     let m : Msg := { blankMsg .memWr 70 (unitNode .west 30) 513 33 1 with
         tgt := ⟨0, 0xFFE, (2 ^ 39 - 64)⟩,
         len := 64,
         hold := .i,
         data := 0x77 };
     let x : Txn := { newTxn .recall (none) with
         pend := [],
         snp := .none,
         keep := .i,
         wb := none,
         writes := [⟨5, 0x77, false,
               .absorb (some ({ blankMsg .memWr 70 (unitNode .west 30) 513 33 1 with
                       tgt := ⟨0, 0xFFE, (2 ^ 39 - 64)⟩,
                       len := 64,
                       hold := .i,
                       data := 0x77 }))⟩],
         devRd := 0,
         data := 0,
         devWr := false };
     let r : IDone := ⟨.catWrite (63 * 2 ^ 36 + 2 ^ 32 - 1) 5, .west, 33, true, 0, false⟩;
     let cw : CatWr := ⟨5, 0x77, false,
         .absorb (some ({ blankMsg .memWr 70 (unitNode .west 30) 513 33 1 with
                 tgt := ⟨0, 0xFFE, (2 ^ 39 - 64)⟩,
                 len := 64,
                 hold := .i,
                 data := 0x77 }))⟩;
     let carried := nodeHalf m.src = h ∨ s.phase h = phUP ∨ s.phase h = phRETRAIN;
     (s.net.idone = [r]) ∧ (r.half = h) ∧ (r.own = .catWrite k id) ∧ (r.ok = true) ∧ (txnOf s h k = some x) ∧
       (x.kind = .recall) ∧ (x.pend = []) ∧ (x.writes = [cw]) ∧ (cw.id = id) ∧ (cw.use = .absorb (some m)) ∧
       (x.devRd = 0) ∧ (x.devWr = false) ∧ (m.op = .memWr) ∧ (m.itag = none) ∧ (m.src < 128) ∧ (carried) ∧
       (findEnt s h k = none)) ∧
    (let s : State := setW [(CAT_WIN_CTL .west 63, 0xC0000000 + 38 * 2^18 + 31 * 2^13 + 3 * 2^11 + 15),
         (CAT_WIN_BASE_LO .west 63 + 4, 0x40)]
       ({ State.reset with
           core := State.reset.core.set .west { coreReset with inbox := [(30, [3])] },
           net := { netReset with
               msgs := [(3,
                     { blankMsg .memRd 70 (unitNode .west 30) 513 33 1 with
                         tgt := ⟨0, 0xFFE, (2 ^ 39 - 64)⟩,
                         len := 64,
                         hold := .s })],
               next := 9,
               idone := [⟨.catWrite (63 * 2 ^ 36 + 2 ^ 32 - 1) 5, .west, 33, false, 0, false⟩] },
           cat := State.reset.cat.set .west
             { catReset with
               ents := [(((setFull 63 (2 ^ 32 - 1) % 2 ^ 18) * 16 + 15),
                     ⟨63, 2 ^ 32 - 1, 2 ^ 32, false, some 7, false, 0⟩)],
               slots := [((slotKey 63 (2 ^ 32 - 1) 7), ⟨63, 2 ^ 32 - 1, 0xABCD, 3, 0⟩)],
               txns := [((63 * 2 ^ 36 + 2 ^ 32 - 1),
                     { newTxn .lsEvict (none) with
                         pend := [],
                         snp := .none,
                         keep := .i,
                         wb := none,
                         writes := [⟨5, 0x99, false, .slot⟩],
                         devRd := 0,
                         data := 0,
                         devWr := false })] },
           binds := State.reset.binds.set .west ⟨[(33, 70)], [], []⟩ });
     let h : Half := .west;
     let k : Nat := (63 * 2 ^ 36 + 2 ^ 32 - 1);
     let i : Nat := ((setFull 63 (2 ^ 32 - 1) % 2 ^ 18) * 16 + 15);
     let id : Nat := 5;
     let e : CatEnt := ⟨63, 2 ^ 32 - 1, 2 ^ 32, false, some 7, false, 0⟩;
     let sl : LsSlot := ⟨63, 2 ^ 32 - 1, 0xABCD, 3, 0⟩;
     let x : Txn := { newTxn .lsEvict (none) with
         pend := [],
         snp := .none,
         keep := .i,
         wb := none,
         writes := [⟨5, 0x99, false, .slot⟩],
         devRd := 0,
         data := 0,
         devWr := false };
     let way : Nat := 7;
     let r : IDone := ⟨.catWrite (63 * 2 ^ 36 + 2 ^ 32 - 1) 5, .west, 33, false, 0, false⟩;
     let cw : CatWr := ⟨5, 0x99, false, .slot⟩;
     let slot (u : State) : Option LsSlot := mfind (u.cat.get h).slots (slotKey e.win e.l way);
     let held := findEnt s h k = some (i, e);
     (s.net.idone = [r]) ∧ (r.half = h) ∧ (r.own = .catWrite k id) ∧ (txnOf s h k = some x) ∧ (x.kind = .lsEvict) ∧
       (x.pend = []) ∧ (x.writes = [cw]) ∧ (cw.id = id) ∧ (cw.use = .slot) ∧ (x.devRd = 0) ∧ (x.devWr = false) ∧
       (held) ∧ (e.hold ≠ 0) ∧ (e.slot = some way) ∧ (slot s = some sl)) ∧
    (let s : State := setW [(CAT_WIN_CTL .west 63, 0xC0000000 + 38 * 2^18 + 31 * 2^13 + 3 * 2^11 + 15),
         (CAT_WIN_BASE_LO .west 63 + 4, 0x40)]
       ({ State.reset with
           core := State.reset.core.set .west { coreReset with inbox := [(30, [3])] },
           net := { netReset with
               msgs := [(3,
                     { blankMsg .memWr 70 (unitNode .west 30) 513 33 1 with
                         tgt := ⟨0, 0xFFE, (2 ^ 39 - 64)⟩,
                         len := 64,
                         hold := .i,
                         data := 0x77 })],
               next := 9 },
           cat := State.reset.cat.set .west
             { catReset with
               ents := [(((setFull 63 (2 ^ 32 - 1) % 2 ^ 18) * 16 + 15),
                     ⟨63, 2 ^ 32 - 1, 2 ^ 33, true, some 7, false, 0⟩)],
               slots := [((slotKey 63 (2 ^ 32 - 1) 7), ⟨63, 2 ^ 32 - 1, 0xABCD, 3, 0⟩)],
               txns := [((63 * 2 ^ 36 + 2 ^ 32 - 1),
                     { newTxn .rdOwn (some ({ blankMsg .memRd 70 (unitNode .west 30) 513 33 1 with
                               tgt := ⟨0, 0xFFE, (2 ^ 39 - 64)⟩,
                               len := 64,
                               hold := .s })) with
                         pend := [33, 40],
                         snp := .inv,
                         keep := .i,
                         wb := none,
                         writes := [],
                         devRd := 0,
                         data := 0,
                         devWr := false })] },
           binds := State.reset.binds.set .west ⟨[(33, 70)], [], []⟩ });
     let h : Half := .west;
     let n : Nat := 3;
     let k : Nat := (63 * 2 ^ 36 + 2 ^ 32 - 1);
     let i : Nat := ((setFull 63 (2 ^ 32 - 1) % 2 ^ 18) * 16 + 15);
     let m : Msg := { blankMsg .memWr 70 (unitNode .west 30) 513 33 1 with
         tgt := ⟨0, 0xFFE, (2 ^ 39 - 64)⟩,
         len := 64,
         hold := .i,
         data := 0x77 };
     let e : CatEnt := ⟨63, 2 ^ 32 - 1, 2 ^ 33, true, some 7, false, 0⟩;
     let x : Txn := { newTxn .rdOwn
         (some ({ blankMsg .memRd 70 (unitNode .west 30) 513 33 1 with
               tgt := ⟨0, 0xFFE, (2 ^ 39 - 64)⟩,
               len := 64,
               hold := .s })) with
         pend := [33, 40],
         snp := .inv,
         keep := .i,
         wb := none,
         writes := [],
         devRd := 0,
         data := 0,
         devWr := false };
     let way : Nat := 7;
     let alone := lget (s.core.get h).inbox 30 = [n] ∧ s.msg n = some m;
     let carried := nodeHalf m.src = h ∨ s.phase h = phUP ∨ s.phase h = phRETRAIN;
     let held := findEnt s h k = some (i, e);
     (alone) ∧ (msgLine s h m = some k) ∧ (isWriteBack s h k m = true) ∧ (m.itag = none) ∧ (carried) ∧
       (txnOf s h k = some x) ∧ (held) ∧ (e.slot = some way)) ∧
    (let s : State := setW [(CAT_WIN_CTL .west 63, 0xC0000000 + 38 * 2^18 + 31 * 2^13 + 3 * 2^11 + 15),
         (CAT_WIN_BASE_LO .west 63 + 4, 0x40)]
       ({ State.reset with
           core := State.reset.core.set .west { coreReset with inbox := [(30, [3])] },
           net := { netReset with
               msgs := [(3, { blankMsg .biRsp 70 (unitNode .west 30) (63 * 2 ^ 36 + 2 ^ 32 - 1) 33 1 with hold := .i })],
               next := 9 },
           cat := State.reset.cat.set .west
             { catReset with
               ents := [(((setFull 63 (2 ^ 32 - 1) % 2 ^ 18) * 16 + 15),
                     ⟨63, 2 ^ 32 - 1, 2 ^ 33, false, none, false, 0⟩)],
               txns := [((63 * 2 ^ 36 + 2 ^ 32 - 1),
                     { newTxn .recall (none) with
                         pend := [33],
                         snp := .inv,
                         keep := .i,
                         wb := none,
                         writes := [],
                         devRd := 0,
                         data := 0,
                         devWr := false })] },
           binds := State.reset.binds.set .west ⟨[(33, 70)], [], []⟩ });
     let h : Half := .west;
     let n : Nat := 3;
     let k : Nat := (63 * 2 ^ 36 + 2 ^ 32 - 1);
     let i : Nat := ((setFull 63 (2 ^ 32 - 1) % 2 ^ 18) * 16 + 15);
     let t : Nat := 33;
     let m : Msg := { blankMsg .biRsp 70 (unitNode .west 30) (63 * 2 ^ 36 + 2 ^ 32 - 1) 33 1 with hold := .i };
     let e : CatEnt := ⟨63, 2 ^ 32 - 1, 2 ^ 33, false, none, false, 0⟩;
     let x : Txn := { newTxn .recall (none) with
         pend := [33],
         snp := .inv,
         keep := .i,
         wb := none,
         writes := [],
         devRd := 0,
         data := 0,
         devWr := false };
     let alone := lget (s.core.get h).inbox 30 = [n] ∧ s.msg n = some m;
     let held := findEnt s h k = some (i, e);
     (alone) ∧ (m.op = .biRsp) ∧ (m.tag = k) ∧ (m.tenant = t) ∧ (m.hold = .i) ∧ (txnOf s h k = some x) ∧
       (x.snp = .inv) ∧ (t ∈ x.pend) ∧ (held) ∧ (x.pend = [t]) ∧ (x.kind = .recall) ∧ (x.devRd = 0) ∧
       (x.devWr = false) ∧ (x.writes = []) ∧ (e.hold = 2 ^ t) ∧ (e.slot = none)) ∧
    (let s : State := setW [(CAT_WIN_CTL .west 63, 0xC0000000 + 38 * 2^18 + 31 * 2^13 + 3 * 2^11 + 15),
         (CAT_WIN_BASE_LO .west 63 + 4, 0x40)]
       ({ State.reset with
           core := State.reset.core.set .west { coreReset with inbox := [(30, [3])] },
           net := { netReset with
               msgs := [(3, { blankMsg .biRsp 70 (unitNode .west 30) (63 * 2 ^ 36 + 2 ^ 32 - 1) 33 1 with hold := .i })],
               next := 9 },
           cat := State.reset.cat.set .west
             { catReset with
               ents := [(((setFull 63 (2 ^ 32 - 1) % 2 ^ 18) * 16 + 15),
                     ⟨63, 2 ^ 32 - 1, 2 ^ 33 + 2 ^ 40, false, none, false, 0⟩)],
               txns := [((63 * 2 ^ 36 + 2 ^ 32 - 1),
                     { newTxn .rdOwn (some ({ blankMsg .memRd 70 (unitNode .west 30) 513 33 1 with
                               tgt := ⟨0, 0xFFE, (2 ^ 39 - 64)⟩,
                               len := 64,
                               hold := .s })) with
                         pend := [33, 40],
                         snp := .inv,
                         keep := .i,
                         wb := none,
                         writes := [],
                         devRd := 0,
                         data := 0,
                         devWr := false })] },
           binds := State.reset.binds.set .west ⟨[(33, 70)], [], []⟩ });
     let h : Half := .west;
     let n : Nat := 3;
     let k : Nat := (63 * 2 ^ 36 + 2 ^ 32 - 1);
     let i : Nat := ((setFull 63 (2 ^ 32 - 1) % 2 ^ 18) * 16 + 15);
     let t : Nat := 33;
     let m : Msg := { blankMsg .biRsp 70 (unitNode .west 30) (63 * 2 ^ 36 + 2 ^ 32 - 1) 33 1 with hold := .i };
     let e : CatEnt := ⟨63, 2 ^ 32 - 1, 2 ^ 33 + 2 ^ 40, false, none, false, 0⟩;
     let x : Txn := { newTxn .rdOwn
         (some ({ blankMsg .memRd 70 (unitNode .west 30) 513 33 1 with
               tgt := ⟨0, 0xFFE, (2 ^ 39 - 64)⟩,
               len := 64,
               hold := .s })) with
         pend := [33, 40],
         snp := .inv,
         keep := .i,
         wb := none,
         writes := [],
         devRd := 0,
         data := 0,
         devWr := false };
     let alone := lget (s.core.get h).inbox 30 = [n] ∧ s.msg n = some m;
     let held := findEnt s h k = some (i, e);
     (alone) ∧ (m.op = .biRsp) ∧ (m.tag = k) ∧ (m.tenant = t) ∧ (m.hold = .i) ∧ (txnOf s h k = some x) ∧
       (x.snp = .inv) ∧ (t ∈ x.pend) ∧ (held) ∧ (x.pend.erase t ≠ [])) ∧
    (let s : State := setW [(CAT_WIN_CTL .west 63, 0xC0000000 + 38 * 2^18 + 31 * 2^13 + 3 * 2^11 + 15),
         (CAT_WIN_BASE_LO .west 63 + 4, 0x40)]
       ({ State.reset with
           core := State.reset.core.set .west { coreReset with inbox := [(30, [])] },
           net := { netReset with
               msgs := [(3,
                     { blankMsg .memRd 70 (unitNode .west 30) 513 33 1 with
                         tgt := ⟨0, 0xFFE, (2 ^ 39 - 64)⟩,
                         len := 64,
                         hold := .s })],
               next := 9 },
           cat := State.reset.cat.set .west { catReset with wait := [3] },
           binds := State.reset.binds.set .west ⟨[(33, 70)], [], []⟩ });
     let h : Half := .west;
     let n : Nat := 3;
     let k : Nat := (63 * 2 ^ 36 + 2 ^ 32 - 1);
     let m : Msg := { blankMsg .memRd 70 (unitNode .west 30) 513 33 1 with
         tgt := ⟨0, 0xFFE, (2 ^ 39 - 64)⟩,
         len := 64,
         hold := .s };
     let c := s.cat.get h;
     let set := setOf s h (lineWin k) (lineL k);
     let carried := nodeHalf m.src = h ∨ s.phase h = phUP ∨ s.phase h = phRETRAIN;
     let shared := m.op = .memRd ∧ m.hold = .s ∧ m.itag = none ∧ m.src < 128 ∧ m.deny = false ∧ carried;
     let fresh := lineWin k < 64 ∧ findEnt s h k = none ∧ tainted s h set = false ∧ (freeWay s h set).isSome = true;
     (waitNext s h = some (n, m)) ∧ (msgLine s h m = some k) ∧ (c.pass = none) ∧ (shared) ∧ (fresh)) ∧
    (let s : State := setW [(CAT_WIN_CTL .west 63, 0xC0000000 + 38 * 2^18 + 31 * 2^13 + 3 * 2^11 + 15),
         (CAT_WIN_BASE_LO .west 63 + 4, 0x40)]
       ({ State.reset with
           core := State.reset.core.set .west { coreReset with inbox := [(30, [3])] },
           net := { netReset with
               msgs := [(3,
                     { blankMsg .memRd 70 (unitNode .west 30) 513 33 1 with
                         tgt := ⟨0, 0xFFE, (2 ^ 39 - 64)⟩,
                         len := 64,
                         hold := .s })],
               next := 9 },
           cat := State.reset.cat.set .west
             { catReset with
               ents := [(((setFull 63 (2 ^ 32 - 1) % 2 ^ 18) * 16 + 15),
                     ⟨63, 2 ^ 32 - 1, 2 ^ 32, false, some 7, false, 0⟩)],
               slots := [((slotKey 63 (2 ^ 32 - 1) 7), ⟨63, 2 ^ 32 - 1, 0xABCD, 3, 0⟩)] },
           binds := State.reset.binds.set .west ⟨[(33, 70)], [], []⟩ });
     let h : Half := .west;
     let n : Nat := 3;
     let w : Nat := 63;
     let k : Nat := (63 * 2 ^ 36 + 2 ^ 32 - 1);
     let i : Nat := ((setFull 63 (2 ^ 32 - 1) % 2 ^ 18) * 16 + 15);
     let m : Msg := { blankMsg .memRd 70 (unitNode .west 30) 513 33 1 with
         tgt := ⟨0, 0xFFE, (2 ^ 39 - 64)⟩,
         len := 64,
         hold := .s };
     let e : CatEnt := ⟨63, 2 ^ 32 - 1, 2 ^ 32, false, some 7, false, 0⟩;
     let sl : LsSlot := ⟨63, 2 ^ 32 - 1, 0xABCD, 3, 0⟩;
     let way : Nat := 7;
     let c := s.cat.get h;
     let alone := lget (s.core.get h).inbox 30 = [n] ∧ s.msg n = some m;
     let carried := nodeHalf m.src = h ∨ s.phase h = phUP ∨ s.phase h = phRETRAIN;
     let shared := m.op = .memRd ∧ m.hold = .s ∧ m.itag = none ∧ m.src < 128 ∧ m.deny = false ∧ carried;
     let line := findWin s h (memSub m.tgt.idx) (memLd m.tgt.idx) m.tgt.addr = some w ∧ k = lineKey w
       ((m.tgt.addr - winBase s h w) / 64) ∧ lineWin k = w;
     let calm := catRoom s h = true ∧ c.pass = none ∧ c.taintFull = false ∧ scrubQueued s h m.tenant = false ∧
       slotFenced s h k = false ∧ txnOf s h k = none ∧ lineAwaited s h k = false;
     let slot (u : State) : Option LsSlot := mfind (u.cat.get h).slots (slotKey e.win e.l way);
     let held := findEnt s h k = some (i, e);
     (alone) ∧ (shared) ∧ (line) ∧ (calm) ∧ (held) ∧ (e.excl = false) ∧ (quarantined s h e = false) ∧
       (e.slot = some way) ∧ (slot s = some sl)) ∧
    (let s : State := setW [(CAT_WIN_CTL .west 63, 0xC0000000 + 38 * 2^18 + 31 * 2^13 + 3 * 2^11 + 15),
         (CAT_WIN_BASE_LO .west 63 + 4, 0x40)]
       ({ State.reset with
           core := State.reset.core.set .west { coreReset with inbox := [(30, [3])] },
           net := { netReset with
               msgs := [(3,
                     { blankMsg .memRd 70 (unitNode .west 30) 513 33 1 with
                         tgt := ⟨0, 0xFFE, (2 ^ 39 - 64)⟩,
                         len := 64,
                         hold := .s })],
               next := 9 },
           cat := State.reset.cat.set .west { catReset with clk := 0 },
           binds := State.reset.binds.set .west ⟨[(33, 70)], [], []⟩ });
     let h : Half := .west;
     let n : Nat := 3;
     let w : Nat := 63;
     let k : Nat := (63 * 2 ^ 36 + 2 ^ 32 - 1);
     let m : Msg := { blankMsg .memRd 70 (unitNode .west 30) 513 33 1 with
         tgt := ⟨0, 0xFFE, (2 ^ 39 - 64)⟩,
         len := 64,
         hold := .s };
     let c := s.cat.get h;
     let set := setOf s h (lineWin k) (lineL k);
     let alone := lget (s.core.get h).inbox 30 = [n] ∧ s.msg n = some m;
     let carried := nodeHalf m.src = h ∨ s.phase h = phUP ∨ s.phase h = phRETRAIN;
     let shared := m.op = .memRd ∧ m.hold = .s ∧ m.itag = none ∧ m.src < 128 ∧ m.deny = false ∧ carried;
     let line := findWin s h (memSub m.tgt.idx) (memLd m.tgt.idx) m.tgt.addr = some w ∧ k = lineKey w
       ((m.tgt.addr - winBase s h w) / 64) ∧ lineWin k = w;
     let calm := catRoom s h = true ∧ c.pass = none ∧ c.taintFull = false ∧ scrubQueued s h m.tenant = false ∧
       slotFenced s h k = false ∧ txnOf s h k = none ∧ lineAwaited s h k = false;
     let fresh := lineWin k < 64 ∧ findEnt s h k = none ∧ tainted s h set = false ∧ (freeWay s h set).isSome = true;
     (alone) ∧ (shared) ∧ (line) ∧ (calm) ∧ (fresh)) := by
  refine ⟨?_, ?_, ?_, ?_, ?_, ?_, ?_, ?_, ?_⟩ <;> dsimp only [mayAct, atInstr, regsCanon] <;> decide +kernel

theorem wit_CatalogueWalkerAndImage :
    (let s : State := setW [(CAT_WIN_CTL .west 63, 0xFFFFFFFF), (PRT_LNK_STAT 31 3, 0)]
       ({ State.reset with cat := State.reset.cat.set .west { catReset with pass := some [.disable 63 true] } });
     let m : Master := .obs .west 1;
     let h : Half := .west;
     let j : BitVec 4 := 15;
     let js : List CatJob := [.disable 63 true];
     let c := s.cat.get h;
     let tn (i : Nat) := CAT_TAINT h i;
     let I := j.toNat;
     let ctl := CAT_CTL h;
     let go := c.jobs.filter (jobGoes s h);
     (mayAct s m (tn I)) ∧ ((c.pass.isSome = true ∨ go = [])) ∧ (c.pass = some js) ∧ (mayAct s m ctl) ∧
       (finderOnly s = false) ∧ (s.flag ctl CAT_CTL_IMG_EN = false) ∧ (c.copying = false)) ∧
    (let s : State := setF [(CAT_CTL .west, CAT_CTL_IMG_EN, 1)]
       ({ State.reset with
           cat := State.reset.cat.set .west
             { catReset with
               copying := true,
               ents := [(5, ⟨63, 2 ^ 32 - 1, 1, false, none, false, 0⟩),
                   (9, ⟨1, 2 ^ 32 - 1, 1, false, none, false, 0⟩)] } });
     let h : Half := .west;
     let c := s.cat.get h;
     (c.pass = none) ∧ (c.copying = true)) ∧
    (let s : State := { State.reset with
         cat := State.reset.cat.set .west { catReset with jobs := [.scrub 63, .disable 63 true] } };
     let h : Half := .west;
     let c := s.cat.get h;
     let go := c.jobs.filter (jobGoes s h);
     (c.pass = none) ∧ (go ≠ [])) := by
  refine ⟨?_, ?_, ?_⟩ <;> dsimp only [mayAct, atInstr, regsCanon] <;> decide +kernel

theorem wit_StackerTakesLinesAndEndsJobs :
    (let s : State := setF [(STK_JOB_STAT .west 511, STK_JOB_STAT_STATE, 2)]
       ({ State.reset with
           core := State.reset.core.set .west { coreReset with inbox := [(27, [3])] },
           net := { netReset with
               msgs := [(3,
                     { blankMsg .mWr 70 (unitNode .west 27) 9 40 0 with
                         tgt := ⟨9, 1023, 1023 * 2 ^ 30 + 16384+64⟩,
                         ld := 7,
                         len := 64,
                         data := 0x3F8000003F800000 })],
               next := 9,
               idone := [] },
           stk := (State.reset.stk.set .west
               ⟨[(511,
                       {
                           ctx := ((List.range 320).map fun k => if k = 0 then 0 else if k = 1 then 8192 else if k = 2
                               then 127 * 2^16 + 31 else if k = 6 then 1 else if k = 7 then 0x80000000 else if k = 64
                               then 33 * 2^9 + 5 else if k = 316 then 40 * 2^9 + 7 else 0),
                           start := 0,
                           chip := 2,
                           spill := 0,
                           farChip := 0,
                           farSpill := 0,
                           expLines := [],
                           expMax := [],
                           chunks := [],
                           complete := [(1, 0)],
                           todo := [],
                           retried := [],
                           written := [],
                           nWritten := 0,
                           seq := 0,
                           since := 0,
                           commit := none,
                           endAt := none,
                           early := false,
                           lost := false,
                           dest := false })], [], []⟩).set .east ⟨[], [], []⟩ });
     let m : Master := .obs .west 1;
     let h : Half := .west;
     let q : BitVec 2 := 3;
     let j : BitVec 10 := 1023;
     let n : Nat := 3;
     let i : Nat := 63;
     let k : Nat := 1;
     let g : Msg := { blankMsg .mWr 70 (unitNode .west 27) 9 40 0 with
         tgt := ⟨9, 1023, 1023 * 2 ^ 30 + 16384+64⟩,
         ld := 7,
         len := 64,
         data := 0x3F8000003F800000 };
     let x : Job := {
         ctx := ((List.range 320).map fun k => if k = 0 then 0 else if k = 1 then 8192 else if k = 2 then 127 * 2^16 +
             31 else if k = 6 then 1 else if k = 7 then 0x80000000 else if k = 64 then 33 * 2^9 + 5 else if k = 316
             then 40 * 2^9 + 7 else 0),
         start := 0,
         chip := 2,
         spill := 0,
         farChip := 0,
         farSpill := 0,
         expLines := [],
         expMax := [],
         chunks := [],
         complete := [(1, 0)],
         todo := [],
         retried := [],
         written := [],
         nWritten := 0,
         seq := 0,
         since := 0,
         commit := none,
         endAt := none,
         early := false,
         lost := false,
         dest := false };
     let J := j.toNat;
     let H := jobHalf J;
     let c := x.chunk k;
     let l := lineIn x.ctx g;
     let c' := applyLine x k l g.data { c with lines := nset c.lines l (nget c.lines l ||| 2 ^ i) };
     let arrives := lget (s.core.get h).inbox (24 + q.toNat) = [n] ∧ s.msg n = some g ∧ lineJob g = J ∧ h = H;
     let addend := jobOf s J = some x ∧ x.endAt = none ∧ badLineWrite (some x.ctx) g = false ∧ contributor x.ctx g =
       some i ∧ lineExp g = false ∧ jobState s J = jsADD ∧ k = lineChunk x.ctx g ∧ jobWbase s J ≤ k ∧ k < jobWbase s J
       + cxWin x.ctx;
     let got := bitB (nget c.lines l) i;
     (arrives) ∧ (addend) ∧ (got = false) ∧ (chunkDone { x with chunks := minsert x.chunks k c' } k = false) ∧
       (jobOf s J = some x) ∧ (x.endAt = none) ∧ (s.net.idone = []) ∧ (x.todo = []) ∧ (x.complete = [(k, 0)]) ∧
       (x.nWritten + 1 ≠ nChunks x.ctx) ∧ (cxNote x.ctx = 0) ∧ (jobExpired s J x = false) ∧ (mayAct s m (STK_CTL h)) ∧
       (finderOnly s = false)) ∧
    (let s : State := setF [(STK_JOB_STAT .west 511, STK_JOB_STAT_STATE, 2),
         (MRD_NOW_LO .west, ⟨0, 32, .ro, 0, false⟩, 4000000000)]
       ({ State.reset with
           core := State.reset.core.set .west { coreReset with inbox := [(27, [3])] },
           net := { netReset with
               msgs := [(3,
                     { blankMsg .mWr 70 (unitNode .west 27) 9 40 0 with
                         tgt := ⟨9, 1023, 1023 * 2 ^ 30 + 16384+64⟩,
                         ld := 7,
                         len := 64,
                         data := 0x3F8000003F800000 })],
               next := 9,
               idone := [] },
           stk := (State.reset.stk.set .west
               ⟨[(511,
                       {
                           ctx := ((List.range 320).map fun k => if k = 0 then 0 else if k = 1 then 8192 else if k = 2
                               then 127 * 2^16 + 31 else if k = 6 then 1 else if k = 7 then 0x80000000 else if k = 64
                               then 33 * 2^9 + 5 else if k = 316 then 40 * 2^9 + 7 else if k = 3 then 1 else 0),
                           start := 0,
                           chip := 2,
                           spill := 0,
                           farChip := 0,
                           farSpill := 0,
                           expLines := [],
                           expMax := [],
                           chunks := [],
                           complete := [],
                           todo := [],
                           retried := [],
                           written := [],
                           nWritten := 0,
                           seq := 0,
                           since := 0,
                           commit := none,
                           endAt := none,
                           early := false,
                           lost := false,
                           dest := false })], [], []⟩).set .east ⟨[], [], []⟩ });
     let j : BitVec 10 := 1023;
     let x : Job := {
         ctx := ((List.range 320).map fun k => if k = 0 then 0 else if k = 1 then 8192 else if k = 2 then 127 * 2^16 +
             31 else if k = 6 then 1 else if k = 7 then 0x80000000 else if k = 64 then 33 * 2^9 + 5 else if k = 316
             then 40 * 2^9 + 7 else if k = 3 then 1 else 0),
         start := 0,
         chip := 2,
         spill := 0,
         farChip := 0,
         farSpill := 0,
         expLines := [],
         expMax := [],
         chunks := [],
         complete := [],
         todo := [],
         retried := [],
         written := [],
         nWritten := 0,
         seq := 0,
         since := 0,
         commit := none,
         endAt := none,
         early := false,
         lost := false,
         dest := false };
     let J := j.toNat;
     (jobOf s J = some x) ∧ (jobExpired s J x = true) ∧ (x.complete = [])) ∧
    (let s : State := setF [(STK_JOB_STAT .west 511, STK_JOB_STAT_STATE, 2)]
       ({ State.reset with
           core := State.reset.core.set .west { coreReset with inbox := [(27, [3])] },
           net := { netReset with
               msgs := [(3,
                     { blankMsg .mWr 70 (unitNode .west 27) 9 40 0 with
                         tgt := ⟨9, 1023, 1023 * 2 ^ 30 + 16384+64⟩,
                         ld := 7,
                         len := 64,
                         data := 0x3F8000003F800000 })],
               next := 9,
               idone := [⟨.stk 1023 1 255 0, .west, 0, false, 0, false⟩] },
           stk := (State.reset.stk.set .west
               ⟨[(511,
                       {
                           ctx := ((List.range 320).map fun k => if k = 0 then 0 else if k = 1 then 8192 else if k = 2
                               then 127 * 2^16 + 31 else if k = 6 then 1 else if k = 7 then 0x80000000 else if k = 64
                               then 33 * 2^9 + 5 else if k = 316 then 40 * 2^9 + 7 else 0),
                           start := 0,
                           chip := 2,
                           spill := 0,
                           farChip := 0,
                           farSpill := 0,
                           expLines := [],
                           expMax := [],
                           chunks := [],
                           complete := [(1, 2)],
                           todo := [],
                           retried := [(1 * 1024 + 255, 0)],
                           written := [],
                           nWritten := 0,
                           seq := 0,
                           since := 0,
                           commit := none,
                           endAt := none,
                           early := false,
                           lost := false,
                           dest := false })], [], []⟩).set .east ⟨[], [], []⟩ });
     let j : BitVec 10 := 1023;
     let n : Nat := 255;
     let k : Nat := 1;
     let x : Job := {
         ctx := ((List.range 320).map fun k => if k = 0 then 0 else if k = 1 then 8192 else if k = 2 then 127 * 2^16 +
             31 else if k = 6 then 1 else if k = 7 then 0x80000000 else if k = 64 then 33 * 2^9 + 5 else if k = 316
             then 40 * 2^9 + 7 else 0),
         start := 0,
         chip := 2,
         spill := 0,
         farChip := 0,
         farSpill := 0,
         expLines := [],
         expMax := [],
         chunks := [],
         complete := [(1, 2)],
         todo := [],
         retried := [(1 * 1024 + 255, 0)],
         written := [],
         nWritten := 0,
         seq := 0,
         since := 0,
         commit := none,
         endAt := none,
         early := false,
         lost := false,
         dest := false };
     let d : IDone := ⟨.stk 1023 1 255 0, .west, 0, false, 0, false⟩;
     let J := j.toNat;
     (jobOf s J = some x) ∧ (x.todo = []) ∧ (s.net.idone = [d]) ∧ (d.own = .stk J k n 0) ∧ (d.ok = false) ∧ (n < 1024)
       ∧ ((mfind x.complete k).isSome = true) ∧ (x.retried = [(k * 1024 + n, 0)])) ∧
    (let s : State := setF [(STK_JOB_STAT .west 511, STK_JOB_STAT_STATE, 2)]
       ({ State.reset with
           core := State.reset.core.set .west { coreReset with inbox := [(27, [3])] },
           net := { netReset with
               msgs := [(3,
                     { blankMsg .mWr 70 (unitNode .west 27) 9 40 0 with
                         tgt := ⟨9, 1023, 1023 * 2 ^ 30 + 16384+64⟩,
                         ld := 7,
                         len := 64,
                         data := 0x3F8000003F800000 })],
               next := 9,
               idone := [⟨.stk 1023 1 255 0, .west, 0, false, 0, false⟩] },
           stk := (State.reset.stk.set .west
               ⟨[(511,
                       {
                           ctx := ((List.range 320).map fun k => if k = 0 then 0 else if k = 1 then 8192 else if k = 2
                               then 127 * 2^16 + 31 else if k = 6 then 1 else if k = 7 then 0x80000000 else if k = 64
                               then 33 * 2^9 + 5 else if k = 316 then 40 * 2^9 + 7 else 0),
                           start := 0,
                           chip := 2,
                           spill := 0,
                           farChip := 0,
                           farSpill := 0,
                           expLines := [],
                           expMax := [],
                           chunks := [],
                           complete := [(1, 2)],
                           todo := [],
                           retried := [],
                           written := [],
                           nWritten := 0,
                           seq := 0,
                           since := 0,
                           commit := none,
                           endAt := none,
                           early := false,
                           lost := false,
                           dest := false })], [], []⟩).set .east ⟨[], [], []⟩ });
     let j : BitVec 10 := 1023;
     let n : Nat := 255;
     let k : Nat := 1;
     let x : Job := {
         ctx := ((List.range 320).map fun k => if k = 0 then 0 else if k = 1 then 8192 else if k = 2 then 127 * 2^16 +
             31 else if k = 6 then 1 else if k = 7 then 0x80000000 else if k = 64 then 33 * 2^9 + 5 else if k = 316
             then 40 * 2^9 + 7 else 0),
         start := 0,
         chip := 2,
         spill := 0,
         farChip := 0,
         farSpill := 0,
         expLines := [],
         expMax := [],
         chunks := [],
         complete := [(1, 2)],
         todo := [],
         retried := [],
         written := [],
         nWritten := 0,
         seq := 0,
         since := 0,
         commit := none,
         endAt := none,
         early := false,
         lost := false,
         dest := false };
     let d : IDone := ⟨.stk 1023 1 255 0, .west, 0, false, 0, false⟩;
     let J := j.toNat;
     (jobOf s J = some x) ∧ (x.todo = []) ∧ (s.net.idone = [d]) ∧ (d.own = .stk J k n 0) ∧ (d.ok = false) ∧ (n < 1024)
       ∧ ((mfind x.complete k).isSome = true) ∧ (x.retried = [])) ∧
    (let s : State := setF [(STK_JOB_STAT .west 511, STK_JOB_STAT_STATE, 2), (CDB_STAT .west, CDB_STAT_PHASE, 0),
         (CDB_STAT .east, CDB_STAT_PHASE, 0)]
       ({ State.reset with
           core := State.reset.core.set .west { coreReset with inbox := [(27, [3])] },
           net := { netReset with
               msgs := [(3,
                     { blankMsg .mWr 70 (unitNode .west 27) 9 40 0 with
                         tgt := ⟨9, 1023, 1023 * 2 ^ 30 + 16384+64⟩,
                         ld := 7,
                         len := 64,
                         data := 0x3F8000003F800000 })],
               next := 9,
               idone := [] },
           stk := (State.reset.stk.set .west
               ⟨[(511,
                       {
                           ctx := ((List.range 320).map fun k => if k = 0 then 0x00010000 else if k = 1 then 8192 else
                               if k = 2 then 127 * 2^16 + 31 else if k = 6 then 1 else if k = 7 then 0x80000000 else
                               if k = 64 then 33 * 2^9 + 5 else if k = 316 then 40 * 2^9 + 7 else 0),
                           start := 0,
                           chip := 2,
                           spill := 0,
                           farChip := 0,
                           farSpill := 0,
                           expLines := [],
                           expMax := [],
                           chunks := [],
                           complete := [],
                           todo := [],
                           retried := [],
                           written := [],
                           nWritten := 0,
                           seq := 0,
                           since := 0,
                           commit := none,
                           endAt := none,
                           early := false,
                           lost := false,
                           dest := false })], [], []⟩).set .east
             ⟨[], [(1023, [(0, ⟨(List.range 256).map fun i => (i, 1), [(0, 5), (4095, -7)], [(3, 1)]⟩)])], []⟩,
           binds := State.reset.binds.set .west ⟨[(33, 3), (40, 70)], [], []⟩ });
     let j : BitVec 10 := 1023;
     let kk : BitVec 14 := 0;
     let x : Job := {
         ctx := ((List.range 320).map fun k => if k = 0 then 0x00010000 else if k = 1 then 8192 else if k = 2 then 127
             * 2^16 + 31 else if k = 6 then 1 else if k = 7 then 0x80000000 else if k = 64 then 33 * 2^9 + 5 else if k
             = 316 then 40 * 2^9 + 7 else 0),
         start := 0,
         chip := 2,
         spill := 0,
         farChip := 0,
         farSpill := 0,
         expLines := [],
         expMax := [],
         chunks := [],
         complete := [],
         todo := [],
         retried := [],
         written := [],
         nWritten := 0,
         seq := 0,
         since := 0,
         commit := none,
         endAt := none,
         early := false,
         lost := false,
         dest := false };
     let p : Chunk := ⟨(List.range 256).map fun i => (i, 1), [(0, 5), (4095, -7)], [(3, 1)]⟩;
     let J := j.toNat;
     let H := jobHalf J;
     let K := kk.toNat;
     let y := mergePartial x K (farMask s J x.ctx) p;
     let far (u : State) : Option Chunk := mfind ((mfind (u.stk.get H.other).shadow J).getD []) K;
     (jobOf s J = some x) ∧ (far s = some p) ∧ (s.phase H = phUP) ∧ (shadowReady x K (farMask s J x.ctx) p = true) ∧
       (partialDup x K (farMask s J x.ctx) = false) ∧ (jobWbase s J ≤ K) ∧ (x.endAt = none) ∧ (chunkDone y K = false)) ∧
    (let s : State := setF [(STK_JOB_STAT .west 511, STK_JOB_STAT_STATE, 2)]
       ({ State.reset with
           core := State.reset.core.set .west { coreReset with inbox := [(27, [3])] },
           net := { netReset with
               msgs := [(3,
                     { blankMsg .mWr 70 (unitNode .west 27) 9 40 0 with
                         tgt := ⟨9, 1023, 1023 * 2 ^ 30 + 16384+64⟩,
                         ld := 7,
                         len := 64,
                         data := 0x3F8000003F800000 })],
               next := 9,
               idone := [] },
           stk := (State.reset.stk.set .west ⟨[], [], []⟩).set .east ⟨[], [], []⟩ });
     let h : Half := .west;
     let q : BitVec 2 := 3;
     let j : BitVec 10 := 1023;
     let n : Nat := 3;
     let g : Msg := { blankMsg .mWr 70 (unitNode .west 27) 9 40 0 with
         tgt := ⟨9, 1023, 1023 * 2 ^ 30 + 16384+64⟩,
         ld := 7,
         len := 64,
         data := 0x3F8000003F800000 };
     let J := j.toNat;
     let H := jobHalf J;
     let arrives := lget (s.core.get h).inbox (24 + q.toNat) = [n] ∧ s.msg n = some g ∧ lineJob g = J ∧ h = H;
     (arrives) ∧ (jobOpen s J = false) ∧ (badLineWrite none g = false)) ∧
    (let s : State := setF [(STK_JOB_STAT .west 511, STK_JOB_STAT_STATE, 2)]
       ({ State.reset with
           core := State.reset.core.set .west { coreReset with inbox := [(27, [3])] },
           net := { netReset with
               msgs := [(3,
                     { blankMsg .mWr 70 (unitNode .west 27) 9 40 0 with
                         tgt := ⟨9, 1023, 1023 * 2 ^ 30 + 16384+64⟩,
                         ld := 7,
                         len := 64,
                         data := 0x3F8000003F800000 })],
               next := 9,
               idone := [] },
           stk := (State.reset.stk.set .west
               ⟨[(511,
                       {
                           ctx := ((List.range 320).map fun k => if k = 0 then 0 else if k = 1 then 8192 else if k = 2
                               then 127 * 2^16 + 31 else if k = 6 then 1 else if k = 7 then 0x80000000 else if k = 64
                               then 33 * 2^9 + 5 else if k = 316 then 40 * 2^9 + 7 else 0),
                           start := 0,
                           chip := 2,
                           spill := 0,
                           farChip := 0,
                           farSpill := 0,
                           expLines := [],
                           expMax := [],
                           chunks := [(1, ⟨[(1, 2 ^ 63)], [], []⟩)],
                           complete := [],
                           todo := [],
                           retried := [],
                           written := [],
                           nWritten := 0,
                           seq := 0,
                           since := 0,
                           commit := none,
                           endAt := none,
                           early := false,
                           lost := false,
                           dest := false })], [], []⟩).set .east ⟨[], [], []⟩ });
     let h : Half := .west;
     let q : BitVec 2 := 3;
     let j : BitVec 10 := 1023;
     let n : Nat := 3;
     let i : Nat := 63;
     let k : Nat := 1;
     let g : Msg := { blankMsg .mWr 70 (unitNode .west 27) 9 40 0 with
         tgt := ⟨9, 1023, 1023 * 2 ^ 30 + 16384+64⟩,
         ld := 7,
         len := 64,
         data := 0x3F8000003F800000 };
     let x : Job := {
         ctx := ((List.range 320).map fun k => if k = 0 then 0 else if k = 1 then 8192 else if k = 2 then 127 * 2^16 +
             31 else if k = 6 then 1 else if k = 7 then 0x80000000 else if k = 64 then 33 * 2^9 + 5 else if k = 316
             then 40 * 2^9 + 7 else 0),
         start := 0,
         chip := 2,
         spill := 0,
         farChip := 0,
         farSpill := 0,
         expLines := [],
         expMax := [],
         chunks := [(1, ⟨[(1, 2 ^ 63)], [], []⟩)],
         complete := [],
         todo := [],
         retried := [],
         written := [],
         nWritten := 0,
         seq := 0,
         since := 0,
         commit := none,
         endAt := none,
         early := false,
         lost := false,
         dest := false };
     let J := j.toNat;
     let H := jobHalf J;
     let c := x.chunk k;
     let l := lineIn x.ctx g;
     let arrives := lget (s.core.get h).inbox (24 + q.toNat) = [n] ∧ s.msg n = some g ∧ lineJob g = J ∧ h = H;
     let addend := jobOf s J = some x ∧ x.endAt = none ∧ badLineWrite (some x.ctx) g = false ∧ contributor x.ctx g =
       some i ∧ lineExp g = false ∧ jobState s J = jsADD ∧ k = lineChunk x.ctx g ∧ jobWbase s J ≤ k ∧ k < jobWbase s J
       + cxWin x.ctx;
     let got := bitB (nget c.lines l) i;
     (arrives) ∧ (addend) ∧ (got = true)) := by
  refine ⟨?_, ?_, ?_, ?_, ?_, ?_, ?_⟩ <;> dsimp only [mayAct, atInstr, regsCanon] <;> decide +kernel

theorem wit_StackerSumsKeepNoOrder :
    let c : Chunk := ⟨[], [(3, 5)], [(3, 1)]⟩;
    (SMap.wf c.acc = true) ∧ (SMap.wf c.spec = true) := by
  dsimp only [mayAct, atInstr, regsCanon]
  decide +kernel

theorem wit_UmpirePageAndFaultLog :
    (let s : State := State.reset;
     let m : Master := .tirop .east;
     let h : Half := .west;
     let o := s.masterHalf m;
     let fl := UMP_FLOG_INFO h;
     let busy := s.flag (UMP_STAT o) UMP_STAT_STG_BUSY;
     let cut := s.phase o = phRETRAIN ∨ s.phase o = phSPLIT;
     (m ≠ .dap) ∧ (busy = false) ∧ (¬ cut) ∧ ((s.ump.get h).copying = false) ∧ (mayAct s m fl)) ∧
    (let s : State := setW [(UMP_ACTIVE .west 32767 7, 77), (UMP_RULE .west 3 1, 5), (UMP_ACTIVE .east 32767 7, 66)]
       { State.reset with ump := State.reset.ump.set .west { umpReset with copying := true } };
     let h : Half := .west;
     ((s.ump.get h).copying = true) ∧ (regsCanon s)) ∧
    (let s : State := setF [(UMP_STAT .west, UMP_STAT_STG_BUSY, 1)];
     let m : Master := .obs .west 1;
     let o := s.masterHalf m;
     let busy := s.flag (UMP_STAT o) UMP_STAT_STG_BUSY;
     (m ≠ .dap) ∧ (busy = true)) ∧
    (let s : State := setF [(CDB_STAT .west, CDB_STAT_PHASE, 2)];
     let m : Master := .obs .west 1;
     let o := s.masterHalf m;
     let busy := s.flag (UMP_STAT o) UMP_STAT_STG_BUSY;
     let cut := s.phase o = phRETRAIN ∨ s.phase o = phSPLIT;
     (m ≠ .dap) ∧ (busy = false) ∧ (cut)) := by
  refine ⟨?_, ?_, ?_, ?_⟩ <;> dsimp only [mayAct, atInstr, regsCanon] <;> decide +kernel

theorem wit_QosLocksGatesAndRotation :
    (let s : State := setF [(QOS_ROT_STAT .west, QOS_ROT_STAT_RESTART, 1), (REF_LCNT .west 6 6, REF_LCNT_FENCED, 1)]
       ({ State.reset with qos := State.reset.qos.set .west { qosReset with biter := some 6, sticky := [6] } });
     let m : Master := .obs .west 1;
     let h : Half := .west;
     let r : Nat := 6;
     let c := QOS_CTL h;
     let st := QOS_ROT_STAT h;
     (mayAct s m c) ∧ (s.flag st QOS_ROT_STAT_RESTART = true) ∧ ((s.qos.get h).biter = some r) ∧ (r < 7)) ∧
    (let s : State := setF [(MRD_TN_LO .west, ⟨0, 32, .ro, 0, false⟩, 1000008)]
       ({ State.reset with
           qos := State.reset.qos.set .west
             { qosReset with arbs := [(31, ⟨2, [0, 1, 0, 0, 0, 0, 3], [], some 6⟩)], lastBite := [(6, 7)] } });
     let h : Half := .west;
     let pc : BitVec 5 := 31;
     let r : Nat := 6;
     let a := arbOf s h pc.toNat;
     (a.granted = some r) ∧ (r < 7)) ∧
    (let s : State := setF [(QOS_ROT_CFG .west, QOS_ROT_CFG_HIGH, 0x00)]
       ({ State.reset with
           qos := State.reset.qos.set .west { qosReset with arbs := [(31, ⟨0, [0, 1, 0, 0, 0, 0, 3], [], none⟩)] } });
     let h : Half := .west;
     let pc : BitVec 5 := 31;
     let wait : List Nat := [1, 6, 7];
     let r : Nat := 1;
     let st := QOS_ROT_STAT h;
     let a := arbOf s h pc.toNat;
     let ws := wait.filter fun r => r < 7 ∧ rotFenced s h r = false;
     let fresh := rotFind a.ptr fun r => ws.contains r && rotHigh s h r && decide (0 < a.quota.getD r 0);
     let turn := rotFind a.ptr fun r => ws.contains r;
     (s.flag st QOS_ROT_STAT_RESTART = false) ∧ (fresh = none) ∧ (turn = some r)) ∧
    (let s : State := setF [(MRD_TN_LO .west, ⟨0, 32, .ro, 0, false⟩, 70)]
       (setF [(QOS_ROT_CFG .west, QOS_ROT_CFG_HIGH, 0x7F)]
         ({ State.reset with
             qos := State.reset.qos.set .west { qosReset with arbs := [(31, ⟨2, [0, 1, 0, 0, 0, 0, 3], [], none⟩)] } }));
     let h : Half := .west;
     let pc : BitVec 5 := 31;
     let wait : List Nat := [1, 6, 7];
     let r : Nat := 6;
     let st := QOS_ROT_STAT h;
     let a := arbOf s h pc.toNat;
     let ws := wait.filter fun r => r < 7 ∧ rotFenced s h r = false;
     let fresh := rotFind a.ptr fun r => ws.contains r && rotHigh s h r && decide (0 < a.quota.getD r 0);
     (s.flag st QOS_ROT_STAT_RESTART = false) ∧ (fresh = some r)) ∧
    (let s : State := { State.reset with
         qos := State.reset.qos.set .west { qosReset with active := [(31, ⟨[0xFF000010, 0xFF000020], 5, 3, 0, 1⟩)] } };
     let p : BitVec 5 := 31;
     let l : EphList := ⟨[0xFF000010, 0xFF000020], 5, 3, 0, 1⟩;
     (mfind (s.qos.get (portHalf p.toNat)).active p.toNat = some l)) := by
  refine ⟨?_, ?_, ?_, ?_, ?_⟩ <;> dsimp only [mayAct, atInstr, regsCanon] <;> decide +kernel

theorem wit_QueuesOfAFunction :
    (let s : State := qset 33 5 2 4 1 65535 4 ((putFn 33 5 (fun f => { f with bme := true }) State.reset));
     let t : BitVec 6 := 33;
     let fn : BitVec 8 := 5;
     let q : BitVec 2 := 2;
     let v : Word := 5;
     let off : BitVec 10 := 0;
     let len : Nat := 64;
     let T := t.toNat;
     let F := fn.toNat;
     let Q := q.toNat;
     let n := fldGet v SF_QPTR_HEAD;
     let pushes := len = 64 ∧ off.toNat % 64 = 0 ∧ qState s T F 0 = qRUNNING ∧ qOcc s T F 0 < qSize s T F 0;
     (fnExists s T F = true) ∧ (qEn s T F Q = true) ∧ (v.getLsbD 0 = true) ∧ (atBoundary s T F Q = true) ∧ (q ≠ 0) ∧
       (qOcc s T F Q < (n + 2 ^ 16 - qHead s T F Q) % 2 ^ 16) ∧ (¬ pushes)) ∧
    (let s : State := (putFn 33 5 (fun f => { f with bme := true }) State.reset);
     let t : BitVec 6 := 33;
     let fn : BitVec 8 := 5;
     let q : BitVec 2 := 1;
     let v : Word := 0x000B0000;
     let T := t.toNat;
     let F := fn.toNat;
     let Q := q.toNat;
     let h := tenantHalf T;
     let z := fldGet v SF_QCFG_SIZE;
     let n := fldGet v SF_QPTR_HEAD;
     let fits := 4 ≤ z ∧ z ≤ qMax Q ∧ sramUsed s h + 2 ^ z ≤ sramSize s h;
     (fnExists s T F = true) ∧ ((s.fn T F).flr = none) ∧ (fnGone s T F = false) ∧ (inReset s T = false) ∧
       ((s.fn T F).freeze = false) ∧ (q ≠ 3) ∧ (qEn s T F Q = false) ∧ (fits) ∧ (q ≠ 0) ∧
       ((n + 2 ^ 16 - qHead s T F Q) % 2 ^ 16 ≤ qOcc s T F Q)) ∧
    (let s : State := qset 33 5 0 4 1 65521 0 ((putFn 33 5 (fun f => { f with bme := true }) State.reset));
     let t : BitVec 6 := 33;
     let fn : BitVec 8 := 5;
     let off : BitVec 10 := 960;
     let len : Nat := 64;
     let T := t.toNat;
     let F := fn.toNat;
     let pushes := len = 64 ∧ off.toNat % 64 = 0 ∧ qState s T F 0 = qRUNNING ∧ qOcc s T F 0 < qSize s T F 0;
     (fnExists s T F = true) ∧ (pushes)) ∧
    (let s : State := (putFn 33 5 (fun f => { f with bme := true }) State.reset);
     let t : BitVec 6 := 33;
     let fn : BitVec 8 := 5;
     let q : BitVec 2 := 2;
     let v : Word := 0x00030001;
     let T := t.toNat;
     let F := fn.toNat;
     let Q := q.toNat;
     let h := tenantHalf T;
     let z := fldGet v SF_QCFG_SIZE;
     let fits := 4 ≤ z ∧ z ≤ qMax Q ∧ sramUsed s h + 2 ^ z ≤ sramSize s h;
     (fnExists s T F = true) ∧ (qEn s T F Q = false) ∧ (¬ fits)) := by
  refine ⟨?_, ?_, ?_, ?_⟩ <;> dsimp only [mayAct, atInstr, regsCanon] <;> decide +kernel

theorem wit_DescriptorsAndDatagrams :
    (let s : State := setW [(SF_PASS_LIVE_ACC_LO 34 + 4, 2)]
       (qset 34 255 2 12 1 65535 0
         (putFn 34 255 (fun f => f)
           { State.reset with
             core := State.reset.core.set .west { coreReset with inbox := [(28, [3])] },
             net := { netReset with
                 msgs := [(3,
                       { blankMsg .mWr (unitNode .west 28) (unitNode .west 28) 9 33 0 with
                           tgt := ⟨10, 255, 2 ^ 34⟩,
                           len := 64,
                           data := 0xAB,
                           gen := 4,
                           ld := 255 })] } }));
     let x : BitVec 6 := 34;
     let h : Half := .west;
     let n : Nat := 3;
     let m : Msg := { blankMsg .mWr (unitNode .west 28) (unitNode .west 28) 9 33 0 with
         tgt := ⟨10, 255, 2 ^ 34⟩,
         len := 64,
         data := 0xAB,
         gen := 4,
         ld := 255 };
     let X := x.toNat;
     let R := m.tgt.idx;
     let len := 1 + (m.len + 63) / 64;
     (lget (s.core.get h).inbox 28 = [n]) ∧ (s.msg n = some m) ∧ (m.tgt.kind = 10) ∧ (m.tgt.addr = 2 ^ X) ∧
       (tenantHalf X = h) ∧ (R < 256) ∧ (m.ld < 256) ∧ (m.tenant < 64) ∧ (bitB (acceptMask s X) m.tenant = true) ∧
       (fnExists s X R = true) ∧ ((s.fn X R).flr = none) ∧ (fnGone s X R = false) ∧ (qState s X R 2 = qRUNNING) ∧
       (qFits s X R 2 len = true)) ∧
    (let s : State := qset 33 5 1 4 1 0 0
       (qset 33 5 0 4 1 65535 4
         (setF [(SF_QPTR 33 5 0, SF_QPTR_HEAD, 65535)]
           (putFn 33 5 (fun f => { f with bme := true, ents := [(65535 % 16, 0x002)] }) (State.reset))));
     let t : BitVec 6 := 33;
     let fn : BitVec 8 := 5;
     let T := t.toNat;
     let F := fn.toNat;
     let e := headEntry s T F;
     let prog := (s.fn T F).prog;
     let typ := bytesAt e 0 1;
     let k := bytesAt e 1 1;
     let ready := headReady s T F = true ∧ qEn s T F 1 = true ∧ prog = [];
     (ready) ∧ (typ = 2) ∧ (k < 2) ∧ (passOk e = false)) ∧
    (let s : State := setW [(SF_PASS_LIVE_SEND_LO 33 + 4, 4)]
       (qset 33 0 1 4 1 0 0 (qset 33 0 0 4 1 65535 4
           (setF [(SF_QPTR 33 0 0, SF_QPTR_HEAD, 65535)]
             (putFn 33 0 (fun f => { f with
                   bme := true,
                   ents := [(65535 % 16, (0x202 + 77 * 2^64 + (2^34) * 2^128 + 64 * 2^208))] }) (State.reset)))));
     let t : BitVec 6 := 33;
     let x : BitVec 6 := 34;
     let fn : BitVec 8 := 0;
     let T := t.toNat;
     let F := fn.toNat;
     let H := tenantHalf T;
     let e := headEntry s T F;
     let prog := (s.fn T F).prog;
     let typ := bytesAt e 0 1;
     let X := x.toNat;
     let ready := headReady s T F = true ∧ qEn s T F 1 = true ∧ prog = [];
     (ready) ∧ (typ = 2) ∧ (passOk e = true) ∧ (F = 0) ∧ ((policerOf s H T).on = false) ∧
       (bitB (bytesAt e 16 8) X = true) ∧ (bitB (sendMask s T) X = true) ∧ (tenantHalf X = H)) ∧
    (let s : State := qset 33 5 1 4 1 0 0
       (qset 33 5 0 4 1 65535 4
         (setF [(SF_QPTR 33 5 0, SF_QPTR_HEAD, 65535)]
           (putFn 33 5 (fun f => { f with
                 bme := true,
                 ents := [(65535 % 16, 0)],
                 prog := [⟨65535, 7, 1, [], [], 64, 0, none, 0, 0, 0, 0, false, none, none, false⟩] }) (State.reset))));
     let t : BitVec 6 := 33;
     let fn : BitVec 8 := 5;
     let d : Desc := ⟨65535, 7, 1, [], [], 64, 0, none, 0, 0, 0, 0, false, none, none, false⟩;
     let T := t.toNat;
     let F := fn.toNat;
     let prog := (s.fn T F).prog;
     (prog = [d]) ∧ (d.todo = []) ∧ (descDone s T d = true) ∧ (qEn s T F 1 = true) ∧ (s.net.idone = [])) ∧
    (let s : State := qset 33 5 1 4 1 0 0
       (qset 33 5 0 4 1 65535 4
         (setF [(SF_QPTR 33 5 0, SF_QPTR_HEAD, 65535)]
           (putFn 33 5 (fun f => { f with
                 bme := true,
                 ents := [(65535 % 16, (1 + 0x1000 * 2^128 + 0x2FC0 * 2^192 + 64 * 2^256))] }) (State.reset))));
     let t : BitVec 6 := 33;
     let fn : BitVec 8 := 5;
     let segs : List CopySeg := [{ len := 64, src := 0x1000, dst := 0x2FC0, rd := none, wr := none }];
     let T := t.toNat;
     let F := fn.toNat;
     let e := headEntry s T F;
     let prog := (s.fn T F).prog;
     let typ := bytesAt e 0 1;
     let ready := headReady s T F = true ∧ qEn s T F 1 = true ∧ prog = [];
     (ready) ∧ (typ = 1) ∧ (copyOk e = true) ∧
       (segsFit (bytesAt e 16 8) (bytesAt e 24 8) (bytesAt e 32 4) segs = true)) ∧
    (let s : State := qset 33 5 1 4 1 0 0
       (qset 33 5 0 4 1 65535 4
         (setF [(SF_QPTR 33 5 0, SF_QPTR_HEAD, 65535)]
           (putFn 33 5 (fun f => { f with bme := true, ents := [(65535 % 16, (1 + 2^300))] }) (State.reset))));
     let t : BitVec 6 := 33;
     let fn : BitVec 8 := 5;
     let T := t.toNat;
     let F := fn.toNat;
     let e := headEntry s T F;
     let prog := (s.fn T F).prog;
     let typ := bytesAt e 0 1;
     let ready := headReady s T F = true ∧ qEn s T F 1 = true ∧ prog = [];
     (ready) ∧ (typ = 1) ∧ (copyOk e = false)) ∧
    (let s : State := qset 33 5 1 4 1 0 0
       (qset 33 5 0 4 1 65535 4
         (setF [(SF_QPTR 33 5 0, SF_QPTR_HEAD, 65535)]
           (putFn 33 5 (fun f => { f with bme := true, ents := [(65535 % 16, 255)] }) (State.reset))));
     let t : BitVec 6 := 33;
     let fn : BitVec 8 := 5;
     let T := t.toNat;
     let F := fn.toNat;
     let e := headEntry s T F;
     let prog := (s.fn T F).prog;
     let typ := bytesAt e 0 1;
     let ready := headReady s T F = true ∧ qEn s T F 1 = true ∧ prog = [];
     (ready) ∧ (3 ≤ typ)) ∧
    (let s : State := qset 33 5 1 4 1 0 0
       (qset 33 5 0 4 1 65535 4
         (setF [(SF_QPTR 33 5 0, SF_QPTR_HEAD, 65535)]
           (putFn 33 5 (fun f => { f with bme := true, ents := [(65535 % 16, 0)] }) (State.reset))));
     let t : BitVec 6 := 33;
     let fn : BitVec 8 := 5;
     let T := t.toNat;
     let F := fn.toNat;
     let e := headEntry s T F;
     let prog := (s.fn T F).prog;
     let typ := bytesAt e 0 1;
     let ready := headReady s T F = true ∧ qEn s T F 1 = true ∧ prog = [];
     (ready) ∧ (typ = 0) ∧ (zeroBytes e 1 7 = true) ∧ (zeroBytes e 16 48 = true)) := by
  refine ⟨?_, ?_, ?_, ?_, ?_, ?_, ?_, ?_⟩ <;> dsimp only [mayAct, atInstr, regsCanon] <;> decide +kernel

theorem wit_FunctionsStopAndReset :
    (let s : State := putFn 33 5 (fun f => { f with freeze := true });
     let m : Master := .obs .west 0;
     let t : BitVec 6 := 33;
     let fn : BitVec 8 := 5;
     let v : Word := 4096;
     let T := t.toNat;
     let F := fn.toNat;
     let quota := fldGet v SF_POOL_QUOTA;
     let here := fnExists s T F = true ∧ fnGone s T F = false;
     (mayAct s m (SF_POOL T)) ∧ ((s.fn T 0).vfe = false) ∧ (quotaOthers s T + quota ≤ 4096) ∧ (fnGone s T 0 = false) ∧
       (inReset s T = false) ∧ ((s.fn T F).freeze = true) ∧ ((s.fn T F).prog = []) ∧ (fnLive s (fnKey T F) = []) ∧
       ((s.fn T F).flr = none) ∧ (here) ∧ (F ≠ 0)) ∧
    (let s : State := qset 33 0 2 4 1 0 0 (putFn 33 0 (fun f => { f with vfe := true }));
     let m : Master := .obs .west 0;
     let t : BitVec 6 := 33;
     let fn : BitVec 8 := 0;
     let v : Word := 4096;
     let T := t.toNat;
     let F := fn.toNat;
     let quota := fldGet v SF_POOL_QUOTA;
     let here := fnExists s T F = true ∧ fnGone s T F = false;
     (mayAct s m (SF_POOL T)) ∧ ((s.fn T 0).vfe = true ∨ 4096 < quotaOthers s T + quota) ∧ (here) ∧ (F = 0)) ∧
    (let s : State := qset 33 5 0 4 1 0 0 (putFn 33 5 (fun f => { f with flr := some 0, remove := true }));
     let t : BitVec 6 := 33;
     let fn : BitVec 8 := 5;
     let b : Nat := 0;
     let T := t.toNat;
     let F := fn.toNat;
     ((s.fn T F).flr = some b) ∧ (fnLive s (fnKey T F) = []) ∧ ((s.fn T F).remove = true) ∧
       ((s.net.itags.any fun e => ownFn e.2.own == some (fnKey T F)) = false)) ∧
    (let s : State := qset 33 5 0 4 1 0 0 (putFn 33 5 (fun f => { f with flr := some 0, bme := true }));
     let t : BitVec 6 := 33;
     let fn : BitVec 8 := 5;
     let b : Nat := 0;
     let T := t.toNat;
     let F := fn.toNat;
     ((s.fn T F).flr = some b) ∧ (fnLive s (fnKey T F) = []) ∧ ((s.fn T F).remove = false)) ∧
    (let s : State := setF [(MRD_NOW_LO .west, ⟨0, 32, .ro, 0, false⟩, 900000)]
       (putFn 33 5 (fun f => { f with flr := some 0 })
         { State.reset with
           net := { netReset with
               itags := [(4, ⟨false, .sf (fnKey 33 5) 0 0 true, .west, 33, none, 0, 0, none, 128⟩)] } });
     let t : BitVec 6 := 33;
     let fn : BitVec 8 := 5;
     let b : Nat := 0;
     let T := t.toNat;
     let F := fn.toNat;
     ((s.fn T F).flr = some b) ∧ ((s.fn T F).flrOut = false) ∧ (b + 900000 ≤ s.now (tenantHalf T))) := by
  refine ⟨?_, ?_, ?_, ?_, ?_⟩ <;> dsimp only [mayAct, atInstr, regsCanon] <;> decide +kernel

theorem wit_MigrationCommands :
    (let s : State := setF [(SF_MIG_STAT 33 0, SF_MIG_STAT_STATE, 2)];
     let t : BitVec 6 := 33;
     let T := t.toNat;
     let mig (u : State) := (u.fn T 0).mig;
     let st := SF_MIG_STAT T 0;
     let free := mig s = none ∧ (s.fn T 0).flr = none ∧ fnGone s T 0 = false;
     (free) ∧ (fnExists s T 0 = true) ∧ ((s.fn T 0).flr = none) ∧ (fnGone s T 0 = false) ∧ (inReset s T = false) ∧
       ((s.fn T 0).freeze = false) ∧ (mig s = none) ∧ (s.fget st SF_MIG_STAT_STATE = mgCOMPLETED)) ∧
    (let s : State := putFn 33 0
       (fun f => { f with
           mig := some ⟨3, 5, none, 0, false,
               [(0,
                       0x4B5A5649 + 0x10000 * 2 ^ 32 + 192 * 2 ^ 64 +
                         (crc32 (lineBytes (0x000B0001 + 3 * 2^32 + 0x000C0001 * 2^192) ++ List.replicate 64 0)).toNat
                         * 2 ^ 96), (1, (0x000B0001 + 3 * 2^32 + 0x000C0001 * 2^192)), (2, 0)], [], 1⟩ })
       (setF [(SF_QCFG 33 5 0, SF_QCFG_SIZE, 4)]);
     let t : BitVec 6 := 33;
     let m : Mig := ⟨3, 5, none, 0, false,
         [(0,
                 0x4B5A5649 + 0x10000 * 2 ^ 32 + 192 * 2 ^ 64 +
                   (crc32 (lineBytes (0x000B0001 + 3 * 2^32 + 0x000C0001 * 2^192) ++ List.replicate 64 0)).toNat * 2 ^
                   96), (1, (0x000B0001 + 3 * 2^32 + 0x000C0001 * 2^192)), (2, 0)], [], 1⟩;
     let T := t.toNat;
     let H := tenantHalf T;
     let mig (u : State) := (u.fn T 0).mig;
     let restored := s.modFn T m.vf fun f => { f with restoring := false };
     (mig s = some m) ∧ (m.cmd = 3) ∧ (m.stage = 1) ∧ (m.bad = false) ∧ (m.out = 0) ∧ (m.todo = []) ∧ (m.vf ≠ 0) ∧
       (m.vf < 256) ∧ (imageOk m = true) ∧ (sramUsed restored H + imageRoom m ≤ sramSize restored H) ∧
       (fnExists s T 0 = true) ∧ ((s.fn T 0).flr = none) ∧ (fnGone s T 0 = false) ∧ (inReset s T = false) ∧
       ((s.fn T 0).freeze = false) ∧ (m.row = none)) ∧
    (let s : State := putFn 33 0 (fun f => { f with mig := some ⟨1, 5, some 15, 0, false, [], [], 0⟩ }) (State.reset);
     let t : BitVec 6 := 33;
     let m : Mig := ⟨1, 5, some 15, 0, false, [], [], 0⟩;
     let i : Nat := 15;
     let T := t.toNat;
     let mig (u : State) := (u.fn T 0).mig;
     (fnExists s T 0 = true) ∧ ((s.fn T 0).flr = none) ∧ (fnGone s T 0 = false) ∧ (inReset s T = false) ∧
       ((s.fn T 0).freeze = false) ∧ (mig s = some m) ∧ (m.row = some i) ∧ (i < 16) ∧ (m.stage = 0) ∧
       ((s.rd (SF_FSTAGE T i 2)).getLsbD 31 = false)) ∧
    (let s : State := putFn 33 0
       (fun f => { f with
           mig := some ⟨3, 5, none, 0, false,
               [(0,
                       0x4B5A5649 + 0x10000 * 2 ^ 32 + 192 * 2 ^ 64 +
                         (crc32 (lineBytes (0x000B0001 + 3 * 2^32 + 0x000C0001 * 2^192) ++ List.replicate 64 0)).toNat
                         * 2 ^ 96), (1, (0x000B0001 + 3 * 2^32 + 0x000C0001 * 2^192)), (2, 0)], [], 1⟩ })
       ({ State.reset with ref := State.reset.ref.set .west { refReset with banksLost := [(4, 16)] } });
     let t : BitVec 6 := 33;
     let m : Mig := ⟨3, 5, none, 0, false,
         [(0,
                 0x4B5A5649 + 0x10000 * 2 ^ 32 + 192 * 2 ^ 64 +
                   (crc32 (lineBytes (0x000B0001 + 3 * 2^32 + 0x000C0001 * 2^192) ++ List.replicate 64 0)).toNat * 2 ^
                   96), (1, (0x000B0001 + 3 * 2^32 + 0x000C0001 * 2^192)), (2, 0)], [], 1⟩;
     let T := t.toNat;
     let H := tenantHalf T;
     let mig (u : State) := (u.fn T 0).mig;
     let restored := s.modFn T m.vf fun f => { f with restoring := false };
     (mig s = some m) ∧ (m.cmd = 3) ∧ (m.stage = 1) ∧ (m.bad = false) ∧ (m.out = 0) ∧ (m.todo = []) ∧ (m.vf ≠ 0) ∧
       (m.vf < 256) ∧ (imageOk m = true) ∧ (sramSize restored H < sramUsed restored H + imageRoom m)) ∧
    (let s : State := putFn 33 0 (fun f => { f with mig := some ⟨3, 5, none, 0, false, [], [], 1⟩ }) (State.reset);
     let t : BitVec 6 := 33;
     let m : Mig := ⟨3, 5, none, 0, false, [], [], 1⟩;
     let T := t.toNat;
     let mig (u : State) := (u.fn T 0).mig;
     (mig s = some m) ∧ (m.cmd = 3) ∧ (m.stage = 1) ∧ (m.bad = false) ∧ (m.out = 0) ∧ (m.todo = []) ∧ (m.vf ≠ 0) ∧
       (m.vf < 256) ∧ (imageOk m = false)) ∧
    (let s : State := rule .west 3 4 33
       (putFn 33 0 (fun f => { f with mig := some ⟨2, 5, none, 0, false, [], [], 1⟩ })
         ({ State.reset with binds := State.reset.binds.set .west ⟨[(33, 70)], [], []⟩ }));
     let t : BitVec 6 := 33;
     let m : Mig := ⟨2, 5, none, 0, false, [], [], 1⟩;
     let d : Nat := 70;
     let T := t.toNat;
     let H := tenantHalf T;
     let mig (u : State) := (u.fn T 0).mig;
     (mig s = some m) ∧ (m.cmd = 2) ∧ (m.stage = 1) ∧ (m.bad = false) ∧ (m.out = 0) ∧ (m.todo = []) ∧
       (s.net.itags = []) ∧ (check s H (.tenant T) ⟨4, T, imageAddr s T 0⟩ pW = .allow) ∧
       (mfind (s.binds.get H).usp T = some d)) ∧
    (let s : State := putFn 33 0 (fun f => { f with mig := some ⟨2, 5, none, 0, true, [], [], 1⟩ }) (State.reset);
     let t : BitVec 6 := 33;
     let m : Mig := ⟨2, 5, none, 0, true, [], [], 1⟩;
     let T := t.toNat;
     let mig (u : State) := (u.fn T 0).mig;
     (mig s = some m) ∧ (m.cmd = 2) ∧ (m.stage = 1) ∧ (m.bad = true)) ∧
    (let s : State := putFn 33 5 (fun f => f);
     let t : BitVec 6 := 33;
     let vf : BitVec 8 := 5;
     let T := t.toNat;
     let V := vf.toNat;
     let mig (u : State) := (u.fn T 0).mig;
     let free := mig s = none ∧ (s.fn T 0).flr = none ∧ fnGone s T 0 = false;
     (free) ∧ (fnExists s T V = true) ∧ (fnFrozen s T V = false)) ∧
    (let s : State := setF [(SF_FN_STAT 33 5, SF_FN_STAT_FROZEN, 1)] (putFn 33 5 (fun f => f));
     let t : BitVec 6 := 33;
     let vf : BitVec 8 := 5;
     let T := t.toNat;
     let V := vf.toNat;
     let mig (u : State) := (u.fn T 0).mig;
     let free := mig s = none ∧ (s.fn T 0).flr = none ∧ fnGone s T 0 = false;
     (free) ∧ (fnExists s T V = true) ∧ (fnFrozen s T V = true)) := by
  refine ⟨?_, ?_, ?_, ?_, ?_, ?_, ?_, ?_, ?_⟩ <;> dsimp only [mayAct, atInstr, regsCanon] <;> decide +kernel

theorem wit_ShutterConvertsAndTrips :
    (let s : State := setF [(MRD_NOW_LO .west, ⟨0, 32, .ro, 0, false⟩, 80000000)]
       (setF [(SHT_STAT 31, SHT_STAT_STATE, 1), (SHT_STAT 31, SHT_STAT_RSEQ, 1)]);
     let c : BitVec 5 := 31;
     let fd : BitVec 1 := 1;
     let C := c.toNat;
     let l := leaderOf s C;
     let st := shtState s l;
     let now := s.now (chanHalf l);
     let feed : Fld := if fd = 0 then SHT_STAT_FEED_A_OK else SHT_STAT_FEED_B_OK;
     (shtArmed st = true) ∧ (st = stRAMP) ∧ ((s.chan l).reached = false) ∧
       ((s.chan l).rampAt + 100000 * max 1 (shtSet s l (SHT_RAMP l) SHT_RAMP_RAMP_TMO) ≤ now) ∧
       (st = stRAMP ∨ st = stON) ∧ (s.flag (SHT_STAT C) SHT_STAT_FET_SHORT = false) ∧
       (s.flag (SHT_STAT C) feed = false ∨ s.flag (SHT_STAT C) SHT_STAT_FET_SHORT = true)) ∧
    (let s : State := setF [(SHT_STAT 31, SHT_STAT_STATE, 3), (SHT_STAT 31, SHT_STAT_FEED_B_OK, 1)];
     let c : BitVec 5 := 31;
     let fd : BitVec 1 := 1;
     let C := c.toNat;
     let l := leaderOf s C;
     let st := shtState s l;
     let feed : Fld := if fd = 0 then SHT_STAT_FEED_A_OK else SHT_STAT_FEED_B_OK;
     (st = stSTOPPING) ∧ (s.flag (SHT_STAT C) feed = true) ∧ (s.flag (SHT_STAT C) SHT_STAT_FET_SHORT = false)) ∧
    (let s : State := State.reset;
     let c : BitVec 5 := 31;
     let C := c.toNat;
     let l := leaderOf s C;
     let st := shtState s l;
     (shtArmed st = false)) := by
  refine ⟨?_, ?_, ?_⟩ <;> dsimp only [mayAct, atInstr, regsCanon] <;> decide +kernel

theorem wit_ShutterRampsFeedsAndAuxiliary :
    (let s : State := setF [(SHT_STAT 31, SHT_STAT_AUX_OK, 1), (SHT_STAT 31, SHT_STAT_AUX_ON, 1),
         (SHT_STAT 31, SHT_STAT_AUX_SRC, 1)];
     let c : BitVec 5 := 31;
     let fd : BitVec 1 := 1;
     let C := c.toNat;
     let stat := SHT_STAT C;
     let src := s.fget stat SHT_STAT_AUX_SRC;
     let f := if fd = 0 then SHT_STAT_FEED_A_OK else SHT_STAT_FEED_B_OK;
     let ok := s.flag stat SHT_STAT_AUX_OK;
     (s.flag stat f = false) ∧ (ok = true) ∧ (src ≠ auxPref s C)) ∧
    (let s : State := setF [(SHT_STAT 31, SHT_STAT_STATE, 4), (SHT_STAT 31, SHT_STAT_ATTEMPT, 14),
         (SHT_STAT 31, SHT_STAT_RAMP_DONE, 1), (SHT_STAT 31, SHT_STAT_PGQ, 3), (SHT_STAT 31, SHT_STAT_FEED_B_OK, 1)];
     let c : BitVec 5 := 31;
     let fd : BitVec 1 := 1;
     let C := c.toNat;
     let l := leaderOf s C;
     let st := shtState s l;
     let now := s.now (chanHalf l);
     let stat := SHT_STAT C;
     let f := if fd = 0 then SHT_STAT_FEED_A_OK else SHT_STAT_FEED_B_OK;
     (st = stRETRYWAIT) ∧ ((s.chan l).waitTo ≤ now) ∧ (s.fget (SHT_STAT l) SHT_STAT_ATTEMPT < 15) ∧
       (s.flag stat f = true)) ∧
    (let s : State := { setF [(MRD_NOW_LO .west, ⟨0, 32, .ro, 0, false⟩, 1000000000)]
         (setF [(SHT_STAT 31, SHT_STAT_ATTEMPT, 4)]) with
         mgt := { mgtReset with pgAt := [(31, 0)] } };
     let c : BitVec 5 := 31;
     let t : Nat := 0;
     let C := c.toNat;
     let l := leaderOf s C;
     (mfind s.mgt.pgAt l = some t) ∧ (t + 1000000000 ≤ s.now (portHalf l))) ∧
    (let s : State := { setF [(SHT_STAT 31, SHT_STAT_STATE, 4)] with chans := [(31, { chanReset with waitTo := 1 })] };
     let c : BitVec 5 := 31;
     let C := c.toNat;
     let l := leaderOf s C;
     let st := shtState s l;
     let now := s.now (chanHalf l);
     (st = stRETRYWAIT) ∧ (now < (s.chan l).waitTo)) ∧
    (let s : State := setF [(MRD_NOW_LO .west, ⟨0, 32, .ro, 0, false⟩, 10000)]
       (setF [(SHT_STAT 31, SHT_STAT_STATE, 3), (SHT_STAT 31, SHT_STAT_PG, 1), (SHT_STAT 31, SHT_STAT_AUX_OK, 1)]);
     let c : BitVec 5 := 31;
     let C := c.toNat;
     let l := leaderOf s C;
     let st := shtState s l;
     let now := s.now (chanHalf l);
     (st = stSTOPPING) ∧ ((s.chan l).stopAt + 10000 ≤ now)) := by
  refine ⟨?_, ?_, ?_, ?_, ?_⟩ <;> dsimp only [mayAct, atInstr, regsCanon] <;> decide +kernel

theorem wit_RefereeRecordsAndRetires :
    (let s : State := { State.reset with trp := ⟨{ trpReset with requal := some (false, 1) }, trpReset⟩ };
     let m : Master := .obs .east 0;
     let h : Half := .east;
     let e : EvSpec := ⟨1, 0, 2, none, 7, 1⟩;
     let k : Nat := 1;
     let i : Nat := 511;
     let n : Nat := 1;
     let pc : Nat := 3;
     let b : Bool := false;
     let runs := halvesRun s = true;
     let other := e.cls < 29 ∧ ¬ (e.cls = 13 ∧ e.cause = 1) ∧ ¬ (e.cls = 15 ∧ e.cause = 2) ∧ ¬
       (e.cls = 20 ∧ e.cause = 1);
     let r := s.ref.get h;
     let rq := REF_REQUAL h;
     let hold := s.flag (TRP_STAT h) TRP_STAT_HOLD = true;
     (other) ∧ (¬ runs) ∧ ((k, i) ∉ r.draining) ∧ (pc ∉ r.hbmCopy) ∧ (mayAct s m (REF_STAT h)) ∧
       (mayAct s m (REF_UNFENCE h)) ∧ (mayAct s m rq) ∧ (¬ hold) ∧ ((s.trp.get h).requal = some (b, n)) ∧
       ((s.trp.get h).requalBad = false) ∧ (n ≠ 0)) ∧
    (let s : State := rel State.reset;
     let m : Master := .obs .east 0;
     let h : Half := .east;
     let e : EvSpec := ⟨10, 0, 2, some (4, 0), 7, 1⟩;
     let v : Word := 0x05001234;
     let x : Evt := ⟨1, 0, 3, 2, 9, .east, false, 5, 0, 65000, 0, 0, some 3, some 1023⟩;
     let k : Nat := 4;
     let i : Nat := 0;
     let sev := sevOf e.cls e.cause;
     let runs := halvesRun s = true;
     let other := e.cls < 29 ∧ ¬ (e.cls = 13 ∧ e.cause = 1) ∧ ¬ (e.cls = 15 ∧ e.cause = 2) ∧ ¬
       (e.cls = 20 ∧ e.cause = 1);
     let plain := other ∧ runs;
     let r := s.ref.get h;
     let before (e : EvSpec) (x : Evt) : Prop := x.ns = s.now h ∧ (e.cls < x.cls ∨ e.cls = x.cls ∧ e.inst < x.inst);
     let fresh (e : EvSpec) (sev : Nat) : Prop := r.recent.find? (fun x => mergeable x e sev) = none ∧ hlistFull s h =
       false ∧ ∀ x ∈ r.recent, ¬ before e x;
     let soft := evt 28 (fldGet v REF_RAISE_CAUSE) 0 0;
     let lc := REF_LCNT h k i;
     (plain) ∧ (e.unit = some (k, i)) ∧ (1 ≤ k) ∧ (k ≤ 4) ∧ (i < 512) ∧ (1 ≤ sev) ∧ (sev ≤ 3) ∧
       (s.flag lc REF_LCNT_RETIRED = false) ∧ (mayAct s m (REF_RAISE h)) ∧ (runs) ∧
       (fresh soft (min 3 (fldGet v REF_RAISE_SEV)))) ∧
    (let s : State := { { State.reset with
           ref := State.reset.ref.set .east { refReset with hbmCopy := [3, 1], hbmRetired := [3] } } with
         cat := State.reset.cat.set .east
           { catReset with slots := [(slotKey 1 2 3, SL0)], ents := [(setFull 1 2 % 2 ^ 18 * 16, CE0)] } };
     let h : Half := .east;
     let pc : Nat := 3;
     let r := s.ref.get h;
     (pc ∈ r.hbmCopy)) ∧
    (let s : State := { State.reset with
         trp := ⟨{ trpReset with requal := some (false, 1), requalBad := true }, trpReset⟩ };
     let h : Half := .east;
     let n : Nat := 1;
     let b : Bool := false;
     let good : Bool := true;
     ((s.trp.get h).requal = some (b, n)) ∧ ((s.trp.get h).requalBad = true ∨ (n = 0 ∧ good = false))) ∧
    (let s : State := { State.reset with trp := ⟨{ trpReset with requal := some (false, 0) }, trpReset⟩ };
     let h : Half := .east;
     let n : Nat := 0;
     let b : Bool := false;
     let good : Bool := true;
     ((s.trp.get h).requal = some (b, n)) ∧ ((s.trp.get h).requalBad = false) ∧ (n = 0) ∧ (good = true)) ∧
    (let s : State := setF [(TRP_STAT .east, TRP_STAT_HOLD, 1)];
     let m : Master := .obs .east 0;
     let h : Half := .east;
     let b : Bool := true;
     let rq := REF_REQUAL h;
     let hold := s.flag (TRP_STAT h) TRP_STAT_HOLD = true;
     (mayAct s m rq) ∧ (hold) ∧ ((s.trp.get h).requal = none) ∧ (b = true) ∧
       (bankValid s h (1 - s.fget (TRP_CTL h) TRP_CTL_SEL) = false)) ∧
    (let s : State := setF [(TRP_STAT .east, TRP_STAT_HOLD, 1)];
     let m : Master := .obs .east 0;
     let h : Half := .east;
     let b : Bool := false;
     let rq := REF_REQUAL h;
     let hold := s.flag (TRP_STAT h) TRP_STAT_HOLD = true;
     (mayAct s m rq) ∧ (hold) ∧ ((s.trp.get h).requal = none) ∧
       ((b = true → bankValid s h (1 - s.fget (TRP_CTL h) TRP_CTL_SEL) = true))) ∧
    (let s : State := setF [(REF_LCNT .east 1 511, REF_LCNT_RETIRED, 1)]
       ({ State.reset with
           ref := State.reset.ref.set .east { refReset with draining := [(1, 511), (2, 3)], sparesUsed := [(1, 8)] } });
     let h : Half := .east;
     let k : Nat := 1;
     let i : Nat := 511;
     let r := s.ref.get h;
     let lc := REF_LCNT h k i;
     ((k, i) ∈ r.draining) ∧ (k ≤ 4) ∧ (i < 512) ∧ (s.flag lc REF_LCNT_RETIRED = true)) ∧
    (let s : State := setF [(REF_SEQ .west, REF_SEQ_SEQ, 6)]
       ({ rel State.reset with
           ref := State.reset.ref.set .west
             { refReset with recent := [⟨5, 0, 3, 2, 9, .west, false, 5, 0, 1, 0, 0, none, none⟩] } });
     let h : Half := .west;
     let e : EvSpec := ⟨1, 0, 2, none, 7, 1⟩;
     let x : Evt := ⟨5, 0, 3, 2, 9, .west, false, 5, 0, 1, 0, 0, none, none⟩;
     let sev := sevOf e.cls e.cause;
     let runs := halvesRun s = true;
     let other := e.cls < 29 ∧ ¬ (e.cls = 13 ∧ e.cause = 1) ∧ ¬ (e.cls = 15 ∧ e.cause = 2) ∧ ¬
       (e.cls = 20 ∧ e.cause = 1);
     let plain := other ∧ runs;
     let r := s.ref.get h;
     let before (e : EvSpec) (x : Evt) : Prop := x.ns = s.now h ∧ (e.cls < x.cls ∨ e.cls = x.cls ∧ e.inst < x.inst);
     (plain) ∧ (e.unit = none) ∧ (sev < 5) ∧ (r.recent = [x]) ∧ (mergeable x e sev = false) ∧ (before e x) ∧
       (x.sbSlot = none) ∧ (x.evqIdx = none)) ∧
    (let s : State := rel State.reset;
     let e : EvSpec := ⟨0, 1, 0, none, 0, 1⟩;
     let sev := sevOf e.cls e.cause;
     let runs := halvesRun s = true;
     let other := e.cls < 29 ∧ ¬ (e.cls = 13 ∧ e.cause = 1) ∧ ¬ (e.cls = 15 ∧ e.cause = 2) ∧ ¬
       (e.cls = 20 ∧ e.cause = 1);
     let plain := other ∧ runs;
     (plain) ∧ (e.unit = none) ∧ (sev = 5)) ∧
    (let s : State := setF [(REF_SEQ .west, REF_SEQ_SEQ, 6), (REF_SB .west 3 1, ⟨0, 32, .ro, 0, false⟩, 5)]
       ({ rel State.reset with
           ref := State.reset.ref.set .west
             { refReset with
               recent := [⟨1, 0, 3, 2, 9, .east, false, 5, 0, 65000, 0, 0, some 3, some 1023⟩,
                   ⟨1, 0, 3, 2, 9, .east, false, 4, 0, 1, 0, 0, none, none⟩] } });
     let h : Half := .west;
     let e : EvSpec := ⟨1, 0, 2, none, 7, 1000⟩;
     let x : Evt := ⟨1, 0, 3, 2, 9, .east, false, 5, 0, 65000, 0, 0, some 3, some 1023⟩;
     let sev := sevOf e.cls e.cause;
     let runs := halvesRun s = true;
     let other := e.cls < 29 ∧ ¬ (e.cls = 13 ∧ e.cause = 1) ∧ ¬ (e.cls = 15 ∧ e.cause = 2) ∧ ¬
       (e.cls = 20 ∧ e.cause = 1);
     let plain := other ∧ runs;
     let r := s.ref.get h;
     (plain) ∧ (e.unit = none) ∧ (sev < 5) ∧ (r.recent.find? (fun x => mergeable x e sev) = some x)) ∧
    (let s : State := setF [(REF_SB_PTR .east, REF_SB_PTR_NEXT, 63), (REF_SEQ .east, REF_SEQ_SEQ, 0xFFFFFFFF)]
       (rel State.reset);
     let h : Half := .east;
     let e : EvSpec := ⟨28, 65537, 2, none, 7, 3⟩;
     let x : Evt := ⟨1, 0, 3, 2, 9, .east, false, 5, 0, 65000, 0, 0, some 3, some 1023⟩;
     let sev := sevOf e.cls e.cause;
     let runs := halvesRun s = true;
     let other := e.cls < 29 ∧ ¬ (e.cls = 13 ∧ e.cause = 1) ∧ ¬ (e.cls = 15 ∧ e.cause = 2) ∧ ¬
       (e.cls = 20 ∧ e.cause = 1);
     let plain := other ∧ runs;
     let r := s.ref.get h;
     let before (e : EvSpec) (x : Evt) : Prop := x.ns = s.now h ∧ (e.cls < x.cls ∨ e.cls = x.cls ∧ e.inst < x.inst);
     let fresh (e : EvSpec) (sev : Nat) : Prop := r.recent.find? (fun x => mergeable x e sev) = none ∧ hlistFull s h =
       false ∧ ∀ x ∈ r.recent, ¬ before e x;
     (plain) ∧ (e.unit = none) ∧ (sev < 5) ∧ (fresh e sev)) ∧
    (let e : EvSpec := ⟨29, 0, 0, none, 0, 1⟩;
     (29 ≤ e.cls)) := by
  refine ⟨?_, ?_, ?_, ?_, ?_, ?_, ?_, ?_, ?_, ?_, ?_, ?_, ?_⟩ <;> dsimp only [mayAct, atInstr, regsCanon] <;> decide +kernel

theorem wit_AlertsLeaksAndMonitors :
    (let s : State := { State.reset with alert := ⟨true, true, false⟩ };
     let m : Master := .obs .east 0;
     let h : Half := .east;
     let v : Word := 3;
     let k : Nat := 5;
     let i : Nat := 511;
     let a := MRD_ALERT_CTL;
     let md := s.fget a MRD_ALERT_CTL_MODE;
     let stopped := s.flag a MRD_ALERT_CTL_STOPPED = true;
     let p := REF_EVQ_PTR h;
     let hd := s.fget p REF_EVQ_PTR_HEAD;
     let nw := fldGet v REF_EVQ_PTR_HEAD;
     let occ := (s.fget p REF_EVQ_PTR_TAIL + 2 ^ 16 - hd) % 2 ^ 16;
     ((s.ref.get h).leakTn ≠ some (s.tn h)) ∧ (regsCanon s) ∧ (k ≤ 5) ∧ (i < 512) ∧ (mayAct s m p) ∧
       (occ < (nw + 2 ^ 16 - hd) % 2 ^ 16) ∧ (s.alert.pulse = true) ∧ (s.dome.run = false ∨ md = 0 ∨ stopped) ∧
       (mayAct s m a) ∧ (s.tn .east % 1000000 = 0) ∧ (s.dome.lifeTn ≠ some (s.tn .east))) ∧
    (let s : State := setF [(MRD_SVC_STAT, MRD_SVC_STAT_PHASE, 2), (MRD_TN_LO .east, ⟨0, 32, .ro, 0, false⟩, 1001),
         (MRD_TN_LO .west, ⟨0, 32, .ro, 0, false⟩, 1500)] (runs State.reset);
     let h : Half := .east;
     let a := MRD_ALERT_CTL;
     let md := s.fget a MRD_ALERT_CTL_MODE;
     let stopped := s.flag a MRD_ALERT_CTL_STOPPED = true;
     (s.dome.run = true) ∧ (md ≠ 0) ∧ (¬ stopped) ∧ (1 < s.fget MRD_SVC_STAT MRD_SVC_STAT_PHASE) ∧ (s.tn h % 1000 ≠ 0)
       ∧ (s.tn h % 1000 ≠ 500) ∧ (s.tn .east % 1000000 ≠ 0)) ∧
    (let s : State := setF [(MRD_SVC_STAT, MRD_SVC_STAT_PHASE, 2), (MRD_TN_LO .east, ⟨0, 32, .ro, 0, false⟩, 1000),
         (MRD_TN_LO .west, ⟨0, 32, .ro, 0, false⟩, 1500)] (runs State.reset);
     let h : Half := .west;
     let a := MRD_ALERT_CTL;
     let md := s.fget a MRD_ALERT_CTL_MODE;
     let stopped := s.flag a MRD_ALERT_CTL_STOPPED = true;
     (s.dome.run = true) ∧ (md ≠ 0) ∧ (¬ stopped) ∧ (1 < s.fget MRD_SVC_STAT MRD_SVC_STAT_PHASE) ∧
       (s.tn h % 1000 = 500)) ∧
    (let s : State := setF [(MRD_ALERT_CTL, MRD_ALERT_CTL_MODE, 1)] (runs State.reset);
     let a := MRD_ALERT_CTL;
     let md := s.fget a MRD_ALERT_CTL_MODE;
     let stopped := s.flag a MRD_ALERT_CTL_STOPPED = true;
     (s.dome.run = true) ∧ (md ≠ 0) ∧ (¬ stopped) ∧ (s.fget MRD_SVC_STAT MRD_SVC_STAT_PHASE ≤ 1)) ∧
    (let s : State := setF [(MRD_SVC_STAT, MRD_SVC_STAT_PHASE, 2), (MRD_TN_LO .east, ⟨0, 32, .ro, 0, false⟩, 1000),
         (MRD_TN_LO .west, ⟨0, 32, .ro, 0, false⟩, 1500)] (runs State.reset);
     let h : Half := .east;
     let a := MRD_ALERT_CTL;
     let md := s.fget a MRD_ALERT_CTL_MODE;
     let stopped := s.flag a MRD_ALERT_CTL_STOPPED = true;
     (s.dome.run = true) ∧ (md ≠ 0) ∧ (¬ stopped) ∧ (1 < s.fget MRD_SVC_STAT MRD_SVC_STAT_PHASE) ∧
       (s.tn h % 1000 = 0)) ∧
    (let s : State := setF [(REF_EVQ_WM .east, REF_EVQ_WM_HIGH, 1), (REF_EVQ_PTR .east, REF_EVQ_PTR_TAIL, 4),
         (REF_EVQ_PTR .east, REF_EVQ_PTR_HEAD, 65534)];
     let m : Master := .obs .east 0;
     let h : Half := .east;
     let v : Word := 3;
     let p := REF_EVQ_PTR h;
     let hd := s.fget p REF_EVQ_PTR_HEAD;
     let nw := fldGet v REF_EVQ_PTR_HEAD;
     let occ := (s.fget p REF_EVQ_PTR_TAIL + 2 ^ 16 - hd) % 2 ^ 16;
     (mayAct s m p) ∧ ((nw + 2 ^ 16 - hd) % 2 ^ 16 ≤ occ)) ∧
    (let s : State := { State.reset with ref := State.reset.ref.set .east { refReset with leakTn := some 0 } };
     let h : Half := .east;
     ((s.ref.get h).leakTn = some (s.tn h))) := by
  refine ⟨?_, ?_, ?_, ?_, ?_, ?_, ?_⟩ <;> dsimp only [mayAct, atInstr, regsCanon] <;> decide +kernel

theorem wit_PlatesAndBandwidth :
    (let s : State := { State.reset with
         phm := ⟨{ phmReset with
                 plate := some {
                     seq := 4,
                     tn := 7,
                     tag := 1,
                     tir := true,
                     cad := false,
                     missed := 2,
                     groups := 3,
                     wrap := [1,2,3,4,5,6,7,8],
                     cnts := [(3, 99)],
                     bw := [],
                     dest := 0x80A00000,
                     addr := 0x123456000,
                     todo := [],
                     waiting := [] } }, phmReset⟩ };
     let h : Half := .east;
     let x : PlateImg := {
         seq := 4,
         tn := 7,
         tag := 1,
         tir := true,
         cad := false,
         missed := 2,
         groups := 3,
         wrap := [1,2,3,4,5,6,7,8],
         cnts := [(3, 99)],
         bw := [],
         dest := 0x80A00000,
         addr := 0x123456000,
         todo := [],
         waiting := [] };
     let i : Nat := 15;
     let p := s.phm.get h;
     let k := s.tn h;
     let due := p.latched ≠ some k ∧ (plateCad s h k = true ∨ p.tirTag.isSome = true);
     let ready := p.plate = some x ∧ x.todo = [] ∧ x.waiting = [] ∧ s.net.idone = [];
     (¬ due) ∧ (ready) ∧ (plateHost x = true) ∧ (mfind (s.binds.get h).usp (plateOwner x) = none) ∧
       (s.tn h % 2 ^ p.wexp = 0) ∧ (p.bwTn ≠ some (s.tn h)) ∧ (i < 16)) ∧
    (let s : State := setF [(MRD_TN_LO .east, ⟨0, 32, .ro, 0, false⟩, 1)]
       { State.reset with phm := ⟨{ phmReset with wexp := 10 }, phmReset⟩ };
     let h : Half := .east;
     let p := s.phm.get h;
     (s.tn h % 2 ^ p.wexp ≠ 0)) ∧
    (let s : State := rule .east 3 4 5
       (setW [(PHM_DEST .east, 0x80A00000)]
         { State.reset with
           phm := ⟨{ phmReset with tirTag := some 9 }, phmReset⟩,
           binds := ⟨⟨[(5, 9)], [], []⟩, ⟨[], [], []⟩⟩ });
     let h : Half := .east;
     let d : Nat := 9;
     let p := s.phm.get h;
     let k := s.tn h;
     let due := p.latched ≠ some k ∧ (plateCad s h k = true ∨ p.tirTag.isSome = true);
     let host := (s.rd (PHM_DEST h)).getLsbD 31 = true;
     let owner := bits (s.rd (PHM_DEST h)).toNat 26 21;
     (due) ∧ (p.plate = none) ∧ (host) ∧ (mfind (s.binds.get h).usp owner = some d) ∧ (isSplit s h = false) ∧
       ((∀ l ∈ [1, 9, 17, 25, 33],
           check s h (.tenant owner) ⟨4, owner, plateAddr (plateImg s h k 0 true true 0) l⟩ pW = .allow))) ∧
    (let s : State := { ( rule .east 3 4 5
           ({ State.reset with
               phm := ⟨{ phmReset with
                       plate := some {
                           seq := 4,
                           tn := 7,
                           tag := 1,
                           tir := true,
                           cad := false,
                           missed := 2,
                           groups := 3,
                           wrap := [1,2,3,4,5,6,7,8],
                           cnts := [(3, 99)],
                           bw := [],
                           dest := 0x80A00000,
                           addr := 0x123456000,
                           todo := [],
                           waiting := [] } }, phmReset⟩ }) ) with
         binds := ⟨⟨[(5, 9)], [], []⟩, ⟨[], [], []⟩⟩ };
     let h : Half := .east;
     let x : PlateImg := {
         seq := 4,
         tn := 7,
         tag := 1,
         tir := true,
         cad := false,
         missed := 2,
         groups := 3,
         wrap := [1,2,3,4,5,6,7,8],
         cnts := [(3, 99)],
         bw := [],
         dest := 0x80A00000,
         addr := 0x123456000,
         todo := [],
         waiting := [] };
     let d : Nat := 9;
     let p := s.phm.get h;
     let ready := p.plate = some x ∧ x.todo = [] ∧ x.waiting = [] ∧ s.net.idone = [];
     (ready) ∧ (plateHost x = true) ∧ (mfind (s.binds.get h).usp (plateOwner x) = some d) ∧ (isSplit s h = false) ∧
       (s.net.itags = []) ∧ (check s h (.tenant (plateOwner x)) ⟨4, plateOwner x, plateAddr x 0⟩ pW = .allow)) ∧
    (let s : State := { State.reset with
         phm := ⟨{ phmReset with
                 plate := some {
                     seq := 4,
                     tn := 7,
                     tag := 1,
                     tir := true,
                     cad := false,
                     missed := 2,
                     groups := 3,
                     wrap := [1,2,3,4,5,6,7,8],
                     cnts := [(3, 99)],
                     bw := [],
                     dest := 0,
                     addr := 0x123456000,
                     todo := [],
                     waiting := [3] } }, phmReset⟩ };
     let h : Half := .east;
     let x : PlateImg := {
         seq := 4,
         tn := 7,
         tag := 1,
         tir := true,
         cad := false,
         missed := 2,
         groups := 3,
         wrap := [1,2,3,4,5,6,7,8],
         cnts := [(3, 99)],
         bw := [],
         dest := 0,
         addr := 0x123456000,
         todo := [],
         waiting := [3] };
     let p := s.phm.get h;
     (p.plate = some x) ∧ (x.todo = []) ∧ (x.waiting ≠ []) ∧ (s.net.idone = [])) ∧
    (let s : State := setW [(PHM_DEST .east, 0x80A00000)]
       { State.reset with phm := ⟨{ phmReset with tirTag := some 9 }, phmReset⟩ };
     let h : Half := .east;
     let p := s.phm.get h;
     let k := s.tn h;
     let due := p.latched ≠ some k ∧ (plateCad s h k = true ∨ p.tirTag.isSome = true);
     let host := (s.rd (PHM_DEST h)).getLsbD 31 = true;
     let owner := bits (s.rd (PHM_DEST h)).toNat 26 21;
     (due) ∧ (p.plate = none) ∧ (host) ∧ (mfind (s.binds.get h).usp owner = none)) ∧
    (let s : State := { State.reset with
         phm := ⟨{ phmReset with
                 plate := some {
                     seq := 4,
                     tn := 7,
                     tag := 1,
                     tir := true,
                     cad := false,
                     missed := 2,
                     groups := 3,
                     wrap := [1,2,3,4,5,6,7,8],
                     cnts := [(3, 99)],
                     bw := [],
                     dest := 0x80A00000,
                     addr := 0x123456000,
                     todo := [],
                     waiting := [] },
                 tirTag := some 9,
                 missed := 0xFFFF }, phmReset⟩ };
     let h : Half := .east;
     let x : PlateImg := {
         seq := 4,
         tn := 7,
         tag := 1,
         tir := true,
         cad := false,
         missed := 2,
         groups := 3,
         wrap := [1,2,3,4,5,6,7,8],
         cnts := [(3, 99)],
         bw := [],
         dest := 0x80A00000,
         addr := 0x123456000,
         todo := [],
         waiting := [] };
     let p := s.phm.get h;
     let k := s.tn h;
     let due := p.latched ≠ some k ∧ (plateCad s h k = true ∨ p.tirTag.isSome = true);
     (due) ∧ (p.plate = some x)) := by
  refine ⟨?_, ?_, ?_, ?_, ?_, ?_, ?_⟩ <;> dsimp only [mayAct, atInstr, regsCanon] <;> decide +kernel

theorem wit_CciCommandsAreAnswered :
    (let s : State := { setF [(OBS_CLS_STAT .east 0, OBS_CLS_STAT_QUEUED, 16)] with
         mgt := { mgtReset with last := [(0, (0x5201, 0, 0))] } };
     let cci : Nat := 0;
     let n : Nat := 7;
     let e : Nat × Nat × Nat := (0x5201, 0, 0);
     let t : BitVec 6 := 63;
     let p : BitVec 5 := 31;
     let ps : List (BitVec 5) := [0, 31];
     let T := t.toNat;
     let P := p.toNat;
     let reach (hs : List Half) : Prop := cciReach s cci hs = true;
     (mfind s.mgt.bg cci = none) ∧ (mfind s.mgt.last cci = some e) ∧ (n < 8 ∨ 13 < n) ∧
       (reach (ps.map fun p => portHalf p.toNat)) ∧ (reach [portHalf P]) ∧ (reach [tenantHalf T]) ∧ (s.latches = []) ∧
       (mayAct s (.obs (cciHalf s cci) 0) (SF_TEN_STAT T)) ∧ (mayAct s (.obs (cciHalf s cci) 0) (SF_TEN_ERRCNT T))) ∧
    (let s : State := setF [(CDB_STAT .east, CDB_STAT_PHASE, 2), (CDB_STAT .west, CDB_STAT_PHASE, 2)];
     let cci : Nat := 69;
     let n : Nat := 8;
     let p : BitVec 5 := 31;
     let P := p.toNat;
     (8 ≤ n) ∧ (n ≤ 13) ∧ (cciReach s cci [portHalf P] = false)) ∧
    (let s : State := { setF [(OBS_CLS_STAT .east 68, OBS_CLS_STAT_QUEUED, 3), (SF_TEN_CTL 5, SF_TEN_CTL_FM_CCI, 1),
           (PRT_CFG 3, PRT_CFG_EN, 1), (SF_TEN_ERRCNT 63, SF_TEN_ERRCNT_HPWAIT_CNT, 9)] with
         mgt := { mgtReset with
             bg := [(2, ⟨0x5201, [], 3, false, []⟩)],
             events := [(18, 0, 1), (18, 1, 2)],
             limit := [(2, 9)] } };
     let cci : Nat := 2;
     let b : BgOp := ⟨0x5201, [], 3, false, []⟩;
     (mfind s.mgt.bg cci = some b)) := by
  refine ⟨?_, ?_, ?_⟩ <;> dsimp only [mayAct, atInstr, regsCanon] <;> decide +kernel

theorem wit_FmForwardsAndControls :
    (let s : State := setF [(CDB_STAT .east, CDB_STAT_PHASE, 2), (CDB_STAT .west, CDB_STAT_PHASE, 2)];
     let cci : Nat := 1;
     let t : BitVec 6 := 0;
     let v : BitVec 6 := 0;
     let p : BitVec 5 := 0;
     let k : BitVec 2 := 3;
     let tbl : Nat := 3;
     let idx : Nat := 4;
     let T := t.toNat;
     let P := p.toNat;
     let d := subNode P k.toNat;
     let entry := tbl * 2 ^ 32 + idx;
     (cciReach s cci [nodeHalf d] = true) ∧ (cciReach s cci [portHalf P] = true) ∧ (mayTrain s d = false) ∧
       (cciReach s cci [tenantHalf T] = true) ∧ (v.toNat ≤ 32) ∧ (mfind s.mgt.pbr entry = none)) ∧
    (let s : State := { setF [(PRT_CFG 31, PRT_CFG_EN, 1), (PRT_SLOT_STAT 31, PRT_SLOT_STAT_PERST, 1),
           (PRT_SLOT_STAT 31, PRT_SLOT_STAT_PG, 1), (MRD_NOW_LO .west, ⟨0, 32, .ro, 0, false⟩, 100000000)] with
         mgt := { mgtReset with perst := [31], pgAt := [(31, 0)], pclkAt := [(31, 0)] } };
     let cci : Nat := 1;
     let p : BitVec 5 := 31;
     let k : BitVec 2 := 0;
     let P := p.toNat;
     let d := subNode P k.toNat;
     (cciReach s cci [portHalf P] = true) ∧ (mayTrain s d = true) ∧ (inService s d = false)) ∧
    (let s : State := setF [(SF_TEN_CTL 5, SF_TEN_CTL_FM_CCI, 1), (SF_TEN_CTL 63, SF_TEN_CTL_FM_CCI, 1),
         (SF_TEN_CTL 63, SF_TEN_CTL_HP_WAIT, 77)];
     let cci : Nat := 1;
     let t : BitVec 6 := 63;
     let v : BitVec 6 := 33;
     let T := t.toNat;
     (cciReach s cci [tenantHalf T] = true) ∧ (32 < v.toNat)) ∧
    (let s : State := { State.reset with mgt := { mgtReset with pbr := [(3 * 2 ^ 32 + 4, 77)] } };
     let tbl : Nat := 3;
     let idx : Nat := 4;
     let x : Nat := 77;
     let entry := tbl * 2 ^ 32 + idx;
     (mfind s.mgt.pbr entry = some x)) := by
  refine ⟨?_, ?_, ?_, ?_⟩ <;> dsimp only [mayAct, atInstr, regsCanon] <;> decide +kernel

theorem wit_BindingCommandsStageRows :
    (let s : State := { State.reset with binds := ⟨⟨[], [(vpKey 3 5, VB1)], []⟩, ⟨[], [], []⟩⟩ };
     let cci : Nat := 0;
     let t : BitVec 6 := 3;
     let v : BitVec 5 := 5;
     let p : BitVec 5 := 31;
     let k : BitVec 2 := 3;
     let n : BitVec 6 := 63;
     let b : VBind := VB1;
     let rows : List (BitVec 6 × List Word) := [(0, [1, 2, 3, 4]), (63, [])];
     let T := t.toNat;
     let V := v.toNat;
     let d := subNode p.toNat k.toNat;
     let a := SF_BSTAGE T n.toNat 0;
     let free := mfind s.mgt.bg cci = none ∧ cciReach s cci [tenantHalf T] = true;
     let ready := free ∧ rowTaken s a = false;
     let bound := mfind (s.binds.get (tenantHalf T)).vb (vpKey T V) = some b;
     (ready) ∧ (bound) ∧ (mfind s.mgt.bg cci = none) ∧ (cciReach s cci [tenantHalf T, nodeHalf d] = true) ∧ (free) ∧
       (1 ≤ rows.length) ∧ (rows.length ≤ 8) ∧ ((rows.map Prod.fst).Nodup) ∧
       ((∀ r ∈ rows, rowTaken s (SF_BSTAGE T r.1.toNat 0) = false)) ∧ (inReset s T = false)) ∧
    (let s : State := { State.reset with
         mgt := { mgtReset with bg := [(0, ⟨opDCREL, [], 3, false, [127, 15, 0x123456789, 0x100000000]⟩)] } };
     let cci : Nat := 0;
     let base : Nat := 0x123456789;
     let len : Nat := 0x100000000;
     let t : BitVec 6 := 3;
     let v : BitVec 5 := 5;
     let p : BitVec 5 := 31;
     let k : BitVec 2 := 3;
     let l : BitVec 4 := 15;
     let n : BitVec 6 := 63;
     let o : BgOp := ⟨opDCREL, [], 3, false, [127, 15, 0x123456789, 0x100000000]⟩;
     let T := t.toNat;
     let V := v.toNat;
     let d := subNode p.toNat k.toNat;
     let a := SF_BSTAGE T n.toNat 0;
     (rowTaken s a = false) ∧ (cciReach s cci [tenantHalf T] = true) ∧ (mfind s.mgt.bg cci = some o) ∧
       (mfind (s.binds.get (tenantHalf T)).vb (vpKey T V) = none) ∧ (o.code = opDCREL) ∧ (o.rows = []) ∧
       (o.tenant = T) ∧ (o.fwd = [d, l.toNat, base, len])) ∧
    (let rows : List (BitVec 6 × List Word) := List.replicate 9 (1, []);
     (rows = [] ∨ 8 < rows.length)) ∧
    (let s : State := { State.reset with
         mgt := { mgtReset with bg := [(1, ⟨opDCREL, [SF_BSTAGE 3 63 0], 3, false, []⟩)] } };
     let t : BitVec 6 := 3;
     let n : BitVec 6 := 63;
     let T := t.toNat;
     let a := SF_BSTAGE T n.toNat 0;
     (rowTaken s a = true)) := by
  refine ⟨?_, ?_, ?_, ?_⟩ <;> dsimp only [mayAct, atInstr, regsCanon] <;> decide +kernel

theorem wit_RailsGoUpAndDown :
    (let s : State := setF [(MRD_PWR_STAT, MRD_PWR_STAT_STATE, 1), (MRD_PWR_STAT, MRD_PWR_STAT_EN, 127),
         (MRD_PWR_STAT, MRD_PWR_STAT_PG, 63)];
     let m : Master := .obs .east 0;
     let n : BitVec 3 := 6;
     let N := n.toNat;
     let waits := pwrState s = pwUP ∧ railEn s N = true ∧ railPg s N = false;
     (mayAct s m MRD_PWR_CTL) ∧ (pwrState s = pwUP ∨ pwrState s = pwON) ∧ (regsCanon s) ∧ (pwrState s ≠ pwFAULT) ∧
       (pwrState s ≠ pwLOCKOUT) ∧ (s.dome.down = none) ∧ (waits) ∧ (N < 7) ∧ (railEn s (N + 1) = false) ∧
       (s.dome.retry = false ∨ s.dome.down.isSome = true) ∧ (railEn s N = false ∨ railPg s N = false)) ∧
    (let s : State := { setF [(MRD_PWR_STAT, MRD_PWR_STAT_STATE, 3), (MRD_PWR_STAT, MRD_PWR_STAT_EN, 1),
           (MRD_PWR_STAT, MRD_PWR_STAT_PG, 1)] with
         dome := { domeReset with down := some (4, true) } };
     let m : Master := .obs .east 0;
     let n : BitVec 3 := 0;
     let left : Nat := 4;
     let again : Bool := true;
     let N := n.toNat;
     let waits := pwrState s = pwUP ∧ railEn s N = true ∧ railPg s N = false;
     (mayAct s m MRD_PWR_CTL) ∧ (pwrState s ≠ pwUP) ∧ (pwrState s ≠ pwON) ∧ (s.dome.down = some (left, again)) ∧
       (pwrState s ≠ pwFAULT) ∧ (pwrState s ≠ pwLOCKOUT) ∧ (¬ waits) ∧ (railEn s N = true) ∧ (railPg s N = true) ∧
       (regsCanon s) ∧ (s.pending = []) ∧ (s.dome.released = false) ∧ ((∀ j, j < 8 → N < j → railEn s j = false))) ∧
    (let s : State := setF [(MRD_PWR_STAT, MRD_PWR_STAT_STATE, 4)];
     let m : Master := .obs .east 0;
     (mayAct s m MRD_PWR_CTL) ∧ (pwrState s ≠ pwUP) ∧ (pwrState s ≠ pwON) ∧ (s.dome.down = none) ∧
       (pwrState s = pwFAULT ∨ pwrState s = pwLOCKOUT)) ∧
    (let s : State := { setF [(MRD_PWR_STAT, MRD_PWR_STAT_ATTEMPTS, 3)] with
         dome := { domeReset with retry := true } };
     let att (u : State) := u.fget MRD_PWR_STAT MRD_PWR_STAT_ATTEMPTS;
     (s.dome.retry = true) ∧ (s.dome.down = none) ∧ (3 ≤ att s)) ∧
    (let s : State := { setF [(MRD_PWR_STAT, MRD_PWR_STAT_ATTEMPTS, 2)] with
         dome := { domeReset with retry := true } };
     let att (u : State) := u.fget MRD_PWR_STAT MRD_PWR_STAT_ATTEMPTS;
     (s.dome.retry = true) ∧ (s.dome.down = none) ∧ (att s < 3)) ∧
    (let s : State := setF [(MRD_PWR_STAT, MRD_PWR_STAT_STATE, 1), (MRD_PWR_STAT, MRD_PWR_STAT_EN, 255),
         (MRD_PWR_STAT, MRD_PWR_STAT_PG, 127)];
     let n : BitVec 3 := 7;
     let N := n.toNat;
     let waits := pwrState s = pwUP ∧ railEn s N = true ∧ railPg s N = false;
     (waits) ∧ (N = 7)) := by
  refine ⟨?_, ?_, ?_, ?_, ?_, ?_⟩ <;> dsimp only [mayAct, atInstr, regsCanon] <;> decide +kernel

theorem wit_ResetsOfTheDevice :
    (let s : State := setF [(OBS_STAT .east, OBS_STAT_ROLE, 1), (REF_LCNT .west 5 3, REF_LCNT_COUNT, 8),
         (MRD_STRAP, MRD_STRAP_PWR_AUTO, 1), (MRD_PWR_STAT, MRD_PWR_STAT_STATE, 2), (SHT_STAT 3, SHT_STAT_STATE, 2),
         (SHT_STAT 3, SHT_STAT_PG, 1), (PRT_SLOT_STAT 3, PRT_SLOT_STAT_PG, 1),
         (PRT_SLOT_STAT 3, PRT_SLOT_STAT_PERST, 0), (REF_SEQ .east, REF_SEQ_SEQ, 77),
         (UMP_STAT .west, UMP_STAT_DBG_AUTH, 1), (MRD_DBG_STAT, MRD_DBG_STAT_AUTH, 1),
         (PHM_CNT_LO .west 5, ⟨0, 32, .ro, 0, false⟩, 9), (MRD_TN_LO .east, ⟨0, 32, .ro, 0, false⟩, 9),
         (MRD_NOW_LO .east, ⟨0, 32, .ro, 0, false⟩, 9500), (MRD_LIFE_LO, ⟨0, 32, .ro, 0, false⟩, 99)]
       { State.reset with
         dome := { domeReset with released := true, run := true },
         chans := [(3, { chanReset with accM := 5, heat := 7, rampAt := 4 })],
         viral := [4] };
     let m : Master := .obs .west 3;
     (s.dome.run = true) ∧ (regsCanon s) ∧ (mayAct s m MRD_RST_CTL) ∧ (frozen s = false)) ∧
    (let s : State := setF [(MRD_FRZ_STAT, MRD_FRZ_STAT_FROZEN, 1)];
     let m : Master := .obs .east 0;
     (s.dome.run = false) ∧ (mayAct s m MRD_RST_CTL) ∧ (frozen s = true)) := by
  refine ⟨?_, ?_⟩ <;> dsimp only [mayAct, atInstr, regsCanon] <;> decide +kernel

theorem wit_HalvesBootAndTrain :
    (let s : State := { State.reset with dome := { domeReset with hbmFails := [(1, 2)], run := true } };
     let m : Master := .obs .east 0;
     let h : Half := .west;
     let r : BitVec 3 := 1;
     let v : BitVec 16 := 65535;
     let a : Nat := MRD_BOOT_CTL;
     let d : RegDesc := ⟨0x50, [], 0x0, [MRD_BOOT_CTL_PREF_V, MRD_BOOT_CTL_PREF], false⟩;
     let b := MRD_BOOT_STAT;
     let answers := s.dome.run = true ∧ (s.dome.released = false ∨ frozen s = true);
     let boots := s.dome.released = true ∧ svcPhase s = svBOOT;
     let n := nget s.dome.hbmFails h.idx;
     let trained := h.idx ∈ s.dome.hbmOk ∨ 3 ≤ n;
     (pwrState s ≠ pwON ∨ svcPhase s ≠ svRAILS ∨ s.dome.released = true) ∧ (¬ boots) ∧
       (s.flag b MRD_BOOT_STAT_BOOT_FAIL = false ∨ s.dome.released = true ∨ imageResult s r.toNat v.toNat ≠ 1) ∧
       (mayAct s m MRD_SVC_CTL) ∧ (finderOnly s = false) ∧ (¬ trained) ∧ (n = 2) ∧ (answers) ∧ (a % 4 = 0) ∧
       (a < 0x01000000) ∧ (domeReg a = some d) ∧ (d.lo64 = false) ∧ (rcMask d.flds = 0) ∧ (a ≠ MRD_DBG_NONCE 0) ∧
       (s.latches = [])) ∧
    (let s : State := setF [(MRD_STRAP, MRD_STRAP_FINDER_ONLY, 1)];
     let m : Master := .obs .east 0;
     let h : Half := .west;
     let answers := s.dome.run = true ∧ (s.dome.released = false ∨ frozen s = true);
     let n := nget s.dome.hbmFails h.idx;
     let trained := h.idx ∈ s.dome.hbmOk ∨ 3 ≤ n;
     (mayAct s m MRD_SVC_CTL) ∧ (finderOnly s = true) ∧ (¬ trained) ∧ (n < 2) ∧ (¬ answers)) ∧
    (let s : State := setF [(MRD_FRZ_STAT, MRD_FRZ_STAT_FROZEN, 1)]
       { State.reset with dome := { domeReset with hbmOk := [1], run := true, released := true } };
     let h : Half := .west;
     let n := nget s.dome.hbmFails h.idx;
     let trained := h.idx ∈ s.dome.hbmOk ∨ 3 ≤ n;
     (trained)) ∧
    (let s : State := { State.reset with dome := { domeReset with hbmFails := [(1, 1)], run := true } };
     let a : Nat := 0xFFFFFC;
     let answers := s.dome.run = true ∧ (s.dome.released = false ∨ frozen s = true);
     (answers) ∧ (a % 4 = 0) ∧ (a < 0x01000000) ∧ (domeReg a = none)) ∧
    (let s : State := setF [(MRD_BOOT_STAT, MRD_BOOT_STAT_BOOT_FAIL, 1)];
     let r : BitVec 3 := 1;
     let v : BitVec 16 := 65535;
     let b := MRD_BOOT_STAT;
     (s.flag b MRD_BOOT_STAT_BOOT_FAIL = true) ∧ (s.dome.released = false) ∧ (imageResult s r.toNat v.toNat = 1)) ∧
    (let s : State := { { setF [(MRD_SVC_STAT, MRD_SVC_STAT_PHASE, 2), (MRD_PWR_STAT, MRD_PWR_STAT_STATE, 2)] with
           dome := { domeReset with released := true } } with
         fw := { fwReset with minSvn := 8 } };
     let ra : BitVec 3 := 1;
     let rb : BitVec 3 := 1;
     let va : BitVec 16 := 7;
     let vb : BitVec 16 := 8;
     let boots := s.dome.released = true ∧ svcPhase s = svBOOT;
     let p := prefImage s;
     let res (i : Nat) := if i = 0 then imageResult s ra.toNat va.toNat else imageResult s rb.toNat vb.toNat;
     (boots) ∧ (res p ≠ 1) ∧ (res (1 - p) = 1)) ∧
    (let s : State := setF [(MRD_STRAP, MRD_STRAP_BOOT, 1)]
       ({ setF [(MRD_SVC_STAT, MRD_SVC_STAT_PHASE, 2), (MRD_PWR_STAT, MRD_PWR_STAT_STATE, 2)] with
           dome := { domeReset with released := true } });
     let ra : BitVec 3 := 2;
     let rb : BitVec 3 := 1;
     let va : BitVec 16 := 7;
     let vb : BitVec 16 := 0;
     let boots := s.dome.released = true ∧ svcPhase s = svBOOT;
     let p := prefImage s;
     let res (i : Nat) := if i = 0 then imageResult s ra.toNat va.toNat else imageResult s rb.toNat vb.toNat;
     (boots) ∧ (res p = 1)) ∧
    (let s : State := { setF [(MRD_SVC_STAT, MRD_SVC_STAT_PHASE, 2), (MRD_PWR_STAT, MRD_PWR_STAT_STATE, 2)] with
         dome := { domeReset with released := true } };
     let ra : BitVec 3 := 2;
     let rb : BitVec 3 := 4;
     let va : BitVec 16 := 7;
     let vb : BitVec 16 := 0;
     let boots := s.dome.released = true ∧ svcPhase s = svBOOT;
     let p := prefImage s;
     let res (i : Nat) := if i = 0 then imageResult s ra.toNat va.toNat else imageResult s rb.toNat vb.toNat;
     (boots) ∧ (res p ≠ 1) ∧ (res (1 - p) ≠ 1)) ∧
    (let s : State := setF [(MRD_SVC_STAT, MRD_SVC_STAT_PHASE, 1), (MRD_PWR_STAT, MRD_PWR_STAT_STATE, 2),
         (MRD_NOW_LO .east, ⟨0, 32, .ro, 0, false⟩, 9500), (MRD_TN_LO .east, ⟨0, 32, .ro, 0, false⟩, 9)];
     (pwrState s = pwON) ∧ (svcPhase s = svRAILS) ∧ (s.dome.released = false)) := by
  refine ⟨?_, ?_, ?_, ?_, ?_, ?_, ?_, ?_, ?_⟩ <;> dsimp only [mayAct, atInstr, regsCanon] <;> decide +kernel

theorem wit_ClustersHandOverAndQueue :
    (let s : State := setF [(OBS_CLS_STAT .east 1, OBS_CLS_STAT_QUEUED, 16),
         (OBS_CLS_STAT .east 1, OBS_CLS_STAT_BUSY_CNT, 0xFFFF)];
     let m : Master := .obs .east 0;
     let h : Half := .east;
     let b : Nat := 0;
     let typ : Nat := 6;
     let code : Nat := 7;
     let len : Nat := 8192;
     let role (u : State) (h : Half) := u.flag (OBS_STAT h) OBS_STAT_ROLE;
     let ready (u : State) (h : Half) := u.flag (OBS_STAT h) OBS_STAT_STANDBY_READY;
     let journal (u : State) (h : Half) := u.flag (OBS_STAT h) OBS_STAT_JOURNAL_OK;
     let due := (s.obs.get h).held = false ∧ (s.obs.get h).kick + max 1 (s.fget (OBS_WDOG h) OBS_WDOG_TMO) * 1000000 ≤
       s.now h;
     let may := ready s h = true ∧ journal s h = true ∧ isSplit s h = false;
     let cls := OBS_CLS_STAT (mctpHalf s b) (mctpClass s b typ code);
     let taken := mctpAccepts s b typ = true ∧ len ≤ 8192;
     (mayAct s m (OBS_WDOG h)) ∧ (¬ due) ∧ (role s h = false) ∧ (s.fw.act = none) ∧ (mayAct s m (OBS_CTL h)) ∧ (¬ may)
       ∧ (s.fw.handover = none) ∧ (isSplit s .east = false) ∧ (isSplit s .west = false) ∧ (taken) ∧ (typ ≠ 0) ∧
       (16 ≤ s.fget cls OBS_CLS_STAT_QUEUED)) ∧
    (let s : State := { (setF [(OBS_STAT .east, OBS_STAT_ROLE, 1), (OBS_STAT .east, OBS_STAT_STANDBY_READY, 1),
             (OBS_STAT .east, OBS_STAT_JOURNAL_OK, 1), (OBS_STAT .west, OBS_STAT_JOURNAL_OK, 1),
             (OBS_CLS_STAT .east 66, OBS_CLS_STAT_QUEUED, 12), (OBS_CLS_STAT .west 66, OBS_CLS_STAT_QUEUED, 9),
             (OBS_CLS_STAT .east 0, OBS_CLS_STAT_QUEUED, 16)]) with
         fw := { fwReset with handover := some .east } };
     let m : Master := .obs .east 0;
     let h : Half := .east;
     let b : Nat := 0;
     let typ : Nat := 0;
     let len : Nat := 8192;
     let role (u : State) (h : Half) := u.flag (OBS_STAT h) OBS_STAT_ROLE;
     let ready (u : State) (h : Half) := u.flag (OBS_STAT h) OBS_STAT_STANDBY_READY;
     let journal (u : State) (h : Half) := u.flag (OBS_STAT h) OBS_STAT_JOURNAL_OK;
     let may := ready s h = true ∧ journal s h = true ∧ isSplit s h = false;
     let taken := mctpAccepts s b typ = true ∧ len ≤ 8192;
     (role s h = true) ∧ (mayAct s m (OBS_CTL h)) ∧ (may) ∧ (s.fw.handover = some h) ∧ (s.fw.act = none) ∧ (taken) ∧
       (typ = 0)) ∧
    (let s : State := setF [(CDB_STAT .east, CDB_STAT_PHASE, 2), (CDB_STAT .west, CDB_STAT_PHASE, 2)];
     let h : Half := .west;
     let b : Nat := 1;
     let typ : Nat := 8;
     let code : Nat := 7;
     let len : Nat := 8192;
     let cls := OBS_CLS_STAT (mctpHalf s b) (mctpClass s b typ code);
     let taken := mctpAccepts s b typ = true ∧ len ≤ 8192;
     (isSplit s h = true) ∧ (taken) ∧ (typ ≠ 0) ∧ (s.fget cls OBS_CLS_STAT_QUEUED < 16)) ∧
    (let s : State := State.reset;
     let b : Nat := 0;
     let typ : Nat := 9;
     let len : Nat := 8192;
     let taken := mctpAccepts s b typ = true ∧ len ≤ 8192;
     (¬ taken)) ∧
    (let s : State := setF [(MRD_NOW_LO .east, ⟨0, 32, .ro, 0, false⟩, 20000000),
         (MRD_NOW_LO .west, ⟨0, 32, .ro, 0, false⟩, 20000000)]
       ({ (setF [(OBS_STAT .east, OBS_STAT_ROLE, 1), (OBS_STAT .east, OBS_STAT_STANDBY_READY, 1),
               (OBS_STAT .east, OBS_STAT_JOURNAL_OK, 1), (OBS_STAT .west, OBS_STAT_JOURNAL_OK, 1),
               (OBS_CLS_STAT .east 66, OBS_CLS_STAT_QUEUED, 12), (OBS_CLS_STAT .west 66, OBS_CLS_STAT_QUEUED, 9),
               (OBS_CLS_STAT .east 0, OBS_CLS_STAT_QUEUED, 16)]) with
           obs := ⟨obsReset, { obsReset with held := true }⟩ });
     let h : Half := .east;
     let role (u : State) (h : Half) := u.flag (OBS_STAT h) OBS_STAT_ROLE;
     let due := (s.obs.get h).held = false ∧ (s.obs.get h).kick + max 1 (s.fget (OBS_WDOG h) OBS_WDOG_TMO) * 1000000 ≤
       s.now h;
     (due) ∧ (role s h = true)) ∧
    (let s : State := setF [(MRD_NOW_LO .east, ⟨0, 32, .ro, 0, false⟩, 20000000),
         (MRD_NOW_LO .west, ⟨0, 32, .ro, 0, false⟩, 20000000)]
       (setF [(OBS_STAT .east, OBS_STAT_ROLE, 1), (OBS_STAT .east, OBS_STAT_STANDBY_READY, 1),
           (OBS_STAT .east, OBS_STAT_JOURNAL_OK, 1), (OBS_STAT .west, OBS_STAT_JOURNAL_OK, 1),
           (OBS_CLS_STAT .east 66, OBS_CLS_STAT_QUEUED, 12), (OBS_CLS_STAT .west 66, OBS_CLS_STAT_QUEUED, 9),
           (OBS_CLS_STAT .east 0, OBS_CLS_STAT_QUEUED, 16)]);
     let h : Half := .west;
     let role (u : State) (h : Half) := u.flag (OBS_STAT h) OBS_STAT_ROLE;
     let due := (s.obs.get h).held = false ∧ (s.obs.get h).kick + max 1 (s.fget (OBS_WDOG h) OBS_WDOG_TMO) * 1000000 ≤
       s.now h;
     (due) ∧ (role s h = false)) := by
  refine ⟨?_, ?_, ?_, ?_, ?_, ?_⟩ <;> dsimp only [mayAct, atInstr, regsCanon] <;> decide +kernel

theorem wit_FirmwareSpdmAndAborts :
    (let s : State := { (setF [(OBS_STAT .east, OBS_STAT_ROLE, 1), (OBS_STAT .east, OBS_STAT_STANDBY_READY, 1),
             (OBS_STAT .east, OBS_STAT_JOURNAL_OK, 1), (OBS_STAT .west, OBS_STAT_JOURNAL_OK, 1),
             (OBS_CLS_STAT .east 66, OBS_CLS_STAT_QUEUED, 12), (OBS_CLS_STAT .west 66, OBS_CLS_STAT_QUEUED, 9),
             (OBS_CLS_STAT .east 0, OBS_CLS_STAT_QUEUED, 16)]) with
         fw := { fwReset with minSvn := 4, svn := [(0, 7)], xfer := some (2, 4096) } };
     let cci : Nat := 5;
     let slot : Nat := 2;
     let off : Nat := 4096;
     let i : Nat := 6;
     let pl : SpdmPlace := .pf 63;
     let compat : Bool := true;
     let r : BitVec 3 := 1;
     let v : BitVec 16 := 7;
     let o : BgOp := ⟨opACTFW, [], 0, false, []⟩;
     let own := placeResponds pl = true;
     let goes := match s.fw.xfer with | some (k, o) => if k = slot then o else 0 | none => 0;
     let fits := (slot = 1 ∨ slot = 2) ∧ slot ≠ slotRunning s ∧ (off = 0 ∨ off = goes);
     let east := (s.obs.get .east).held = false ∧ cciReach s cci [.east] = true;
     let good := (slot = 1 ∨ slot = 2) ∧ imageResult s r.toNat v.toNat = 1;
     let both := v.toNat = s.fget MRD_BOOT_STAT MRD_BOOT_STAT_SVN ∧ (s.obs.get .east).img = (s.obs.get .west).img ∧
       (s.obs.get .east).held = false ∧ (s.obs.get .west).held = false;
     (own) ∧ (5 < i) ∧ (1 ≤ i) ∧ (i ≤ 7) ∧ (east) ∧ (fits) ∧ (good) ∧ (compat = true) ∧
       (cciReach s cci [.east, .west] = true) ∧ (mfind s.mgt.bg cci = none) ∧ (s.fw.act = none) ∧ (¬ both)) ∧
    (let s : State := { (setF [(OBS_STAT .east, OBS_STAT_ROLE, 1), (OBS_STAT .east, OBS_STAT_STANDBY_READY, 1),
             (OBS_STAT .east, OBS_STAT_JOURNAL_OK, 1), (OBS_STAT .west, OBS_STAT_JOURNAL_OK, 1),
             (OBS_CLS_STAT .east 66, OBS_CLS_STAT_QUEUED, 12), (OBS_CLS_STAT .west 66, OBS_CLS_STAT_QUEUED, 9),
             (OBS_CLS_STAT .east 0, OBS_CLS_STAT_QUEUED, 16)]) with
         mgt := { mgtReset with bg := [(5, ⟨opACTFW, [], 0, false, []⟩)] },
         fw := { fwReset with act := some ⟨5, 1, 7, false⟩ },
         obs := ⟨{ obsReset with img := 1 }, obsReset⟩ };
     let cci : Nat := 5;
     let slot : Nat := 2;
     let off : Nat := 4096;
     let o : BgOp := ⟨opACTFW, [], 0, false, []⟩;
     let x : Activation := ⟨5, 1, 7, false⟩;
     let p := obsPrimary s;
     let goes := match s.fw.xfer with | some (k, o) => if k = slot then o else 0 | none => 0;
     let fits := (slot = 1 ∨ slot = 2) ∧ slot ≠ slotRunning s ∧ (off = 0 ∨ off = goes);
     let east := (s.obs.get .east).held = false ∧ cciReach s cci [.east] = true;
     (east) ∧ (¬ fits) ∧ (mfind s.mgt.bg cci = some o) ∧ (o.code = opACTFW) ∧ (s.fw.act = some x) ∧
       ((s.obs.get p).img = x.slot)) ∧
    (let s : State := { (setF [(OBS_STAT .east, OBS_STAT_ROLE, 1), (OBS_STAT .east, OBS_STAT_STANDBY_READY, 1),
             (OBS_STAT .east, OBS_STAT_JOURNAL_OK, 1), (OBS_STAT .west, OBS_STAT_JOURNAL_OK, 1),
             (OBS_CLS_STAT .east 66, OBS_CLS_STAT_QUEUED, 12), (OBS_CLS_STAT .west 66, OBS_CLS_STAT_QUEUED, 9),
             (OBS_CLS_STAT .east 0, OBS_CLS_STAT_QUEUED, 16)]) with
         mgt := { mgtReset with bg := [(5, ⟨opACTFW, [], 0, false, []⟩)] },
         fw := { fwReset with act := some ⟨5, 1, 7, false⟩ } };
     let cci : Nat := 5;
     let o : BgOp := ⟨opACTFW, [], 0, false, []⟩;
     let x : Activation := ⟨5, 1, 7, false⟩;
     let p := obsPrimary s;
     (mfind s.mgt.bg cci = some o) ∧ (o.code = opACTFW) ∧ (s.fw.act = some x) ∧ ((s.obs.get p).img ≠ x.slot)) ∧
    (let s : State := { State.reset with mgt := { mgtReset with bg := [(5, ⟨0x5201, [0x0A001000], 0, false, []⟩)] } };
     let cci : Nat := 5;
     let a : Nat := 0x0A001000;
     let w : Nat := 0x0A001008;
     let h : Half := .east;
     let o : BgOp := ⟨0x5201, [0x0A001000], 0, false, []⟩;
     (mfind s.mgt.bg cci = some o) ∧ (o.code ≠ opACTFW) ∧ (o.rows = [a]) ∧ (rowWord2 a = some (h, w)) ∧
       (w < 0x0F000000) ∧ ((s.rd w).getLsbD 31 = false)) ∧
    (let s : State := setF [(MRD_BOOT_STAT, MRD_BOOT_STAT_SVN, 7)]
       ({ (setF [(OBS_STAT .east, OBS_STAT_ROLE, 1), (OBS_STAT .east, OBS_STAT_STANDBY_READY, 1),
               (OBS_STAT .east, OBS_STAT_JOURNAL_OK, 1), (OBS_STAT .west, OBS_STAT_JOURNAL_OK, 1),
               (OBS_CLS_STAT .east 66, OBS_CLS_STAT_QUEUED, 12), (OBS_CLS_STAT .west 66, OBS_CLS_STAT_QUEUED, 9),
               (OBS_CLS_STAT .east 0, OBS_CLS_STAT_QUEUED, 16)]) with
           fw := { fwReset with minSvn := 4, svn := [(0, 7)], xfer := some (2, 4096) } });
     let v : BitVec 16 := 7;
     let both := v.toNat = s.fget MRD_BOOT_STAT MRD_BOOT_STAT_SVN ∧ (s.obs.get .east).img = (s.obs.get .west).img ∧
       (s.obs.get .east).held = false ∧ (s.obs.get .west).held = false;
     (both)) ∧
    (let s : State := { (setF [(OBS_STAT .east, OBS_STAT_ROLE, 1), (OBS_STAT .east, OBS_STAT_STANDBY_READY, 1),
             (OBS_STAT .east, OBS_STAT_JOURNAL_OK, 1), (OBS_STAT .west, OBS_STAT_JOURNAL_OK, 1),
             (OBS_CLS_STAT .east 66, OBS_CLS_STAT_QUEUED, 12), (OBS_CLS_STAT .west 66, OBS_CLS_STAT_QUEUED, 9),
             (OBS_CLS_STAT .east 0, OBS_CLS_STAT_QUEUED, 16)]) with
         fw := { fwReset with minSvn := 4, svn := [(0, 7)], xfer := some (2, 4096) } };
     let slot : Nat := 2;
     let online : Bool := true;
     let compat : Bool := false;
     let r : BitVec 3 := 1;
     let v : BitVec 16 := 7;
     let good := (slot = 1 ∨ slot = 2) ∧ imageResult s r.toNat v.toNat = 1;
     (¬ good ∨ (online = true ∧ compat = false))) ∧
    (let s : State := { ({ (setF [(OBS_STAT .east, OBS_STAT_ROLE, 1), (OBS_STAT .east, OBS_STAT_STANDBY_READY, 1),
                 (OBS_STAT .east, OBS_STAT_JOURNAL_OK, 1), (OBS_STAT .west, OBS_STAT_JOURNAL_OK, 1),
                 (OBS_CLS_STAT .east 66, OBS_CLS_STAT_QUEUED, 12), (OBS_CLS_STAT .west 66, OBS_CLS_STAT_QUEUED, 9),
                 (OBS_CLS_STAT .east 0, OBS_CLS_STAT_QUEUED, 16)]) with
             fw := { fwReset with minSvn := 4, svn := [(0, 7)], xfer := some (2, 4096) } }) with
         spdm := ⟨[(5, 1)], [(1, 123)]⟩ };
     let i : Nat := 1;
     let a : Nat := 123;
     let pl : SpdmPlace := .usp 5;
     let own := placeResponds pl = true;
     (own) ∧ (1 ≤ i) ∧ (mfind s.spdm.certs i = some a)) := by
  refine ⟨?_, ?_, ?_, ?_, ?_, ?_, ?_⟩ <;> dsimp only [mayAct, atInstr, regsCanon] <;> decide +kernel

theorem wit_DebugTapAndFreeze :
    (let s : State := setF [(MRD_DBG_STAT, MRD_DBG_STAT_AUTH, 1), (MRD_FRZ_STAT, MRD_FRZ_STAT_FROZEN, 1),
         (MRD_FRZ_STAT, MRD_FRZ_STAT_READOUT, 255)];
     let m : Master := .obs .east 0;
     let h : Half := .west;
     let k : Nat := 2;
     let good : Bool := true;
     let d := MRD_DBG_STAT;
     let auth (u : State) := u.flag d MRD_DBG_STAT_AUTH;
     let grants := good = true ∧ s.dome.nonce = true ∧ s.flag d MRD_DBG_STAT_DISABLED = false;
     let locked := s.flag d MRD_DBG_STAT_LOCKOUT;
     let drives := auth s = true ∧ svcPhase s ≤ svRAILS;
     let standby := auth s = true ∧ isPrimary s h = false;
     (mayAct s (.obs h k) (MRD_DBG_NONCE 0)) ∧ (s.latches = []) ∧ (locked = false) ∧ (¬ grants) ∧
       (mayAct s m MRD_DBG_CTL) ∧ (drives) ∧ (standby) ∧
       (s.flag MRD_FRZ_CTL MRD_FRZ_CTL_EN = false ∨ s.dome.released = false) ∧ (frozen s = true) ∧ (auth s = true)) ∧
    (let s : State := { State.reset with dome := { domeReset with released := true } };
     let h : Half := .west;
     let d := MRD_DBG_STAT;
     let auth (u : State) := u.flag d MRD_DBG_STAT_AUTH;
     let drives := auth s = true ∧ svcPhase s ≤ svRAILS;
     let standby := auth s = true ∧ isPrimary s h = false;
     (¬ drives) ∧ (¬ standby) ∧ (s.flag MRD_FRZ_CTL MRD_FRZ_CTL_EN = true) ∧ (s.dome.released = true) ∧
       (frozen s = false ∨ auth s = false)) ∧
    (let s : State := { State.reset with dome := { domeReset with nonce := true } };
     let good : Bool := true;
     let d := MRD_DBG_STAT;
     let grants := good = true ∧ s.dome.nonce = true ∧ s.flag d MRD_DBG_STAT_DISABLED = false;
     let locked := s.flag d MRD_DBG_STAT_LOCKOUT;
     (locked = false) ∧ (grants)) ∧
    (let s : State := setF [(MRD_DBG_STAT, MRD_DBG_STAT_LOCKOUT, 1)];
     let d := MRD_DBG_STAT;
     let locked := s.flag d MRD_DBG_STAT_LOCKOUT;
     (locked = true)) := by
  refine ⟨?_, ?_, ?_, ?_⟩ <;> dsimp only [mayAct, atInstr, regsCanon] <;> decide +kernel

theorem wit_BoundaryOpensTheNextTransit_meridian :
    let s := State.reset
    (s.mrd.get .west).step = 0 ∧ s.mer .west ≤ (s.tn .west + 1) * 1000 * 65536 ∧ s.tn .west + 1 < 2 ^ 48
      ∧ 1 < (s.mrd.get .west).inc + (s.mrd.get .west).adj ∧ (s.mrd.get .west).inc + (s.mrd.get .west).adj < 2 ^ 18 := by
  decide +kernel

theorem wit_StepRunsFrontCommand :
    ({ State.reset with pending := [.endl .east] } : State).pending = .endl .east :: [] := by decide +kernel

theorem wit_TiropWordsRoundTrip :
    (Instr.bfi .east 1 2 60 3).wf = true ∧ tiropHalf (.bfi .east 1 2 60 3) = some .east
      ∧ (Instr.addi .west 6 6 (.x 0xFFFFFFFFFF)).wf = true ∧ tiropHalf (.addi .west 6 6 (.x 0xFFFFFFFFFF)) = some .west := by decide +kernel

theorem wit_PairInvariantKept :
    let s := { State.reset with pending := [.nop .west .clean] }
    s.pending = .nop .west .clean :: [] ∧ tiropHalf (.nop .west .clean) = some .west
      ∧ pairInv (s.trp.get .east) ∧ pairInv (s.trp.get .west) ∧ (match step s with | .next _ => true | _ => false) = true := by
  dsimp only [pairInv]; decide +kernel

/-- One state for each disjunct of TiropFaultsStopThePair: LOOP with COUNT 0, LOOP with LEN 1, a third LOOP, ENDL with no loop,
SMP with K 11, REFILL of no row. -/
theorem wit_TiropFaultsStopThePair :
    let l : LoopRec := ⟨90, 120, 2⟩
    let ok (i : Instr) (ls : List LoopRec) : Prop :=
      let s := tir (encodeTirop i) (fun t => { t with loops := ls })
      atInstr s .west i 0 ∧ (s.trp.get .west).requal = none ∧ holdsGen (s.trp.get .west) = false ∧ (s.trp.get .west).loops = ls
    ok (.loop .west 4 0) [] ∧ ok (.loop .west 1 3) [] ∧ ok (.loop .west 4 3) [l, l] ∧ ok (.endl .west) [] ∧ ok (.smp .west 1 2 11) []
      ∧ ok (.refill .west 0 1) []
      ∧ rowsAt (refillTables .west) ((tir (encodeTirop (.refill .west 0 1))).trp.west.reg 0).toNat 1 = none := by
  dsimp only [atInstr]; decide +kernel

end Sys2Proof.Tests
end

section
/-! PROOFS. The state right after Dome power-up (R8, R31, R46, R448). -/

namespace Sys2Proof.Machine

open Sys2Proof

/-- No register has been written at reset, so each reads its reset value (R8). -/
theorem rd_reset (a : Nat) : State.reset.rd a = resetWord a := rfl

/-- The pair of either half has not started at reset (R46, R448). -/
theorem trp_reset (h : Half) : State.reset.trp.get h = trpReset := by cases h <;> rfl

theorem pairInv_trpReset : pairInv trpReset := fun hr => absurd hr (by decide)

/-- The Meridian of either half stands at 0 (R31). -/
theorem now_reset (h : Half) : State.reset.now h = 0 := by cases h <;> decide +kernel
theorem tn_reset (h : Half) : State.reset.tn h = 0 := by cases h <;> decide +kernel

/-- Settles O60: every part is read off the reset state, the constants of the register table by its rows. -/
theorem resetState : Obligations.ResetState := by
  refine ⟨rd_reset, rfl, rfl, fun h => ⟨now_reset h, tn_reset h, ?_, ?_⟩, fun h => ?_, fun c => ?_, ?_, rfl⟩
  · rw [trp_reset]; exact pairInv_trpReset
  · rw [trp_reset]; rfl
  · cases h <;> decide +kernel
  · simp only [rd_reset]
    revert c
    decide +kernel
  · decide +kernel

end Sys2Proof.Machine
end

section
/-! PROOFS. A Control Space write by an Observer core: what each register takes of the word (R6, R10, R12, R13, R62). -/

namespace Sys2Proof.Machine

open Sys2Proof

/-! ### A word written by its fields' access types (R6, R9) -/

/-- Bit i of a word lies in a field just when the field's mask has it. -/
theorem fldMask_bit_iff (f : Fld) {i : Nat} (hi : i < 32) : (fldMask f).getLsbD i = true ↔ fldHas f i := by
  rw [testBit_fldMask]; simp [hi, fldHas]

/-- Bit i of a field after a write: inside the field by its access type, outside it 0. -/
theorem getLsbD_fldWrite (opn : Bool) (old v : Word) (f : Fld) {i : Nat} (hi : i < 32) :
    (fldWrite opn old v f).getLsbD i
      = ((fldMask f).getLsbD i && bitTaken opn f.acc (old.getLsbD i) (v.getLsbD i)) := by
  unfold fldWrite bitTaken
  cases f.acc
  case rwl => cases opn <;> simp [Bool.and_comm]
  all_goals simp [hi, Bool.and_comm]

/-- Bit i of a word put together part by part. -/
theorem getLsbD_foldl_or {α : Type} (g : α → Word) (l : List α) (w : Word) (i : Nat) :
    (l.foldl (fun w x => w ||| g x) w).getLsbD i = (w.getLsbD i || l.any fun x => (g x).getLsbD i) := by
  induction l generalizing w with
  | nil => simp
  | cons x r ih => rw [List.foldl_cons, ih, BitVec.getLsbD_or, List.any_cons, Bool.or_assoc]

/-- A bit is set after a write just when a field that holds it takes it so. -/
theorem wordWrite_bit_iff (opn : Bool) (d : RegDesc) (old v : Word) {i : Nat} (hi : i < 32) :
    (wordWrite opn d old v).getLsbD i = true
      ↔ ∃ f ∈ d.flds, fldHas f i ∧ bitTaken opn f.acc (old.getLsbD i) (v.getLsbD i) = true := by
  have zero : (0 : Word).getLsbD i = false := BitVec.getLsbD_zero
  simp only [wordWrite, getLsbD_foldl_or, zero, Bool.false_or, List.any_eq_true, getLsbD_fldWrite _ _ _ _ hi,
    Bool.and_eq_true, fldMask_bit_iff _ hi]

theorem wordWrite_taken (opn : Bool) (d : RegDesc) (old v : Word) : wordTaken opn d old v (wordWrite opn d old v) := by
  intro i hi
  refine ⟨fun f hf hfi only => Bool.eq_iff_iff.mpr ((wordWrite_bit_iff opn d old v hi).trans ⟨?_, ?_⟩), fun none => ?_⟩
  · rintro ⟨g, hg, hgi, hbit⟩
    have : g = f := by_contra fun hne => only g hg hne hgi
    exact this ▸ hbit
  · exact fun hbit => ⟨f, hf, hfi, hbit⟩
  · refine Bool.eq_false_iff.mpr fun hbit => ?_
    obtain ⟨f, hf, hfi, -⟩ := (wordWrite_bit_iff opn d old v hi).mp hbit
    exact none f hf hfi

/-! ### What a write of registers leaves as it was -/

theorem onlyRegs_wr (s : State) (a : Nat) (v : Word) : onlyRegs [a] s (s.wr a v) :=
  ⟨rfl, fun _ hb => rd_wr_ne _ _ (by simpa using hb)⟩

theorem onlyRegs_trans {l l' : List Nat} {s t u : State} (h1 : onlyRegs l s t) (h2 : onlyRegs l' t u) :
    onlyRegs (l ++ l') s u := by
  obtain ⟨e1, r1⟩ := h1
  obtain ⟨e2, r2⟩ := h2
  refine ⟨by rw [e2, e1], fun a ha => ?_⟩
  rw [List.mem_append, not_or] at ha
  exact (r2 a ha.2).trans (r1 a ha.1)

/-! ### The commands that write: each is one Control Space write, or the snapshot behind its gate -/

theorem exec_registerWrite (m : Master) (a : Nat) (v : Word) (s : State) :
    exec (.registerWrite m a v) s = .next (csWrite s m a v) := rfl
theorem exec_highWordWrite (m : Master) (a : Nat) (v : Word) (s : State) :
    exec (.highWordWrite m a v) s = .next (csWrite s m a v) := rfl
theorem exec_snapshotWrite (m : Master) (a : Nat) (v : Word) (s : State) :
    exec (.snapshotWrite m a v) s = .next (csWrite s m a v) := rfl
theorem exec_energySnapshot (m : Master) (c : BitVec 5) (s : State) :
    exec (.energySnapshot m c) s = .next (csGate s m (SHT_ESNAP c.toNat) fun s => energySnap s c.toNat) := rfl

/-! ### The write of a Control Space word by an Observer core (R6, R10, R12, R62) -/

/-- A word's address is its own access address for every master but a host. -/
theorem accessAddr_obs (h : Half) (c : Nat) {a : Nat} (ha : a % 4 = 0) : accessAddr (.obs h c) a = a := by
  simp only [accessAddr]; omega

theorem csWrite_undecoded (s : State) (h : Half) (c : Nat) {a : Nat} (v : Word) (ha : a % 4 = 0)
    (hd : decodeAt (.obs h c) a (copyKey h a) = none) :
    csWrite s (.obs h c) a v = csDecodeError s ((homeOf a).getD h) a := by
  simp only [csWrite, accessAddr_obs h c ha, State.masterHalf, hd, recHalf]

/-- A decoded write that reaches its register: discarded where Kezen alone writes, else the register takes the word. -/
theorem csWrite_reached (s : State) (h : Half) (c : Nat) {a : Nat} (v : Word) {d : RegDesc} (ha : a % 4 = 0)
    (hd : decodeAt (.obs h c) a (copyKey h a) = some d) (hr : reaches s h a = true) :
    csWrite s (.obs h c) a v
      = if liveTable a || pairOnly a then writeDiscarded s ((homeOf a).getD h) a else wordTo s h a d v := by
  have hm : mayAct s (.obs h c) a := ⟨nofun, hr⟩
  simp only [csWrite, accessAddr_obs h c ha, State.masterHalf, hd, csGate_mayAct s _ a _ hm, recHalf]
  simp

theorem csWrite_live (s : State) (h : Half) (c : Nat) {a : Nat} (v : Word) {d : RegDesc} (ha : a % 4 = 0)
    (hd : decodeAt (.obs h c) a (copyKey h a) = some d) (hr : reaches s h a = true) (hl : liveTable a = true) :
    csWrite s (.obs h c) a v = writeDiscarded s ((homeOf a).getD h) a := by
  simp [csWrite_reached s h c v ha hd hr, hl]

theorem csWrite_open (s : State) (h : Half) (c : Nat) {a : Nat} (v : Word) {d : RegDesc} (ha : a % 4 = 0)
    (hd : decodeAt (.obs h c) a (copyKey h a) = some d) (hr : reaches s h a = true) (hl : liveTable a = false)
    (hp : pairOnly a = false) : csWrite s (.obs h c) a v = wordTo s h a d v := by
  simp [csWrite_reached s h c v ha hd hr, hl, hp]

/-! ### Registers that take a write by their access types alone -/

theorem plainWrite_onlyRegs (s : State) (d : RegDesc) (a : Nat) (v : Word) : onlyRegs [a] s (plainWrite s d a v) :=
  onlyRegs_wr _ _ _

theorem plainWrite_taken (s : State) (d : RegDesc) (a : Nat) (v : Word) :
    wordTaken (rwlOpen s a) d (s.rd a) v ((plainWrite s d a v).rd a) := by
  rw [plainWrite, rd_wr_same]; exact wordWrite_taken _ _ _ _

theorem coreWrite_plain (s : State) (h : Half) {a : Nat} (d : RegDesc) (v : Word) (h1 : a ≠ CORE_CTL h) (h2 : a ≠ CORE_POOL h) :
    coreWrite s h a d v = plainWrite s d a v := by simp [coreWrite, h1, h2]

theorem catWrite_plain (s : State) (h : Half) {a : Nat} (d : RegDesc) (v : Word) (h1 : a ≠ CAT_CTL h)
    (h2 : ¬ (CAT_TAINT h 0 ≤ a ∧ a ≤ CAT_TAINT h 15)) : catWrite s h a d v = plainWrite s d a v := by simp [catWrite, h1, h2]

theorem stkWrite_plain (s : State) (h : Half) {a : Nat} (d : RegDesc) (v : Word) (h1 : a ≠ STK_CTL h) :
    stkWrite s h a d v = plainWrite s d a v := by simp [stkWrite, h1]

theorem qosWrite_plain (s : State) (h : Half) {a : Nat} (d : RegDesc) (v : Word)
    (h1 : a % 0x800000 < 0x10 ∨ 0x20 ≤ a % 0x800000) : qosWrite s h a d v = plainWrite s d a v := by
  have : ¬ (QOS_ROT_CFG h ≤ a ∧ a ≤ QOS_ROT_QUOTA1 h) := by
    cases h <;> simp only [QOS_ROT_CFG, QOS_ROT_QUOTA1, Half.idx] <;> omega
  simp [qosWrite, this]

theorem sfBlockWrite_plain (s : State) {a : Nat} (d : RegDesc) (v : Word) (h0 : 0x0A000000 ≤ a)
    (h1 : a % 0x10000 ≠ 0 ∧ a % 0x10000 ≠ 8 ∧ a % 0x10000 ≠ 0x4000) : sfBlockWrite s a d v = plainWrite s d a v := by
  have e : (a - 0x0A000000) % 0x10000 = a % 0x10000 := by omega
  obtain ⟨h1, h2, h3⟩ := h1
  simp [sfBlockWrite, e, h1, h2, h3]

theorem shtBlockWrite_plain (s : State) {a : Nat} (d : RegDesc) (v : Word) (h0 : 0x0C000000 ≤ a) (h1 : 0x28 < a % 0x1000)
    (h2 : a % 0x1000 ≠ 0x80) : shtBlockWrite s a d v = plainWrite s d a v := by
  have e : (a - 0x0C000000) % 0x1000 = a % 0x1000 := by omega
  have h3 : ¬ (a % 0x1000 = 0 ∨ 8 ≤ a % 0x1000 ∧ a % 0x1000 ≤ 0x28) := by omega
  simp [shtBlockWrite, e, h3, h2]

theorem phmWrite_plain (s : State) (h : Half) {a : Nat} (d : RegDesc) (v : Word) (h1 : a ≠ PHM_GRP h) :
    phmWrite s h a d v = plainWrite s d a v := by simp [phmWrite, h1]

/-- The blocks of a plain register, each with what sets it apart from the registers that a rule of the block treats. -/
theorem plainReg_cases {a : Nat} {d : RegDesc} (hp : plainReg a d = true) :
    liveTable a = false ∧ rowStatus ∉ d.flds ∧
      ((0x02000000 ≤ a ∧ a < 0x08000000 ∧ ∀ h, a ≠ CORE_CTL h ∧ a ≠ CORE_POOL h ∧ a ≠ CAT_CTL h ∧ a ≠ STK_CTL h
          ∧ ¬ (CAT_TAINT h 0 ≤ a ∧ a ≤ CAT_TAINT h 15))
        ∨ (0x09000000 ≤ a ∧ a < 0x0A000000 ∧ (a % 0x800000 < 0x10 ∨ 0x20 ≤ a % 0x800000))
        ∨ (0x0A000000 ≤ a ∧ a < 0x0A400000 ∧ a % 0x10000 ≠ 0 ∧ a % 0x10000 ≠ 8 ∧ a % 0x10000 ≠ 0x4000)
        ∨ (0x0C000000 ≤ a ∧ a < 0x0D000000 ∧ 0x28 < a % 0x1000 ∧ a % 0x1000 ≠ 0x80)
        ∨ (0x0D000000 ≤ a ∧ a < 0x0E000000 ∧ ∀ h, a ≠ PHM_GRP h)) := by
  simp only [plainReg, Bool.and_eq_true, Bool.or_eq_true, Bool.not_eq_true', decide_eq_true_eq, List.contains_eq_mem,
    decide_eq_false_iff_not, List.mem_cons, List.not_mem_nil, or_false, not_or, bne_iff_ne, Bool.and_eq_false_iff] at hp
  obtain ⟨⟨hl, hr⟩, hb⟩ := hp
  refine ⟨hl, hr, ?_⟩
  rcases hb with (((⟨⟨⟨⟨h1, h2⟩, hc⟩, hte⟩, htw⟩ | ⟨⟨h1, h2⟩, h3⟩) | ⟨⟨h1, h2⟩, h3⟩) | ⟨⟨⟨h1, h2⟩, h3⟩, h4⟩) | ⟨⟨h1, h2⟩, h3⟩
  · refine .inl ⟨h1, h2, fun h => ?_⟩
    cases h <;> omega
  · exact .inr (.inl ⟨h1, h2, h3⟩)
  · exact .inr (.inr (.inl ⟨h1, h2, h3⟩))
  · exact .inr (.inr (.inr (.inl ⟨h1, h2, h3, h4⟩)))
  · refine .inr (.inr (.inr (.inr ⟨h1, h2, fun h => ?_⟩)))
    cases h
    · exact h3.1
    · exact h3.2

theorem plainReg_live {a : Nat} {d : RegDesc} (hp : plainReg a d = true) : liveTable a = false := (plainReg_cases hp).1

/-- No plain register lies in a Tirop block. -/
theorem plainReg_pairOnly {a : Nat} {d : RegDesc} (hp : plainReg a d = true) : pairOnly a = false := by
  obtain ⟨-, -, hb⟩ := plainReg_cases hp
  have : a < 0x0B000000 ∨ 0x0C000000 ≤ a := by
    rcases hb with ⟨-, h, -⟩ | ⟨-, h, -⟩ | ⟨-, h, -⟩ | ⟨h, -⟩ | ⟨h, -⟩ <;> omega
  simp only [pairOnly, Bool.and_eq_false_iff, decide_eq_false_iff_not]
  omega

/-- A plain register's write goes by its field access types alone, whatever its block. -/
theorem plainReg_blockWrite (s : State) (mh : Half) {a : Nat} {d : RegDesc} (v : Word) (hp : plainReg a d = true) :
    blockWrite s mh a d v = plainWrite s d a v := by
  obtain ⟨-, hr, hb⟩ := plainReg_cases hp
  unfold blockWrite
  simp only [hr, if_false]
  generalize rowHalf a = h
  rcases hb with ⟨h1, h2, h3⟩ | ⟨h1, h2, h3⟩ | ⟨h1, h2, h3⟩ | ⟨h1, h2, h3, h4⟩ | ⟨h1, h2, h3⟩
  · obtain ⟨c1, c2, c3, c4, c5⟩ := h3 h
    rw [if_neg (by omega), if_neg (by omega), if_neg (by omega : ¬ (0x08000000 ≤ a ∧ a < 0x09000000)), if_pos h2,
      coreWrite_plain s h d v c1 c2, catWrite_plain s h d v c3 c5, stkWrite_plain s h d v c4, ite_self, ite_self]
  · repeat rw [if_neg (by omega)]
    rw [if_pos h2, qosWrite_plain s h d v h3]
  · repeat rw [if_neg (by omega)]
    rw [if_pos (by omega), sfBlockWrite_plain s d v h1 h3]
  · repeat rw [if_neg (by omega)]
    rw [if_pos h2, shtBlockWrite_plain s d v h1 h3 h4]
  · repeat rw [if_neg (by omega)]
    rw [if_pos h2, phmWrite_plain s h d v (h3 h)]

/-! ### The two words of a 64-bit register (R12) -/

theorem wordTo_low (s : State) (mh : Half) (a : Nat) {d : RegDesc} (v : Word) (hd : d.lo64 = true) :
    wordTo s mh a d v = holdLow s a v := if_pos hd

theorem wordTo_high (s : State) (mh : Half) (a : Nat) {d dl : RegDesc} (v : Word) (hd : d.lo64 = false)
    (hl : lowOf a = some dl) : wordTo s mh a d v = applyHigh s d dl a v := by
  simp [wordTo, hd, hl]

theorem wordTo_single (s : State) (mh : Half) (a : Nat) {d : RegDesc} (v : Word) (hd : d.lo64 = false)
    (hl : lowOf a = none) : wordTo s mh a d v = blockWrite s mh a d v := by
  simp [wordTo, hd, hl]

theorem applyHigh_alone (s : State) (d dl : RegDesc) (a : Nat) (v : Word) (hl : mfind s.heldLow (a - 4) = none) :
    applyHigh s d dl a v = plainWrite s d a v := by
  simp [applyHigh, hl]

theorem applyHigh_held (s : State) (d dl : RegDesc) (a : Nat) (v lo : Word) (hl : mfind s.heldLow (a - 4) = some lo) :
    applyHigh s d dl a v = plainWrite { plainWrite s dl (a - 4) lo with heldLow := merase s.heldLow (a - 4) } d a v := by
  simp [applyHigh, hl]

/-- A held low word and its high word are taken together: the two registers and the hold are all that changes. -/
theorem applyHigh_held_onlyRegs (s : State) (d dl : RegDesc) (a : Nat) (v lo : Word)
    (hl : mfind s.heldLow (a - 4) = some lo) :
    onlyRegs [a - 4, a] { s with heldLow := merase s.heldLow (a - 4) } (applyHigh s d dl a v) := by
  rw [applyHigh_held s d dl a v lo hl]
  exact onlyRegs_trans (l := [a - 4]) (l' := [a])
    (plainWrite_onlyRegs { s with heldLow := merase s.heldLow (a - 4) } dl (a - 4) lo) (plainWrite_onlyRegs _ d a v)

theorem applyHigh_held_low (s : State) (d dl : RegDesc) {a : Nat} (v lo : Word) (h4 : 4 ≤ a)
    (hl : mfind s.heldLow (a - 4) = some lo) :
    (applyHigh s d dl a v).rd (a - 4) = (plainWrite s dl (a - 4) lo).rd (a - 4) := by
  rw [applyHigh_held s d dl a v lo hl]
  exact (plainWrite_onlyRegs _ d a v).2 (a - 4) (by simp; omega)

/-- The high word is taken in the state that the low word has left. -/
theorem applyHigh_held_high (s : State) (d dl : RegDesc) {a : Nat} (v lo : Word) (h4 : 4 ≤ a)
    (hl : mfind s.heldLow (a - 4) = some lo) :
    wordTaken (rwlOpen (plainWrite s dl (a - 4) lo) a) d (s.rd a) v ((applyHigh s d dl a v).rd a) := by
  have hlow : (plainWrite s dl (a - 4) lo).rd a = s.rd a := (plainWrite_onlyRegs s dl (a - 4) lo).2 a (by simp; omega)
  rw [applyHigh_held s d dl a v lo hl, ← hlow]
  exact plainWrite_taken { plainWrite s dl (a - 4) lo with heldLow := merase s.heldLow (a - 4) } d a v

/-! ### A snapshot of a channel's accumulators (R13, R403) -/

theorem rd_wrWords_lt (ws : List Word) : ∀ (s : State) {a b : Nat}, b < a → (s.wrWords a ws).rd b = s.rd b := by
  induction ws with
  | nil => exact fun _ _ _ _ => rfl
  | cons w r ih => exact fun s a b h => (ih _ (by omega)).trans (rd_wr_ne _ _ (by omega))

/-- Word i of a run of words reads as written. -/
theorem rd_wrWords (ws : List Word) : ∀ (s : State) (a : Nat) {i : Nat}, i < ws.length →
    (s.wrWords a ws).rd (a + 4 * i) = ws.getD i 0 := by
  induction ws with
  | nil => exact fun _ _ _ h => absurd h (by simp)
  | cons w r ih =>
    intro s a i hi
    cases i with
    | zero => exact (rd_wrWords_lt r _ (by omega)).trans (rd_wr_same _ _ _)
    | succ i =>
      have e : a + 4 * (i + 1) = a + 4 + 4 * i := by omega
      rw [e, List.getD_cons_succ]
      exact ih _ _ (by simpa using hi)

/-- A run of n words changes those n registers and nothing else. -/
theorem onlyRegs_wrWords (ws : List Word) : ∀ (s : State) (a : Nat),
    onlyRegs ((List.range ws.length).map fun i => a + 4 * i) s (s.wrWords a ws) := by
  induction ws with
  | nil => exact fun _ _ => ⟨rfl, fun _ _ => rfl⟩
  | cons w r ih =>
    intro s a
    obtain ⟨e, hr⟩ := onlyRegs_trans (onlyRegs_wr s a w) (ih (s.wr a w) (a + 4))
    refine ⟨e, fun b hb => hr b ?_⟩
    simp only [List.mem_append, List.mem_map, List.mem_range, List.mem_singleton, not_or, not_exists, not_and,
      List.length_cons] at hb ⊢
    exact ⟨fun h => hb 0 (by omega) (by omega), fun i hi h => hb (i + 1) (by omega) (by omega)⟩

/-- What a snapshot leaves (R13): the two accumulators of channel c, four words each, in SHT_E. -/
theorem energySnap_reads (s : State) (c : Nat) {i : Nat} (hi : i < 4) :
    (energySnap s c).rd (SHT_E c i) = (words128 (s.chan c).accMB).getD i 0
      ∧ (energySnap s c).rd (SHT_E c (i + 4)) = (words128 (s.chan c).accXB).getD i 0 := by
  have word {k : Nat} (hk : k < 8) : (energySnap s c).rd (SHT_E c k)
      = (words128 (s.chan c).accMB ++ words128 (s.chan c).accXB).getD k 0 :=
    rd_wrWords _ s (SHT_E c 0) (by simpa [words128] using hk)
  rw [word (by omega), word (by omega)]
  constructor
  · exact List.getD_append _ _ _ _ (by simpa [words128] using hi)
  · rw [List.getD_append_right _ _ _ _ (by simp [words128])]
    simp [words128]

theorem energySnap_onlyRegs (s : State) (c : Nat) : onlyRegs ((List.range 8).map (SHT_E c)) s (energySnap s c) :=
  onlyRegs_wrWords (words128 (s.chan c).accMB ++ words128 (s.chan c).accXB) s (SHT_E c 0)

/-- The snapshot register of a channel as the map has it: one word that only a write of 1 uses. -/
theorem esnap_decodeAt (h : Half) (core : Nat) (c : BitVec 5) :
    decodeAt (.obs h core) (SHT_ESNAP c.toNat) (copyKey h (SHT_ESNAP c.toNat))
      = some ⟨0xc000080, [(0x1000, 32)], 0, [SHT_ESNAP_SNAP], false⟩ := by
  show decodeAt (.obs h 0) _ _ = _
  cases h <;> revert c <;> decide +kernel

theorem esnap_lowOf (c : BitVec 5) : lowOf (SHT_ESNAP c.toNat) = none := by revert c; decide +kernel

theorem esnap_open (c : BitVec 5) :
    SHT_ESNAP c.toNat % 4 = 0 ∧ liveTable (SHT_ESNAP c.toNat) = false ∧ pairOnly (SHT_ESNAP c.toNat) = false := by
  revert c; decide +kernel

/-- A write of 1 to SNAP is a snapshot of its channel (R13). -/
theorem snapshot_blockWrite (s : State) (mh : Half) (c : BitVec 5) {d : RegDesc} {v : Word} (hd : rowStatus ∉ d.flds)
    (hv : v.getLsbD 0 = true) : blockWrite s mh (SHT_ESNAP c.toNat) d v = energySnap s c.toNat := by
  have hc : c.toNat < 32 := c.isLt
  have e1 : (SHT_ESNAP c.toNat - 0x0C000000) / 0x1000 = c.toNat := by simp only [SHT_ESNAP]; omega
  have e2 : (SHT_ESNAP c.toNat - 0x0C000000) % 0x1000 = 0x80 := by simp only [SHT_ESNAP]; omega
  have e3 : 0x0C000000 ≤ SHT_ESNAP c.toNat ∧ SHT_ESNAP c.toNat < 0x0D000000 := by simp only [SHT_ESNAP]; omega
  have e4 : bitB v.toNat 0 = true := hv
  unfold blockWrite
  simp only [hd, if_false]
  repeat rw [if_neg (by omega)]
  rw [if_pos e3.2]
  simp [shtBlockWrite, e1, e2, e4]

theorem csWrite_snapshot (s : State) (h : Half) (core : Nat) (c : BitVec 5) {v : Word}
    (hr : reaches s h (SHT_ESNAP c.toNat) = true) (hv : v.getLsbD 0 = true) :
    csWrite s (.obs h core) (SHT_ESNAP c.toNat) v = energySnap s c.toNat := by
  obtain ⟨h4, hl, hp⟩ := esnap_open c
  rw [csWrite_open s h core v h4 (esnap_decodeAt h core c) hr hl hp, wordTo_single _ _ _ _ rfl (esnap_lowOf c),
    snapshot_blockWrite s h c (by decide) hv]

/-- ENERGY_SNAPSHOT by a master that reaches the channel's die. -/
theorem energySnapshot_reached (s : State) (h : Half) (core : Nat) (c : BitVec 5)
    (hr : reaches s h (SHT_ESNAP c.toNat) = true) :
    exec (.energySnapshot (.obs h core) c) s = .next (energySnap s c.toNat) := by
  have hm : mayAct s (.obs h core) (SHT_ESNAP c.toNat) := ⟨nofun, hr⟩
  rw [exec_energySnapshot, csGate_mayAct s _ _ _ hm]

/-- Settles O15, clause by clause: an undecoded address, a live table, a plain register, a low word that
waits, the high word with and without one, and the two ways to take a snapshot. -/
theorem writesFollowAccessTypes : Obligations.WritesFollowAccessTypes := by
  intro s h c a d dl v lo ch m hits opn ha _
  refine ⟨fun hd => ?_, fun ⟨hd, hr⟩ hl => ?_, fun ⟨hd, hr⟩ hp h64 hlow => ?_, fun ⟨hd, hr⟩ hl hpo h64 => ?_,
    fun ⟨hd, hr⟩ hl hpo h64 hlow h4 hheld => ?_, fun ⟨hd, hr⟩ hl hpo h64 hlow hheld => ?_, fun hr hv => ?_, fun hr => ?_⟩
  · rw [exec_registerWrite, csWrite_undecoded s h c v ha hd]
    exact ⟨rfl, csDecodeError_refOnly _ _ _⟩
  · rw [exec_registerWrite, csWrite_live s h c v ha hd hr hl]
    exact ⟨rfl, writeDiscarded_refOnly _ _ _⟩
  · rw [exec_registerWrite, csWrite_open s h c v ha hd hr (plainReg_live hp) (plainReg_pairOnly hp),
      wordTo_single _ _ _ _ h64 hlow, plainReg_blockWrite _ _ _ hp]
    exact ⟨_, rfl, plainWrite_onlyRegs _ _ _ _, plainWrite_taken _ _ _ _⟩
  · rw [exec_registerWrite, csWrite_open s h c v ha hd hr hl hpo, wordTo_low _ _ _ _ h64, holdLow]
  · rw [exec_highWordWrite, csWrite_open s h c v ha hd hr hl hpo, wordTo_high _ _ _ _ h64 hlow]
    refine ⟨_, rfl, applyHigh_held_onlyRegs s d dl a v lo hheld, ?_, ?_⟩ <;> rw [applyHigh_held_low s d dl v lo h4 hheld]
    · exact plainWrite_taken _ _ _ _
    · have e : s.wr (a - 4) ((plainWrite s dl (a - 4) lo).rd (a - 4)) = plainWrite s dl (a - 4) lo := by
        rw [plainWrite, rd_wr_same]
      rw [e]
      exact applyHigh_held_high s d dl v lo h4 hheld
  · rw [exec_highWordWrite, csWrite_open s h c v ha hd hr hl hpo, wordTo_high _ _ _ _ h64 hlow,
      applyHigh_alone _ _ _ _ _ hheld]
    exact ⟨_, rfl, plainWrite_onlyRegs _ _ _ _, plainWrite_taken _ _ _ _⟩
  · rw [exec_snapshotWrite, csWrite_snapshot s h c ch hr hv]
    exact ⟨_, rfl, fun _ hi => energySnap_reads _ _ hi, energySnap_onlyRegs _ _⟩
  · exact ⟨_, energySnapshot_reached s h c ch hr, fun _ hi => energySnap_reads _ _ hi, energySnap_onlyRegs _ _⟩

end Sys2Proof.Machine
end

section
/-! PROOFS. A clearing read of CORE_DF_PEAK (R7, R165). -/

namespace Sys2Proof.Machine

open Sys2Proof

/-- The Deep Field with 7 pages at the peak and 5 in use now. -/
def peakAboveUse : State :=
  (State.reset.fset (CORE_DF_PEAK .east) CORE_DF_PEAK_PEAK 7).fset (CORE_DF_STAT .east) CORE_DF_STAT_USED 5

/-- The row of CORE_DF_PEAK in the register table. -/
def dfPeakDesc : RegDesc := ⟨0x2000028, [(0x1000000, 2)], 0, [CORE_DF_PEAK_PEAK], false⟩

/-- RC_COUNTER_READ of a register that the address decodes to (R7): the read, then the additions of its own clock. -/
theorem exec_rcCounterRead (m : Master) (a : Nat) (coinc : Word) (s : State) {d : RegDesc}
    (hd : decodeAt m (accessAddr m a) (copyKey (s.masterHalf m) (accessAddr m a)) = some d) :
    exec (.rcCounterRead m a coinc) s
      = .next (rcAdd (readAnswer s m a) (copyKey (s.masterHalf m) (accessAddr m a)) coinc d.flds) := by
  simp only [exec, execRcCounterRead, hd]

theorem dfPeak_decodeAt : decodeAt (.obs .east 0) (CORE_DF_PEAK .east) (CORE_DF_PEAK .east) = some dfPeakDesc := by
  decide +kernel

/-- A read of CORE_DF_PEAK with no additions in its clock leaves the pages in use now (rcLeft), not 0. -/
theorem dfPeakRead_leaves_use {t : State}
    (ht : exec (.rcCounterRead (.obs .east 0) (CORE_DF_PEAK .east) 0) peakAboveUse = .next t) :
    t.fget (CORE_DF_PEAK .east) CORE_DF_PEAK_PEAK = 5 := by
  rw [exec_rcCounterRead _ _ _ _ dfPeak_decodeAt] at ht
  rw [← Host.Outcome.next.inj ht]
  decide +kernel

/-- Refutes O14: its clause on clearing reads takes every register whose one field is RC for a counter. CORE_DF_PEAK is one, and a
read of it starts it again from the pages in use now (its row in the spec's chapter 05), so with 5 pages in use and no addition in
the clock of the read it is left with 5, not 0. -/
theorem not_readsLatchClearAndTimeOut : ¬ Obligations.ReadsLatchClearAndTimeOut := by
  intro H
  obtain ⟨-, -, -, hclear, -⟩ := H peakAboveUse (.obs .east 0) (CORE_DF_PEAK .east) dfPeakDesc CORE_DF_PEAK_PEAK 0 0
  obtain ⟨t, ht, -, ⟨hfield, -⟩, -⟩ := hclear ⟨nofun, dfPeak_decodeAt, by decide +kernel⟩ (by decide +kernel)
    (by decide +kernel) rfl rfl rfl (by decide)
  have h5 : fldGet (t.rd (CORE_DF_PEAK .east)) CORE_DF_PEAK_PEAK = 5 := dfPeakRead_leaves_use ht
  exact absurd (h5.symm.trans hfield) (by decide)

end Sys2Proof.Machine
end

section
/-! PROOFS. A denied request of a tenant beyond T63 (R218, R315). -/

namespace Sys2Proof.Machine

open Sys2Proof

/-- A tenant beyond T63, which a binding table of the model may name all the same: its SF_TEN_STAT would stand where the Referee of
East keeps REF_STAT, with RST at the place of EVQ_HI. -/
def strayTenant : Nat := 0x400

/-- Sub-port P0.0 is in L0 and bound to the stray tenant, with a device at P1.0; East's event queue is one record below HIGH. -/
def strayBound : State :=
  let s := State.reset.fset (PRT_LNK_STAT 0 0) PRT_LNK_STAT_PM pmL0
  let s := s.fset (REF_EVQ_WM .east) REF_EVQ_WM_HIGH 1024
  let s := s.fset (REF_EVQ_PTR .east) REF_EVQ_PTR_TAIL 1023
  let s := s.fset (REF_CLS .east 13) REF_CLS_SB 0
  { s with
    dome := { s.dome with released := true }
    binds := s.binds.set .east ⟨[(strayTenant, 0)], [(strayTenant * 32 + 1, ⟨none, 4, false⟩)], []⟩ }

/-- A line of the device's memory, and a read of it that no rule allows. -/
def strayPiece : Piece := ⟨0, 128, 0⟩
def strayRead : ReqIn :=
  ⟨.memRd, 7, 0, .pieces [strayPiece], 64, 0, false, .noop, .none, 0, 0, false, false, false, 0⟩

/-- What the package has sent once a command has answered a next state. -/
def sentAfter : Host.Outcome State Fault Refusal → List Sent
  | .next t => t.sent
  | _ => []

/-- The fault's own event raises EVQ_HI, so the stray tenant counts as in reset: the denied read is logged and gets no response. -/
theorem strayRead_sent :
    sentAfter (exec (.requestIngress 0 0 strayRead) strayBound) = [.aer strayTenant 32 aerACS (hdrOf .memRd 7 0 64)] := by
  decide +kernel

/-- Refutes O25: its last clause, on a denied read, does not say that the tenant is one of T00 to T63. Of a tenant 0x400 the Umpire's
fault event itself sets what stands at the place of RST, so the read is logged but not answered with poisoned data (R218). -/
theorem not_requestsAreAnsweredOrForwarded : ¬ Obligations.RequestsAreAnsweredOrForwarded := by
  intro H
  obtain ⟨-, -, -, -, hdenied⟩ := H strayBound 0 0 strayRead strayTenant 0 0 0 0 false strayPiece (by decide +kernel) rfl
  obtain ⟨t, ht, -, -, -, -, hrsp⟩ := hdenied ⟨rfl, by decide +kernel, by decide +kernel, by decide +kernel, by decide +kernel⟩
    ⟨rfl, rfl, by decide +kernel, by decide +kernel, by decide +kernel⟩ rfl rfl (by decide +kernel) (by decide +kernel)
  have hsent : t.sent = [.aer strayTenant 32 aerACS (hdrOf .memRd 7 0 64)] := by rw [← strayRead_sent, ht, sentAfter]
  rw [hsent] at hrsp
  exact Sent.noConfusion (List.mem_singleton.mp hrsp)

end Sys2Proof.Machine
end

section
/-! PROOFS. MSYNC frames (R38-R41), alarms (R514) and the outbox (R513). -/

namespace Sys2Proof.Machine

open Sys2Proof

/-! ### One field of a register is set -/

/-- Setting a field of a register changes that field and nothing else in the machine. -/
theorem onlyField_fset (s : State) (a : Nat) (f : Fld) (n : Nat) (hf : f.lo + f.width ≤ 32) :
    onlyField s (s.fset a f n) a f n := by
  refine ⟨⟨rfl, fun b hb => rd_fset_ne s f n (by simpa using hb)⟩, ?_, fun i hi hout => ?_⟩
  · exact fget_fset_same s a f n hf
  · have hb : ¬ (f.lo ≤ i ∧ i < f.lo + f.width) := by omega
    simp only [State.fset, rd_wr_same, getLsbD_fldPut, hi, hb, decide_true, Bool.true_and, if_false]

theorem flag_fset_ne (s : State) (a : Nat) (f g : Fld) (n : Nat) (h : g.lo + g.width ≤ f.lo ∨ f.lo + f.width ≤ g.lo)
    (hg : g.lo + g.width ≤ 32) : (s.fset a f n).flag a g = s.flag a g := by
  simp only [State.flag, fget_fset_ne s a f g n h hg]

theorem flag_fset_at_ne (s : State) {a b : Nat} (f g : Fld) (n : Nat) (h : b ≠ a) : (s.fset a f n).flag b g = s.flag b g := by
  simp only [State.flag, fget_fset_at_ne s f g n h]

/-! ### MSYNC frames that are sent (R38, R41) -/

theorem msyncFrameSend_sends (s : State) (h : Half) (htn : s.tn h % 1000 = 0) (hout : outEn (s.mrd.get h) = true)
    (hauth : s.auth h = h)
    (hsend : roleOf (s.mrd.get h) = 1 ∨ (roleOf (s.mrd.get h) = 2 ∧ s.flag (MRD_SYNC_STAT h) MRD_SYNC_STAT_LOCKED = true)) :
    exec (.msyncFrameSend h) s = .next { s with sent := .msync (manchester (frameBits (s.tn h))) :: s.sent } :=
  if_pos ⟨htn, hout, hauth, hsend⟩

theorem msyncFrameSend_silent (s : State) (h : Half)
    (hno : s.tn h % 1000 ≠ 0 ∨ outEn (s.mrd.get h) = false ∨ s.auth h ≠ h
      ∨ ¬ (roleOf (s.mrd.get h) = 1 ∨ (roleOf (s.mrd.get h) = 2 ∧ s.flag (MRD_SYNC_STAT h) MRD_SYNC_STAT_LOCKED = true))) :
    exec (.msyncFrameSend h) s = .next s := by
  refine if_neg ?_
  rintro ⟨htn, hout, hauth, hsend⟩
  obtain h1 | h1 | h1 | h1 := hno
  · exact h1 htn
  · exact absurd (h1.symm.trans hout) (by decide)
  · exact h1 hauth
  · exact h1 hsend

/-! ### MSYNC frames that are received (R39, R40) -/

/-- The Meridian engine of half h after a good frame of phase error e, the run of good frames being `good` then (R39). -/
def frameMrd (s : State) (h : Half) (e : Int) (good : Nat) : Mrd :=
  let r := s.mrd.get h
  let lock := s.phase h = phLOCK
  let own := lock ∧ s.flag (CDB_STAT h) CDB_STAT_ISLANDED = true
  let steps := maySteps s r e = true ∧ ¬ lock
  { r with
    good := good, seen := true, adj := if own then r.adj else adjStep r.adj (rateSeen r e),
    step := if steps then -e else r.step, phaseErr := if own then r.phaseErr else if steps then 0 else e }

/-- The machine that has taken a good frame, before the frame's effect on the lock (R39). -/
def frameTook (s : State) (h : Half) (e : Int) (good : Nat) : State :=
  ({ s with mrd := s.mrd.set h (frameMrd s h e good) } : State).fset (MRD_SYNC_STAT h) MRD_SYNC_STAT_ERR (errField e)

/-- The same as the command builds it: the phase error first, and the Meridian engine from the state that shows it. No register
that the engine's change depends on is MRD_SYNC_STAT. -/
theorem frameTook_eq (s : State) (h : Half) (e : Int) (good : Nat) :
    let s' := s.fset (MRD_SYNC_STAT h) MRD_SYNC_STAT_ERR (errField e)
    let lock := s'.phase h == phLOCK
    let own := lock && s'.flag (CDB_STAT h) CDB_STAT_ISLANDED
    let steps := maySteps s' (s.mrd.get h) e && !lock
    s'.modMrd h (fun r =>
      { r with good := good, adj := if own then r.adj else adjStep r.adj (rateSeen r e), seen := true,
               step := if steps then -e else r.step,
               phaseErr := if own then r.phaseErr else if steps then 0 else e })
      = frameTook s h e good := by
  intro s' lock own steps
  have h1 : CDB_STAT h ≠ MRD_SYNC_STAT h := by cases h <;> decide
  have h2 : MRD_SVC_STAT ≠ MRD_SYNC_STAT h := by cases h <;> decide
  have hlock : (lock = true) = (s.phase h = phLOCK) := by
    simp only [lock, s', State.phase, fget_fset_at_ne s _ _ _ h1, beq_iff_eq]
  have hown : (own = true) = (s.phase h = phLOCK ∧ s.flag (CDB_STAT h) CDB_STAT_ISLANDED = true) := by
    simp only [own, Bool.and_eq_true, hlock, s', flag_fset_at_ne s _ _ _ h1]
  have hsteps : (steps = true) = (maySteps s (s.mrd.get h) e = true ∧ ¬ s.phase h = phLOCK) := by
    simp only [steps, Bool.and_eq_true, Bool.not_eq_true', ← Bool.not_eq_true, hlock, maySteps, s', fget_fset_at_ne s _ _ _ h2]
  simp only [hown, hsteps]
  rfl

/-- A follower's good frame is taken; then the lock is lost, set, or left as it is (R39, R40). -/
theorem msyncFrameReceived_good (s : State) (h : Half) (tn arr : Nat) (crc : BitVec 8) {e : Int} {good : Nat}
    (hr : roleOf (s.mrd.get h) = 2) (hc : crc = crc8 tn) (he : e = phaseErrOf (s.mrd.get h) arr tn)
    (hg : good = if e.natAbs ≤ 4 * nsU then (s.mrd.get h).good + 1 else 0) :
    exec (.msyncFrameReceived h tn crc arr) s =
      if 16 * nsU < e.natAbs then .next (loseLock (frameTook s h e good) h)
      else if 8 ≤ good then .next ((frameTook s h e good).fset (MRD_SYNC_STAT h) MRD_SYNC_STAT_LOCKED 1)
      else .next (frameTook s h e good) := by
  rw [← frameTook_eq]
  subst he hg
  exact (if_neg (not_not.mpr hr)).trans (if_neg (not_not.mpr hc))

/-- Whether half h was locked does not depend on the frame's phase error. -/
theorem frameTook_locked (s : State) (h : Half) (e : Int) (good : Nat) :
    (frameTook s h e good).flag (MRD_SYNC_STAT h) MRD_SYNC_STAT_LOCKED = s.flag (MRD_SYNC_STAT h) MRD_SYNC_STAT_LOCKED :=
  flag_fset_ne _ _ _ _ _ (by decide) (by decide)

theorem loseLock_unlocked (s : State) (h : Half) (hl : ¬ s.flag (MRD_SYNC_STAT h) MRD_SYNC_STAT_LOCKED = true) :
    loseLock s h = s := if_neg hl

theorem loseLock_locked (s : State) (h : Half) (hl : s.flag (MRD_SYNC_STAT h) MRD_SYNC_STAT_LOCKED = true) :
    loseLock s h = raise (s.fset (MRD_SYNC_STAT h) MRD_SYNC_STAT_LOCKED 0) h (evt 1 1 0 0) := if_pos hl

theorem msyncFrameReceived_ignored (s : State) (h : Half) (tn arr : Nat) (crc : BitVec 8) (hr : roleOf (s.mrd.get h) ≠ 2) :
    exec (.msyncFrameReceived h tn crc arr) s = .next s := if_pos hr

theorem msyncFrameReceived_badCrc (s : State) (h : Half) (tn arr : Nat) (crc : BitVec 8) (hr : roleOf (s.mrd.get h) = 2)
    (hc : crc ≠ crc8 tn) :
    exec (.msyncFrameReceived h tn crc arr) s
      = .next (raise (s.fset (MRD_SYNC_STAT h) MRD_SYNC_STAT_CRC_ERR 1) h (evt 1 2 0 0)) :=
  (if_neg (not_not.mpr hr)).trans (if_pos hc)

/-! ### Frames that are missing (R40) -/

theorem msyncLoss_ignored (s : State) (h : Half) (hr : roleOf (s.mrd.get h) ≠ 2) : exec (.msyncLoss h) s = .next s := if_pos hr

theorem msyncLoss_follower (s : State) (h : Half) (hr : roleOf (s.mrd.get h) = 2) :
    exec (.msyncLoss h) s
      = .next ((loseLock { s with mrd := s.mrd.set h { s.mrd.get h with good := 0 } } h).fset
          (MRD_SYNC_STAT h) MRD_SYNC_STAT_LOSS 1) := if_neg (not_not.mpr hr)

/-! ### Alarms (R514) -/

/-- Bit i of the word with bit a alone. -/
theorem getLsbD_twoPow (a : Nat) {i : Nat} (hi : i < 32) : (BitVec.ofNat 32 (2 ^ a)).getLsbD i = decide (i = a) := by
  rw [BitVec.getLsbD_ofNat, Nat.testBit_two_pow]
  simp only [hi, decide_true, Bool.true_and, eq_comm]

theorem alarm_ne_arm (h : Half) : TRP_ALARM_ARM h ≠ TRP_ALARM h := by cases h <;> decide

theorem fireAlarm_alarmWord (s : State) (h : Half) (a : Nat) {i : Nat} (hi : i < 32) :
    ((fireAlarm s h a).rd (TRP_ALARM h)).getLsbD i = ((s.rd (TRP_ALARM h)).getLsbD i || decide (i = a)) := by
  simp only [fireAlarm, rd_wr_same, rd_wr_ne _ _ (alarm_ne_arm h).symm, State.modTrp_rd, BitVec.getLsbD_or,
    getLsbD_twoPow a hi]

theorem fireAlarm_armWord (s : State) (h : Half) (a : Nat) {i : Nat} (hi : i < 32) :
    ((fireAlarm s h a).rd (TRP_ALARM_ARM h)).getLsbD i = ((s.rd (TRP_ALARM_ARM h)).getLsbD i && decide (i ≠ a)) := by
  simp only [fireAlarm, rd_wr_same, rd_wr_ne _ _ (alarm_ne_arm h), State.modTrp_rd, BitVec.getLsbD_and, BitVec.getLsbD_not,
    getLsbD_twoPow a hi, hi, decide_true, Bool.true_and, ne_eq, decide_not]

/-- Beside the two alarm registers, an alarm that fires changes only the pair's list of alarms. -/
theorem fireAlarm_onlyRegs (s : State) (h : Half) (a : Nat) :
    onlyRegs [TRP_ALARM h, TRP_ALARM_ARM h] { s with trp := (fireAlarm s h a).trp } (fireAlarm s h a) := by
  refine ⟨rfl, fun b hb => ?_⟩
  simp only [List.mem_cons, List.not_mem_nil, or_false, not_or] at hb
  simp only [fireAlarm, rd_wr_ne _ _ hb.1, rd_wr_ne _ _ hb.2]
  rfl

theorem exec_alarmFire_armed (s : State) (h : Half) (a : BitVec 5) {k : Nat} (hk : mfind (s.trp.get h).alarms a.toNat = some k) :
    exec (.alarmFire h a) s
      = .next (if k ≤ s.tn h ∨ (k = s.tn h + 1 ∧ (s.trp.get h).sealed = true) then fireAlarm s h a.toNat else s) := by
  show execAlarmFire h a s = _
  simp only [execAlarmFire, hk]

theorem exec_alarmFire_unarmed (s : State) (h : Half) (a : BitVec 5) (hk : mfind (s.trp.get h).alarms a.toNat = none) :
    exec (.alarmFire h a) s = .next s := by
  show execAlarmFire h a s = _
  simp only [execAlarmFire, hk]

/-! ### The outbox (R513) -/

theorem exec_oboxHeadWrite (s : State) (m : Master) (h : Half) (v : Word) (hm : mayAct s m (TRP_OBOX_PTR h)) :
    exec (.oboxHeadWrite m h v) s = .next (oboxHeadWrite s h v) :=
  congrArg Host.Outcome.next (csGate_mayAct s m _ _ hm)

section

variable (s : State) (h : Half) (tn arr : Nat) (crc : BitVec 8) {e : Int} (hr : roleOf (s.mrd.get h) = 2) (hc : crc = crc8 tn)
  (he : e = phaseErrOf (s.mrd.get h) arr tn)

include hr hc he

theorem msyncFrameReceived_counts (h4 : e.natAbs ≤ 4 * 65536) (h7 : (s.mrd.get h).good < 7) :
    exec (.msyncFrameReceived h tn crc arr) s = .next (frameTook s h e ((s.mrd.get h).good + 1)) := by
  rw [msyncFrameReceived_good s h tn arr crc hr hc he (if_pos h4).symm, if_neg (by simp only [nsU]; omega), if_neg (by omega)]

theorem msyncFrameReceived_locks (h4 : e.natAbs ≤ 4 * 65536) (h7 : 7 ≤ (s.mrd.get h).good) :
    exec (.msyncFrameReceived h tn crc arr) s
      = .next ((frameTook s h e ((s.mrd.get h).good + 1)).fset (MRD_SYNC_STAT h) MRD_SYNC_STAT_LOCKED 1) := by
  rw [msyncFrameReceived_good s h tn arr crc hr hc he (if_pos h4).symm, if_neg (by simp only [nsU]; omega), if_pos (by omega)]

theorem msyncFrameReceived_endsRun (h4 : 4 * 65536 < e.natAbs)
    (hl : e.natAbs ≤ 16 * 65536 ∨ ¬ s.flag (MRD_SYNC_STAT h) MRD_SYNC_STAT_LOCKED = true) :
    exec (.msyncFrameReceived h tn crc arr) s = .next (frameTook s h e 0) := by
  rw [msyncFrameReceived_good s h tn arr crc hr hc he (if_neg (Nat.not_le.mpr h4)).symm, if_neg (show ¬ 8 ≤ 0 by decide)]
  split
  · next h16 =>
    have hul := hl.resolve_left (Nat.not_le.mpr h16)
    rw [loseLock_unlocked _ _ (by rw [frameTook_locked]; exact hul)]
  · rfl

theorem msyncFrameReceived_losesLock (h16 : 16 * 65536 < e.natAbs) (hl : s.flag (MRD_SYNC_STAT h) MRD_SYNC_STAT_LOCKED = true) :
    exec (.msyncFrameReceived h tn crc arr) s
      = .next (raise ((frameTook s h e 0).fset (MRD_SYNC_STAT h) MRD_SYNC_STAT_LOCKED 0) h (evt 1 1 0 0)) := by
  have h4 : ¬ e.natAbs ≤ 4 * nsU := by simp only [nsU]; omega
  have h16' : 16 * nsU < e.natAbs := h16
  rw [msyncFrameReceived_good s h tn arr crc hr hc he (if_neg h4).symm, if_pos h16',
    loseLock_locked _ _ (by rw [frameTook_locked]; exact hl)]

end

/-- Settles O20, clause by clause: frames sent, received and missing, then alarms and the outbox. -/
theorem msyncFramesAlarmsAndOutbox : Obligations.MsyncFramesAlarmsAndOutbox := by
  refine ⟨fun s h tn arr crc => ?_, fun s m h a k v => ?_⟩
  · intro r q e locked sends lock own steps mer took ended
    have hended : ended.flag q MRD_SYNC_STAT_LOCKED = s.flag q MRD_SYNC_STAT_LOCKED := rfl
    refine ⟨msyncFrameSend_sends s h, msyncFrameSend_silent s h, msyncFrameReceived_ignored s h tn arr crc,
      msyncLoss_ignored s h, msyncFrameReceived_badCrc s h tn arr crc,
      fun hr hc => msyncFrameReceived_counts s h tn arr crc hr hc rfl,
      fun hr hc => msyncFrameReceived_locks s h tn arr crc hr hc rfl,
      fun hr hc => msyncFrameReceived_endsRun s h tn arr crc hr hc rfl,
      fun hr hc => msyncFrameReceived_losesLock s h tn arr crc hr hc rfl, fun hr hl => ?_, fun hr hl => ?_⟩
    · exact (msyncLoss_follower s h hr).trans (by rw [loseLock_unlocked ended h hl])
    · exact (msyncLoss_follower s h hr).trans (by rw [loseLock_locked ended h hl])
  · intro p hd ahead room t due
    refine ⟨fun hk hdue => ?_, fun hk hdue => ?_, exec_alarmFire_unarmed s h a, fun hm hle => ?_, fun hm hlt => ?_⟩
    · rw [exec_alarmFire_armed s h a hk, if_pos hdue]
      exact ⟨_, rfl, rfl, fun _ hi => fireAlarm_alarmWord s h _ hi, fun _ hi => fireAlarm_armWord s h _ hi,
        fireAlarm_onlyRegs s h _⟩
    · rw [exec_alarmFire_armed s h a hk, if_neg hdue]
    · exact ⟨_, (exec_oboxHeadWrite s m h v hm).trans (congrArg _ (if_pos hle)), onlyField_fset s _ _ _ (by decide)⟩
    · exact ⟨(exec_oboxHeadWrite s m h v hm).trans (congrArg _ (if_neg (Nat.not_le.mpr hlt))), writeDiscarded_refOnly s h _⟩

end Sys2Proof.Machine
end

section
/-! PROOFS. What recording an event leaves as it was, beyond what `refOnly` says (R409-R419): nothing is sent, no tenant becomes
Viral, and of a pair only the events that await the next handler list change. -/

namespace Sys2Proof.Machine

open Sys2Proof

/-- Of the pairs, only the events that await the next handler list differ. -/
def arrivalsOnly (s t : State) : Prop := ∀ g, t.trp.get g = { s.trp.get g with arrivals := (t.trp.get g).arrivals }

/-- Only registers, ALERT_L, the Referees and the pairs' arrivals differ. -/
def recordOnly (s t : State) : Prop :=
  t = { s with regs := t.regs, alert := t.alert, ref := t.ref, trp := t.trp } ∧ arrivalsOnly s t

theorem arrivalsOnly_of_trp_eq {s t : State} (h : t.trp = s.trp) : arrivalsOnly s t := fun g => by rw [h]

theorem arrivalsOnly_refl (s : State) : arrivalsOnly s s := arrivalsOnly_of_trp_eq rfl

theorem arrivalsOnly_trans {s t u : State} (h1 : arrivalsOnly s t) (h2 : arrivalsOnly t u) : arrivalsOnly s u := fun g => by
  rw [h2 g, h1 g]

theorem recordOnly_of_trp_eq {s t : State} (h : t = { s with regs := t.regs, alert := t.alert, ref := t.ref }) :
    recordOnly s t := by
  have ht : t.trp = s.trp := by rw [h]
  exact ⟨by rw [ht]; exact h, arrivalsOnly_of_trp_eq ht⟩

theorem recordOnly_refl (s : State) : recordOnly s s := recordOnly_of_trp_eq rfl

theorem recordOnly_trans {s t u : State} (h1 : recordOnly s t) (h2 : recordOnly t u) : recordOnly s u := by
  obtain ⟨e1, a1⟩ := h1
  obtain ⟨e2, a2⟩ := h2
  exact ⟨by rw [e2, e1], arrivalsOnly_trans a1 a2⟩

theorem recordOnly_wr (s : State) (a : Nat) (v : Word) : recordOnly s (s.wr a v) := recordOnly_of_trp_eq rfl

theorem recordOnly_fset (s : State) (a : Nat) (f : Fld) (n : Nat) : recordOnly s (s.fset a f n) := recordOnly_wr _ _ _

theorem recordOnly_wrWords (s : State) (a : Nat) (ws : List Word) : recordOnly s (s.wrWords a ws) := by
  induction ws generalizing s a with
  | nil => exact recordOnly_refl s
  | cons w r ih => exact recordOnly_trans (recordOnly_wr s a w) (ih _ _)

theorem recordOnly_alert (s : State) (x : Alert) : recordOnly s { s with alert := x } := recordOnly_of_trp_eq rfl

theorem recordOnly_modRef (s : State) (h : Half) (f : Ref → Ref) : recordOnly s (s.modRef h f) := recordOnly_of_trp_eq rfl

theorem recordOnly_arrivals (s : State) (h : Half) (f : List Evt → List Evt) :
    recordOnly s (s.modTrp h fun t => { t with arrivals := f t.arrivals }) :=
  ⟨rfl, fun g => by cases h <;> cases g <;> rfl⟩

/-- A step that is taken under a condition. -/
theorem recordOnly_ite {s a b : State} (c : Prop) [Decidable c] (ha : recordOnly s a) (hb : recordOnly a b) :
    recordOnly s (if c then b else a) := by
  split
  · exact recordOnly_trans ha hb
  · exact ha

theorem recordOnly_unless {s a b : State} (c : Prop) [Decidable c] (ha : recordOnly s a) (hb : recordOnly a b) :
    recordOnly s (if c then a else b) := by
  split
  · exact ha
  · exact recordOnly_trans ha hb

/-- A step that also answers a place, taken under a condition. -/
theorem recordOnly_ite_fst {β : Type} {s a : State} {p : State × β} {x : β} (c : Prop) [Decidable c] (ha : recordOnly s a)
    (hp : recordOnly a p.1) : recordOnly s (if c then p else (a, x)).1 := by
  split
  · exact recordOnly_trans ha hp
  · exact ha

/-! ### The copies of a record (R410, R418, R419) -/

theorem evqLevel_recordOnly (s : State) (h : Half) : recordOnly s (evqLevel s h) := by
  have h0 := recordOnly_fset s (REF_STAT h) REF_STAT_EVQ_HI (evqAtHigh s h).toNat
  unfold evqLevel
  dsimp only
  split
  · exact recordOnly_trans h0 (recordOnly_alert _ _)
  · exact recordOnly_ite _ h0 (recordOnly_alert _ _)

theorem evqPush_recordOnly (s : State) (h : Half) (ws : List Word) : recordOnly s (evqPush s h ws) :=
  recordOnly_trans (recordOnly_trans (recordOnly_wrWords _ _ _) (recordOnly_fset _ _ _ _)) (evqLevel_recordOnly _ _)

theorem evqRecord_recordOnly (s : State) (h : Half) (e : Evt) : recordOnly s (evqRecord s h e).1 := by
  have h0 := recordOnly_fset s (REF_ERRCNT1 h) REF_ERRCNT1_EVQ_DROP_CNT
    (min (s.fget (REF_ERRCNT1 h) REF_ERRCNT1_EVQ_DROP_CNT + 1) (2 ^ REF_ERRCNT1_EVQ_DROP_CNT.width - 1))
  unfold evqRecord
  dsimp only
  split
  · exact evqPush_recordOnly s h _
  · split
    · exact recordOnly_trans h0 (recordOnly_wr _ _ _)
    · exact recordOnly_trans h0 (evqPush_recordOnly _ _ _)

theorem sbRecord_recordOnly (s : State) (h : Half) (e : Evt) : recordOnly s (sbRecord s h e).1 := by
  unfold sbRecord
  dsimp only
  split
  · exact recordOnly_refl s
  · exact recordOnly_trans (recordOnly_ite _ (recordOnly_wrWords _ _ _) (recordOnly_fset _ _ _ _)) (recordOnly_fset _ _ _ _)

theorem alertRequest_recordOnly (s : State) : recordOnly s (alertRequest s) := by
  unfold alertRequest
  dsimp only
  split
  · exact recordOnly_ite _ (recordOnly_alert _ _) (recordOnly_fset _ _ _ _)
  · exact recordOnly_trans (recordOnly_alert _ _) (recordOnly_fset _ _ _ _)

theorem updateCopies_recordOnly (s : State) (h : Half) (e : Evt) : recordOnly s (updateCopies s h e) := by
  have hsb : recordOnly s (sbCopy s h e) := by
    unfold sbCopy
    split
    · exact recordOnly_ite _ (recordOnly_refl s) (recordOnly_wrWords _ _ _)
    · exact recordOnly_refl s
  have hevq : recordOnly (sbCopy s h e) (evqCopy (sbCopy s h e) h e) := by
    unfold evqCopy
    split
    · exact recordOnly_ite _ (recordOnly_refl _) (recordOnly_wrWords _ _ _)
    · exact recordOnly_refl _
  exact recordOnly_trans (recordOnly_trans hsb hevq) (recordOnly_arrivals _ h _)

theorem putRecord_recordOnly (s : State) (h : Half) (e : Evt) : recordOnly s (putRecord s h e) := by
  unfold putRecord
  cases e.sbSlot <;> cases e.evqIdx
  · exact recordOnly_refl s
  · exact recordOnly_wrWords _ _ _
  · exact recordOnly_wrWords _ _ _
  · exact recordOnly_trans (recordOnly_wrWords _ _ _) (recordOnly_wrWords _ _ _)

theorem inOrder_recordOnly (s : State) (h : Half) (e : Evt) (l : List Evt) : recordOnly s (inOrder s h e l).1 := by
  induction l generalizing s e with
  | nil => exact recordOnly_refl s
  | cons x l ih =>
    have htrade : recordOnly s (tradePlaces s h e x) :=
      recordOnly_trans (recordOnly_trans (putRecord_recordOnly _ _ _) (putRecord_recordOnly _ _ _)) (recordOnly_arrivals _ h _)
    simp only [inOrder]
    split
    · exact recordOnly_trans htrade (ih _ _)
    · exact recordOnly_refl s

/-! ### A record (R409, R410) -/

theorem newRecord_recordOnly (s : State) (h : Half) (sp : EvSpec) (sev : Nat) : recordOnly s (newRecord s h sp sev) := by
  have hseq : ∀ n, recordOnly s (s.fset (REF_SEQ h) REF_SEQ_SEQ n) := fun n => recordOnly_fset _ _ _ n
  unfold newRecord
  dsimp only
  refine recordOnly_trans (recordOnly_trans (recordOnly_unless _ ?_ (recordOnly_arrivals _ h fun l => l ++ _))
    (inOrder_recordOnly _ h _ _)) (recordOnly_modRef _ _ _)
  refine recordOnly_ite _ (recordOnly_ite_fst _ (recordOnly_ite_fst _ ?_ (sbRecord_recordOnly _ _ _))
    (evqRecord_recordOnly _ _ _)) (alertRequest_recordOnly _)
  exact recordOnly_ite _ (hseq _) (recordOnly_fset _ _ _ _)

theorem record_recordOnly (s : State) (h : Half) (sp : EvSpec) (sev : Nat) : recordOnly s (record s h sp sev) := by
  unfold record
  split
  · exact recordOnly_trans (recordOnly_modRef _ _ _) (updateCopies_recordOnly _ _ _)
  · exact newRecord_recordOnly _ _ _ _

/-- Reporting an event of no unit that is not FATAL_DEVICE only records it. -/
theorem raise_evt_recordOnly (s : State) (h : Half) {cls cause : Nat} (inst detail : Nat) (hsev : sevOf cls cause ≠ 5) :
    recordOnly s (raise s h (evt cls cause inst detail)) := by
  have hlive : raiseLive s h (evt cls cause inst detail) (sevOf cls cause)
      = record s h (evt cls cause inst detail) (sevOf cls cause) := by
    unfold raiseLive
    rw [if_neg hsev]
    rfl
  refine recordOnly_ite _ (recordOnly_refl s) ?_
  exact hlive.symm ▸ record_recordOnly s h _ _

/-! ### An event of no unit and the pairs (R409, R415) -/

theorem setViral_arrivalsOnly (s : State) (t : Nat) : arrivalsOnly s (setViral s t) := by
  unfold setViral
  split
  · exact arrivalsOnly_refl s
  · exact (record_recordOnly _ _ _ _).2

theorem foldl_setViral_arrivalsOnly (l : List Nat) : ∀ s : State, arrivalsOnly s (l.foldl setViral s) := by
  induction l with
  | nil => exact arrivalsOnly_refl
  | cons t r ih => exact fun s => arrivalsOnly_trans (setViral_arrivalsOnly s t) (ih _)

theorem setViralAll_arrivalsOnly (s : State) : arrivalsOnly s (setViralAll s) := foldl_setViral_arrivalsOnly (List.range 64) s

theorem fatalDevice_arrivalsOnly (s : State) (h : Half) : arrivalsOnly s (fatalDevice s h) := by
  unfold fatalDevice
  dsimp only
  refine arrivalsOnly_trans ?_ (setViralAll_arrivalsOnly _)
  exact (recordOnly_ite _ (recordOnly_fset _ _ _ _) (recordOnly_fset _ _ _ _)).2

/-- An event of no unit never stops a pair: its half enters no control hold. -/
theorem raise_evt_arrivalsOnly (s : State) (h : Half) (cls cause inst detail : Nat) :
    arrivalsOnly s (raise s h (evt cls cause inst detail)) := by
  by_cases hsev : sevOf cls cause = 5
  · unfold raise raiseSev
    split
    · unfold raiseLive
      rw [if_pos (show sevOf (evt cls cause inst detail).cls (evt cls cause inst detail).cause = 5 from hsev)]
      exact arrivalsOnly_trans (fatalDevice_arrivalsOnly s h) (record_recordOnly _ _ _ _).2
    · exact arrivalsOnly_refl s
  · exact (raise_evt_recordOnly s h inst detail hsev).2

end Sys2Proof.Machine
end

section
/-! PROOFS. The boundary of a half (R29, R35, R46): where the Meridian is put, and the state in which the pair starts. -/

namespace Sys2Proof.Machine

open Sys2Proof

/-! ### 64-bit registers and what does not write them -/

theorem rd64_congr {s t : State} {a : Nat} (h1 : t.rd a = s.rd a) (h2 : t.rd (a + 4) = s.rd (a + 4)) : t.rd64 a = s.rd64 a := by
  simp only [State.rd64, h1, h2]

theorem rd64_fset_ne (s : State) {a b : Nat} (f : Fld) (n : Nat) (h1 : b ≠ a) (h2 : b + 4 ≠ a) :
    (s.fset a f n).rd64 b = s.rd64 b := rd64_congr (rd_fset_ne s f n h1) (rd_fset_ne s f n h2)

theorem rd64_wr64_ne (s : State) {a b : Nat} (v : Nat) (h : b + 8 ≤ a ∨ a + 8 ≤ b) : (s.wr64 a v).rd64 b = s.rd64 b :=
  rd64_congr (rd_wr64_ne s (by omega) (by omega)) (rd_wr64_ne s (by omega) (by omega))

theorem fget_wr64_ne (s : State) {a b : Nat} (v : Nat) (g : Fld) (h1 : b ≠ a) (h2 : b ≠ a + 4) :
    (s.wr64 a v).fget b g = s.fget b g := by
  simp only [State.fget, rd_wr64_ne s h1 h2]

theorem rd_fsets_ne (s : State) {a b : Nat} (l : List (Fld × Nat)) (h : b ≠ a) : (s.fsets a l).rd b = s.rd b := by
  induction l generalizing s with
  | nil => rfl
  | cons x r ih => exact (ih (s.fset a x.1 x.2)).trans (rd_fset_ne s _ _ h)

/-! ### The Meridian at the boundary (R29, R35) -/

/-- The least multiple of a at or past d. -/
theorem ceilMul_bounds (d : Nat) {a : Nat} (ha : 0 < a) : d ≤ (d + a - 1) / a * a ∧ (d + a - 1) / a * a < d + a := by
  have h1 := Nat.div_add_mod (d + a - 1) a
  have h2 := Nat.mod_lt (d + a - 1) ha
  rw [Nat.mul_comm] at h1
  omega

/-- The phase correction changes the increment by one unit at most (R39). -/
theorem merInc_bounds (r : Mrd) : (r.inc : Int) + r.adj - 1 ≤ merInc r ∧ merInc r ≤ r.inc + r.adj + 1 := by
  unfold merInc
  split
  · omega
  · split <;> omega

/-- The Meridian crosses its target by no more than one increment (R29). -/
theorem merCross_bounds (r : Mrd) {m target : Nat} (hm : m ≤ target) (hb : 1 < (r.inc : Int) + r.adj) :
    target ≤ (merCross r m target).1 ∧ ((merCross r m target).1 : Int) ≤ target + (r.inc + r.adj) := by
  have hinc := merInc_bounds r
  have ha : 0 < (merInc r).toNat := by omega
  have hb' : 0 < ((r.inc : Int) + r.adj).toNat := by omega
  unfold merCross
  dsimp only
  split
  · simp only; omega
  · rw [if_neg (by omega)]
    split
    · have := ceilMul_bounds (target - m) ha
      simp only; omega
    · have := ceilMul_bounds (target - m - (merInc r).toNat * r.phaseErr.natAbs) hb'
      simp only; omega

/-- The Meridian reads as it was put (R30). -/
theorem setMer_mer (s : State) (h : Half) {m : Nat} (hm : m / 65536 < 2 ^ 64) : (s.setMer h m).mer h = m := by
  have hnow : (s.setMer h m).now h = m / 65536 :=
    (rd64_fset_ne _ _ _ (by cases h <;> decide) (by cases h <;> decide)).trans (rd64_wr64_same s _ _ hm)
  have hfrac : (s.setMer h m).fget (MRD_FRAC h) MRD_FRAC_FRAC = m % 65536 % 2 ^ MRD_FRAC_FRAC.width :=
    fget_fset_same _ _ _ _ (by decide)
  have hwidth : MRD_FRAC_FRAC.width = 16 := rfl
  rw [State.mer, hnow, hfrac, hwidth]
  omega

/-- Writing the Transit number leaves the Meridian. -/
theorem wr64_tn_mer (s : State) (h : Half) (k : Nat) : (s.wr64 (MRD_TN_LO h) k).mer h = s.mer h := by
  have hnow : (s.wr64 (MRD_TN_LO h) k).now h = s.now h := rd64_wr64_ne s k (by cases h <;> decide)
  have hfrac : (s.wr64 (MRD_TN_LO h) k).fget (MRD_FRAC h) MRD_FRAC_FRAC = s.fget (MRD_FRAC h) MRD_FRAC_FRAC :=
    fget_wr64_ne s _ _ (by cases h <;> decide) (by cases h <;> decide)
  rw [State.mer, hnow, hfrac, State.mer]

theorem rd_setMer_ne (s : State) (h : Half) (m : Nat) {a : Nat} (h1 : a ≠ MRD_NOW_LO h) (h2 : a ≠ MRD_NOW_LO h + 4)
    (h3 : a ≠ MRD_FRAC h) : (s.setMer h m).rd a = s.rd a := (rd_fset_ne _ _ _ h3).trans (rd_wr64_ne s h1 h2)

theorem modMrd_mer (s : State) (g h : Half) (f : Mrd → Mrd) : (s.modMrd g f).mer h = s.mer h := rfl

theorem modMrd_tn (s : State) (g h : Half) (f : Mrd → Mrd) : (s.modMrd g f).tn h = s.tn h := rfl

theorem modMrd_get (s : State) (h : Half) (f : Mrd → Mrd) : (s.modMrd h f).mrd.get h = f (s.mrd.get h) := Pair.get_set _ _ _

theorem setMer_mrd (s : State) (h : Half) (m : Nat) : (s.setMer h m).mrd = s.mrd := rfl

/-- Where the Meridian of half h comes to stand at its next boundary with no step due, and the clocks until then. -/
def merNext (s : State) (h : Half) : Nat × Nat := merCross (s.mrd.get h) (s.mer h) ((s.tn h + 1) * 1000 * 65536)

/-- With no step due, the boundary puts the Meridian there, and TN to the number of the Transit that begins. -/
theorem merBoundary_noStep (s : State) (h : Half) (hs : (s.mrd.get h).step = 0) :
    merBoundary s h = ((s.setMer h (merNext s h).1).wr64 (MRD_TN_LO h) ((merNext s h).1 / 65536 / 1000)).modMrd h fun r =>
      { r with phaseErr := phaseDown r.phaseErr (merNext s h).2, hold := (-r.step).toNat, step := 0 } := by
  unfold merBoundary
  dsimp only
  rw [hs, Int.toNat_zero, Nat.add_zero, if_pos rfl]
  rfl

section

variable (s : State) (h : Half) (hs : (s.mrd.get h).step = 0)

include hs

theorem merBoundary_mer (hm : (merNext s h).1 / 65536 < 2 ^ 64) : (merBoundary s h).mer h = (merNext s h).1 := by
  rw [merBoundary_noStep s h hs, modMrd_mer, wr64_tn_mer, setMer_mer s h hm]

theorem merBoundary_tn (hm : (merNext s h).1 / 65536 / 1000 < 2 ^ 64) :
    (merBoundary s h).tn h = (merNext s h).1 / 65536 / 1000 := by
  rw [merBoundary_noStep s h hs, modMrd_tn]
  exact rd64_wr64_same _ _ _ hm

theorem merBoundary_hold : ((merBoundary s h).mrd.get h).hold = 0 := by
  rw [merBoundary_noStep s h hs, modMrd_get]
  dsimp only
  rw [State.wr64_mrd, setMer_mrd, hs, Int.neg_zero, Int.toNat_zero]

theorem merBoundary_rd {a : Nat} (h1 : a ≠ MRD_NOW_LO h) (h2 : a ≠ MRD_NOW_LO h + 4) (h3 : a ≠ MRD_TN_LO h)
    (h4 : a ≠ MRD_TN_LO h + 4) (h5 : a ≠ MRD_FRAC h) : (merBoundary s h).rd a = s.rd a := by
  rw [merBoundary_noStep s h hs, State.modMrd_rd, rd_wr64_ne _ h3 h4, rd_setMer_ne s h _ h1 h2 h5]

/-- The Meridian at the next boundary lies at or past the next multiple of 1,000 ns, in the Transit that it opens (R29, R35). -/
theorem merBoundary_opens (hm : s.mer h ≤ (s.tn h + 1) * 1000 * 65536) (htn : s.tn h + 1 < 2 ^ 48)
    (hlo : 1 < ((s.mrd.get h).inc : Int) + (s.mrd.get h).adj)
    (hhi : ((s.mrd.get h).inc : Int) + (s.mrd.get h).adj < 2 ^ 18) :
    (merBoundary s h).tn h = s.tn h + 1 ∧ (s.tn h + 1) * 1000 * 65536 ≤ (merBoundary s h).mer h
      ∧ ((merBoundary s h).mer h : Int) ≤ (s.tn h + 1) * 1000 * 65536 + ((s.mrd.get h).inc + (s.mrd.get h).adj) := by
  obtain ⟨hge, hle⟩ : (s.tn h + 1) * 1000 * 65536 ≤ (merNext s h).1 ∧ ((merNext s h).1 : Int)
      ≤ ((s.tn h + 1) * 1000 * 65536 : Nat) + ((s.mrd.get h).inc + (s.mrd.get h).adj) := merCross_bounds _ hm hlo
  have hnum : (merNext s h).1 / 65536 / 1000 = s.tn h + 1 := by omega
  rw [merBoundary_mer s h hs (by omega), merBoundary_tn s h hs (by omega)]
  refine ⟨hnum, hge, ?_⟩
  push_cast at hle
  exact hle

end

/-! ### The fixed state in which a pair starts (R46) -/

/-- The pair of half h stands at the start of its Transit (R46). -/
def fixedStart (t : State) (h : Half) : Prop :=
  (t.trp.get h).w = Vector.replicate 16 0 ∧ (t.trp.get h).bc = 0 ∧ (t.trp.get h).loops = [] ∧ (t.trp.get h).held = []
    ∧ (t.trp.get h).zf = false ∧ (t.trp.get h).nf = false ∧ (t.trp.get h).cf = false ∧ (t.trp.get h).vf = false
    ∧ (t.trp.get h).dispatched = [] ∧ (t.trp.get h).samplesReady = false ∧ (t.trp.get h).tn = t.tn h
    ∧ ((t.trp.get h).phase = .main → (t.trp.get h).pc = bits (bankWord t h 1).toNat 13 0)

/-- The registers of a bank's header are none of the Referee's. -/
theorem refReg_bank (h : Half) {b : Nat} (hb : b < 2) :
    refReg (TRP_BANK h b 1) = false ∧ viralBits (TRP_BANK h b 1) = 0 := by
  interval_cases b <;> cases h <;> decide

theorem runBank_lt (s : State) (h : Half) : runBank s h < 2 := by
  have hsel : s.fget (TRP_CTL h) TRP_CTL_SEL < 2 := fget_lt s _ _
  unfold runBank
  dsimp only
  split <;> omega

/-- The bank that a pair runs, by TRP_CTL.SEL and its requalification. -/
theorem runBank_congr {s t : State} {h : Half} (hsel : t.rd (TRP_CTL h) = s.rd (TRP_CTL h))
    (hq : (t.trp.get h).requal.map Prod.fst = (s.trp.get h).requal.map Prod.fst) : runBank t h = runBank s h := by
  unfold runBank State.fget
  rw [hsel]
  generalize (t.trp.get h).requal = q at hq ⊢
  generalize (s.trp.get h).requal = q' at hq ⊢
  match q, q', hq with
  | none, none, _ => rfl
  | some (true, _), some (true, _), _ => rfl
  | some (false, _), some (false, _), _ => rfl

/-- A pair that stands at its start still does when events have been recorded, whatever else of the machine changed. -/
theorem fixedStart_of {s t : State} {h : Half} (hrd : ∀ a, refReg a = false → viralBits a = 0 → t.rd a = s.rd a)
    (harr : arrivalsOnly s t) (hs : fixedStart s h) : fixedStart t h := by
  have htn : t.tn h = s.tn h :=
    rd64_congr (hrd _ (by cases h <;> decide) (by cases h <;> decide)) (hrd _ (by cases h <;> decide) (by cases h <;> decide))
  have hrun : runBank t h = runBank s h :=
    runBank_congr (hrd _ (by cases h <;> decide) (by cases h <;> decide)) (by rw [harr h])
  have hbank : bankWord t h 1 = bankWord s h 1 := by
    obtain ⟨h1, h2⟩ := refReg_bank h (runBank_lt s h)
    rw [bankWord, hrun, hrd _ h1 h2, bankWord]
  unfold fixedStart
  rw [htn, hbank, harr h]
  exact hs

/-- An event of no unit is reported. -/
theorem fixedStart_raise {s : State} {h : Half} (g : Half) (cls cause inst detail : Nat) (hs : fixedStart s h) :
    fixedStart (raise s g (evt cls cause inst detail)) h :=
  fixedStart_of (fun _ h1 h2 => refOnly_rd (raise_evt_refOnly s g cls cause inst detail) h1 h2)
    (raise_evt_arrivalsOnly s g cls cause inst detail) hs

/-- The start of the pair is that state (R46). -/
theorem fixedStart_pairStart (s : State) (h : Half) : fixedStart (pairStart s h) h := by
  have hget : (pairStart s h).trp.get h
      = { s.trp.get h with
          w := Vector.replicate 16 0, zf := false, nf := false, cf := false, vf := false, tn := s.tn h, bc := 0,
          pc := bits (bankWord s h 1).toNat 13 0, loops := [], phase := if pairRuns s h then .main else .idle,
          ran := pairRuns s h, splitAt := s.phase h != phUP, samplesReady := false, held := [], dispatched := [],
          sealed := false, done := false, rel := false,
          requal := (s.trp.get h).requal.map fun q => (q.1, if pairRuns s h then q.2 - 1 else q.2) } := Pair.get_set _ _ _
  have hbank : bankWord (pairStart s h) h 1 = bankWord s h 1 := by
    have hrun : runBank (pairStart s h) h = runBank s h := runBank_congr rfl (by rw [hget, Option.map_map]; rfl)
    rw [bankWord, hrun]
    rfl
  unfold fixedStart
  rw [hget, hbank]
  exact ⟨rfl, rfl, rfl, rfl, rfl, rfl, rfl, rfl, rfl, rfl, rfl, fun _ => rfl⟩

/-! ### The rails go down (R457) -/

theorem mfind_mmapOpt_none {α : Type} (m : SMap α) (f : Nat → α → Option α) {k : Nat} (hk : ∀ x, f k x = none) :
    mfind (mmapOpt m f) k = none := by
  induction m with
  | nil => rfl
  | cons a r ih =>
    obtain ⟨j, x⟩ := a
    unfold mmapOpt
    split
    · next y hy =>
      have hne : k ≠ j := by rintro rfl; simp [hk] at hy
      simp only [mfind, if_neg hne, ih]
    · exact ih

/-- A register of a half reads its reset value when the halves have been cleared. -/
theorem halvesClear_rd (s : State) (f : Nat → Word → Word) {a : Nat} (hf : ∀ w, f a w = resetWord a) :
    (halvesClear s (mapRegs s.regs f)).rd a = resetWord a := by
  have hnone : mfind (mapRegs s.regs f) a = none := mfind_mmapOpt_none _ _ fun w => if_pos (hf w)
  simp only [State.rd, halvesClear, mget, hnone, Option.getD_none]

/-- Of the pairs and the registers, only MRD_PWR_STAT and MRD_SVC_STAT differ. -/
def railsOnly (s t : State) : Prop := t.trp = s.trp ∧ ∀ a, a ≠ MRD_PWR_STAT → a ≠ MRD_SVC_STAT → t.rd a = s.rd a

theorem railsOnly_trans {s t u : State} (h1 : railsOnly s t) (h2 : railsOnly t u) : railsOnly s u :=
  ⟨h2.1.trans h1.1, fun a ha ha' => (h2.2 a ha ha').trans (h1.2 a ha ha')⟩

theorem railsOnly_dome (s : State) (x : Dome) : railsOnly s { s with dome := x } := ⟨rfl, fun _ _ _ => rfl⟩

theorem railsOnly_fsets (s : State) (l : List (Fld × Nat)) : railsOnly s (s.fsets MRD_PWR_STAT l) :=
  ⟨State.fsets_trp _ _ _, fun _ h1 _ => rd_fsets_ne s l h1⟩

theorem railStart_railsOnly (s : State) : railsOnly s (railStart s) :=
  ⟨State.fsets_trp _ _ _, fun _ h1 h2 => (rd_fset_ne _ _ _ h2).trans (rd_fsets_ne s _ h1)⟩

theorem railsStep_railsOnly (s : State) : railsOnly s (railsStep s) := by
  unfold railsStep
  split
  · exact ⟨rfl, fun _ _ _ => rfl⟩
  · have hdown := fun l x => railsOnly_trans (railsOnly_fsets s l) (railsOnly_dome _ x)
    exact iteInduction (motive := railsOnly s)
      (fun _ => iteInduction (fun _ => railsOnly_trans (hdown _ _) (railStart_railsOnly _)) fun _ => hdown _ _)
      fun _ => railsOnly_fsets s _

theorem railsFall_railsOnly (s : State) (left : Nat) (again : Bool) : railsOnly s (railsFall s left again) := by
  have hset : railsOnly s (s.fset MRD_PWR_STAT MRD_PWR_STAT_STATE pwDOWN) := railsOnly_fsets s [(MRD_PWR_STAT_STATE, pwDOWN)]
  have hdown := fun x => railsOnly_trans hset (railsOnly_dome _ x)
  exact iteInduction (motive := railsOnly s) (fun _ => railsOnly_trans (hdown _) (railsStep_railsOnly _)) fun _ => hdown _

theorem rd_deauth_ne (s : State) {a : Nat} (h1 : a ≠ MRD_DBG_STAT) (h2 : ∀ g, a ≠ UMP_STAT g) : (deauth s).rd a = s.rd a :=
  (rd_fset_ne _ _ _ (h2 _)).trans ((rd_fset_ne _ _ _ (h2 _)).trans (rd_fset_ne _ _ _ h1))

/-- When the rails go down, both pairs are as after reset. -/
theorem railsDown_trp (s : State) (left : Nat) (h : Half) : (railsDown s left).trp.get h = trpReset := by
  unfold railsDown
  rw [(railsFall_railsOnly _ left false).1]
  cases h <;> rfl

/-- A register of a half that is none of those the way down sets reads its reset value. -/
theorem railsDown_rd (s : State) (left : Nat) {a : Nat} (hd : domeHeld a = false)
    (ha : ∀ b ∈ [MRD_PWR_STAT, MRD_SVC_STAT, MRD_DBG_STAT, UMP_STAT .east, UMP_STAT .west], a ≠ b) :
    (railsDown s left).rd a = resetWord a := by
  simp only [List.forall_mem_cons, List.not_mem_nil, false_imp_iff, implies_true, and_true] at ha
  obtain ⟨hpwr, hsvc, hdbg, he, hw⟩ := ha
  unfold railsDown
  rw [(railsFall_railsOnly _ left false).2 a hpwr hsvc, setSvc, rd_fset_ne _ _ _ hsvc,
    rd_deauth_ne _ hdbg (fun g => by cases g <;> assumption)]
  exact halvesClear_rd _ _ fun w => by rw [hd]; rfl

theorem fixedStart_railsDown (s : State) (left : Nat) (h : Half) : fixedStart (railsDown s left) h := by
  have htn : (railsDown s left).tn h = 0 := by
    rw [← tn_reset h]
    exact rd64_congr (railsDown_rd s left (by cases h <;> decide) (by cases h <;> decide))
      (railsDown_rd s left (by cases h <;> decide) (by cases h <;> decide))
  unfold fixedStart
  rw [htn, railsDown_trp]
  exact ⟨rfl, rfl, rfl, rfl, rfl, rfl, rfl, rfl, rfl, rfl, rfl, nofun⟩

/-! ### The temperature of the Transit (R430, R431, R457) -/

theorem fixedStart_thermalCrit {s : State} {h : Half} (g : Half) (hs : fixedStart s h) : fixedStart (thermalCrit s g) h := by
  unfold thermalCrit
  dsimp only
  split
  · exact fixedStart_railsDown _ _ h
  · exact fixedStart_raise g 20 1 0 0 hs

theorem fixedStart_tjSample {s : State} {h : Half} (g : Half) (tj : Int) (hs : fixedStart s h) :
    fixedStart (tjSample s g tj) h := by
  have htherm : ∀ n, fixedStart (s.fset (REF_THERM g) REF_THERM_TJ n) h := fun n =>
    fixedStart_of (fun _ h1 h2 => refOnly_rd (refOnly_fset s _ n (by cases g <;> decide)) h1 h2) (arrivalsOnly_of_trp_eq rfl) hs
  have hot : ∀ n f, fixedStart (if 95 < tj then
      { (s.fset (REF_THERM g) REF_THERM_TJ n).modRef g f with
        dome := { ((s.fset (REF_THERM g) REF_THERM_TJ n).modRef g f).dome with hot := true } }
      else (s.fset (REF_THERM g) REF_THERM_TJ n).modRef g f) h := fun n f =>
    iteInduction (motive := fun u => fixedStart u h) (fun _ => htherm n) fun _ => htherm n
  have warned : ∀ (c : Prop) [Decidable c] (u : State), fixedStart u h →
      fixedStart (if c then raise u g (evt 20 0 0 0) else u) h :=
    fun _ _ u hu => iteInduction (motive := fun u => fixedStart u h) (fun _ => fixedStart_raise g 20 0 0 0 hu) fun _ => hu
  exact iteInduction (motive := fun u => fixedStart u h) (fun _ => fixedStart_thermalCrit g (warned _ _ (hot _ _)))
    fun _ => warned _ _ (hot _ _)

theorem exec_transitBoundary (h : Half) (x : BoundaryIn) (s : State) : exec (.transitBoundary h x) s = .next (boundary s h x) := rfl

/-- The pair's start comes last but for the temperature of the Transit, which leaves it so (R35, R46). -/
theorem boundary_fixedStart (s : State) (h : Half) (x : BoundaryIn) : fixedStart (boundary s h x) h := by
  unfold boundary
  exact fixedStart_tjSample h x.tj (fixedStart_pairStart _ h)

/-- Settles O16: the pair by the last steps of the boundary, the Meridian by the clocks that it takes to cross its target. -/
theorem boundaryOpensTheNextTransit : Obligations.BoundaryOpensTheNextTransit := by
  intro s h x
  refine ⟨⟨_, exec_transitBoundary h x s, boundary_fixedStart s h x⟩, fun hs hm htn hlo hhi => ?_⟩
  obtain ⟨hnum, hge, hle⟩ := merBoundary_opens s h hs hm htn hlo hhi
  exact ⟨hnum, hge, hle, merBoundary_hold s h hs, fun a => merBoundary_rd s h hs⟩

end Sys2Proof.Machine
end

section
/-! PROOFS. The oldest message of a class leaves its sub-port (R104-R123, R134). -/

namespace Sys2Proof.Machine

open Sys2Proof

/-! ### Counting in the Photometer only records (R434-R438) -/

theorem phmAdd_recordOnly (s : State) (h : Half) (c k : Nat) : recordOnly s (phmAdd s h c k) := by
  have hcnt : ∀ (u : State) a v, recordOnly u (u.wr64 a v) := fun u a v =>
    recordOnly_trans (recordOnly_wr u a _) (recordOnly_wr _ _ _)
  unfold phmAdd
  dsimp only
  split
  · exact hcnt s _ _
  · exact recordOnly_ite _ (recordOnly_trans (hcnt s _ _) (recordOnly_wr _ _ _)) (raise_evt_recordOnly _ _ _ _ (by decide))

theorem tally_recordOnly (s : State) (h : Half) (u e i k : Nat) : recordOnly s (tally s h u e i k) := by
  unfold tally
  generalize (s.phm.get h).sel = l
  generalize (s.phm.get h).grp = grp
  induction l generalizing s with
  | nil => exact recordOnly_refl s
  | cons x r ih =>
    refine recordOnly_trans ?_ (ih _)
    refine recordOnly_ite _ (recordOnly_refl s) ?_
    exact recordOnly_unless _ (recordOnly_refl s) (phmAdd_recordOnly _ _ _ _)

/-! ### What leaving a sub-port changes (R121-R123, R139, R145) -/

@[simp] theorem sub_modSub_same (s : State) (d : Nat) (f : Sub → Sub) : (s.modSub d f).sub d = f (s.sub d) := by
  simp [State.sub, State.modSub]

theorem sub_congr {s t : State} (h : t.subs = s.subs) (d : Nat) : t.sub d = s.sub d := by rw [State.sub, h, State.sub]

theorem nget_nset_same (m : SMap Nat) (k v : Nat) : nget (nset m k v) k = v := mget_mset_same _ _ _ _

/-- The end of a flight counts in the Umpire. -/
theorem endFlight_frame (s : State) (m : Msg) :
    (endFlight s m).net = s.net ∧ (endFlight s m).subs = s.subs ∧ (endFlight s m).sent = s.sent :=
  iteInduction (motive := fun u : State => u.net = s.net ∧ u.subs = s.subs ∧ u.sent = s.sent)
    (fun _ => ⟨rfl, rfl, rfl⟩) fun _ => ⟨rfl, rfl, rfl⟩

/-- A posted message that has left counts in the switch core. -/
theorem postedGone_frame (s : State) (m : Msg) :
    (postedGone s m).net = s.net ∧ (postedGone s m).subs = s.subs ∧ (postedGone s m).sent = s.sent :=
  iteInduction (motive := fun u : State => u.net = s.net ∧ u.subs = s.subs ∧ u.sent = s.sent)
    (fun _ => ⟨rfl, rfl, rfl⟩) fun _ => ⟨rfl, rfl, rfl⟩

/-- What a message that has left takes of the link: its flits and one credit. -/
def leftSub (x : Sub) (m : Msg) : Sub :=
  { x with unacked := x.unacked + flitsOf m, txCred := nset x.txCred (opClass m.op) (nget x.txCred (opClass m.op) - 1),
           stalled := false }

/-- A message that has left is out of the tables, and has taken its share of the link; nothing more is sent. -/
theorem egressDone_frame (s : State) (d cls n : Nat) (m : Msg) :
    (egressDone s d cls n m).net = { s.net with msgs := merase s.net.msgs n }
      ∧ (egressDone s d cls n m).sub d = leftSub (s.sub d) m ∧ (egressDone s d cls n m).sent = s.sent := by
  unfold egressDone
  dsimp only
  generalize hu : (linkTake (dropMsg (egrPop s d cls) n) d (opClass m.op) (flitsOf m)).modSub d
    (fun x => { x with stalled := false })
    = u
  have hnet : u.net = { s.net with msgs := merase s.net.msgs n } := by rw [← hu]; rfl
  have hsub : u.sub d = leftSub (s.sub d) m := by rw [← hu, sub_modSub_same, linkTake, sub_modSub_same]; rfl
  have hsent : u.sent = s.sent := by rw [← hu]; rfl
  obtain ⟨htally, -⟩ := tally_recordOnly u (nodeHalf d) 7 1 (d % 64) (flitsOf m)
  obtain ⟨pnet, psubs, psent⟩ := postedGone_frame (tally u (nodeHalf d) 7 1 (d % 64) (flitsOf m)) m
  rw [pnet, sub_congr psubs, psent, htally]
  exact ⟨hnet, hsub, hsent⟩

/-- The message n has left sub-port d: state t against s. -/
def hasLeft (s t : State) (d n : Nat) (m : Msg) : Prop :=
  t.msg n = none ∧ (t.sub d).unacked = (s.sub d).unacked + flitsOf m
    ∧ nget (t.sub d).txCred (opClass m.op) = nget (s.sub d).txCred (opClass m.op) - 1

theorem egressDone_hasLeft {s u : State} {d : Nat} (cls n : Nat) (m : Msg) (h : u.sub d = s.sub d) :
    hasLeft s (egressDone u d cls n m) d n m := by
  obtain ⟨hnet, hsub, -⟩ := egressDone_frame u d cls n m
  refine ⟨?_, ?_, ?_⟩
  · rw [State.msg, hnet]
    exact mfind_merase_same _ _
  · rw [hsub, h]
    rfl
  · rw [hsub, h]
    exact nget_nset_same _ _ _

/-! ### The oldest message of a class (R134) -/

theorem egressHead_msg {s : State} {d cls n : Nat} {m : Msg} (h : egressHead s d cls = some (n, m)) : s.msg n = some m := by
  unfold egressHead at h
  obtain ⟨e, -, he⟩ := Option.bind_eq_some_iff.mp h
  obtain ⟨m', hm', heq⟩ := Option.map_eq_some_iff.mp he
  cases heq
  exact hm'

section

variable {s : State} {p : BitVec 5} {k : BitVec 2} {cls n : Nat} {m : Msg}
  (hhead : egressHead s (subNode p.toNat k.toNat) cls = some (n, m)) (hup : linkUp s (subNode p.toNat k.toNat) = true)

include hhead hup

/-- A message whose flits do not fit stalls its sub-port (R123). -/
theorem exec_requestEgress_stalls (ecc : CellEcc)
    (hf : ¬ (s.sub (subNode p.toNat k.toNat)).unacked + flitsOf m ≤ replayShare s (subNode p.toNat k.toNat)) :
    exec (.requestEgress p k cls ecc) s = .next (replayStall s (subNode p.toNat k.toNat)) := by
  show execRequestEgress p k cls ecc s = _
  simp only [execRequestEgress, hhead, hup, Bool.true_eq_false, if_false, if_pos (Nat.not_le.mp hf)]

theorem exec_requestEgress_fits
    (hf : (s.sub (subNode p.toNat k.toNat)).unacked + flitsOf m ≤ replayShare s (subNode p.toNat k.toNat)) :
    exec (.requestEgress p k cls .clean) s = .next (egressSend s (subNode p.toNat k.toNat) cls n) := by
  show execRequestEgress p k cls .clean s = _
  simp only [execRequestEgress, hhead, hup, Bool.true_eq_false, if_false, if_neg (Nat.not_lt.mpr hf), eccRead]

/-- What its leaving means to the message is done, and then it has left. -/
theorem exec_requestEgress_leaves {u : State}
    (hf : (s.sub (subNode p.toNat k.toNat)).unacked + flitsOf m ≤ replayShare s (subNode p.toNat k.toNat))
    (hu : egressMsg s (subNode p.toNat k.toNat) m = some u) :
    exec (.requestEgress p k cls .clean) s = .next (egressDone u (subNode p.toNat k.toNat) cls n m) := by
  rw [exec_requestEgress_fits hhead hup hf]
  simp only [egressSend, egressHead_msg hhead, hu]

theorem exec_requestEgress_waits
    (hf : (s.sub (subNode p.toNat k.toNat)).unacked + flitsOf m ≤ replayShare s (subNode p.toNat k.toNat))
    (hu : egressMsg s (subNode p.toNat k.toNat) m = none) : exec (.requestEgress p k cls .clean) s = .next s := by
  rw [exec_requestEgress_fits hhead hup hf]
  simp only [egressSend, egressHead_msg hhead, hu]

end

theorem replayStall_frame (s : State) (d : Nat) :
    (replayStall s d).net = s.net ∧ (replayStall s d).core = s.core ∧ (replayStall s d).sent = s.sent
      ∧ ((replayStall s d).sub d).stalled = true := by
  unfold replayStall
  split
  · next h => exact ⟨rfl, rfl, rfl, h⟩
  · refine ⟨rfl, rfl, rfl, ?_⟩
    rw [sub_congr (State.fbump_subs _ _ _ _), sub_modSub_same]

/-! ### Which way a message leaves (R104, R105) -/

/-- A message of a sub-port is none that the Catalogue sends. -/
theorem catTagged_of_subPort {m : Msg} (h : m.src < 128) : catTagged m = false := by
  have : ¬ 128 ≤ m.src := by omega
  simp [catTagged, this]

theorem egressMsg_rsp (s : State) (d : Nat) {m : Msg} (h : isRsp m.op = true) : egressMsg s d m = some (egressRsp s d m) :=
  if_pos h

theorem egressMsg_request (s : State) (d : Nat) {m : Msg} (hs : m.src < 128) (hk : m.tgt.kind ≠ 9) (hr : isRsp m.op = false)
    (hi : m.itag = none) :
    egressMsg s d m = if nonPosted m.op = true then egressTag s d m else some (egressPosted s d m) := by
  simp only [egressMsg, hr, catTagged_of_subPort hs, hi, hk, takesTag, hs, decide_true, Bool.and_true, Bool.false_eq_true, if_false]

/-! ### The tag table (R105-R107) -/

theorem tagRange_cases (op : Op) : tagRange op = 4096 ∨ tagRange op = 8192 := by
  unfold tagRange
  split
  · exact .inl rfl
  · exact .inr rfl

/-- The entry that is found is free and in range. -/
theorem freeEntry_free {s : State} {p n fuel a e : Nat} (hn : 0 < n) (h : freeEntry s p n fuel a = some e) :
    e < n ∧ mfind s.net.tags (tagKey p e) = none := by
  induction fuel generalizing a with
  | zero => simp [freeEntry] at h
  | succ fuel ih =>
    unfold freeEntry at h
    split at h
    · next hfree =>
      cases h
      exact ⟨Nat.mod_lt _ hn, Option.isNone_iff_eq_none.mp hfree⟩
    · exact ih h

/-- One is found if one of those looked at is free. -/
theorem freeEntry_exists {s : State} {p n fuel a j : Nat} (hj : j < fuel)
    (hfree : mfind s.net.tags (tagKey p ((a + j) % n)) = none) : ∃ e, freeEntry s p n fuel a = some e := by
  induction fuel generalizing a j with
  | zero => exact absurd hj (Nat.not_lt_zero j)
  | succ fuel ih =>
    unfold freeEntry
    split
    · exact ⟨_, rfl⟩
    · next hused =>
      cases j with
      | zero => exact absurd (Option.isNone_iff_eq_none.mpr hfree) hused
      | succ j => exact ih (a := a + 1) (j := j) (by omega) (by rwa [show a + 1 + j = a + (j + 1) by omega])

/-- All entries of the range are looked at, from anywhere on. -/
theorem freeEntry_of_free {s : State} {p e : Nat} (op : Op) (a : Nat) (he : e < tagRange op)
    (hfree : mfind s.net.tags (tagKey p e) = none) :
    ∃ e', freeEntry s p (tagRange op) (tagRange op) a = some e' ∧ e' < tagRange op
      ∧ mfind s.net.tags (tagKey p e') = none := by
  have hpos : 0 < tagRange op := by omega
  have hmod : (a + (e + tagRange op - a % tagRange op) % tagRange op) % tagRange op = e := by
    obtain h | h := tagRange_cases op <;> rw [h] at he ⊢ <;> omega
  obtain ⟨e', he'⟩ := freeEntry_exists (Nat.mod_lt (e + tagRange op - a % tagRange op) hpos) (by rwa [hmod])
  exact ⟨e', he', freeEntry_free hpos he'⟩

/-- The entry that a request of sub-port d takes, with its timeout (R111). -/
def takenEntry (s : State) (d : Nat) (m : Msg) : TagEnt := ⟨m, d, s.now (nodeHalf d), portTmo s d m.op, none, m.len, false⟩

/-- A request takes the entry that is found, if its operation has a response; its generation is the number of uses so far. -/
theorem takeTag_found {s : State} {d e : Nat} {m : Msg}
    (h : freeEntry s (d / 4) (tagRange m.op) (tagRange m.op) s.draw.1 = some e) :
    ∃ u, takeTag s d m = some (tagField m.op (nget s.net.uses (tagKey (d / 4) e)) e, u)
      ∧ u.net.tags = (if awaits m.op then minsert s.net.tags (tagKey (d / 4) e) (takenEntry s d m) else s.net.tags)
      ∧ u.subs = s.subs := by
  unfold takeTag
  simp only [h]
  refine ⟨_, rfl, ?_, ?_⟩ <;> split <;> rfl

/-- A request with a free entry leaves under it (R104, R105). -/
theorem egressTag_taken {s : State} {d e : Nat} {m : Msg} (hfree : tagFree s d m.op = true) (he : e < tagRange m.op)
    (hnone : mfind s.net.tags (tagKey (d / 4) e) = none) :
    ∃ (u : State) (e' g : Nat), egressTag s d m = some (u.emit (reqSent d m (tagField m.op g e'))) ∧ e' < tagRange m.op
      ∧ mfind s.net.tags (tagKey (d / 4) e') = none
      ∧ u.net.tags = (if awaits m.op then minsert s.net.tags (tagKey (d / 4) e') (takenEntry s d m) else s.net.tags)
      ∧ u.subs = s.subs := by
  obtain ⟨e', hfound, hlt, hfree'⟩ := freeEntry_of_free m.op s.draw.1 he hnone
  obtain ⟨u, htake, htags, hsubs⟩ := takeTag_found hfound
  refine ⟨u, e', nget s.net.uses (tagKey (d / 4) e'), ?_, hlt, hfree', htags, hsubs⟩
  simp only [egressTag, hfree, Bool.true_eq_false, if_false, htake]

/-- A message that went out has been sent when it has left. -/
theorem mem_sent_egressDone (u : State) (x : Sent) (d cls n : Nat) (m : Msg) : x ∈ (egressDone (u.emit x) d cls n m).sent := by
  rw [(egressDone_frame _ d cls n m).2.2]
  exact List.mem_cons_self

section

variable {s : State} {p : BitVec 5} {k : BitVec 2} {cls n : Nat} {m : Msg} {d : Nat} (hd : subNode p.toNat k.toNat = d)
  (hhead : egressHead s d cls = some (n, m)) (hup : linkUp s d = true) (hf : (s.sub d).unacked + flitsOf m ≤ replayShare s d)

include hd hhead hup hf

/-- A request leaves under a free entry, which it keeps if its operation has a response (R104-R107, R116). -/
theorem requestEgress_tagged {P e : Nat} (hport : d / 4 = P) (htag : egressMsg s d m = egressTag s d m)
    (hfree : tagFree s d m.op = true)
    (he : e < tagRange m.op) (hnone : mfind s.net.tags (tagKey P e) = none) :
    ∃ t e' g, exec (.requestEgress p k cls .clean) s = .next t ∧ hasLeft s t d n m ∧ e' < tagRange m.op
      ∧ mfind s.net.tags (tagKey P e') = none
      ∧ t.net.tags = (if awaits m.op then minsert s.net.tags (tagKey P e') (takenEntry s d m) else s.net.tags)
      ∧ reqSent d m (tagField m.op g e') ∈ t.sent := by
  subst hd hport
  obtain ⟨u, e', g, htaken, hlt, hfree', htags, hsubs⟩ := egressTag_taken hfree he hnone
  refine ⟨_, e', g, exec_requestEgress_leaves hhead hup hf (htag.trans htaken),
    egressDone_hasLeft cls n m (sub_congr hsubs _), hlt, hfree', ?_, mem_sent_egressDone u _ _ cls n m⟩
  rw [(egressDone_frame _ _ cls n m).1]
  exact htags

/-- A message that takes no entry leaves, and its flight ends (R116, R312). -/
theorem requestEgress_untagged {x : Sent} (hmsg : egressMsg s d m = some (endFlight (s.emit x) m)) :
    ∃ t, exec (.requestEgress p k cls .clean) s = .next t ∧ hasLeft s t d n m ∧ t.net.tags = s.net.tags ∧ x ∈ t.sent := by
  subst hd
  obtain ⟨fnet, fsubs, fsent⟩ := endFlight_frame (s.emit x) m
  obtain ⟨dnet, -, dsent⟩ := egressDone_frame (endFlight (s.emit x) m) (subNode p.toNat k.toNat) cls n m
  refine ⟨_, exec_requestEgress_leaves hhead hup hf hmsg, egressDone_hasLeft cls n m (sub_congr fsubs _), ?_, ?_⟩
  · rw [dnet, fnet]
    rfl
  · rw [dsent, fsent]
    exact List.mem_cons_self

end

/-- Settles O26: each clause says which way the message leaves; what its having left changes is `egressDone_frame`'s. -/
theorem messagesLeaveAtEgress : Obligations.MessagesLeaveAtEgress := by
  intro s p k cls n e ecc m P d fits left asks hhead hup hitag
  have hport : d / 4 = P := by
    have := k.isLt
    simp only [d, P, subNode]
    omega
  have htag (ha : asks) : egressMsg s d m = egressTag s d m := by
    obtain ⟨hs, hk, hr, hn⟩ := ha
    rw [egressMsg_request s d hs hk hr hitag, if_pos hn]
  refine ⟨fun hf ha hfree hop he hnone => ?_, fun hf ha hfree hop he hnone => ?_, fun hf ha hfree => ?_,
    fun hf hs hk hk' hr hn => ?_, fun hf hr hreset hgone => ?_, fun hf => ?_⟩
  · obtain ⟨t, e', g, ht, hleft, hlt, hfree', htags, hsent⟩ :=
      requestEgress_tagged rfl hhead hup hf hport (htag ha) hfree he hnone
    have hawaits : awaits m.op = true := by
      obtain ⟨-, -, -, hn⟩ := ha
      simp [awaits, hn, hop]
    rw [if_pos hawaits] at htags
    exact ⟨t, e', takenEntry s d m, g, ht, hleft, hlt, hfree', by rw [htags]; exact mfind_minsert_same _ _ _,
      rfl, rfl, rfl, rfl, rfl, hsent⟩
  · obtain ⟨t, e', g, ht, hleft, hlt, hfree', htags, hsent⟩ :=
      requestEgress_tagged rfl hhead hup hf hport (htag ha) hfree he hnone
    have hawaits : awaits m.op = false := by rw [hop]; rfl
    rw [if_neg (by simp [hawaits])] at htags
    exact ⟨t, e', g, ht, hleft, hlt, hfree', htags, hsent⟩
  · exact exec_requestEgress_waits hhead hup hf ((htag ha).trans (if_pos hfree))
  · refine requestEgress_untagged rfl hhead hup hf ?_
    rw [egressMsg_request s d hs hk hr hitag, if_neg (by simp [hn]), egressPosted, if_neg hk']
    rfl
  · refine requestEgress_untagged rfl hhead hup hf ?_
    rw [egressMsg_rsp s d hr, egressRsp, if_neg (by simp [hreset, hgone])]
  · exact ⟨_, exec_requestEgress_stalls hhead hup ecc hf, replayStall_frame s d⟩

end Sys2Proof.Machine
end

section
/-! PROOFS. The timeout of a request of a tenant beyond T63 (R114, R218). -/

namespace Sys2Proof.Machine

open Sys2Proof

/-- A read of the stray tenant, taken by P1.0 at the Meridian's start for P0.0 with a timeout of 64 µs. -/
def strayEntry : TagEnt := ⟨{ blankMsg .mRd 0 4 7 strayTenant 0 with len := 64 }, 4, 0, 64000, none, 64, false⟩

/-- Transit 64 of East has opened, 64 µs later. East's event queue is one record below HIGH, and its Scorebook takes no
timeouts. -/
def strayDue : State :=
  { (strayBound.fset (MRD_TN_LO .east) MRD_TN_LO_TN 64).fset (REF_CLS .east 6) REF_CLS_SB 0 with
    net := { netReset with tags := [(tagKey 1 0, strayEntry)] } }

/-- The timeout's own event raises EVQ_HI, so the stray tenant counts as in reset: the read is logged and gets no completion. -/
theorem strayDue_sent :
    sentAfter (exec (.completionTimeout .east) strayDue) = [.aer strayTenant 32 aerCTO (hdrOf .mRd 7 0 64)] := by
  decide +kernel

/-- Refutes O27: its clause on an entry that is due at a boundary does not say that the tenant is one of T00 to T63. Of a tenant
0x400 the timeout's event itself sets what stands at the place of RST, so the read is logged but not answered (R218). -/
theorem not_responsesAndTimeouts : ¬ Obligations.ResponsesAndTimeouts := by
  intro H
  obtain ⟨-, -, -, -, -, hdue, -⟩ :=
    H strayDue 1 0 ⟨.cpl, 0, false, 64, true, false, false, 0, .noop, 0, 0, 0, false, 0⟩ .east strayEntry (tagKey 1 0)
  obtain ⟨t, -, ht, -, -, -, hrsp, -⟩ := hdue (by decide +kernel) (by decide +kernel) rfl rfl (by decide) rfl
    (by decide +kernel) (by decide +kernel)
  have hsent : t.sent = [.aer strayTenant 32 aerCTO (hdrOf .mRd 7 0 64)] := by rw [← strayDue_sent, ht, sentAfter]
  rw [hsent] at hrsp
  exact Sent.noConfusion (List.mem_singleton.mp hrsp)

end Sys2Proof.Machine
end

section
/-! PROOFS. The invariant of the Tirop pairs under a Tirop instruction (R56, R57, R505). -/

namespace Sys2Proof.Machine

open Sys2Proof

/-! ### What an event leaves of the pairs: each goes on as it was, or stops (R57, R59, R61) -/

/-- A pair that runs in t ran in s, at the same cycle, with the same loops and held outputs. -/
def pairsGoOn (s t : State) : Prop := ∀ g, running (t.trp.get g) = true →
  running (s.trp.get g) = true ∧ (t.trp.get g).bc = (s.trp.get g).bc ∧ (t.trp.get g).loops = (s.trp.get g).loops
    ∧ (t.trp.get g).held = (s.trp.get g).held

theorem half_eq_other {g h : Half} (hne : g ≠ h) : g = h.other := by
  cases g <;> cases h
  · exact absurd rfl hne
  · rfl
  · rfl
  · exact absurd rfl hne

theorem pairsGoOn_of_trp_eq {s t : State} (h : t.trp = s.trp) : pairsGoOn s t := fun g hr => by
  rw [h] at hr ⊢
  exact ⟨hr, rfl, rfl, rfl⟩

theorem pairsGoOn_refl (s : State) : pairsGoOn s s := pairsGoOn_of_trp_eq rfl

theorem pairsGoOn_trans {s t u : State} (h1 : pairsGoOn s t) (h2 : pairsGoOn t u) : pairsGoOn s u := fun g hr => by
  obtain ⟨hr2, hb2, hl2, ho2⟩ := h2 g hr
  obtain ⟨hr1, hb1, hl1, ho1⟩ := h1 g hr2
  exact ⟨hr1, hb2.trans hb1, hl2.trans hl1, ho2.trans ho1⟩

theorem arrivalsOnly_pairsGoOn {s t : State} (h : arrivalsOnly s t) : pairsGoOn s t := fun g hr => by
  rw [h g] at hr ⊢
  exact ⟨hr, rfl, rfl, rfl⟩

/-- One pair changes, and where it still runs it is at the same cycle, with the same loops and held outputs. -/
theorem pairsGoOn_modTrp (s : State) (h : Half) (f : Trp → Trp)
    (hf : ∀ t, running (f t) = true → running t = true ∧ (f t).bc = t.bc ∧ (f t).loops = t.loops ∧ (f t).held = t.held) :
    pairsGoOn s (s.modTrp h f) := fun g hr => by
  by_cases hg : g = h
  · subst hg
    rw [State.modTrp, Pair.get_set] at hr ⊢
    exact hf _ hr
  · rw [State.modTrp, half_eq_other hg, Pair.get_set_other] at hr ⊢
    exact ⟨hr, rfl, rfl, rfl⟩

theorem pairsGoOn_halted (s : State) (h : Half) (f : Trp → Trp) (hf : ∀ t, running (f t) = false) :
    pairsGoOn s (s.modTrp h f) :=
  pairsGoOn_modTrp s h f fun t hr => absurd hr (by rw [hf t]; exact Bool.false_ne_true)

theorem pairsGoOn_ite {s a b : State} (c : Prop) [Decidable c] (ha : pairsGoOn s a) (hb : pairsGoOn s b) :
    pairsGoOn s (if c then a else b) := iteInduction (motive := pairsGoOn s) (fun _ => ha) fun _ => hb

theorem record_pairsGoOn (s : State) (h : Half) (sp : EvSpec) (sev : Nat) : pairsGoOn s (record s h sp sev) :=
  arrivalsOnly_pairsGoOn (record_recordOnly s h sp sev).2

theorem enterHold_pairsGoOn (s : State) (h : Half) : pairsGoOn s (enterHold s h) := by
  unfold enterHold
  dsimp only
  refine pairsGoOn_trans (pairsGoOn_trans (pairsGoOn_ite _ ?_ ?_) (pairsGoOn_halted _ h _ fun _ => rfl))
    (pairsGoOn_of_trp_eq (State.fset_trp _ _ _ _))
  · exact pairsGoOn_of_trp_eq rfl
  · exact pairsGoOn_of_trp_eq rfl

theorem retireUnit_pairsGoOn (s : State) (h : Half) (k i : Nat) : pairsGoOn s (retireUnit s h k i) := by
  have hretired : pairsGoOn s (s.fset (REF_LCNT h k i) REF_LCNT_RETIRED 1) := pairsGoOn_of_trp_eq rfl
  unfold retireUnit
  dsimp only
  split
  · exact pairsGoOn_trans (pairsGoOn_trans hretired (enterHold_pairsGoOn _ h)) (record_pairsGoOn _ _ _ _)
  all_goals exact pairsGoOn_trans (pairsGoOn_of_trp_eq rfl) (record_pairsGoOn _ _ _ _)

theorem leakyAdd_trp (s : State) (h : Half) (sp : EvSpec) (sev : Nat) : (leakyAdd s h sp sev).trp = s.trp := by
  unfold leakyAdd
  split
  · split <;> rfl
  · rfl

/-- An event stops a pair or leaves it as it was. -/
theorem raise_pairsGoOn (s : State) (h : Half) (sp : EvSpec) : pairsGoOn s (raise s h sp) := by
  refine iteInduction (motive := pairsGoOn s) (fun _ => ?_) fun _ => pairsGoOn_refl s
  unfold raiseLive
  dsimp only
  generalize sevOf sp.cls sp.cause = sev
  have hfatal := pairsGoOn_ite (sev = 5) (arrivalsOnly_pairsGoOn (fatalDevice_arrivalsOnly s h)) (pairsGoOn_refl s)
  have hrec := pairsGoOn_trans (pairsGoOn_trans hfatal (pairsGoOn_of_trp_eq (leakyAdd_trp _ h sp sev)))
    (record_pairsGoOn _ h sp sev)
  split
  · exact pairsGoOn_trans hrec (retireUnit_pairsGoOn _ h _ _)
  · exact hrec

/-! ### The end of a Transit that is cut off (R57, R515) -/

theorem unfreezePage_trp (s : State) (b : Half) : (unfreezePage s b).trp = s.trp := rfl

theorem freezePage_trp (s : State) (b : Half) : (freezePage s b).trp = s.trp := by
  unfold freezePage
  dsimp only
  split <;> rfl

theorem discardTransit_pairsGoOn (s : State) (h : Half) : pairsGoOn s (discardTransit s h) := by
  unfold discardTransit
  exact pairsGoOn_trans (pairsGoOn_ite _ (pairsGoOn_of_trp_eq (unfreezePage_trp s h)) (pairsGoOn_refl s))
    (pairsGoOn_halted _ h _ fun _ => rfl)

theorem cutoff_pairsGoOn (s : State) (h : Half) : pairsGoOn s (cutoff s h) := by
  unfold cutoff
  split
  · exact pairsGoOn_trans (discardTransit_pairsGoOn s h) (pairsGoOn_modTrp _ h _ fun _ hr => ⟨hr, rfl, rfl, rfl⟩)
  · exact pairsGoOn_trans (discardTransit_pairsGoOn s h) (pairsGoOn_trans (pairsGoOn_of_trp_eq rfl) (raise_pairsGoOn _ h _))

theorem tFault_pairsGoOn (s : State) (h : Half) (code : Nat) : pairsGoOn s (tFault s h code) := by
  unfold tFault
  split
  · exact cutoff_pairsGoOn s h
  · have hcount : pairsGoOn s (s.fbump (TRP_ERRCNT1 h) TRP_ERRCNT1_FAULT_CNT 1) := pairsGoOn_of_trp_eq rfl
    refine pairsGoOn_trans (pairsGoOn_ite _ hcount (pairsGoOn_of_trp_eq ?_)) (cutoff_pairsGoOn _ h)
    rw [State.wr64_trp, State.fsets_trp, State.fbump_trp]

/-! ### What a CS read leaves of the pairs (R6, R10, R27) -/

theorem csDecodeError_pairsGoOn (s : State) (h : Half) (a : Nat) : pairsGoOn s (csDecodeError s h a) :=
  pairsGoOn_trans (pairsGoOn_of_trp_eq rfl) (raise_pairsGoOn _ h _)

theorem csUnreachable_pairsGoOn (s : State) (h : Half) (a : Nat) : pairsGoOn s (csUnreachable s h a) :=
  pairsGoOn_trans (pairsGoOn_of_trp_eq rfl) (raise_pairsGoOn _ h _)

theorem drawNonce_trp (s : State) : (drawNonce s).trp = s.trp := by
  have hwords (l : List Nat) : ∀ u : State, (l.foldl (fun s k =>
      s.draw.2.wr (MRD_DBG_NONCE k) (BitVec.ofNat 32 s.draw.1)) u).trp = u.trp := by
    induction l with
    | nil => exact fun _ => rfl
    | cons k r ih => exact fun u => ih _
  exact hwords _ _

theorem readReg_trp (s : State) (m : Master) (d : RegDesc) (k : Nat) : (readReg s m d k).2.trp = s.trp := by
  unfold readReg
  split
  · rfl
  · dsimp only
    generalize hu : (if k = MRD_DBG_NONCE 0 then drawNonce s else s) = u
    have htrp : u.trp = s.trp := by
      rw [← hu]
      split
      · exact drawNonce_trp s
      · rfl
    rw [← htrp]
    split <;> split <;> rfl

theorem csRead_pairsGoOn (s : State) (h : Half) (a : Nat) : pairsGoOn s (csRead s (.tirop h) a).2 := by
  unfold csRead
  dsimp only
  split
  · exact csDecodeError_pairsGoOn s _ _
  · simp only [dbgGate]
    split
    · exact pairsGoOn_of_trp_eq (readReg_trp s _ _ _)
    · exact csUnreachable_pairsGoOn s _ _

theorem csLoad_pairsGoOn (s : State) (h : Half) (a : Nat) : pairsGoOn s (csLoad s h a).2 := by
  unfold csLoad
  split
  · exact pairsGoOn_refl s
  · exact csRead_pairsGoOn s h a

/-- One word of a load: all ones where its data is late and no held value stands for it (R507). -/
def loadWord (s : State) (h : Half) (late : Bool) (a : Nat) : Word × State :=
  if late ∧ heldCs (s.trp.get h).held a = none then (0xFFFFFFFF, csUnreachable s h a) else csLoad s h a

theorem csLoads_cons (s : State) (h : Half) (late : Bool) (a : Nat) (r : List Nat) :
    csLoads s h late (a :: r)
      = ((loadWord s h late a).1.toNat + (csLoads (loadWord s h late a).2 h late r).1 * 2 ^ 32,
          (csLoads (loadWord s h late a).2 h late r).2) := by
  rw [csLoads, loadWord]

theorem loadWord_pairsGoOn (s : State) (h : Half) (late : Bool) (a : Nat) : pairsGoOn s (loadWord s h late a).2 := by
  unfold loadWord
  split
  · exact csUnreachable_pairsGoOn s h a
  · exact csLoad_pairsGoOn s h a

theorem csLoads_pairsGoOn (s : State) (h : Half) (late : Bool) (l : List Nat) : pairsGoOn s (csLoads s h late l).2 := by
  induction l generalizing s with
  | nil => exact pairsGoOn_refl s
  | cons a r ih =>
    rw [csLoads_cons]
    exact pairsGoOn_trans (loadWord_pairsGoOn s h late a) (ih _)

/-! ### The invariant over both pairs -/

/-- The invariant of both pairs. -/
def pairsInv (s : State) : Prop := ∀ g, pairInv (s.trp.get g)

/-- Whatever a command answers next keeps the invariant. -/
def answersInv (o : Host.Outcome State Fault Refusal) : Prop := ∀ t, o = .next t → pairsInv t

theorem answersInv_next {t : State} (h : pairsInv t) : answersInv (.next t) := fun u hu => by
  cases hu
  exact h

theorem pairsInv_goOn {s t : State} (hs : pairsInv s) (h : pairsGoOn s t) : pairsInv t := fun g hr => by
  obtain ⟨hrun, hbc, hloops, hheld⟩ := h g hr
  rw [hbc, hloops, hheld]
  exact hs g hrun

theorem pairsInv_modTrp {s : State} {h : Half} {f : Trp → Trp} (hs : pairsInv s) (hf : pairInv (f (s.trp.get h))) :
    pairsInv (s.modTrp h f) := fun g => by
  by_cases hg : g = h
  · subst hg
    rwa [State.modTrp, Pair.get_set]
  · rw [State.modTrp, half_eq_other hg, Pair.get_set_other]
    exact hs _

theorem pairsInv_ite {a b : State} (c : Prop) [Decidable c] (ha : pairsInv a) (hb : pairsInv b) :
    pairsInv (if c then a else b) := iteInduction (motive := pairsInv) (fun _ => ha) fun _ => hb

/-! ### Running one instruction (R49, R57, R497) -/

section

variable {s : State} (hs : pairsInv s) (h : Half) (i : Instr) (cost : Nat)

include hs

/-- An instruction keeps the invariant if its effect does, without moving BC: its cycles end by cycle 960. -/
theorem tirRun_pairsInv (chk : Option Nat) (f : State → State)
    (hf : atInstr s h i cost → chk = none → pairsInv (f s)
      ∧ (running ((f s).trp.get h) = true → ((f s).trp.get h).bc = (s.trp.get h).bc)) :
    pairsInv (tirRun s h i cost chk f) := by
  unfold tirRun
  dsimp only
  refine iteInduction (motive := pairsInv) (fun _ => hs) fun hrun => ?_
  refine iteInduction (motive := pairsInv) (fun _ => pairsInv_goOn hs (cutoff_pairsGoOn s h)) fun hlt => ?_
  split
  · exact pairsInv_goOn hs (tFault_pairsGoOn s h _)
  · next j hj =>
    refine iteInduction (motive := pairsInv) (fun hi => ?_) fun _ => hs
    split
    · exact pairsInv_goOn hs (tFault_pairsGoOn s h _)
    · refine iteInduction (motive := pairsInv) (fun _ => pairsInv_goOn hs (cutoff_pairsGoOn s h)) fun hfit => ?_
      obtain ⟨hinv, hbc⟩ := hf ⟨by simpa using hrun, hj.trans (congrArg some hi), by omega, by omega⟩ rfl
      refine pairsInv_modTrp hinv fun hr => ?_
      obtain ⟨-, hloops, hheld⟩ := hinv h hr
      have hend : ((f s).trp.get h).bc + cost ≤ 960 := by rw [hbc hr]; omega
      exact ⟨hend, hloops, hheld⟩

/-- The same for an effect on the pair alone. -/
theorem tirRun_modTrp_pairsInv (chk : Option Nat) (f : State → Trp → Trp)
    (hf : atInstr s h i cost → chk = none → pairInv (f s (s.trp.get h)) ∧ (f s (s.trp.get h)).bc = (s.trp.get h).bc) :
    pairsInv (tirRun s h i cost chk fun s => s.modTrp h (f s)) := by
  refine tirRun_pairsInv hs h i cost chk _ fun hi hc => ?_
  obtain ⟨hinv, hbc⟩ := hf hi hc
  exact ⟨pairsInv_modTrp hs hinv, fun _ => by rwa [State.modTrp, Pair.get_set]⟩

/-- An instruction that writes registers and flags alone. -/
theorem tirRun_regs_pairsInv (chk : Option Nat) (f : State → Trp → Trp)
    (hf : ∀ t, f s t = { t with w := (f s t).w, zf := (f s t).zf, nf := (f s t).nf, cf := (f s t).cf, vf := (f s t).vf }) :
    pairsInv (tirRun s h i cost chk fun s => s.modTrp h (f s)) := by
  refine tirRun_modTrp_pairsInv hs h i cost chk f fun _ _ => ?_
  rw [hf]
  exact ⟨hs h, rfl⟩

theorem tirReg_answersInv (f : Trp → Trp)
    (hf : ∀ t, f t = { t with w := (f t).w, zf := (f t).zf, nf := (f t).nf, cf := (f t).cf, vf := (f t).vf }) :
    answersInv (tirReg s h i cost f) := answersInv_next (tirRun_regs_pairsInv hs h i cost none (fun _ => f) hf)

theorem tirShut_modTrp_pairsInv (chk : Option Nat) (f : State → Trp → Trp)
    (hf : pairInv (f s (s.trp.get h)) ∧ (f s (s.trp.get h)).bc = (s.trp.get h).bc) :
    pairsInv (tirShut s h i cost chk fun s => s.modTrp h (f s)) :=
  iteInduction (motive := pairsInv) (fun _ => hs) fun _ => tirRun_modTrp_pairsInv hs h i _ chk f fun _ _ => hf

/-- Outputs are held only while the limits of R56 allow them. -/
theorem holdOuts_pairsInv (chk : Option Nat) (os : List TOut) : pairsInv (holdOuts s h i cost chk os) := by
  refine iteInduction (motive := pairsInv) (fun _ => pairsInv_goOn hs (tFault_pairsGoOn s h _)) fun hno => ?_
  refine tirRun_modTrp_pairsInv hs h i cost chk (fun _ t => { t with held := t.held ++ os }) fun ⟨hrun, hfetch, _, hfit⟩ hc => ⟨fun _ => ?_, rfl⟩
  obtain ⟨hbc, hloops, -⟩ := hs h hrun
  refine ⟨hbc, hloops, ?_⟩
  by_contra hlim
  exact hno ⟨hrun, hfetch, hc, hfit, Bool.eq_false_iff.mpr hlim⟩

theorem tableRows_pairsInv (ts : List RowTable) (rs : Reg) (n c0 c1 : Nat) :
    pairsInv (tableRows s h i ts rs n c0 c1) := by
  unfold tableRows
  split
  · exact tirRun_pairsInv hs h i _ _ _ fun _ hc => absurd hc nofun
  · exact holdOuts_pairsInv hs h i _ none _

end

/-! ### Handler dispatch (R51) -/

/-- A pair that runs goes on into a handler that fits, or stops. -/
theorem dispatchFrom_pairsInv {s : State} (hs : pairsInv s) (h : Half) (hrun : running (s.trp.get h) = true) (l : List HEvt) :
    pairsInv (dispatchFrom s h l) := by
  induction l with
  | nil => exact pairsInv_goOn hs (pairsGoOn_halted s h _ fun _ => rfl)
  | cons e r ih =>
    unfold dispatchFrom startHandler
    dsimp only
    refine iteInduction (motive := pairsInv) (fun _ => ih) fun _ => ?_
    refine iteInduction (motive := pairsInv) (fun hfit => ?_) fun _ => ?_
    · have hwords : pairsGoOn s (s.wrWords (TRP_SCRATCH h (0x3F00 / 4)) (recWords e.evt)) :=
        pairsGoOn_of_trp_eq (State.wrWords_trp _ _ _)
      obtain ⟨-, -, hheld⟩ := hs h hrun
      refine pairsInv_modTrp (pairsInv_goOn hs hwords) fun _ => ?_
      rw [State.wrWords_trp]
      exact ⟨(Nat.le_add_right _ _).trans hfit, Nat.zero_le 2, hheld⟩
    · refine pairsInv_goOn (s := State.fbump _ _ _ _) ?_ (arrivalsOnly_pairsGoOn (tally_recordOnly _ _ _ _ _ _).2)
      refine pairsInv_goOn ?_ (pairsGoOn_of_trp_eq (State.fbump_trp _ _ _ _))
      exact pairsInv_goOn hs (pairsGoOn_halted s h _ fun _ => rfl)

theorem execHalt_answersInv {s : State} (hs : pairsInv s) (h : Half) : answersInv (execHalt h s) := by
  refine answersInv_next ?_
  dsimp only
  refine iteInduction (motive := pairsInv) (fun hat => ?_) fun _ => tirRun_pairsInv hs h _ 1 none id fun _ _ => ⟨hs, fun _ => rfl⟩
  obtain ⟨hrun, hbc, -⟩ := hat
  obtain ⟨-, -, hheld⟩ := hs h hrun
  refine dispatchFrom_pairsInv (pairsInv_modTrp hs fun _ => ?_) h ?_ _
  · exact ⟨hbc, Nat.zero_le 2, hheld⟩
  · rwa [State.modTrp, Pair.get_set]

/-! ### Loops (R505) -/

theorem popLoops_length_le (target : Nat) (l : List LoopRec) : (popLoops target l).length ≤ l.length := by
  induction l with
  | nil => exact Nat.le_refl 0
  | cons x r ih =>
    unfold popLoops
    split
    · exact Nat.le_succ_of_le ih
    · exact Nat.le_refl _

theorem endlStep_loops_length_le (t : Trp) : (endlStep t).loops.length ≤ t.loops.length := by
  unfold endlStep
  split
  · exact Nat.le_refl _
  · next hl =>
    rw [hl]
    split
    · exact Nat.le_succ _
    · exact Nat.le_refl _

theorem endlStep_held (t : Trp) : (endlStep t).held = t.held := by
  unfold endlStep
  split
  · rfl
  · split <;> rfl

theorem endlStep_bc (t : Trp) : (endlStep t).bc = t.bc := by
  unfold endlStep
  split
  · rfl
  · split <;> rfl

/-! ### SCAN's reference updates count toward no limit (R56, R511) -/

theorem limitsOk_append_refs (l : List TOut) {r : List TOut} (hr : ∀ o ∈ r, ∃ k v, o = .ref k v) :
    limitsOk (l ++ r) = limitsOk l := by
  have skip (f : Nat → TOut → Nat) (hf : ∀ n k v, f n (.ref k v) = n) (n : Nat) : (l ++ r).foldl f n = l.foldl f n := by
    rw [List.foldl_append]
    generalize l.foldl f n = m
    clear n
    induction r with
    | nil => rfl
    | cons o r ih =>
      obtain ⟨k, v, rfl⟩ := hr o List.mem_cons_self
      rw [List.foldl_cons, hf]
      exact ih fun o ho => hr o (List.mem_cons_of_mem _ ho)
  have hcs : csOuts (l ++ r) = csOuts l := skip _ (fun _ _ _ => rfl) 0
  have hscr : scrOuts (l ++ r) = scrOuts l := skip _ (fun _ _ _ => rfl) 0
  have hrefill : refillOuts (l ++ r) = refillOuts l := skip _ (fun _ _ _ => rfl) 0
  have hrow : rowOuts (l ++ r) = rowOuts l := skip _ (fun _ _ _ => rfl) 0
  rw [limitsOk, hcs, hscr, hrefill, hrow, limitsOk]

theorem scanLoop_refs (s : State) (t : Trp) (level : Bool) (f n c : Nat) :
    ∀ o ∈ (scanLoop s t level f n c).2, ∃ k v, o = .ref k v := by
  induction n generalizing c with
  | zero => exact fun o ho => absurd ho List.not_mem_nil
  | succ n ih =>
    unfold scanLoop
    dsimp only
    split
    · exact ih _
    · intro o ho
      obtain rfl | ho := List.mem_cons.mp ho
      · exact ⟨_, _, rfl⟩
      · exact ih _ o ho

/-! ### Each instruction -/

theorem execNop_answersInv {s : State} (hs : pairsInv s) (h : Half) (e : Ecc) : answersInv (execNop h e s) := by
  unfold execNop
  split
  · refine answersInv_next (pairsInv_ite _ (pairsInv_ite _ ?_ ?_) hs)
    · exact pairsInv_goOn hs (cutoff_pairsGoOn s h)
    · exact pairsInv_goOn hs (tFault_pairsGoOn s h _)
  · exact answersInv_next (tirRun_pairsInv hs h _ 1 none id fun _ _ => ⟨hs, fun _ => rfl⟩)

theorem execLdCs_answersInv {s : State} (hs : pairsInv s) (h : Half) (rd rs : Reg) (nb d : Bool) (x : Imm) (late : Bool) :
    answersInv (execLdCs h rd rs nb d x late s) := by
  refine answersInv_next (tirRun_pairsInv hs h _ _ _ _ fun _ _ => ?_)
  have hgo := csLoads_pairsGoOn s h late (csWords (csAddr (s.trp.get h) rs nb d x) d)
  have hset := fun v => pairsGoOn_trans hgo (pairsGoOn_modTrp _ h (fun t => t.setReg rd v) fun _ hr => ⟨hr, rfl, rfl, rfl⟩)
  refine ⟨pairsInv_goOn hs (hset _), fun hr => ?_⟩
  obtain ⟨-, hbc, -⟩ := hset _ h hr
  exact hbc

theorem execLdScratch_answersInv {s : State} (hs : pairsInv s) (h : Half) (rd rs : Reg) (nb d : Bool) (off : BitVec 14)
    (e : Ecc) : answersInv (execLdScratch h rd rs nb d off e s) := by
  unfold execLdScratch
  dsimp only
  split
  · refine answersInv_next (pairsInv_goOn hs ?_)
    exact pairsGoOn_trans (tFault_pairsGoOn s h _) (pairsGoOn_of_trp_eq (State.wr64_trp _ _ _))
  · exact answersInv_next (tirRun_regs_pairsInv hs h _ 2 none _ fun _ => rfl)

theorem execBranch_answersInv {s : State} (hs : pairsInv s) (h : Half) (cond : BitVec 4) (off : BitVec 14) :
    answersInv (execBranch h cond off s) := by
  refine answersInv_next (tirRun_pairsInv hs h _ _ _ _ fun hi _ => ?_)
  obtain ⟨hrun, -⟩ := hi
  obtain ⟨hbc, hloops, hheld⟩ := hs h hrun
  split
  · refine ⟨pairsInv_modTrp hs fun _ => ⟨hbc, ?_, hheld⟩, fun _ => by rw [State.modTrp, Pair.get_set]⟩
    exact (popLoops_length_le _ _).trans hloops
  · exact ⟨hs, fun _ => rfl⟩

theorem execLoop_answersInv {s : State} (hs : pairsInv s) (h : Half) (len : BitVec 12) (count : BitVec 14) :
    answersInv (execLoop h len count s) := by
  refine answersInv_next (tirRun_modTrp_pairsInv hs h _ _ _ _ fun hi hc => ⟨fun _ => ?_, rfl⟩)
  obtain ⟨hrun, -⟩ := hi
  obtain ⟨hbc, -, hheld⟩ := hs h hrun
  refine ⟨hbc, ?_, hheld⟩
  have hroom : ¬ 2 ≤ (s.trp.get h).loops.length := fun h2 => by simp [h2] at hc
  exact Nat.succ_le_of_lt (Nat.not_le.mp hroom)

theorem execEndl_answersInv {s : State} (hs : pairsInv s) (h : Half) : answersInv (execEndl h s) := by
  refine answersInv_next (tirRun_modTrp_pairsInv hs h _ _ _ _ fun hi _ => ⟨fun _ => ?_, endlStep_bc _⟩)
  obtain ⟨hrun, -⟩ := hi
  obtain ⟨hbc, hloops, hheld⟩ := hs h hrun
  rw [endlStep_bc, endlStep_held]
  exact ⟨hbc, (endlStep_loops_length_le _).trans hloops, hheld⟩

theorem execBind_answersInv {s : State} (hs : pairsInv s) (h : Half) (rs : Reg) (n : BitVec 14) :
    answersInv (execBind h rs n s) := by
  have hrows := tableRows_pairsInv hs h (.bind h rs n) (bindTables h) rs n.toNat 16 8
  refine answersInv_next (pairsInv_ite _ ?_ hrows)
  exact pairsInv_goOn hrows (pairsGoOn_of_trp_eq (freezePage_trp _ h))

theorem execScan_answersInv {s : State} (hs : pairsInv s) (h : Half) (rd rs : Reg) (n : BitVec 14) :
    answersInv (execScan h rd rs n s) := by
  refine answersInv_next (tirShut_modTrp_pairsInv hs h _ _ _ _ ⟨fun hr => ?_, rfl⟩)
  obtain ⟨hbc, hloops, hheld⟩ := hs h hr
  exact ⟨hbc, hloops, (limitsOk_append_refs _ (scanLoop_refs _ _ _ _ _ _)).trans hheld⟩

/-- A Tirop instruction keeps the invariant of both pairs. -/
theorem exec_tirop_answersInv {s : State} (hs : pairsInv s) {i : Instr} {h : Half} (hi : tiropHalf i = some h) :
    answersInv (exec i s) := by
  cases i with
  | nop g e => exact execNop_answersInv hs g e
  | halt g => exact execHalt_answersInv hs g
  | mov | movs | movi | add | sub | tand | tor | txor | shl | shr | sar | cmp | tst | mul | addi | subi | andi | ori
  | xori | shli | shri | sari | cmpi | tsti | bfx | bfi =>
    exact tirReg_answersInv hs _ _ _ _ fun _ => rfl
  | ldCs g rd rs nb d x late => exact execLdCs_answersInv hs g rd rs nb d x late
  | ldScratch g rd rs nb d off e => exact execLdScratch_answersInv hs g rd rs nb d off e
  | stCs | stScratch | plate | arm | send => exact answersInv_next (holdOuts_pairsInv hs _ _ _ _ _)
  | smp g rd rs k => exact answersInv_next (tirShut_modTrp_pairsInv hs g _ _ _ _ ⟨hs g, rfl⟩)
  | branch g cond off => exact execBranch_answersInv hs g cond off
  | loop g len count => exact execLoop_answersInv hs g len count
  | endl g => exact execEndl_answersInv hs g
  | refill | unbind | shut => exact answersInv_next (tableRows_pairsInv hs _ _ _ _ _ _ _)
  | bind g rs n => exact execBind_answersInv hs g rs n
  | fence g rs => exact answersInv_next (tirRun_regs_pairsInv hs g _ _ _ _ fun _ => rfl)
  | scan g rd rs n => exact execScan_answersInv hs g rd rs n
  | _ => exact absurd hi nofun

/-- Settles O13: a step of a Tirop instruction is that instruction on the state with the queue's rest, whose pairs are the same. -/
theorem pairInvariantKept : Obligations.PairInvariantKept := by
  intro s t i rest h hp hi hs ht
  have hstep : step s = exec i { s with pending := rest } := by rw [step, hp]
  exact exec_tirop_answersInv (s := { s with pending := rest }) hs hi t (hstep.symm.trans ht)

end Sys2Proof.Machine
end

section
/-! PROOFS. Loads, stores and samples of a Tirop pair (R44, R54, R506, R507, R509). -/

namespace Sys2Proof.Machine

open Sys2Proof

/-! ### The registers of a pair (R497) -/

@[simp] theorem reg_setReg_same (t : Trp) (r : Reg) (v : BitVec 64) : (t.setReg r v).reg r = v := by
  show (t.w.set r.toNat v r.isLt)[r.toNat] = v
  exact Vector.getElem_set_self r.isLt

theorem reg_setReg_ne (t : Trp) {r q : Reg} (v : BitVec 64) (h : q ≠ r) : (t.setReg r v).reg q = t.reg q := by
  show (t.w.set r.toNat v r.isLt)[q.toNat] = t.w[q.toNat]
  exact Vector.getElem_set_ne r.isLt q.isLt fun he => h (BitVec.eq_of_toNat_eq he.symm)

/-! ### An instruction whose effect on the pair reads the machine -/

theorem tirRun_modTrp_eq (s : State) (h : Half) (i : Instr) (cost : Nat) (f : State → Trp → Trp) (hi : atInstr s h i cost) :
    Host.Outcome.next (tirRun s h i cost none fun s => s.modTrp h (f s))
      = pairNext s h ((f s (s.trp.get h)).ran1 cost (tiropLen i)) := by
  rw [tirRun_eq s h i cost _ hi, ← tirRun_eq s h i cost (fun s' => s'.modTrp h (f s)) hi]
  exact tirRun_pair s h i cost (f s) hi

/-! ### Scratch (R44, R506) -/

theorem rd64_lt (s : State) (a : Nat) : s.rd64 a < 2 ^ 64 := by
  have hlo := (s.rd a).isLt
  have hhi := (s.rd (a + 4)).isLt
  unfold State.rd64
  omega

theorem scrLive_toNat (s : State) (h : Half) (i : Nat) : (scrLive s h i).toNat = s.rd64 (TRP_SCRATCH h (2 * i)) := by
  rw [scrLive, BitVec.toNat_ofNat, Nat.mod_eq_of_lt (rd64_lt s _)]

/-- A load of scratch sees the pair's own last store of this Transit, else the word as it stands (R54). -/
theorem scrLoad_cases (s : State) (h : Half) (i : Nat) :
    heldScr (s.trp.get h).held i = some (scrLoad s h i)
      ∨ heldScr (s.trp.get h).held i = none ∧ (scrLoad s h i).toNat = s.rd64 (TRP_SCRATCH h (2 * i)) := by
  cases hh : heldScr (s.trp.get h).held i with
  | some v => exact .inl (by rw [scrLoad, hh, Option.getD_some])
  | none => exact .inr ⟨rfl, by rw [scrLoad, hh, Option.getD_none, scrLive_toNat]⟩

theorem exec_ldScratch (s : State) (h : Half) (rd rs : Reg) (nb d : Bool) (off : BitVec 14) {e : Ecc} (he : e ≠ .double)
    (hi : atInstr s h (.ldScratch h rd rs nb d off e) 2) :
    exec (.ldScratch h rd rs nb d off e) s
      = pairNext s h (((s.trp.get h).setReg rd (scrLoad s h (scrIndex (s.trp.get h) rs nb off))).ran1 2 1) := by
  show execLdScratch h rd rs nb d off e s = _
  unfold execLdScratch
  dsimp only
  rw [if_neg fun hc => he hc.1]
  exact tirRun_modTrp_eq s h _ 2 (fun s t => t.setReg rd (scrLoad s h _)) hi

/-- A store to scratch is held; one into 0x3F00-0x3FFF is discarded (R44). -/
theorem exec_stScratch (s : State) (h : Half) (rd rs : Reg) (nb d : Bool) (off : BitVec 14) {os : List TOut}
    (hi : atInstr s h (.stScratch h rd rs nb d off) 2)
    (hos : (if 2016 ≤ scrIndex (s.trp.get h) rs nb off then []
      else [.scr (scrIndex (s.trp.get h) rs nb off) ((s.trp.get h).reg rd)]) = os)
    (hl : limitsOk ((s.trp.get h).held ++ os) = true) :
    exec (.stScratch h rd rs nb d off) s
      = pairNext s h (({ s.trp.get h with held := (s.trp.get h).held ++ os } : Trp).ran1 2 1) := by
  subst hos
  exact holdOuts_eq s h (.stScratch h rd rs nb d off) 2 _ hi hl

/-! ### Control Space (R54, R506, R507) -/

section

variable {s : State} {h : Half} {rd rs : Reg} {nb : Bool} {x : Imm} {c : Nat} (hc : lsCost (s.trp.get h) h rs nb false x = some c)

include hc

theorem exec_stCs (hi : atInstr s h (.stCs h rd rs nb false x) c) {os : List TOut}
    (hos : [.cs (csAddr (s.trp.get h) rs nb false x) (((s.trp.get h).reg rd).extractLsb' 0 32)] = os)
    (hl : limitsOk ((s.trp.get h).held ++ os) = true) :
    exec (.stCs h rd rs nb false x) s
      = pairNext s h (({ s.trp.get h with held := (s.trp.get h).held ++ os } : Trp).ran1 c (immWords x)) := by
  have hword (v : BitVec 64) : BitVec.ofNat 32 v.toNat = v.extractLsb' 0 32 := BitVec.eq_of_toNat_eq (by simp)
  have hlen : tiropLen (.stCs h rd rs nb false x) = immWords x := encI_length _ _ _ _ _
  show execStCs h rd rs nb false x s = _
  unfold execStCs
  simp only [hc, hword, hos, Option.getD_some, Option.isSome_some, if_true, Bool.false_eq_true, if_false]
  rw [← hlen]
  exact holdOuts_eq s h _ c os hi hl

/-- A load of one word: what it brings, and what reading it leaves. -/
theorem exec_ldCs {late : Bool} (hi : atInstr s h (.ldCs h rd rs nb false x late) c) {w : Word} {u : State}
    (hw : loadWord s h late (csAddr (s.trp.get h) rs nb false x) = (w, u)) :
    exec (.ldCs h rd rs nb false x late) s
      = pairNext u h (((u.trp.get h).setReg rd (w.zeroExtend 64)).ran1 c (immWords x)) := by
  have hlen : tiropLen (.ldCs h rd rs nb false x late) = immWords x := encI_length _ _ _ _ _
  have hload : csLoads s h late (csWords (csAddr (s.trp.get h) rs nb false x) false) = (w.toNat, u) := by
    simp only [csWords, Bool.false_eq_true, if_false, csLoads_cons, hw, csLoads, Nat.zero_mul, Nat.add_zero]
  have hval : BitVec.ofNat 64 w.toNat = w.zeroExtend 64 := BitVec.ofNat_toNat _ _
  show execLdCs h rd rs nb false x late s = _
  unfold execLdCs
  dsimp only
  simp only [hc, Option.getD_some, Option.isSome_some, if_true]
  rw [tirRun_eq s h _ c _ hi]
  simp only [hload, hval, hlen, advance, State.modTrp, pairNext, Pair.get_set, Pair.set_set, Trp.ran1]

end

theorem loadWord_held {s : State} {h : Half} {late : Bool} {a : Nat} {v : Word} (hv : heldCs (s.trp.get h).held a = some v) :
    loadWord s h late a = (v, s) := by
  simp [loadWord, csLoad, hv]

/-- Late data reads as all ones (R507). -/
theorem loadWord_late {s : State} {h : Half} {a : Nat} (hv : heldCs (s.trp.get h).held a = none) :
    loadWord s h true a = (0xFFFFFFFF, csUnreachable s h a) := by
  simp [loadWord, hv]

/-! ### The Shutter samples (R48, R509) -/

theorem exec_smp {s : State} {h : Half} {rd rs : Reg} {k : BitVec 14} {ch : Nat} (hch : ((s.trp.get h).reg rs).toNat = ch)
    (hr : (s.trp.get h).samplesReady = true) (hs : serves h ch = true) (hk : k.toNat ≤ 10)
    (hi : atInstr s h (.smp h rd rs k) (120 - (s.trp.get h).bc + 4)) :
    exec (.smp h rd rs k) s = pairNext s h
      (((s.trp.get h).setReg rd (smpVal (smpWord s ch k.toNat) k.toNat)).ran1 (120 - (s.trp.get h).bc + 4) 1) := by
  show execSmp h rd rs k s = _
  subst hch
  unfold execSmp tirShut
  dsimp only
  rw [if_neg (by simp [hr]), if_pos ⟨hs, hk⟩]
  exact tirRun_modTrp_eq s h _ _ (fun s t => t.setReg rd (smpVal (smpWord s _ k.toNat) k.toNat)) hi

theorem smpVal_low (v : Word) (k : Nat) : (smpVal v k).extractLsb' 0 32 = v := by
  unfold smpVal
  split
  · ext i hi
    have h64 : i < 64 := by omega
    simp [BitVec.getElem_signExtend, hi, h64]
  · ext i hi
    have h64 : i < 64 := by omega
    simp [hi, h64]

theorem smpVal_signed (v : Word) {k : Nat} (hk : k = 4 ∨ k = 5 ∨ k = 7) : (smpVal v k).toInt = v.toInt := by
  rw [smpVal, if_pos hk]
  exact BitVec.toInt_signExtend_of_le (by decide)

theorem smpVal_unsigned (v : Word) {k : Nat} (hk : ¬ (k = 4 ∨ k = 5 ∨ k = 7)) : (smpVal v k).toNat = v.toNat := by
  rw [smpVal, if_neg hk]
  exact BitVec.toNat_setWidth_of_le (by decide)

/-- Settles O7, clause by clause: scratch, then Control Space, then the samples. -/
theorem tiropLoadsAndStores : Obligations.TiropLoadsAndStores := by
  intro s h rd rs nb d x off k e c v t b i a hold ch
  refine ⟨fun he hi => ?_, fun hi hl hlt => ?_, fun hi hl hge => ?_, fun hc hi hl => ?_, fun hc hi hv => ?_,
    fun hc hi hv => ?_, fun hr hs hk hi => ?_⟩
  · exact ⟨_, exec_ldScratch s h rd rs nb d off he hi, scrLoad_cases s h i⟩
  · exact exec_stScratch s h rd rs nb d off hi (if_neg (Nat.not_le.mpr hlt)) hl
  · exact exec_stScratch s h rd rs nb d off hi (if_pos hge) (by rwa [List.append_nil])
  · exact exec_stCs hc hi rfl hl
  · exact exec_ldCs hc hi (loadWord_held hv)
  · refine ⟨_, exec_ldCs hc hi (loadWord_late hv), ?_⟩
    rw [Pair.get_set]
    exact reg_setReg_same _ _ _
  · refine ⟨_, exec_smp rfl hr hs hk hi, smpVal_low _ _, smpVal_signed _, fun h4 h5 h7 => smpVal_unsigned _ ?_⟩
    exact fun hk => hk.elim h4 fun hk => hk.elim h5 h7

end Sys2Proof.Machine
end

section
/-! PROOFS. HALT and handler dispatch (R50, R51, R53). -/

namespace Sys2Proof.Machine

open Sys2Proof

/-- The pair of half h as HALT leaves it when dispatch begins. -/
def haltedPair (t : Trp) : Trp := { t with bc := t.bc + 1, loops := [], pc := t.pc + 1 }

theorem exec_halt {s : State} {h : Half} (hi : atInstr s h (.halt h) 1) :
    exec (.halt h) s = .next (dispatchFrom (s.modTrp h haltedPair) h (s.trp.get h).hlist) := by
  obtain ⟨hrun, hfetch, hbc, -⟩ := hi
  have hlist : ((s.modTrp h haltedPair).trp.get h).hlist = (s.trp.get h).hlist := by
    rw [State.modTrp, Pair.get_set]
    rfl
  rw [← hlist]
  exact congrArg Host.Outcome.next (if_pos ⟨hrun, hbc, hfetch⟩)

/-! ### The handler words (R45) -/

/-- The handler words are those of the bank that the pair runs, whatever else of the pair has changed. -/
theorem hndWord_modTrp (s : State) (h : Half) (f : Trp → Trp) (hf : ∀ t, (f t).requal = t.requal) (cls : Nat) :
    hndWord (s.modTrp h f) h cls = hndWord s h cls := by
  have hrun : runBank (s.modTrp h f) h = runBank s h := runBank_congr rfl (by rw [State.modTrp, Pair.get_set, hf])
  rw [hndWord, bankWord, hrun, State.modTrp_rd, hndWord, bankWord]

/-- No handler word lies in the record that a handler gets at scratch 0x3F00. -/
theorem hndWord_wrRecord (s : State) (h : Half) (e : Evt) {cls : Nat} (hcls : cls < 32) :
    hndWord (s.wrWords (TRP_SCRATCH h 0xFC0) (recWords e)) h cls = hndWord s h cls := by
  have hctl : (s.wrWords (TRP_SCRATCH h 0xFC0) (recWords e)).rd (TRP_CTL h) = s.rd (TRP_CTL h) :=
    (onlyRegs_wrWords _ s _).2 _ (by rw [recWords_length]; cases h <;> decide)
  have hrun : runBank (s.wrWords (TRP_SCRATCH h 0xFC0) (recWords e)) h = runBank s h :=
    runBank_congr hctl (by rw [State.wrWords_trp])
  have hb := runBank_lt s h
  have hbelow : TRP_BANK h (runBank s h) (8 + cls) < TRP_SCRATCH h 0xFC0 := by
    simp only [TRP_BANK, TRP_SCRATCH]
    omega
  rw [hndWord, bankWord, hrun, rd_wrWords_lt _ _ hbelow, hndWord, bankWord]

/-! ### Dispatch (R51, R53) -/

section

variable {s : State} {h : Half} {e : HEvt} {r : List HEvt} (hv : hndValid (hndWord s h e.evt.cls) = true)

include hv

theorem dispatchFrom_fits (hfit : (s.trp.get h).bc + 4 + hndWcet (hndWord s h e.evt.cls) ≤ 960) :
    dispatchFrom s h (e :: r) = startHandler s h e r := by
  rw [dispatchFrom]
  exact (if_neg (by simp [hv])).trans (if_pos hfit)

/-- Dispatch stops at an event that does not fit: of the pairs, only the one of half h changes, but for later arrivals. -/
theorem dispatchFrom_defers (hno : 960 < (s.trp.get h).bc + 4 + hndWcet (hndWord s h e.evt.cls)) :
    arrivalsOnly
      (s.modTrp h fun t => { t with hlist := (e :: r).map fun x => { x with deferred := x.deferred + 1 }, phase := .idle })
      (dispatchFrom s h (e :: r)) := by
  have hstop : dispatchFrom s h (e :: r) = tally ((s.modTrp h fun t =>
      { t with hlist := (e :: r).map fun x => { x with deferred := x.deferred + 1 }, phase := .idle }).fbump
      (TRP_DEFER h) TRP_DEFER_DEFER_CNT (r.length + 1)) h 9 1 0 (r.length + 1) := by
    rw [dispatchFrom]
    exact (if_neg (by simp [hv])).trans (if_neg (Nat.not_le.mpr hno))
  rw [hstop]
  exact arrivalsOnly_trans (arrivalsOnly_of_trp_eq (State.fbump_trp _ _ _ _)) (tally_recordOnly _ _ _ _ _ _).2

end

/-! ### The start of a handler (R51) -/

section

variable (s : State) (h : Half) (e : HEvt) (r : List HEvt)

theorem startHandler_pair (hcls : e.evt.cls < 32) :
    (startHandler s h e r).trp.get h =
      { ((s.trp.get h).setReg 14 (BitVec.ofNat 64 e.evt.cls)).setReg 15 0x3F00 with
          bc := (s.trp.get h).bc + 4, pc := hndEntry (hndWord s h e.evt.cls), phase := .handler, hlist := r,
          dispatched := (s.trp.get h).dispatched ++ [⟨e.evt, 0, false⟩], loops := [] } := by
  rw [← hndWord_wrRecord s h e.evt hcls]
  unfold startHandler
  rw [State.modTrp, Pair.get_set, State.wrWords_trp]

theorem startHandler_regs (a : Nat) :
    (startHandler s h e r).rd a = (s.wrWords (TRP_SCRATCH h 0xFC0) (recWords e.evt)).rd a := by
  rw [startHandler, State.modTrp_rd]

/-- The handler's record stands at scratch 0x3F00. -/
theorem startHandler_record {k : Nat} (hk : k < 8) :
    (startHandler s h e r).rd (TRP_SCRATCH h (0xFC0 + k)) = (recWords e.evt).getD k 0 := by
  have haddr : TRP_SCRATCH h (0xFC0 + k) = TRP_SCRATCH h 0xFC0 + 4 * k := by
    simp only [TRP_SCRATCH]
    omega
  rw [haddr, startHandler_regs]
  exact rd_wrWords (recWords e.evt) s (TRP_SCRATCH h 0xFC0) hk

/-- No other register changes. -/
theorem startHandler_rd {a : Nat} (ha : a < TRP_SCRATCH h 0xFC0 ∨ TRP_SCRATCH h 0xFC8 ≤ a) :
    (startHandler s h e r).rd a = s.rd a := by
  rw [startHandler_regs]
  refine (onlyRegs_wrWords (recWords e.evt) s (TRP_SCRATCH h 0xFC0)).2 a ?_
  simp only [recWords_length, List.mem_map, List.mem_range, not_exists, not_and, TRP_SCRATCH] at ha ⊢
  omega

end

/-- Settles O9: the handler's start where it fits, and the deferral of the whole list where it does not. -/
theorem haltStartsHandler : Obligations.HaltStartsHandler := by
  intro s h e r t w
  have hget : (s.modTrp h haltedPair).trp.get h = haltedPair t := Pair.get_set _ _ _
  have hw : hndWord (s.modTrp h haltedPair) h e.evt.cls = w := hndWord_modTrp s h haltedPair (fun _ => rfl) _
  refine ⟨fun hi hl hcls hv hfit => ?_, fun hi hl hv hno => ?_⟩
  · refine ⟨startHandler (s.modTrp h haltedPair) h e r, ?_, ?_⟩
    · rw [exec_halt hi, hl, dispatchFrom_fits (by rwa [hw])]
      rw [hget, hw]
      exact hfit
    · rw [startHandler_pair _ h e r hcls, hget, hw]
      refine ⟨rfl, rfl, rfl, ?_, reg_setReg_same _ _ _, rfl, rfl, rfl, fun k hk => startHandler_record _ h e r hk,
        fun a ha => startHandler_rd _ h e r ha⟩
      have h14 := reg_setReg_ne ((haltedPair t).setReg 14 (BitVec.ofNat 64 e.evt.cls)) 0x3F00 (show (14 : Reg) ≠ 15 by decide)
      rw [reg_setReg_same] at h14
      refine (congrArg BitVec.toNat h14).trans ?_
      rw [BitVec.toNat_ofNat]
      omega
  · have hdefer := dispatchFrom_defers (s := s.modTrp h haltedPair) (h := h) (r := r) (by rwa [hw])
      (by rw [hget, hw]; exact hno) h
    refine ⟨dispatchFrom (s.modTrp h haltedPair) h (e :: r), by rw [exec_halt hi, hl], ?_⟩
    rw [hdefer, State.modTrp, Pair.get_set, hget, hl]
    exact ⟨rfl, rfl, rfl, by rw [List.map_map]; rfl, by rw [List.map_map]; rfl⟩

end Sys2Proof.Machine
end

section
/-! PROOFS. The Shutter samples, the cutoff and the handler backlog (R48, R53, R57). -/

namespace Sys2Proof.Machine

open Sys2Proof

theorem modTrp_modTrp (s : State) (h : Half) (f g : Trp → Trp) :
    (s.modTrp h f).modTrp h g = s.modTrp h fun t => g (f t) := by
  simp only [State.modTrp, Pair.get_set, Pair.set_set]

/-! ### The samples become readable (R48) -/

/-- The records of the n channels from c on become readable. -/
def samplesReady (s : State) (c n : Nat) : State :=
  (List.range n).foldl (fun s i => s.modChan (c + i) fun x => { x with ready := x.smp }) s

theorem chan_modChan_same (s : State) (c : Nat) (f : Chan → Chan) : (s.modChan c f).chan c = f (s.chan c) := by
  simp only [State.chan, State.modChan, mfind_minsert_same, Option.getD_some]

theorem chan_modChan_ne (s : State) {c k : Nat} (f : Chan → Chan) (h : k ≠ c) : (s.modChan c f).chan k = s.chan k := by
  simp only [State.chan, State.modChan, mfind_minsert_ne _ _ h]

/-- Only the channels differ; those from c to c + n - 1 have their new records readable, the others are as they were. -/
theorem samplesReady_frame (s : State) (c n : Nat) :
    samplesReady s c n = { s with chans := (samplesReady s c n).chans }
      ∧ (∀ k, c ≤ k → k < c + n → (samplesReady s c n).chan k = { s.chan k with ready := (s.chan k).smp })
      ∧ ∀ k, k < c ∨ c + n ≤ k → (samplesReady s c n).chan k = s.chan k := by
  induction n with
  | zero => exact ⟨rfl, fun k h1 h2 => absurd h1 (by omega), fun _ _ => rfl⟩
  | succ n ih =>
    obtain ⟨hframe, hin, hout⟩ := ih
    have hlast : samplesReady s c (n + 1) = (samplesReady s c n).modChan (c + n) fun x => { x with ready := x.smp } := by
      rw [samplesReady, List.range_succ, List.foldl_append]
      rfl
    rw [hlast]
    refine ⟨?_, fun k h1 h2 => ?_, fun k hk => ?_⟩
    · rw [hframe]
      rfl
    · by_cases hk : k = c + n
      · rw [hk, chan_modChan_same, hout _ (by omega)]
      · rw [chan_modChan_ne _ _ hk, hin k h1 (by omega)]
    · rw [chan_modChan_ne _ _ (by omega), hout k (by omega)]

theorem exec_shutterSamplesReady (s : State) (h : Half) :
    exec (.shutterSamplesReady h) s
      = .next ((samplesReady s (16 * h.idx) 16).modTrp h fun t => { t with samplesReady := true }) := rfl

/-- The channels that a half serves (R15). -/
theorem chanHalf_eq_iff {c : Nat} (hc : c < 32) (h : Half) : chanHalf c = h ↔ 16 * h.idx ≤ c ∧ c < 16 * h.idx + 16 := by
  unfold chanHalf
  cases h <;> simp only [Half.idx] <;> split <;> simp <;> omega

/-! ### The cutoff at cycle 960 (R57, R428) -/

/-- A pair whose outputs are discarded: it stops, and its dispatched events return to the head of the list (R57, R59). -/
def stoppedPair (t : Trp) : Trp :=
  { t with phase := .stopped, held := [], hlist := t.dispatched ++ t.hlist, dispatched := [], loops := [] }

theorem discardTransit_noGen {s : State} {h : Half} (hg : holdsGen (s.trp.get h) = false) :
    discardTransit s h = s.modTrp h stoppedPair := by
  unfold discardTransit
  rw [hg]
  rfl

theorem cutoff_noRequal {s : State} {h : Half} (hq : (s.trp.get h).requal = none) (hg : holdsGen (s.trp.get h) = false) :
    cutoff s h = raise (((s.modTrp h stoppedPair).fset (TRP_STAT h) TRP_STAT_CUTOFF 1).fbump
      (TRP_ERRCNT h) TRP_ERRCNT_CUTOFF_CNT 1) h (evtU 2 0 0 0 0 0) := by
  rw [← discardTransit_noGen hg, cutoff, hq]

theorem cutoff_requal {s : State} {h : Half} {q : Bool × Nat} (hq : (s.trp.get h).requal = some q)
    (hg : holdsGen (s.trp.get h) = false) :
    cutoff s h = (s.modTrp h stoppedPair).modTrp h fun t => { t with requalBad := true } := by
  rw [← discardTransit_noGen hg, cutoff, hq]

/-- The pair when BC reaches 960. -/
def sealedPair (t : Trp) : Trp := { t with sealed := true, bc := if running t then 960 else t.bc }

theorem exec_tiropCutoff (s : State) (h : Half) :
    exec (.tiropCutoff h) s
      = .next (if running (s.trp.get h) then cutoff (s.modTrp h sealedPair) h else s.modTrp h sealedPair) := by
  have hrun : running ((s.modTrp h sealedPair).trp.get h) = running (s.trp.get h) := by
    rw [State.modTrp, Pair.get_set]
    rfl
  rw [← hrun]
  rfl

/-- What BC's reaching 960 makes of a pair that runs. -/
theorem sealedPair_running {t : Trp} (hr : running t = true) : sealedPair t = { t with sealed := true, bc := 960 } := by
  rw [sealedPair, if_pos hr]

theorem sealedPair_halted {t : Trp} (hr : running t = false) : sealedPair t = { t with sealed := true } := by
  rw [sealedPair, hr]
  rfl

/-! ### The backlog of the handler list (R53) -/

/-- An event deferred for 64 Transits, marked as reported. -/
def toldEvt (e : HEvt) : HEvt := if 64 ≤ e.deferred then { e with told := true } else e

/-- Is an event due to be reported? -/
def backlogged (e : HEvt) : Bool := decide (64 ≤ e.deferred) && !e.told

theorem backlogged_iff (e : HEvt) : backlogged e = true ↔ 64 ≤ e.deferred ∧ e.told = false := by
  simp [backlogged]

/-- To mark the events that are due is to mark all of 64 Transits: the others of them are marked. -/
theorem toldEvt_eq (e : HEvt) : (if backlogged e then { e with told := true } else e) = toldEvt e := by
  obtain ⟨evt, deferred, told⟩ := e
  cases told <;> simp [backlogged, toldEvt]

theorem exec_handlerBacklog_none {s : State} {h : Half} (hno : ∀ e ∈ (s.trp.get h).hlist, backlogged e = false) :
    exec (.handlerBacklog h) s = .next s := by
  refine if_neg (α := Host.Outcome State Fault Refusal) fun hany => ?_
  obtain ⟨e, he, hb⟩ := List.any_eq_true.mp hany
  exact absurd ((hno e he).symm.trans hb) Bool.false_ne_true

theorem exec_handlerBacklog_some {s : State} {h : Half} (hyes : ∃ e ∈ (s.trp.get h).hlist, backlogged e = true) :
    exec (.handlerBacklog h) s
      = .next (raise (s.modTrp h fun t => { t with hlist := t.hlist.map toldEvt }) h (evtU 2 2 0 0 0 0)) := by
  rw [← funext toldEvt_eq]
  exact if_pos (List.any_eq_true.mpr hyes)

/-- Settles O18, clause by clause: the samples, the cutoff and the backlog. -/
theorem samplesCutoffAndBacklog : Obligations.SamplesCutoffAndBacklog := by
  intro s h rq t ended told
  have hget : (s.modTrp h sealedPair).trp.get h = sealedPair t := Pair.get_set _ _ _
  have hended (hr : running t = true) : stoppedPair (sealedPair t) = ended := by
    rw [sealedPair_running hr]
    rfl
  refine ⟨?_, fun hr => ?_, fun hr hq hg => ?_, fun hr hq hg => ?_, fun hno => ?_, fun ⟨e, he, h64, htold⟩ => ?_⟩
  · obtain ⟨hframe, hin, hout⟩ := samplesReady_frame s (16 * h.idx) 16
    rw [exec_shutterSamplesReady]
    generalize samplesReady s (16 * h.idx) 16 = u at hframe hin hout
    have htrp : u.trp = s.trp := by rw [hframe]
    refine ⟨_, rfl, by rw [State.modTrp, htrp], by rw [State.modTrp, hframe], fun c hc hch => ?_, fun c hc hch => ?_⟩
    · obtain ⟨h1, h2⟩ := (chanHalf_eq_iff hc h).mp hch
      exact hin c h1 h2
    · obtain ⟨h1, h2⟩ := (chanHalf_eq_iff hc h.other).mp hch
      refine hout c ?_
      cases h <;> simp only [Half.idx, Half.other] at h1 h2 ⊢ <;> omega
  · rw [exec_tiropCutoff, hr, if_neg Bool.false_ne_true, State.modTrp, sealedPair_halted hr]
  · rw [exec_tiropCutoff, hr, if_pos rfl, cutoff_noRequal (by rw [hget]; exact hq) (by rw [hget]; exact hg), modTrp_modTrp,
      State.modTrp, hended hr]
  · rw [exec_tiropCutoff, hr, if_pos rfl, cutoff_requal (by rw [hget]; exact hq) (by rw [hget]; exact hg), modTrp_modTrp,
      modTrp_modTrp, State.modTrp, hended hr]
  · exact exec_handlerBacklog_none fun e he => Bool.eq_false_iff.mpr fun hb => by
      obtain ⟨h64, htold⟩ := (backlogged_iff e).mp hb
      obtain h | h := hno e he
      · omega
      · exact absurd (htold.symm.trans h) Bool.false_ne_true
  · exact exec_handlerBacklog_some ⟨e, he, (backlogged_iff e).mpr ⟨h64, htold⟩⟩

end Sys2Proof.Machine
end

section
/-! PROOFS. The program banks and their takeover (R43, R65, R67). -/

namespace Sys2Proof.Machine

open Sys2Proof

/-! ### RUN and SEL (R43) -/

section

variable (s : State) {m : Master} {h : Half} (hm : mayAct s m (TRP_CTL h))

include hm

theorem exec_trpRunSet : exec (.trpRunSet m h) s = .next (runWrite s h true) :=
  congrArg Host.Outcome.next (csGate_mayAct s m _ _ hm)

theorem exec_trpRunClear : exec (.trpRunClear m h) s = .next (runWrite s h false) :=
  congrArg Host.Outcome.next (csGate_mayAct s m _ _ hm)

theorem exec_trpSelWrite (sel : Bool) : exec (.trpSelWrite m h sel) s = .next (selWrite s h sel.toNat) :=
  congrArg Host.Outcome.next (csGate_mayAct s m _ _ hm)

end

theorem ctl_ne_stat (h : Half) : TRP_CTL h ≠ TRP_STAT h := by cases h <;> decide

/-- SEL and ACTIVE name the bank, and nothing else changes. -/
theorem setSel_frame (s : State) (h : Half) (b : Nat) :
    onlyRegs [TRP_CTL h, TRP_STAT h] s (setSel s h b)
      ∧ fieldSet (s.rd (TRP_CTL h)) ((setSel s h b).rd (TRP_CTL h)) TRP_CTL_SEL b
      ∧ fieldSet (s.rd (TRP_STAT h)) ((setSel s h b).rd (TRP_STAT h)) TRP_STAT_ACTIVE b := by
  obtain ⟨hctl, hsel⟩ := onlyField_fset s (TRP_CTL h) TRP_CTL_SEL b (by decide)
  obtain ⟨hstat, hactive⟩ := onlyField_fset (s.fset (TRP_CTL h) TRP_CTL_SEL b) (TRP_STAT h) TRP_STAT_ACTIVE b (by decide)
  rw [rd_fset_ne s _ _ (ctl_ne_stat h).symm] at hactive
  refine ⟨onlyRegs_trans hctl hstat, ?_, hactive⟩
  rw [setSel, rd_fset_ne _ _ _ (ctl_ne_stat h)]
  exact hsel

/-! ### Bank words (R43) -/

section

variable {s : State} {m : Master} {h : Half} {b : Bool} {i : BitVec 14} (hm : mayAct s m (TRP_BANK h b.toNat i.toNat)) (v : Word)

include hm

theorem exec_bankWrite : exec (.bankWrite m h b i v) s = .next (bankWriteAt s h b.toNat i.toNat v) :=
  congrArg Host.Outcome.next (csGate_mayAct s m _ _ hm)

theorem exec_bankWrite_taken
    (hopen : ¬ (s.fget (TRP_CTL h) TRP_CTL_RUN = 1 ∧ (b.toNat = s.fget (TRP_CTL h) TRP_CTL_SEL
      ∨ s.fget (TRP_SWAP_STAT h) TRP_SWAP_STAT_STATE = 1))) :
    exec (.bankWrite m h b i v) s = .next (s.wr (TRP_BANK h b.toNat i.toNat) v)
      ∧ (s.wr (TRP_BANK h b.toNat i.toNat) v).rd (TRP_BANK h b.toNat i.toNat) = v :=
  ⟨(exec_bankWrite hm v).trans (congrArg _ (if_neg hopen)), rd_wr_same _ _ _⟩

theorem exec_bankWrite_lost
    (hshut : s.fget (TRP_CTL h) TRP_CTL_RUN = 1 ∧ (b.toNat = s.fget (TRP_CTL h) TRP_CTL_SEL
      ∨ s.fget (TRP_SWAP_STAT h) TRP_SWAP_STAT_STATE = 1)) :
    exec (.bankWrite m h b i v) s = .next (writeDiscarded s h (TRP_BANK h b.toNat i.toNat)) :=
  (exec_bankWrite hm v).trans (congrArg _ (if_pos hshut))

end

/-! ### One register, and the pairs -/

/-- Beside the pairs, only the register at a differs. -/
def regOnly (a : Nat) (s t : State) : Prop :=
  t = { s with regs := t.regs, trp := t.trp } ∧ ∀ b, b ≠ a → t.rd b = s.rd b

theorem regOnly_refl (a : Nat) (s : State) : regOnly a s s := ⟨rfl, fun _ _ => rfl⟩

theorem regOnly_fset {a : Nat} {s t : State} (h : regOnly a s t) (f : Fld) (n : Nat) : regOnly a s (t.fset a f n) :=
  ⟨congrArg (fun u : State => u.fset a f n) h.1, fun b hb => (rd_fset_ne t f n hb).trans (h.2 b hb)⟩

theorem regOnly_modTrp {a : Nat} {s t : State} (ht : regOnly a s t) (h : Half) (f : Trp → Trp) : regOnly a s (t.modTrp h f) :=
  ⟨congrArg (fun u : State => u.modTrp h f) ht.1, ht.2⟩

/-! ### A write of TRP_SWAP_CTL (R67) -/

/-- PAIR and MODE of a write of TRP_SWAP_CTL. -/
def swapCtl (s : State) (h : Half) (pair mode : Bool) : State :=
  (s.fset (TRP_SWAP_CTL h) TRP_SWAP_CTL_PAIR pair.toNat).fset (TRP_SWAP_CTL h) TRP_SWAP_CTL_MODE mode.toNat

theorem swapCtl_eq (s : State) (h : Half) (pair mode : Bool) :
    s.fsets (TRP_SWAP_CTL h) [(TRP_SWAP_CTL_PAIR, pair.toNat), (TRP_SWAP_CTL_MODE, mode.toNat)] = swapCtl s h pair mode := rfl

theorem exec_swapRequest (s : State) {m : Master} {h : Half} (hm : mayAct s m (TRP_SWAP_CTL h)) (pair mode ab : Bool) :
    exec (.swapRequest m h pair mode ab) s = .next
      (swapRequest (if ab then swapAbort (swapCtl s h pair mode) h else swapCtl s h pair mode) h pair mode) := by
  show execSwapRequest m h pair mode ab s = _
  rw [execSwapRequest, csGate_mayAct s m _ _ hm, swapCtlWrite, swapCtl_eq, if_pos rfl]

theorem exec_swapAbort (s : State) {m : Master} {h : Half} (hm : mayAct s m (TRP_SWAP_CTL h)) (pair mode : Bool) :
    exec (.swapAbort m h pair mode) s = .next (swapAbort (swapCtl s h pair mode) h) := by
  show execSwapAbort m h pair mode s = _
  rw [execSwapAbort, csGate_mayAct s m _ _ hm, swapCtlWrite, swapCtl_eq, if_pos rfl, if_neg Bool.false_ne_true]

theorem swapCtl_regOnly (s : State) (h : Half) (pair mode : Bool) : regOnly (TRP_SWAP_CTL h) s (swapCtl s h pair mode) :=
  regOnly_fset (regOnly_fset (regOnly_refl _ s) _ _) _ _

theorem swapCtl_trp (s : State) (h : Half) (pair mode : Bool) : (swapCtl s h pair mode).trp = s.trp := rfl

theorem swapStat_ne_ctl (h : Half) : TRP_SWAP_STAT h ≠ TRP_SWAP_CTL h := by cases h <;> decide

theorem swapCtl_stat (s : State) (h : Half) (pair mode : Bool) :
    (swapCtl s h pair mode).rd (TRP_SWAP_STAT h) = s.rd (TRP_SWAP_STAT h) :=
  (swapCtl_regOnly s h pair mode).2 _ (swapStat_ne_ctl h)

/-- The write is taken: PAIR and MODE stand in TRP_SWAP_CTL, and of the other registers only TRP_SWAP_STAT may differ. -/
def swapAsked (s : State) (h : Half) (pair mode : Bool) (u : State) : Prop :=
  onlyRegs [TRP_SWAP_CTL h, TRP_SWAP_STAT h] { s with trp := u.trp } u
    ∧ u.fget (TRP_SWAP_CTL h) TRP_SWAP_CTL_PAIR = pair.toNat ∧ u.fget (TRP_SWAP_CTL h) TRP_SWAP_CTL_MODE = mode.toNat

theorem swapAsked_of_regOnly {s u : State} {h : Half} {pair mode : Bool}
    (hu : regOnly (TRP_SWAP_STAT h) (swapCtl s h pair mode) u) : swapAsked s h pair mode u := by
  obtain ⟨heq, hrd⟩ := hu
  obtain ⟨heq', hrd'⟩ := swapCtl_regOnly s h pair mode
  have hctl (f : Fld) : u.fget (TRP_SWAP_CTL h) f = (swapCtl s h pair mode).fget (TRP_SWAP_CTL h) f := by
    rw [State.fget, hrd _ (swapStat_ne_ctl h).symm, State.fget]
  refine ⟨⟨?_, fun b hb => ?_⟩, ?_, ?_⟩
  · rw [heq, heq']
  · rw [List.mem_cons, List.mem_singleton, not_or] at hb
    exact (hrd b hb.2).trans (hrd' b hb.1)
  · rw [hctl, swapCtl, fget_fset_ne _ _ _ _ _ (by decide) (by decide), fget_fset_same _ _ _ _ (by decide)]
    cases pair <;> rfl
  · rw [hctl, swapCtl, fget_fset_same _ _ _ _ (by decide)]
    cases mode <;> rfl

/-! ### A takeover that ends ABORTED (R65) -/

theorem swapAbortWith_regOnly {s v : State} {h : Half} (hv : regOnly (TRP_SWAP_STAT h) s v) (why : Nat) :
    regOnly (TRP_SWAP_STAT h) s (swapAbortWith v h why) := regOnly_fset (regOnly_fset hv _ _) _ _

theorem swapAbortWith_state (v : State) (h : Half) (why : Nat) :
    (swapAbortWith v h why).fget (TRP_SWAP_STAT h) TRP_SWAP_STAT_STATE = 3 := by
  rw [swapAbortWith, fget_fset_ne _ _ _ _ _ (by decide) (by decide), fget_fset_same _ _ _ _ (by decide)]
  rfl

theorem swapAbortWith_reason (v : State) (h : Half) {why : Nat} (hwhy : why < 256) :
    (swapAbortWith v h why).fget (TRP_SWAP_STAT h) TRP_SWAP_STAT_REASON = why := by
  rw [swapAbortWith, fget_fset_same _ _ _ _ (by decide)]
  exact Nat.mod_eq_of_lt hwhy

/-! ### A request for a takeover (R65) -/

/-- TRP_SWAP_STAT with REASON and TOO_LATE cleared, as a request begins. -/
def swapCleared (s : State) (h : Half) : State :=
  (s.fset (TRP_SWAP_STAT h) TRP_SWAP_STAT_REASON 0).fset (TRP_SWAP_STAT h) TRP_SWAP_STAT_TOO_LATE 0

/-- A takeover that is PENDING for Transit `target`. -/
def swapPend (s : State) (h : Half) (target : Nat) (pair : Bool) : State :=
  ((swapCleared s h).fset (TRP_SWAP_STAT h) TRP_SWAP_STAT_STATE swPENDING).modTrp h fun t =>
    { t with swapT := target, swapPair := pair, swapGo := false }

theorem swapCleared_regOnly {s v : State} {h : Half} (hv : regOnly (TRP_SWAP_STAT h) s v) :
    regOnly (TRP_SWAP_STAT h) s (swapCleared v h) := regOnly_fset (regOnly_fset hv _ _) _ _

theorem swapPend_regOnly {s v : State} {h : Half} (hv : regOnly (TRP_SWAP_STAT h) s v) (target : Nat) (pair : Bool) :
    regOnly (TRP_SWAP_STAT h) s (swapPend v h target pair) :=
  regOnly_modTrp (regOnly_fset (swapCleared_regOnly hv) _ _) _ _

theorem swapPend_stat (s : State) (h : Half) (target : Nat) (pair : Bool) :
    (swapPend s h target pair).fget (TRP_SWAP_STAT h) TRP_SWAP_STAT_STATE = 1
      ∧ (swapPend s h target pair).fget (TRP_SWAP_STAT h) TRP_SWAP_STAT_REASON = 0
      ∧ (swapPend s h target pair).fget (TRP_SWAP_STAT h) TRP_SWAP_STAT_TOO_LATE = 0 := by
  simp only [swapPend, swapCleared, State.modTrp_fget]
  refine ⟨?_, ?_, ?_⟩
  · exact fget_fset_same _ _ _ _ (by decide)
  · rw [fget_fset_ne _ _ _ _ _ (by decide) (by decide), fget_fset_ne _ _ _ _ _ (by decide) (by decide)]
    exact fget_fset_same _ _ _ _ (by decide)
  · rw [fget_fset_ne _ _ _ _ _ (by decide) (by decide)]
    exact fget_fset_same _ _ _ _ (by decide)

theorem swapRequest_pending {v : State} {h : Half} (pair mode : Bool)
    (hp : v.fget (TRP_SWAP_STAT h) TRP_SWAP_STAT_STATE = 1) : swapRequest v h pair mode = v := if_pos hp

/-- What a request depends on lies in other registers than the two of the takeover. -/
theorem swapRequest_open {s v : State} {h : Half} (pair mode : Bool)
    (hrd : ∀ b, b ≠ TRP_SWAP_CTL h → b ≠ TRP_SWAP_STAT h → v.rd b = s.rd b)
    (hno : ¬ v.fget (TRP_SWAP_STAT h) TRP_SWAP_STAT_STATE = 1) :
    swapRequest v h pair mode =
      if s.flag (TRP_STAT h) TRP_STAT_HOLD = true ∨ s.fget (TRP_CTL h) TRP_CTL_RUN = 0 then swapAbortWith (swapCleared v h) h 6
      else if swapTarget s h mode < s.tn h + 2 then swapAbortWith (swapCleared v h) h 2
      else swapPend v h (swapTarget s h mode) pair := by
  have hclear (b : Nat) (h1 : b ≠ TRP_SWAP_CTL h) (h2 : b ≠ TRP_SWAP_STAT h) : (swapCleared v h).rd b = s.rd b :=
    ((swapCleared_regOnly (regOnly_refl _ v)).2 b h2).trans (hrd b h1 h2)
  have hhold : (swapCleared v h).flag (TRP_STAT h) TRP_STAT_HOLD = s.flag (TRP_STAT h) TRP_STAT_HOLD := by
    rw [State.flag, State.fget, hclear _ (by cases h <;> decide) (by cases h <;> decide), State.flag, State.fget]
  have hrun : (swapCleared v h).fget (TRP_CTL h) TRP_CTL_RUN = s.fget (TRP_CTL h) TRP_CTL_RUN := by
    rw [State.fget, hclear _ (by cases h <;> decide) (by cases h <;> decide), State.fget]
  have htn : (swapCleared v h).tn h = s.tn h := rd64_congr (hclear _ (by cases h <;> decide) (by cases h <;> decide))
    (hclear _ (by cases h <;> decide) (by cases h <;> decide))
  have htarget : swapTarget v h mode = swapTarget s h mode := by
    have hat : v.rd64 (TRP_SWAP_AT_LO h) = s.rd64 (TRP_SWAP_AT_LO h) := rd64_congr
      (hrd _ (by cases h <;> decide) (by cases h <;> decide)) (hrd _ (by cases h <;> decide) (by cases h <;> decide))
    rw [swapTarget, hat, swapTarget]
  rw [← hhold, ← hrun, ← htn, ← htarget]
  exact if_neg hno

/-! ### An abort (R67) -/

/-- Cycle 960 of the Transit before the takeover's has come. -/
def swapLate (s : State) (h : Half) : Prop :=
  (s.trp.get h).swapGo = true ∨ ((s.trp.get h).sealed = true ∧ s.tn h + 1 = (s.trp.get h).swapT)

section

variable {v : State} {h : Half}

theorem swapAbort_none (hno : ¬ v.fget (TRP_SWAP_STAT h) TRP_SWAP_STAT_STATE = 1) : swapAbort v h = v := if_neg hno

theorem swapAbort_late (hp : v.fget (TRP_SWAP_STAT h) TRP_SWAP_STAT_STATE = 1) (hl : swapLate v h) :
    swapAbort v h = v.fset (TRP_SWAP_STAT h) TRP_SWAP_STAT_TOO_LATE 1 := (if_pos hp).trans (if_pos hl)

theorem swapAbort_inTime (hp : v.fget (TRP_SWAP_STAT h) TRP_SWAP_STAT_STATE = 1) (hl : ¬ swapLate v h) :
    swapAbort v h = swapAbortWith v h 1 := (if_pos hp).trans (if_neg hl)

end

theorem swapLate_swapCtl (s : State) (h : Half) (pair mode : Bool) : swapLate (swapCtl s h pair mode) h ↔ swapLate s h := by
  have htn : (swapCtl s h pair mode).tn h = s.tn h := by
    have hrd := (swapCtl_regOnly s h pair mode).2
    exact rd64_congr (hrd _ (by cases h <;> decide)) (hrd _ (by cases h <;> decide))
  rw [swapLate, htn, swapCtl_trp, swapLate]

/-! ### The clauses on requests and aborts -/

/-- A takeover request has ended ABORTED. -/
def swapEnds (s : State) (h : Half) (pair mode : Bool) (why : Nat) (u : State) : Prop :=
  swapAsked s h pair mode u ∧ u.fget (TRP_SWAP_STAT h) TRP_SWAP_STAT_STATE = 3
    ∧ u.fget (TRP_SWAP_STAT h) TRP_SWAP_STAT_REASON = why ∧ u.trp = s.trp

theorem swapEnds_abortWith {s v : State} {h : Half} {pair mode : Bool}
    (hv : regOnly (TRP_SWAP_STAT h) (swapCtl s h pair mode) v) (htrp : v.trp = s.trp) {why : Nat} (hwhy : why < 256) :
    swapEnds s h pair mode why (swapAbortWith v h why) :=
  ⟨swapAsked_of_regOnly (swapAbortWith_regOnly hv why), swapAbortWith_state v h why, swapAbortWith_reason v h hwhy, htrp⟩

/-- A takeover is PENDING. -/
def swapSet (s : State) (h : Half) (pair mode : Bool) (u : State) : Prop :=
  swapAsked s h pair mode u ∧ u.fget (TRP_SWAP_STAT h) TRP_SWAP_STAT_STATE = 1
    ∧ u.fget (TRP_SWAP_STAT h) TRP_SWAP_STAT_REASON = 0 ∧ u.fget (TRP_SWAP_STAT h) TRP_SWAP_STAT_TOO_LATE = 0
    ∧ u.trp = s.trp.set h { s.trp.get h with swapT := swapTarget s h mode, swapPair := pair, swapGo := false }

theorem swapSet_pend {s v : State} {h : Half} {pair mode : Bool}
    (hv : regOnly (TRP_SWAP_STAT h) (swapCtl s h pair mode) v) (htrp : v.trp = s.trp) :
    swapSet s h pair mode (swapPend v h (swapTarget s h mode) pair) := by
  obtain ⟨hstate, hreason, hlate⟩ := swapPend_stat v h (swapTarget s h mode) pair
  exact ⟨swapAsked_of_regOnly (swapPend_regOnly hv _ _), hstate, hreason, hlate, by rw [← htrp]; rfl⟩

section

variable (s : State) {m : Master} {h : Half} (hm : mayAct s m (TRP_SWAP_CTL h)) (pair mode ab : Bool)

/-- The registers that a request depends on, once TRP_SWAP_CTL is written. -/
theorem swapCtl_env {v : State} (hv : regOnly (TRP_SWAP_STAT h) (swapCtl s h pair mode) v) (b : Nat)
    (h1 : b ≠ TRP_SWAP_CTL h) (h2 : b ≠ TRP_SWAP_STAT h) : v.rd b = s.rd b :=
  (hv.2 b h2).trans ((swapCtl_regOnly s h pair mode).2 b h1)

theorem swapCtl_state (f : Fld) : (swapCtl s h pair mode).fget (TRP_SWAP_STAT h) f = s.fget (TRP_SWAP_STAT h) f := by
  rw [State.fget, swapCtl_stat, State.fget]

include hm

/-- A request with none pending, whether or not ABORT is set with it. -/
theorem exec_swapRequest_idle (hno : ¬ s.fget (TRP_SWAP_STAT h) TRP_SWAP_STAT_STATE = 1) :
    exec (.swapRequest m h pair mode ab) s = .next (swapRequest (swapCtl s h pair mode) h pair mode) := by
  rw [exec_swapRequest s hm, swapAbort_none (by rwa [swapCtl_state]), ite_self]

end

/-- Settles O19, clause by clause: RUN, SEL, the banks' words, then requests and aborts of a takeover. -/
theorem banksAreWrittenAndTakenOver : Obligations.BanksAreWrittenAndTakenOver := by
  refine ⟨fun s m h sel b i v => ?_, fun s m h pair mode ab => ?_⟩
  · intro t run cur bank pend lost
    refine ⟨exec_trpRunSet s, exec_trpRunClear s, fun hm h0 => ?_, fun hm h1 hs => ?_, fun hm h1 hs => ?_, fun hm h0 => ?_,
      fun hm h1 hb hp => ?_, fun hm h1 hshut => ?_⟩
    · exact ⟨_, (exec_trpSelWrite s hm sel).trans (congrArg _ (if_pos h0)), setSel_frame s h sel.toNat⟩
    · rw [exec_trpSelWrite s hm, selWrite, if_neg (by omega), if_pos hs]
    · rw [exec_trpSelWrite s hm, selWrite, if_neg (by omega), if_neg hs]
      exact ⟨rfl, writeDiscarded_refOnly s h _⟩
    · exact exec_bankWrite_taken hm v fun hshut => by omega
    · exact exec_bankWrite_taken hm v fun hshut => hshut.2.elim hb hp
    · exact ⟨exec_bankWrite_lost hm v ⟨h1, hshut⟩, writeDiscarded_refOnly s h _⟩
  · intro c a t st pend target held late asked set ends hm
    have hctl := regOnly_refl (TRP_SWAP_STAT h) (swapCtl s h pair mode)
    have henv := swapCtl_env s pair mode hctl
    have hstate := swapCtl_state s pair mode (h := h) TRP_SWAP_STAT_STATE
    have hlate := swapLate_swapCtl s h pair mode
    refine ⟨fun hno hfree hfar => ?_, fun hp hl hfree hfar => ?_, fun hno hfree hnear => ?_, fun hno hheld => ?_, fun hp => ?_,
      fun hp hl => ?_, fun hp hl => ?_, fun hno => ?_⟩
    · rw [exec_swapRequest_idle s hm pair mode ab hno, swapRequest_open pair mode henv (by rwa [hstate]), if_neg hfree,
        if_neg (show ¬ swapTarget s h mode < s.tn h + 2 from Nat.not_lt.mpr hfar)]
      exact ⟨_, rfl, swapSet_pend hctl rfl⟩
    · have habort := swapAbortWith_regOnly hctl 1
      rw [exec_swapRequest s hm, if_pos rfl, swapAbort_inTime (hstate.trans hp) (by rwa [hlate]),
        swapRequest_open pair mode (swapCtl_env s pair mode habort) (by rw [swapAbortWith_state]; decide), if_neg hfree,
        if_neg (show ¬ swapTarget s h mode < s.tn h + 2 from Nat.not_lt.mpr hfar)]
      exact ⟨_, rfl, swapSet_pend habort rfl⟩
    · rw [exec_swapRequest_idle s hm pair mode ab hno, swapRequest_open pair mode henv (by rwa [hstate]), if_neg hfree,
        if_pos (show swapTarget s h mode < s.tn h + 2 from hnear)]
      exact ⟨_, rfl, swapEnds_abortWith (swapCleared_regOnly hctl) rfl (by decide)⟩
    · rw [exec_swapRequest_idle s hm pair mode ab hno, swapRequest_open pair mode henv (by rwa [hstate]), if_pos hheld]
      exact ⟨_, rfl, swapEnds_abortWith (swapCleared_regOnly hctl) rfl (by decide)⟩
    · rw [exec_swapRequest s hm, if_neg Bool.false_ne_true, swapRequest_pending _ _ (hstate.trans hp)]
      exact ⟨_, rfl, swapAsked_of_regOnly hctl, swapCtl_stat s h pair mode, rfl⟩
    · rw [exec_swapAbort s hm, swapAbort_inTime (hstate.trans hp) (by rwa [hlate])]
      exact ⟨_, rfl, swapEnds_abortWith hctl rfl (by decide)⟩
    · rw [exec_swapAbort s hm, swapAbort_late (hstate.trans hp) (hlate.mpr hl)]
      refine ⟨_, rfl, swapAsked_of_regOnly (regOnly_fset hctl _ _), rfl, ?_⟩
      rw [← swapCtl_stat s h pair mode]
      exact (onlyField_fset _ _ _ _ (by decide)).2
    · rw [exec_swapAbort s hm, swapAbort_none (by rwa [hstate])]
      exact ⟨_, rfl, swapAsked_of_regOnly hctl, swapCtl_stat s h pair mode, rfl⟩

end Sys2Proof.Machine
end

section
/-! PROOFS. The seal of a Transit (R54, R55, R59, R513). -/

namespace Sys2Proof.Machine

open Sys2Proof

/-! ### Counting leaves TRP_STAT (R409, R438): an event of no unit sets no control hold -/

/-- TRP_STAT of both halves reads as before. -/
def keepsStat (s t : State) : Prop := ∀ g, t.rd (TRP_STAT g) = s.rd (TRP_STAT g)

theorem keepsStat_of_regs_eq {s t : State} (h : t.regs = s.regs) : keepsStat s t := fun g => by rw [State.rd, h, State.rd]

theorem keepsStat_refl (s : State) : keepsStat s s := fun _ => rfl

theorem keepsStat_trans {s t u : State} (h1 : keepsStat s t) (h2 : keepsStat t u) : keepsStat s u := fun g =>
  (h2 g).trans (h1 g)

/-- TRP_STAT lies below the blocks of the Photometer and the Referee. -/
theorem stat_lt_of_block {a : Nat} (ha : 0x0D000000 ≤ a) (g : Half) : TRP_STAT g < a :=
  lt_of_lt_of_le (by cases g <;> decide) ha

theorem keepsStat_wr (s : State) {a : Nat} (v : Word) (ha : ∀ g, TRP_STAT g ≠ a) : keepsStat s (s.wr a v) := fun g =>
  rd_wr_ne s v (ha g)

theorem keepsStat_fset (s : State) {a : Nat} (f : Fld) (n : Nat) (ha : ∀ g, TRP_STAT g ≠ a) : keepsStat s (s.fset a f n) :=
  keepsStat_wr s _ ha

theorem keepsStat_wrWords (s : State) {a : Nat} (ws : List Word) (ha : 0x0D000000 ≤ a) : keepsStat s (s.wrWords a ws) :=
  fun g => rd_wrWords_lt ws s (stat_lt_of_block ha g)

/-- A step that is taken under a condition. -/
theorem keepsStat_ite {s a b : State} (c : Prop) [Decidable c] (ha : keepsStat s a) (hb : keepsStat s b) :
    keepsStat s (if c then a else b) := iteInduction (motive := keepsStat s) (fun _ => ha) fun _ => hb

theorem evq_block (h : Half) (n k : Nat) : 0x0D000000 ≤ REF_EVQ h n k := by
  simp only [REF_EVQ]
  omega

theorem sb_block (h : Half) (n k : Nat) : 0x0D000000 ≤ REF_SB h n k := by
  simp only [REF_SB]
  omega

theorem evqLevel_keepsStat (s : State) (h : Half) : keepsStat s (evqLevel s h) := by
  have h0 : keepsStat s (s.fsetB (REF_STAT h) REF_STAT_EVQ_HI (evqAtHigh s h)) :=
    keepsStat_fset s _ _ fun g => by cases g <;> cases h <;> decide
  unfold evqLevel
  exact keepsStat_ite _ h0 (keepsStat_ite _ h0 h0)

theorem evqPush_keepsStat (s : State) (h : Half) (ws : List Word) : keepsStat s (evqPush s h ws) :=
  keepsStat_trans (keepsStat_trans (keepsStat_wrWords s ws (evq_block h _ _))
    (keepsStat_fset _ _ _ fun g => by cases g <;> cases h <;> decide)) (evqLevel_keepsStat _ h)

theorem evqRecord_keepsStat (s : State) (h : Half) (e : Evt) : keepsStat s (evqRecord s h e).1 := by
  have hdrop : ∀ n, keepsStat s (s.fset (REF_ERRCNT1 h) REF_ERRCNT1_EVQ_DROP_CNT n) := fun n =>
    keepsStat_fset s _ _ fun g => by cases g <;> cases h <;> decide
  unfold evqRecord
  dsimp only
  split
  · exact evqPush_keepsStat s h _
  · split
    · exact keepsStat_trans (hdrop _) (keepsStat_wr _ _ fun g => (stat_lt_of_block (evq_block h _ _) g).ne)
    · exact keepsStat_trans (hdrop _) (evqPush_keepsStat _ h _)

theorem sbRecord_keepsStat (s : State) (h : Half) (e : Evt) : keepsStat s (sbRecord s h e).1 := by
  have hptr : ∀ (u : State) f n, keepsStat u (u.fset (REF_SB_PTR h) f n) := fun u f n =>
    keepsStat_fset u f n fun g => by cases g <;> cases h <;> decide
  have hwords := fun n => keepsStat_wrWords s (recWords e) (sb_block h n 0)
  unfold sbRecord
  dsimp only
  split
  · exact keepsStat_refl s
  · exact keepsStat_trans (keepsStat_ite _ (keepsStat_trans (hwords _) (hptr _ _ _)) (hwords _)) (hptr _ _ _)

theorem alertRequest_keepsStat (s : State) : keepsStat s (alertRequest s) := by
  have hctl : ∀ (x : Alert) f n, keepsStat s (({ s with alert := x } : State).fset MRD_ALERT_CTL f n) := fun x f n =>
    keepsStat_fset { s with alert := x } f n fun g => by cases g <;> decide
  unfold alertRequest
  exact keepsStat_ite _ (keepsStat_ite _ (hctl _ _ _) (keepsStat_of_regs_eq rfl)) (hctl _ _ _)

theorem updateCopies_keepsStat (s : State) (h : Half) (e : Evt) : keepsStat s (updateCopies s h e) := by
  have hsb : keepsStat s (sbCopy s h e) := by
    unfold sbCopy
    split
    · exact keepsStat_ite _ (keepsStat_wrWords s _ (sb_block h _ _)) (keepsStat_refl s)
    · exact keepsStat_refl s
  have hevq : keepsStat (sbCopy s h e) (evqCopy (sbCopy s h e) h e) := by
    unfold evqCopy
    split
    · exact keepsStat_ite _ (keepsStat_wrWords _ _ (evq_block h _ _)) (keepsStat_refl _)
    · exact keepsStat_refl _
  exact keepsStat_trans hsb hevq

theorem putRecord_keepsStat (s : State) (h : Half) (e : Evt) : keepsStat s (putRecord s h e) := by
  have hsb := fun (u : State) n => keepsStat_wrWords u (recWords e) (sb_block h n 0)
  have hevq := fun (u : State) n => keepsStat_wrWords u (recWords e) (evq_block h n 0)
  unfold putRecord
  cases e.sbSlot <;> cases e.evqIdx
  · exact keepsStat_refl s
  · exact hevq s _
  · exact hsb s _
  · exact keepsStat_trans (hsb s _) (hevq _ _)

theorem inOrder_keepsStat (s : State) (h : Half) (e : Evt) (l : List Evt) : keepsStat s (inOrder s h e l).1 := by
  induction l generalizing s e with
  | nil => exact keepsStat_refl s
  | cons x l ih =>
    simp only [inOrder]
    split
    · exact keepsStat_trans (keepsStat_trans (putRecord_keepsStat s h _) (putRecord_keepsStat _ h _)) (ih _ _)
    · exact keepsStat_refl s

theorem newRecord_keepsStat (s : State) (h : Half) (sp : EvSpec) (sev : Nat) : keepsStat s (newRecord s h sp sev) := by
  have hseq : ∀ n, keepsStat s (s.fset (REF_SEQ h) REF_SEQ_SEQ n) := fun n =>
    keepsStat_fset s _ n fun g => by cases g <;> cases h <;> decide
  have hlost : ∀ (u : State) n, keepsStat u (u.fset (TRP_DEFER h) TRP_DEFER_LOST_CNT n) := fun u n =>
    keepsStat_fset u _ n fun g => by cases g <;> cases h <;> decide
  unfold newRecord
  dsimp only
  generalize hB : (if hlistFull s h = true then _ else s.fset (REF_SEQ h) REF_SEQ_SEQ _) = B
  have hB' : keepsStat s B := hB ▸ keepsStat_ite _ (keepsStat_trans (hseq _) (hlost _ _)) (hseq _)
  generalize hC : (if B.flag (REF_CLS h sp.cls) REF_CLS_SB = true then sbRecord B h _ else (B, none)) = C
  have hC' : keepsStat s C.1 := by
    rw [← hC, apply_ite Prod.fst]
    exact keepsStat_ite _ (keepsStat_trans hB' (sbRecord_keepsStat _ _ _)) hB'
  generalize hD : (if (B.flag (REF_CLS h sp.cls) REF_CLS_EVQ && B.flag (REF_CTL h) REF_CTL_EVQ_EN) = true then
    evqRecord C.1 h _ else (C.1, none)) = D
  have hD' : keepsStat s D.1 := by
    rw [← hD, apply_ite Prod.fst]
    exact keepsStat_ite _ (keepsStat_trans hC' (evqRecord_keepsStat _ _ _)) hC'
  have hE := keepsStat_ite (alerts D.1 h sp.cls sev = true) (keepsStat_trans hD' (alertRequest_keepsStat D.1)) hD'
  refine keepsStat_trans (keepsStat_trans (keepsStat_ite _ hE ?_) (inOrder_keepsStat _ h _ _)) (keepsStat_of_regs_eq rfl)
  exact keepsStat_trans hE (keepsStat_of_regs_eq rfl)

theorem record_keepsStat (s : State) (h : Half) (sp : EvSpec) (sev : Nat) : keepsStat s (record s h sp sev) := by
  unfold record
  split
  · exact keepsStat_trans (keepsStat_of_regs_eq rfl) (updateCopies_keepsStat _ h _)
  · exact newRecord_keepsStat s h sp sev

/-- An event of no unit that is not FATAL_DEVICE. -/
theorem raise_evt_keepsStat (s : State) (h : Half) {cls cause : Nat} (inst detail : Nat) (hsev : sevOf cls cause ≠ 5) :
    keepsStat s (raise s h (evt cls cause inst detail)) := by
  have hlive : raiseLive s h (evt cls cause inst detail) (sevOf cls cause)
      = record s h (evt cls cause inst detail) (sevOf cls cause) := by
    unfold raiseLive
    rw [if_neg hsev]
    rfl
  refine keepsStat_ite _ ?_ (keepsStat_refl s)
  exact hlive.symm ▸ record_keepsStat s h _ _

theorem phmAdd_keepsStat (s : State) (h : Half) (c k : Nat) : keepsStat s (phmAdd s h c k) := by
  have hcnt (u : State) (n v : Nat) : keepsStat u (u.wr64 (PHM_CNT_LO h n) v) := by
    have hb : 0x0D000000 ≤ PHM_CNT_LO h n := by
      simp only [PHM_CNT_LO]
      omega
    exact keepsStat_trans (keepsStat_wr u _ fun g => (stat_lt_of_block hb g).ne)
      (keepsStat_wr _ _ fun g => (stat_lt_of_block (by omega) g).ne)
  have hwrap (u : State) (i : Nat) (w : Word) : keepsStat u (u.wr (PHM_WRAP h i) w) := by
    have hb : 0x0D000000 ≤ PHM_WRAP h i := by
      simp only [PHM_WRAP]
      omega
    exact keepsStat_wr u w fun g => (stat_lt_of_block hb g).ne
  unfold phmAdd
  dsimp only
  split
  · exact hcnt s _ _
  · refine keepsStat_ite _ (keepsStat_trans ?_ (raise_evt_keepsStat _ h _ _ (by decide))) ?_
    · exact keepsStat_trans (hcnt s _ _) (hwrap _ _ _)
    · exact keepsStat_trans (hcnt s _ _) (hwrap _ _ _)

theorem tally_keepsStat (s : State) (h : Half) (u e i k : Nat) : keepsStat s (tally s h u e i k) := by
  unfold tally
  generalize (s.phm.get h).sel = l
  generalize (s.phm.get h).grp = grp
  induction l generalizing s with
  | nil => exact keepsStat_refl s
  | cons x r ih =>
    refine keepsStat_trans ?_ (ih _)
    exact keepsStat_ite _ (keepsStat_ite _ (keepsStat_refl s) (phmAdd_keepsStat s h _ _)) (keepsStat_refl s)

/-! ### Rows that a seal settles: none here (R200) -/

theorem rows_commits_nil {t : Trp} (hr : t.rows = []) (hc : t.commits = []) : { t with rows := [], commits := [] } = t := by
  cases t
  cases hr
  cases hc
  rfl

/-- Of the machine, only the items that East's rows name and their Transit differ. -/
def itemsOnly (s t : State) : Prop :=
  t.regs = s.regs ∧ ∀ g, t.trp.get g = { s.trp.get g with items := (t.trp.get g).items, itemsTn := (t.trp.get g).itemsTn }

theorem itemsOnly_refl (s : State) : itemsOnly s s := ⟨rfl, fun _ => rfl⟩

theorem itemsOnly_modTrp {s t : State} (ht : itemsOnly s t) (h : Half) (f : Trp → Trp)
    (hf : f (t.trp.get h) = { t.trp.get h with items := (f (t.trp.get h)).items, itemsTn := (f (t.trp.get h)).itemsTn }) :
    itemsOnly s (t.modTrp h f) := by
  obtain ⟨hregs, hpair⟩ := ht
  refine ⟨hregs, fun g => ?_⟩
  by_cases hg : g = h
  · subst hg
    rw [State.modTrp, Pair.get_set, hf, hpair g]
  · rw [State.modTrp, half_eq_other hg, Pair.get_set_other]
    exact hpair _

theorem discardEarlier_none {s : State} {h : Half} (hc : (s.trp.get h).commits = []) :
    discardEarlier s h = s.modTrp h fun t => { t with commits := [] } := by
  unfold discardEarlier
  dsimp only
  rw [hc]
  rfl

/-- With no rows released and none accepted, there is nothing to settle. -/
theorem settleRows_itemsOnly {s : State} {h : Half} (hr : (s.trp.get h).rows = []) (hc : (s.trp.get h).commits = []) :
    itemsOnly s (settleRows s h) := by
  unfold settleRows
  dsimp only
  rw [hr]
  generalize hu : (if h = .east then _ else s) = u
  have hitems : itemsOnly s u := by
    rw [← hu]
    exact iteInduction (motive := itemsOnly s) (fun _ => itemsOnly_modTrp (itemsOnly_refl s) h _ rfl) fun _ => itemsOnly_refl s
  have hur : (u.trp.get h).rows = [] := by rw [hitems.2 h, hr]
  have huc : (u.trp.get h).commits = [] := by rw [hitems.2 h, hc]
  have hnone := discardEarlier_none (s := u.modTrp h fun t => { t with rows := [] }) (h := h)
    (by rw [State.modTrp, Pair.get_set]; exact huc)
  refine hnone.symm ▸ ?_
  rw [modTrp_modTrp]
  exact itemsOnly_modTrp hitems h _ (rows_commits_nil hur huc)

/-- The seal of a half with no rows to settle, in it or in West. -/
theorem settleAll_itemsOnly {s : State} {h : Half} (hr : (s.trp.get h).rows = []) (hw : s.trp.west.rows = [])
    (hc : (s.trp.get h).commits = []) : itemsOnly s (settleAll s h) := by
  have hrows := settleRows_itemsOnly hr hc
  have hwest : (settleRows s h).trp.west.rows = [] := by
    have := hrows.2 .west
    rw [show (settleRows s h).trp.west = (settleRows s h).trp.get .west from rfl, this]
    exact hw
  unfold settleAll
  refine iteInduction (motive := itemsOnly s) (fun _ => itemsOnly_refl s) fun _ => ?_
  dsimp only
  rw [if_neg fun hne => hne.2 hwest]
  exact hrows

/-! ### What precedes the release: the report of the oldest generation and the commit check (R66, R313) -/

/-- The pair when its Transit is sealed. -/
def donePair (t : Trp) : Trp := { t with sealed := true, done := true }

theorem oldestReport_modTrp (s : State) (h : Half) (f : Trp → Trp) :
    oldestReport (s.modTrp h f) h = (oldestReport s h).modTrp h f := by
  unfold oldestReport
  by_cases hp : s.phase h = phRETRAIN ∨ s.phase h = phSPLIT
  · rw [if_pos hp]
    exact if_pos hp
  · rw [if_neg hp]
    exact if_neg hp

/-- The report changes what the other half's Umpire knows, and nothing else. -/
theorem oldestReport_frame (s : State) (h : Half) : oldestReport s h = { s with ump := (oldestReport s h).ump } := by
  unfold oldestReport
  split <;> rfl

theorem swapCheck_closed {s : State} {h : Half} (hc : swapOpen s h = false) : swapCheck s h = s := by
  unfold swapCheck
  rw [hc]
  rfl

/-- A half whose takeover is not open seals its Transit: its outputs, and then the rows. -/
theorem sealHalf_closed {s : State} {h : Half} (hc : swapOpen s h = false) (mm : Bool) :
    sealHalf s h mm = settleAll (sealOut ((oldestReport s h).modTrp h donePair) h mm) h := by
  have hopen : swapOpen ((oldestReport s h).modTrp h donePair) h = swapOpen s h := by
    rw [oldestReport_frame, swapOpen, State.modTrp, Pair.get_set]
    rfl
  have hcheck := swapCheck_closed (hopen.trans hc)
  rw [← oldestReport_modTrp] at hcheck ⊢
  unfold sealHalf
  dsimp only
  rw [show (s.modTrp h fun t => { t with sealed := true, done := true }) = s.modTrp h donePair from rfl, hcheck]

/-! ### The release of the outputs (R55) -/

/-- The pair as the release begins. -/
def releasedPair (t : Trp) : Trp := { t with held := [], dispatched := [], rel := true, refills := refillsOf t.held }

/-- The machine as the release begins: LAST_BC noted and counted. -/
def releaseStart (s : State) (h : Half) : State :=
  tally ((s.modTrp h releasedPair).fset (TRP_STAT h) TRP_STAT_LAST_BC (s.trp.get h).bc) h 9 0 0 (s.trp.get h).bc

theorem release_eq (s : State) (h : Half) : release s h = (s.trp.get h).held.foldl (releaseOut h) (releaseStart s h) := rfl

/-- Beside events that arrive, the pairs are as the release makes them. -/
theorem releaseStart_pairs (s : State) (h : Half) : arrivalsOnly (s.modTrp h releasedPair) (releaseStart s h) :=
  arrivalsOnly_trans (arrivalsOnly_of_trp_eq (State.fset_trp _ _ _ _)) (tally_recordOnly _ h 9 0 0 _).2

theorem releaseStart_dome (s : State) (h : Half) : (releaseStart s h).dome = s.dome := by
  unfold releaseStart
  rw [(tally_recordOnly _ h 9 0 0 _).1]
  rfl

/-- A register that is none of the Photometer's, and none that recording an event may change. -/
theorem releaseStart_rd (s : State) (h : Half) {a : Nat} (hr : refReg a = false) (hv : viralBits a = 0)
    (hp : a < 0x0D000000 ∨ 0x0E000000 ≤ a) : (releaseStart s h).rd a = s.rd a := by
  have hstat : a ≠ TRP_STAT h := by
    rintro rfl
    revert hr
    cases h <;> decide
  obtain ⟨hcount, -⟩ := tally_countOnly ((s.modTrp h releasedPair).fset (TRP_STAT h) TRP_STAT_LAST_BC (s.trp.get h).bc)
    h 9 0 0 (s.trp.get h).bc
  have ha := hcount a hr hp
  have hzero (w : Word) : w ||| 0 = w := BitVec.or_zero
  rwa [hv, rd_fset_ne _ _ _ hstat, hzero, hzero] at ha

theorem releaseStart_lastBc (s : State) (h : Half) :
    (releaseStart s h).fget (TRP_STAT h) TRP_STAT_LAST_BC = (s.trp.get h).bc % 2 ^ TRP_STAT_LAST_BC.width := by
  unfold releaseStart
  rw [State.fget, tally_keepsStat]
  exact fget_fset_same _ _ _ _ (by decide)

/-! ### The seal of a pair that is idle -/

/-- What the statement asks of a half that seals: the seal is still to come, no requalification, no rows, no open takeover. -/
def sealQuiet (s : State) (h : Half) : Prop :=
  (s.trp.get h).done = false ∧ (s.trp.get h).requal = none ∧ (s.trp.get h).rows = [] ∧ s.trp.west.rows = []
    ∧ (s.trp.get h).commits = [] ∧ swapOpen s h = false

/-- The machine as the outputs of half h are released: sealed, the oldest generation reported. -/
def sealStart (s : State) (h : Half) : State := releaseStart ((oldestReport s h).modTrp h donePair) h

theorem sealStart_pairs (s : State) (h : Half) :
    arrivalsOnly (s.modTrp h fun t => releasedPair (donePair t)) (sealStart s h) := by
  have htrp : (((oldestReport s h).modTrp h donePair).modTrp h releasedPair).trp
      = (s.modTrp h fun t => releasedPair (donePair t)).trp := by
    rw [modTrp_modTrp, oldestReport_frame]
    rfl
  exact arrivalsOnly_trans (arrivalsOnly_of_trp_eq htrp) (releaseStart_pairs _ h)

/-- The pair of the half itself. -/
theorem sealStart_pair (s : State) (h : Half) : (sealStart s h).trp.get h
    = { releasedPair (donePair (s.trp.get h)) with arrivals := ((sealStart s h).trp.get h).arrivals } := by
  have := sealStart_pairs s h h
  rwa [State.modTrp, Pair.get_set] at this

theorem oldestReport_rd (s : State) (h : Half) (a : Nat) : (oldestReport s h).rd a = s.rd a := by
  rw [oldestReport_frame]
  rfl

theorem sealStart_rd (s : State) (h : Half) {a : Nat} (hr : refReg a = false) (hv : viralBits a = 0)
    (hp : a < 0x0D000000 ∨ 0x0E000000 ≤ a) : (sealStart s h).rd a = s.rd a :=
  (releaseStart_rd _ h hr hv hp).trans (oldestReport_rd s h a)

theorem sealStart_dome (s : State) (h : Half) : (sealStart s h).dome = s.dome := by
  rw [sealStart, releaseStart_dome, oldestReport_frame]
  rfl

theorem sealStart_lastBc (s : State) (h : Half) :
    (sealStart s h).fget (TRP_STAT h) TRP_STAT_LAST_BC = (s.trp.get h).bc % 2 ^ TRP_STAT_LAST_BC.width := by
  rw [sealStart, releaseStart_lastBc, oldestReport_frame, State.modTrp, Pair.get_set]
  rfl

section

variable {s : State} {h : Half} (hq : sealQuiet s h)

include hq

/-- A seal with no mismatch, of a pair that ran and is idle, releases its outputs in issue order. -/
theorem exec_transitSeal_releases (hran : (s.trp.get h).ran = true) (hidle : (s.trp.get h).phase = .idle) :
    exec (.transitSeal h false) s = .next (settleAll ((s.trp.get h).held.foldl (releaseOut h) (sealStart s h)) h) := by
  obtain ⟨hdone, hrequal, -, -, -, hclosed⟩ := hq
  have hpair : ((oldestReport s h).modTrp h donePair).trp.get h = donePair (s.trp.get h) := by
    rw [oldestReport_frame, State.modTrp, Pair.get_set]
  have hout : sealOut ((oldestReport s h).modTrp h donePair) h false = release ((oldestReport s h).modTrp h donePair) h := by
    unfold sealOut
    rw [hpair]
    simp [donePair, hran, hidle, hrequal, running]
  have hrel : release ((oldestReport s h).modTrp h donePair) h = (s.trp.get h).held.foldl (releaseOut h) (sealStart s h) := by
    rw [release_eq, hpair]
    rfl
  show execTransitSeal h false s = _
  unfold execTransitSeal
  dsimp only
  rw [hdone, if_neg Bool.false_ne_true, Bool.false_and, Bool.false_and, Bool.false_and, if_neg Bool.false_ne_true,
    sealHalf_closed hclosed, hout, hrel]

/-- What the settling leaves, where releasing the outputs has moved no field of a pair but the outbox's SEQ. -/
theorem settleAll_released {u : State}
    (hu : ∀ g, u.trp.get g = { (sealStart s h).trp.get g with oboxSeq := (u.trp.get g).oboxSeq }) :
    (settleAll u h).regs = u.regs ∧ ((settleAll u h).trp.get h).oboxSeq = (u.trp.get h).oboxSeq
      ∧ ((settleAll u h).trp.get h).held = [] ∧ ((settleAll u h).trp.get h).sealed = true
      ∧ ((settleAll u h).trp.get h).done = true ∧ ((settleAll u h).trp.get h).rel = true := by
  obtain ⟨-, -, hrows, hwest, hcommits, -⟩ := hq
  have hself := sealStart_pair s h
  have hwestRows : ((sealStart s h).trp.get .west).rows = [] := by
    rw [sealStart_pairs s h .west]
    cases h <;> exact hwest
  have hitems := settleAll_itemsOnly (s := u) (h := h) (by rw [hu h, hself]; exact hrows)
    (show (u.trp.get .west).rows = [] by rw [hu .west]; exact hwestRows) (by rw [hu h, hself]; exact hcommits)
  obtain ⟨hregs, hpair⟩ := hitems
  rw [hpair h, hregs, hu h, hself]
  exact ⟨rfl, rfl, rfl, rfl, rfl, rfl⟩

end

/-! ### Stores to scratch (R54, R55) -/

theorem scr_addr (h : Half) {i : Nat} (hi : i < 2048) :
    0x0B000000 ≤ TRP_SCRATCH h (2 * i) ∧ TRP_SCRATCH h (2 * i) + 4 < 0x0C000000 ∧ refReg (TRP_SCRATCH h (2 * i)) = false
      ∧ refReg (TRP_SCRATCH h (2 * i) + 4) = false := by
  have hidx := half_idx_lt h
  have hnone (a : Nat) (h1 : 0x0B020000 ≤ a % 0x800000 + 0x0B000000) (h2 : a % 0x800000 < 0x24000) (h3 : 0x0B000000 ≤ a)
      (h4 : a < 0x0C000000) : refReg a = false := by
    simp only [refReg, List.contains_eq_mem, List.mem_cons, List.not_mem_nil, or_false, Bool.or_eq_false_iff,
      Bool.and_eq_false_iff, decide_eq_false_iff_not, MRD_ALERT_CTL, TRP_STAT, TRP_DEFER, TRP_SWAP_STAT, QOS_ROT_STAT,
      CORE_STAT, Half.idx]
    omega
  refine ⟨?_, ?_, hnone _ ?_ ?_ ?_ ?_, hnone _ ?_ ?_ ?_ ?_⟩ <;> simp only [TRP_SCRATCH] <;> omega

theorem sealStart_scrLive (s : State) (h : Half) {i : Nat} (hi : i < 2048) : scrLive (sealStart s h) h i = scrLive s h i := by
  obtain ⟨h1, h2, h3, h4⟩ := scr_addr h hi
  refine BitVec.eq_of_toNat_eq ?_
  rw [scrLive_toNat, scrLive_toNat]
  exact rd64_congr (sealStart_rd s h h3 (if_neg (by omega)) (.inl (by omega)))
    (sealStart_rd s h h4 (if_neg (by omega)) (.inl (by omega)))

theorem scrLive_store (s : State) (h : Half) (i j : Nat) (v : BitVec 64) :
    scrLive (s.wr64 (TRP_SCRATCH h (2 * j)) v.toNat) h i = if j = i then v else scrLive s h i := by
  refine BitVec.eq_of_toNat_eq ?_
  rw [scrLive_toNat]
  split
  · next hji => rw [hji, rd64_wr64_same _ _ _ v.isLt]
  · next hji => rw [scrLive_toNat, rd64_wr64_ne _ _ (by simp only [TRP_SCRATCH]; omega)]

theorem foldl_releaseOut_cons_scr (h : Half) (j : Nat) (v : BitVec 64) (l : List TOut) (s : State) :
    (TOut.scr j v :: l).foldl (releaseOut h) s = l.foldl (releaseOut h) (s.wr64 (TRP_SCRATCH h (2 * j)) v.toNat) := by
  rw [List.foldl_cons]
  rfl

/-- Stores released in issue order leave each word of scratch as the pair last saw it, and every register outside it. -/
theorem foldl_releaseOut_scr (h : Half) (l : List TOut) : ∀ s : State, l.all scrOnly = true →
    (l.foldl (releaseOut h) s).trp = s.trp
      ∧ (∀ i, scrLive (l.foldl (releaseOut h) s) h i = (heldScr l i).getD (scrLive s h i))
      ∧ ∀ a, a < TRP_SCRATCH h 0 ∨ TRP_SCRATCH h 4032 ≤ a → (l.foldl (releaseOut h) s).rd a = s.rd a := by
  induction l with
  | nil => simp [heldScr]
  | cons o r ih =>
    intro s hl
    rw [List.all_cons, Bool.and_eq_true] at hl
    obtain ⟨ho, hr⟩ := hl
    cases o with
    | scr j v =>
      have hj : j < 2016 := of_decide_eq_true ho
      obtain ⟨htrp, hlive, hrd⟩ := ih (s.wr64 (TRP_SCRATCH h (2 * j)) v.toNat) hr
      rw [foldl_releaseOut_cons_scr]
      refine ⟨htrp.trans (State.wr64_trp _ _ _), fun i => ?_, fun a ha => ?_⟩
      · rw [hlive i, scrLive_store, heldScr]
        cases heldScr r i with
        | some w => simp only [Option.getD_some]
        | none =>
          by_cases hji : j = i
          · simp only [hji, if_true, Option.getD_some, Option.getD_none]
          · simp only [hji, if_false, Option.getD_none]
      · simp only [TRP_SCRATCH] at ha
        rw [hrd a ha, rd_wr64_ne s] <;> simp only [TRP_SCRATCH] <;> omega
    | cs | send | row | ref => exact absurd ho Bool.false_ne_true

/-! ### What the seal leaves of a pair that ran -/

theorem rd_of_regs_eq {s t : State} (hr : t.regs = s.regs) (a : Nat) : t.rd a = s.rd a := by rw [State.rd, hr, State.rd]

/-- The outputs of half h are released and its Transit is sealed. -/
def outputsReleased (u : State) (h : Half) : Prop :=
  (u.trp.get h).held = [] ∧ (u.trp.get h).sealed = true ∧ (u.trp.get h).done = true ∧ (u.trp.get h).rel = true

/-- `w` is where the release of the outputs leads: its registers and the outbox's SEQ are those after the seal. -/
theorem exists_sealed {s : State} {h : Half} (hq : sealQuiet s h) (hran : (s.trp.get h).ran = true)
    (hidle : (s.trp.get h).phase = .idle) {w : State} (hw : (s.trp.get h).held.foldl (releaseOut h) (sealStart s h) = w)
    (hpair : ∀ g, w.trp.get g = { (sealStart s h).trp.get g with oboxSeq := (w.trp.get g).oboxSeq }) :
    ∃ u, exec (.transitSeal h false) s = .next u ∧ outputsReleased u h
      ∧ (u.trp.get h).oboxSeq = (w.trp.get h).oboxSeq ∧ ∀ a, u.rd a = w.rd a := by
  obtain ⟨hregs, hseq, hheld, hsealed, hdone, hrel⟩ := settleAll_released hq hpair
  exact ⟨_, hw ▸ exec_transitSeal_releases hq hran hidle, ⟨hheld, hsealed, hdone, hrel⟩, hseq, rd_of_regs_eq hregs⟩

theorem trp_eq_but_oboxSeq {s t : State} (ht : t.trp = s.trp) (g : Half) :
    t.trp.get g = { s.trp.get g with oboxSeq := (t.trp.get g).oboxSeq } := by
  rw [ht]

/-- Held stores to scratch, released at the seal. -/
theorem sealReleases_scratch {s : State} {h : Half} (hq : sealQuiet s h) (hran : (s.trp.get h).ran = true)
    (hidle : (s.trp.get h).phase = .idle) (hscr : (s.trp.get h).held.all scrOnly = true) :
    ∃ u, exec (.transitSeal h false) s = .next u ∧ outputsReleased u h
      ∧ (∀ i, i < 2048 → u.rd64 (TRP_SCRATCH h (2 * i)) = (scrLoad s h i).toNat)
      ∧ u.fget (TRP_STAT h) TRP_STAT_LAST_BC = (s.trp.get h).bc % 2 ^ TRP_STAT_LAST_BC.width
      ∧ ∀ b, b < 0x0A000000 → refReg b = false → u.rd b = s.rd b := by
  obtain ⟨htrp, hlive, hrd⟩ := foldl_releaseOut_scr h (s.trp.get h).held (sealStart s h) hscr
  obtain ⟨u, hu, hout, -, hregs⟩ := exists_sealed hq hran hidle rfl (trp_eq_but_oboxSeq htrp)
  refine ⟨u, hu, hout, fun i hi => ?_, ?_, fun b hb hr => ?_⟩
  · rw [rd64_congr (hregs _) (hregs _), ← scrLive_toNat, hlive i, sealStart_scrLive s h hi, scrLoad]
  · rw [State.fget, hregs, hrd _ (.inr (by cases h <;> decide)), ← State.fget, sealStart_lastBc]
  · rw [hregs, hrd b (.inl (by simp only [TRP_SCRATCH]; omega)), sealStart_rd s h hr (if_neg (by omega)) (.inl (by omega))]

/-! ### A store to the Control Space (R54, R55) -/

theorem wordWrite_wholeWord (opn : Bool) {d : RegDesc} (old v : Word) (hf : d.flds = [⟨0, 32, .rw, 0, false⟩]) :
    wordWrite opn d old v = v := by
  have hmask : fldMask ⟨0, 32, .rw, 0, false⟩ = BitVec.allOnes 32 := by decide
  simp only [wordWrite, hf, List.foldl_cons, List.foldl_nil, fldWrite, hmask, BitVec.and_allOnes]
  exact BitVec.zero_or

theorem reaches_congr {s t : State} {h : Half} (hd : t.dome = s.dome) (hp : t.phase h = s.phase h) (a : Nat) :
    reaches t h a = reaches s h a := by
  simp only [reaches, hd, hp]

/-- A pair's write of a plain register goes by the register's field access types. -/
theorem csWrite_tirop_plain {s : State} {h : Half} {a : Nat} {d : RegDesc} (v : Word) (ha : a % 4 = 0)
    (hp : plainReg a d = true) (hd : decodeAt (.tirop h) a (copyKey h a) = some d) (hr : reaches s h a = true)
    (hlo : d.lo64 = false) (hlow : lowOf a = none) : csWrite s (.tirop h) a v = plainWrite s d a v := by
  have haddr : accessAddr (.tirop h) a = a := by simp only [accessAddr]; omega
  have hm : mayAct s (.tirop h) a := ⟨nofun, hr⟩
  simp only [csWrite, haddr, State.masterHalf, hd, csGate_mayAct s _ a _ hm, plainReg_live hp, plainReg_pairOnly hp,
    Bool.false_and, Bool.or_self, Bool.false_eq_true, if_false]
  rw [wordTo_single s h a v hlo hlow, plainReg_blockWrite s h v hp]

/-- No plain register is a ring's HEAD. -/
theorem plainReg_ne_sringHead {a : Nat} {d : RegDesc} (hp : plainReg a d = true) (h : Half) : a ≠ TRP_SRING_HEAD h := by
  obtain ⟨-, -, hb⟩ := plainReg_cases hp
  have hidx := half_idx_lt h
  simp only [TRP_SRING_HEAD]
  rcases hb with ⟨-, hb, -⟩ | ⟨-, hb, -⟩ | ⟨-, hb, -⟩ | ⟨hb, -⟩ | ⟨hb, -⟩ <;> omega

theorem sealStart_phase (s : State) (h g : Half) : (sealStart s h).phase g = s.phase g := by
  rw [State.phase, State.fget, sealStart_rd s h (by cases g <;> decide) (if_neg (by cases g <;> decide))
    (.inr (by cases g <;> decide))]
  rfl

/-- A held store to the Control Space, released at the seal. -/
theorem sealReleases_cs {s : State} {h : Half} {a : Nat} {v : Word} {d : RegDesc} (hq : sealQuiet s h)
    (hran : (s.trp.get h).ran = true) (hidle : (s.trp.get h).phase = .idle) (hheld : (s.trp.get h).held = [.cs a v])
    (ha : a % 4 = 0) (hp : plainReg a d = true) (hd : decodeAt (.tirop h) a (copyKey h a) = some d)
    (hr : reaches s h a = true) (hlo : d.lo64 = false) (hlow : lowOf a = none) (hf : d.flds = [⟨0, 32, .rw, 0, false⟩]) :
    ∃ u, exec (.transitSeal h false) s = .next u ∧ outputsReleased u h ∧ u.rd a = v := by
  have hr' : reaches (sealStart s h) h a = true :=
    (reaches_congr (sealStart_dome s h) (sealStart_phase s h h) a).trans hr
  have hw : (s.trp.get h).held.foldl (releaseOut h) (sealStart s h) = plainWrite (sealStart s h) d a v := by
    rw [hheld, List.foldl_cons, List.foldl_nil, releaseOut, releaseCs, if_neg (plainReg_ne_sringHead hp h),
      csWrite_tirop_plain v ha hp hd hr' hlo hlow]
  obtain ⟨u, hu, hout, -, hregs⟩ := exists_sealed hq hran hidle hw (trp_eq_but_oboxSeq (State.wr_trp _ _ _))
  refine ⟨u, hu, hout, ?_⟩
  rw [hregs, plainWrite, rd_wr_same, wordWrite_wholeWord _ _ _ hf]

/-! ### SEND (R513) -/

/-- The pair has given a message its SEQ. -/
def nextSeq (t : Trp) : Trp := { t with oboxSeq := (t.oboxSeq + 1) % 2 ^ 16 }

/-- An entry of the outbox: the Transit, SEQ with the message's length, and six double words. -/
def sendEntry (tn seq : Nat) (ws : List (BitVec 64)) : List Word :=
  [BitVec.ofNat 32 tn, BitVec.ofNat 32 (tn / 2 ^ 32), BitVec.ofNat 32 (seq * 2 ^ 16 + ws.length), 0]
    ++ (List.range 6).flatMap fun j =>
      let w := ws.getD j 0
      [BitVec.ofNat 32 w.toNat, BitVec.ofNat 32 (w.toNat / 2 ^ 32)]

/-- How many entries the outbox holds. -/
def oboxUsed (s : State) (h : Half) : Nat :=
  (s.fget (TRP_OBOX_PTR h) TRP_OBOX_PTR_TAIL + 2 ^ 16 - s.fget (TRP_OBOX_PTR h) TRP_OBOX_PTR_HEAD) % 2 ^ 16

theorem oboxPush_room {s : State} {h : Half} (ws : List (BitVec 64)) (hroom : oboxUsed s h < 32) :
    oboxPush s h ws = ((s.modTrp h nextSeq).wrWords
      (TRP_OBOX h (s.fget (TRP_OBOX_PTR h) TRP_OBOX_PTR_TAIL % 32) 0)
      (sendEntry (s.trp.get h).tn (s.trp.get h).oboxSeq ws)).fset (TRP_OBOX_PTR h) TRP_OBOX_PTR_TAIL
        (s.fget (TRP_OBOX_PTR h) TRP_OBOX_PTR_TAIL + 1) := by
  have htn : ((s.modTrp h nextSeq).trp.get h).tn = (s.trp.get h).tn := by
    rw [State.modTrp, Pair.get_set]
    rfl
  unfold oboxUsed at hroom
  unfold oboxPush
  dsimp only
  rw [State.modTrp_fget, if_pos hroom]
  exact htn ▸ rfl

theorem oboxPush_full {s : State} {h : Half} (ws : List (BitVec 64)) (hfull : 32 ≤ oboxUsed s h) :
    oboxPush s h ws = (s.modTrp h nextSeq).fbump (TRP_ERRCNT1 h) TRP_ERRCNT1_SENDDROP_CNT 1 := by
  unfold oboxUsed at hfull
  unfold oboxPush
  dsimp only
  rw [State.modTrp_fget, if_neg (Nat.not_lt.mpr hfull)]
  rfl

/-- The double word of the message at place j. -/
theorem sendEntry_body (tn seq : Nat) (ws : List (BitVec 64)) {j : Nat} (hj : j < 6) :
    (sendEntry tn seq ws).getD (4 + 2 * j) 0 = BitVec.ofNat 32 (ws.getD j 0).toNat
      ∧ (sendEntry tn seq ws).getD (4 + 2 * j + 1) 0 = BitVec.ofNat 32 ((ws.getD j 0).toNat / 2 ^ 32) := by
  interval_cases j <;> exact ⟨rfl, rfl⟩

/-- Two words that hold a number read as the number. -/
theorem rd64_of_words {s : State} {a n : Nat} (h1 : s.rd a = BitVec.ofNat 32 n)
    (h2 : s.rd (a + 4) = BitVec.ofNat 32 (n / 2 ^ 32)) : s.rd64 a = n % 2 ^ 64 := by
  simp only [State.rd64, h1, h2, BitVec.toNat_ofNat]
  omega

/-- A word of the entry that a SEND has put in the outbox. -/
theorem oboxPush_word {s : State} {h : Half} (ws : List (BitVec 64)) (hroom : oboxUsed s h < 32) {k : Nat} (hk : k < 16) :
    (oboxPush s h ws).rd (TRP_OBOX h (s.fget (TRP_OBOX_PTR h) TRP_OBOX_PTR_TAIL % 32) k)
      = (sendEntry (s.trp.get h).tn (s.trp.get h).oboxSeq ws).getD k 0 := by
  have hentry := rd_wrWords (sendEntry (s.trp.get h).tn (s.trp.get h).oboxSeq ws) (s.modTrp h nextSeq)
    (TRP_OBOX h (s.fget (TRP_OBOX_PTR h) TRP_OBOX_PTR_TAIL % 32) 0) (i := k) hk
  rw [oboxPush_room ws hroom, rd_fset_ne _ _ _ (by simp only [TRP_OBOX, TRP_OBOX_PTR]; omega)]
  exact hentry

theorem sealStart_oboxPtr (s : State) (h : Half) : (sealStart s h).rd (TRP_OBOX_PTR h) = s.rd (TRP_OBOX_PTR h) :=
  sealStart_rd s h (by cases h <;> decide) (if_neg (by cases h <;> decide)) (.inl (by cases h <;> decide))

theorem sealStart_oboxUsed (s : State) (h : Half) : oboxUsed (sealStart s h) h = oboxUsed s h := by
  simp only [oboxUsed, State.fget, sealStart_oboxPtr]

/-- A state whose pairs differ by the outbox's SEQ alone, which has moved on. -/
theorem trp_nextSeq {s w : State} {h : Half} (hw : w.trp = (s.modTrp h nextSeq).trp) :
    (∀ g, w.trp.get g = { s.trp.get g with oboxSeq := (w.trp.get g).oboxSeq })
      ∧ (w.trp.get h).oboxSeq = ((s.trp.get h).oboxSeq + 1) % 2 ^ 16 := by
  rw [hw, State.modTrp, Pair.get_set]
  refine ⟨fun g => ?_, rfl⟩
  by_cases hg : g = h
  · subst hg
    rw [Pair.get_set]
    rfl
  · rw [half_eq_other hg, Pair.get_set_other]

theorem sealStart_tn_oboxSeq (s : State) (h : Half) : ((sealStart s h).trp.get h).tn = (s.trp.get h).tn
    ∧ ((sealStart s h).trp.get h).oboxSeq = (s.trp.get h).oboxSeq := by
  rw [sealStart_pair]
  exact ⟨rfl, rfl⟩

section

variable {s : State} {h : Half} {ws : List (BitVec 64)} (hq : sealQuiet s h) (hran : (s.trp.get h).ran = true)
  (hidle : (s.trp.get h).phase = .idle) (hheld : (s.trp.get h).held = [.send ws])

include hq hran hidle hheld

/-- The seal of a pair whose one output is a SEND. -/
theorem exists_sealed_send {w : State} (hw : oboxPush (sealStart s h) h ws = w)
    (htrp : w.trp = ((sealStart s h).modTrp h nextSeq).trp) :
    ∃ u, exec (.transitSeal h false) s = .next u ∧ outputsReleased u h
      ∧ (u.trp.get h).oboxSeq = ((s.trp.get h).oboxSeq + 1) % 2 ^ 16 ∧ ∀ a, u.rd a = w.rd a := by
  obtain ⟨hpair, hseq⟩ := trp_nextSeq htrp
  have hfold : (s.trp.get h).held.foldl (releaseOut h) (sealStart s h) = w := by
    rw [hheld, List.foldl_cons, List.foldl_nil, releaseOut, hw]
  obtain ⟨u, hu, hout, hseq', hregs⟩ := exists_sealed hq hran hidle hfold hpair
  exact ⟨u, hu, hout, by rw [hseq', hseq, (sealStart_tn_oboxSeq s h).2], hregs⟩

/-- A SEND with room in the outbox. -/
theorem sealReleases_send (hroom : oboxUsed s h < 32) :
    ∃ u, exec (.transitSeal h false) s = .next u ∧ outputsReleased u h
      ∧ u.fget (TRP_OBOX_PTR h) TRP_OBOX_PTR_TAIL = (s.fget (TRP_OBOX_PTR h) TRP_OBOX_PTR_TAIL + 1) % 2 ^ 16
      ∧ (u.trp.get h).oboxSeq = ((s.trp.get h).oboxSeq + 1) % 2 ^ 16
      ∧ ∀ k, k < 16 → u.rd (TRP_OBOX h (s.fget (TRP_OBOX_PTR h) TRP_OBOX_PTR_TAIL % 32) k)
          = (sendEntry (s.trp.get h).tn (s.trp.get h).oboxSeq ws).getD k 0 := by
  have hroom' : oboxUsed (sealStart s h) h < 32 := (sealStart_oboxUsed s h).symm ▸ hroom
  have htail : (sealStart s h).fget (TRP_OBOX_PTR h) TRP_OBOX_PTR_TAIL = s.fget (TRP_OBOX_PTR h) TRP_OBOX_PTR_TAIL := by
    rw [State.fget, sealStart_oboxPtr, State.fget]
  obtain ⟨htn, hseq⟩ := sealStart_tn_oboxSeq s h
  obtain ⟨u, hu, hout, hnext, hregs⟩ := exists_sealed_send hq hran hidle hheld rfl
    (by rw [oboxPush_room ws hroom', State.fset_trp, State.wrWords_trp])
  refine ⟨u, hu, hout, ?_, hnext, fun k hk => ?_⟩
  · rw [State.fget, hregs, ← State.fget, oboxPush_room ws hroom', fget_fset_same _ _ _ _ (by decide), htail]
    rfl
  · rw [hregs, ← htail, oboxPush_word ws hroom' hk, htn, hseq]

/-- A SEND with the outbox full. -/
theorem sealReleases_sendDropped (hfull : 32 ≤ oboxUsed s h) :
    ∃ u, exec (.transitSeal h false) s = .next u ∧ outputsReleased u h
      ∧ u.fget (TRP_OBOX_PTR h) TRP_OBOX_PTR_TAIL = s.fget (TRP_OBOX_PTR h) TRP_OBOX_PTR_TAIL
      ∧ (u.trp.get h).oboxSeq = ((s.trp.get h).oboxSeq + 1) % 2 ^ 16
      ∧ u.fget (TRP_ERRCNT1 h) TRP_ERRCNT1_SENDDROP_CNT
          = min (s.fget (TRP_ERRCNT1 h) TRP_ERRCNT1_SENDDROP_CNT + 1) (2 ^ TRP_ERRCNT1_SENDDROP_CNT.width - 1) := by
  have hfull' : 32 ≤ oboxUsed (sealStart s h) h := (sealStart_oboxUsed s h).symm ▸ hfull
  have hcnt : (sealStart s h).rd (TRP_ERRCNT1 h) = s.rd (TRP_ERRCNT1 h) :=
    sealStart_rd s h (by cases h <;> decide) (if_neg (by cases h <;> decide)) (.inl (by cases h <;> decide))
  obtain ⟨u, hu, hout, hnext, hregs⟩ := exists_sealed_send hq hran hidle hheld rfl
    (by rw [oboxPush_full ws hfull', State.fbump_trp])
  refine ⟨u, hu, hout, ?_, hnext, ?_⟩
  · rw [State.fget, hregs, oboxPush_full ws hfull', State.fbump, rd_fset_ne _ _ _ (by cases h <;> decide),
      State.modTrp_rd, sealStart_oboxPtr, State.fget]
  · rw [State.fget, hregs, ← State.fget, oboxPush_full ws hfull', State.fbump, fget_fset_same _ _ _ _ (by decide),
      State.modTrp_fget, State.fget, hcnt, ← State.fget]
    exact Nat.mod_eq_of_lt (lt_of_le_of_lt (min_le_right _ _) (by decide))

end

/-! ### A pair that did not run, and a mismatch (R55, R59) -/

theorem donePair_get (s : State) (h : Half) :
    ((oldestReport s h).modTrp h donePair).trp.get h = donePair (s.trp.get h) := by
  rw [oldestReport_frame, State.modTrp, Pair.get_set]

theorem mismatchEnd_noGen {s : State} {h : Half} (hg : holdsGen (s.trp.get h) = false) :
    mismatchEnd s h = raise (((s.modTrp h stoppedPair).fset (TRP_STAT h) TRP_STAT_MISMATCH 1).fbump
      (TRP_ERRCNT h) TRP_ERRCNT_MISMATCH_CNT 1) h (evtU 2 1 0 0 0 0) := by
  rw [← discardTransit_noGen hg, mismatchEnd]

/-- The seal of a pair that did not run. -/
theorem seal_notRan {s : State} {h : Half} (hq : sealQuiet s h) (hran : (s.trp.get h).ran = false) :
    ∃ u, exec (.transitSeal h false) s = .next u ∧ u.regs = s.regs ∧ (u.trp.get h).held = (s.trp.get h).held
      ∧ (u.trp.get h).rel = (s.trp.get h).rel ∧ (u.trp.get h).sealed = true ∧ (u.trp.get h).done = true := by
  obtain ⟨hdone, -, hrows, hwest, hcommits, hclosed⟩ := hq
  have hget := donePair_get s h
  have hout : sealOut ((oldestReport s h).modTrp h donePair) h false = (oldestReport s h).modTrp h donePair := by
    unfold sealOut
    rw [hget]
    exact if_pos (.inl hran)
  have hwest' : ((oldestReport s h).modTrp h donePair).trp.west.rows = [] := by
    rw [oldestReport_frame]
    cases h <;> exact hwest
  obtain ⟨hregs, hpair⟩ := settleAll_itemsOnly (s := (oldestReport s h).modTrp h donePair) (h := h)
    (by rw [hget]; exact hrows) hwest' (by rw [hget]; exact hcommits)
  refine ⟨settleAll ((oldestReport s h).modTrp h donePair) h, ?_, ?_, ?_⟩
  · show execTransitSeal h false s = _
    unfold execTransitSeal
    dsimp only
    rw [hdone, if_neg Bool.false_ne_true, Bool.false_and, Bool.false_and, Bool.false_and, if_neg Bool.false_ne_true,
      sealHalf_closed hclosed, hout]
  · rw [hregs, oldestReport_frame]
    rfl
  · rw [hpair h, hget]
    exact ⟨rfl, rfl, rfl, rfl⟩

/-- A mismatch at the seal. -/
theorem seal_mismatch {s : State} {h : Half} (hq : sealQuiet s h) (hran : (s.trp.get h).ran = true)
    (hlive : (s.trp.get h).phase ≠ .stopped) (hlate : running (s.trp.get h) = true → (s.trp.get h).sealed = true)
    (hg : holdsGen (s.trp.get h) = false) :
    exec (.transitSeal h true) s = .next (settleAll (raise ((((oldestReport s h).modTrp h fun t =>
      stoppedPair (donePair t)).fset (TRP_STAT h) TRP_STAT_MISMATCH 1).fbump (TRP_ERRCNT h) TRP_ERRCNT_MISMATCH_CNT 1) h
        (evtU 2 1 0 0 0 0)) h) := by
  obtain ⟨hdone, hrequal, -, -, -, hclosed⟩ := hq
  have hget := donePair_get s h
  have hout : sealOut ((oldestReport s h).modTrp h donePair) h true = mismatchEnd ((oldestReport s h).modTrp h donePair) h := by
    unfold sealOut
    rw [hget]
    simp [donePair, hran, hlive, hrequal]
  have hnow : (true && running (s.trp.get h) && decide ((s.trp.get h).bc < 960) && !(s.trp.get h).sealed) = false := by
    cases hr : running (s.trp.get h)
    · rfl
    · rw [hlate hr, Bool.not_true, Bool.and_false]
  show execTransitSeal h true s = _
  unfold execTransitSeal
  dsimp only
  rw [hdone, hnow, if_neg Bool.false_ne_true, if_neg Bool.false_ne_true, sealHalf_closed hclosed, hout,
    mismatchEnd_noGen (by rw [hget]; exact hg), modTrp_modTrp]

/-- A mismatch while the pair runs, before the cutoff. -/
theorem seal_mismatchNow {s : State} {h : Half} (hdone : (s.trp.get h).done = false) (hrequal : (s.trp.get h).requal = none)
    (hrun : running (s.trp.get h) = true) (hbc : (s.trp.get h).bc < 960) (hsealed : (s.trp.get h).sealed = false)
    (hg : holdsGen (s.trp.get h) = false) :
    exec (.transitSeal h true) s = .next (raise (((s.modTrp h stoppedPair).fset (TRP_STAT h) TRP_STAT_MISMATCH 1).fbump
      (TRP_ERRCNT h) TRP_ERRCNT_MISMATCH_CNT 1) h (evtU 2 1 0 0 0 0)) := by
  show execTransitSeal h true s = _
  unfold execTransitSeal
  dsimp only
  rw [hdone, hrun, hsealed, decide_eq_true hbc, if_neg Bool.false_ne_true, mismatchNow, hrequal, mismatchEnd_noGen hg]
  rfl

/-- Settles O17, clause by clause: the release of the outputs, and what a mismatch discards. -/
theorem sealReleasesOrDiscards : Obligations.SealReleasesOrDiscards := by
  intro s h a v d ws mm t p tail used quiet released ended gone told
  have hended (done : Bool) (x : State) (hx : x.trp = s.trp) (f : Trp → Trp) (hf : f t = ended done) :
      gone done x = ((x.modTrp h f).fset (TRP_STAT h) TRP_STAT_MISMATCH 1).fbump (TRP_ERRCNT h) TRP_ERRCNT_MISMATCH_CNT 1 := by
    simp only [gone, State.modTrp, hx, ← hf, t]
  refine ⟨fun hdone => ?_, sealReleases_scratch, fun hq hran hidle hheld ha hp hd hr hlo hlow hf =>
      sealReleases_cs hq hran hidle hheld ha hp hd hr hlo hlow hf, fun hq hran hidle hheld hroom => ?_,
    sealReleases_sendDropped, seal_notRan, fun hq hran hlive hlate hg => ?_, fun hdone hrequal hrun hbc hsealed hg => ?_⟩
  · exact congrArg Host.Outcome.next (if_pos hdone)
  · obtain ⟨u, hu, hout, htail, hseq, hword⟩ := sealReleases_send hq hran hidle hheld hroom
    refine ⟨u, hu, hout, htail, hseq, rd64_of_words (hword 0 (by decide)) (hword 1 (by decide)), hword 2 (by decide),
      fun j hj => ?_⟩
    obtain ⟨hlow, hhigh⟩ := sendEntry_body (s.trp.get h).tn (s.trp.get h).oboxSeq ws hj
    refine (rd64_of_words ((hword _ (by omega)).trans hlow) ((hword (4 + 2 * j + 1) (by omega)).trans hhigh)).trans ?_
    exact Nat.mod_eq_of_lt (BitVec.isLt _)
  · have hpair : stoppedPair (donePair t) = ended true := by
      simp only [stoppedPair, donePair, ended, Bool.or_true]
    rw [seal_mismatch hq hran hlive hlate hg, ← hended true _ (by rw [oldestReport_frame]) _ hpair]
  · have hpair : stoppedPair t = ended false := by
      simp only [stoppedPair, ended, Bool.or_false, hdone]
    rw [seal_mismatchNow hdone hrequal hrun hbc hsealed hg, ← hended false s rfl _ hpair]

end Sys2Proof.Machine
end

section
/-! PROOFS. The registers of the ports (spec 03) lie in a block of their own: what flushes a sub-port, tells its vPPBs or
resets its host's tenant (R162, R197, R218) writes none of them. -/

namespace Sys2Proof.Machine

open Sys2Proof

/-- An address of the ports' block of Control Space (R24). -/
def portReg (a : Nat) : Prop := 0x01000000 ≤ a ∧ a < 0x02000000

@[simp] theorem rd_ite (c : Prop) [Decidable c] (s t : State) (a : Nat) :
    (if c then s else t).rd a = if c then s.rd a else t.rd a := apply_ite (State.rd · a) c s t

/-- What no round of a loop changes is as before the loop. -/
theorem foldl_keeps {α β : Type} (g : State → β) {f : State → α → State} {l : List α}
    (hf : ∀ s, ∀ x ∈ l, g (f s x) = g s) (s : State) : g (l.foldl f s) = g s := by
  induction l generalizing s with
  | nil => rfl
  | cons x r ih => exact (ih (fun u y hy => hf u y (by simp [hy])) _).trans (hf s x (by simp))

/-- A loop none of whose rounds changes anything. -/
theorem foldl_fixed {α β : Type} {f : β → α → β} {l : List α} {b : β} (hf : ∀ x ∈ l, f b x = b) : l.foldl f b = b := by
  induction l with
  | nil => rfl
  | cons x r ih => rw [List.foldl_cons, hf x (by simp), ih fun y hy => hf y (by simp [hy])]

@[simp] theorem foldl_rd {α : Type} {a : Nat} {f : State → α → State} (hf : ∀ s x, (f s x).rd a = s.rd a) (l : List α)
    (s : State) : (l.foldl f s).rd a = s.rd a := foldl_keeps (State.rd · a) (fun s x _ => hf s x) s

/-! ### What lies above the ports' block -/

@[simp] theorem cat_above (h : Half) : 0x02000000 ≤ CAT_OCC h ∧ 0x02000000 ≤ CAT_LSOCC h ∧ 0x02000000 ≤ CAT_REMOTE h
    ∧ 0x02000000 ≤ CAT_TRK h ∧ 0x02000000 ≤ CAT_SCRUB_LO h ∧ 0x02000000 ≤ CAT_ERRCNT1 h ∧ 0x02000000 ≤ CAT_ERRCNT3 h := by
  cases h <;> decide

@[simp] theorem core_above (h : Half) : 0x02000000 ≤ CORE_STAT h ∧ 0x02000000 ≤ CORE_DF_STAT h ∧ 0x02000000 ≤ CORE_DF_PEAK h
    ∧ 0x02000000 ≤ CORE_ERRCNT1 h ∧ 0x02000000 ≤ CORE_ERRCNT2 h := by
  cases h <;> decide

@[simp] theorem umpire_above (h : Half) : 0x02000000 ≤ UMP_LIVE h ∧ 0x02000000 ≤ UMP_FLOG_INFO h ∧ 0x02000000 ≤ UMP_FLOG_TGT h
    ∧ 0x02000000 ≤ UMP_FLOG_ADDR_LO h ∧ 0x02000000 ≤ UMP_ERRCNT0 h := by
  cases h <;> decide

@[simp] theorem units_above (h : Half) : 0x02000000 ≤ CDB_QLINES h ∧ 0x02000000 ≤ STK_ERRCNT2 h
    ∧ 0x02000000 ≤ TRP_SRING_TAIL h := by
  cases h <;> decide

@[simp] theorem ringWord_above (h : Half) (i k : Nat) : 0x02000000 ≤ TRP_SRING h i k := by unfold TRP_SRING; omega

@[simp] theorem colourCount_above (h : Half) (v : Nat) : 0x02000000 ≤ QOS_VF_CNT h v := by unfold QOS_VF_CNT; omega

@[simp] theorem tenant_above (t : Nat) : 0x02000000 ≤ SF_TEN_STAT t ∧ 0x02000000 ≤ SF_TEN_ERRCNT t ∧ 0x02000000 ≤ SF_PF_STAT t := by
  unfold SF_TEN_STAT SF_TEN_ERRCNT SF_PF_STAT
  omega

@[simp] theorem function_above (t fn : Nat) : 0x02000000 ≤ SF_ALIVE t fn ∧ 0x02000000 ≤ SF_FN_STAT t fn
    ∧ 0x02000000 ≤ SF_MIG_STAT t fn := by
  unfold SF_ALIVE SF_FN_STAT SF_MIG_STAT
  omega

@[simp] theorem queue_above (t fn q : Nat) : 0x02000000 ≤ SF_QWM t fn q ∧ 0x02000000 ≤ SF_QPTR t fn q := by
  unfold SF_QWM SF_QPTR
  omega

section
variable {a : Nat} (ha : portReg a)
include ha

/-! ### Writes above the ports' block -/

@[simp] theorem wr_portRd {b : Nat} (s : State) (v : Word) (hb : 0x02000000 ≤ b) : (s.wr b v).rd a = s.rd a :=
  rd_wr_ne _ _ (by have := ha.2; omega)

@[simp] theorem fset_portRd {b : Nat} (s : State) (f : Fld) (n : Nat) (hb : 0x02000000 ≤ b) : (s.fset b f n).rd a = s.rd a :=
  wr_portRd ha _ _ hb

@[simp] theorem fsetB_portRd {b : Nat} (s : State) (f : Fld) (x : Bool) (hb : 0x02000000 ≤ b) :
    (s.fsetB b f x).rd a = s.rd a := wr_portRd ha _ _ hb

@[simp] theorem fbump_portRd {b : Nat} (s : State) (f : Fld) (n : Nat) (hb : 0x02000000 ≤ b) :
    (s.fbump b f n).rd a = s.rd a := wr_portRd ha _ _ hb

@[simp] theorem fsets_portRd {b : Nat} (s : State) (l : List (Fld × Nat)) (hb : 0x02000000 ≤ b) :
    (s.fsets b l).rd a = s.rd a := rd_fsets_ne _ _ (by have := ha.2; omega)

@[simp] theorem wr64_portRd {b : Nat} (s : State) (v : Nat) (hb : 0x02000000 ≤ b) : (s.wr64 b v).rd a = s.rd a :=
  (wr_portRd ha _ _ (by omega)).trans (wr_portRd ha _ _ hb)

/-! ### Events and counting -/

/-- No port register is one of those that reporting an event may change. -/
theorem portReg_not_refReg : refReg a = false := by
  obtain ⟨h1, h2⟩ := ha
  have hblock : ¬ 0x0E000000 ≤ a := by omega
  simp only [refReg, hblock, decide_false, Bool.false_and, Bool.false_or, List.contains_eq_mem, decide_eq_false_iff_not,
    List.mem_cons, List.not_mem_nil, or_false, MRD_ALERT_CTL, TRP_STAT, TRP_DEFER, TRP_SWAP_STAT, QOS_ROT_STAT, CORE_STAT,
    Half.idx]
  omega

theorem portReg_viralBits : viralBits a = 0 := if_neg (by have := ha.2; omega)

theorem refOnly_portRd {s t : State} (h : refOnly s t) : t.rd a = s.rd a :=
  refOnly_rd h (portReg_not_refReg ha) (portReg_viralBits ha)

theorem countOnly_portRd {s t : State} (h : countOnly s t) : t.rd a = s.rd a := by
  have h' := h.1 a (portReg_not_refReg ha) (Or.inl (by have := ha.2; omega))
  simpa [portReg_viralBits ha] using h'

@[simp] theorem raise_portRd (s : State) (h : Half) (cls cause inst detail : Nat) :
    (raise s h (evt cls cause inst detail)).rd a = s.rd a := refOnly_portRd ha (raise_evt_refOnly _ _ _ _ _ _)

@[simp] theorem setViral_portRd (s : State) (t : Nat) : (setViral s t).rd a = s.rd a := by
  unfold setViral
  split
  · rfl
  · refine (refOnly_portRd ha (record_refOnly _ _ _ _)).trans ?_
    exact fset_portRd ha { s with viral := t :: s.viral, sent := .viral t :: s.sent } _ _
      (by unfold SF_TEN_STAT; omega)

@[simp] theorem phmAdd_portRd (s : State) (h : Half) (c k : Nat) : (phmAdd s h c k).rd a = s.rd a :=
  countOnly_portRd ha (phmAdd_countOnly _ _ _ _)

@[simp] theorem tally_portRd (s : State) (h : Half) (u e i k : Nat) : (tally s h u e i k).rd a = s.rd a :=
  countOnly_portRd ha (tally_countOnly _ _ _ _ _ _)

@[simp] theorem tallyRise_portRd (s : State) (h : Half) (u e i : Nat) : (tallyRise s h u e i).rd a = s.rd a :=
  countOnly_portRd ha (tallyRise_countOnly _ _ _ _ _)

/-! ### The Umpire and messages on their way (R102-R137, R312-R316) -/

@[simp] theorem setLive_portRd (s : State) (h : Half) : (setLive s h).rd a = s.rd a := by
  simp [setLive, ha]

@[simp] theorem flightEnd_portRd (s : State) (h : Half) (g : Nat) : (flightEnd s h g).rd a = s.rd a := by simp [flightEnd, ha]

@[simp] theorem flightBegin_portRd (s : State) (h : Half) (g : Nat) : (flightBegin s h g).rd a = s.rd a := by
  simp [flightBegin, ha]

@[simp] theorem endFlight_portRd (s : State) (m : Msg) : (endFlight s m).rd a = s.rd a := by simp [endFlight, ha]

@[simp] theorem faultLog_portRd (s : State) (h : Half) (x : Accessor) (need : Nat) (p : Piece) (rule : Option Nat) :
    (faultLog s h x need p rule).rd a = s.rd a := by
  simp [faultLog, ha]

@[simp] theorem umpFault_portRd (s : State) (h : Half) (t need : Nat) (p : Piece) (rule : Option Nat) :
    (umpFault s h t need p rule).rd a = s.rd a := by
  simp [umpFault, ha]

omit ha in
@[simp] theorem formCells_rd (s : State) (h : Half) (st n flit : Nat) (pack : Bool) :
    (formCells s h st n flit pack).rd a = s.rd a := by
  unfold formCells
  split <;> rfl

omit ha in
@[simp] theorem originate_rd (s : State) (h : Half) (st : Nat) (m : Msg) : (originate s h st m).rd a = s.rd a := by
  simp [originate, newMsg]

omit ha in
@[simp] theorem originateStamped_rd (s : State) (h : Half) (st : Nat) (m : Msg) : (originateStamped s h st m).rd a = s.rd a := by
  simp only [originateStamped, originate_rd, stampMsg]
  split
  · rfl
  · split
    · rfl
    · split <;> rfl

omit ha in
@[simp] theorem toCatalogue_rd (s : State) (h : Half) (m : Msg) : (toCatalogue s h m).rd a = s.rd a := rfl

omit ha in
theorem takeItag_rd {s u : State} {h : Half} {own : IOwner} {t e : Nat} {gen : Option Nat} {io out : Bool}
    (hk : takeItag s h own t gen io out = some (e, u)) : u.rd a = s.rd a := by
  unfold takeItag at hk
  dsimp only at hk
  split at hk
  · cases hk
  · cases hk
    rfl

omit ha in
@[simp] theorem aerMsg_rd (s : State) (t v kind : Nat) (m : Msg) : (aerMsg s t v kind m).rd a = s.rd a := by
  have hput : ∀ (s : State) t v off x, (cfgPut s t v off x).rd a = s.rd a := fun _ _ _ _ _ => rfl
  have hhdr : ∀ (s : State) hdr, (aerHeader s t v hdr).rd a = s.rd a := fun s hdr =>
    foldl_rd (fun _ _ => hput _ _ _ _ _) _ s
  simp [aerMsg, aerLog, hput, hhdr]

omit ha in
@[simp] theorem sendRsp_rd (s : State) (m : Msg) (op : Op) (kind dl : Nat) : (sendRsp s m op kind dl).rd a = s.rd a := rfl

@[simp] theorem synthEnd_portRd (s : State) (m : Msg) (dl : Nat) : (synthEnd s m dl).rd a = s.rd a := by
  have hsend := foldl_rd (a := a) (f := fun s e => sendRsp s m e.1 e.2 dl) (fun _ _ => rfl) (synthOf m) s
  simp [synthEnd, ha, hsend]

@[simp] theorem synthReport_portRd (s : State) (m : Msg) (dl : Nat) : (synthReport s m dl).rd a = s.rd a := by
  simp [synthReport, ha]

omit ha in
@[simp] theorem postedGone_rd (s : State) (m : Msg) : (postedGone s m).rd a = s.rd a := by
  unfold postedGone
  split <;> rfl

/-! ### The Catalogue (R229-R252) -/

@[simp] theorem catStat_portRd (s : State) (h : Half) : (catStat s h).rd a = s.rd a := by
  simp [catStat, ha]

omit ha in
@[simp] theorem mirrorWrite_rd (s : State) (h : Half) (i : Nat) (e : Option CatEnt) : (mirrorWrite s h i e).rd a = s.rd a := by
  simp [mirrorWrite, recordRegions]

@[simp] theorem putEnt_portRd (s : State) (h : Half) (i : Nat) (e : Option CatEnt) : (putEnt s h i e).rd a = s.rd a := by
  simp [putEnt, ha]

@[simp] theorem settleEnt_portRd (s : State) (h : Half) (i : Nat) (e : CatEnt) : (settleEnt s h i e).rd a = s.rd a := by
  simp [settleEnt, ha]

@[simp] theorem putTxn_portRd (s : State) (h : Half) (k : Nat) (t : Txn) : (putTxn s h k t).rd a = s.rd a := by
  simp [putTxn, ha]

@[simp] theorem dropTxn_portRd (s : State) (h : Half) (k : Nat) : (dropTxn s h k).rd a = s.rd a := by simp [dropTxn, ha]

omit ha in
@[simp] theorem catTick_rd (s : State) (h : Half) : (catTick s h).2.rd a = s.rd a := rfl

omit ha in
@[simp] theorem devWrite_rd (s : State) (h : Half) (k id data : Nat) (p : Bool) : (devWrite s h k id data p).rd a = s.rd a :=
  originate_rd _ _ _ _

omit ha in
@[simp] theorem devRead_rd (s : State) (h : Half) (k : Nat) (m : Msg) (op : Op) : (devRead s h k m op).rd a = s.rd a :=
  originate_rd _ _ _ _

@[simp] theorem ownWrite_portRd (s : State) (h : Half) (k data : Nat) (bad : Bool) (use : WrUse) :
    (ownWrite s h k data bad use).rd a = s.rd a := by simp [ownWrite, ha]

@[simp] theorem slotOut_portRd (s : State) (h : Half) (k : Nat) : (slotOut s h k).rd a = s.rd a := by
  unfold slotOut
  split <;> simp [ha]

@[simp] theorem slotFill_portRd (s : State) (h : Half) (k way data : Nat) (psn : Bool) :
    (slotFill s h k way data psn).rd a = s.rd a := by
  unfold slotFill entSlot
  split <;> simp [slotPut, ha]

@[simp] theorem mergeWrite_portRd (s : State) (h : Half) (k : Nat) (e : CatEnt) (way : Nat) (m : Msg) :
    (mergeWrite s h k e way m).rd a = s.rd a := slotFill_portRd ha _ _ _ _ _ _

@[simp] theorem doWrite_portRd (s : State) (h : Half) (k : Nat) (t : Txn) (m : Msg) : (doWrite s h k t m).rd a = s.rd a := by
  unfold doWrite
  dsimp only
  split
  · split <;> simp [ha]
  · simp [ha]

@[simp] theorem getData_portRd (s : State) (h : Half) (k : Nat) (t : Txn) (m : Msg) : (getData s h k t m).rd a = s.rd a := by
  unfold getData
  split <;> simp [slotUse, ha]

@[simp] theorem catRespond_portRd (s : State) (h : Half) (m : Msg) (grant : Hold) (data : Nat) (poison : Bool) (load : Nat)
    (ok : Bool) : (catRespond s h m grant data poison load ok).rd a = s.rd a := by
  unfold catRespond
  dsimp only
  split
  · split <;> simp [freeItagEnt, ha]
  · split <;> simp [ha]

@[simp] theorem finishReq_portRd (s : State) (h : Half) (k : Nat) (t : Txn) (m : Msg) : (finishReq s h k t m).rd a = s.rd a := by
  have hdraw : ∀ (c : Prop) [Decidable c] (n : Nat), (if c then s.draw else (n, s)).2.rd a = s.rd a := fun c _ n => by
    split <;> rfl
  unfold finishReq
  dsimp only
  split
  · simp [ha, hdraw]
  · simp only [catRespond_portRd ha, dropTxn_portRd ha]
    split <;> simp [ha, hdraw]

@[simp] theorem reserveWay_portRd (s : State) (h : Half) (k set : Nat) : (reserveWay s h k set).rd a = s.rd a := by
  unfold reserveWay
  split <;> simp [ha]

@[simp] theorem waitRise_portRd (s : State) (h : Half) (m : Msg) : (waitRise s h m).rd a = s.rd a := by
  unfold waitRise
  dsimp only
  split
  · rfl
  · split
    · rfl
    · exact foldl_rd (fun s x => by simp [ha]) _ _

@[simp] theorem waitPool_portRd (s : State) (h : Half) (m : Msg) (front : Bool) : (waitPool s h m front).rd a = s.rd a := by
  simp [waitPool, newMsg, ha]

@[simp] theorem finishCap_portRd (s : State) (h : Half) (k : Nat) (t : Txn) : (finishCap s h k t).rd a = s.rd a := by
  unfold finishCap
  dsimp only
  split
  · rw [waitPool_portRd ha]
    split
    · simp only [rd_ite, reserveWay_portRd ha, dropTxn_portRd ha, ite_self]
      split <;> simp [ha]
    · rw [dropTxn_portRd ha]
      split <;> simp [ha]
  · rw [dropTxn_portRd ha]
    split <;> simp [ha]

@[simp] theorem finishOwn_portRd (s : State) (h : Half) (k : Nat) : (finishOwn s h k).rd a = s.rd a := by
  unfold finishOwn
  dsimp only
  rw [dropTxn_portRd ha]
  split <;> simp [ha]

@[simp] theorem finishTxn_portRd (s : State) (h : Half) (k : Nat) (t : Txn) : (finishTxn s h k t).rd a = s.rd a := by
  unfold finishTxn
  split <;> simp [ha]

@[simp] theorem stageStep_portRd (s : State) (h : Half) (k : Nat) (t : Txn) : (stageStep s h k t).rd a = s.rd a := by
  unfold stageStep
  split
  case h_1 | h_2 => rfl
  case h_3 | h_4 => split <;> simp [ha]
  case h_5 | h_6 => simp [ha]

@[simp] theorem catAdvance_portRd (s : State) (h : Half) (k : Nat) : (catAdvance s h k).rd a = s.rd a :=
  foldl_rd (fun s x => by split <;> simp [ha]) _ s

@[simp] theorem devAnswer_portRd (s : State) (h : Half) (k load data : Nat) (bad : Bool) :
    (devAnswer s h k load data bad).rd a = s.rd a := by
  unfold devAnswer
  split <;> simp [ha]

@[simp] theorem devLost_portRd (s : State) (h : Half) (k : Nat) : (devLost s h k).rd a = s.rd a := by
  unfold devLost
  split
  · rfl
  · split <;> simp [ha]

@[simp] theorem poisonLine_portRd (s : State) (h : Half) (k : Nat) : (poisonLine s h k).rd a = s.rd a := by
  unfold poisonLine
  dsimp only
  have hcount : (s.fbump (CAT_ERRCNT3 h) CAT_ERRCNT3_POISON_CNT 1).rd a = s.rd a := by
    simp [ha]
  split
  · simp [ha, hcount]
  · split
    · simp [ha, hcount]
    · split <;> simp [ha, hcount]

@[simp] theorem dropHolder_portRd (s : State) (h : Half) (k t : Nat) : (dropHolder s h k t).rd a = s.rd a := by
  unfold dropHolder
  split <;> simp [ha]

@[simp] theorem lostHolder_portRd (s : State) (h : Half) (k t : Nat) : (lostHolder s h k t).rd a = s.rd a := by
  unfold lostHolder
  dsimp only
  split
  · rfl
  · split <;> simp [ha]

@[simp] theorem snoopFlushed_portRd (s : State) (h : Half) (k t : Nat) : (snoopFlushed s h k t).rd a = s.rd a := by
  simp [snoopFlushed, ha]

@[simp] theorem snoopTimedOut_portRd (s : State) (h : Half) (k t : Nat) : (snoopTimedOut s h k t).rd a = s.rd a := by
  simp [snoopTimedOut, ha]

@[simp] theorem catLost_portRd (s : State) (m : Msg) : (catLost s m).rd a = s.rd a := by
  unfold catLost
  dsimp only
  split
  · split <;> simp [ha]
  · simp [ha]

/-! ### Service functions: copies, queues and images (R353-R377) -/

@[simp] theorem meterMsg_portRd (s : State) (t fn b : Nat) (again : Bool) : (meterMsg s t fn b again).2.rd a = s.rd a := by
  unfold meterMsg
  split
  · rfl
  · simp [countColour, ha]

omit ha in
@[simp] theorem modDesc_rd (s : State) (t fn i : Nat) (f : Desc → Desc) : (modDesc s t fn i f).rd a = s.rd a := rfl

omit ha in
@[simp] theorem modMig_rd (s : State) (t : Nat) (f : Mig → Mig) : (modMig s t f).rd a = s.rd a := rfl

/-- The state that forming a part of a copy leaves. -/
def Formed.state : Formed → State
  | .waits s => s
  | .fails _ s => s
  | .gone s => s

theorem formPart_portRd (s : State) (t fn i off : Nat) (g : CopySeg) (data : Option Nat) (again : Bool) :
    (formPart s t fn i off g data again).state.rd a = s.rd a := by
  unfold formPart
  extract_lets h wr p addr pc r u
  have hmeter : u.rd a = s.rd a := meterMsg_portRd ha s t fn (g.len + 16) again
  clear_value p r
  split
  · exact hmeter
  · split
    · simp [Formed.state, ha, hmeter]
    · split
      · simp [Formed.state, ha, hmeter]
      · split
        · exact hmeter
        · split
          · exact hmeter
          · split
            · exact hmeter
            · next hk => simp [Formed.state, ha, hmeter, takeItag_rd hk]

theorem pumpParts_portRd (t fn i : Nat) (l : List (Nat × CopySeg × Option Nat)) :
    ∀ (s : State) (red : Bool), (pumpParts s t fn i red l).rd a = s.rd a := by
  induction l with
  | nil => exact fun _ _ => rfl
  | cons x r ih =>
    obtain ⟨off, g, data⟩ := x
    intro s red
    have hform := formPart_portRd ha s t fn i off g data red
    unfold pumpParts
    split
    · next heq => rw [heq] at hform; exact hform
    · next heq => rw [heq] at hform; exact hform
    · next heq => rw [heq] at hform; exact (ih _ _).trans hform

@[simp] theorem pumpDesc_portRd (s : State) (t fn i : Nat) : (pumpDesc s t fn i).rd a = s.rd a := by
  unfold pumpDesc
  split
  · rfl
  · simp [pumpParts_portRd ha]

omit ha in
@[simp] theorem msixSend_rd (s : State) (t fn v : Nat) : (msixSend s t fn v).rd a = s.rd a := by
  have hhost : ∀ op fn addr len data, (toHost s t op fn addr len data).rd a = s.rd a := fun op fn addr len data => by
    unfold toHost
    dsimp only
    split
    · rfl
    · exact originateStamped_rd _ _ _ _
  simp [msixSend, hhost]

@[simp] theorem qLevel_portRd (s : State) (t fn q : Nat) : (qLevel s t fn q).rd a = s.rd a := by
  simp [qLevel, ha]

@[simp] theorem qAppend_portRd (s : State) (t fn q : Nat) (l : List Nat) : (qAppend s t fn q l).rd a = s.rd a :=
  foldl_rd (fun s x => by simp [ha]) _ s

@[simp] theorem flushCq_portRd (s : State) (t fn : Nat) : (flushCq s t fn).rd a = s.rd a := by
  refine foldl_rd (fun s x => ?_) _ s
  dsimp only
  split
  · rfl
  · simp [ha]

@[simp] theorem copyRead_portRd (s : State) (t fn i off : Nat) (ok poison : Bool) (data : Nat) :
    (copyRead s t fn i off ok poison data).rd a = s.rd a := by
  simp [copyRead, ha]

@[simp] theorem copyLeft_portRd (s : State) (t fn i : Nat) : (copyLeft s t fn i).rd a = s.rd a := by simp [copyLeft, ha]

theorem imageLine_portRd (s : State) (t i : Nat) (data : Option Nat) : (imageLine s t i data).2.rd a = s.rd a := by
  unfold imageLine
  dsimp only
  split
  · simp [ha]
  · split
    · rfl
    · split
      · rfl
      · next hk => simp [ha, takeItag_rd hk]

@[simp] theorem pumpMig_portRd (s : State) (t : Nat) : (pumpMig s t).rd a = s.rd a := by
  unfold pumpMig
  split
  · rfl
  · exact foldl_rd (fun s x => by simp [imageLine_portRd ha]) _ _

@[simp] theorem imageRead_portRd (s : State) (t i : Nat) (ok : Bool) (data : Nat) : (imageRead s t i ok data).rd a = s.rd a := by
  unfold imageRead
  split
  · rfl
  · simp [ha]

/-! ### Messages that are flushed (R162) -/

@[simp] theorem internalLost_portRd (s : State) (e : Nat) : (internalLost s e).rd a = s.rd a := by
  have hflight : ∀ (s : State) (x : ITag), (itagFlight s x).rd a = s.rd a := fun s x => by
    unfold itagFlight
    split <;> simp [ha]
  have howner : ∀ (s : State) (x : ITag), (ownerLost s x).rd a = s.rd a := fun s x => by
    unfold ownerLost
    split <;> simp [ha, copyError, idonePut]
  unfold internalLost
  split
  · rfl
  · simp [hflight, howner, freeItagEnt]

omit ha in
@[simp] theorem passLost_rd (s : State) (m : Msg) (e : Nat) : (passLost s m e).rd a = s.rd a := by
  unfold passLost
  split
  · rfl
  · simp [passFree]

@[simp] theorem stkCopyOut_portRd (s : State) (d : Nat) (sent : Bool) (m : Msg) : (stkCopyOut s d sent m).rd a = s.rd a := by
  unfold stkCopyOut
  dsimp only
  split
  · rfl
  · exact foldl_rd (fun s x => by simp [ha]) _ _

@[simp] theorem endFlushed_portRd (s : State) (m : Msg) (dl : Nat) : (endFlushed s m dl).rd a = s.rd a := by
  simp [endFlushed, ha]

@[simp] theorem dfUse_portRd (s : State) (h : Half) (n : Nat) : (dfUse s h n).rd a = s.rd a := by
  simp [dfUse, dfFullMark, ha]

@[simp] theorem spilledStat_portRd (s : State) (h : Half) : (spilledStat s h).rd a = s.rd a := by
  simp [spilledStat, ha]

@[simp] theorem holdStat_portRd (s : State) (h : Half) : (holdStat s h).rd a = s.rd a := by
  simp [holdStat, ha]

@[simp] theorem queuesDrop_portRd (s : State) (h : Half) (ids : List Nat) : (queuesDrop s h ids).rd a = s.rd a := by
  simp [queuesDrop, unspill, modVoq, ha]

@[simp] theorem flushWhere_portRd (s : State) (h : Half) (f : Msg → Bool) : (flushWhere s h f).rd a = s.rd a :=
  (foldl_rd (fun s m => endFlushed_portRd ha _ _ _) _ _).trans (by simp [ha])

@[simp] theorem mcClear_portRd (s : State) (h : Half) (d : Nat) : (mcClear s h d).rd a = s.rd a := by
  refine foldl_rd (fun s n => ?_) _ s
  dsimp only
  split
  · rfl
  · simp [dropMsg, ha]

/-- Flushing what is queued for a sub-port (R162) writes no port register. -/
@[simp] theorem flushNode_portRd (s : State) (d : Nat) : (flushNode s d).rd a = s.rd a := by simp [flushNode, ha]

/-! ### What the hosts are told, and a tenant's reset (R64, R197, R212, R218) -/

omit ha in
@[simp] theorem linkReport_rd (s : State) (d : Nat) (up : Bool) : (linkReport s d up).rd a = s.rd a := by
  refine foldl_rd (fun s e => ?_) _ s
  simp [vpReport, hpSignal, cfgPut, State.setVp]

@[simp] theorem ringPost_portRd (s : State) (h : Half) (what : List Nat) : (ringPost s h what).rd a = s.rd a := by
  simp [ringPost, ha]

@[simp] theorem queueJob_portRd (s : State) (h : Half) (j : CatJob) : (queueJob s h j).rd a = s.rd a := by
  simp [queueJob, scrubStat, ha]

@[simp] theorem flrBegin_portRd (s : State) (t fn : Nat) (withdraw remove : Bool) :
    (flrBegin s t fn withdraw remove).rd a = s.rd a := by
  simp [flrBegin, setAlive, quarFn, ha]

@[simp] theorem flrPf_portRd (s : State) (t : Nat) (withdraw : Bool) : (flrPf s t withdraw).rd a = s.rd a := by
  simp [flrPf, migReset, migEnd, ha]

/-- The start of a tenant's reset (R218) writes no port register. -/
@[simp] theorem resetStart_portRd (s : State) (t : Nat) : (resetStart s t).rd a = s.rd a := by
  simp [resetStart, cfgReset, State.setVp, ha]

end

end Sys2Proof.Machine
end

section
/-! PROOFS. What the shared operations of lanes and ports do (spec 03): the Eyepiece, Recovery, L0 and L0p, MRD_PROMOTED. -/

namespace Sys2Proof.Machine

open Sys2Proof

/-! ### Sub-ports and the registers of a port -/

@[simp] theorem subNode_div (p : Nat) (k : BitVec 2) : subNode p k.toNat / 4 = p := by
  have := k.isLt
  unfold subNode
  omega

@[simp] theorem subNode_mod (p : Nat) (k : BitVec 2) : subNode p k.toNat % 4 = k.toNat := by
  have := k.isLt
  unfold subNode
  omega

/-- The registers of port p that the end of a scan writes (R91). -/
def eyeRegs (p : Nat) : List Nat := [PRT_EYE_CNT_LO p, PRT_EYE_CNT_LO p + 4, PRT_EYE_ERR p, PRT_EYE_STAT p]

/-- No register of a sub-port is one of the Eyepiece's. -/
theorem not_mem_eyeRegs {p a : Nat} (h : a < PRT_EYE_CTL p ∨ PRT_EYE_ERR p < a) : a ∉ eyeRegs p := by
  simp only [eyeRegs, List.mem_cons, List.not_mem_nil, or_false, PRT_EYE_CNT_LO, PRT_EYE_ERR, PRT_EYE_STAT, PRT_EYE_CTL] at h ⊢
  omega

@[simp] theorem lnkStat_ne (p k : Nat) : PRT_LNK_STAT p k ≠ MRD_PROMOTED ∧ PRT_LNK_STAT p k ≠ PRT_LNK_CTL p k
    ∧ PRT_LNK_STAT p k ≠ PRT_LERRCNT0 p k ∧ PRT_LNK_STAT p k ≠ PRT_LERRCNT1 p k ∧ PRT_LNK_STAT p k ≠ PRT_LANE_STAT p
    ∧ PRT_LNK_STAT p k ∉ eyeRegs p := by
  refine ⟨?_, ?_, ?_, ?_, ?_, not_mem_eyeRegs (Or.inr ?_)⟩ <;>
    simp only [PRT_LNK_STAT, MRD_PROMOTED, PRT_LNK_CTL, PRT_LERRCNT0, PRT_LERRCNT1, PRT_LANE_STAT, PRT_EYE_ERR] <;> omega

@[simp] theorem lnkCtl_ne (p k : Nat) : PRT_LNK_CTL p k ≠ MRD_PROMOTED ∧ PRT_LNK_CTL p k ≠ PRT_LNK_STAT p k
    ∧ PRT_LNK_CTL p k ≠ PRT_LERRCNT0 p k ∧ PRT_LNK_CTL p k ≠ PRT_LANE_STAT p ∧ PRT_LNK_CTL p k ∉ eyeRegs p := by
  refine ⟨?_, ?_, ?_, ?_, not_mem_eyeRegs (Or.inr ?_)⟩ <;>
    simp only [PRT_LNK_STAT, MRD_PROMOTED, PRT_LNK_CTL, PRT_LERRCNT0, PRT_LANE_STAT, PRT_EYE_ERR] <;> omega

@[simp] theorem lerrcnt0_ne (p k : Nat) : PRT_LERRCNT0 p k ≠ MRD_PROMOTED ∧ PRT_LERRCNT0 p k ≠ PRT_LNK_STAT p k
    ∧ PRT_LERRCNT0 p k ≠ PRT_LNK_CTL p k ∧ PRT_LERRCNT0 p k ∉ eyeRegs p := by
  refine ⟨?_, ?_, ?_, not_mem_eyeRegs (Or.inr ?_)⟩ <;>
    simp only [PRT_LNK_STAT, MRD_PROMOTED, PRT_LNK_CTL, PRT_LERRCNT0, PRT_EYE_ERR] <;> omega

@[simp] theorem lerrcnt1_ne (p k : Nat) : PRT_LERRCNT1 p k ≠ MRD_PROMOTED ∧ PRT_LERRCNT1 p k ≠ PRT_LNK_STAT p k
    ∧ PRT_LERRCNT1 p k ≠ PRT_LANE_STAT p ∧ PRT_LERRCNT1 p k ∉ eyeRegs p := by
  refine ⟨?_, ?_, ?_, not_mem_eyeRegs (Or.inr ?_)⟩ <;>
    simp only [PRT_LNK_STAT, MRD_PROMOTED, PRT_LANE_STAT, PRT_LERRCNT1, PRT_EYE_ERR] <;> omega

@[simp] theorem laneStat_ne (p k : Nat) : PRT_LANE_STAT p ≠ PRT_LNK_STAT p k ∧ PRT_LANE_STAT p ≠ PRT_LERRCNT0 p k := by
  simp only [PRT_LNK_STAT, PRT_LERRCNT0, PRT_LANE_STAT]
  omega

@[simp] theorem laneStat_not_mem (p : Nat) : PRT_LANE_STAT p ∉ eyeRegs p :=
  not_mem_eyeRegs (Or.inl (by unfold PRT_LANE_STAT PRT_EYE_CTL; omega))

@[simp] theorem prtCfg_ne (p k : Nat) : PRT_CFG p ≠ PRT_LNK_STAT p k ∧ PRT_CFG p ≠ PRT_LNK_CTL p k := by
  simp only [PRT_CFG, PRT_LNK_STAT, PRT_LNK_CTL]
  omega

@[simp] theorem prtCfg_ne_laneStat (p : Nat) : PRT_CFG p ≠ PRT_LANE_STAT p ∧ PRT_CFG p ∉ eyeRegs p := by
  refine ⟨?_, not_mem_eyeRegs (Or.inl ?_)⟩ <;> simp only [PRT_CFG, PRT_LANE_STAT, PRT_EYE_CTL] <;> omega

theorem fget_of_rd_eq {s t : State} {a : Nat} (h : t.rd a = s.rd a) (f : Fld) : t.fget a f = s.fget a f := by
  simp only [State.fget, h]

theorem flag_of_rd_eq {s t : State} {a : Nat} (h : t.rd a = s.rd a) (f : Fld) : t.flag a f = s.flag a f := by
  simp only [State.flag, fget_of_rd_eq h]

theorem linkPm_of_rd_eq {s t : State} {d : Nat} (h : t.rd (PRT_LNK_STAT (d / 4) (d % 4)) = s.rd (PRT_LNK_STAT (d / 4) (d % 4))) :
    linkPm t d = linkPm s d := fget_of_rd_eq h _

/-- A counter that sticks at its largest value (R101). -/
theorem fget_fbump_same (s : State) (a : Nat) (f : Fld) (n : Nat) (h : f.lo + f.width ≤ 32) :
    (s.fbump a f n).fget a f = min (s.fget a f + n) (2 ^ f.width - 1) := by
  have := Nat.two_pow_pos f.width
  unfold State.fbump
  rw [fget_fset_same _ _ _ _ h, Nat.mod_eq_of_lt (by omega)]

theorem linkUp_of_rd_eq {s t : State} {d : Nat} (h : t.rd (PRT_LNK_STAT (d / 4) (d % 4)) = s.rd (PRT_LNK_STAT (d / 4) (d % 4))) :
    linkUp t d = linkUp s d := by
  simp only [linkUp, linkPm_of_rd_eq h]

theorem inService_of_rd_eq {s t : State} {d : Nat} (h : t.rd (PRT_LNK_STAT (d / 4) (d % 4)) = s.rd (PRT_LNK_STAT (d / 4) (d % 4))) :
    inService t d = inService s d := by
  simp only [inService, linkPm_of_rd_eq h]

/-- Whether L0p may be used depends on PRT_CFG, the link's rate and the partner (R93). -/
theorem l0pMay_congr {s t : State} {p k : Nat} (hcfg : t.rd (PRT_CFG p) = s.rd (PRT_CFG p))
    (hst : t.rd (PRT_LNK_STAT p k) = s.rd (PRT_LNK_STAT p k)) (hsub : t.sub (subNode p k) = s.sub (subNode p k)) :
    l0pMay t p k = l0pMay s p k := by
  simp only [l0pMay, flag_of_rd_eq hcfg, fget_of_rd_eq hst, hsub]

theorem lnkStat_portReg (p : BitVec 5) (k : BitVec 2) : portReg (PRT_LNK_STAT p.toNat k.toNat) := by
  have := p.isLt
  have := k.isLt
  unfold portReg PRT_LNK_STAT
  omega

/-! ### The Eyepiece (R91) -/

@[simp] theorem eyeEnd_subs (s : State) (p r c e : Nat) : (eyeEnd s p r c e).subs = s.subs := by
  unfold eyeEnd
  split
  · rfl
  · simp

@[simp] theorem eyeEnd_rd (s : State) {p a : Nat} (r c e : Nat) (h : a ∉ eyeRegs p) : (eyeEnd s p r c e).rd a = s.rd a := by
  obtain ⟨h1, h2, h3, h4⟩ : a ≠ PRT_EYE_CNT_LO p ∧ a ≠ PRT_EYE_CNT_LO p + 4 ∧ a ≠ PRT_EYE_ERR p ∧ a ≠ PRT_EYE_STAT p := by
    simpa [eyeRegs] using h
  unfold eyeEnd
  split
  · rfl
  · rw [rd_fsets_ne _ _ h4, rd_wr_ne _ _ h3, rd_wr64_ne _ h1 h2]

@[simp] theorem eyeStop_subs (s : State) (p r : Nat) : (eyeStop s p r).subs = s.subs := eyeEnd_subs _ _ _ _ _

@[simp] theorem eyeStop_rd (s : State) {p a : Nat} (r : Nat) (h : a ∉ eyeRegs p) : (eyeStop s p r).rd a = s.rd a :=
  eyeEnd_rd _ _ _ _ h

@[simp] theorem eyeLink_subs (s : State) (p k : Nat) : (eyeLink s p k).subs = s.subs := by
  unfold eyeLink
  split
  · exact eyeStop_subs _ _ _
  · rfl

@[simp] theorem eyeLink_rd (s : State) {p a : Nat} (k : Nat) (h : a ∉ eyeRegs p) : (eyeLink s p k).rd a = s.rd a := by
  simp [eyeLink, h]

@[simp] theorem eyeIdle_subs (s : State) (p k : Nat) : (eyeIdle s p k).subs = s.subs := by
  unfold eyeIdle
  split
  · exact eyeStop_subs _ _ _
  · rfl

@[simp] theorem eyeIdle_rd (s : State) {p a : Nat} (k : Nat) (h : a ∉ eyeRegs p) : (eyeIdle s p k).rd a = s.rd a := by
  simp [eyeIdle, h]

/-! ### MRD_PROMOTED (R466) -/

@[simp] theorem promotedStat_subs (s : State) (p : Nat) : (promotedStat s p).subs = s.subs := by
  unfold promotedStat
  split <;> rfl

@[simp] theorem promotedStat_rd (s : State) (p : Nat) {a : Nat} (h : a ≠ MRD_PROMOTED) : (promotedStat s p).rd a = s.rd a := by
  simp [promotedStat, rd_wr_ne _ _ h]

/-! ### Recovery (R91, R100, R101) -/

/-- Sub-port Pp.k is in Recovery, in a change, and its Recovery is counted. -/
def recovers (s t : State) (p k : Nat) : Prop :=
  linkPm t (subNode p k) = pmRECOV ∧ (t.sub (subNode p k)).change = true
    ∧ t.fget (PRT_LERRCNT0 p k) PRT_LERRCNT0_RECOV_CNT
        = min (s.fget (PRT_LERRCNT0 p k) PRT_LERRCNT0_RECOV_CNT + 1) (2 ^ PRT_LERRCNT0_RECOV_CNT.width - 1)

theorem toRecovery_linkPm (s : State) (d : Nat) : linkPm (toRecovery s d) d = pmRECOV := fget_fset_same _ _ _ _ (by decide)

@[simp] theorem toRecovery_sub (s : State) (d : Nat) : (toRecovery s d).sub d = { s.sub d with change := true } := by
  have h : (setPm ((eyeLink s (d / 4) (d % 4)).fbump (PRT_LERRCNT0 (d / 4) (d % 4)) PRT_LERRCNT0_RECOV_CNT 1) d pmRECOV).sub d
      = s.sub d := sub_congr (eyeLink_subs s _ _) d
  exact (sub_modSub_same _ d _).trans (congrArg (fun x : Sub => { x with change := true }) h)

theorem toRecovery_rd (s : State) {d a : Nat} (h1 : a ≠ PRT_LNK_STAT (d / 4) (d % 4)) (h2 : a ≠ PRT_LERRCNT0 (d / 4) (d % 4))
    (h3 : a ∉ eyeRegs (d / 4)) : (toRecovery s d).rd a = s.rd a := by
  unfold toRecovery setPm
  rw [State.modSub_rd, rd_fset_ne _ _ _ h1, State.fbump, rd_fset_ne _ _ _ h2, eyeLink_rd _ _ h3]

theorem toRecovery_recovers (s : State) (p : Nat) (k : BitVec 2) :
    recovers s (toRecovery s (subNode p k.toNat)) p k.toNat := by
  refine ⟨toRecovery_linkPm s _, by rw [toRecovery_sub], ?_⟩
  unfold toRecovery setPm
  rw [subNode_div, subNode_mod, State.modSub_fget, fget_fset_at_ne _ _ _ _ (by simp),
    fget_fbump_same _ _ _ _ (by decide), fget_of_rd_eq (eyeLink_rd _ _ (by simp))]

/-- What follows Recovery and touches neither the link's registers nor the mark of a change leaves it so; of what went before,
only the count matters. -/
theorem recovers_congr {s s' t t' : State} {p : Nat} {k : BitVec 2} (hr : recovers s t p k.toNat)
    (hs : s.rd (PRT_LERRCNT0 p k.toNat) = s'.rd (PRT_LERRCNT0 p k.toNat))
    (hpm : t'.rd (PRT_LNK_STAT p k.toNat) = t.rd (PRT_LNK_STAT p k.toNat))
    (hcnt : t'.rd (PRT_LERRCNT0 p k.toNat) = t.rd (PRT_LERRCNT0 p k.toNat))
    (hch : (t'.sub (subNode p k.toNat)).change = (t.sub (subNode p k.toNat)).change) : recovers s' t' p k.toNat := by
  obtain ⟨h1, h2, h3⟩ := hr
  refine ⟨(linkPm_of_rd_eq (by simpa using hpm)).trans h1, hch.trans h2, ?_⟩
  rw [fget_of_rd_eq hcnt, h3, fget_of_rd_eq hs]

/-! ### L0 and L0p (R93) -/

theorem setPm_linkPm (s : State) (d : Nat) {pm : Nat} (h : pm < 8) : linkPm (setPm s d pm) d = pm := by
  unfold linkPm setPm
  rw [fget_fset_same _ _ _ _ (by decide)]
  exact Nat.mod_eq_of_lt h

theorem setPm_fget (s : State) (d pm : Nat) {g : Fld} (hg : g.lo + g.width ≤ 4 ∨ 7 ≤ g.lo) (hw : g.lo + g.width ≤ 32) :
    (setPm s d pm).fget (PRT_LNK_STAT (d / 4) (d % 4)) g = s.fget (PRT_LNK_STAT (d / 4) (d % 4)) g :=
  fget_fset_ne _ _ _ _ _ hg hw

theorem tallyRise_subs (s : State) (h : Half) (u e i : Nat) : (tallyRise s h u e i).subs = s.subs := by
  obtain ⟨-, -, hframe, -⟩ := tallyRise_countOnly s h u e i
  rw [hframe]

/-- L0 or L0p by the widths; the state of the link apart, only counting follows. -/
theorem setL0_cases (s : State) (d : Nat) :
    let a := PRT_LNK_STAT (d / 4) (d % 4)
    let pm := if s.fget a PRT_LNK_STAT_AWIDTH < s.fget a PRT_LNK_STAT_TWIDTH then pmL0P else pmL0
    setL0 s d = setPm s d pm ∨ setL0 s d = tallyRise (setPm s d pm) (nodeHalf d) 7 4 (d % 64) := by
  intro a pm
  unfold setL0
  dsimp only
  by_cases hw : s.fget a PRT_LNK_STAT_AWIDTH < s.fget a PRT_LNK_STAT_TWIDTH
  · have hpm : pm = pmL0P := if_pos hw
    rw [if_pos hw, hpm]
    split
    · exact Or.inl rfl
    · exact Or.inr rfl
  · have hpm : pm = pmL0 := if_neg hw
    rw [if_neg hw, hpm]
    exact Or.inl rfl

@[simp] theorem setL0_subs (s : State) (d : Nat) : (setL0 s d).subs = s.subs := by
  rcases setL0_cases s d with h | h <;> rw [h]
  · rfl
  · exact tallyRise_subs _ _ _ _ _

theorem setL0_portRd (s : State) {d a : Nat} (ha : portReg a) : (setL0 s d).rd a
    = (setPm s d (if s.fget (PRT_LNK_STAT (d / 4) (d % 4)) PRT_LNK_STAT_AWIDTH < s.fget (PRT_LNK_STAT (d / 4) (d % 4)) PRT_LNK_STAT_TWIDTH
        then pmL0P else pmL0)).rd a := by
  rcases setL0_cases s d with h | h <;> rw [h]
  exact tallyRise_portRd ha _ _ _ _ _

/-! ### The L0p width that Kezen asks for (R93, R97) -/

/-- A sub-port for which Kezen has asked for a width. -/
def askingWidth (w : Nat) (x : Sub) : Sub := { x with change := true, l0pTo := some w, ask := some .width }

theorem askWidth_asks {s : State} {d : Nat} (hup : linkUp s d = true) (hmay : l0pMay s (d / 4) (d % 4) = true)
    (h0 : l0pFits s (d / 4) (d % 4) ≠ 0)
    (hne : l0pFits s (d / 4) (d % 4) ≠ s.fget (PRT_LNK_STAT (d / 4) (d % 4)) PRT_LNK_STAT_AWIDTH) :
    askWidth s d = (eyeLink s (d / 4) (d % 4)).modSub d (askingWidth (l0pFits s (d / 4) (d % 4))) :=
  if_pos (by simp [hup, hmay, h0, hne])

theorem askWidth_asks_sub {s : State} {d : Nat} (hup : linkUp s d = true) (hmay : l0pMay s (d / 4) (d % 4) = true)
    (h0 : l0pFits s (d / 4) (d % 4) ≠ 0)
    (hne : l0pFits s (d / 4) (d % 4) ≠ s.fget (PRT_LNK_STAT (d / 4) (d % 4)) PRT_LNK_STAT_AWIDTH) :
    (askWidth s d).sub d = askingWidth (l0pFits s (d / 4) (d % 4)) (s.sub d) := by
  rw [askWidth_asks hup hmay h0 hne, sub_modSub_same, sub_congr (eyeLink_subs s _ _)]

theorem askWidth_rd (s : State) {d a : Nat} (h : a ∉ eyeRegs (d / 4)) : (askWidth s d).rd a = s.rd a := by
  simp [askWidth, h]

/-- Asking for a width leaves what training has found of the partner. -/
theorem askWidth_keeps (s : State) (d : Nat) : ((askWidth s d).sub d).reached = (s.sub d).reached
    ∧ ((askWidth s d).sub d).fails = (s.sub d).fails ∧ ((askWidth s d).sub d).dev = (s.sub d).dev := by
  unfold askWidth
  dsimp only
  split
  · rw [sub_modSub_same, sub_congr (eyeLink_subs s _ _)]
    exact ⟨rfl, rfl, rfl⟩
  · exact ⟨rfl, rfl, rfl⟩

/-! ### The start of equalisation (R88) -/

theorem subLanes_le (s : State) (p : Nat) : subLanes s p ≤ 16 := by
  unfold subLanes
  split <;> decide

@[simp] theorem putCoeff_subs (s : State) (p n : Nat) (c : Coeff) : (putCoeff s p n c).subs = s.subs := State.fsets_subs _ _ _

theorem putCoeff_rd (s : State) {p n a : Nat} (c : Coeff) (h : a ≠ PRT_TXC p n) : (putCoeff s p n c).rd a = s.rd a :=
  rd_fsets_ne _ _ h

/-- The start of equalisation writes no register but the coefficients of the sub-port's lanes. -/
theorem eqStart_rd (s : State) {d a : Nat} (rate : Nat) (h : a < PRT_TXC (d / 4) 0 ∨ PRT_EYE_CTL (d / 4) ≤ a) :
    (eqStart s d rate).rd a = s.rd a := by
  have hlanes : ∀ u i, i ∈ List.range (subLanes s (d / 4)) →
      (putCoeff u (d / 4) (laneBase (d % 4) + i) (startSet u (d / 4) rate)).rd a = u.rd a := fun u i hi => by
    have hk : d % 4 < 4 := Nat.mod_lt _ (by decide)
    have hi' := List.mem_range.mp hi
    have := subLanes_le s (d / 4)
    simp only [PRT_TXC, PRT_EYE_CTL] at h
    exact putCoeff_rd _ _ (by simp only [PRT_TXC, laneBase]; omega)
  have hfold := foldl_keeps (State.rd · a) hlanes s
  simpa [eqStart] using hfold

theorem eqStart_sub (s : State) (d rate : Nat) : (eqStart s d rate).sub d = { s.sub d with eqRate := rate } := by
  have hfold := foldl_keeps State.subs (f := fun u i => putCoeff u (d / 4) (laneBase (d % 4) + i) (startSet u (d / 4) rate))
    (l := List.range (subLanes s (d / 4))) (fun u i _ => putCoeff_subs _ _ _ _) s
  unfold eqStart
  dsimp only
  rw [sub_modSub_same]
  refine congrArg (fun x : Sub => { x with eqRate := rate }) (sub_congr ?_ d)
  split
  · exact hfold
  · exact hfold

end Sys2Proof.Machine
end

section
/-! PROOFS. Writes of PRT_LNK_CTL that change one field (R78, R93, R100). -/

namespace Sys2Proof.Machine

open Sys2Proof

/-! ### A field put into a word that holds only some bits -/

theorem getLsbD_of_mask {o m : Word} (ho : o &&& m = o) (i : Nat) : o.getLsbD i = (o.getLsbD i && m.getLsbD i) := by
  rw [← BitVec.getLsbD_and, ho]

/-- A field outside the mask is not kept. -/
theorem fldPut_and_mask_out {o m : Word} (f : Fld) (n : Nat) (ho : o &&& m = o) (hf : fldMask f &&& m = 0) :
    fldPut o f n &&& m = o := by
  refine BitVec.eq_of_getLsbD_eq fun i hi => ?_
  have hbit : ((fldMask f).getLsbD i && m.getLsbD i) = false := by rw [← BitVec.getLsbD_and, hf]; exact BitVec.getLsbD_zero
  have hfld := fldMask_bit_iff f hi
  rw [BitVec.getLsbD_and, getLsbD_fldPut, getLsbD_of_mask ho i]
  by_cases hin : f.lo ≤ i ∧ i < f.lo + f.width
  · have hm : m.getLsbD i = false := by simpa [hfld.mpr hin] using hbit
    simp [hm]
  · simp [hi, hin]

/-- A field inside the mask is. -/
theorem fldPut_and_mask_in {o m : Word} (f : Fld) (n : Nat) (ho : o &&& m = o) (hf : fldMask f &&& m = fldMask f) :
    fldPut o f n &&& m = fldPut o f n := by
  refine BitVec.eq_of_getLsbD_eq fun i hi => ?_
  have hfld := fldMask_bit_iff f hi
  rw [BitVec.getLsbD_and, getLsbD_fldPut]
  by_cases hin : f.lo ≤ i ∧ i < f.lo + f.width
  · have hm : m.getLsbD i = true := by
      have := getLsbD_of_mask hf i
      simpa [hfld.mpr hin] using this
    simp [hm]
  · have := getLsbD_of_mask ho i
    simp only [hi, hin, if_false, decide_true, Bool.true_and]
    exact this.symm

/-! ### The parts of a write -/

/-- What a write of PRT_LNK_CTL that leaves DISABLE as it is asks of the link: a width, a retrain, a re-equalisation. -/
def lnkParts (s : State) (d : Nat) (width retrain reeq : Bool) : State :=
  let s := if width then lnkWidth s d else s
  let s := if retrain then lnkRetrain s d else s
  if reeq then lnkReeq s d else s

/-- A write that leaves DISABLE as it is. -/
theorem lnkCtlWrite_kept (s : State) (p k : Nat) (v : Word) (h0 : v.getLsbD 0 = (s.rd (PRT_LNK_CTL p k)).getLsbD 0) :
    lnkCtlWrite s p k v = promotedStat (lnkParts (s.wr (PRT_LNK_CTL p k) (v &&& 0xF1)) (subNode p k)
      (decide (fldGet v PRT_LNK_CTL_L0P_W ≠ fldGet (s.rd (PRT_LNK_CTL p k)) PRT_LNK_CTL_L0P_W)) (v.getLsbD 2) (v.getLsbD 3)) p := by
  have hbit : ∀ (w : Word) i, bitB w.toNat i = w.getLsbD i := fun _ _ => rfl
  have hw : ∀ w : Word, bits w.toNat 7 5 = fldGet w PRT_LNK_CTL_L0P_W := fun _ => rfl
  simp only [lnkCtlWrite, lnkParts, hbit, hw, h0, Bool.and_not_self, Bool.not_and_self, Bool.false_eq_true, if_false,
    decide_eq_true_eq]

/-- RETRAIN and REEQ read 0: bits 2 and 3 are not held. -/
theorem lnkCtl_bit_eq_false {o : Word} (ho : o &&& 0xF1 = o) {i : Nat} (hi : i = 2 ∨ i = 3) : o.getLsbD i = false := by
  rw [getLsbD_of_mask ho i]
  rcases hi with rfl | rfl <;> exact Bool.and_false _

/-- A register that is written with what it holds reads as before. -/
theorem rd_wr_self (s : State) (a b : Nat) {v : Word} (hv : v = s.rd a) : (s.wr a v).rd b = s.rd b := by
  by_cases hb : b = a
  · rw [hb, rd_wr_same, hv]
  · exact rd_wr_ne _ _ hb

section
variable {s : State} {m : Master} {p : BitVec 5} {k : BitVec 2} (hm : mayAct s m (PRT_LNK_CTL p.toNat k.toNat))
include hm

/-- A write of a field f other than DISABLE. -/
theorem lnkCtlField_kept (f : Fld) (n : Nat) (hf : 0 < f.lo) :
    lnkCtlField s m p.toNat k.toNat f n =
      promotedStat (lnkParts (s.wr (PRT_LNK_CTL p.toNat k.toNat) (fldPut (s.rd (PRT_LNK_CTL p.toNat k.toNat)) f n &&& 0xF1))
        (subNode p.toNat k.toNat)
        (decide (fldGet (fldPut (s.rd (PRT_LNK_CTL p.toNat k.toNat)) f n) PRT_LNK_CTL_L0P_W
          ≠ s.fget (PRT_LNK_CTL p.toNat k.toNat) PRT_LNK_CTL_L0P_W))
        ((fldPut (s.rd (PRT_LNK_CTL p.toNat k.toNat)) f n).getLsbD 2)
        ((fldPut (s.rd (PRT_LNK_CTL p.toNat k.toNat)) f n).getLsbD 3)) p.toNat := by
  unfold lnkCtlField
  rw [csGate_mayAct _ _ _ _ hm, lnkCtlWrite_kept]
  · rfl
  · have hout : ¬ (f.lo ≤ 0 ∧ 0 < f.lo + f.width) := by omega
    rw [getLsbD_fldPut, if_neg hout]
    exact Bool.true_and _

variable (ho : s.rd (PRT_LNK_CTL p.toNat k.toNat) &&& 0xF1 = s.rd (PRT_LNK_CTL p.toNat k.toNat))
include ho

theorem exec_complianceWrite (on : Bool) : exec (.complianceWrite m p k on) s =
    .next (promotedStat (s.fset (PRT_LNK_CTL p.toNat k.toNat) PRT_LNK_CTL_COMPL on.toNat) p.toNat) := by
  show Host.Outcome.next (lnkCtlField s m p.toNat k.toNat PRT_LNK_CTL_COMPL on.toNat) = _
  rw [lnkCtlField_kept hm _ _ (by decide), fldPut_and_mask_in _ _ ho (by decide)]
  have h2 := lnkCtl_bit_eq_false ho (Or.inl rfl)
  have h3 := lnkCtl_bit_eq_false ho (Or.inr rfl)
  rw [fldGet_fldPut_ne _ _ _ _ (by decide) (by decide), getLsbD_fldPut, getLsbD_fldPut, h2, h3]
  simp [lnkParts, PRT_LNK_CTL_COMPL, State.fget, State.fset]

theorem exec_retrainWrite : exec (.retrainWrite m p k) s =
    .next (promotedStat (lnkRetrain (s.wr (PRT_LNK_CTL p.toNat k.toNat) (s.rd (PRT_LNK_CTL p.toNat k.toNat)))
      (subNode p.toNat k.toNat)) p.toNat) := by
  show Host.Outcome.next (lnkCtlField s m p.toNat k.toNat PRT_LNK_CTL_RETRAIN 1) = _
  rw [lnkCtlField_kept hm _ _ (by decide), fldPut_and_mask_out _ _ ho (by decide),
    fldGet_fldPut_ne _ _ _ _ (by decide) (by decide), getLsbD_fldPut, getLsbD_fldPut, lnkCtl_bit_eq_false ho (Or.inr rfl)]
  simp [lnkParts, PRT_LNK_CTL_RETRAIN, State.fget]

theorem exec_reeqWrite : exec (.reeqWrite m p k) s =
    .next (promotedStat (lnkReeq (s.wr (PRT_LNK_CTL p.toNat k.toNat) (s.rd (PRT_LNK_CTL p.toNat k.toNat)))
      (subNode p.toNat k.toNat)) p.toNat) := by
  show Host.Outcome.next (lnkCtlField s m p.toNat k.toNat PRT_LNK_CTL_REEQ 1) = _
  rw [lnkCtlField_kept hm _ _ (by decide), fldPut_and_mask_out _ _ ho (by decide),
    fldGet_fldPut_ne _ _ _ _ (by decide) (by decide), getLsbD_fldPut, getLsbD_fldPut, lnkCtl_bit_eq_false ho (Or.inl rfl)]
  simp [lnkParts, PRT_LNK_CTL_REEQ, State.fget]

theorem exec_l0pWidthWrite {w : BitVec 3} (hw : s.fget (PRT_LNK_CTL p.toNat k.toNat) PRT_LNK_CTL_L0P_W ≠ w.toNat) :
    exec (.l0pWidthWrite m p k w) s =
      .next (promotedStat (lnkWidth (s.fset (PRT_LNK_CTL p.toNat k.toNat) PRT_LNK_CTL_L0P_W w.toNat)
        (subNode p.toNat k.toNat)) p.toNat) := by
  show Host.Outcome.next (lnkCtlField s m p.toNat k.toNat PRT_LNK_CTL_L0P_W w.toNat) = _
  have hmod : w.toNat % 2 ^ PRT_LNK_CTL_L0P_W.width = w.toNat := Nat.mod_eq_of_lt w.isLt
  rw [lnkCtlField_kept hm _ _ (by decide), fldPut_and_mask_in _ _ ho (by decide), fldGet_fldPut_same _ _ _ (by decide), hmod,
    getLsbD_fldPut, getLsbD_fldPut, lnkCtl_bit_eq_false ho (Or.inl rfl), lnkCtl_bit_eq_false ho (Or.inr rfl),
    decide_eq_true (Ne.symm hw)]
  simp [lnkParts, PRT_LNK_CTL_L0P_W, State.fset]

end

/-! ### What the link does -/

section
variable {s : State} {m : Master} {p : BitVec 5} {k : BitVec 2} (hm : mayAct s m (PRT_LNK_CTL p.toNat k.toNat))
  (ho : s.rd (PRT_LNK_CTL p.toNat k.toNat) &&& 0xF1 = s.rd (PRT_LNK_CTL p.toNat k.toNat))
include hm ho

theorem complianceWrite_sets (on : Bool) : ∃ t, exec (.complianceWrite m p k on) s = .next t
    ∧ t.flag (PRT_LNK_CTL p.toNat k.toNat) PRT_LNK_CTL_COMPL = on
    ∧ ∀ a, a ≠ PRT_LNK_CTL p.toNat k.toNat → a ≠ MRD_PROMOTED → t.rd a = s.rd a := by
  refine ⟨_, exec_complianceWrite hm ho on, ?_, fun a hc hp => ?_⟩
  · rw [flag_of_rd_eq (promotedStat_rd _ _ (lnkCtl_ne _ k.toNat).1), State.flag, fget_fset_same _ _ _ _ (by decide)]
    cases on <;> rfl
  · rw [promotedStat_rd _ _ hp, rd_fset_ne _ _ _ hc]

section
variable (hr : (s.sub (subNode p.toNat k.toNat)).reached = true)
include hr

/-- A retrain while no change is under way takes the link to Recovery. -/
theorem retrainWrite_recovers (hc : (s.sub (subNode p.toNat k.toNat)).change = false) :
    ∃ t, exec (.retrainWrite m p k) s = .next t ∧ recovers s t p.toNat k.toNat
      ∧ t.rd (PRT_LNK_CTL p.toNat k.toNat) = s.rd (PRT_LNK_CTL p.toNat k.toNat) := by
  have hgo : ∀ u : State, u.subs = s.subs → lnkRetrain u (subNode p.toNat k.toNat) = toRecovery u (subNode p.toNat k.toNat) :=
    fun u hu => by simp [lnkRetrain, sub_congr hu, hr, hc]
  refine ⟨_, exec_retrainWrite hm ho, ?_, ?_⟩ <;> rw [hgo (s.wr _ _) rfl]
  · refine recovers_congr (toRecovery_recovers _ p.toNat k) (rd_wr_self s (PRT_LNK_CTL p.toNat k.toNat) _ rfl) ?_ ?_ ?_
    · simp
    · simp
    · rw [sub_congr (promotedStat_subs _ _)]
  · rw [promotedStat_rd _ _ (by simp), toRecovery_rd _ (by simp) (by simp) (by simp), rd_wr_self _ _ _ rfl]

/-- A retrain during a change waits. -/
theorem retrainWrite_waits (hc : (s.sub (subNode p.toNat k.toNat)).change = true) :
    ∃ t, exec (.retrainWrite m p k) s = .next t ∧ (t.sub (subNode p.toNat k.toNat)).heldRetrain = true
      ∧ linkPm t (subNode p.toNat k.toNat) = linkPm s (subNode p.toNat k.toNat) := by
  have hgo : ∀ u : State, u.subs = s.subs → lnkRetrain u (subNode p.toNat k.toNat)
      = u.modSub (subNode p.toNat k.toNat) fun x => { x with heldRetrain := true } :=
    fun u hu => by simp [lnkRetrain, sub_congr hu, hr, hc]
  refine ⟨_, exec_retrainWrite hm ho, ?_, ?_⟩ <;> rw [hgo (s.wr _ _) rfl]
  · rw [sub_congr (promotedStat_subs _ _), sub_modSub_same]
  · refine linkPm_of_rd_eq ?_
    rw [promotedStat_rd _ _ (by simp), State.modSub_rd, rd_wr_self _ _ _ rfl]

variable (hc : (s.sub (subNode p.toNat k.toNat)).change = false) (hup : linkUp s (subNode p.toNat k.toNat) = true)
include hc hup

/-- A re-equalisation of a link that is up takes it to Recovery, with equalisation. -/
theorem reeqWrite_recovers : ∃ t, exec (.reeqWrite m p k) s = .next t ∧ recovers s t p.toNat k.toNat
    ∧ (t.sub (subNode p.toNat k.toNat)).eq = true
    ∧ t.rd (PRT_LNK_CTL p.toNat k.toNat) = s.rd (PRT_LNK_CTL p.toNat k.toNat) := by
  generalize hu : s.wr (PRT_LNK_CTL p.toNat k.toNat) (s.rd (PRT_LNK_CTL p.toNat k.toNat)) = u
  have hrd : ∀ a, u.rd a = s.rd a := fun a => hu ▸ rd_wr_self _ _ _ rfl
  have hsub : u.sub (subNode p.toNat k.toNat) = s.sub (subNode p.toNat k.toNat) := hu ▸ rfl
  generalize hv : (toRecovery u (subNode p.toNat k.toNat)).modSub (subNode p.toNat k.toNat)
    (fun x => { x with eq := true, ask := some .reeq }) = v
  have hvrd : ∀ a, v.rd a = (toRecovery u (subNode p.toNat k.toNat)).rd a := fun a => hv ▸ rfl
  have hvsub : v.sub (subNode p.toNat k.toNat) = { s.sub (subNode p.toNat k.toNat) with change := true, eq := true, ask := some .reeq } := by
    rw [← hv, sub_modSub_same, toRecovery_sub, hsub]
  have hgo : lnkReeq u (subNode p.toNat k.toNat)
      = eqStart v (subNode p.toNat k.toNat) (u.fget (PRT_LNK_STAT p.toNat k.toNat) PRT_LNK_STAT_RATE) := by
    rw [← hv]
    simp [lnkReeq, hsub, hr, hc, linkUp_of_rd_eq (hrd _), hup]
  have hfar : ∀ a, PRT_LNK_STAT p.toNat 0 ≤ a → a ≠ MRD_PROMOTED →
      (promotedStat (lnkReeq u (subNode p.toNat k.toNat)) p.toNat).rd a = (toRecovery u (subNode p.toNat k.toNat)).rd a :=
    fun a ha hp => by
      rw [promotedStat_rd _ _ hp, hgo, eqStart_rd _ _ (Or.inr ?_), hvrd]
      simp only [subNode_div, PRT_LNK_STAT, PRT_EYE_CTL] at ha ⊢
      omega
  have hsubs : (promotedStat (lnkReeq u (subNode p.toNat k.toNat)) p.toNat).sub (subNode p.toNat k.toNat)
      = { v.sub (subNode p.toNat k.toNat) with eqRate := u.fget (PRT_LNK_STAT p.toNat k.toNat) PRT_LNK_STAT_RATE } := by
    rw [sub_congr (promotedStat_subs _ _), hgo, eqStart_sub]
  refine ⟨_, hu ▸ exec_reeqWrite hm ho, ?_, ?_, ?_⟩
  · refine recovers_congr (toRecovery_recovers u p.toNat k) (hrd _) (hfar _ ?_ (by simp)) (hfar _ ?_ (by simp)) ?_
    · unfold PRT_LNK_STAT; omega
    · unfold PRT_LNK_STAT PRT_LERRCNT0; omega
    · rw [hsubs, hvsub, toRecovery_sub]
  · rw [hsubs, hvsub]
  · rw [hfar _ (by unfold PRT_LNK_STAT PRT_LNK_CTL; omega) (by simp), toRecovery_rd _ (by simp) (by simp) (by simp), hrd]

/-- A width write asks for the width that fits. -/
theorem l0pWidthWrite_asks (w : BitVec 3) (hmay : l0pMay s p.toNat k.toNat = true)
    (hw : s.fget (PRT_LNK_CTL p.toNat k.toNat) PRT_LNK_CTL_L0P_W ≠ w.toNat)
    {fits : Nat} (hfits : l0pFits (s.fset (PRT_LNK_CTL p.toNat k.toNat) PRT_LNK_CTL_L0P_W w.toNat) p.toNat k.toNat = fits)
    (h0 : fits ≠ 0) (hne : fits ≠ s.fget (PRT_LNK_STAT p.toNat k.toNat) PRT_LNK_STAT_AWIDTH) :
    ∃ t, exec (.l0pWidthWrite m p k w) s = .next t ∧ (t.sub (subNode p.toNat k.toNat)).l0pTo = some fits
      ∧ (t.sub (subNode p.toNat k.toNat)).change = true ∧ t.fget (PRT_LNK_CTL p.toNat k.toNat) PRT_LNK_CTL_L0P_W = w.toNat := by
  have hexec := exec_l0pWidthWrite hm ho hw
  have hctl : (s.fset (PRT_LNK_CTL p.toNat k.toNat) PRT_LNK_CTL_L0P_W w.toNat).fget (PRT_LNK_CTL p.toNat k.toNat) PRT_LNK_CTL_L0P_W
      = w.toNat := (fget_fset_same _ _ _ _ (by decide)).trans (Nat.mod_eq_of_lt w.isLt)
  have hrd : ∀ a, a ≠ PRT_LNK_CTL p.toNat k.toNat → (s.fset (PRT_LNK_CTL p.toNat k.toNat) PRT_LNK_CTL_L0P_W w.toNat).rd a = s.rd a :=
    fun a ha => rd_fset_ne _ _ _ ha
  have hsub : (s.fset (PRT_LNK_CTL p.toNat k.toNat) PRT_LNK_CTL_L0P_W w.toNat).sub (subNode p.toNat k.toNat)
      = s.sub (subNode p.toNat k.toNat) := rfl
  generalize s.fset (PRT_LNK_CTL p.toNat k.toNat) PRT_LNK_CTL_L0P_W w.toNat = u at *
  have hst := hrd (PRT_LNK_STAT p.toNat k.toNat) (by simp)
  have hup' : linkUp u (subNode p.toNat k.toNat) = true := (linkUp_of_rd_eq (by simpa using hst)).trans hup
  have hmay' : l0pMay u p.toNat k.toNat = true := (l0pMay_congr (hrd _ (prtCfg_ne _ _).2) hst hsub).trans hmay
  have hgo : lnkWidth u (subNode p.toNat k.toNat) = askWidth u (subNode p.toNat k.toNat) := by
    simp [lnkWidth, hsub, hr, hc, hup']
  have hask : (askWidth u (subNode p.toNat k.toNat)).sub (subNode p.toNat k.toNat)
      = askingWidth fits (u.sub (subNode p.toNat k.toNat)) := by
    have h := askWidth_asks_sub (s := u) (d := subNode p.toNat k.toNat) hup'
    simp only [subNode_div, subNode_mod, hfits, fget_of_rd_eq hst] at h
    exact h hmay' h0 hne
  rw [hgo] at hexec
  refine ⟨_, hexec, ?_, ?_, ?_⟩
  · rw [sub_congr (promotedStat_subs _ _), hask]; rfl
  · rw [sub_congr (promotedStat_subs _ _), hask]; rfl
  · rw [fget_of_rd_eq (promotedStat_rd _ _ (lnkCtl_ne _ k.toNat).1), fget_of_rd_eq (askWidth_rd _ (by simp)), hctl]

end
end

/-- A held retrain takes effect once no change is under way. -/
theorem heldLinkWriteApply_recovers {s : State} {p : BitVec 5} {k : BitVec 2}
    (hc : (s.sub (subNode p.toNat k.toNat)).change = false) (hup : linkUp s (subNode p.toNat k.toNat) = true)
    (hh : (s.sub (subNode p.toNat k.toNat)).heldRetrain = true) :
    ∃ t, exec (.heldLinkWriteApply p k) s = .next t ∧ recovers s t p.toNat k.toNat
      ∧ (t.sub (subNode p.toNat k.toNat)).heldRetrain = false := by
  have hexec : exec (.heldLinkWriteApply p k) s = .next (toRecovery (s.modSub (subNode p.toNat k.toNat)
      fun x => { x with heldRetrain := false }) (subNode p.toNat k.toNat)) := by
    show execHeldLinkWriteApply p k s = _
    simp [execHeldLinkWriteApply, hc, hup, hh]
  refine ⟨_, hexec, toRecovery_recovers _ p.toNat k, ?_⟩
  rw [toRecovery_sub, sub_modSub_same]

/-- Settles O22, command by command. -/
theorem linkControlWrites : Obligations.LinkControlWrites := by
  intro s m p k on w P K d c x recov fits hm ho
  exact ⟨complianceWrite_sets hm ho on, retrainWrite_recovers hm ho, retrainWrite_waits hm ho, reeqWrite_recovers hm ho,
    fun hr hc hup hmay hw h0 hne => l0pWidthWrite_asks hm ho hr hc hup w hmay hw rfl h0 hne, heldLinkWriteApply_recovers⟩

end Sys2Proof.Machine
end

section
/-! PROOFS. Links move between L0, L0p, L1 and Recovery (R91, R93, R94, R98, R99), and ports are promoted (R466). -/

namespace Sys2Proof.Machine

open Sys2Proof

/-! ### L1, L0 and L0p -/

/-- L0p while the active width is below the trained width, L0 else. -/
theorem setL0_linkPm (s : State) (p : BitVec 5) (k : BitVec 2) :
    linkPm (setL0 s (subNode p.toNat k.toNat)) (subNode p.toNat k.toNat)
      = if s.fget (PRT_LNK_STAT p.toNat k.toNat) PRT_LNK_STAT_AWIDTH < s.fget (PRT_LNK_STAT p.toNat k.toNat) PRT_LNK_STAT_TWIDTH
        then pmL0P else pmL0 := by
  have hreg : portReg (PRT_LNK_STAT (subNode p.toNat k.toNat / 4) (subNode p.toNat k.toNat % 4)) := by
    simpa using lnkStat_portReg p k
  rw [linkPm_of_rd_eq (setL0_portRd s hreg), subNode_div, subNode_mod]
  split
  · exact setPm_linkPm _ _ (by decide)
  · exact setPm_linkPm _ _ (by decide)

/-- L0 and L0p change no field of PRT_LNK_STAT but PM. -/
theorem setL0_fget (s : State) (p : BitVec 5) (k : BitVec 2) {g : Fld} (hg : g.lo + g.width ≤ 4 ∨ 7 ≤ g.lo)
    (hw : g.lo + g.width ≤ 32) : (setL0 s (subNode p.toNat k.toNat)).fget (PRT_LNK_STAT p.toNat k.toNat) g
      = s.fget (PRT_LNK_STAT p.toNat k.toNat) g := by
  rw [fget_of_rd_eq (setL0_portRd s (lnkStat_portReg p k))]
  have h := setPm_fget s (subNode p.toNat k.toNat)
    (if s.fget (PRT_LNK_STAT p.toNat k.toNat) PRT_LNK_STAT_AWIDTH < s.fget (PRT_LNK_STAT p.toNat k.toNat) PRT_LNK_STAT_TWIDTH
        then pmL0P else pmL0) hg hw
  simpa using h

section
variable {s : State} {p : BitVec 5} {k : BitVec 2}

theorem l1Entry_enters (hup : linkUp s (subNode p.toNat k.toNat) = true) (hen : s.flag (PRT_CFG p.toNat) PRT_CFG_L1_EN = true)
    (hc : (s.sub (subNode p.toNat k.toNat)).change = false) :
    ∃ t, exec (.l1Entry p k) s = .next t ∧ linkPm t (subNode p.toNat k.toNat) = pmL1 :=
  ⟨setPm (eyeLink s p.toNat k.toNat) (subNode p.toNat k.toNat) pmL1, if_pos (by simp [hup, hen, hc]), setPm_linkPm _ _ (by decide)⟩

theorem l1Exit_leaves (hpm : linkPm s (subNode p.toNat k.toNat) = pmL1) :
    ∃ t, exec (.l1Exit p k) s = .next t ∧ linkPm t (subNode p.toNat k.toNat)
      = if s.fget (PRT_LNK_STAT p.toNat k.toNat) PRT_LNK_STAT_AWIDTH < s.fget (PRT_LNK_STAT p.toNat k.toNat) PRT_LNK_STAT_TWIDTH
        then pmL0P else pmL0 :=
  ⟨_, if_pos hpm, setL0_linkPm s p k⟩

/-- A sub-port whose width change has ended. -/
def widthDone (x : Sub) : Sub := { x with l0pTo := none, change := false, ask := none }

/-- The width change ends at the width that was asked for. -/
theorem l0pWidthChanged_ends {w : Nat} (hto : (s.sub (subNode p.toNat k.toNat)).l0pTo = some w) (hw : w < 32)
    (hup : linkUp s (subNode p.toNat k.toNat) = true) :
    ∃ t, exec (.l0pWidthChanged p k) s = .next t ∧ t.fget (PRT_LNK_STAT p.toNat k.toNat) PRT_LNK_STAT_AWIDTH = w
      ∧ (t.sub (subNode p.toNat k.toNat)).l0pTo = none ∧ (t.sub (subNode p.toNat k.toNat)).change = false
      ∧ linkPm t (subNode p.toNat k.toNat)
        = if w < s.fget (PRT_LNK_STAT p.toNat k.toNat) PRT_LNK_STAT_TWIDTH then pmL0P else pmL0 := by
  generalize hu : (s.fset (PRT_LNK_STAT p.toNat k.toNat) PRT_LNK_STAT_AWIDTH w).modSub (subNode p.toNat k.toNat) widthDone = u
  have haw : u.fget (PRT_LNK_STAT p.toNat k.toNat) PRT_LNK_STAT_AWIDTH = w := by
    rw [← hu, State.modSub_fget, fget_fset_same _ _ _ _ (by decide)]
    exact Nat.mod_eq_of_lt hw
  have htw : u.fget (PRT_LNK_STAT p.toNat k.toNat) PRT_LNK_STAT_TWIDTH = s.fget (PRT_LNK_STAT p.toNat k.toNat) PRT_LNK_STAT_TWIDTH := by
    rw [← hu, State.modSub_fget, fget_fset_ne _ _ _ _ _ (by decide) (by decide)]
  have hsub : u.sub (subNode p.toNat k.toNat) = widthDone (s.sub (subNode p.toNat k.toNat)) := by
    rw [← hu, sub_modSub_same]
    rfl
  have hexec : exec (.l0pWidthChanged p k) s
      = .next (promotedStat (eyeIdle (setL0 u (subNode p.toNat k.toNat)) p.toNat k.toNat) p.toNat) := by
    show execL0pWidthChanged p k s = _
    rw [← hu]
    simp [execL0pWidthChanged, hto, hup]
    rfl
  have hrd : (promotedStat (eyeIdle (setL0 u (subNode p.toNat k.toNat)) p.toNat k.toNat) p.toNat).rd (PRT_LNK_STAT p.toNat k.toNat)
      = (setL0 u (subNode p.toNat k.toNat)).rd (PRT_LNK_STAT p.toNat k.toNat) := by simp
  have hsubs : (promotedStat (eyeIdle (setL0 u (subNode p.toNat k.toNat)) p.toNat k.toNat) p.toNat).subs = u.subs := by simp
  refine ⟨_, hexec, ?_, ?_, ?_, ?_⟩
  · rw [fget_of_rd_eq hrd, setL0_fget _ _ _ (by decide) (by decide), haw]
  · rw [sub_congr hsubs, hsub]; rfl
  · rw [sub_congr hsubs, hsub]; rfl
  · rw [linkPm_of_rd_eq (s := setL0 u (subNode p.toNat k.toNat)) (by simp), setL0_linkPm, haw, htw]

/-! ### Recovery -/

/-- What LINK_RECOVERY makes of a link that is not in Recovery yet. -/
def recovering (s : State) (d : Nat) (eq : Bool) : State :=
  (toRecovery (s.modSub d fun x => { x with l0pTo := none }) d).modSub d fun x => { x with eq := x.eq || eq }

theorem recovering_linkPm (s : State) (d : Nat) (eq : Bool) : linkPm (recovering s d eq) d = pmRECOV :=
  toRecovery_linkPm (s.modSub d fun x => { x with l0pTo := none }) d

theorem recovering_sub (s : State) (d : Nat) (eq : Bool) : (recovering s d eq).sub d
    = { s.sub d with l0pTo := none, change := true, eq := (s.sub d).eq || eq } := by
  simp [recovering]

section
variable (hin : inService s (subNode p.toNat k.toNat) = true) (hpm : linkPm s (subNode p.toNat k.toNat) ≠ pmRECOV)
include hin hpm

/-- Where Kezen has no request under way, none is withdrawn. -/
theorem linkRecovery_recovers (why : Option LinkAsk) (hask : (s.sub (subNode p.toNat k.toNat)).ask = none) :
    ∃ t, exec (.linkRecovery p k why) s = .next t ∧ linkPm t (subNode p.toNat k.toNat) = pmRECOV
      ∧ (t.sub (subNode p.toNat k.toNat)).change = true ∧ (t.sub (subNode p.toNat k.toNat)).l0pTo = none
      ∧ (t.sub (subNode p.toNat k.toNat)).withdrawn = (s.sub (subNode p.toNat k.toNat)).withdrawn := by
  have hexec : exec (.linkRecovery p k why) s
      = .next (recovering s (subNode p.toNat k.toNat) (why == some .reeq || why == some .rate)) := by
    show execLinkRecovery p k why s = _
    simp [execLinkRecovery, hin, hpm, hask, recovering]
  refine ⟨_, hexec, recovering_linkPm _ _ _, ?_, ?_, ?_⟩ <;> rw [recovering_sub]

/-- A width request of Kezen's own is withdrawn, and noted with the Transit. -/
theorem linkRecovery_withdraws {why : Option LinkAsk} (hask : (s.sub (subNode p.toNat k.toNat)).ask = some .width)
    (hwhy : why = none ∨ givesWay s p.toNat = true) :
    ∃ t, exec (.linkRecovery p k why) s = .next t ∧ linkPm t (subNode p.toNat k.toNat) = pmRECOV
      ∧ (t.sub (subNode p.toNat k.toNat)).l0pTo = none
      ∧ (s.tn (nodeHalf (subNode p.toNat k.toNat)), LinkAsk.width) ∈ (t.sub (subNode p.toNat k.toNat)).withdrawn := by
  have hgoes : ¬ ((why.isSome && (s.sub (subNode p.toNat k.toNat)).ask.isSome
      && decide ((s.sub (subNode p.toNat k.toNat)).ask ≠ why)) = true ∧ givesWay s p.toNat = false) := by
    rcases hwhy with rfl | h
    · simp
    · simp [h]
  have hpm' : linkPm (withdraw s (subNode p.toNat k.toNat)) (subNode p.toNat k.toNat) ≠ pmRECOV := by
    have hrd : ∀ a, (withdraw s (subNode p.toNat k.toNat)).rd a = s.rd a := fun a => by
      unfold withdraw
      split <;> rfl
    rwa [linkPm_of_rd_eq (hrd _)]
  have hwith : (if ((why.isSome && (s.sub (subNode p.toNat k.toNat)).ask.isSome
      && decide ((s.sub (subNode p.toNat k.toNat)).ask ≠ why)) || decide ((s.sub (subNode p.toNat k.toNat)).ask = some .width)) = true
      then withdraw s (subNode p.toNat k.toNat) else s) = withdraw s (subNode p.toNat k.toNat) := if_pos (by simp [hask])
  have hexec : exec (.linkRecovery p k why) s
      = .next (recovering (withdraw s (subNode p.toNat k.toNat)) (subNode p.toNat k.toNat)
          (why == some .reeq || why == some .rate)) := by
    show execLinkRecovery p k why s = _
    unfold execLinkRecovery
    dsimp only
    rw [if_neg (by simpa [hin] using hgoes), hwith, if_neg hpm']
    rfl
  refine ⟨_, hexec, recovering_linkPm _ _ _, ?_, ?_⟩ <;> rw [recovering_sub]
  simp [withdraw, hask]

end

/-- An upstream port or fabric-lead declines what conflicts with its own request. -/
theorem linkRecovery_declines {why : Option LinkAsk} (hask : (s.sub (subNode p.toNat k.toNat)).ask = some .width)
    (hwhy : why = some .rate ∨ why = some .reeq) (hkeep : givesWay s p.toNat = false) :
    exec (.linkRecovery p k why) s = .next s := by
  refine if_pos (Or.inr ⟨?_, hkeep⟩)
  rcases hwhy with rfl | rfl <;> simp [hask]

/-! ### Width requests -/

/-- The widths of a link are those that a partner may ask for. -/
theorem widest_self {w : Nat} (hw : w ∈ [1, 2, 4, 8, 16]) : widest w (fun x => x == w) = w := by
  simp only [List.mem_cons, List.not_mem_nil, or_false] at hw
  rcases hw with rfl | rfl | rfl | rfl | rfl <;> rfl

theorem partnerL0pRequest_grants {w : Nat} (hup : linkUp s (subNode p.toNat k.toNat) = true)
    (hmay : l0pMay s p.toNat k.toNat = true) (hw : w ∈ [1, 2, 4, 8, 16])
    (htw : w ≤ s.fget (PRT_LNK_STAT p.toNat k.toNat) PRT_LNK_STAT_TWIDTH)
    (hok : lanesOk s p.toNat k.toNat w (s.flag (PRT_LNK_STAT p.toNat k.toNat) PRT_LNK_STAT_REV) = true)
    (hc : (s.sub (subNode p.toNat k.toNat)).change = false) (hask : (s.sub (subNode p.toNat k.toNat)).ask = none) :
    ∃ t, exec (.partnerL0pRequest p k w) s = .next t ∧ (t.sub (subNode p.toNat k.toNat)).l0pTo = some w
      ∧ (t.sub (subNode p.toNat k.toNat)).change = true := by
  have hw0 : w ≠ 0 := by rintro rfl; simp at hw
  have hexec : exec (.partnerL0pRequest p k w) s = .next ((eyeLink s p.toNat k.toNat).modSub (subNode p.toNat k.toNat)
      fun x => { x with change := true, l0pTo := some w }) := by
    show execPartnerL0pRequest p k w s = _
    simp [execPartnerL0pRequest, hup, hmay, htw, hok, hc, hask, widest_self hw, hw0]
  refine ⟨_, hexec, ?_, ?_⟩ <;> rw [sub_modSub_same]

/-- The oldest withdrawn request is issued again, for the width that fits now. -/
theorem changeRequestReissue_asks {tn : Nat} {rest : List (Nat × LinkAsk)}
    (hwd : (s.sub (subNode p.toNat k.toNat)).withdrawn = (tn, .width) :: rest)
    (htn : tn < s.tn (nodeHalf (subNode p.toNat k.toNat))) (hup : linkUp s (subNode p.toNat k.toNat) = true)
    (hc : (s.sub (subNode p.toNat k.toNat)).change = false) (hmay : l0pMay s p.toNat k.toNat = true)
    (h0 : l0pFits s p.toNat k.toNat ≠ 0)
    (hne : l0pFits s p.toNat k.toNat ≠ s.fget (PRT_LNK_STAT p.toNat k.toNat) PRT_LNK_STAT_AWIDTH) :
    ∃ t, exec (.changeRequestReissue p k) s = .next t ∧ (t.sub (subNode p.toNat k.toNat)).withdrawn = rest
      ∧ (t.sub (subNode p.toNat k.toNat)).l0pTo = some (l0pFits s p.toNat k.toNat) := by
  have hexec : exec (.changeRequestReissue p k) s = .next (askWidth (s.modSub (subNode p.toNat k.toNat)
      fun x => { x with withdrawn := rest }) (subNode p.toNat k.toNat)) := by
    show execChangeRequestReissue p k s = _
    simp [execChangeRequestReissue, hwd, htn, hup, hc, askAgain]
  have hmay' : l0pMay (s.modSub (subNode p.toNat k.toNat) fun x => { x with withdrawn := rest }) p.toNat k.toNat = true := by
    rw [← hmay]
    simp only [l0pMay, sub_modSub_same]
    rfl
  have hask := askWidth_asks_sub (s := s.modSub (subNode p.toNat k.toNat) fun x => { x with withdrawn := rest })
    (d := subNode p.toNat k.toNat) hup
  rw [subNode_div, subNode_mod] at hask
  refine ⟨_, hexec, ?_, ?_⟩ <;> rw [hask hmay' h0 hne]
  · rw [sub_modSub_same]
    rfl
  · rfl

/-! ### Promotion -/

/-- Once its entries are gone, a promoted sub-port is directed to its highest rate. -/
theorem promoteRateChange_recovers {tn : Nat} (hto : (s.sub (subNode p.toNat k.toNat)).rateTo = some tn)
    (hup : linkUp s (subNode p.toNat k.toNat) = true) (hc : (s.sub (subNode p.toNat k.toNat)).change = false)
    (hlive : s.fget (PRT_TAG_STAT p.toNat k.toNat) PRT_TAG_STAT_LIVE = 0)
    (hrate : s.fget (PRT_LNK_STAT p.toNat k.toNat) PRT_LNK_STAT_RATE < maxRate s p.toNat) :
    ∃ t, exec (.promoteRateChange p k) s = .next t ∧ linkPm t (subNode p.toNat k.toNat) = pmRECOV
      ∧ (t.sub (subNode p.toNat k.toNat)).eq = true ∧ (t.sub (subNode p.toNat k.toNat)).change = true := by
  have hexec : exec (.promoteRateChange p k) s = .next ((toRecovery s (subNode p.toNat k.toNat)).modSub (subNode p.toNat k.toNat)
      fun x => { x with eq := true, ask := some .rate }) := by
    show execPromoteRateChange p k s = _
    simp [execPromoteRateChange, hto, hup, hc, hlive, lnkRate, hrate]
  refine ⟨_, hexec, toRecovery_linkPm s _, ?_, ?_⟩ <;> rw [sub_modSub_same]
  rw [toRecovery_sub]

end

/-- Outside Finder service a port's bit of MRD_PROMOTE sets, and stays set. -/
theorem portPromote_sets {s : State} {m : Master} (p : BitVec 5) (hm : mayAct s m MRD_PROMOTE) (hf : finderOnly s = false) :
    ∃ t, exec (.portPromote m p) s = .next t ∧ onlyRegs [MRD_PROMOTE] s t
      ∧ ∀ i, i < 32 → (t.rd MRD_PROMOTE).getLsbD i = ((s.rd MRD_PROMOTE).getLsbD i || decide (i = p.toNat)) := by
  have hexec : exec (.portPromote m p) s
      = .next (s.wr MRD_PROMOTE (s.rd MRD_PROMOTE ||| BitVec.ofNat 32 (2 ^ p.toNat))) := by
    show Host.Outcome.next (csGate s m MRD_PROMOTE fun s => promoteWrite s (s.masterHalf m) (BitVec.ofNat 32 (2 ^ p.toNat))) = _
    rw [csGate_mayAct _ _ _ _ hm, promoteWrite, if_neg (by simp [hf])]
  refine ⟨_, hexec, onlyRegs_wr _ _ _, fun i hi => ?_⟩
  rw [rd_wr_same, BitVec.getLsbD_or, getLsbD_twoPow _ hi]

/-- Settles O23, command by command. -/
theorem linkStatesMove : Obligations.LinkStatesMove := by
  intro s m p k w tn why rest P K d st x aw tw
  exact ⟨l1Entry_enters, l1Exit_leaves, l0pWidthChanged_ends, fun hin hpm hask => linkRecovery_recovers hin hpm why hask,
    fun hin hpm hask hwhy => linkRecovery_withdraws hin hpm hask hwhy, linkRecovery_declines,
    fun hup hmay hw htw hok hc hask => partnerL0pRequest_grants hup hmay hw htw hok hc hask, changeRequestReissue_asks,
    promoteRateChange_recovers, portPromote_sets p⟩

end Sys2Proof.Machine
end

section
/-! PROOFS. What becomes of the registers when a sub-port goes down (R75, R162, R217). -/

namespace Sys2Proof.Machine

open Sys2Proof

theorem portReg_ne_promoted {a : Nat} (ha : portReg a) : a ≠ MRD_PROMOTED := by
  have := ha.1
  unfold MRD_PROMOTED
  omega

/-- The registers that going down writes: the link's status, the scan's end, and the failed lanes unless the sub-port goes to
Disabled. -/
def downKeeps (d : Nat) (off : Bool) (a : Nat) : Prop :=
  a ≠ PRT_LNK_STAT (d / 4) (d % 4) ∧ a ∉ eyeRegs (d / 4) ∧ (a ≠ PRT_LANE_STAT (d / 4) ∨ off = true)

/-- The fields of PRT_LNK_STAT that going down clears. -/
def downFields : List (Fld × Nat) :=
  [(PRT_LNK_STAT_PM, pmDOWN), (PRT_LNK_STAT_RATE, 0), (PRT_LNK_STAT_TWIDTH, 0), (PRT_LNK_STAT_AWIDTH, 0), (PRT_LNK_STAT_REV, 0)]

/-- The engine state of a sub-port that is down. -/
def downSub (off : Bool) (x : Sub) : Sub :=
  { subReset with fails := x.fails, level := x.level, off := off, keyIo := x.keyIo, keyMem := x.keyMem }

/-- The link of a sub-port that goes down is cleared, -/
def clearedLink (s : State) (d : Nat) (off : Bool) : State :=
  eyeIdle ((s.fsets (PRT_LNK_STAT (d / 4) (d % 4)) downFields).modSub d (downSub off)) (d / 4) (d % 4)

/-- and the sub-port passes through Detect if it may train again. -/
def wentDown (s : State) (d : Nat) (off : Bool) : State :=
  if mayTrain (clearedLink s d off) d then toDetect (clearedLink s d off) d else clearedLink s d off

/-- What else follows when a link in service goes down: its queues, its vPPBs, the rows that wait for it, its host's tenant. -/
def tellDown (s : State) (d : Nat) : State :=
  let s := linkReport (flushNode s d) d false
  let s := (s.mgt.waitDown.filter fun e => e.2 == d).foldl (fun s e => ringPost s (tenantHalf ((e.1 - 0x0A000000) / 0x10000)) [e.1]) s
  (uspTenant s (nodeHalf d) d).elim s (resetStart s)

/-- Going down is these two parts, with an event before them where the link had trained. -/
theorem subDown_eq (s : State) (d : Nat) (off : Bool) : subDown s d off = promotedStat (if inService s d then
      tellDown (wentDown (if (s.sub d).reached then raise s (nodeHalf d) (evt 5 3 d 0) else s) d off) d
    else wentDown s d off) (d / 4) := by
  unfold subDown
  dsimp only
  cases hin : inService s d
  · rfl
  · simp only [Bool.true_and, if_true]
    refine congrArg (promotedStat · (d / 4)) ?_
    split
    · next t ht => exact (congrArg (fun o : Option Nat => o.elim _ (resetStart _)) ht).symm
    · next ht => exact (congrArg (fun o : Option Nat => o.elim _ (resetStart _)) ht).symm

/-! ### The sub-port itself -/

@[simp] theorem toDetect_subs (s : State) (d : Nat) : (toDetect s d).subs = s.subs := rfl

theorem toDetect_rd (s : State) {d a : Nat} (h : a ≠ PRT_LANE_STAT (d / 4)) : (toDetect s d).rd a = s.rd a := rd_wr_ne _ _ h

theorem clearedLink_sub (s : State) (d : Nat) (off : Bool) : (clearedLink s d off).sub d = downSub off (s.sub d) := by
  unfold clearedLink
  rw [sub_congr (eyeIdle_subs _ _ _), sub_modSub_same, sub_congr (State.fsets_subs _ _ _)]

theorem wentDown_sub (s : State) (d : Nat) (off : Bool) : (wentDown s d off).sub d = downSub off (s.sub d) := by
  unfold wentDown
  split
  · exact (sub_congr (toDetect_subs _ _) d).trans (clearedLink_sub s d off)
  · exact clearedLink_sub s d off

/-- A sub-port that goes to Disabled does not pass through Detect. -/
theorem wentDown_rd (s : State) {d a : Nat} {off : Bool} (h : downKeeps d off a) : (wentDown s d off).rd a = s.rd a := by
  obtain ⟨hst, heye, hlane⟩ := h
  have hrd : (clearedLink s d off).rd a = s.rd a := by
    unfold clearedLink
    rw [eyeIdle_rd _ _ heye, State.modSub_rd, rd_fsets_ne _ _ hst]
  unfold wentDown
  rcases hlane with hlane | rfl
  · rw [rd_ite, toDetect_rd _ hlane, ite_self, hrd]
  · rw [if_neg (by simp [mayTrain, clearedLink_sub, downSub]), hrd]

theorem wentDown_lnkStat (s : State) (p : Nat) (k : BitVec 2) (off : Bool) : (wentDown s (subNode p k.toNat) off).rd (PRT_LNK_STAT p k.toNat)
    = (s.fsets (PRT_LNK_STAT p k.toNat) downFields).rd (PRT_LNK_STAT p k.toNat) := by
  unfold wentDown clearedLink
  rw [subNode_div, subNode_mod, rd_ite, toDetect_rd _ (by simp), ite_self, eyeIdle_rd _ _ (by simp), State.modSub_rd]

/-! ### What follows -/

theorem tellDown_portRd {a : Nat} (ha : portReg a) (s : State) (d : Nat) : (tellDown s d).rd a = s.rd a := by
  have hrings := fun l u => foldl_rd (a := a) (f := fun s e => ringPost s (tenantHalf ((e.1 - 0x0A000000) / 0x10000)) [e.1])
    (fun s e => ringPost_portRd ha s _ _) (l : List (Nat × Nat)) u
  unfold tellDown
  dsimp only
  cases uspTenant _ (nodeHalf d) d with
  | none => exact (hrings _ _).trans (by simp [ha])
  | some t => exact (resetStart_portRd ha _ _).trans ((hrings _ _).trans (by simp [ha]))

/-- Going down keeps every other register of the ports. -/
theorem subDown_portRd (s : State) {d a : Nat} {off : Bool} (ha : portReg a) (h : downKeeps d off a) :
    (subDown s d off).rd a = s.rd a := by
  rw [subDown_eq, promotedStat_rd _ _ (portReg_ne_promoted ha)]
  simp only [rd_ite, tellDown_portRd ha, wentDown_rd _ h, raise_portRd ha, ite_self]

/-- A sub-port that was not in service tells nobody. -/
theorem subDown_idle {s : State} {d : Nat} (off : Bool) (hin : inService s d = false) :
    subDown s d off = promotedStat (wentDown s d off) (d / 4) := by
  rw [subDown_eq, if_neg (by simp [hin])]

theorem subDown_idle_rd {s : State} {d a : Nat} {off : Bool} (hin : inService s d = false) (hp : a ≠ MRD_PROMOTED)
    (h : downKeeps d off a) : (subDown s d off).rd a = s.rd a := by
  rw [subDown_idle _ hin, promotedStat_rd _ _ hp, wentDown_rd _ h]

theorem subDown_idle_sub {s : State} {d : Nat} (off : Bool) (hin : inService s d = false) :
    (subDown s d off).sub d = downSub off (s.sub d) := by
  rw [subDown_idle _ hin, sub_congr (promotedStat_subs _ _), wentDown_sub]

theorem subDown_lnkStat (s : State) (p : BitVec 5) (k : BitVec 2) (off : Bool) :
    ∃ u : State, (subDown s (subNode p.toNat k.toNat) off).rd (PRT_LNK_STAT p.toNat k.toNat)
      = (u.fsets (PRT_LNK_STAT p.toNat k.toNat) downFields).rd (PRT_LNK_STAT p.toNat k.toNat) := by
  have hreg := lnkStat_portReg p k
  rw [subDown_eq, promotedStat_rd _ _ (portReg_ne_promoted hreg), rd_ite, tellDown_portRd hreg, wentDown_lnkStat, wentDown_lnkStat]
  split
  · exact ⟨_, rfl⟩
  · exact ⟨_, rfl⟩

/-- Sub-port Pp.k shows DOWN, with no width. -/
def isDown (t : State) (p k : Nat) : Prop := t.fget (PRT_LNK_STAT p k) PRT_LNK_STAT_PM = 0
  ∧ t.fget (PRT_LNK_STAT p k) PRT_LNK_STAT_TWIDTH = 0 ∧ t.fget (PRT_LNK_STAT p k) PRT_LNK_STAT_AWIDTH = 0

theorem isDown_of_rd_eq {s t : State} {p k : Nat} (hs : isDown s p k) (h : t.rd (PRT_LNK_STAT p k) = s.rd (PRT_LNK_STAT p k)) :
    isDown t p k := by
  obtain ⟨h1, h2, h3⟩ := hs
  exact ⟨(fget_of_rd_eq h _).trans h1, (fget_of_rd_eq h _).trans h2, (fget_of_rd_eq h _).trans h3⟩

theorem isDown_fsets (u : State) (p k : Nat) : isDown (u.fsets (PRT_LNK_STAT p k) downFields) p k := by
  refine ⟨?_, ?_, ?_⟩ <;> simp only [downFields, State.fsets, List.foldl_cons, List.foldl_nil]
  · rw [fget_fset_ne _ _ _ _ _ (by decide) (by decide), fget_fset_ne _ _ _ _ _ (by decide) (by decide),
      fget_fset_ne _ _ _ _ _ (by decide) (by decide), fget_fset_ne _ _ _ _ _ (by decide) (by decide),
      fget_fset_same _ _ _ _ (by decide)]
    rfl
  · rw [fget_fset_ne _ _ _ _ _ (by decide) (by decide), fget_fset_ne _ _ _ _ _ (by decide) (by decide),
      fget_fset_same _ _ _ _ (by decide)]
    rfl
  · rw [fget_fset_ne _ _ _ _ _ (by decide) (by decide), fget_fset_same _ _ _ _ (by decide)]
    rfl

/-- A sub-port that goes down shows DOWN, with no width. -/
theorem subDown_isDown (s : State) (p : BitVec 5) (k : BitVec 2) (off : Bool) :
    isDown (subDown s (subNode p.toNat k.toNat) off) p.toNat k.toNat := by
  obtain ⟨u, hu⟩ := subDown_lnkStat s p k off
  exact isDown_of_rd_eq (isDown_fsets u _ _) hu

end Sys2Proof.Machine
end

section
/-! PROOFS. Lanes, coefficients, reference clocks and eye scans (R82-R91, R96, R97). -/

namespace Sys2Proof.Machine

open Sys2Proof

/-! ### Failed lanes (R96, R97) -/

theorem laneStat_portReg (p : BitVec 5) : portReg (PRT_LANE_STAT p.toNat) := by
  have := p.isLt
  unfold portReg PRT_LANE_STAT
  omega

theorem laneFailed_eq (s : State) (p : Nat) {i : Nat} (hi : i < 16) : laneFailed s p i = (s.rd (PRT_LANE_STAT p)).getLsbD i := by
  simp only [laneFailed, bitB, State.fget, fldGet, PRT_LANE_STAT_FAILED, Nat.shiftRight_zero, Nat.testBit_mod_two_pow, hi,
    decide_true, Bool.true_and]
  rfl

/-- The sub-port that owns a port lane is one of the port's four. -/
theorem laneSub_eq_toNat (s : State) (p : Nat) (n : BitVec 4) : ∃ k : BitVec 2, laneSub s p n.toNat = k.toNat := by
  have hlt : laneSub s p n.toNat < 4 := by
    have := n.isLt
    unfold laneSub subLanes
    split <;> omega
  exact ⟨BitVec.ofNat 2 (laneSub s p n.toNat), by rw [BitVec.toNat_ofNat, Nat.mod_eq_of_lt hlt]⟩

theorem lnkRetrain_rd (s : State) {d a : Nat} (h1 : a ≠ PRT_LNK_STAT (d / 4) (d % 4)) (h2 : a ≠ PRT_LERRCNT0 (d / 4) (d % 4))
    (h3 : a ∉ eyeRegs (d / 4)) : (lnkRetrain s d).rd a = s.rd a := by
  unfold lnkRetrain
  split
  · rfl
  · split
    · rfl
    · exact toRecovery_rd s h1 h2 h3

/-- A sub-port that goes to Disabled keeps its failed lanes. -/
theorem subFail_laneStat (s : State) (p : BitVec 5) (k : BitVec 2) (f : Fld) (cause : Nat) :
    (subFail s (subNode p.toNat k.toNat) f cause).rd (PRT_LANE_STAT p.toNat) = s.rd (PRT_LANE_STAT p.toNat) := by
  have hreg := laneStat_portReg p
  have hdown : (subDown s (subNode p.toNat k.toNat) true).rd (PRT_LANE_STAT p.toNat) = s.rd (PRT_LANE_STAT p.toNat) :=
    subDown_portRd s hreg ⟨by simp, by simp, Or.inr rfl⟩
  unfold subFail
  dsimp only
  rw [raise_portRd hreg, rd_fset_ne _ _ _ (by simp), State.modSub_rd, hdown]

/-- Narrowing a sub-port leaves the marks of its lanes. -/
theorem fitLanes_laneStat (s : State) (p : BitVec 5) (k : BitVec 2) :
    (fitLanes s (subNode p.toNat k.toNat)).rd (PRT_LANE_STAT p.toNat) = s.rd (PRT_LANE_STAT p.toNat) := by
  unfold fitLanes
  dsimp only
  split
  · rfl
  · split
    · exact subFail_laneStat s p k _ _
    · split
      · split
        · rfl
        · exact askWidth_rd s (by simp)
      · exact lnkRetrain_rd s (by simp) (by simp) (by simp)

/-- A lane that fails is marked. -/
theorem failLane_laneStat (s : State) (p : BitVec 5) (n : BitVec 4) :
    (failLane s p.toNat n.toNat).rd (PRT_LANE_STAT p.toNat) = s.rd (PRT_LANE_STAT p.toNat) ||| BitVec.ofNat 32 (2 ^ n.toNat) := by
  obtain ⟨k, hk⟩ := laneSub_eq_toNat s p.toNat n
  unfold failLane
  dsimp only
  rw [hk, fitLanes_laneStat, eyeIdle_rd _ _ (laneStat_not_mem _), raise_portRd (laneStat_portReg p), State.fbump,
    rd_fset_ne _ _ _ (laneStat_ne _ _).2, rd_wr_same]

/-- Of port p's lanes, n alone is marked besides those of s. -/
def marksLane (s t : State) (p n : Nat) : Prop :=
  laneFailed t p n = true ∧ ∀ i, i < 16 → i ≠ n → laneFailed t p i = laneFailed s p i

theorem marksLane_congr {s u t : State} {p n : Nat} (h : marksLane u t p n) (hrd : u.rd (PRT_LANE_STAT p) = s.rd (PRT_LANE_STAT p)) :
    marksLane s t p n := by
  obtain ⟨hn, hother⟩ := h
  refine ⟨hn, fun i hi hne => (hother i hi hne).trans ?_⟩
  rw [laneFailed_eq _ _ hi, laneFailed_eq _ _ hi, hrd]

theorem failLane_marks (s : State) (p : BitVec 5) (n : BitVec 4) : marksLane s (failLane s p.toNat n.toNat) p.toNat n.toNat := by
  have hbit : ∀ i, i < 16 → laneFailed (failLane s p.toNat n.toNat) p.toNat i = (laneFailed s p.toNat i || decide (i = n.toNat)) :=
    fun i hi => by
      rw [laneFailed_eq _ _ hi, laneFailed_eq _ _ hi, failLane_laneStat, BitVec.getLsbD_or, getLsbD_twoPow _ (by omega)]
  refine ⟨?_, fun i hi hn => ?_⟩
  · rw [hbit _ n.isLt, decide_eq_true rfl, Bool.or_true]
  · rw [hbit i hi, decide_eq_false hn, Bool.or_false]

/-- What FEC has corrected adds up. -/
theorem corrected_addCorrected (s : State) (d n c : Nat) : corrected (addCorrected s d n c) d n = corrected s d n + c := by
  have htn : (addCorrected s d n c).tn (nodeHalf d) = s.tn (nodeHalf d) := rfl
  unfold corrected
  rw [htn, addCorrected, sub_modSub_same, List.filter_cons_of_pos (by simp), List.filter_filter, List.map_cons, List.sum_cons,
    Nat.add_comm]
  congr 4
  funext e
  simp only [Bool.and_assoc, Bool.and_self]

section
variable {s : State} {p : BitVec 5} {n : BitVec 4} (hok : laneFailed s p.toNat n.toNat = false)
  (hup : linkUp s (subNode p.toNat (laneSub s p.toNat n.toNat)) = true)
include hok hup

theorem laneFailed_lock_marks : ∃ t, exec (.laneFailed p n .lock) s = .next t ∧ marksLane s t p.toNat n.toNat :=
  ⟨_, if_neg (by simp [hok, hup]), failLane_marks s p n⟩

theorem exec_laneFailed_fec (c : Nat) : exec (.laneFailed p n (.fec c)) s =
    if s.fget (PRT_LANE_THR p.toNat) PRT_LANE_THR_THR < corrected s (subNode p.toNat (laneSub s p.toNat n.toNat)) n.toNat + c
    then .next (failLane (addCorrected s (subNode p.toNat (laneSub s p.toNat n.toNat)) n.toNat c) p.toNat n.toNat)
    else .next (addCorrected s (subNode p.toNat (laneSub s p.toNat n.toNat)) n.toNat c) := by
  rw [← corrected_addCorrected]
  exact if_neg (by simp [hok, hup])

theorem laneFailed_fec_marks {c : Nat} (hc : s.fget (PRT_LANE_THR p.toNat) PRT_LANE_THR_THR
      < corrected s (subNode p.toNat (laneSub s p.toNat n.toNat)) n.toNat + c) :
    ∃ t, exec (.laneFailed p n (.fec c)) s = .next t ∧ marksLane s t p.toNat n.toNat :=
  ⟨_, (exec_laneFailed_fec hok hup c).trans (if_pos hc), marksLane_congr (failLane_marks _ p n) (State.modSub_rd _ _ _ _)⟩

theorem laneFailed_fec_counts {c : Nat} (hc : corrected s (subNode p.toNat (laneSub s p.toNat n.toNat)) n.toNat + c
      ≤ s.fget (PRT_LANE_THR p.toNat) PRT_LANE_THR_THR) :
    ∃ t, exec (.laneFailed p n (.fec c)) s = .next t ∧ t.regs = s.regs
      ∧ corrected t (subNode p.toNat (laneSub s p.toNat n.toNat)) n.toNat
        = corrected s (subNode p.toNat (laneSub s p.toNat n.toNat)) n.toNat + c :=
  ⟨_, (exec_laneFailed_fec hok hup c).trans (if_neg (Nat.not_lt.mpr hc)), rfl, corrected_addCorrected s _ _ _⟩

end

theorem mem_subsOf_lt {s : State} {p k : Nat} (h : k ∈ subsOf s p) : k < 4 := by
  unfold subsOf at h
  split at h <;> simp only [List.mem_cons, List.not_mem_nil, or_false] at h <;> omega

/-- Clearing lanes of sub-ports of which none is in service or has trained clears the marks, and nothing more. -/
theorem laneClear_unmarks {s : State} {m : Master} {p : BitVec 5} (l : BitVec 16) (hm : mayAct s m (PRT_LANE_CLR p.toNat))
    (hidle : ∀ k, k < 4 → inService s (subNode p.toNat k) = false ∧ (s.sub (subNode p.toNat k)).reached = false) :
    ∃ t, exec (.laneClear m p l) s = .next t ∧ onlyRegs [PRT_LANE_STAT p.toNat] s t
      ∧ ∀ i, i < 16 → laneFailed t p.toNat i = (laneFailed s p.toNat i && !l.getLsbD i) := by
  generalize ht : s.wr (PRT_LANE_STAT p.toNat) (s.rd (PRT_LANE_STAT p.toNat) &&& ~~~ l.zeroExtend 32) = t
  have hreached : ∀ k, k < 4 → (t.sub (subNode p.toNat k)).reached = false := fun k hk => ht ▸ (hidle k hk).2
  have hin : ∀ k, k < 4 → inService t (subNode p.toNat k) = false := fun k hk => by
    have hne : ∀ q j, PRT_LNK_STAT q (j % 4) ≠ PRT_LANE_STAT p.toNat := fun q j => by
      simp only [PRT_LNK_STAT, PRT_LANE_STAT]
      omega
    rw [← (hidle k hk).1, inService_of_rd_eq (s := s) (ht ▸ rd_wr_ne _ _ (hne _ _))]
  have hwidth : ∀ k, k < 4 → lnkWidth t (subNode p.toNat k) = t := fun k hk => if_pos (hreached k hk)
  have hexec : exec (.laneClear m p l) s = .next t := by
    show Host.Outcome.next (csGate s m (PRT_LANE_CLR p.toNat) fun s => laneClrWrite s p.toNat (l.zeroExtend 32)) = _
    rw [csGate_mayAct _ _ _ _ hm, laneClrWrite, ht]
    refine congrArg _ (foldl_fixed fun k hk => ?_)
    have hk4 := mem_subsOf_lt hk
    simp [hwidth k hk4, hin k hk4]
  refine ⟨t, hexec, ht ▸ onlyRegs_wr _ _ _, fun i hi => ?_⟩
  have hi32 : i < 32 := by omega
  rw [laneFailed_eq _ _ hi, laneFailed_eq _ _ hi, ← ht, rd_wr_same, BitVec.getLsbD_and, BitVec.getLsbD_not]
  simp [hi32]

end Sys2Proof.Machine
end

section
/-! PROOFS. Coefficients and reference clocks (R82-R88). -/

namespace Sys2Proof.Machine

open Sys2Proof

/-! ### Coefficients (R85, R88) -/

section
variable {s : State} {p : BitVec 5} {n : BitVec 4} {rate : Nat} (cm1 c0 cp1 : BitVec 6)
  (hat : linkUp s (subNode p.toNat (laneSub s p.toNat n.toNat)) = true
    ∨ rate ≤ (s.sub (subNode p.toNat (laneSub s p.toNat n.toNat))).eqRate)
include hat

/-- At a rate whose equalisation has begun, a request finds the transmitters as they are. -/
theorem exec_partnerCoeffRequest : exec (.partnerCoeffRequest p n rate cm1 c0 cp1) s =
    if coeffOk (cm1.toNat, c0.toNat, cp1.toNat) then .next (putCoeff s p.toNat n.toNat (cm1.toNat, c0.toNat, cp1.toNat))
    else .next (s.fbump (PRT_LERRCNT1 p.toNat (laneSub s p.toNat n.toNat)) PRT_LERRCNT1_EQREJ_CNT 1) := by
  have hno : ¬ (linkUp s (subNode p.toNat (laneSub s p.toNat n.toNat)) = false
      ∧ (s.sub (subNode p.toNat (laneSub s p.toNat n.toNat))).eqRate < rate ∧ rate < 8) := by
    rcases hat with h | h
    · simp [h]
    · omega
  show execPartnerCoeffRequest p n rate cm1 c0 cp1 s = _
  unfold execPartnerCoeffRequest
  dsimp only
  rw [if_neg hno]

theorem partnerCoeffRequest_applies (hv : coeffOk (cm1.toNat, c0.toNat, cp1.toNat) = true) :
    ∃ t, exec (.partnerCoeffRequest p n rate cm1 c0 cp1) s = .next t ∧ onlyRegs [PRT_TXC p.toNat n.toNat] s t
      ∧ t.fget (PRT_TXC p.toNat n.toNat) PRT_TXC_CM1 = cm1.toNat ∧ t.fget (PRT_TXC p.toNat n.toNat) PRT_TXC_C0 = c0.toNat
      ∧ t.fget (PRT_TXC p.toNat n.toNat) PRT_TXC_CP1 = cp1.toNat := by
  refine ⟨_, (exec_partnerCoeffRequest cm1 c0 cp1 hat).trans (if_pos hv),
    ⟨rfl, fun b hb => putCoeff_rd _ _ (by simpa using hb)⟩, ?_, ?_, ?_⟩ <;>
    simp only [putCoeff, State.fsets, List.foldl_cons, List.foldl_nil]
  · rw [fget_fset_ne _ _ _ _ _ (by decide) (by decide), fget_fset_ne _ _ _ _ _ (by decide) (by decide),
      fget_fset_same _ _ _ _ (by decide)]
    exact Nat.mod_eq_of_lt cm1.isLt
  · rw [fget_fset_ne _ _ _ _ _ (by decide) (by decide), fget_fset_same _ _ _ _ (by decide)]
    exact Nat.mod_eq_of_lt c0.isLt
  · rw [fget_fset_same _ _ _ _ (by decide)]
    exact Nat.mod_eq_of_lt cp1.isLt

theorem partnerCoeffRequest_rejects (hv : coeffOk (cm1.toNat, c0.toNat, cp1.toNat) = false) :
    ∃ t, exec (.partnerCoeffRequest p n rate cm1 c0 cp1) s = .next t
      ∧ onlyField s t (PRT_LERRCNT1 p.toNat (laneSub s p.toNat n.toNat)) PRT_LERRCNT1_EQREJ_CNT
        (min (s.fget (PRT_LERRCNT1 p.toNat (laneSub s p.toNat n.toNat)) PRT_LERRCNT1_EQREJ_CNT + 1)
          (2 ^ PRT_LERRCNT1_EQREJ_CNT.width - 1)) :=
  ⟨_, (exec_partnerCoeffRequest cm1 c0 cp1 hat).trans (if_neg (by simp [hv])), onlyField_fset _ _ _ _ (by decide)⟩

end

theorem coeffOk_iff (a b c : Nat) : coeffOk (a, b, c) = true ↔ a ≤ 12 ∧ c ≤ 18 ∧ a + b + c = 48 ∧ a + c + 12 ≤ b := by
  simp [coeffOk, and_assoc]

/-! ### The outputs that follow the references (R81, R84) -/

/-- The outputs are the Manager's alone. -/
theorem pclkStat_frame (s : State) (p : Nat) : ∃ g, pclkStat s p = { s with mgt := g } := by
  unfold pclkStat
  split
  · split
    · exact ⟨s.mgt, rfl⟩
    · exact ⟨_, rfl⟩
  · exact ⟨_, rfl⟩

theorem foldl_pclkStat_frame (l : List Nat) (s : State) : ∃ g, l.foldl pclkStat s = { s with mgt := g } := by
  induction l generalizing s with
  | nil => exact ⟨s.mgt, rfl⟩
  | cons q r ih =>
    obtain ⟨g, hg⟩ := pclkStat_frame s q
    obtain ⟨g', hg'⟩ := ih (pclkStat s q)
    exact ⟨g', by rw [List.foldl_cons, hg', hg]⟩

theorem pclkAll_frame (s : State) : ∃ g, pclkAll s = { s with mgt := g } := foldl_pclkStat_frame _ s

@[simp] theorem pclkAll_rd (s : State) (a : Nat) : (pclkAll s).rd a = s.rd a := by
  obtain ⟨g, hg⟩ := pclkAll_frame s
  rw [hg]
  rfl

/-- No output runs while both references are lost. -/
theorem foldl_pclkStat_lost {s : State} (ha : s.flag MRD_REF_STAT MRD_REF_STAT_A_OK = false)
    (hb : s.flag MRD_REF_STAT MRD_REF_STAT_B_OK = false) (n : Nat) :
    ∀ q, q < n → mfind ((List.range n).foldl pclkStat s).mgt.pclkAt q = none := by
  induction n with
  | zero => exact fun q hq => absurd hq (Nat.not_lt_zero q)
  | succ n ih =>
    generalize hu : (List.range n).foldl pclkStat s = u at ih
    have hrd : u.rd MRD_REF_STAT = s.rd MRD_REF_STAT := by
      obtain ⟨g, hg⟩ := foldl_pclkStat_frame (List.range n) s
      rw [← hu, hg]
      rfl
    have hstops : pclkStat u n = u.modMgt fun m => { m with pclkAt := merase m.pclkAt n } :=
      if_neg (by simp [pclkOn, flag_of_rd_eq hrd, ha, hb])
    intro q hq
    rw [List.range_succ, List.foldl_append, hu, List.foldl_cons, List.foldl_nil, hstops]
    show mfind (merase u.mgt.pclkAt n) q = none
    by_cases hn : q = n
    · rw [hn, mfind_merase_same]
    · rw [mfind_merase_ne _ hn]
      exact ih q (by omega)

/-! ### References (R82-R84) -/

/-- The field that tells whether reference r is good. -/
def okFld (r : Nat) : Fld := if r = 0 then MRD_REF_STAT_A_OK else MRD_REF_STAT_B_OK

theorem okFld_bit (r : Nat) : okFld r = MRD_REF_STAT_A_OK ∨ okFld r = MRD_REF_STAT_B_OK := by
  unfold okFld
  split
  · exact Or.inl rfl
  · exact Or.inr rfl

theorem okFld_apart {r r' : Nat} (hr : r < 2) (hr' : r' < 2) (h : r ≠ r') :
    (okFld r').lo + (okFld r').width ≤ (okFld r).lo ∨ (okFld r).lo + (okFld r).width ≤ (okFld r').lo := by
  rcases (show r = 0 ∧ r' = 1 ∨ r = 1 ∧ r' = 0 by omega) with ⟨rfl, rfl⟩ | ⟨rfl, rfl⟩ <;> decide

theorem okFld_apart_active (r : Nat) : MRD_REF_STAT_ACTIVE.lo + MRD_REF_STAT_ACTIVE.width ≤ (okFld r).lo := by
  rcases okFld_bit r with h | h <;> rw [h] <;> decide

theorem okFld_apart_switched (r : Nat) : (okFld r).lo + (okFld r).width ≤ MRD_REF_STAT_SWITCHED.lo := by
  rcases okFld_bit r with h | h <;> rw [h] <;> decide

theorem okFld_in (r : Nat) : (okFld r).lo + (okFld r).width ≤ 32 := by
  rcases okFld_bit r with h | h <;> rw [h] <;> decide

theorem okFld_flag_same (s : State) (r n : Nat) : (s.fset MRD_REF_STAT (okFld r) n).flag MRD_REF_STAT (okFld r) = (n % 2 != 0) := by
  rw [State.flag, fget_fset_same _ _ _ _ (okFld_in r)]
  rcases okFld_bit r with h | h <;> rw [h] <;> rfl

/-- Events leave the state of the references. -/
theorem raiseBoth_refStat (s : State) (cls cause inst detail : Nat) :
    (raiseBoth s (evt cls cause inst detail)).rd MRD_REF_STAT = s.rd MRD_REF_STAT := by
  unfold raiseBoth
  rw [refOnly_rd (raise_evt_refOnly _ _ _ _ _ _) (by decide) (by decide),
    refOnly_rd (raise_evt_refOnly _ _ _ _ _ _) (by decide) (by decide)]

/-- Switching selects the other reference and is flagged; the rest of MRD_REF_STAT stays. -/
theorem switchRef_active (s : State) : (switchRef s).fget MRD_REF_STAT MRD_REF_STAT_ACTIVE = 1 - s.fget MRD_REF_STAT MRD_REF_STAT_ACTIVE := by
  unfold switchRef useRef
  rw [fget_of_rd_eq (raiseBoth_refStat _ _ _ _ _), fget_fset_ne _ _ _ _ _ (by decide) (by decide), fget_fset_same _ _ _ _ (by decide)]
  exact Nat.mod_eq_of_lt (show 1 - _ < 2 by omega)

theorem switchRef_switched (s : State) : (switchRef s).flag MRD_REF_STAT MRD_REF_STAT_SWITCHED = true := by
  unfold switchRef
  rw [flag_of_rd_eq (raiseBoth_refStat _ _ _ _ _), State.flag, fget_fset_same _ _ _ _ (by decide)]
  rfl

theorem switchRef_ok (s : State) (r : Nat) : (switchRef s).flag MRD_REF_STAT (okFld r) = s.flag MRD_REF_STAT (okFld r) := by
  unfold switchRef useRef
  rw [flag_of_rd_eq (raiseBoth_refStat _ _ _ _ _), flag_fset_ne _ _ _ _ _ (Or.inl (okFld_apart_switched r)) (okFld_in r),
    flag_fset_ne _ _ _ _ _ (Or.inr (okFld_apart_active r)) (okFld_in r), State.flag, fget_fset_at_ne _ _ _ _ (by decide), State.flag]

/-- The reference in use is lost, and the other is good. -/
theorem referenceLost_switches {s : State} {r : BitVec 1} (hact : s.fget MRD_REF_STAT MRD_REF_STAT_ACTIVE = r.toNat)
    (hother : refOk s (1 - r.toNat) = true) :
    ∃ t, exec (.referenceLost r) s = .next t ∧ t.flag MRD_REF_STAT (okFld r.toNat) = false
      ∧ t.fget MRD_REF_STAT MRD_REF_STAT_ACTIVE = 1 - r.toNat ∧ t.flag MRD_REF_STAT MRD_REF_STAT_SWITCHED = true := by
  have hr : r.toNat < 2 := r.isLt
  generalize hu : s.fset MRD_REF_STAT (okFld r.toNat) 0 = u
  have hact' : u.fget MRD_REF_STAT MRD_REF_STAT_ACTIVE = r.toNat := by
    rw [← hu, fget_fset_ne _ _ _ _ _ (Or.inl (okFld_apart_active _)) (by decide), hact]
  have hother' : refOk u (1 - r.toNat) = true := by
    rw [← hother, ← hu]
    exact flag_fset_ne _ _ _ _ _ (okFld_apart hr (by omega) (by omega)) (okFld_in _)
  have hexec : exec (.referenceLost r) s = .next (switchRef u) := by
    rw [← hu] at hother' hact' ⊢
    exact (if_pos hother').trans (if_pos hact')
  refine ⟨_, hexec, ?_, (switchRef_active u).trans (by rw [hact']), switchRef_switched u⟩
  rw [switchRef_ok, ← hu, okFld_flag_same]
  rfl

/-- The restored reference is good again; Kezen switches only when the one in use is not. -/
theorem exec_referenceRestored (s : State) (r : BitVec 1) : exec (.referenceRestored r) s =
    .next (pclkAll (if refOk (s.fset MRD_REF_STAT (okFld r.toNat) 1) (s.fget MRD_REF_STAT MRD_REF_STAT_ACTIVE)
      then s.fset MRD_REF_STAT (okFld r.toNat) 1 else switchRef (s.fset MRD_REF_STAT (okFld r.toNat) 1))) := by
  have hfld : (if r = 0 then MRD_REF_STAT_A_OK else MRD_REF_STAT_B_OK) = okFld r.toNat :=
    if_congr (by rw [← BitVec.toNat_inj]; rfl) rfl rfl
  have hact : (s.fset MRD_REF_STAT (okFld r.toNat) 1).fget MRD_REF_STAT MRD_REF_STAT_ACTIVE = s.fget MRD_REF_STAT MRD_REF_STAT_ACTIVE :=
    fget_fset_ne _ _ _ _ _ (Or.inl (okFld_apart_active _)) (by decide)
  show execReferenceRestored r s = _
  unfold execReferenceRestored
  dsimp only
  rw [hfld, hact]

theorem referenceRestored_stays {s : State} {r : BitVec 1}
    (h : r.toNat = s.fget MRD_REF_STAT MRD_REF_STAT_ACTIVE ∨ refOk s (s.fget MRD_REF_STAT MRD_REF_STAT_ACTIVE) = true) :
    ∃ t, exec (.referenceRestored r) s = .next t ∧ onlyField { s with mgt := t.mgt } t MRD_REF_STAT (okFld r.toNat) 1 := by
  have hr : r.toNat < 2 := r.isLt
  have hact : s.fget MRD_REF_STAT MRD_REF_STAT_ACTIVE < 2 := fget_lt _ _ _
  have hok : refOk (s.fset MRD_REF_STAT (okFld r.toNat) 1) (s.fget MRD_REF_STAT MRD_REF_STAT_ACTIVE) = true := by
    by_cases hsame : r.toNat = s.fget MRD_REF_STAT MRD_REF_STAT_ACTIVE
    · rw [← hsame]
      exact okFld_flag_same s r.toNat 1
    · rw [← h.resolve_left hsame]
      exact flag_fset_ne _ _ _ _ _ (okFld_apart hr hact hsame) (okFld_in _)
  obtain ⟨g, hg⟩ := pclkAll_frame (s.fset MRD_REF_STAT (okFld r.toNat) 1)
  refine ⟨_, exec_referenceRestored s r, ?_⟩
  rw [if_pos hok, hg]
  exact onlyField_fset { s with mgt := g } _ _ _ (okFld_in _)

theorem referenceRestored_switches {s : State} {r : BitVec 1} (hne : r.toNat ≠ s.fget MRD_REF_STAT MRD_REF_STAT_ACTIVE)
    (hlost : refOk s (s.fget MRD_REF_STAT MRD_REF_STAT_ACTIVE) = false) :
    ∃ t, exec (.referenceRestored r) s = .next t
      ∧ t.fget MRD_REF_STAT MRD_REF_STAT_ACTIVE = 1 - s.fget MRD_REF_STAT MRD_REF_STAT_ACTIVE
      ∧ t.flag MRD_REF_STAT MRD_REF_STAT_SWITCHED = true := by
  have hr : r.toNat < 2 := r.isLt
  have hact : s.fget MRD_REF_STAT MRD_REF_STAT_ACTIVE < 2 := fget_lt _ _ _
  have hlost' : refOk (s.fset MRD_REF_STAT (okFld r.toNat) 1) (s.fget MRD_REF_STAT MRD_REF_STAT_ACTIVE) = false := by
    rw [← hlost]
    exact flag_fset_ne _ _ _ _ _ (okFld_apart hr hact hne) (okFld_in _)
  refine ⟨_, exec_referenceRestored s r, ?_, ?_⟩ <;> rw [if_neg (by simp [hlost'])]
  · rw [fget_of_rd_eq (pclkAll_rd _ _), switchRef_active, fget_fset_ne _ _ _ _ _ (Or.inl (okFld_apart_active _)) (by decide)]
  · rw [flag_of_rd_eq (pclkAll_rd _ _), switchRef_switched]

/-- With both references lost no output runs. -/
theorem bothReferencesLost_stops (s : State) : ∃ t, exec .bothReferencesLost s = .next t
    ∧ t.flag MRD_REF_STAT MRD_REF_STAT_A_OK = false ∧ t.flag MRD_REF_STAT MRD_REF_STAT_B_OK = false
    ∧ ∀ q, q < 32 → mfind t.mgt.pclkAt q = none := by
  generalize hu : s.fsets MRD_REF_STAT [(MRD_REF_STAT_A_OK, 0), (MRD_REF_STAT_B_OK, 0)] = u
  have ha : u.flag MRD_REF_STAT MRD_REF_STAT_A_OK = false := by
    rw [← hu]
    simp only [State.fsets, List.foldl_cons, List.foldl_nil]
    rw [flag_fset_ne _ _ _ _ _ (by decide) (by decide), State.flag, fget_fset_same _ _ _ _ (by decide)]
    rfl
  have hb : u.flag MRD_REF_STAT MRD_REF_STAT_B_OK = false := by
    rw [← hu]
    simp only [State.fsets, List.foldl_cons, List.foldl_nil]
    rw [State.flag, fget_fset_same _ _ _ _ (by decide)]
    rfl
  have hrd : (raiseBoth (pclkAll u) (evt 0 1 0 0)).rd MRD_REF_STAT = u.rd MRD_REF_STAT :=
    (raiseBoth_refStat _ _ _ _ _).trans (pclkAll_rd _ _)
  have hmgt : (raiseBoth (pclkAll u) (evt 0 1 0 0)).mgt = (pclkAll u).mgt := by
    obtain ⟨-, hframe, -⟩ := refOnly_trans (raise_evt_refOnly (pclkAll u) .east 0 1 0 0) (raise_evt_refOnly _ .west 0 1 0 0)
    exact (congrArg State.mgt hframe :)
  refine ⟨raiseBoth (pclkAll u) (evt 0 1 0 0), hu ▸ rfl, ?_, ?_, fun q hq => ?_⟩
  · rw [flag_of_rd_eq hrd, ha]
  · rw [flag_of_rd_eq hrd, hb]
  · rw [hmgt]
    exact foldl_pclkStat_lost ha hb 32 q hq

end Sys2Proof.Machine
end

section
/-! PROOFS. Scans of the Eyepiece (R90, R91), and O24. -/

namespace Sys2Proof.Machine

open Sys2Proof

/-! ### The Eyepiece's registers -/

@[simp] theorem eyeCtl_not_mem (p : Nat) : PRT_EYE_CTL p ∉ eyeRegs p := by
  simp only [eyeRegs, List.mem_cons, List.not_mem_nil, or_false, PRT_EYE_CNT_LO, PRT_EYE_ERR, PRT_EYE_STAT, PRT_EYE_CTL]
  omega

/-- No sub-port's status is one of the Eyepiece's registers, whichever port it is of. -/
theorem lnkStat_not_mem (p d : Nat) : PRT_LNK_STAT (d / 4) (d % 4) ∉ eyeRegs p := by
  simp only [eyeRegs, List.mem_cons, List.not_mem_nil, or_false, PRT_EYE_CNT_LO, PRT_EYE_ERR, PRT_EYE_STAT, PRT_LNK_STAT]
  omega

theorem eyeRegs_apart (p : Nat) : PRT_EYE_CNT_LO p ≠ PRT_EYE_STAT p ∧ PRT_EYE_CNT_LO p + 4 ≠ PRT_EYE_STAT p
    ∧ PRT_EYE_ERR p ≠ PRT_EYE_STAT p ∧ PRT_EYE_CNT_LO p ≠ PRT_EYE_ERR p ∧ PRT_EYE_CNT_LO p + 4 ≠ PRT_EYE_ERR p := by
  simp only [PRT_EYE_CNT_LO, PRT_EYE_ERR, PRT_EYE_STAT]
  omega

theorem eyeStat_ne_eyeCtl (p : Nat) : PRT_EYE_STAT p ≠ PRT_EYE_CTL p := by
  simp only [PRT_EYE_STAT, PRT_EYE_CTL]
  omega

/-- The counts of port p's scan. -/
def setCounts (s : State) (p cnt : Nat) (err : Word) : State := (s.wr64 (PRT_EYE_CNT_LO p) cnt).wr (PRT_EYE_ERR p) err

/-- Both fields of PRT_EYE_STAT. -/
def setEyeStat (s : State) (p st why : Nat) : State :=
  s.fsets (PRT_EYE_STAT p) [(PRT_EYE_STAT_STATE, st), (PRT_EYE_STAT_REASON, why)]

theorem setCounts_rd (s : State) {p a : Nat} (cnt : Nat) (err : Word) (h : a ∉ eyeRegs p) : (setCounts s p cnt err).rd a = s.rd a := by
  obtain ⟨h1, h2, h3, -⟩ : a ≠ PRT_EYE_CNT_LO p ∧ a ≠ PRT_EYE_CNT_LO p + 4 ∧ a ≠ PRT_EYE_ERR p ∧ a ≠ PRT_EYE_STAT p := by
    simpa [eyeRegs] using h
  rw [setCounts, rd_wr_ne _ _ h3, rd_wr64_ne _ h1 h2]

theorem setCounts_cnt (s : State) (p : Nat) {cnt : Nat} (err : Word) (h : cnt < 2 ^ 64) :
    (setCounts s p cnt err).rd64 (PRT_EYE_CNT_LO p) = cnt := by
  obtain ⟨-, -, -, h1, h2⟩ := eyeRegs_apart p
  rw [setCounts, rd64_congr (rd_wr_ne _ _ h1) (rd_wr_ne _ _ h2), rd64_wr64_same _ _ _ h]

theorem setCounts_err (s : State) (p cnt : Nat) (err : Word) : (setCounts s p cnt err).rd (PRT_EYE_ERR p) = err := rd_wr_same _ _ _

theorem setEyeStat_state (s : State) (p : Nat) {st : Nat} (why : Nat) (h : st < 16) :
    (setEyeStat s p st why).fget (PRT_EYE_STAT p) PRT_EYE_STAT_STATE = st := by
  simp only [setEyeStat, State.fsets, List.foldl_cons, List.foldl_nil]
  rw [fget_fset_ne _ _ _ _ _ (by decide) (by decide), fget_fset_same _ _ _ _ (by decide)]
  exact Nat.mod_eq_of_lt h

theorem setEyeStat_reason (s : State) (p st : Nat) {why : Nat} (h : why < 16) :
    (setEyeStat s p st why).fget (PRT_EYE_STAT p) PRT_EYE_STAT_REASON = why := by
  simp only [setEyeStat, State.fsets, List.foldl_cons, List.foldl_nil]
  rw [fget_fset_same _ _ _ _ (by decide)]
  exact Nat.mod_eq_of_lt h

theorem setEyeStat_rd (s : State) {p a : Nat} (st why : Nat) (h : a ≠ PRT_EYE_STAT p) : (setEyeStat s p st why).rd a = s.rd a :=
  rd_fsets_ne _ _ h

theorem setEyeStat_cnt (s : State) (p st why : Nat) : (setEyeStat s p st why).rd64 (PRT_EYE_CNT_LO p) = s.rd64 (PRT_EYE_CNT_LO p) := by
  obtain ⟨h1, h2, -⟩ := eyeRegs_apart p
  exact rd64_congr (setEyeStat_rd _ _ _ h1) (setEyeStat_rd _ _ _ h2)

theorem setEyeStat_err (s : State) (p st why : Nat) : (setEyeStat s p st why).rd (PRT_EYE_ERR p) = s.rd (PRT_EYE_ERR p) := by
  obtain ⟨-, -, h, -⟩ := eyeRegs_apart p
  exact setEyeStat_rd _ _ _ h

/-- The end of a running scan. -/
theorem eyeEnd_running {s : State} {p : Nat} (why cnt err : Nat) (hrun : s.fget (PRT_EYE_STAT p) PRT_EYE_STAT_STATE = 1) :
    eyeEnd s p why cnt err = setEyeStat (setCounts s p (cnt % 2 ^ s.fget (PRT_EYE_CTL p) PRT_EYE_CTL_LIMIT)
      (BitVec.ofNat 32 (min (err % (cnt % 2 ^ s.fget (PRT_EYE_CTL p) PRT_EYE_CTL_LIMIT + 1)) (2 ^ 32 - 1)))) p 3 why :=
  if_neg (by simp [hrun])

/-- A scan's counter holds 64 bits, and LIMIT is below 64. -/
theorem eyeLimit_lt (s : State) (p : Nat) : 2 ^ s.fget (PRT_EYE_CTL p) PRT_EYE_CTL_LIMIT < 2 ^ 64 :=
  Nat.pow_lt_pow_right (by decide) (fget_lt _ _ PRT_EYE_CTL_LIMIT)

/-! ### Why a scan cannot start -/

/-- The counts of an earlier scan do not matter. -/
theorem eyeRefusal_congr {s t : State} {p : Nat} (hrd : ∀ a, a ∉ eyeRegs p → t.rd a = s.rd a) (hsubs : t.subs = s.subs) :
    eyeRefusal t p = eyeRefusal s p := by
  have hctl := fget_of_rd_eq (hrd _ (eyeCtl_not_mem p))
  have hlanes : subLanes t p = subLanes s p := by
    unfold subLanes
    rw [fget_of_rd_eq (hrd _ (prtCfg_ne_laneStat p).2)]
  have hlane : ∀ n, laneFailed t p n = laneFailed s p n := fun n => by
    unfold laneFailed
    rw [fget_of_rd_eq (hrd _ (laneStat_not_mem p))]
  have hup : ∀ d, linkUp t d = linkUp s d := fun d => linkUp_of_rd_eq (hrd _ (lnkStat_not_mem p d))
  have hst : ∀ k f, t.fget (PRT_LNK_STAT p k) f = s.fget (PRT_LNK_STAT p k) f := fun k =>
    fget_of_rd_eq (hrd _ (by simp))
  have hown : ∀ n, laneSub t p n = laneSub s p n := fun n => by
    unfold laneSub
    rw [hlanes]
  have hidle : ∀ n, laneIdle t p n = laneIdle s p n := fun n => by
    unfold laneIdle State.flag
    dsimp only
    rw [hown, hlanes, hlane, hup, hst, hst]
  simp only [eyeRefusal, hctl, hown, hidle, sub_congr hsubs]

/-! ### The commands -/

section
variable {s : State} {m : Master} {p : BitVec 5} (hm : mayAct s m (PRT_EYE_CTL p.toNat))
include hm

section
variable (v : Word) {w : Word} (hw : (v ||| 0x80000000) &&& 0xBFFFFFFF &&& 0x3FFFFF0F = w)
  (hidle : s.fget (PRT_EYE_STAT p.toNat) PRT_EYE_STAT_STATE ≠ 1)
include hw hidle

/-- START with no scan running: the counts are cleared, and the scan runs or is refused. -/
theorem exec_eyeStart : exec (.eyeStart m p v) s = .next ((eyeRefusal (s.wr (PRT_EYE_CTL p.toNat) w) p.toNat).elim
    (setEyeStat (setCounts (s.wr (PRT_EYE_CTL p.toNat) w) p.toNat 0 0) p.toNat 1 0)
    (setEyeStat (setCounts (s.wr (PRT_EYE_CTL p.toNat) w) p.toNat 0 0) p.toNat 3)) := by
  have h30 : bitB ((v ||| 0x80000000) &&& 0xBFFFFFFF).toNat 30 = false := by
    show ((v ||| 0x80000000) &&& 0xBFFFFFFF : Word).getLsbD 30 = false
    rw [BitVec.getLsbD_and]
    exact Bool.and_false _
  have h31 : bitB ((v ||| 0x80000000) &&& 0xBFFFFFFF).toNat 31 = true := by
    show ((v ||| 0x80000000) &&& 0xBFFFFFFF : Word).getLsbD 31 = true
    rw [BitVec.getLsbD_and, BitVec.getLsbD_or]
    exact (Bool.and_true _).trans (Bool.or_true _)
  have href : eyeRefusal (setCounts (s.wr (PRT_EYE_CTL p.toNat) w) p.toNat 0 0) p.toNat
      = eyeRefusal (s.wr (PRT_EYE_CTL p.toNat) w) p.toNat :=
    eyeRefusal_congr (fun a ha => setCounts_rd _ _ _ ha) rfl
  show Host.Outcome.next (csGate s m (PRT_EYE_CTL p.toNat) fun s => eyeCtlWrite s p.toNat ((v ||| 0x80000000) &&& 0xBFFFFFFF) 0 0) = _
  rw [csGate_mayAct _ _ _ _ hm, ← href]
  unfold eyeCtlWrite
  simp only [h30, h31, hw, hidle, decide_false, Bool.not_false, Bool.and_true, if_true, Bool.false_eq_true, if_false]
  split
  · next r hr => exact (congrArg (fun o : Option Nat => Host.Outcome.next (o.elim _ _)) hr).symm
  · next hr => exact (congrArg (fun o : Option Nat => Host.Outcome.next (o.elim _ _)) hr).symm

/-- A scan that nothing refuses runs, from counts of 0. -/
theorem eyeStart_runs (hgo : eyeRefusal (s.wr (PRT_EYE_CTL p.toNat) w) p.toNat = none) :
    ∃ t, exec (.eyeStart m p v) s = .next t ∧ t.fget (PRT_EYE_STAT p.toNat) PRT_EYE_STAT_STATE = 1
      ∧ t.rd64 (PRT_EYE_CNT_LO p.toNat) = 0 ∧ t.rd (PRT_EYE_ERR p.toNat) = 0 ∧ t.rd (PRT_EYE_CTL p.toNat) = w := by
  have hexec := exec_eyeStart hm v hw hidle
  rw [hgo, Option.elim_none] at hexec
  refine ⟨_, hexec, setEyeStat_state _ _ _ (by decide), ?_, ?_, ?_⟩
  · rw [setEyeStat_cnt, setCounts_cnt _ _ _ (by decide)]
  · rw [setEyeStat_err, setCounts_err]
  · rw [setEyeStat_rd _ _ _ (eyeStat_ne_eyeCtl _).symm, setCounts_rd _ _ _ (eyeCtl_not_mem _), rd_wr_same]

theorem eyeStart_refused {why : Nat} (hno : eyeRefusal (s.wr (PRT_EYE_CTL p.toNat) w) p.toNat = some why) (hwhy : why < 16) :
    ∃ t, exec (.eyeStart m p v) s = .next t ∧ t.fget (PRT_EYE_STAT p.toNat) PRT_EYE_STAT_STATE = 3
      ∧ t.fget (PRT_EYE_STAT p.toNat) PRT_EYE_STAT_REASON = why := by
  have hexec := exec_eyeStart hm v hw hidle
  rw [hno, Option.elim_some] at hexec
  exact ⟨_, hexec, setEyeStat_state _ _ _ (by decide), setEyeStat_reason _ _ _ hwhy⟩

end

/-- An aborted scan ends with REQUEST and the counts it had reached. -/
theorem eyeAbort_ends (cnt err : Nat) (hrun : s.fget (PRT_EYE_STAT p.toNat) PRT_EYE_STAT_STATE = 1) :
    ∃ t, exec (.eyeAbort m p cnt err) s = .next t ∧ t.fget (PRT_EYE_STAT p.toNat) PRT_EYE_STAT_STATE = 3
      ∧ t.fget (PRT_EYE_STAT p.toNat) PRT_EYE_STAT_REASON = 1
      ∧ t.rd64 (PRT_EYE_CNT_LO p.toNat) = cnt % 2 ^ s.fget (PRT_EYE_CTL p.toNat) PRT_EYE_CTL_LIMIT := by
  generalize ho : s.rd (PRT_EYE_CTL p.toNat) = o
  generalize hu : s.wr (PRT_EYE_CTL p.toNat) ((o ||| 0x40000000) &&& 0x7FFFFFFF &&& 0x3FFFFF0F) = u
  have h30 : bitB ((o ||| 0x40000000) &&& 0x7FFFFFFF).toNat 30 = true := by
    show ((o ||| 0x40000000) &&& 0x7FFFFFFF : Word).getLsbD 30 = true
    rw [BitVec.getLsbD_and, BitVec.getLsbD_or]
    exact (Bool.and_true _).trans (Bool.or_true _)
  have h31 : bitB ((o ||| 0x40000000) &&& 0x7FFFFFFF).toNat 31 = false := by
    show ((o ||| 0x40000000) &&& 0x7FFFFFFF : Word).getLsbD 31 = false
    rw [BitVec.getLsbD_and]
    exact Bool.and_false _
  have hlim : u.fget (PRT_EYE_CTL p.toNat) PRT_EYE_CTL_LIMIT = s.fget (PRT_EYE_CTL p.toNat) PRT_EYE_CTL_LIMIT := by
    have hbits : ((o ||| 0x40000000) &&& 0x7FFFFFFF &&& 0x3FFFFF0F : Word).extractLsb' 24 6 = o.extractLsb' 24 6 := by
      refine BitVec.eq_of_getLsbD_eq fun i hi => ?_
      interval_cases i <;> simp
    rw [← hu]
    simp only [State.fget, rd_wr_same, ho]
    simpa [fldGet, PRT_EYE_CTL_LIMIT, BitVec.extractLsb'] using congrArg BitVec.toNat hbits
  have hrun' : u.fget (PRT_EYE_STAT p.toNat) PRT_EYE_STAT_STATE = 1 := by
    rw [← hu, fget_wr_ne _ _ _ (eyeStat_ne_eyeCtl _), hrun]
  have hexec : exec (.eyeAbort m p cnt err) s = .next (eyeEnd u p.toNat eyREQUEST cnt err) := by
    show Host.Outcome.next (csGate s m (PRT_EYE_CTL p.toNat) fun s =>
      eyeCtlWrite s p.toNat ((s.rd (PRT_EYE_CTL p.toNat) ||| 0x40000000) &&& 0x7FFFFFFF) cnt err) = _
    rw [csGate_mayAct _ _ _ _ hm, ho]
    unfold eyeCtlWrite
    simp only [h30, h31, hu, if_true, Bool.false_and, Bool.false_eq_true, if_false]
  rw [eyeEnd_running _ _ _ hrun', hlim] at hexec
  refine ⟨_, hexec, setEyeStat_state _ _ _ (by decide), setEyeStat_reason _ _ _ (by decide), ?_⟩
  have hlt := eyeLimit_lt s p.toNat
  have hmod := Nat.mod_lt cnt (Nat.two_pow_pos (s.fget (PRT_EYE_CTL p.toNat) PRT_EYE_CTL_LIMIT))
  rw [setEyeStat_cnt, setCounts_cnt _ _ _ (hmod.trans hlt)]

end

/-- A scan is done with the counts of all its symbols. -/
theorem eyeScanDone_counts {s : State} {p : BitVec 5} (err : Nat) (hrun : s.fget (PRT_EYE_STAT p.toNat) PRT_EYE_STAT_STATE = 1) :
    ∃ t, exec (.eyeScanDone p err) s = .next t ∧ t.fget (PRT_EYE_STAT p.toNat) PRT_EYE_STAT_STATE = 2
      ∧ t.rd64 (PRT_EYE_CNT_LO p.toNat) = 2 ^ s.fget (PRT_EYE_CTL p.toNat) PRT_EYE_CTL_LIMIT
      ∧ (t.rd (PRT_EYE_ERR p.toNat)).toNat
        = min (min err (2 ^ s.fget (PRT_EYE_CTL p.toNat) PRT_EYE_CTL_LIMIT)) (2 ^ 32 - 1) := by
  have hlt := eyeLimit_lt s p.toNat
  obtain ⟨h1, h2, h3, -⟩ := eyeRegs_apart p.toNat
  refine ⟨(setCounts s p.toNat (2 ^ s.fget (PRT_EYE_CTL p.toNat) PRT_EYE_CTL_LIMIT) _).fset (PRT_EYE_STAT p.toNat) PRT_EYE_STAT_STATE 2,
    if_neg (by simp [hrun]), fget_fset_same _ _ _ _ (by decide), ?_, ?_⟩
  · rw [rd64_fset_ne _ _ _ h1 h2, setCounts_cnt _ _ _ hlt]
  · rw [rd_fset_ne _ _ _ h3, setCounts_err, BitVec.toNat_ofNat]
    exact Nat.mod_eq_of_lt (by omega)

/-- Settles O24, command by command. -/
theorem lanesReferencesAndEye : Obligations.LanesReferencesAndEye := by
  intro s m p n cm1 c0 cp1 v cnt err why rate c l r P N ls txc ec es valid rej d thr marks w act okF
  have hvalid : coeffOk (cm1.toNat, c0.toNat, cp1.toNat) = true ↔ valid := coeffOk_iff _ _ _
  refine ⟨fun hok hup => ⟨laneFailed_lock_marks hok hup, laneFailed_fec_marks hok hup, laneFailed_fec_counts hok hup⟩,
    laneClear_unmarks l, fun hv hat => partnerCoeffRequest_applies cm1 c0 cp1 hat (hvalid.mpr hv),
    fun hv hat => partnerCoeffRequest_rejects cm1 c0 cp1 hat (Bool.eq_false_iff.mpr (mt hvalid.mp hv)),
    referenceLost_switches, referenceRestored_stays, referenceRestored_switches, bothReferencesLost_stops s,
    fun hm hidle hgo => eyeStart_runs hm v rfl hidle hgo, fun hm hidle hno hwhy => eyeStart_refused hm v rfl hidle hno hwhy,
    fun hm hrun => eyeAbort_ends hm cnt err hrun, eyeScanDone_counts err⟩

end Sys2Proof.Machine
end

section
/-! PROOFS. Sub-ports are configured, train and go down (R73-R76, R95, R162). -/

namespace Sys2Proof.Machine

open Sys2Proof

/-! ### Writes of PRT_CFG (R75, R76) -/

theorem bits_congr {o n : Word} {hi lo : Nat} (h : ∀ i, lo ≤ i → i ≤ hi → o.getLsbD i = n.getLsbD i) :
    bits o.toNat hi lo = bits n.toNat hi lo := by
  refine Nat.eq_of_testBit_eq fun i => ?_
  simp only [bits, Nat.testBit_mod_two_pow, Nat.testBit_shiftRight]
  by_cases hi' : i < hi + 1 - lo
  · rw [show o.toNat.testBit (lo + i) = n.toNat.testBit (lo + i) from h (lo + i) (by omega) (by omega)]
  · simp [hi']

/-- Two words of PRT_CFG with one MODE and one ROLE. -/
def sameMode (o n : Word) : Prop := bits o.toNat 3 2 = bits n.toNat 3 2 ∧ bits o.toNat 7 6 = bits n.toNat 7 6

theorem sameMode_of_and_eq {o n : Word} (h : o &&& 0xCC = n &&& 0xCC) : sameMode o n := by
  have hbit : ∀ i, (0xCC : Word).getLsbD i = true → o.getLsbD i = n.getLsbD i := fun i hi => by
    have := congrArg (BitVec.getLsbD · i) h
    simpa only [BitVec.getLsbD_and, hi, Bool.and_true] using this
  refine ⟨bits_congr fun i h1 h2 => hbit i ?_, bits_congr fun i h1 h2 => hbit i ?_⟩ <;> interval_cases i <;> rfl

/-- A flag at bit 0 is that bit. -/
theorem flag_bit_zero {s : State} {a : Nat} {f : Fld} (hlo : f.lo = 0) (hw : f.width = 1) : s.flag a f = (s.rd a).getLsbD 0 := by
  have hbit : (s.rd a).getLsbD 0 = decide ((s.rd a).toNat % 2 = 1) := Nat.testBit_zero _
  rw [hbit, State.flag, State.fget, fldGet, hlo, hw, Nat.shiftRight_zero, Nat.pow_one]
  rcases Nat.mod_two_eq_zero_or_one (s.rd a).toNat with h | h <;> rw [h] <;> rfl

/-- What follows every write of PRT_CFG that is taken. -/
def cfgStats (s : State) (p : Nat) : State := pclkStat (ownerStat (promotedStat s p) p) p

@[simp] theorem pclkStat_rd (s : State) (p a : Nat) : (pclkStat s p).rd a = s.rd a := by
  obtain ⟨g, hg⟩ := pclkStat_frame s p
  rw [hg]
  rfl

@[simp] theorem pclkStat_subs (s : State) (p : Nat) : (pclkStat s p).subs = s.subs := by
  obtain ⟨g, hg⟩ := pclkStat_frame s p
  rw [hg]

theorem cfgStats_rd (s : State) {p a : Nat} (h1 : a ≠ MRD_PROMOTED) (h2 : a ≠ PRT_SLOT_STAT p) : (cfgStats s p).rd a = s.rd a := by
  unfold cfgStats ownerStat
  dsimp only
  rw [pclkStat_rd, rd_fsets_ne _ _ h2, promotedStat_rd s p h1]

theorem cfgStats_subs (s : State) (p : Nat) : (cfgStats s p).subs = s.subs := by
  unfold cfgStats ownerStat
  dsimp only
  rw [pclkStat_subs, State.fsets_subs, promotedStat_subs]

theorem cfgStats_cfg (s : State) (p : Nat) : (cfgStats s p).rd (PRT_CFG p) = s.rd (PRT_CFG p) := by
  refine cfgStats_rd s ?_ ?_ <;> simp only [PRT_CFG, MRD_PROMOTED, PRT_SLOT_STAT] <;> omega

/-- Every sub-port of the port is freed. -/
def freeSubs (s : State) (p : Nat) : State := (subsOf s p).foldl (fun s k => subFree s (subNode p k)) s

/-- A write that enables the port, and leaves MODE and ROLE. -/
theorem prtCfgWrite_enable {s : State} {p : Nat} {n : Word} (ho : (s.rd (PRT_CFG p)).getLsbD 0 = false)
    (hn : n.getLsbD 0 = true) (hsame : sameMode (s.rd (PRT_CFG p)) n) (hfit : reserveTotal (s.wr (PRT_CFG p) (n &&& 0xF7FC)) p ≤ 8192) :
    prtCfgWrite s p n = cfgStats (freeSubs ((s.wr (PRT_CFG p) (n &&& 0xF7FC)).wr (PRT_CFG p) (n &&& 0xF7FD)) p) p := by
  have hbit : ∀ w : Word, bitB w.toNat 0 = w.getLsbD 0 := fun _ => rfl
  have hmask : n &&& 0xF7FD &&& 0xFFFE = n &&& 0xF7FC := BitVec.and_assoc _ _ _
  obtain ⟨hmode, hrole⟩ := hsame
  simp only [prtCfgWrite, hbit, ho, hn, hmode, hrole, hmask, Nat.not_lt.mpr hfit, ne_eq, not_true_eq_false, decide_false,
    Bool.false_and, Bool.and_false, Bool.or_self, Bool.false_eq_true, if_false, Bool.not_false, Bool.and_self, if_true]
  rfl

/-- A write that disables the port, and leaves MODE and ROLE. -/
theorem prtCfgWrite_disable {s : State} {p : Nat} {n : Word} (hn : n.getLsbD 0 = false) (hsame : sameMode (s.rd (PRT_CFG p)) n) :
    ∃ u : State, prtCfgWrite s p n = cfgStats (u.wr (PRT_CFG p) (n &&& 0xF7FD)) p := by
  have hbit : ∀ w : Word, bitB w.toNat 0 = w.getLsbD 0 := fun _ => rfl
  obtain ⟨hmode, hrole⟩ := hsame
  simp only [prtCfgWrite, hbit, hn, hmode, hrole, ne_eq, not_true_eq_false, decide_false, Bool.false_and, Bool.and_false,
    Bool.or_self, Bool.false_eq_true, if_false, Bool.not_false, Bool.and_true]
  exact ⟨_, rfl⟩

/-! ### Sub-ports that are free to train (R75, R97) -/

theorem subFree_subs (s : State) (d : Nat) : (subFree s d).subs = (s.modSub d fun x => { x with off := false }).subs := by
  unfold subFree
  dsimp only
  split <;> rfl

theorem subFree_rd (s : State) {d a : Nat} (h : a ≠ PRT_LANE_STAT (d / 4)) : (subFree s d).rd a = s.rd a := by
  unfold subFree
  dsimp only
  split
  · exact toDetect_rd _ h
  · rfl

theorem subFree_off_same (s : State) (d : Nat) : ((subFree s d).sub d).off = false := by
  rw [sub_congr (subFree_subs s d), sub_modSub_same]

theorem sub_modSub_ne (s : State) {d e : Nat} (f : Sub → Sub) (h : e ≠ d) : (s.modSub d f).sub e = s.sub e := by
  simp [State.sub, State.modSub, mfind_minsert_ne _ _ h]

/-- Freeing a sub-port holds none in Disabled. -/
theorem subFree_off_keeps {s : State} {e : Nat} (d : Nat) (h : (s.sub e).off = false) : ((subFree s d).sub e).off = false := by
  by_cases hd : e = d
  · rw [hd]
    exact subFree_off_same s d
  · rw [sub_congr (subFree_subs s d), sub_modSub_ne _ _ hd, h]

theorem foldl_subFree_off {s : State} {p e : Nat} {l : List Nat} (h : (∃ k ∈ l, e = subNode p k) ∨ (s.sub e).off = false) :
    ((l.foldl (fun s k => subFree s (subNode p k)) s).sub e).off = false := by
  induction l generalizing s with
  | nil => simpa using h
  | cons k r ih =>
    refine ih ?_
    rcases h with ⟨j, hj, rfl⟩ | h
    · rcases List.mem_cons.mp hj with rfl | hj
      · exact Or.inr (subFree_off_same _ _)
      · exact Or.inl ⟨j, hj, rfl⟩
    · exact Or.inr (subFree_off_keeps _ h)

theorem freeSubs_off (s : State) {p j : Nat} (hj : j ∈ subsOf s p) : ((freeSubs s p).sub (subNode p j)).off = false :=
  foldl_subFree_off (Or.inl ⟨j, hj, rfl⟩)

theorem freeSubs_cfg (s : State) (p : Nat) : (freeSubs s p).rd (PRT_CFG p) = s.rd (PRT_CFG p) := by
  refine foldl_keeps (State.rd · (PRT_CFG p)) (fun u k hk => subFree_rd u ?_) s
  have := mem_subsOf_lt hk
  have hdiv : subNode p k / 4 = p := by unfold subNode; omega
  rw [hdiv]
  exact (prtCfg_ne_laneStat p).1

theorem subsOf_of_rd_eq {s t : State} {p : Nat} (h : t.rd (PRT_CFG p) = s.rd (PRT_CFG p)) : subsOf t p = subsOf s p := by
  unfold subsOf
  rw [fget_of_rd_eq h]

theorem portEnable_frees {s : State} {m : Master} {p : BitVec 5} {v : Word} (hm : mayAct s m (PRT_CFG p.toNat))
    (ho : s.flag (PRT_CFG p.toNat) PRT_CFG_EN = false) (hsame : s.rd (PRT_CFG p.toNat) &&& 0xCC = v &&& 0xCC)
    (hfit : reserveTotal (s.wr (PRT_CFG p.toNat) ((v ||| 1) &&& 0xF7FC)) p.toNat ≤ 8192) :
    ∃ t, exec (.portEnable m p v) s = .next t ∧ t.rd (PRT_CFG p.toNat) = (v ||| 1) &&& 0xF7FD
      ∧ ∀ j ∈ subsOf t p.toNat, (t.sub (subNode p.toNat j)).off = false := by
  have hsame' : s.rd (PRT_CFG p.toNat) &&& 0xCC = (v ||| 1) &&& 0xCC := by
    rw [hsame]
    refine BitVec.eq_of_getLsbD_eq fun i _ => ?_
    rw [BitVec.getLsbD_and, BitVec.getLsbD_and, BitVec.getLsbD_or]
    by_cases h0 : i = 0
    · rw [h0]
      exact (Bool.and_false _).trans (Bool.and_false _).symm
    · rw [show (1 : Word).getLsbD i = false by simp [h0], Bool.or_false]
  have hen : (v ||| 1 : Word).getLsbD 0 = true := by
    rw [BitVec.getLsbD_or]
    exact Bool.or_true _
  have ho' : (s.rd (PRT_CFG p.toNat)).getLsbD 0 = false := (flag_bit_zero rfl rfl).symm.trans ho
  generalize hu : (s.wr (PRT_CFG p.toNat) ((v ||| 1) &&& 0xF7FC)).wr (PRT_CFG p.toNat) ((v ||| 1) &&& 0xF7FD) = u
  have hexec : exec (.portEnable m p v) s = .next (cfgStats (freeSubs u p.toNat) p.toNat) := by
    show Host.Outcome.next (csGate s m (PRT_CFG p.toNat) fun s => prtCfgWrite s p.toNat (v ||| 1)) = _
    rw [csGate_mayAct _ _ _ _ hm, prtCfgWrite_enable ho' hen (sameMode_of_and_eq hsame') hfit, hu]
  have hcfg : (cfgStats (freeSubs u p.toNat) p.toNat).rd (PRT_CFG p.toNat) = u.rd (PRT_CFG p.toNat) :=
    (cfgStats_cfg _ _).trans (freeSubs_cfg u _)
  refine ⟨_, hexec, ?_, fun j hj => ?_⟩
  · rw [hcfg, ← hu, rd_wr_same]
  · rw [subsOf_of_rd_eq hcfg] at hj
    rw [sub_congr (cfgStats_subs _ _)]
    exact freeSubs_off u hj

theorem portDisable_writes {s : State} {m : Master} {p : BitVec 5} {v : Word} (hm : mayAct s m (PRT_CFG p.toNat))
    (hsame : s.rd (PRT_CFG p.toNat) &&& 0xCC = v &&& 0xCC) :
    ∃ t, exec (.portDisable m p v) s = .next t ∧ t.rd (PRT_CFG p.toNat) = v &&& 0xF7FC := by
  have hsame' : s.rd (PRT_CFG p.toNat) &&& 0xCC = (v &&& ~~~ 1) &&& 0xCC := by rw [hsame, BitVec.and_assoc]; rfl
  have hen : (v &&& ~~~ 1 : Word).getLsbD 0 = false := by
    rw [BitVec.getLsbD_and]
    exact Bool.and_false _
  obtain ⟨u, hu⟩ := prtCfgWrite_disable hen (sameMode_of_and_eq hsame')
  have hexec : exec (.portDisable m p v) s = .next (cfgStats (u.wr (PRT_CFG p.toNat) ((v &&& ~~~ 1) &&& 0xF7FD)) p.toNat) := by
    show Host.Outcome.next (csGate s m (PRT_CFG p.toNat) fun s => prtCfgWrite s p.toNat (v &&& ~~~ 1)) = _
    rw [csGate_mayAct _ _ _ _ hm, hu]
  refine ⟨_, hexec, ?_⟩
  rw [cfgStats_cfg, rd_wr_same, BitVec.and_assoc]
  rfl

end Sys2Proof.Machine
end

section
/-! PROOFS. Sub-ports go down and train (R73, R74, R75, R95, R162), and O21. -/

namespace Sys2Proof.Machine

open Sys2Proof

/-! ### Going down -/

/-- Of a sub-port that has not trained, a write of PRT_LNK_CTL asks nothing. -/
theorem lnkParts_unreached {s : State} {d : Nat} (hr : (s.sub d).reached = false) (width retrain reeq : Bool) :
    lnkParts s d width retrain reeq = s := by
  have hwidth : lnkWidth s d = s := if_pos hr
  have hretrain : lnkRetrain s d = s := if_pos hr
  have hreeq : lnkReeq s d = s := if_pos hr
  simp only [lnkParts, hwidth, hretrain, hreeq, ite_self]

/-- A write that disables a sub-port. -/
theorem lnkCtlWrite_disables {s : State} {p k : Nat} {v : Word} (ho : (s.rd (PRT_LNK_CTL p k)).getLsbD 0 = false)
    (hv : v.getLsbD 0 = true) : ∃ width retrain reeq, lnkCtlWrite s p k v = promotedStat
      (lnkParts (subDown (s.wr (PRT_LNK_CTL p k) (v &&& 0xF1)) (subNode p k) false) (subNode p k) width retrain reeq) p := by
  have hbit : ∀ (w : Word), bitB w.toNat 0 = w.getLsbD 0 := fun _ => rfl
  refine ⟨decide (bits v.toNat 7 5 ≠ bits (s.rd (PRT_LNK_CTL p k)).toNat 7 5), bitB v.toNat 2, bitB v.toNat 3, ?_⟩
  simp only [lnkCtlWrite, lnkParts, hbit, ho, hv, Bool.not_false, Bool.not_true, Bool.and_self, if_true,
    Bool.false_eq_true, if_false, decide_eq_true_eq]

theorem lnkCtl_portReg (p : BitVec 5) (k : BitVec 2) : portReg (PRT_LNK_CTL p.toNat k.toNat) := by
  have := p.isLt
  have := k.isLt
  unfold portReg PRT_LNK_CTL
  omega

section
variable {s : State} {p : BitVec 5} {k : BitVec 2}

theorem subportDisableWrite_down {m : Master} (hm : mayAct s m (PRT_LNK_CTL p.toNat k.toNat))
    (ho : s.flag (PRT_LNK_CTL p.toNat k.toNat) PRT_LNK_CTL_DISABLE = false) (hin : inService s (subNode p.toNat k.toNat) = false) :
    ∃ t, exec (.subportDisableWrite m p k true) s = .next t ∧ isDown t p.toNat k.toNat
      ∧ t.flag (PRT_LNK_CTL p.toNat k.toNat) PRT_LNK_CTL_DISABLE = true := by
  have ho' : (s.rd (PRT_LNK_CTL p.toNat k.toNat)).getLsbD 0 = false := (flag_bit_zero rfl rfl).symm.trans ho
  generalize hv : fldPut (s.rd (PRT_LNK_CTL p.toNat k.toNat)) PRT_LNK_CTL_DISABLE 1 = v
  have hv0 : v.getLsbD 0 = true := by
    rw [← hv, getLsbD_fldPut]
    rfl
  generalize hu : s.wr (PRT_LNK_CTL p.toNat k.toNat) (v &&& 0xF1) = u
  have hin' : inService u (subNode p.toNat k.toNat) = false := by
    rw [← hin]
    exact inService_of_rd_eq (by rw [← hu, subNode_div, subNode_mod, rd_wr_ne _ _ (by simp)])
  have hunreached : ((subDown u (subNode p.toNat k.toNat) false).sub (subNode p.toNat k.toNat)).reached = false := by
    rw [subDown_idle_sub _ hin']
    rfl
  have hexec : exec (.subportDisableWrite m p k true) s
      = .next (promotedStat (subDown u (subNode p.toNat k.toNat) false) p.toNat) := by
    obtain ⟨width, retrain, reeq, hw⟩ := lnkCtlWrite_disables ho' hv0
    show Host.Outcome.next (lnkCtlField s m p.toNat k.toNat PRT_LNK_CTL_DISABLE 1) = _
    rw [lnkCtlField, csGate_mayAct _ _ _ _ hm, hv, hw, hu, lnkParts_unreached hunreached]
  have hctl : (promotedStat (subDown u (subNode p.toNat k.toNat) false) p.toNat).rd (PRT_LNK_CTL p.toNat k.toNat) = v &&& 0xF1 := by
    rw [promotedStat_rd _ _ (by simp), subDown_portRd _ (lnkCtl_portReg p k) ⟨by simp, by simp, Or.inl (by simp)⟩, ← hu, rd_wr_same]
  refine ⟨_, hexec, isDown_of_rd_eq (subDown_isDown u p k false) (promotedStat_rd _ _ (by simp)), ?_⟩
  rw [flag_bit_zero rfl rfl, hctl, BitVec.getLsbD_and, hv0]
  rfl

theorem linkDown_down (s : State) (p : BitVec 5) (k : BitVec 2) : ∃ t, exec (.linkDown p k) s = .next t ∧ isDown t p.toNat k.toNat
    ∧ (inService s (subNode p.toNat k.toNat) = false → ∀ a, a ≠ PRT_LNK_STAT p.toNat k.toNat → a ≠ MRD_PROMOTED →
      a ≠ PRT_LANE_STAT p.toNat → a ≠ PRT_EYE_CNT_LO p.toNat → a ≠ PRT_EYE_CNT_LO p.toNat + 4 → a ≠ PRT_EYE_ERR p.toNat →
      a ≠ PRT_EYE_STAT p.toNat → t.rd a = s.rd a) := by
  refine ⟨_, rfl, subDown_isDown _ _ _ _, fun hin a hst hp hlane h1 h2 h3 h4 => subDown_idle_rd hin hp ⟨?_, ?_, Or.inl ?_⟩⟩ <;>
    simp only [subNode_div, subNode_mod]
  · exact hst
  · simp [eyeRegs, h1, h2, h3, h4]
  · exact hlane

theorem loopbackRefused_down (hin : inService s (subNode p.toNat k.toNat) = false) :
    ∃ t, exec (.loopbackRefused p k) s = .next t ∧ isDown t p.toNat k.toNat
      ∧ t.fget (PRT_LERRCNT1 p.toNat k.toNat) PRT_LERRCNT1_LPBK_CNT
        = min (s.fget (PRT_LERRCNT1 p.toNat k.toNat) PRT_LERRCNT1_LPBK_CNT + 1) (2 ^ PRT_LERRCNT1_LPBK_CNT.width - 1) := by
  generalize hu : s.fbump (PRT_LERRCNT1 p.toNat k.toNat) PRT_LERRCNT1_LPBK_CNT 1 = u
  have hin' : inService u (subNode p.toNat k.toNat) = false := by
    rw [← hin]
    exact inService_of_rd_eq (by rw [← hu, subNode_div, subNode_mod, State.fbump, rd_fset_ne _ _ _ (by simp)])
  refine ⟨subDown u (subNode p.toNat k.toNat) (u.sub (subNode p.toNat k.toNat)).off, hu ▸ rfl, subDown_isDown _ _ _ _, ?_⟩
  rw [fget_of_rd_eq (subDown_idle_rd hin' (by simp) ⟨by simp, by simp, Or.inl (by simp)⟩), ← hu, fget_fbump_same _ _ _ _ (by decide)]

end

/-! ### Training -/

theorem linkReport_subs (s : State) (d : Nat) (up : Bool) : (linkReport s d up).subs = s.subs := by
  refine foldl_keeps State.subs (fun u e _ => ?_) s
  have hsig : ∀ (u : State) t v p d, (hpSignal u t v p d).subs = u.subs := fun u t v p d => by
    unfold hpSignal
    dsimp only
    split
    · split <;> split <;> rfl
    · rfl
  have hrep : ∀ pds dlla p d, (vpReport u e.1 e.2 pds dlla p d).subs = u.subs := fun pds dlla p d => by
    unfold vpReport
    dsimp only
    split
    · exact hsig _ _ _ _ _
    · rfl
  dsimp only
  split
  · rfl
  · exact hrep _ _ _ _

/-- A port has no lane above the sixteenth. -/
theorem laneFailed_of_ge (s : State) (p : Nat) {n : Nat} (h : 16 ≤ n) : laneFailed s p n = false :=
  Nat.testBit_lt_two_pow ((fget_lt s (PRT_LANE_STAT p) PRT_LANE_STAT_FAILED).trans_le (Nat.pow_le_pow_right (by decide) h))

/-- With every lane in order a sub-port has its full width. -/
theorem widest_full {s : State} {p k : Nat} {rev : Bool} (hok : ∀ i, i < 16 → laneFailed s p i = false) :
    widest (min (subLanes s p) (subLanes s p)) (fun w => lanesOk s p k w rev) = subLanes s p := by
  have hall : ∀ n, laneFailed s p n = false := fun n => (Nat.lt_or_ge n 16).elim (hok n) (laneFailed_of_ge s p)
  have hlanes : ∀ w, lanesOk s p k w rev = true := fun w => by simp [lanesOk, hall]
  simp only [hlanes, Nat.min_self]
  unfold subLanes
  split <;> rfl

/-- The link at its rate and width, in the sub-port's status and engine state. -/
def runsAt (s : State) (d rate w : Nat) (rev l0p : Bool) (dev : DevInfo) : State :=
  (s.fsets (PRT_LNK_STAT (d / 4) (d % 4)) [(PRT_LNK_STAT_RATE, rate), (PRT_LNK_STAT_TWIDTH, w), (PRT_LNK_STAT_AWIDTH, w),
    (PRT_LNK_STAT_REV, rev.toNat)]).modSub d fun x => subTrained x l0p dev

/-- What a fresh link is granted, and whom it is reported to. -/
def freshLink (s : State) (d : Nat) (cred : List (Nat × Nat)) : State :=
  promotedStat (askWidth (linkReport (s.modSub d fun x => { x with txCred := credAdd [] cred, rxCred := [] }) d true) d) (d / 4)

theorem linkUpAt_fresh {s : State} {d rate width w : Nat} {rev l0p : Bool} {dev : DevInfo} {eqs : List EqRun}
    {cred : List (Nat × Nat)} (hpm : linkPm s d ≠ pmRECOV)
    (hw : widest (min width (subLanes s (d / 4))) (fun w => lanesOk s (d / 4) (d % 4) w rev) = w) (hfit : minWidth s (d / 4) ≤ w)
    (h0 : w ≠ 0) : linkUpAt s d rate width rev l0p dev eqs cred
      = freshLink (setL0 (runsAt (equalise s d 5 rate eqs) d rate w rev l0p dev) d) d cred := by
  have hfresh : (linkPm s d != pmRECOV) = true := bne_iff_ne.mpr hpm
  unfold linkUpAt
  dsimp only
  rw [hw, if_neg (not_or.mpr ⟨Nat.not_lt.mpr hfit, h0⟩), if_pos hfresh, if_pos hfresh, if_pos hfresh]
  rfl

section
variable (s : State) (p : BitVec 5) (k : BitVec 2) {rate w : Nat} {rev l0p : Bool} {dev : DevInfo} {cred : List (Nat × Nat)}

theorem freshLink_lnkStat : (freshLink s (subNode p.toNat k.toNat) cred).rd (PRT_LNK_STAT p.toNat k.toNat)
    = s.rd (PRT_LNK_STAT p.toNat k.toNat) := by
  rw [freshLink, promotedStat_rd _ _ (by simp), askWidth_rd _ (by simp), linkReport_rd, State.modSub_rd]

/-- Of the engine state, credits and an L0p request follow. -/
theorem freshLink_sub (d : Nat) : ((freshLink s d cred).sub d).reached = (s.sub d).reached
    ∧ ((freshLink s d cred).sub d).fails = (s.sub d).fails ∧ ((freshLink s d cred).sub d).dev = (s.sub d).dev := by
  obtain ⟨h1, h2, h3⟩ := askWidth_keeps (linkReport (s.modSub d fun x => { x with txCred := credAdd [] cred, rxCred := [] }) d true) d
  rw [freshLink, sub_congr (promotedStat_subs _ _), h1, h2, h3, sub_congr (linkReport_subs _ _ _), sub_modSub_same]
  exact ⟨rfl, rfl, rfl⟩

theorem runsAt_rate (h : rate < 16) :
    (runsAt s (subNode p.toNat k.toNat) rate w rev l0p dev).fget (PRT_LNK_STAT p.toNat k.toNat) PRT_LNK_STAT_RATE = rate := by
  simp only [runsAt, State.modSub_fget, State.fsets, List.foldl_cons, List.foldl_nil, subNode_div, subNode_mod]
  rw [fget_fset_ne _ _ _ _ _ (by decide) (by decide), fget_fset_ne _ _ _ _ _ (by decide) (by decide),
    fget_fset_ne _ _ _ _ _ (by decide) (by decide), fget_fset_same _ _ _ _ (by decide)]
  exact Nat.mod_eq_of_lt h

theorem runsAt_twidth (h : w < 32) :
    (runsAt s (subNode p.toNat k.toNat) rate w rev l0p dev).fget (PRT_LNK_STAT p.toNat k.toNat) PRT_LNK_STAT_TWIDTH = w := by
  simp only [runsAt, State.modSub_fget, State.fsets, List.foldl_cons, List.foldl_nil, subNode_div, subNode_mod]
  rw [fget_fset_ne _ _ _ _ _ (by decide) (by decide), fget_fset_ne _ _ _ _ _ (by decide) (by decide),
    fget_fset_same _ _ _ _ (by decide)]
  exact Nat.mod_eq_of_lt h

theorem runsAt_awidth (h : w < 32) :
    (runsAt s (subNode p.toNat k.toNat) rate w rev l0p dev).fget (PRT_LNK_STAT p.toNat k.toNat) PRT_LNK_STAT_AWIDTH = w := by
  simp only [runsAt, State.modSub_fget, State.fsets, List.foldl_cons, List.foldl_nil, subNode_div, subNode_mod]
  rw [fget_fset_ne _ _ _ _ _ (by decide) (by decide), fget_fset_same _ _ _ _ (by decide)]
  exact Nat.mod_eq_of_lt h

theorem runsAt_sub (d : Nat) : ∃ x, (runsAt s d rate w rev l0p dev).sub d = subTrained x l0p dev :=
  ⟨_, sub_modSub_same _ _ _⟩

end

/-- A sub-port that trains at its full width is in L0. -/
theorem linkTrained_full {s : State} {p : BitVec 5} {k : BitVec 2} {rate : Nat} (rev l0p : Bool) (dev : DevInfo) (eqs : List EqRun)
    (cred : List (Nat × Nat)) (hmay : mayTrain s (subNode p.toNat k.toNat) = true) (hup : linkUp s (subNode p.toNat k.toNat) = false)
    (hl1 : linkPm s (subNode p.toNat k.toNat) ≠ pmL1) (hrec : linkPm s (subNode p.toNat k.toNat) ≠ pmRECOV)
    (hcompl : s.flag (PRT_LNK_CTL p.toNat k.toNat) PRT_LNK_CTL_COMPL = false) (hr5 : 5 ≤ min rate (maxRate s p.toNat))
    (hr16 : min rate (maxRate s p.toNat) < 16) (hminw : minWidth s p.toNat ≤ subLanes s p.toNat)
    (hok : ∀ i, i < 16 → laneFailed s p.toNat i = false) :
    ∃ t, exec (.linkTrained p k (.up rate (subLanes s p.toNat) rev l0p dev eqs cred)) s = .next t
      ∧ t.fget (PRT_LNK_STAT p.toNat k.toNat) PRT_LNK_STAT_PM = pmL0
      ∧ t.fget (PRT_LNK_STAT p.toNat k.toNat) PRT_LNK_STAT_RATE = min rate (maxRate s p.toNat)
      ∧ t.fget (PRT_LNK_STAT p.toNat k.toNat) PRT_LNK_STAT_TWIDTH = subLanes s p.toNat
      ∧ t.fget (PRT_LNK_STAT p.toNat k.toNat) PRT_LNK_STAT_AWIDTH = subLanes s p.toNat
      ∧ (t.sub (subNode p.toNat k.toNat)).reached = true ∧ (t.sub (subNode p.toNat k.toNat)).fails = 0
      ∧ (t.sub (subNode p.toNat k.toNat)).dev = some dev := by
  have hlanes : 0 < subLanes s p.toNat ∧ subLanes s p.toNat < 32 := by
    unfold subLanes
    split <;> decide
  generalize hrate : min rate (maxRate s p.toNat) = r at hr5 hr16 ⊢
  generalize hu : runsAt (equalise s (subNode p.toNat k.toNat) 5 r eqs) (subNode p.toNat k.toNat) r (subLanes s p.toNat) rev l0p dev = u
  have hexec : exec (.linkTrained p k (.up rate (subLanes s p.toNat) rev l0p dev eqs cred)) s
      = .next (freshLink (setL0 u (subNode p.toNat k.toNat)) (subNode p.toNat k.toNat) cred) := by
    have hat := linkUpAt_fresh (rate := r) (width := subLanes s p.toNat) (w := subLanes s p.toNat) (rev := rev) (l0p := l0p)
      (dev := dev) (eqs := eqs) (cred := cred) hrec (by rw [subNode_div]; exact widest_full hok) (by rwa [subNode_div])
      (Nat.ne_of_gt hlanes.1)
    show execLinkTrained p k (.up rate (subLanes s p.toNat) rev l0p dev eqs cred) s = _
    unfold execLinkTrained
    dsimp only
    rw [if_neg (by simp [hmay, hup, hl1]), if_neg (by simp [hcompl]), hrate, if_neg (Nat.not_lt.mpr hr5), hat, hu]
  have htw : u.fget (PRT_LNK_STAT p.toNat k.toNat) PRT_LNK_STAT_TWIDTH = subLanes s p.toNat := hu ▸ runsAt_twidth _ p k hlanes.2
  have haw : u.fget (PRT_LNK_STAT p.toNat k.toNat) PRT_LNK_STAT_AWIDTH = subLanes s p.toNat := hu ▸ runsAt_awidth _ p k hlanes.2
  have hrt : u.fget (PRT_LNK_STAT p.toNat k.toNat) PRT_LNK_STAT_RATE = r := hu ▸ runsAt_rate _ p k hr16
  have hpm := setL0_linkPm u p k
  rw [htw, haw, if_neg (lt_irrefl _), linkPm, subNode_div, subNode_mod] at hpm
  have hst := freshLink_lnkStat (setL0 u (subNode p.toNat k.toNat)) p k (cred := cred)
  obtain ⟨hreached, hfails, hdev⟩ := freshLink_sub (setL0 u (subNode p.toNat k.toNat)) (cred := cred) (subNode p.toNat k.toNat)
  obtain ⟨x, hx⟩ : ∃ x, (setL0 u (subNode p.toNat k.toNat)).sub (subNode p.toNat k.toNat) = subTrained x l0p dev := by
    rw [sub_congr (setL0_subs _ _), ← hu]
    exact runsAt_sub _ _
  refine ⟨_, hexec, (fget_of_rd_eq hst _).trans hpm, ?_, ?_, ?_, ?_, ?_, ?_⟩
  · rw [fget_of_rd_eq hst, setL0_fget _ _ _ (by decide) (by decide), hrt]
  · rw [fget_of_rd_eq hst, setL0_fget _ _ _ (by decide) (by decide), htw]
  · rw [fget_of_rd_eq hst, setL0_fget _ _ _ (by decide) (by decide), haw]
  · rw [hreached, hx]; rfl
  · rw [hfails, hx]; rfl
  · rw [hdev, hx]; rfl

/-- Settles O21, command by command. -/
theorem portsTrainAndGoDown : Obligations.PortsTrainAndGoDown := by
  intro s m p k v rate rev l0p dev eqs cred P K d cfg st same down
  exact ⟨portEnable_frees, fun hm _ hsame => portDisable_writes hm hsame, subportDisableWrite_down, linkDown_down s p k,
    loopbackRefused_down, linkTrained_full rev l0p dev eqs cred⟩

end Sys2Proof.Machine
end

section
/-! PROOFS. Flits and their acknowledgement (R121-R123), IDE streams (R124-R126) and the marking level (R127). -/

namespace Sys2Proof.Machine

open Sys2Proof

/-! ### Counting and the sub-ports (R434-R438) -/

theorem countOnly_subs_eq {s t : State} (h : countOnly s t) : t.subs = s.subs := by
  obtain ⟨-, -, hframe, -⟩ := h
  rw [hframe]

/-- A change of one sub-port after counting is that change, and counting. -/
theorem countOnly_modSub {s u : State} (h : countOnly s u) (d : Nat) (f : Sub → Sub) :
    countOnly { s with subs := (u.modSub d f).subs } (u.modSub d f) := by
  obtain ⟨hrd, -, hframe, htrp⟩ := h
  exact ⟨hrd, fun _ _ => rfl, congrArg (State.modSub · d f) hframe ▸ rfl, htrp⟩

/-! ### Flits that arrive (R121, R122) -/

/-- A flit that arrives counts in the Photometer, and so does one that FEC corrected. -/
def flitCounted (s : State) (d : Nat) (fec : Bool) : State :=
  if fec then tally (tally s (nodeHalf d) 7 0 (d % 64) 1) (nodeHalf d) 7 2 (d % 64) 1
  else tally s (nodeHalf d) 7 0 (d % 64) 1

theorem flitCounted_countOnly (s : State) (d : Nat) (fec : Bool) : countOnly s (flitCounted s d fec) := by
  have harrived := tally_countOnly s (nodeHalf d) 7 0 (d % 64) 1
  cases fec
  · exact harrived
  · exact countOnly_trans harrived (tally_countOnly _ _ _ _ _ _)

theorem flitCounted_subs (s : State) (d : Nat) (fec : Bool) : (flitCounted s d fec).subs = s.subs :=
  countOnly_subs_eq (flitCounted_countOnly s d fec)

/-- The credits of a flit add up class by class (R122). -/
theorem nget_credAdd (cred : List (Nat × Nat)) (c : SMap Nat) (j : Nat) :
    nget (credAdd c cred) j = nget c j + ((cred.filter fun e => e.1 == j).map fun e => e.2).sum := by
  induction cred generalizing c with
  | nil => rfl
  | cons e r ih =>
    have hstep : nget (credAdd c (e :: r)) j
        = nget (nset c e.1 (nget c e.1 + e.2)) j + ((r.filter fun e => e.1 == j).map fun e => e.2).sum := ih _
    by_cases h : e.1 = j
    · subst h
      simp [hstep, nget_nset_same, Nat.add_assoc]
    · have hother : nget (nset c e.1 (nget c e.1 + e.2)) j = nget c j := mget_mset_ne _ _ _ (Ne.symm h)
      simp [hstep, hother, h]

theorem txErrCnt2_portReg (p : BitVec 5) (k : BitVec 2) : portReg (PRT_TXERRCNT2 p.toNat k.toNat) := by
  have := p.isLt
  have := k.isLt
  unfold portReg PRT_TXERRCNT2
  omega

section

variable {s : State} {p : BitVec 5} {k : BitVec 2} {q : BitVec 10} {d : Nat} (fec : Bool) (cred : List (Nat × Nat))
  (hd : subNode p.toNat k.toNat = d) (hin : inService s d = true)

include hd hin

/-- The next flit in turn is accepted, with the credits it brings. -/
theorem flitReceived_accepts (hq : q.toNat = ((s.sub d).rxSeq + 1) % 1024) :
    ∃ t, exec (.flitReceived p k q fec cred) s = .next t ∧ countOnly { s with subs := t.subs } t
      ∧ t.sub d = { s.sub d with rxSeq := q.toNat, txCred := (t.sub d).txCred }
      ∧ (∀ j, nget (t.sub d).txCred j
          = nget (s.sub d).txCred j + ((cred.filter fun e => e.1 == j).map fun e => e.2).sum)
      ∧ ∀ b, b ≠ d → t.sub b = s.sub b := by
  have hexec : exec (.flitReceived p k q fec cred) s = .next ((flitCounted s d fec).modSub d
      fun x => { x with rxSeq := q.toNat, txCred := credAdd x.txCred cred }) := by
    show execFlitReceived p k q fec cred s = _
    unfold execFlitReceived
    dsimp only
    rw [hd, if_neg (by simp [hin]), if_pos hq]
    rfl
  have hsub := sub_congr (flitCounted_subs s d fec)
  refine ⟨_, hexec, countOnly_modSub (flitCounted_countOnly s d fec) d _, ?_, fun j => ?_, fun b hb => ?_⟩
  · rw [sub_modSub_same, hsub]
  · rw [sub_modSub_same, hsub]
    exact nget_credAdd cred _ j
  · rw [sub_modSub_ne _ _ hb, hsub]

/-- A flit that was accepted before is counted, and no more. -/
theorem flitReceived_counts_replay (hq : q.toNat ≠ ((s.sub d).rxSeq + 1) % 1024)
    (hold : ((s.sub d).rxSeq + 1024 - q.toNat) % 1024 < 512) :
    ∃ t, exec (.flitReceived p k q fec cred) s = .next t ∧ t.subs = s.subs
      ∧ t.fget (PRT_TXERRCNT2 p.toNat k.toNat) PRT_TXERRCNT2_REPLAY_DUP_CNT
          = min (s.fget (PRT_TXERRCNT2 p.toNat k.toNat) PRT_TXERRCNT2_REPLAY_DUP_CNT + 1)
              (2 ^ PRT_TXERRCNT2_REPLAY_DUP_CNT.width - 1) := by
  have hexec : exec (.flitReceived p k q fec cred) s
      = .next ((flitCounted s d fec).fbump (PRT_TXERRCNT2 p.toNat k.toNat) PRT_TXERRCNT2_REPLAY_DUP_CNT 1) := by
    show execFlitReceived p k q fec cred s = _
    unfold execFlitReceived
    dsimp only
    rw [hd, if_neg (by simp [hin]), if_neg hq, if_pos hold, ← hd, subNode_div, subNode_mod]
    rfl
  have hcnt := countOnly_portRd (txErrCnt2_portReg p k) (flitCounted_countOnly s d fec)
  refine ⟨_, hexec, flitCounted_subs s d fec, ?_⟩
  rw [fget_fbump_same _ _ _ _ (by decide), fget_of_rd_eq hcnt]

end

/-! ### Acknowledgements (R122, R123) -/

/-- What an acknowledgement of n flits leaves of a sub-port whose share of the replay buffer is `share`. -/
def ackedSub (share n : Nat) (x : Sub) : Sub :=
  { x with unacked := x.unacked - n, stalled := if x.unacked - n < share then false else x.stalled }

theorem flitAckReceived_frees (s : State) {p : BitVec 5} {k : BitVec 2} {d : Nat} (hd : subNode p.toNat k.toNat = d) (n : Nat)
    (nak : Bool) :
    ∃ t, exec (.flitAckReceived p k n nak) s = .next t ∧ t.sub d = ackedSub (replayShare s d) n (s.sub d)
      ∧ countOnly { s with subs := t.subs } t := by
  have hexec : exec (.flitAckReceived p k n nak) s
      = .next (if nak then tally (s.modSub d (ackedSub (replayShare s d) n)) (nodeHalf d) 7 3 (d % 64) ((s.sub d).unacked - n)
          else s.modSub d (ackedSub (replayShare s d) n)) := by
    rw [← hd]
    rfl
  have hacked := countOnly_modSub (countOnly_refl s) d (ackedSub (replayShare s d) n)
  cases nak
  · exact ⟨_, hexec, sub_modSub_same _ _ _, hacked⟩
  · have hcount := tally_countOnly (s.modSub d (ackedSub (replayShare s d) n)) (nodeHalf d) 7 3 (d % 64) ((s.sub d).unacked - n)
    have hsubs := countOnly_subs_eq hcount
    exact ⟨_, hexec, (sub_congr hsubs d).trans (sub_modSub_same _ _ _), hsubs ▸ countOnly_trans hacked hcount⟩

/-! ### Keys of IDE streams (R124) -/

/-- A one-bit field reads as the bit put there. -/
theorem flag_fset_toNat (s : State) (a : Nat) (f : Fld) (x : Bool) (hw : f.width = 1) (hlo : f.lo < 32) :
    (s.fset a f x.toNat).flag a f = x := by
  rw [State.flag, fget_fset_same _ _ _ _ (by omega), hw]
  cases x <;> rfl

theorem ide_portReg (p : BitVec 5) (k : BitVec 2) : portReg (PRT_IDE p.toNat k.toNat) := by
  have := p.isLt
  have := k.isLt
  unfold portReg PRT_IDE
  omega

section

variable {s : State} {p : BitVec 5} {k : BitVec 2} {d : Nat} (hd : subNode p.toNat k.toNat = d) (skid : Bool) (key : Nat)

include hd

theorem ideKeyProgram_noSession (h : spdmOpen s d = false) (st : BitVec 1) :
    exec (.ideKeyProgram p k st skid key) s = .next s := if_pos (hd ▸ h)

theorem ideKeyProgram_io (h : spdmOpen s d = true) :
    ∃ t, exec (.ideKeyProgram p k 0 skid key) s = .next t
      ∧ onlyField { s with subs := t.subs } t (PRT_IDE p.toNat k.toNat) PRT_IDE_IO_SEC 1
      ∧ t.sub d = { s.sub d with keyIo := some (key % 2 ^ 256) } := by
  refine ⟨(s.fset (PRT_IDE p.toNat k.toNat) PRT_IDE_IO_SEC 1).modSub d fun x => { x with keyIo := some (key % 2 ^ 256) }, ?_,
    onlyField_fset { s with subs := _ } _ _ _ (by decide), sub_modSub_same _ _ _⟩
  subst hd
  exact (if_neg (by simp [h])).trans (if_pos rfl)

theorem ideKeyProgram_mem (h : spdmOpen s d = true) :
    ∃ t, exec (.ideKeyProgram p k 1 skid key) s = .next t
      ∧ onlyRegs [PRT_IDE p.toNat k.toNat] { s with subs := t.subs } t
      ∧ t.flag (PRT_IDE p.toNat k.toNat) PRT_IDE_MEM_SEC = true ∧ t.flag (PRT_IDE p.toNat k.toNat) PRT_IDE_SKID = skid
      ∧ t.flag (PRT_IDE p.toNat k.toNat) PRT_IDE_IO_SEC = s.flag (PRT_IDE p.toNat k.toNat) PRT_IDE_IO_SEC
      ∧ t.sub d = { s.sub d with keyMem := some (key % 2 ^ 256) } := by
  refine ⟨((s.fset (PRT_IDE p.toNat k.toNat) PRT_IDE_MEM_SEC 1).fset (PRT_IDE p.toNat k.toNat) PRT_IDE_SKID skid.toNat).modSub d
    fun x => { x with keyMem := some (key % 2 ^ 256) }, ?_, ⟨rfl, fun a ha => ?_⟩, ?_, ?_, ?_, sub_modSub_same _ _ _⟩
  · subst hd
    exact (if_neg (by simp [h])).trans (if_neg (by decide))
  · have hne : a ≠ PRT_IDE p.toNat k.toNat := by simpa using ha
    exact (rd_fset_ne _ _ _ hne).trans (rd_fset_ne _ _ _ hne)
  · exact (flag_fset_ne _ _ _ _ _ (by decide) (by decide)).trans (flag_fset_toNat s _ _ true rfl (by decide))
  · exact flag_fset_toNat _ _ PRT_IDE_SKID skid rfl (by decide)
  · exact (flag_fset_ne _ _ _ _ _ (by decide) (by decide)).trans (flag_fset_ne _ _ _ _ _ (by decide) (by decide))

end

/-! ### A check that fails (R126) -/

/-- All of the machine but the management state, which holds the configuration space of the vPPBs, and what is sent. -/
def besideAer (s : State) : State := { s with mgt := mgtReset, sent := [] }

theorem aerLog_frame (s : State) (t v kind : Nat) (hdr : List Nat) : besideAer (aerLog s t v kind hdr) = besideAer s := by
  have hheader : ∀ u : State, besideAer (aerHeader u t v hdr) = besideAer u := foldl_keeps besideAer fun _ _ _ => rfl
  have hput : ∀ (u : State) (off x : Nat), besideAer (cfgPut u t v off x) = besideAer u := fun _ _ _ => rfl
  have hemit : ∀ (u : State) (x : Sent), besideAer (u.emit x) = besideAer u := fun _ _ => rfl
  simp only [aerLog, apply_ite besideAer, hemit, hput, hheader, ite_self]

theorem portAer_frame (s : State) (d kind : Nat) : besideAer (portAer s d kind) = besideAer s := by
  unfold portAer
  split
  · exact aerLog_frame _ _ _ _ _
  · exact foldl_keeps besideAer (fun u _ _ => aerLog_frame u _ _ _ _) s

section

variable (s : State) (p : BitVec 5) (k : BitVec 2) (f : Fld)

/-- The stream whose field of PRT_IDE is f is Insecure, and the failure is counted. -/
def ideFailCounted : State :=
  (s.fset (PRT_IDE p.toNat k.toNat) f 0).fbump (PRT_TXERRCNT3 p.toNat k.toNat) PRT_TXERRCNT3_IDE_FAIL_CNT 1

theorem ideFailCounted_rd :
    (ideFailCounted s p k f).rd (PRT_IDE p.toNat k.toNat) = (s.fset (PRT_IDE p.toNat k.toNat) f 0).rd (PRT_IDE p.toNat k.toNat) :=
  rd_fset_ne _ _ _ (by unfold PRT_IDE PRT_TXERRCNT3; omega)

/-- The failure raises an event, and is reported to the tenant. -/
def ideFailReported : State :=
  portAer (raise (ideFailCounted s p k f) (nodeHalf (subNode p.toNat k.toNat)) (evt 7 0 (subNode p.toNat k.toNat) 0))
    (subNode p.toNat k.toNat) aerIDE

theorem ideFailReported_frame :
    (ideFailReported s p k f).rd (PRT_IDE p.toNat k.toNat) = (s.fset (PRT_IDE p.toNat k.toNat) f 0).rd (PRT_IDE p.toNat k.toNat)
      ∧ (ideFailReported s p k f).net = s.net ∧ (ideFailReported s p k f).core = s.core := by
  have hraise := raise_evt_refOnly (ideFailCounted s p k f) (nodeHalf (subNode p.toNat k.toNat)) 7 0 (subNode p.toNat k.toNat) 0
  have haer := portAer_frame (raise (ideFailCounted s p k f) (nodeHalf (subNode p.toNat k.toNat))
    (evt 7 0 (subNode p.toNat k.toNat) 0)) (subNode p.toNat k.toNat) aerIDE
  have hide := (refOnly_portRd (ide_portReg p k) hraise).trans (ideFailCounted_rd s p k f)
  obtain ⟨-, hrest, -⟩ := hraise
  have hnet := congrArg State.net hrest
  have hcore := congrArg State.core hrest
  exact ⟨(congrArg (State.rd · _) haer).trans hide, (congrArg State.net haer).trans hnet, (congrArg State.core haer).trans hcore⟩

end

/-- A failed check makes its stream Insecure, and leaves the other as it is. -/
theorem ideCheckFailed_insecure (s : State) (p : BitVec 5) (k : BitVec 2) (st : BitVec 1) :
    ∃ t, exec (.ideCheckFailed p k st) s = .next t
      ∧ t.flag (PRT_IDE p.toNat k.toNat) PRT_IDE_IO_SEC = (st != 0 && s.flag (PRT_IDE p.toNat k.toNat) PRT_IDE_IO_SEC)
      ∧ t.flag (PRT_IDE p.toNat k.toNat) PRT_IDE_MEM_SEC = (st == 0 && s.flag (PRT_IDE p.toNat k.toNat) PRT_IDE_MEM_SEC)
      ∧ t.net = s.net ∧ t.core = s.core := by
  obtain ⟨hide, hnet, hcore⟩ := ideFailReported_frame s p k (if st = 0 then PRT_IDE_IO_SEC else PRT_IDE_MEM_SEC)
  refine ⟨_, rfl, (flag_of_rd_eq hide _).trans ?_, (flag_of_rd_eq hide _).trans ?_, hnet, hcore⟩
  · obtain rfl | rfl := BitVec.eq_zero_or_eq_one st
    · exact flag_fset_toNat s _ PRT_IDE_IO_SEC false rfl (by decide)
    · exact flag_fset_ne s _ PRT_IDE_MEM_SEC _ _ (by decide) (by decide)
  · obtain rfl | rfl := BitVec.eq_zero_or_eq_one st
    · exact flag_fset_ne s _ PRT_IDE_IO_SEC _ _ (by decide) (by decide)
    · exact flag_fset_toNat s _ PRT_IDE_MEM_SEC false rfl (by decide)

/-! ### The marking level (R127) -/

/-- The last number below m that meets a condition. -/
theorem getLast?_filter_range {c : Nat → Bool} {m n : Nat} (hn : n < m) (hc : c n = true)
    (hlast : ∀ j, n < j → j < m → c j = false) : ((List.range m).filter c).getLast? = some n := by
  induction m with
  | zero => omega
  | succ m ih =>
    rw [List.range_succ, List.filter_append]
    by_cases hm : n = m
    · subst hm
      simp [hc]
    · have hcm : c m = false := hlast m (by omega) (by omega)
      simp only [List.filter_cons, hcm, Bool.false_eq_true, if_false, List.filter_nil, List.append_nil]
      exact ih (by omega) fun j h1 h2 => hlast j h1 (by omega)

section

variable {s : State} {d l b n : Nat}

/-- Up to the highest enabled mark that the depth exceeds. -/
theorem levelNext_up (hl : l < n) (hn : n < 4) (hon : 0 < markOf s d n) (hover : markOf s d n < b)
    (htop : ∀ j, n < j → j < 4 → 0 < markOf s d j → b ≤ markOf s d j) : levelNext s d l b = n := by
  have hup := getLast?_filter_range (c := fun n => decide (l < n) && decide (0 < markOf s d n) && decide (markOf s d n < b))
    hn (by simp [hl, hon, hover]) fun j h1 h2 => by
      have := htop j h1 h2
      simp only [Bool.and_eq_false_iff, decide_eq_false_iff_not]
      omega
  unfold levelNext
  rw [hup]

/-- With no mark above the level exceeded, the level stays or falls. -/
theorem levelNext_notUp (habove : ∀ j, l < j → j < 4 → 0 < markOf s d j → b ≤ markOf s d j) :
    levelNext s d l b =
      if l ≠ 0 ∧ b + 16384 * s.fget (PRT_DLD_CFG (d / 4) (d % 4)) PRT_DLD_CFG_HYS < markOf s d l ∨ l ≠ 0 ∧ markOf s d l = 0
      then (((List.range l).filter fun n => n == 0 || decide (0 < markOf s d n)).getLast?).getD 0 else l := by
  have hnone : (List.range 4).filter (fun n => decide (l < n) && decide (0 < markOf s d n) && decide (markOf s d n < b)) = [] := by
    refine List.filter_eq_nil_iff.mpr fun j hj => ?_
    have hj4 : j < 4 := List.mem_range.mp hj
    have := habove j
    simp only [Bool.and_eq_true, decide_eq_true_eq]
    omega
  unfold levelNext
  rw [hnone]
  rfl

theorem levelNext_stays (habove : ∀ j, l < j → j < 4 → 0 < markOf s d j → b ≤ markOf s d j)
    (hkeep : l = 0 ∨ 0 < markOf s d l ∧ markOf s d l ≤ b + 16384 * s.fget (PRT_DLD_CFG (d / 4) (d % 4)) PRT_DLD_CFG_HYS) :
    levelNext s d l b = l := by
  rw [levelNext_notUp habove, if_neg (by omega)]

/-- Down to the next enabled level below, or to 0 where none is. -/
theorem levelNext_falls (habove : ∀ j, l < j → j < 4 → 0 < markOf s d j → b ≤ markOf s d j) (hn : n < l)
    (hunder : b + 16384 * s.fget (PRT_DLD_CFG (d / 4) (d % 4)) PRT_DLD_CFG_HYS < markOf s d l) (hon : n = 0 ∨ 0 < markOf s d n)
    (hnext : ∀ j, n < j → j < l → ¬ 0 < markOf s d j) : levelNext s d l b = n := by
  have hlast := getLast?_filter_range (c := fun n => n == 0 || decide (0 < markOf s d n)) hn (by simpa using hon)
    fun j h1 h2 => by
      have := hnext j h1 h2
      simp only [Bool.or_eq_false_iff, beq_eq_false_iff_ne, decide_eq_false_iff_not]
      omega
  rw [levelNext_notUp habove, if_pos (Or.inl ⟨by omega, hunder⟩), hlast]
  rfl

end

/-- A sample puts the sub-port's level where its depth says. -/
theorem devloadSample_level (s : State) (p : BitVec 5) (k : BitVec 2) {d : Nat} (hd : subNode p.toNat k.toNat = d) :
    ∃ t, exec (.devloadSample p k) s = .next t ∧ (t.sub d).level = levelNext s d (s.sub d).level (queueDepth s d) := by
  subst hd
  exact ⟨_, rfl, congrArg Sub.level (sub_modSub_same _ _ _)⟩

/-- Settles O28, command by command: flits, their acknowledgement, keys, a failed check, then the marking level. -/
theorem flitsIdeAndDevLoad : Obligations.FlitsIdeAndDevLoad := by
  intro s p k q fec skid nak a n key cred P K d x ide dup b lvl on hys
  have hd : subNode p.toNat k.toNat = d := rfl
  refine ⟨flitReceived_accepts fec cred hd, flitReceived_counts_replay fec cred hd, ?_, ideKeyProgram_noSession hd skid key,
    ideKeyProgram_io hd skid key, ideKeyProgram_mem hd skid key, ideCheckFailed_insecure s p k, ?_⟩
  · obtain ⟨t, hexec, hsub, hcount⟩ := flitAckReceived_frees s hd a nak
    refine ⟨t, hexec, by rw [hsub]; rfl, fun hroom => ?_, by rw [hsub]; rfl, hcount⟩
    rw [hsub] at hroom ⊢
    exact if_pos hroom
  · obtain ⟨t, hexec, hlvl⟩ := devloadSample_level s p k hd
    have hhys : 16384 * s.fget (PRT_DLD_CFG (d / 4) (d % 4)) PRT_DLD_CFG_HYS = hys := by rw [← hd, subNode_div, subNode_mod]
    refine ⟨t, hexec, fun hl hn hon hover htop => hlvl.trans (levelNext_up hl hn hon hover htop), fun habove =>
      ⟨fun hkeep => ?_, fun hn hunder hon hnext => ?_⟩⟩
    · exact hlvl.trans (levelNext_stays habove (hhys ▸ hkeep))
    · exact hlvl.trans (levelNext_falls habove hn (hhys ▸ hunder) hon hnext)

end Sys2Proof.Machine
end


section
/-! PROOFS. The Deep Field (R148-R154) and CORE_CTL (R143, R154, R464): what a change of a queue leaves of the switch core, what
counting the pages leaves, then the commands. -/

namespace Sys2Proof.Machine

open Sys2Proof

/-! ### Lists kept in sparse tables, and the queues of a core -/

@[simp] theorem lget_lset_same {α : Type} (m : SMap (List α)) (k : Nat) (l : List α) : lget (lset m k l) k = l := by
  cases l <;> simp [lset, lget]

theorem lget_lset_ne {α : Type} (m : SMap (List α)) {k j : Nat} (l : List α) (h : j ≠ k) : lget (lset m k l) j = lget m j := by
  cases l
  · simp only [lset, lget, mfind_merase_ne m h]
  · simp only [lset, lget, mfind_minsert_ne m _ h]

@[simp] theorem voq_setVoq_same (c : Core) (k : Nat) (v : Voq) : (c.setVoq k v).voq k = v :=
  mget_mset_same (fun _ => voqReset) _ _ _

@[simp] theorem modCore_core_same (s : State) (h : Half) (f : Core → Core) : (s.modCore h f).core.get h = f (s.core.get h) :=
  pair_get_set_same _ _ _

/-- Changing a VOQ changes that VOQ of its half's core, and no other part of the cores. -/
@[simp] theorem modVoq_core (s : State) (h : Half) (k : Nat) (f : Voq → Voq) :
    (modVoq s h k f).core = s.core.set h ((s.core.get h).setVoq k (f ((s.core.get h).voq k))) := rfl

theorem modVoq_rd (s : State) (h : Half) (k : Nat) (f : Voq → Voq) {a : Nat} (ha : a ≠ CORE_STAT h) :
    (modVoq s h k f).rd a = s.rd a := rd_fset_ne _ _ _ ha

/-! ### Counting in the Photometer leaves the core as it was (R434-R438) -/

theorem countOnly_core {s t : State} (h : countOnly s t) : t.core = s.core := by
  obtain ⟨-, -, hframe, -⟩ := h
  rw [hframe]

@[simp] theorem tally_core (s : State) (h : Half) (u e i k : Nat) : (tally s h u e i k).core = s.core :=
  countOnly_core (tally_countOnly s h u e i k)

@[simp] theorem tallyRise_core (s : State) (h : Half) (u e i : Nat) : (tallyRise s h u e i).core = s.core :=
  countOnly_core (tallyRise_countOnly s h u e i)

/-- A register below the Photometer's block that reporting events leaves as it is. -/
def quietReg (a : Nat) : Prop := refReg a = false ∧ viralBits a = 0 ∧ a < 0x0D000000

theorem countOnly_quietReg {s t : State} (h : countOnly s t) {a : Nat} (ha : quietReg a) : t.rd a = s.rd a := by
  obtain ⟨hr, hv, hlt⟩ := ha
  have hrd := h.1 a hr (Or.inl hlt)
  simpa [hv] using hrd

theorem quietReg_dfStat (h : Half) : quietReg (CORE_DF_STAT h) := by cases h <;> unfold quietReg <;> decide

/-! ### Pages in use (R152) -/

@[simp] theorem dfFullMark_core (s : State) (h : Half) : (dfFullMark s h).core = s.core := by
  unfold dfFullMark
  split <;> simp

theorem dfFullMark_notReady {s : State} {h : Half} (hr : dfReady s h = false) : dfFullMark s h = s := by
  simp [dfFullMark, hr]

theorem dfFullMark_dfStat (s : State) (h : Half) : (dfFullMark s h).rd (CORE_DF_STAT h) = s.rd (CORE_DF_STAT h) := by
  unfold dfFullMark
  split
  · refine (countOnly_quietReg (tallyRise_countOnly _ _ _ _ _) (quietReg_dfStat h)).trans ?_
    exact (rd_fset_ne _ _ _ (by cases h <;> decide)).trans (rd_fset_ne _ _ _ (by cases h <;> decide))
  · rfl

@[simp] theorem dfUse_core (s : State) (h : Half) (n : Nat) : (dfUse s h n).core = s.core := by
  unfold dfUse
  dsimp only
  split <;> split <;> simp

/-- CORE_DF_STAT.USED takes the number of pages in use; PEAK and DF_FULL are other registers'. -/
theorem dfUse_used (s : State) (h : Half) (n : Nat) :
    (dfUse s h n).fget (CORE_DF_STAT h) CORE_DF_STAT_USED = n % 2 ^ CORE_DF_STAT_USED.width := by
  have hpeak : CORE_DF_STAT h ≠ CORE_DF_PEAK h := by cases h <;> decide
  have hstat : CORE_DF_STAT h ≠ CORE_STAT h := by cases h <;> decide
  have hrd : (dfUse s h n).rd (CORE_DF_STAT h) = (s.fset (CORE_DF_STAT h) CORE_DF_STAT_USED n).rd (CORE_DF_STAT h) := by
    unfold dfUse
    dsimp only
    simp only [rd_ite, dfFullMark_dfStat, rd_fset_ne _ _ _ hstat, rd_fset_ne _ _ _ hpeak, ite_self]
  rw [fget_of_rd_eq hrd, fget_fset_same _ _ _ _ (by decide)]

/-- A count of cells leaves the pages in use. -/
theorem tally_used (s : State) (h : Half) (u e i k : Nat) :
    (tally s h u e i k).fget (CORE_DF_STAT h) CORE_DF_STAT_USED = s.fget (CORE_DF_STAT h) CORE_DF_STAT_USED :=
  fget_of_rd_eq (countOnly_quietReg (tally_countOnly s h u e i k) (quietReg_dfStat h)) _

theorem modVoq_dfUsed (s : State) (h : Half) (k : Nat) (f : Voq → Voq) : dfUsed (modVoq s h k f) h = dfUsed s h :=
  fget_of_rd_eq (modVoq_rd s h k f (by cases h <;> decide)) _

/-! ### A cell is written to its page (R148, R150, R152, R157) -/

section

variable {s : State} {h : Half} {st q : Nat} {c : Cell} {r : List (Nat × Cell)}

theorem exec_spillWrite_nil (hw : lget (s.core.get h).writer st = []) : exec (.spillWrite h st) s = .next s := by
  show execSpillWrite h st s = _
  rw [execSpillWrite, hw]

/-- The oldest cell of a station goes to its VOQ's deep segment, `new` with it. -/
def spillWritten (s : State) (h : Half) (st q : Nat) (r : List (Nat × Cell)) (new : List (List Cell)) : State :=
  let t := modVoq (s.modCore h fun x => { x with writer := lset x.writer st r }) h q fun v => { v with deep := new }
  tally (dfUse t h (dfUsed s h + new.length - ((s.core.get h).voq q).deep.length)) h 2 0 0 1

/-- The three answers to a cell that has crossed: no page for it, past its VOQ's limit, or written. -/
theorem exec_spillWrite_cons (hw : lget (s.core.get h).writer st = (q, c) :: r) {V : Voq} (hV : (s.core.get h).voq q = V)
    {new : List (List Cell)} (hnew : (if c.po then deepPushOut V.deep c else deepAppend V.deep c) = new) :
    exec (.spillWrite h st) s =
      .next (if dfReady s h = false ∨ dfPages s h + V.deep.length < dfUsed s h + new.length then dfFullMark s h
        else if voqPageMax s h + V.deep.length < voqPages V + new.length then s
        else spillWritten s h st q r new) := by
  subst hV hnew
  show execSpillWrite h st s = _
  simp only [execSpillWrite, hw, apply_ite Host.Outcome.next]
  rw [modVoq_dfUsed]
  rfl

theorem spillWritten_voq (new : List (List Cell)) :
    ((spillWritten s h st q r new).core.get h).voq q = { (s.core.get h).voq q with deep := new } := by
  simp only [spillWritten, tally_core, dfUse_core, modVoq_core, pair_get_set_same, voq_setVoq_same, modCore_core_same]
  rfl

theorem spillWritten_writer (new : List (List Cell)) : lget ((spillWritten s h st q r new).core.get h).writer st = r := by
  simp only [spillWritten, tally_core, dfUse_core, modVoq_core, pair_get_set_same, Core.setVoq, modCore_core_same, lget_lset_same]

theorem spillWritten_used (new : List (List Cell)) :
    (spillWritten s h st q r new).fget (CORE_DF_STAT h) CORE_DF_STAT_USED
      = (dfUsed s h + new.length - ((s.core.get h).voq q).deep.length) % 2 ^ CORE_DF_STAT_USED.width :=
  (tally_used _ _ _ _ _ _).trans (dfUse_used _ _ _)

end

/-! ### A page returns (R151, R153) -/

section

variable {s : State} {h : Half} {q : Nat} {pg : List Cell} {rest : List (List Cell)}

theorem exec_deepFieldReturn_nil (hr : ((s.core.get h).voq q).ret = []) (e : CellEcc) :
    exec (.deepFieldReturn h q e) s = .next s := by
  show execDeepFieldReturn h q e s = _
  rw [execDeepFieldReturn, hr]

/-- The oldest page in flight of a VOQ has landed. -/
def pageLanded (s : State) (h : Half) (q : Nat) (pg : List Cell) (rest : List (List Cell)) : State :=
  let t := modVoq s h q fun v => { v with chip := v.chip ++ pg, ret := rest }
  tally (dfUse t h (dfUsed s h - 1)) h 2 1 0 pg.length

theorem exec_deepFieldReturn_lands (hr : ((s.core.get h).voq q).ret = pg :: rest) (hready : dfReady s h = true) :
    exec (.deepFieldReturn h q .clean) s = .next (unspill (pageLanded s h q pg rest) h q) := by
  show execDeepFieldReturn h q .clean s = _
  simp only [execDeepFieldReturn, hr, hready, Bool.true_eq_false, if_false, eccReturn, modVoq_dfUsed]
  rfl

theorem pageLanded_voq (pg : List Cell) (rest : List (List Cell)) : ((pageLanded s h q pg rest).core.get h).voq q
    = { (s.core.get h).voq q with chip := ((s.core.get h).voq q).chip ++ pg, ret := rest } := by
  simp only [pageLanded, tally_core, dfUse_core, modVoq_core, pair_get_set_same, voq_setVoq_same]

theorem pageLanded_used (pg : List Cell) (rest : List (List Cell)) :
    (pageLanded s h q pg rest).fget (CORE_DF_STAT h) CORE_DF_STAT_USED = (dfUsed s h - 1) % 2 ^ CORE_DF_STAT_USED.width :=
  (tally_used _ _ _ _ _ _).trans (dfUse_used _ _ _)

/-- A VOQ that stops being spilled keeps its segments. -/
theorem unspill_voq (s : State) (h : Half) (q : Nat) :
    ∃ b, ((unspill s h q).core.get h).voq q = { (s.core.get h).voq q with spilled := b } := by
  unfold unspill
  dsimp only
  split
  · exact ⟨false, by simp only [modVoq_core, pair_get_set_same, voq_setVoq_same]⟩
  · exact ⟨_, rfl⟩

theorem unspill_used (s : State) (h : Half) (q : Nat) : dfUsed (unspill s h q) h = dfUsed s h := by
  unfold unspill
  dsimp only
  split
  · exact modVoq_dfUsed _ _ _ _
  · rfl

end

/-! ### CORE_CTL (R143, R153, R154, R464) -/

section

variable {s : State} {m : Master} {h : Half} (hm : mayAct s m (CORE_CTL h))

include hm

theorem exec_coreLockSet_sets : exec (.coreLockSet m h) s = .next (s.fset (CORE_CTL h) CORE_CTL_LOCK 1) := by
  show execCoreLockSet m h s = _
  rw [execCoreLockSet, csGate_mayAct s m _ _ hm]

theorem exec_dfEnable_sets (hf : finderOnly s = false) :
    exec (.dfEnable m h) s = .next (dfReadyNow (s.fset (CORE_CTL h) CORE_CTL_DF_EN 1) h) := by
  show execDfEnable m h s = _
  rw [execDfEnable, csGate_mayAct s m _ _ hm, dfEnable, finderGate, if_neg (Bool.eq_false_iff.mp hf)]

theorem exec_dfEnable_finder (hf : finderOnly s = true) : exec (.dfEnable m h) s = .next (writeDiscarded s h (CORE_CTL h)) := by
  show execDfEnable m h s = _
  rw [execDfEnable, csGate_mayAct s m _ _ hm, dfEnable, finderGate, if_pos hf]

end

theorem dfReadyNow_onlyRegs (s : State) (h : Half) : onlyRegs [CORE_STAT h] s (dfReadyNow s h) := onlyRegs_wr _ _ _

theorem dfReadyNow_ready (s : State) (h : Half) : (dfReadyNow s h).flag (CORE_STAT h) CORE_STAT_DF_READY
    = (s.flag (CORE_CTL h) CORE_CTL_DF_EN && !s.flag (QOS_ROT_STAT h) QOS_ROT_STAT_RESTART && !rotFenced s h 0) :=
  flag_fset_toNat s _ _ _ rfl (by decide)

/-- What DF_EN's write makes of DF_READY: the Rotation's status is another register. -/
theorem dfEnable_ready (s : State) (h : Half) :
    (dfReadyNow (s.fset (CORE_CTL h) CORE_CTL_DF_EN 1) h).flag (CORE_STAT h) CORE_STAT_DF_READY
      = (!s.flag (QOS_ROT_STAT h) QOS_ROT_STAT_RESTART && !rotFenced s h 0) := by
  have hrot : QOS_ROT_STAT h ≠ CORE_CTL h := by cases h <;> decide
  have hfence : rotFenced (s.fset (CORE_CTL h) CORE_CTL_DF_EN 1) h 0 = rotFenced s h 0 :=
    congrArg (bitB · 0) (fget_fset_at_ne s _ _ _ hrot)
  have hen : (s.fset (CORE_CTL h) CORE_CTL_DF_EN 1).flag (CORE_CTL h) CORE_CTL_DF_EN = true :=
    flag_fset_toNat s _ _ true rfl (by decide)
  rw [dfReadyNow_ready, hen, flag_fset_at_ne _ _ _ _ hrot, hfence, Bool.true_and]

theorem writeDiscarded_core (s : State) (h : Half) (a : Nat) : (writeDiscarded s h a).core = s.core :=
  countOnly_core (refOnly_countOnly (writeDiscarded_refOnly s h a))

/-- Settles O30, command by command: a cell is written, a page returns, then CORE_CTL. -/
theorem deepFieldAndCoreControl : Obligations.DeepFieldAndCoreControl := by
  intro s m h st q c r pg rest C V a used new room within
  have hpage : dfReady s h = true → room →
      ¬ (dfReady s h = false ∨ dfPages s h + V.deep.length < dfUsed s h + new.length) := by
    intro hready hroom
    rw [hready]
    simpa using hroom
  refine ⟨fun hw hready hroom hin => ?_, ?_, fun hw hready hroom hout => ?_, fun hw hready hfull => ?_, fun hret hready => ?_,
    fun hret => exec_deepFieldReturn_nil hret _, fun hm => ?_, fun hm hf => ?_, fun hm hf => ?_⟩
  · refine ⟨_, exec_spillWrite_cons hw rfl rfl, ?_⟩
    rw [if_neg (hpage hready hroom), if_neg (Nat.not_lt.mpr hin), spillWritten_voq]
    exact ⟨spillWritten_writer _, rfl, rfl, spillWritten_used _⟩
  · rintro (hw | hready)
    · exact exec_spillWrite_nil hw
    · cases hw : lget C.writer st with
      | nil => exact exec_spillWrite_nil hw
      | cons e r => rw [exec_spillWrite_cons hw rfl rfl, if_pos (Or.inl hready), dfFullMark_notReady hready]
  · rw [exec_spillWrite_cons hw rfl rfl, if_neg (hpage hready hroom), if_pos (Nat.not_le.mp hout)]
  · refine ⟨_, exec_spillWrite_cons hw rfl rfl, ?_⟩
    rw [if_pos (Or.inr (Nat.not_le.mp hfull)), dfFullMark_core]
  · refine ⟨_, exec_deepFieldReturn_lands hret hready, ?_⟩
    obtain ⟨b, hb⟩ := unspill_voq (pageLanded s h q pg rest) h q
    rw [hb, pageLanded_voq]
    exact ⟨rfl, rfl, rfl, (unspill_used _ _ _).trans (pageLanded_used _ _)⟩
  · exact ⟨_, exec_coreLockSet_sets hm, onlyField_fset _ _ _ _ (by decide)⟩
  · refine ⟨_, exec_dfEnable_sets hm hf, onlyRegs_trans (onlyRegs_wr _ _ _) (dfReadyNow_onlyRegs _ _), ?_, dfEnable_ready s h⟩
    exact (flag_fset_at_ne _ _ _ _ (by cases h <;> decide)).trans (flag_fset_toNat s _ _ true rfl (by decide))
  · have href := writeDiscarded_refOnly s h (CORE_CTL h)
    exact ⟨_, exec_dfEnable_finder hm hf, refOnly_rd href (by cases h <;> decide) (by cases h <;> decide),
      writeDiscarded_core _ _ _⟩

end Sys2Proof.Machine
end

section
/-! PROOFS. Admission to the Court buffer (R133, R141, R142): what counting an arrival leaves of all that admission asks, then a
cell that joins its queue and one that is held. -/

namespace Sys2Proof.Machine

open Sys2Proof

/-! ### Recording an event, as elementary steps (R409, R410, R418-R422) -/

/-- What recording an event does, one thing at a time: a register is written, ALERT_L or EVQ_HI_L changes, the next handler list
takes or rewrites a record, the Referee's list of recent records changes. -/
inductive RecStep (s : State) : State → Prop
  | reg (a : Nat) (v : Word) : RecStep s (s.wr a v)
  | alert (x : Alert) : RecStep s { s with alert := x }
  | arrivals (h : Half) (f : List Evt → List Evt) : RecStep s (s.modTrp h fun t => { t with arrivals := f t.arrivals })
  | recent (h : Half) (f : List Evt → List Evt) : RecStep s (s.modRef h fun x => { x with recent := f x.recent })

abbrev recSteps : State → State → Prop := Relation.ReflTransGen RecStep

theorem recSteps_reg (s : State) (a : Nat) (v : Word) : recSteps s (s.wr a v) := .single (.reg a v)

theorem recSteps_fset (s : State) (a : Nat) (f : Fld) (n : Nat) : recSteps s (s.fset a f n) := recSteps_reg _ _ _

theorem recSteps_wrWords (s : State) (a : Nat) (ws : List Word) : recSteps s (s.wrWords a ws) := by
  induction ws generalizing s a with
  | nil => exact .refl
  | cons w r ih => exact (recSteps_reg s a w).trans (ih _ _)

theorem recSteps_ite {s a b : State} (c : Prop) [Decidable c] (ha : recSteps s a) (hb : recSteps s b) :
    recSteps s (if c then a else b) := by split <;> assumption

theorem recSteps_ite_fst {β : Type} {s : State} {p q : State × β} (c : Prop) [Decidable c] (hp : recSteps s p.1)
    (hq : recSteps s q.1) : recSteps s (if c then p else q).1 := by split <;> assumption

/-- Steps that are taken under a condition, after others. -/
theorem recSteps_when {s a b : State} (c : Prop) [Decidable c] (ha : recSteps s a) (hb : recSteps a b) :
    recSteps s (if c then b else a) := recSteps_ite c (ha.trans hb) ha

theorem recSteps_unless {s a b : State} (c : Prop) [Decidable c] (ha : recSteps s a) (hb : recSteps a b) :
    recSteps s (if c then a else b) := recSteps_ite c ha (ha.trans hb)

theorem recSteps_when_fst {β : Type} {s a : State} {p : State × β} {x : β} (c : Prop) [Decidable c] (ha : recSteps s a)
    (hp : recSteps a p.1) : recSteps s (if c then p else (a, x)).1 := recSteps_ite_fst c (ha.trans hp) ha

theorem evqLevel_recSteps (s : State) (h : Half) : recSteps s (evqLevel s h) := by
  have h0 := recSteps_fset s (REF_STAT h) REF_STAT_EVQ_HI (evqAtHigh s h).toNat
  unfold evqLevel
  dsimp only
  exact recSteps_ite _ (h0.tail (.alert _)) (recSteps_ite _ (h0.tail (.alert _)) h0)

theorem evqPush_recSteps (s : State) (h : Half) (ws : List Word) : recSteps s (evqPush s h ws) :=
  (recSteps_wrWords _ _ _).trans ((recSteps_fset _ _ _ _).trans (evqLevel_recSteps _ _))

theorem evqRecord_recSteps (s : State) (h : Half) (e : Evt) : recSteps s (evqRecord s h e).1 := by
  have h0 : recSteps s (s.fbump (REF_ERRCNT1 h) REF_ERRCNT1_EVQ_DROP_CNT 1) := recSteps_fset _ _ _ _
  unfold evqRecord
  dsimp only
  exact recSteps_ite_fst _ (evqPush_recSteps _ _ _) (recSteps_ite_fst _ (h0.tail (.reg _ _)) (h0.trans (evqPush_recSteps _ _ _)))

theorem sbRecord_recSteps (s : State) (h : Half) (e : Evt) : recSteps s (sbRecord s h e).1 := by
  have h0 := recSteps_wrWords s (REF_SB h (s.fget (REF_SB_PTR h) REF_SB_PTR_NEXT) 0) (recWords e)
  unfold sbRecord
  dsimp only
  exact recSteps_ite_fst _ .refl ((recSteps_ite _ (h0.trans (recSteps_fset _ _ _ _)) h0).trans (recSteps_fset _ _ _ _))

theorem alertRequest_recSteps (s : State) : recSteps s (alertRequest s) := by
  have h0 := fun x => Relation.ReflTransGen.single (RecStep.alert (s := s) x)
  unfold alertRequest
  dsimp only
  exact recSteps_ite _ (recSteps_ite _ ((h0 _).trans (recSteps_fset _ _ _ _)) (h0 _)) ((h0 _).trans (recSteps_fset _ _ _ _))

theorem updateCopies_recSteps (s : State) (h : Half) (e : Evt) : recSteps s (updateCopies s h e) := by
  have hsb : recSteps s (sbCopy s h e) := by
    unfold sbCopy
    split
    · exact recSteps_ite _ (recSteps_wrWords _ _ _) .refl
    · exact .refl
  have hevq : recSteps (sbCopy s h e) (evqCopy (sbCopy s h e) h e) := by
    unfold evqCopy
    split
    · exact recSteps_ite _ (recSteps_wrWords _ _ _) .refl
    · exact .refl
  exact (hsb.trans hevq).tail (.arrivals h _)

theorem putRecord_recSteps (s : State) (h : Half) (e : Evt) : recSteps s (putRecord s h e) := by
  unfold putRecord
  cases e.sbSlot <;> cases e.evqIdx
  · exact .refl
  · exact recSteps_wrWords _ _ _
  · exact recSteps_wrWords _ _ _
  · exact (recSteps_wrWords _ _ _).trans (recSteps_wrWords _ _ _)

theorem inOrder_recSteps (s : State) (h : Half) (e : Evt) (l : List Evt) : recSteps s (inOrder s h e l).1 := by
  induction l generalizing s e with
  | nil => exact .refl
  | cons x l ih =>
    have htrade : recSteps s (tradePlaces s h e x) :=
      ((putRecord_recSteps _ _ _).trans (putRecord_recSteps _ _ _)).tail (.arrivals h _)
    simp only [inOrder]
    split
    · exact htrade.trans (ih _ _)
    · exact .refl

theorem newRecord_recSteps (s : State) (h : Half) (sp : EvSpec) (sev : Nat) : recSteps s (newRecord s h sp sev) := by
  have hseq : ∀ n, recSteps s (s.fset (REF_SEQ h) REF_SEQ_SEQ n) := fun n => recSteps_fset _ _ _ n
  unfold newRecord
  dsimp only
  refine (Relation.ReflTransGen.trans (recSteps_unless _ ?_ (.single (.arrivals h fun l => l ++ _)))
    (inOrder_recSteps _ h _ _)).tail (.recent h fun _ => _)
  refine recSteps_when _ (recSteps_when_fst _ (recSteps_when_fst _ ?_ (sbRecord_recSteps _ _ _))
    (evqRecord_recSteps _ _ _)) (alertRequest_recSteps _)
  exact recSteps_when _ (hseq _) (recSteps_fset _ _ _ _)

theorem record_recSteps (s : State) (h : Half) (sp : EvSpec) (sev : Nat) : recSteps s (record s h sp sev) := by
  unfold record
  split
  · exact (Relation.ReflTransGen.single (.recent h fun l => l.map _)).trans (updateCopies_recSteps _ _ _)
  · exact newRecord_recSteps _ _ _ _

/-- Reporting an event of no unit that is not FATAL_DEVICE is recording it, or nothing. -/
theorem raise_evt_recSteps (s : State) (h : Half) {cls cause : Nat} (inst detail : Nat) (hsev : sevOf cls cause ≠ 5) :
    recSteps s (raise s h (evt cls cause inst detail)) := by
  have hlive : raiseLive s h (evt cls cause inst detail) (sevOf cls cause)
      = record s h (evt cls cause inst detail) (sevOf cls cause) := by
    unfold raiseLive
    rw [if_neg hsev]
    rfl
  exact recSteps_ite _ (hlive ▸ record_recSteps s h _ _) .refl

theorem recSteps_wr64 (s : State) (a v : Nat) : recSteps s (s.wr64 a v) := (recSteps_reg _ _ _).tail (.reg _ _)

theorem phmAdd_recSteps (s : State) (h : Half) (c k : Nat) : recSteps s (phmAdd s h c k) := by
  unfold phmAdd
  dsimp only
  have hwrap := fun a v b w => (recSteps_wr64 s a v).tail (.reg b w)
  exact recSteps_ite _ (recSteps_wr64 _ _ _) (recSteps_when _ (hwrap _ _ _ _) (raise_evt_recSteps _ _ _ _ (by decide)))

theorem tally_recSteps (s : State) (h : Half) (u e i k : Nat) : recSteps s (tally s h u e i k) := by
  unfold tally
  generalize (s.phm.get h).sel = l
  generalize (s.phm.get h).grp = grp
  induction l generalizing s with
  | nil => exact .refl
  | cons x r ih => exact (recSteps_ite _ (recSteps_ite _ .refl (phmAdd_recSteps _ _ _ _)) .refl).trans (ih _)

/-! ### The banks that a Referee has lost -/

/-- The banks that the Referees have lost are the same. -/
def banksKept (s t : State) : Prop := ∀ g, (t.ref.get g).banksLost = (s.ref.get g).banksLost

theorem banksKept_trans {s t u : State} (h1 : banksKept s t) (h2 : banksKept t u) : banksKept s u := fun g =>
  (h2 g).trans (h1 g)

theorem recStep_banksKept {s t : State} (h : RecStep s t) : banksKept s t := by
  cases h with
  | reg a v => exact fun _ => rfl
  | alert x => exact fun _ => rfl
  | arrivals h f => exact fun _ => rfl
  | recent h f => exact fun g => by cases h <;> cases g <;> rfl

theorem recSteps_banksKept {s t : State} (h : recSteps s t) : banksKept s t := by
  induction h with
  | refl => exact fun _ => rfl
  | tail _ hstep ih => exact banksKept_trans ih (recStep_banksKept hstep)


/-! ### An arrival is counted (R436, R446) -/

theorem countOnly_net {s t : State} (h : countOnly s t) : t.net = s.net := by
  obtain ⟨-, -, hframe, -⟩ := h
  rw [hframe]

theorem countOnly_cat {s t : State} (h : countOnly s t) : t.cat = s.cat := by
  obtain ⟨-, -, hframe, -⟩ := h
  rw [hframe]

/-- What admission asks beside the queues of half h: the messages, the Catalogue, CORE_POOL, CORE_ALPHA and the lost banks. -/
def asksSame (h : Half) (s t : State) : Prop :=
  t.net = s.net ∧ t.cat = s.cat ∧ t.rd (CORE_POOL h) = s.rd (CORE_POOL h) ∧ t.rd (CORE_ALPHA h) = s.rd (CORE_ALPHA h)
    ∧ banksKept s t

/-- The next formed cell of a station is taken and counted. -/
def taken (s : State) (h : Half) (st : Nat) (r : List (Nat × Cell)) (c : Cell) : State :=
  countIn (s.modCore h fun x => { x with formed := lset x.formed st r }) h st c

theorem countIn_core (s : State) (h : Half) (st : Nat) (c : Cell) : (countIn s h st c).core = s.core := by
  unfold countIn
  dsimp only
  split <;> simp

theorem tally_asksSame (s : State) (h g : Half) (u e i k : Nat) : asksSame g s (tally s h u e i k) := by
  have hcount := tally_countOnly s h u e i k
  refine ⟨countOnly_net hcount, countOnly_cat hcount, countOnly_quietReg hcount ?_, countOnly_quietReg hcount ?_,
    recSteps_banksKept (tally_recSteps s h u e i k)⟩ <;>
  cases g <;> unfold quietReg <;> decide

theorem countIn_asksSame (s : State) (h g : Half) (st : Nat) (c : Cell) : asksSame g s (countIn s h st c) := by
  have htally := tally_asksSame s h g 1 0 st 1
  unfold countIn
  dsimp only
  split
  · exact htally
  · exact htally

theorem taken_core (s : State) (h : Half) (st : Nat) (r : List (Nat × Cell)) (c : Cell) :
    (taken s h st r c).core.get h = { s.core.get h with formed := lset (s.core.get h).formed st r } := by
  rw [taken, countIn_core, modCore_core_same]

theorem taken_asksSame (s : State) (h : Half) (st : Nat) (r : List (Nat × Cell)) (c : Cell) : asksSame h s (taken s h st r c) :=
  countIn_asksSame _ _ _ _ _

/-! ### What admission asks of the state (R141) -/

section

variable {s t : State} {h : Half} (hasks : asksSame h s t)

include hasks

theorem cellYellow_congr (c : Cell) : cellYellow t c = cellYellow s c := by
  obtain ⟨hnet, -⟩ := hasks
  simp only [cellYellow, State.msg, hnet]

theorem cellMc_congr (c : Cell) : cellMc t c = cellMc s c := by
  obtain ⟨hnet, -⟩ := hasks
  simp only [cellMc, State.msg, hnet]

theorem catFull_congr (c : Cell) : catFull t c = catFull s c := by
  obtain ⟨hnet, hcat, -⟩ := hasks
  simp only [catFull, catRoom, State.msg, hnet, hcat]

theorem classHeld_congr (hheld : (t.core.get h).held = (s.core.get h).held) (st k : Nat) (c : Cell) :
    classHeld t h st k c = classHeld s h st k c := by
  obtain ⟨hnet, -⟩ := hasks
  simp only [classHeld, behindHeld, cellSrc, State.msg, hnet, hheld]

/-- A pool that takes a cell takes it whatever cells are formed. -/
theorem plainPool_congr {F : SMap (List (Nat × Cell))} (hcore : t.core.get h = { s.core.get h with formed := F }) (k : Nat)
    (ds : List Nat) (y : Bool) : plainPool t h k ds y = plainPool s h k ds y := by
  obtain ⟨hnet, -, hpool, halpha, hbanks⟩ := hasks
  have hused : ∀ p, poolUsed (t.core.get h) p = poolUsed (s.core.get h) p := fun p => by rw [hcore]; rfl
  have hshared : ∀ d, sharedUsed t h d = sharedUsed s h d := fun d => by
    simp only [sharedUsed, cellDests, State.msg, hnet, hcore]
    rfl
  have hsizes : protSize t h = protSize s h ∧ guarSize t h = guarSize s h ∧ sharedSize t h = sharedSize s h := by
    simp only [protSize, guarSize, sharedSize, State.fget, hpool, hbanks h, and_self]
  have halpha8 : ∀ b, alpha8 t h b = alpha8 s h b := fun b => by simp only [alpha8, State.fget, halpha]
  obtain ⟨hprot, hguar, hfree⟩ := hsizes
  simp only [plainPool, hprot, hguar, hfree, halpha8, hused, hshared]

end

/-! ### A cell joins its queue (R133, R141) -/

/-- A pool takes a cell of a unicast queue that is not spilled. -/
def poolTakes (s : State) (h : Half) (q : Nat) (c : Cell) (pl : Pool) : Prop :=
  cellMc s c = false ∧ catFull s c = false ∧ ((s.core.get h).voq q).spilled = false
    ∧ plainPool s h q [keyDest q] (cellYellow s c) = some pl

theorem admitAny_poolTakes {s : State} {h : Half} {q : Nat} {c : Cell} {pl : Pool} (hp : poolTakes s h q c pl) :
    admitAny s h q c = some (chipPush s h q c pl) := by
  obtain ⟨hmc, hcat, hspilled, hpool⟩ := hp
  simp only [admitAny, admitCell, hmc, hcat, hspilled, hpool, Bool.false_eq_true, if_false]

theorem taken_poolTakes {s : State} {h : Half} {q : Nat} {c : Cell} {pl : Pool} (hp : poolTakes s h q c pl) (st : Nat)
    (r : List (Nat × Cell)) : poolTakes (taken s h st r c) h q c pl := by
  obtain ⟨hmc, hcat, hspilled, hpool⟩ := hp
  have hasks := taken_asksSame s h st r c
  have hcore := taken_core s h st r c
  exact ⟨(cellMc_congr hasks c).trans hmc, (catFull_congr hasks c).trans hcat, by rw [hcore]; exact hspilled,
    by rw [cellYellow_congr hasks, plainPool_congr hasks hcore, hpool]⟩

theorem chipPush_core (s : State) (h : Half) (k : Nat) (c : Cell) (p : Pool) : (chipPush s h k c p).core.get h
    = (s.core.get h).setVoq k { (s.core.get h).voq k with chip := ((s.core.get h).voq k).chip ++ [{ c with pool := p }] } := by
  rw [chipPush, modVoq_core, pair_get_set_same]

@[simp] theorem creditCell_core (s : State) (st : Nat) (c : Cell) : (creditCell s st c).core = s.core := by
  unfold creditCell
  split
  · refine foldl_keeps State.core (fun s m _ => ?_) s
    split <;> rfl
  · rfl

@[simp] theorem xoffStat_core (s : State) (h : Half) : (xoffStat s h).core = s.core := by
  unfold xoffStat
  dsimp only
  split <;> rfl

@[simp] theorem holdStat_core (s : State) (h : Half) : (holdStat s h).core = s.core := rfl

/-! ### A cell is held (R142) -/

theorem holdCell_core (s : State) (h : Half) (st k : Nat) (c : Cell) : (holdCell s h st k c).core.get h
    = { s.core.get h with held := lset (s.core.get h).held st (lget (s.core.get h).held st ++ [(k, c)]) } := by
  unfold holdCell
  dsimp only
  rw [dfFullMark_core, holdStat_core]
  split <;> simp

/-! ### The two commands -/

/-- Taking the cell off the formed ones and counting it frees no held cell before it. -/
theorem taken_classHeld (s : State) (h : Half) (st q : Nat) (r : List (Nat × Cell)) (c : Cell) :
    classHeld (taken s h st r c) h st q c = classHeld s h st q c :=
  classHeld_congr (taken_asksSame s h st r c) (by rw [taken_core]) _ _ _

section

variable {s : State} {h : Half} {st q : Nat} {c : Cell} {r : List (Nat × Cell)}
  (hformed : lget (s.core.get h).formed st = (q, c) :: r) (hlive : cellDead s h c = [])

include hformed

theorem cellArrive_joins {pl : Pool} (hfree : classHeld s h st q c = false) (hp : poolTakes s h q c pl) :
    cellArrive s h st = creditCell (chipPush (taken s h st r c) h q c pl) st c := by
  have hfree' : ¬ classHeld (taken s h st r c) h st q c = true := by rw [taken_classHeld s h st q r c, hfree]; decide
  have hadmit := admitAny_poolTakes (taken_poolTakes hp st r)
  unfold taken at hfree' hadmit
  simp only [cellArrive, hformed, if_neg hfree', hadmit, taken]

theorem cellArrive_holds (hheld : classHeld s h st q c = true) :
    cellArrive s h st = holdCell (taken s h st r c) h st q c := by
  have hheld' := (taken_classHeld s h st q r c).trans hheld
  unfold taken at hheld'
  simp only [cellArrive, hformed, if_pos hheld', taken]

include hlive

theorem exec_cellArrival_live : exec (.cellArrival h st) s = .next (xoffStat (cellArrive s h st) h) := by
  show execCellArrival h st s = _
  simp only [execCellArrival, hformed, hlive]

theorem exec_cellArrival_joins {pl : Pool} (hfree : classHeld s h st q c = false) (hp : poolTakes s h q c pl) :
    exec (.cellArrival h st) s = .next (xoffStat (creditCell (chipPush (taken s h st r c) h q c pl) st c) h) := by
  rw [exec_cellArrival_live hformed hlive, cellArrive_joins hformed hfree hp]

theorem exec_cellArrival_holds (hheld : classHeld s h st q c = true) :
    exec (.cellArrival h st) s = .next (xoffStat (holdCell (taken s h st r c) h st q c) h) := by
  rw [exec_cellArrival_live hformed hlive, cellArrive_holds hformed hheld]

end

/-- The oldest held cell of a station, if a pool now takes it, is the one admitted. -/
theorem exec_heldCellAdmit_first {s : State} {h : Half} {st q : Nat} {c : Cell} {rest : List (Nat × Cell)} {pl : Pool}
    (hheld : lget (s.core.get h).held st = (q, c) :: rest) (hp : poolTakes s h q c pl) :
    exec (.heldCellAdmit h st (keyCls q)) s = .next (xoffStat (creditCell (holdStat ((chipPush s h q c pl).modCore h fun x =>
      { x with held := lset x.held st ((lget x.held st).erase (q, c)) }) h) st c) h) := by
  have htry : heldTry s h st (keyCls q) [] ((q, c) :: rest) = some ((q, c), chipPush s h q c pl) := by
    simp only [heldTry, behindHeld, List.any_nil, and_self, if_true, admitAny_poolTakes hp]
  show execHeldCellAdmit h st (keyCls q) s = _
  rw [execHeldCellAdmit, heldAdmit, hheld, htry]

end Sys2Proof.Machine
end

section
/-! PROOFS. A lone head message crosses (R133, R144-R147): one VOQ asks, the matcher's three iterations accept it alone, and what is
read and served after it changes nothing of what has crossed. -/

namespace Sys2Proof.Machine

open Sys2Proof

/-! ### The matcher with one request (R146) -/

theorem flatMap_range_single {α : Type} {f : Nat → List α} {k n : Nat} {l : List α} (hk : k < n) (hf : f k = l)
    (hne : ∀ o, o ≠ k → f o = []) : (List.range n).flatMap f = l := by
  induction n with
  | zero => omega
  | succ n ih =>
    rw [List.range_succ, List.flatMap_append, List.flatMap_singleton]
    by_cases h : k = n
    · have hnone : (List.range n).flatMap f = [] := List.flatMap_eq_nil_iff.mpr fun o ho => hne o (by
        have := List.mem_range.mp ho
        omega)
      rw [hnone, ← h, hf, List.nil_append]
    · rw [ih (by omega), hne n (by omega), List.append_nil]

theorem filterMap_range_single {α : Type} {f : Nat → Option α} {k n : Nat} {a : α} (hk : k < n) (hf : f k = some a)
    (hne : ∀ o, o ≠ k → f o = none) : (List.range n).filterMap f = [a] := by
  rw [List.filterMap_eq_flatMap_toList]
  exact flatMap_range_single hk (by rw [hf]; rfl) fun o ho => by rw [hne o ho]; rfl

/-- A request alone is granted and accepted. -/
theorem vIter_single (c : Core) (m : Nat) {r : VReq} (hin : r.inp < 32) (hout : r.out < 32) (hk : r.kind = .uni) :
    vIter c m [r] [] = [r] := by
  have hopen : ([r].filter fun r => (([] : List VReq).all fun x => x.inp ≠ r.inp)
      ∧ (([] : List VReq).all fun x => x.out ≠ r.out)) = [r] := by simp
  have hgrants : ((List.range 32).filterMap fun o =>
      bestReq (nget c.grantPtr (ptrKey m o)) VReq.inp ([r].filter fun r => r.out = o)) = [r] :=
    filterMap_range_single hout (by simp [bestReq]) fun o ho => by simp [bestReq, Ne.symm ho]
  unfold vIter
  dsimp only
  rw [hopen, hgrants]
  exact flatMap_range_single hin (by simp [bestReq, hk]) fun i hi => by simp [bestReq, Ne.symm hi]

/-- A matched pair of stations takes no more requests. -/
theorem vIter_matched (c : Core) (m : Nat) {r : VReq} {done : List VReq} (hr : r ∈ done) : vIter c m [r] done = [] := by
  have hopen : ([r].filter fun r => (done.all fun x => x.inp ≠ r.inp) ∧ (done.all fun x => x.out ≠ r.out)) = [] := by
    refine List.filter_eq_nil_iff.mpr fun x hx hall => ?_
    obtain rfl := List.mem_singleton.mp hx
    simp only [decide_eq_true_eq, List.all_eq_true] at hall
    exact hall.1 x hr rfl
  unfold vIter
  dsimp only
  rw [hopen]
  simp [bestReq]

/-! ### What a destination asks of the state (R145) -/

/-- Nothing that a destination's readiness depends on differs: only sub-ports and cores, and of these neither credits, rates, egress
buffers, units' inputs nor the posted counts. -/
def readySame (s t : State) : Prop :=
  t = { s with subs := t.subs, core := t.core }
    ∧ (∀ n, (t.sub n).txCred = (s.sub n).txCred ∧ (t.sub n).rateTo = (s.sub n).rateTo)
    ∧ ∀ g, (t.core.get g).egr = (s.core.get g).egr ∧ (t.core.get g).inbox = (s.core.get g).inbox
      ∧ (t.core.get g).sentPosted = (s.core.get g).sentPosted

theorem readySame_refl (s : State) : readySame s s := ⟨rfl, fun _ => ⟨rfl, rfl⟩, fun _ => ⟨rfl, rfl, rfl⟩⟩

theorem readySame_trans {s t u : State} (h1 : readySame s t) (h2 : readySame t u) : readySame s u := by
  obtain ⟨e1, a1, b1⟩ := h1
  obtain ⟨e2, a2, b2⟩ := h2
  refine ⟨by rw [e2, e1], fun n => ⟨(a2 n).1.trans (a1 n).1, (a2 n).2.trans (a1 n).2⟩, fun g => ?_⟩
  obtain ⟨x1, y1, z1⟩ := b1 g
  obtain ⟨x2, y2, z2⟩ := b2 g
  exact ⟨x2.trans x1, y2.trans y1, z2.trans z1⟩

section

variable {s t : State} (hsame : readySame s t)

include hsame

theorem tagReady_congr (n k : Nat) (m : Msg) : tagReady t n k m = tagReady s n k m := by
  obtain ⟨hframe, -, hcore⟩ := hsame
  have hpend : tagPend t = tagPend s := funext fun d => by
    obtain ⟨hegr, -, -⟩ := hcore (nodeHalf d)
    have hnet : t.net = s.net := by rw [hframe]
    simp only [tagPend, State.msg, hegr, hnet]
  have hused : tagsUsed t = tagsUsed s := by rw [hframe]; rfl
  have hallowed : tagAllowed t = tagAllowed s := by rw [hframe]; rfl
  have htags : t.net.tags = s.net.tags := by rw [hframe]
  have hsubs : subsOf t = subsOf s := by rw [hframe]; rfl
  simp only [tagReady, tagGrant, hpend, hused, hallowed, htags, hsubs]

theorem stampMet_congr (m : Msg) : stampMet t m = stampMet s m := by
  obtain ⟨-, -, hcore⟩ := hsame
  obtain ⟨-, -, hposted⟩ := hcore (nodeHalf m.dst)
  have hsent : postedSent t m = postedSent s m := by simp only [postedSent, hposted]
  unfold stampMet
  rw [hsent]

theorem egrUsed_congr (h : Half) (d cls : Nat) : egrUsed t h d cls = egrUsed s h d cls := by
  obtain ⟨hframe, -, hcore⟩ := hsame
  obtain ⟨hegr, hinbox, -⟩ := hcore h
  have hmsg : t.msg = s.msg := by rw [hframe]; rfl
  have hgrp : bgrp t = bgrp s := by rw [hframe]; rfl
  have hcls : cellCls t = cellCls s := by rw [hframe]; rfl
  simp only [egrUsed, hegr, hinbox, hmsg, hgrp, hcls]

theorem portReady_congr (h : Half) (d k : Nat) (m : Msg) : portReady t h d k m = portReady s h d k m := by
  have htag := tagReady_congr hsame (destNode h d) k m
  have hstamp := stampMet_congr hsame m
  obtain ⟨hframe, hsub, -⟩ := hsame
  have hup : linkUp t = linkUp s := by rw [hframe]; rfl
  have hide : ideOpen t = ideOpen s := by rw [hframe]; rfl
  have hack : ackReady t = ackReady s := by rw [hframe]; rfl
  have hshaper : shaperOpen t = shaperOpen s := by rw [hframe]; rfl
  have hgate : gateOpen t = gateOpen s := by rw [hframe]; rfl
  simp only [portReady, htag, hstamp, hup, hide, hack, hshaper, hgate, (hsub (destNode h d)).2]

theorem bridgeReady_congr (h : Half) (k : Nat) (m : Msg) : bridgeReady t h k m = bridgeReady s h k m := by
  have hstamp := stampMet_congr hsame m
  obtain ⟨hframe, -⟩ := hsame
  have hcarries : bridgeCarries t = bridgeCarries s := by rw [hframe]; rfl
  have hcdb : t.cdb = s.cdb := by rw [hframe]
  simp only [bridgeReady, hstamp, hcarries, hcdb]

theorem destReady_congr (h : Half) (blocked : List Nat) (d n : Nat) (ms : List Msg) :
    destReady t h blocked d n ms = destReady s h blocked d n ms := by
  have hcred : ∀ c, credFree t h d c = credFree s h d c := fun c => by
    simp only [credFree, (hsame.2.1 (destNode h d)).1, (hsame.2.2 h).1]
  simp only [destReady, egrUsed_congr hsame, portReady_congr hsame, bridgeReady_congr hsame, hcred]

end

/-! ### Requests that wait for a tag are counted first (R107) -/

theorem tagWaitCount_frame (s : State) (h : Half) (d : Nat) :
    (tagWaitCount s h d).core = s.core ∧ (tagWaitCount s h d).net = s.net := by
  unfold tagWaitCount
  dsimp only
  split
  · exact ⟨rfl, rfl⟩
  · split
    · exact ⟨rfl, rfl⟩
    · exact ⟨rfl, rfl⟩

/-- Where no request waits for a tag, no wait counts. -/
theorem tagWaitCount_readySame {s : State} {h : Half} {d : Nat} (hw : tagWaits s h d = false) :
    readySame s (tagWaitCount s h d) := by
  unfold tagWaitCount
  dsimp only
  rw [hw]
  split
  · exact readySame_refl s
  · refine ⟨rfl, fun n => ?_, fun _ => ⟨rfl, rfl, rfl⟩⟩
    by_cases hn : n = d
    · subst hn
      rw [if_neg Bool.false_ne_true, sub_modSub_same]
      exact ⟨rfl, rfl⟩
    · rw [if_neg Bool.false_ne_true, sub_modSub_ne _ _ hn]
      exact ⟨rfl, rfl⟩

theorem tagWaits_congr {s t : State} (hsame : readySame s t) (hcore : t.core = s.core) : tagWaits t = tagWaits s := by
  have hready : tagReady t = tagReady s := funext fun n => funext fun k => funext fun m => tagReady_congr hsame n k m
  obtain ⟨hframe, -⟩ := hsame
  have hup : linkUp t = linkUp s := by rw [hframe]; rfl
  have hmsgs : groupMsgs t = groupMsgs s := by rw [hframe]; rfl
  have hdests : cellDests t = cellDests s := by rw [hframe]; rfl
  have hgroup : groupWaits t = groupWaits s := by
    funext d g
    simp only [groupWaits, hmsgs, hready]
  funext h d
  unfold tagWaits
  rw [hup, hcore, hgroup, hdests]

/-- The state in which the matcher of a slot runs. -/
def waitsCounted (s : State) (h : Half) : State :=
  (((voqSubs s h) ++ (s.subs.filter fun e => e.2.waiting && decide (nodeHalf e.1 = h)).map fun e => e.1).dedup).foldl
    (fun s d => tagWaitCount s h d) s

theorem waitsCounted_core (s : State) (h : Half) : (waitsCounted s h).core = s.core :=
  foldl_keeps State.core (fun s d _ => (tagWaitCount_frame s h d).1) s

theorem waitsCounted_net (s : State) (h : Half) : (waitsCounted s h).net = s.net :=
  foldl_keeps State.net (fun s d _ => (tagWaitCount_frame s h d).2) s

theorem foldl_tagWaitCount_readySame {s : State} {h : Half} {l : List Nat} (hl : ∀ d ∈ l, tagWaits s h d = false) :
    readySame s (l.foldl (fun s d => tagWaitCount s h d) s) := by
  induction l generalizing s with
  | nil => exact readySame_refl s
  | cons d r ih =>
    have hstep := tagWaitCount_readySame (hl d (by simp))
    have hwaits := tagWaits_congr hstep (tagWaitCount_frame s h d).1
    exact readySame_trans hstep (ih fun e he => hwaits ▸ hl e (by simp [he]))

/-- A node of half h that its core queues for sub-port d is sub-port d. -/
theorem eq_destNode {h : Half} {n d : Nat} (hn : nodeHalf n = h) (hd : destIn h n = d) (hlt : d < 64) : n = destNode h d := by
  unfold destIn at hd
  rw [if_pos hn] at hd
  have h128 : n < 128 := by
    by_contra hge
    rw [if_neg hge] at hd
    omega
  rw [if_pos h128] at hd
  unfold nodeHalf portHalf at hn
  rw [if_pos h128] at hn
  unfold destNode
  rw [if_pos hlt]
  split at hn <;> subst hn <;> simp only [Half.idx] <;> omega

theorem nodeHalf_destNode (h : Half) {d : Nat} (hd : d < 64) : nodeHalf (destNode h d) = h := by
  unfold nodeHalf portHalf destNode
  rw [if_pos hd]
  cases h
  · rw [if_pos (by simp only [Half.idx]; omega), if_pos (by simp only [Half.idx]; omega)]
  · rw [if_pos (by simp only [Half.idx]; omega), if_neg (by simp only [Half.idx]; omega)]

/-- A sub-port that is ready for a message has a tag for it. -/
theorem tagReady_of_destReady {s : State} {h : Half} {blocked : List Nat} {d n : Nat} {m : Msg} (hd : d < 64)
    (hready : destReady s h blocked d n [m] = true) : tagReady s (destNode h d) 0 m = true := by
  have hport : portReady s h d 0 m = true := by
    simp only [destReady, List.all_cons, List.all_nil, hd, if_true, Bool.and_true, Bool.and_eq_true] at hready
    obtain ⟨-, -, hport⟩ := hready
    exact hport
  simp only [portReady, Bool.and_eq_true] at hport
  obtain ⟨⟨⟨⟨-, htag⟩, -⟩, -⟩, -⟩ := hport
  exact htag

/-! ### A lone message at the head of its queue -/

/-- One VOQ alone asks in half h, with message n of one cell at its head; nothing waits at station 28. -/
def lone (s : State) (h : Half) (q n : Nat) (v : Voq) (c : Cell) (m : Msg) (l : List Cell) : Prop :=
  (s.core.get h).voqs = [(q, v)] ∧ (s.core.get h).mcq = [] ∧ (s.core.get h).spill = [] ∧ (s.core.get h).busy = []
    ∧ lget (s.core.get h).inbox 28 = [] ∧ keyStation q < 32 ∧ headGroup v.chip = some ([c], l) ∧ c.msgs = [n] ∧ s.msg n = some m

theorem lone_congr {s t : State} {h : Half} {q n : Nat} {v : Voq} {c : Cell} {m : Msg} {l : List Cell}
    (hl : lone s h q n v c m l) (hcore : t.core = s.core) (hnet : t.net = s.net) : lone t h q n v c m l := by
  unfold lone State.msg
  rw [hcore, hnet]
  exact hl

/-- The request of the only VOQ. -/
def loneReq (q : Nat) : VReq := ⟨keyStation q, destStation (keyDest q), keyBand q, q, .uni⟩

theorem loneReq_out (q : Nat) : (loneReq q).out < 32 := by
  have hd : keyDest q < 80 := Nat.mod_lt _ (by decide)
  simp only [loneReq, destStation]
  split <;> omega

section

variable {s : State} {h : Half} {q n : Nat} {v : Voq} {c : Cell} {m : Msg} {l : List Cell} (hl : lone s h q n v c m l)

include hl

theorem lone_voq : (s.core.get h).voq q = v := by
  obtain ⟨hvoqs, -⟩ := hl
  simp [Core.voq, hvoqs, mfind]

theorem lone_inbox : lget (s.core.get h).inbox 28 = [] := by
  obtain ⟨-, -, -, -, hin, -⟩ := hl
  exact hin

theorem lone_groupMsgs : groupMsgs s [c] = [m] := by
  obtain ⟨-, -, -, -, -, -, -, hids, hmsg⟩ := hl
  simp [groupMsgs, hids, hmsg]

/-- No sub-port's tags are waited for where the message's own destination is ready. -/
theorem lone_tagWaits {blocked : List Nat} (hd : keyDest q < 64)
    (hready : destReady s h blocked (keyDest q) 1 [m] = true) {d : Nat} (hhalf : nodeHalf d = h) : tagWaits s h d = false := by
  have hmsgs := lone_groupMsgs hl
  obtain ⟨hvoqs, hmcq, -, -, -, -, hhead, -, -⟩ := hl
  by_cases hdest : destIn h d = keyDest q
  · have hnode := eq_destNode hhalf hdest hd
    have htag : tagReady s d 0 m = true := hnode ▸ tagReady_of_destReady hd hready
    simp [tagWaits, hvoqs, hmcq, hhead, groupWaits, hmsgs, htag]
  · simp [tagWaits, hvoqs, hmcq, Ne.symm hdest]

/-- The slot's matcher finds that the destination of the message is as ready as before the waits were counted. -/
theorem lone_waitsCounted {blocked : List Nat} (hd : keyDest q < 64) (hready : destReady s h blocked (keyDest q) 1 [m] = true) :
    readySame s (waitsCounted s h) := by
  have hwaits := fun d => lone_tagWaits hl hd hready (d := d)
  obtain ⟨hvoqs, hmcq, -⟩ := hl
  refine foldl_tagWaitCount_readySame fun d hmem => hwaits d ?_
  rw [List.mem_dedup, List.mem_append] at hmem
  rcases hmem with hmem | hmem
  · have hone : d = destNode h (keyDest q) := by simpa [voqSubs, hvoqs, hmcq, hd] using hmem
    rw [hone, nodeHalf_destNode h hd]
  · obtain ⟨e, he, rfl⟩ := List.mem_map.mp hmem
    obtain ⟨-, hwait⟩ := List.mem_filter.mp he
    exact of_decide_eq_true (Bool.and_eq_true_iff.mp hwait).2

/-- The matching of the slot is that request alone, made in the first iteration. -/
theorem lone_vMatch {blocked : List Nat} (hready : destReady s h blocked (keyDest q) 1 [m] = true) :
    vMatch s h blocked = ([loneReq q], [loneReq q], [loneReq q]) := by
  have hmsgs := lone_groupMsgs hl
  obtain ⟨hvoqs, hmcq, hspill, hbusy, -, hin, hhead, -, -⟩ := hl
  have hreqs : voqReqs s h blocked ++ mcReqs s h blocked ++ spillReqs s h blocked = [loneReq q] := by
    simp [voqReqs, mcReqs, spillReqs, hvoqs, hmcq, hspill, hhead, hmsgs, hready, loneReq]
  have hheld : vHeld (s.core.get h) ((s.core.get h).slot % 8) = [] := by simp [vHeld, hbusy]
  have hfirst := vIter_single (s.core.get h) ((s.core.get h).slot % 8) hin (loneReq_out q) rfl
  have hrest := fun done (hr : loneReq q ∈ done) => vIter_matched (s.core.get h) ((s.core.get h).slot % 8) hr
  unfold vMatch
  dsimp only
  rw [hreqs, hheld, hfirst, hrest _ (by simp), hrest _ (by simp)]
  rfl

end

/-! ### What crosses (R133, R145, R147) -/

/-- What a crossing shows in half h: the on-chip segments, the egress buffers, the units' inputs and the slot number. -/
structure Crossing where
  chip : Nat → List Cell
  egr : SMap (List (Nat × Nat))
  inbox : SMap (List Nat)
  slot : Nat

def crossing (h : Half) (s : State) : Crossing :=
  let c := s.core.get h
  ⟨fun k => (c.voq k).chip, c.egr, c.inbox, c.slot⟩

theorem voq_setVoq_ne (c : Core) {j k : Nat} (v : Voq) (hne : j ≠ k) : (c.setVoq k v).voq j = c.voq j :=
  mget_mset_ne (fun _ => voqReset) _ _ hne

/-- A change of a VOQ that keeps its on-chip segment is no crossing. -/
theorem modVoq_crossing (s : State) (h : Half) (k : Nat) {f : Voq → Voq} (hf : ∀ v, (f v).chip = v.chip) :
    crossing h (modVoq s h k f) = crossing h s := by
  have hchip : ∀ j, ((((s.core.get h).setVoq k (f ((s.core.get h).voq k)))).voq j).chip = ((s.core.get h).voq j).chip := by
    intro j
    by_cases hj : j = k
    · rw [hj, voq_setVoq_same, hf]
    · rw [voq_setVoq_ne _ _ hj]
  unfold crossing
  rw [modVoq_core, pair_get_set_same]
  simp only [hchip]
  rfl

theorem chargePage_crossing {s t : State} {h : Half} {k : Nat} {l : List Cell} (ht : chargePage s h k l = some t) :
    crossing h t = crossing h s := by
  induction l generalizing s with
  | nil => cases ht; rfl
  | cons c r ih =>
    unfold chargePage at ht
    split at ht
    · cases ht
    · exact (ih ht).trans (modVoq_crossing _ _ _ fun _ => rfl)

/-- A read of a page that begins moves no cell into an on-chip segment (R151). -/
theorem readStart_crossing (s : State) (h : Half) (k : Nat) : crossing h (readStart s h k) = crossing h s := by
  unfold readStart
  split
  · rfl
  · next p r _ =>
    split
    · rfl
    · cases hc : chargePage (modVoq s h k fun v => { v with deep := r, ret := v.ret ++ [[]] }) h k p with
      | none => rfl
      | some t => exact (chargePage_crossing hc).trans (modVoq_crossing _ _ _ fun _ => rfl)

theorem readAll_crossing (s : State) (h : Half) : crossing h (readAll s h) = crossing h s :=
  foldl_keeps (crossing h) (fun s e _ => readStart_crossing s h e.1) s

/-- Where nothing waits at station 28, no host is served (R17, R20). -/
theorem sfServe_empty {s : State} {h : Half} (hin : lget (s.core.get h).inbox 28 = []) (e : CellEcc) : sfServe s h e = s := by
  unfold sfServe
  rw [hin]
  rfl

/-! ### The message is sent (R146, R147) -/

theorem readySame_modCore (s : State) (h : Half) {f : Core → Core} (hegr : ∀ c, (f c).egr = c.egr) (hin : ∀ c, (f c).inbox = c.inbox)
    (hposted : ∀ c, (f c).sentPosted = c.sentPosted) : readySame s (s.modCore h f) := by
  refine ⟨rfl, fun _ => ⟨rfl, rfl⟩, fun g => ?_⟩
  cases h <;> cases g
  case east.east => exact ⟨hegr _, hin _, hposted _⟩
  case west.west => exact ⟨hegr _, hin _, hposted _⟩
  case east.west => exact ⟨rfl, rfl, rfl⟩
  case west.east => exact ⟨rfl, rfl, rfl⟩

theorem vSend_single (s : State) (h : Half) (blocked : List Nat) (mt : Nat) {r : VReq} (hk : r.kind = .uni) :
    vSend s h blocked mt [r] [r] .clean = sendVoq s h blocked mt r .clean := by
  have hchoose : chooseVoq (s.core.get h) [r] r = r := by simp [chooseVoq, hk]
  simp [vSend, sendUni, hk, hchoose, eccAt]

theorem countOut_frame (s : State) (h : Half) (st : Nat) (g : List Cell) :
    (countOut s h st g).core = s.core ∧ (countOut s h st g).net = s.net := by
  have hcount := countOnly_trans (tally_countOnly s h 1 1 st g.length)
    (tally_countOnly _ h 1 2 st (g.map fun c => c.slots).sum)
  have hcore := countOnly_core hcount
  have hnet := countOnly_net hcount
  unfold countOut
  dsimp only
  split
  · exact ⟨hcore, hnet⟩
  · exact ⟨hcore, hnet⟩

/-- A message of one cell is out of its queue, of which l stays, and its class and sub-port have had their turn. -/
def dequeued (s : State) (h : Half) (r : VReq) (l : List Cell) : State :=
  let pr := (r.inp * 32 + r.out) * 4
  let pc := (protectedCls (keyCls r.key)).toNat
  (modVoq s h r.key fun v => { v with chip := l }).modCore h fun c =>
    { c with rr := nset (nset c.rr (pr + pc) (rrPlace (keyCls r.key) + 1)) (pr + 2) (keyDest r.key % 4 + 1) }

theorem dequeued_core (s : State) (h : Half) (r : VReq) (l : List Cell) : ∃ rr, (dequeued s h r l).core.get h
    = { (s.core.get h).setVoq r.key { (s.core.get h).voq r.key with chip := l } with rr := rr } :=
  ⟨_, by rw [dequeued, modCore_core_same, modVoq_core, pair_get_set_same]⟩

/-- A message of one cell whose destination is ready is delivered there, and holds no pair of stations. -/
theorem sendVoq_delivers {s : State} {h : Half} {blocked : List Nat} (mt : Nat) {r : VReq} {c : Cell} {l : List Cell}
    (hhead : headGroup ((s.core.get h).voq r.key).chip = some ([c], l))
    (hready : destReady s h blocked (keyDest r.key) 1 (groupMsgs s [c]) = true) :
    sendVoq s h blocked mt r .clean = deliver (countOut (dequeued s h r l) h r.out [c]) h (keyDest r.key) [c] := by
  unfold sendVoq
  rw [hhead]
  dsimp only
  rw [List.length_singleton, hready, if_neg (by decide)]
  rfl

/-! ### The slot of a lone message (R146) -/

/-- The state in which the matched messages are sent: the slot has passed, and the pointers are past the match. -/
def slotMatched (s : State) (h : Half) (r : VReq) : State :=
  let mt := (s.core.get h).slot % 8
  (s.modCore h fun c => { busyStep c mt with slot := c.slot + 1 }).modCore h fun c =>
    { c with grantPtr := nset c.grantPtr (ptrKey mt r.out) ((r.inp + 1) % 32),
             acceptPtr := nset c.acceptPtr (ptrKey mt r.inp) ((r.out + 1) % 32) }

theorem slotMatched_readySame (s : State) (h : Half) (r : VReq) : readySame s (slotMatched s h r) := by
  unfold slotMatched
  refine readySame_trans (readySame_modCore s h ?_ ?_ ?_) (readySame_modCore _ h ?_ ?_ ?_) <;> exact fun _ => rfl

/-- A slot that passes moves no cell. -/
theorem slotMatched_crossing (s : State) (h : Half) (r : VReq) :
    crossing h (slotMatched s h r) = { crossing h s with slot := (s.core.get h).slot + 1 } := by
  unfold crossing slotMatched
  simp only [modCore_core_same]
  rfl

/-- The state in which a lone message is delivered: the slot is matched, and the message out of its queue. -/
def loneSent (s : State) (h : Half) (q : Nat) (c : Cell) (l : List Cell) : State :=
  countOut (dequeued (slotMatched s h (loneReq q)) h (loneReq q) l) h (loneReq q).out [c]

theorem loneSent_net (s : State) (h : Half) (q : Nat) (c : Cell) (l : List Cell) : (loneSent s h q c l).net = s.net :=
  (countOut_frame _ _ _ _).2

/-- So far the message has left its queue, and is nowhere else. -/
theorem loneSent_core (s : State) (h : Half) (q : Nat) (c : Cell) (l : List Cell) :
    (((loneSent s h q c l).core.get h).voq q).chip = l ∧ ((loneSent s h q c l).core.get h).egr = (s.core.get h).egr
      ∧ ((loneSent s h q c l).core.get h).inbox = (s.core.get h).inbox
      ∧ ((loneSent s h q c l).core.get h).slot = (s.core.get h).slot + 1 := by
  have hslot := slotMatched_crossing s h (loneReq q)
  obtain ⟨rr, hdeq⟩ := dequeued_core (slotMatched s h (loneReq q)) h (loneReq q) l
  rw [loneSent, (countOut_frame _ _ _ _).1, hdeq]
  exact ⟨congrArg Voq.chip (voq_setVoq_same _ _ _), congrArg Crossing.egr hslot, congrArg Crossing.inbox hslot,
    congrArg Crossing.slot hslot⟩

section

variable {s : State} {h : Half} {q n : Nat} {v : Voq} {c : Cell} {m : Msg} {l : List Cell} {blocked : List Nat}
  (hl : lone s h q n v c m l)

include hl

theorem lone_volley (hready : destReady s h blocked (keyDest q) 1 [m] = true) :
    volley s h blocked .clean = readAll (deliver (loneSent s h q c l) h (keyDest q) [c]) h := by
  have hmatch := lone_vMatch hl hready
  have hsame := slotMatched_readySame s h (loneReq q)
  have hchip : ((slotMatched s h (loneReq q)).core.get h).voq q = v :=
    (congrArg (Core.voq · q) (modCore_core_same _ _ _)).trans
      ((congrArg (Core.voq · q) (modCore_core_same _ _ _)).trans (lone_voq hl))
  have hmsgs : groupMsgs (slotMatched s h (loneReq q)) [c] = [m] := lone_groupMsgs (s := s) hl
  obtain ⟨-, -, -, -, -, -, hhead, -, -⟩ := hl
  have hsend := sendVoq_delivers (blocked := blocked) ((s.core.get h).slot % 8) (r := loneReq q) (hchip ▸ hhead)
    (by rw [destReady_congr hsame, hmsgs]; exact hready)
  unfold volley
  dsimp only
  rw [hmatch]
  exact congrArg (readAll · h) ((vSend_single _ h blocked _ rfl).trans hsend)

/-! ### Where it is delivered (R133, R145) -/

theorem deliver_unit {t : State} (hd : 72 ≤ keyDest q) : deliver t h (keyDest q) [c]
    = t.modCore h fun c => { c with inbox := lset c.inbox (keyDest q - 48) (lget c.inbox (keyDest q - 48) ++ [n]) } := by
  obtain ⟨-, -, -, -, -, -, -, hids, -⟩ := hl
  unfold deliver
  dsimp only
  rw [if_neg (by omega), if_neg (by omega)]
  simp [hids]

theorem deliver_port {t : State} (hd : keyDest q < 64) (hnet : t.net = s.net) : deliver t h (keyDest q) [c]
    = (deduct t h (keyDest q) m.tc (16 * m.slots)).modCore h fun c =>
        { c with egr := lset c.egr (keyDest q * 9 + clsOf m) (lget c.egr (keyDest q * 9 + clsOf m) ++ [(n, 1)]) } := by
  obtain ⟨-, -, -, -, -, -, -, hids, hmsg⟩ := hl
  have hmsg' : t.msg n = some m := by rw [State.msg, hnet]; exact hmsg
  unfold deliver
  dsimp only
  rw [if_pos hd]
  simp [hids, hmsg']

end

theorem deduct_core (s : State) (h : Half) (d t bytes : Nat) : (deduct s h d t bytes).core = s.core := by
  unfold deduct
  split <;> rfl

/-- A unit is ready for a cell of a class that it accepts and has room for (R145). -/
theorem destReady_unit {s : State} {h : Half} {d : Nat} {m : Msg} {blocked : List Nat} (hd : 72 ≤ d)
    (hroom : egrUsed s h d (clsOf m) ≤ 63) (hopen : d * 9 + clsOf m ∉ blocked) : destReady s h blocked d 1 [m] = true := by
  have h64 : ¬ d < 64 := by omega
  have h72 : ¬ d < 72 := by omega
  simpa [destReady, h64, h72, hopen] using Nat.lt_succ_of_le hroom

/-- What a unit has not taken stands in the core and the messages alone. -/
theorem egrUsed_unit_congr {s t : State} (hcore : t.core = s.core) (hnet : t.net = s.net) (h : Half) {d : Nat} (hd : 72 ≤ d)
    (cls : Nat) : egrUsed t h d cls = egrUsed s h d cls := by
  have h64 : ¬ d < 64 := by omega
  have h72 : ¬ d < 72 := by omega
  have hmsg : t.msg = s.msg := by funext n; rw [State.msg, hnet, State.msg]
  simp only [egrUsed, h64, h72, if_false, hcore, hmsg]

/-! ### The command (R146) -/

theorem exec_volleyDecision_clean (s : State) (h : Half) (blocked : List Nat) : exec (.volleyDecision h blocked .clean .clean) s
    = .next (sfServe (volley (waitsCounted s h) h blocked .clean) h .clean) := by
  show execVolleyDecision h blocked .clean .clean s = _
  rfl

/-- A lone message crosses; what follows in the slot moves nothing more, unless it came to station 28. -/
theorem volleyDecision_crosses {s t : State} {h : Half} {q n : Nat} {v : Voq} {c : Cell} {m : Msg} {l : List Cell}
    {blocked : List Nat} (hl : lone s h q n v c m l) (hready : destReady (waitsCounted s h) h blocked (keyDest q) 1 [m] = true)
    (ht : deliver (loneSent (waitsCounted s h) h q c l) h (keyDest q) [c] = t) (hin : lget (t.core.get h).inbox 28 = []) :
    ∃ u, exec (.volleyDecision h blocked .clean .clean) s = .next u ∧ ((u.core.get h).voq q).chip = ((t.core.get h).voq q).chip
      ∧ (u.core.get h).egr = (t.core.get h).egr ∧ (u.core.get h).inbox = (t.core.get h).inbox
      ∧ (u.core.get h).slot = (t.core.get h).slot := by
  have hl' := lone_congr hl (waitsCounted_core s h) (waitsCounted_net s h)
  have hread := readAll_crossing t h
  have hstill : lget ((readAll t h).core.get h).inbox 28 = [] := (congrArg (fun x : Crossing => lget x.inbox 28) hread).trans hin
  refine ⟨readAll t h, ?_, congrFun (congrArg Crossing.chip hread) q, congrArg Crossing.egr hread, congrArg Crossing.inbox hread,
    congrArg Crossing.slot hread⟩
  rw [exec_volleyDecision_clean, lone_volley hl' hready, ht, sfServe_empty hstill]

/-- A lone message for a unit but station 28 goes to the unit's input (R145, R147). -/
theorem volleyDecision_unit {s : State} {h : Half} {q n : Nat} {v : Voq} {c : Cell} {m : Msg} {l : List Cell}
    {blocked : List Nat} (hl : lone s h q n v c m l) (hd : 72 ≤ keyDest q) (h28 : keyDest q ≠ 76)
    (hroom : egrUsed s h (keyDest q) (clsOf m) ≤ 63) (hopen : keyDest q * 9 + clsOf m ∉ blocked) :
    ∃ u, exec (.volleyDecision h blocked .clean .clean) s = .next u ∧ ((u.core.get h).voq q).chip = l
      ∧ (u.core.get h).inbox = lset (s.core.get h).inbox (keyDest q - 48) (lget (s.core.get h).inbox (keyDest q - 48) ++ [n])
      ∧ (u.core.get h).slot = (s.core.get h).slot + 1 := by
  have hcore := waitsCounted_core s h
  have hnet := waitsCounted_net s h
  have hl' := lone_congr hl hcore hnet
  have hready := destReady_unit (s := waitsCounted s h) hd ((egrUsed_unit_congr hcore hnet h hd _).trans_le hroom) hopen
  obtain ⟨hchip, -, hin, hslot⟩ := loneSent_core (waitsCounted s h) h q c l
  rw [hcore] at hin hslot
  obtain ⟨u, hexec, huchip, -, huin, huslot⟩ := volleyDecision_crosses hl hready (deliver_unit hl' hd)
    (by rw [modCore_core_same, hin, lget_lset_ne _ _ (by omega), lone_inbox hl])
  rw [modCore_core_same] at huchip huin huslot
  exact ⟨u, hexec, huchip.trans hchip, by rw [huin, hin], huslot.trans hslot⟩

/-- A lone message for a sub-port that is ready goes to its egress buffer, and takes one cell of it (R145, R147). -/
theorem volleyDecision_port {s : State} {h : Half} {q n : Nat} {v : Voq} {c : Cell} {m : Msg} {l : List Cell}
    {blocked : List Nat} (hl : lone s h q n v c m l) (hd : keyDest q < 64) (hready : destReady s h blocked (keyDest q) 1 [m] = true) :
    ∃ u, exec (.volleyDecision h blocked .clean .clean) s = .next u ∧ ((u.core.get h).voq q).chip = l
      ∧ (u.core.get h).egr = lset (s.core.get h).egr (keyDest q * 9 + clsOf m)
          (lget (s.core.get h).egr (keyDest q * 9 + clsOf m) ++ [(n, 1)])
      ∧ (u.core.get h).slot = (s.core.get h).slot + 1 := by
  have hcore := waitsCounted_core s h
  have hl' := lone_congr hl hcore (waitsCounted_net s h)
  have hready' : destReady (waitsCounted s h) h blocked (keyDest q) 1 [m] = true :=
    (destReady_congr (lone_waitsCounted hl hd hready) _ _ _ _ _).trans hready
  obtain ⟨hchip, hegr, hin, hslot⟩ := loneSent_core (waitsCounted s h) h q c l
  rw [hcore] at hegr hin hslot
  obtain ⟨u, hexec, huchip, huegr, -, huslot⟩ := volleyDecision_crosses hl hready' (deliver_port hl' hd (loneSent_net _ _ _ _ _))
    (by rw [modCore_core_same, deduct_core, hin, lone_inbox hl])
  rw [modCore_core_same, deduct_core] at huchip huegr huslot
  exact ⟨u, hexec, huchip.trans hchip, by rw [huegr, hegr], huslot.trans hslot⟩

/-- Settles O29, clause by clause: a cell that joins or is held, one that is held no more, then a lone message that crosses to a
unit and to a sub-port. -/
theorem cellsAreAdmittedAndCross : Obligations.CellsAreAdmittedAndCross := by
  intro s h st n q c m r rest l v pl blocked C d x joins open_ alone
  refine ⟨fun hformed hlive hfree hp => ?_, fun hformed hlive hheld => ?_, fun hp hheld => ?_, fun hl hd h28 hroom hopen => ?_,
    fun hl hd hready => ?_⟩
  · refine ⟨_, exec_cellArrival_joins hformed hlive hfree hp, ?_⟩
    simp only [joins, xoffStat_core, creditCell_core, chipPush_core, taken_core, voq_setVoq_same]
    exact ⟨rfl, lget_lset_same _ _ _⟩
  · refine ⟨_, exec_cellArrival_holds hformed hlive hheld, ?_⟩
    simp only [xoffStat_core, holdCell_core, taken_core, lget_lset_same]
    exact ⟨rfl, rfl⟩
  · refine ⟨_, exec_heldCellAdmit_first hheld hp, ?_⟩
    simp only [joins, xoffStat_core, creditCell_core, holdStat_core, modCore_core_same, chipPush_core, lget_lset_same]
    refine ⟨congrArg Voq.chip (voq_setVoq_same _ _ _), ?_⟩
    show (lget C.held st).erase (q, c) = rest
    rw [hheld, List.erase_cons_head]
  · obtain ⟨u, hexec, hchip, hin, hslot⟩ := volleyDecision_unit hl hd h28 hroom hopen
    exact ⟨u, hexec, hchip, by rw [hin, lget_lset_same], hslot⟩
  · obtain ⟨u, hexec, hchip, hegr, hslot⟩ := volleyDecision_port hl hd hready
    exact ⟨u, hexec, hchip, by rw [hegr, lget_lset_same], hslot⟩

end Sys2Proof.Machine
end

section
/-! PROOFS. The bridge as messages, the Catalogue and the service functions leave it: what ends a message (R114, R162, R252), what
drops it from its queues, and what reports an event changes neither PHASE, AUTH and ISLANDED nor the groups and crossing tables. -/

namespace Sys2Proof.Machine

open Sys2Proof

/-- The registers that tell how the bridge stands and what time it is. -/
def bridgeReg (a : Nat) : Bool :=
  [CDB_STAT .east, CDB_STAT .west, CDB_SPLIT_AT_LO .east, CDB_SPLIT_AT_LO .west, CDB_SPLIT_AT_LO .east + 4,
    CDB_SPLIT_AT_LO .west + 4, MRD_NOW_LO .east, MRD_NOW_LO .west, MRD_NOW_LO .east + 4, MRD_NOW_LO .west + 4].contains a

/-- How the bridge stands in a half: PHASE, AUTH and ISLANDED of CDB_STAT, the time of the split, the half's Meridian, and what the
half keeps of the bridge but for the regions of its mirror and the snoop copies that it sends again. -/
structure BridgeKept where
  phase : Nat
  auth : Nat
  islanded : Nat
  splitAt : Nat
  now : Nat
  cdb : Cdb

def bridgeKept (s : State) (h : Half) : BridgeKept :=
  ⟨s.phase h, s.fget (CDB_STAT h) CDB_STAT_AUTH, s.fget (CDB_STAT h) CDB_STAT_ISLANDED, s.rd64 (CDB_SPLIT_AT_LO h), s.now h,
    { s.cdb.get h with regions := [], resend := [] }⟩

/-! ### What a view of the bridge tells -/

theorem kept_phase {s t : State} (hk : bridgeKept t = bridgeKept s) (h : Half) : t.phase h = s.phase h :=
  congrArg BridgeKept.phase (congrFun hk h)

theorem kept_now {s t : State} (hk : bridgeKept t = bridgeKept s) (h : Half) : t.now h = s.now h :=
  congrArg BridgeKept.now (congrFun hk h)

theorem view_auth {s t : State} {h : Half} (hv : (bridgeKept t h).auth = (bridgeKept s h).auth) : t.auth h = s.auth h := by
  rw [State.auth, State.auth, show t.fget (CDB_STAT h) CDB_STAT_AUTH = s.fget (CDB_STAT h) CDB_STAT_AUTH from hv]

theorem view_islanded {s : State} {h : Half} {x : Bool} (hv : (bridgeKept s h).islanded = x.toNat) :
    s.flag (CDB_STAT h) CDB_STAT_ISLANDED = x := by
  rw [State.flag, show s.fget (CDB_STAT h) CDB_STAT_ISLANDED = x.toNat from hv]
  cases x <;> rfl

theorem kept_cross {s t : State} (hk : bridgeKept t = bridgeKept s) (h : Half) : (t.cdb.get h).cross = (s.cdb.get h).cross :=
  congrArg (fun k => k.cdb.cross) (congrFun hk h)

theorem kept_downAt {s t : State} (hk : bridgeKept t = bridgeKept s) (h : Half) : (t.cdb.get h).downAt = (s.cdb.get h).downAt :=
  congrArg (fun k => k.cdb.downAt) (congrFun hk h)

/-! ### Elementary changes -/

theorem cdbStat_inj {h k : Half} (he : CDB_STAT k = CDB_STAT h) : k = h := by
  revert he
  cases h <;> cases k <;> decide

theorem bridgeKept_congr {s t : State} (hrd : ∀ a, bridgeReg a = true → t.rd a = s.rd a)
    (hcdb : ∀ h, { t.cdb.get h with regions := [], resend := [] } = { s.cdb.get h with regions := [], resend := [] }) :
    bridgeKept t = bridgeKept s := by
  funext h
  have hstat : t.rd (CDB_STAT h) = s.rd (CDB_STAT h) := hrd _ (by cases h <;> decide)
  have hsplit : t.rd64 (CDB_SPLIT_AT_LO h) = s.rd64 (CDB_SPLIT_AT_LO h) :=
    rd64_congr (hrd _ (by cases h <;> decide)) (hrd _ (by cases h <;> decide))
  have hnow : t.now h = s.now h := rd64_congr (hrd _ (by cases h <;> decide)) (hrd _ (by cases h <;> decide))
  simp only [bridgeKept, State.phase, State.fget, hstat, hsplit, hnow, hcdb h]

@[simp] theorem wr_bridge {b : Nat} (s : State) (v : Word) (hb : bridgeReg b = false) : bridgeKept (s.wr b v) = bridgeKept s :=
  bridgeKept_congr (fun a ha => rd_wr_ne _ _ fun hab => by simp [hab, hb] at ha) fun _ => rfl

@[simp] theorem fset_bridge {b : Nat} (s : State) (f : Fld) (n : Nat) (hb : bridgeReg b = false) :
    bridgeKept (s.fset b f n) = bridgeKept s := wr_bridge s _ hb

@[simp] theorem fsetB_bridge {b : Nat} (s : State) (f : Fld) (x : Bool) (hb : bridgeReg b = false) :
    bridgeKept (s.fsetB b f x) = bridgeKept s := wr_bridge s _ hb

@[simp] theorem fbump_bridge {b : Nat} (s : State) (f : Fld) (n : Nat) (hb : bridgeReg b = false) :
    bridgeKept (s.fbump b f n) = bridgeKept s := wr_bridge s _ hb

@[simp] theorem fsets_bridge {b : Nat} (s : State) (l : List (Fld × Nat)) (hb : bridgeReg b = false) :
    bridgeKept (s.fsets b l) = bridgeKept s := by
  induction l generalizing s with
  | nil => rfl
  | cons x r ih => exact (ih (s.fset b x.1 x.2)).trans (fset_bridge s x.1 x.2 hb)

@[simp] theorem wr64_bridge {b : Nat} (s : State) (v : Nat) (hb : bridgeReg b = false) (hb' : bridgeReg (b + 4) = false) :
    bridgeKept (s.wr64 b v) = bridgeKept s := (wr_bridge _ _ hb').trans (wr_bridge _ _ hb)

/-- A field of CDB_STAT shows in its own half's view alone. -/
theorem fsetStat_view (s : State) (h : Half) (f : Fld) (n : Nat) :
    bridgeKept (s.fset (CDB_STAT h) f n) = Function.update (bridgeKept s) h { bridgeKept s h with
      phase := (s.fset (CDB_STAT h) f n).fget (CDB_STAT h) CDB_STAT_PHASE,
      auth := (s.fset (CDB_STAT h) f n).fget (CDB_STAT h) CDB_STAT_AUTH,
      islanded := (s.fset (CDB_STAT h) f n).fget (CDB_STAT h) CDB_STAT_ISLANDED } := by
  funext k
  have hsplit := rd64_fset_ne s (b := CDB_SPLIT_AT_LO k) f n (a := CDB_STAT h) (by cases h <;> cases k <;> decide)
    (by cases h <;> cases k <;> decide)
  have hnow : (s.fset (CDB_STAT h) f n).now k = s.now k :=
    rd64_fset_ne s f n (by cases h <;> cases k <;> decide) (by cases h <;> cases k <;> decide)
  by_cases hk : k = h
  · subst hk
    simp only [Function.update_self, bridgeKept, State.phase, hsplit, hnow, State.fset_cdb]
  · have hother : ∀ g, (s.fset (CDB_STAT h) f n).fget (CDB_STAT k) g = s.fget (CDB_STAT k) g := fun g =>
      fget_fset_at_ne _ _ _ _ fun he => hk (cdbStat_inj he)
    simp only [Function.update_of_ne hk, bridgeKept, State.phase, hother, hsplit, hnow, State.fset_cdb]

/-- A field of CDB_STAT that the view does not show. -/
theorem fsetStat_bridge (s : State) (h : Half) {f : Fld} (n : Nat)
    (hf : ∀ g ∈ [CDB_STAT_PHASE, CDB_STAT_AUTH, CDB_STAT_ISLANDED], g.lo + g.width ≤ f.lo ∨ f.lo + f.width ≤ g.lo) :
    bridgeKept (s.fset (CDB_STAT h) f n) = bridgeKept s := by
  rw [fsetStat_view, fget_fset_ne _ _ _ _ _ (hf CDB_STAT_PHASE (by simp)) (by decide),
    fget_fset_ne _ _ _ _ _ (hf CDB_STAT_AUTH (by simp)) (by decide),
    fget_fset_ne _ _ _ _ _ (hf CDB_STAT_ISLANDED (by simp)) (by decide)]
  exact Function.update_eq_self h (bridgeKept s)

theorem fsetPhase_bridge (s : State) (h : Half) {ph : Nat} (hph : ph < 16) :
    bridgeKept (s.fset (CDB_STAT h) CDB_STAT_PHASE ph) = Function.update (bridgeKept s) h { bridgeKept s h with phase := ph } := by
  rw [fsetStat_view, fget_fset_same _ _ _ _ (by decide), fget_fset_ne _ _ _ CDB_STAT_AUTH _ (by decide) (by decide),
    fget_fset_ne _ _ _ CDB_STAT_ISLANDED _ (by decide) (by decide), Nat.mod_eq_of_lt (show ph < 2 ^ CDB_STAT_PHASE.width from hph)]
  rfl

theorem fsetIslanded_bridge (s : State) (h : Half) (x : Bool) :
    bridgeKept (s.fsetB (CDB_STAT h) CDB_STAT_ISLANDED x)
      = Function.update (bridgeKept s) h { bridgeKept s h with islanded := x.toNat } := by
  rw [State.fsetB, fsetStat_view, fget_fset_same _ _ _ _ (by decide), fget_fset_ne _ _ _ CDB_STAT_AUTH _ (by decide) (by decide),
    fget_fset_ne _ _ _ CDB_STAT_PHASE _ (by decide) (by decide),
    Nat.mod_eq_of_lt (show x.toNat < 2 ^ CDB_STAT_ISLANDED.width from x.toNat_lt)]
  rfl

theorem splitAt_bridge (s : State) (h : Half) {v : Nat} (hv : v < 2 ^ 64) :
    bridgeKept (s.wr64 (CDB_SPLIT_AT_LO h) v) = Function.update (bridgeKept s) h { bridgeKept s h with splitAt := v } := by
  funext k
  have hstat : ∀ g, (s.wr64 (CDB_SPLIT_AT_LO h) v).fget (CDB_STAT k) g = s.fget (CDB_STAT k) g := fun g =>
    fget_wr64_ne s v g (by cases h <;> cases k <;> decide) (by cases h <;> cases k <;> decide)
  have hnow : (s.wr64 (CDB_SPLIT_AT_LO h) v).now k = s.now k := rd64_wr64_ne s v (by cases h <;> cases k <;> decide)
  by_cases hk : k = h
  · subst hk
    simp only [Function.update_self, bridgeKept, State.phase, hstat, hnow, rd64_wr64_same s _ v hv, State.wr64_cdb]
  · have hother : (s.wr64 (CDB_SPLIT_AT_LO h) v).rd64 (CDB_SPLIT_AT_LO k) = s.rd64 (CDB_SPLIT_AT_LO k) :=
      rd64_wr64_ne s v (by rw [half_eq_other hk]; cases h <;> decide)
    simp only [Function.update_of_ne hk, bridgeKept, State.phase, hstat, hnow, hother, State.wr64_cdb]

@[simp] theorem modCdb_regions_bridge (s : State) (h : Half) (f : Cdb → List Nat) :
    bridgeKept (s.modCdb h fun b => { b with regions := f b }) = bridgeKept s :=
  bridgeKept_congr (fun _ _ => rfl) fun k => by cases h <;> cases k <;> rfl

@[simp] theorem modCdb_resend_bridge (s : State) (h : Half) (f : Cdb → List (Nat × Nat)) :
    bridgeKept (s.modCdb h fun b => { b with resend := f b }) = bridgeKept s :=
  bridgeKept_congr (fun _ _ => rfl) fun k => by cases h <;> cases k <;> rfl

@[simp] theorem modCore_bridge (s : State) (h : Half) (f : Core → Core) : bridgeKept (s.modCore h f) = bridgeKept s := rfl
@[simp] theorem modNet_bridge (s : State) (f : Net → Net) : bridgeKept (s.modNet f) = bridgeKept s := rfl
@[simp] theorem modCat_bridge (s : State) (h : Half) (f : Cat → Cat) : bridgeKept (s.modCat h f) = bridgeKept s := rfl
@[simp] theorem modUmp_bridge (s : State) (h : Half) (f : Ump → Ump) : bridgeKept (s.modUmp h f) = bridgeKept s := rfl
@[simp] theorem modQos_bridge (s : State) (h : Half) (f : Qos → Qos) : bridgeKept (s.modQos h f) = bridgeKept s := rfl
@[simp] theorem modFn_bridge (s : State) (t n : Nat) (f : Fn → Fn) : bridgeKept (s.modFn t n f) = bridgeKept s := rfl
@[simp] theorem emit_bridge (s : State) (x : Sent) : bridgeKept (s.emit x) = bridgeKept s := rfl
@[simp] theorem draw_bridge (s : State) : bridgeKept s.draw.2 = bridgeKept s := rfl

@[simp] theorem bridgeKept_ite (c : Prop) [Decidable c] (s t : State) :
    bridgeKept (if c then s else t) = if c then bridgeKept s else bridgeKept t := apply_ite bridgeKept c s t

@[simp] theorem foldl_bridge {α : Type} {f : State → α → State} (hf : ∀ s x, bridgeKept (f s x) = bridgeKept s) (l : List α)
    (s : State) : bridgeKept (l.foldl f s) = bridgeKept s := foldl_keeps bridgeKept (fun s x _ => hf s x) s

/-! ### Registers that tell nothing of the bridge -/

@[simp] theorem cat_apart (h : Half) : bridgeReg (CAT_OCC h) = false ∧ bridgeReg (CAT_LSOCC h) = false
    ∧ bridgeReg (CAT_REMOTE h) = false ∧ bridgeReg (CAT_TRK h) = false ∧ bridgeReg (CAT_ERRCNT1 h) = false
    ∧ bridgeReg (CAT_ERRCNT3 h) = false ∧ bridgeReg (CDB_QLINES h) = false := by
  cases h <;> decide

@[simp] theorem core_apart (h : Half) : bridgeReg (CORE_STAT h) = false ∧ bridgeReg (CORE_DF_STAT h) = false
    ∧ bridgeReg (CORE_DF_PEAK h) = false ∧ bridgeReg (CORE_ERRCNT2 h) = false := by
  cases h <;> decide

@[simp] theorem umpire_apart (h : Half) : bridgeReg (UMP_LIVE h) = false ∧ bridgeReg (UMP_FLOG_INFO h) = false
    ∧ bridgeReg (UMP_FLOG_TGT h) = false ∧ bridgeReg (UMP_FLOG_ADDR_LO h) = false ∧ bridgeReg (UMP_FLOG_ADDR_LO h + 4) = false
    ∧ bridgeReg (UMP_ERRCNT0 h) = false := by
  cases h <;> decide

@[simp] theorem bridgeCount_apart (h : Half) : bridgeReg (CDB_ERRCNT0 h) = false ∧ bridgeReg (CDB_ERRCNT1 h) = false
    ∧ bridgeReg (CDB_ERRCNT2 h) = false ∧ bridgeReg (STK_ERRCNT2 h) = false ∧ bridgeReg (OBS_STAT h) = false := by
  cases h <;> decide

/-- The bridge's registers and MRD_NOW lie in two blocks, each register with an offset of its own. -/
theorem bridgeReg_eq_false {a : Nat} (h : a % 0x10000 = 0xC ∨ 0x200000000 ≤ a ∨ (0x01000000 ≤ a ∧ a < 0x0F000000)) :
    bridgeReg a = false := by
  simp only [bridgeReg, List.contains_eq_mem, decide_eq_false_iff_not, List.mem_cons, List.not_mem_nil, or_false, CDB_STAT,
    CDB_SPLIT_AT_LO, MRD_NOW_LO, Half.idx]
  omega

/-- No tenant's count of extent misses, T63's or another's, stands where a register of the bridge does. -/
@[simp] theorem extMiss_apart (t : Nat) : bridgeReg (SF_TEN_ERRCNT t) = false :=
  bridgeReg_eq_false (Or.inl (by unfold SF_TEN_ERRCNT; omega))

@[simp] theorem queue_apart (t fn q : Nat) : bridgeReg (SF_QWM t fn q) = false ∧ bridgeReg (SF_QPTR t fn q) = false :=
  ⟨bridgeReg_eq_false (by unfold SF_QWM; omega), bridgeReg_eq_false (by unfold SF_QPTR; omega)⟩

theorem colourCount_apart (h : Half) {v : Nat} (hv : v < 2 ^ 12) : bridgeReg (QOS_VF_CNT h v) = false :=
  bridgeReg_eq_false (by unfold QOS_VF_CNT; have := half_idx_lt h; omega)

/-! ### Events and counting -/

theorem bridgeReg_not_refReg {a : Nat} (ha : bridgeReg a = true) : refReg a = false ∧ viralBits a = 0
    ∧ (a < 0x0D000000 ∨ 0x0E000000 ≤ a) := by
  simp only [bridgeReg, List.contains_eq_mem, decide_eq_true_eq, List.mem_cons, List.not_mem_nil, or_false] at ha
  obtain rfl | rfl | rfl | rfl | rfl | rfl | rfl | rfl | rfl | rfl := ha <;> decide

theorem countOnly_bridge {s t : State} (h : countOnly s t) : bridgeKept t = bridgeKept s := by
  refine bridgeKept_congr (fun a ha => ?_) fun k => ?_
  · obtain ⟨hr, hv, hblock⟩ := bridgeReg_not_refReg ha
    simpa [hv] using h.1 a hr hblock
  · obtain ⟨-, -, hframe, -⟩ := h
    rw [hframe]

theorem refOnly_bridge {s t : State} (h : refOnly s t) : bridgeKept t = bridgeKept s := countOnly_bridge (refOnly_countOnly h)

@[simp] theorem raise_bridge (s : State) (h : Half) (cls cause inst detail : Nat) :
    bridgeKept (raise s h (evt cls cause inst detail)) = bridgeKept s := refOnly_bridge (raise_evt_refOnly _ _ _ _ _ _)

@[simp] theorem phmAdd_bridge (s : State) (h : Half) (c k : Nat) : bridgeKept (phmAdd s h c k) = bridgeKept s :=
  countOnly_bridge (phmAdd_countOnly _ _ _ _)

@[simp] theorem tally_bridge (s : State) (h : Half) (u e i k : Nat) : bridgeKept (tally s h u e i k) = bridgeKept s :=
  countOnly_bridge (tally_countOnly _ _ _ _ _ _)

@[simp] theorem tallyRise_bridge (s : State) (h : Half) (u e i : Nat) : bridgeKept (tallyRise s h u e i) = bridgeKept s :=
  countOnly_bridge (tallyRise_countOnly _ _ _ _ _)

/-- Viral of a tenant beyond T63 may stand in CDB_STAT, but there in a field of its own. -/
@[simp] theorem setViral_bridge (s : State) (t : Nat) : bridgeKept (setViral s t) = bridgeKept s := by
  unfold setViral
  split
  · rfl
  · refine (refOnly_bridge (record_refOnly _ _ _ _)).trans ?_
    by_cases hstat : ∃ h, SF_TEN_STAT t = CDB_STAT h
    · obtain ⟨h, hh⟩ := hstat
      rw [hh]
      exact fsetStat_bridge _ _ _ (by decide)
    · refine fset_bridge { s with viral := t :: s.viral, sent := .viral t :: s.sent } _ _ ?_
      have he := fun h => mt (Exists.intro h) hstat
      have hE := he .east
      have hW := he .west
      simp only [bridgeReg, List.contains_eq_mem, decide_eq_false_iff_not, List.mem_cons, List.not_mem_nil, or_false, hE, hW,
        false_or]
      simp only [SF_TEN_STAT, CDB_SPLIT_AT_LO, MRD_NOW_LO, Half.idx]
      omega

/-! ### The Umpire and messages on their way (R102-R137, R312-R316) -/

@[simp] theorem setLive_bridge (s : State) (h : Half) : bridgeKept (setLive s h) = bridgeKept s := by simp [setLive]

@[simp] theorem flightEnd_bridge (s : State) (h : Half) (g : Nat) : bridgeKept (flightEnd s h g) = bridgeKept s := by
  simp [flightEnd]

@[simp] theorem flightBegin_bridge (s : State) (h : Half) (g : Nat) : bridgeKept (flightBegin s h g) = bridgeKept s := by
  simp [flightBegin]

@[simp] theorem endFlight_bridge (s : State) (m : Msg) : bridgeKept (endFlight s m) = bridgeKept s := by simp [endFlight]

@[simp] theorem umpFault_bridge (s : State) (h : Half) (t need : Nat) (p : Piece) (rule : Option Nat) :
    bridgeKept (umpFault s h t need p rule) = bridgeKept s := by
  simp [umpFault, faultLog]

@[simp] theorem formCells_bridge (s : State) (h : Half) (st n flit : Nat) (pack : Bool) :
    bridgeKept (formCells s h st n flit pack) = bridgeKept s := by
  unfold formCells
  split <;> rfl

@[simp] theorem originate_bridge (s : State) (h : Half) (st : Nat) (m : Msg) : bridgeKept (originate s h st m) = bridgeKept s := by
  simp [originate, newMsg]

@[simp] theorem originateStamped_bridge (s : State) (h : Half) (st : Nat) (m : Msg) :
    bridgeKept (originateStamped s h st m) = bridgeKept s := by
  simp only [originateStamped, originate_bridge, stampMsg]
  split
  · rfl
  · split
    · rfl
    · split <;> rfl

@[simp] theorem toCatalogue_bridge (s : State) (h : Half) (m : Msg) : bridgeKept (toCatalogue s h m) = bridgeKept s := rfl

theorem takeItag_bridge {s u : State} {h : Half} {own : IOwner} {t e : Nat} {gen : Option Nat} {io out : Bool}
    (hk : takeItag s h own t gen io out = some (e, u)) : bridgeKept u = bridgeKept s := by
  unfold takeItag at hk
  dsimp only at hk
  split at hk
  · cases hk
  · cases hk
    rfl

@[simp] theorem aerMsg_bridge (s : State) (t v kind : Nat) (m : Msg) : bridgeKept (aerMsg s t v kind m) = bridgeKept s := by
  have hput : ∀ (s : State) t v off x, bridgeKept (cfgPut s t v off x) = bridgeKept s := fun _ _ _ _ _ => rfl
  have hhdr : ∀ (s : State) hdr, bridgeKept (aerHeader s t v hdr) = bridgeKept s := fun s hdr =>
    foldl_bridge (fun _ _ => hput _ _ _ _ _) _ s
  simp [aerMsg, aerLog, hput, hhdr]

@[simp] theorem synthEnd_bridge (s : State) (m : Msg) (dl : Nat) : bridgeKept (synthEnd s m dl) = bridgeKept s := by
  have hsend := foldl_bridge (f := fun s e => sendRsp s m e.1 e.2 dl) (fun _ _ => rfl) (synthOf m) s
  simp [synthEnd, hsend]

@[simp] theorem synthReport_bridge (s : State) (m : Msg) (dl : Nat) : bridgeKept (synthReport s m dl) = bridgeKept s := by
  simp [synthReport]

@[simp] theorem postedGone_bridge (s : State) (m : Msg) : bridgeKept (postedGone s m) = bridgeKept s := by
  unfold postedGone
  split <;> rfl

/-! ### The Catalogue (R229-R252) -/

@[simp] theorem catStat_bridge (s : State) (h : Half) : bridgeKept (catStat s h) = bridgeKept s := by simp [catStat]

@[simp] theorem mirrorWrite_bridge (s : State) (h : Half) (i : Nat) (e : Option CatEnt) :
    bridgeKept (mirrorWrite s h i e) = bridgeKept s := by
  simp [mirrorWrite, recordRegions]

@[simp] theorem putEnt_bridge (s : State) (h : Half) (i : Nat) (e : Option CatEnt) : bridgeKept (putEnt s h i e) = bridgeKept s := by
  simp [putEnt]

@[simp] theorem settleEnt_bridge (s : State) (h : Half) (i : Nat) (e : CatEnt) : bridgeKept (settleEnt s h i e) = bridgeKept s :=
  putEnt_bridge _ _ _ _

@[simp] theorem putTxn_bridge (s : State) (h : Half) (k : Nat) (t : Txn) : bridgeKept (putTxn s h k t) = bridgeKept s := by
  simp [putTxn]

@[simp] theorem dropTxn_bridge (s : State) (h : Half) (k : Nat) : bridgeKept (dropTxn s h k) = bridgeKept s := by simp [dropTxn]

@[simp] theorem catTick_bridge (s : State) (h : Half) : bridgeKept (catTick s h).2 = bridgeKept s := rfl

@[simp] theorem devRead_bridge (s : State) (h : Half) (k : Nat) (m : Msg) (op : Op) :
    bridgeKept (devRead s h k m op) = bridgeKept s := originate_bridge _ _ _ _

@[simp] theorem ownWrite_bridge (s : State) (h : Half) (k data : Nat) (bad : Bool) (use : WrUse) :
    bridgeKept (ownWrite s h k data bad use) = bridgeKept s := by
  simp [ownWrite, devWrite]

@[simp] theorem slotOut_bridge (s : State) (h : Half) (k : Nat) : bridgeKept (slotOut s h k) = bridgeKept s := by
  unfold slotOut
  split <;> simp

@[simp] theorem slotFill_bridge (s : State) (h : Half) (k way data : Nat) (psn : Bool) :
    bridgeKept (slotFill s h k way data psn) = bridgeKept s := by
  unfold slotFill entSlot
  split <;> simp [slotPut]

@[simp] theorem doWrite_bridge (s : State) (h : Half) (k : Nat) (t : Txn) (m : Msg) : bridgeKept (doWrite s h k t m) = bridgeKept s := by
  unfold doWrite
  dsimp only
  split
  · split <;> simp [mergeWrite]
  · simp

@[simp] theorem getData_bridge (s : State) (h : Half) (k : Nat) (t : Txn) (m : Msg) : bridgeKept (getData s h k t m) = bridgeKept s := by
  unfold getData
  split <;> simp [slotUse]

@[simp] theorem catRespond_bridge (s : State) (h : Half) (m : Msg) (grant : Hold) (data : Nat) (poison : Bool) (load : Nat)
    (ok : Bool) : bridgeKept (catRespond s h m grant data poison load ok) = bridgeKept s := by
  unfold catRespond
  dsimp only
  split
  · split <;> simp [freeItagEnt]
  · split <;> simp

@[simp] theorem finishReq_bridge (s : State) (h : Half) (k : Nat) (t : Txn) (m : Msg) :
    bridgeKept (finishReq s h k t m) = bridgeKept s := by
  have hdraw : ∀ (c : Prop) [Decidable c] (n : Nat), bridgeKept (if c then s.draw else (n, s)).2 = bridgeKept s := fun c _ n => by
    split <;> rfl
  unfold finishReq
  dsimp only
  split
  · simp [hdraw]
  · simp only [catRespond_bridge, dropTxn_bridge]
    split <;> simp [hdraw]

@[simp] theorem reserveWay_bridge (s : State) (h : Half) (k set : Nat) : bridgeKept (reserveWay s h k set) = bridgeKept s := by
  unfold reserveWay
  split <;> simp

@[simp] theorem waitPool_bridge (s : State) (h : Half) (m : Msg) (front : Bool) : bridgeKept (waitPool s h m front) = bridgeKept s := by
  have hrise : bridgeKept (waitRise s h m) = bridgeKept s := by
    unfold waitRise
    dsimp only
    split
    · rfl
    · split
      · rfl
      · exact foldl_bridge (fun s x => by simp) _ _
  simp [waitPool, newMsg, hrise]

@[simp] theorem finishCap_bridge (s : State) (h : Half) (k : Nat) (t : Txn) : bridgeKept (finishCap s h k t) = bridgeKept s := by
  unfold finishCap
  extract_lets u1 u2
  have hfreed : bridgeKept u1 = bridgeKept s := by
    unfold u1
    split <;> simp
  have hdropped : bridgeKept u2 = bridgeKept s := (dropTxn_bridge u1 h k).trans hfreed
  clear_value u2
  split
  · rw [waitPool_bridge]
    split <;> simp [hdropped]
  · exact hdropped

@[simp] theorem finishOwn_bridge (s : State) (h : Half) (k : Nat) : bridgeKept (finishOwn s h k) = bridgeKept s := by
  unfold finishOwn
  dsimp only
  rw [dropTxn_bridge]
  split <;> simp

@[simp] theorem finishTxn_bridge (s : State) (h : Half) (k : Nat) (t : Txn) : bridgeKept (finishTxn s h k t) = bridgeKept s := by
  unfold finishTxn
  split <;> simp

@[simp] theorem stageStep_bridge (s : State) (h : Half) (k : Nat) (t : Txn) : bridgeKept (stageStep s h k t) = bridgeKept s := by
  unfold stageStep
  split
  case h_1 | h_2 => rfl
  case h_3 | h_4 => split <;> simp
  case h_5 | h_6 => simp

@[simp] theorem catAdvance_bridge (s : State) (h : Half) (k : Nat) : bridgeKept (catAdvance s h k) = bridgeKept s :=
  foldl_bridge (fun s x => by split <;> simp) _ s

@[simp] theorem devAnswer_bridge (s : State) (h : Half) (k load data : Nat) (bad : Bool) :
    bridgeKept (devAnswer s h k load data bad) = bridgeKept s := by
  unfold devAnswer
  split <;> simp

@[simp] theorem devLost_bridge (s : State) (h : Half) (k : Nat) : bridgeKept (devLost s h k) = bridgeKept s := by
  unfold devLost
  split
  · rfl
  · split <;> simp

@[simp] theorem poisonLine_bridge (s : State) (h : Half) (k : Nat) : bridgeKept (poisonLine s h k) = bridgeKept s := by
  unfold poisonLine
  dsimp only
  split
  · simp
  · split
    · simp
    · split <;> simp

@[simp] theorem lostHolder_bridge (s : State) (h : Half) (k t : Nat) : bridgeKept (lostHolder s h k t) = bridgeKept s := by
  have hdrop : bridgeKept (dropHolder s h k t) = bridgeKept s := by
    unfold dropHolder
    split <;> simp
  unfold lostHolder
  dsimp only
  split
  · rfl
  · split <;> simp [hdrop]

@[simp] theorem snoopFlushed_bridge (s : State) (h : Half) (k t : Nat) : bridgeKept (snoopFlushed s h k t) = bridgeKept s := by
  simp [snoopFlushed]

@[simp] theorem snoopTimedOut_bridge (s : State) (h : Half) (k t : Nat) : bridgeKept (snoopTimedOut s h k t) = bridgeKept s := by
  simp [snoopTimedOut]

@[simp] theorem catLost_bridge (s : State) (m : Msg) : bridgeKept (catLost s m) = bridgeKept s := by
  unfold catLost
  dsimp only
  split
  · split <;> simp
  · simp

/-! ### Service functions: copies, queues and images (R353-R377) -/

@[simp] theorem meterMsg_bridge (s : State) (t fn b : Nat) (again : Bool) : bridgeKept (meterMsg s t fn b again).2 = bridgeKept s := by
  have hpool : fnPool s t fn < 2 ^ 12 := Nat.mod_lt _ (by decide)
  unfold meterMsg
  split
  · rfl
  · simp [countColour, colourCount_apart _ hpool]

@[simp] theorem modDesc_bridge (s : State) (t fn i : Nat) (f : Desc → Desc) : bridgeKept (modDesc s t fn i f) = bridgeKept s := rfl

@[simp] theorem modMig_bridge (s : State) (t : Nat) (f : Mig → Mig) : bridgeKept (modMig s t f) = bridgeKept s := rfl

theorem formPart_bridge (s : State) (t fn i off : Nat) (g : CopySeg) (data : Option Nat) (again : Bool) :
    bridgeKept (formPart s t fn i off g data again).state = bridgeKept s := by
  unfold formPart
  extract_lets h wr p addr pc r u
  have hmeter : bridgeKept u = bridgeKept s := meterMsg_bridge s t fn (g.len + 16) again
  clear_value p r
  split
  · exact hmeter
  · split
    · simp [Formed.state, hmeter]
    · split
      · simp [Formed.state, hmeter]
      · split
        · exact hmeter
        · split
          · exact hmeter
          · split
            · exact hmeter
            · next hk => simp [Formed.state, hmeter, takeItag_bridge hk]

theorem pumpParts_bridge (t fn i : Nat) (l : List (Nat × CopySeg × Option Nat)) :
    ∀ (s : State) (red : Bool), bridgeKept (pumpParts s t fn i red l) = bridgeKept s := by
  induction l with
  | nil => exact fun _ _ => rfl
  | cons x r ih =>
    obtain ⟨off, g, data⟩ := x
    intro s red
    have hform := formPart_bridge s t fn i off g data red
    unfold pumpParts
    split
    · next heq => rw [heq] at hform; exact hform
    · next heq => rw [heq] at hform; exact hform
    · next heq => rw [heq] at hform; exact (ih _ _).trans hform

@[simp] theorem pumpDesc_bridge (s : State) (t fn i : Nat) : bridgeKept (pumpDesc s t fn i) = bridgeKept s := by
  unfold pumpDesc
  split
  · rfl
  · simp [pumpParts_bridge]

@[simp] theorem msixSend_bridge (s : State) (t fn v : Nat) : bridgeKept (msixSend s t fn v) = bridgeKept s := by
  have hhost : ∀ op fn addr len data, bridgeKept (toHost s t op fn addr len data) = bridgeKept s := fun op fn addr len data => by
    unfold toHost
    dsimp only
    split
    · rfl
    · exact originateStamped_bridge _ _ _ _
  simp [msixSend, hhost]

@[simp] theorem qLevel_bridge (s : State) (t fn q : Nat) : bridgeKept (qLevel s t fn q) = bridgeKept s := by simp [qLevel]

@[simp] theorem qAppend_bridge (s : State) (t fn q : Nat) (l : List Nat) : bridgeKept (qAppend s t fn q l) = bridgeKept s :=
  foldl_bridge (fun s x => by simp) _ s

@[simp] theorem flushCq_bridge (s : State) (t fn : Nat) : bridgeKept (flushCq s t fn) = bridgeKept s := by
  refine foldl_bridge (fun s x => ?_) _ s
  dsimp only
  split
  · rfl
  · simp

@[simp] theorem copyRead_bridge (s : State) (t fn i off : Nat) (ok poison : Bool) (data : Nat) :
    bridgeKept (copyRead s t fn i off ok poison data) = bridgeKept s := by
  simp [copyRead]

theorem imageLine_bridge (s : State) (t i : Nat) (data : Option Nat) : bridgeKept (imageLine s t i data).2 = bridgeKept s := by
  unfold imageLine
  dsimp only
  split
  · simp
  · split
    · rfl
    · split
      · rfl
      · next hk => simp [takeItag_bridge hk]

@[simp] theorem imageRead_bridge (s : State) (t i : Nat) (ok : Bool) (data : Nat) : bridgeKept (imageRead s t i ok data) = bridgeKept s := by
  have hpump : ∀ s, bridgeKept (pumpMig s t) = bridgeKept s := fun s => by
    unfold pumpMig
    split
    · rfl
    · exact foldl_bridge (fun s x => by simp [imageLine_bridge]) _ _
  unfold imageRead
  split
  · rfl
  · simp [hpump]

/-! ### Messages that end, and queues without them (R162) -/

@[simp] theorem internalLost_bridge (s : State) (e : Nat) : bridgeKept (internalLost s e) = bridgeKept s := by
  have hflight : ∀ (s : State) (x : ITag), bridgeKept (itagFlight s x) = bridgeKept s := fun s x => by
    unfold itagFlight
    split <;> simp
  have howner : ∀ (s : State) (x : ITag), bridgeKept (ownerLost s x) = bridgeKept s := fun s x => by
    unfold ownerLost
    split <;> simp [copyError, copyLeft, idonePut]
  unfold internalLost
  split
  · rfl
  · simp [hflight, howner, freeItagEnt]

@[simp] theorem passLost_bridge (s : State) (m : Msg) (e : Nat) : bridgeKept (passLost s m e) = bridgeKept s := by
  unfold passLost
  split
  · rfl
  · simp [passFree]

@[simp] theorem stkCopyOut_bridge (s : State) (d : Nat) (sent : Bool) (m : Msg) : bridgeKept (stkCopyOut s d sent m) = bridgeKept s := by
  unfold stkCopyOut
  dsimp only
  split
  · rfl
  · exact foldl_bridge (fun s x => by simp) _ _

@[simp] theorem endFlushed_bridge (s : State) (m : Msg) (dl : Nat) : bridgeKept (endFlushed s m dl) = bridgeKept s := by
  simp [endFlushed]

@[simp] theorem dfUse_bridge (s : State) (h : Half) (n : Nat) : bridgeKept (dfUse s h n) = bridgeKept s := by
  simp [dfUse, dfFullMark]

@[simp] theorem queuesDrop_bridge (s : State) (h : Half) (ids : List Nat) : bridgeKept (queuesDrop s h ids) = bridgeKept s := by
  simp [queuesDrop, unspill, modVoq, spilledStat, holdStat]

end Sys2Proof.Machine
end

section
/-! PROOFS. PHASE as both halves see it, and a rejoin's phases up to UP (R190, R191, R194). -/

namespace Sys2Proof.Machine

open Sys2Proof

/-! ### What a half keeps of the bridge -/

@[simp] theorem modCdb_cdb_same (s : State) (h : Half) (f : Cdb → Cdb) : (s.modCdb h f).cdb.get h = f (s.cdb.get h) :=
  pair_get_set_same _ _ _

@[simp] theorem modCdb_cdb_other (s : State) (h : Half) (f : Cdb → Cdb) : (s.modCdb h f).cdb.get h.other = s.cdb.get h.other :=
  pair_get_set_other _ _ _

@[simp] theorem modCdb_other_cdb (s : State) (h : Half) (f : Cdb → Cdb) : (s.modCdb h.other f).cdb.get h = s.cdb.get h :=
  pair_get_other_set _ _ _

/-- Where both halves change alike what they keep of the bridge, each has its change. -/
theorem modCdb_both_cdb (s : State) (f : Half → Cdb → Cdb) (h : Half) :
    ((s.modCdb .east (f .east)).modCdb .west (f .west)).cdb.get h = f h (s.cdb.get h) := by
  cases h <;> rfl

/-- A view of the bridge with what a half keeps of it changed. -/
def BridgeKept.onCdb (v : BridgeKept) (f : Cdb → Cdb) : BridgeKept := { v with cdb := f v.cdb }

/-- A change of what half h keeps that asks neither for regions nor for snoop copies shows in the view of half h alone. -/
theorem modCdb_bridge (s : State) (h : Half) {f : Cdb → Cdb}
    (hf : ∀ b, f { b with regions := [], resend := [] } = { f b with regions := [], resend := [] }) :
    bridgeKept (s.modCdb h f) = Function.update (bridgeKept s) h ((bridgeKept s h).onCdb f) := by
  funext k
  by_cases hk : k = h
  · subst hk
    rw [Function.update_self, BridgeKept.onCdb, bridgeKept, modCdb_cdb_same]
    simp only [bridgeKept, hf]
    rfl
  · rw [Function.update_of_ne hk]
    rw [half_eq_other hk]
    cases h <;> rfl

/-! ### PHASE (R191) -/

theorem grpsStat_bridge (s : State) (h : Half) : bridgeKept (grpsStat s h) = bridgeKept s := by
  refine foldl_keeps bridgeKept (fun s g hg => ?_) s
  have hg' := List.mem_range.mp hg
  refine fsets_bridge _ _ ?_
  revert g
  cases h <;> decide

theorem setPhase_bridge (s : State) {ph : Nat} (hph : ph < 16) (h : Half) :
    bridgeKept (setPhase s ph) h = { bridgeKept s h with phase := ph } := by
  unfold setPhase
  dsimp only
  rw [catStat_bridge, catStat_bridge, grpsStat_bridge, grpsStat_bridge, fsetPhase_bridge _ _ hph, fsetPhase_bridge _ _ hph]
  cases h <;> rfl

theorem setPhase_phase (s : State) {ph : Nat} (hph : ph < 16) (h : Half) : (setPhase s ph).phase h = ph :=
  congrArg BridgeKept.phase (setPhase_bridge s hph h)

theorem setPhase_attempt (s : State) {ph : Nat} (hph : ph < 16) (h : Half) :
    ((setPhase s ph).cdb.get h).attempt = (s.cdb.get h).attempt := congrArg (fun v => v.cdb.attempt) (setPhase_bridge s hph h)

/-! ### Groups run on the wires that trained (R182) -/

theorem mapAll_keeps {β : Type} (g : State → β) (hg : ∀ u h n x, g (putBgrp u h n x) = g u) (s : State) : g (mapAll s) = g s :=
  foldl_keeps g (fun _ _ _ => (hg _ _ _ _).trans (hg _ _ _ _)) s

theorem mapAll_phase (s : State) (h : Half) : (mapAll s).phase h = s.phase h :=
  mapAll_keeps (State.phase · h) (fun _ _ _ _ => rfl) s

theorem mapAll_attempt (s : State) (h : Half) : ((mapAll s).cdb.get h).attempt = (s.cdb.get h).attempt :=
  mapAll_keeps (fun s => (s.cdb.get h).attempt) (fun _ k _ _ => by cases h <;> cases k <;> rfl) s

/-! ### A rejoin (R190, R191, R194) -/

/-- REJOIN is write-only: a write of 1 leaves CDB_CTL's other fields, and none of the bits of no field. -/
theorem rejoinWord (v : Word) : (v ||| 4) &&& 0xFFFF3 = v &&& 0xFFFF3 := by
  rw [BitVec.and_or_distrib_right]
  simp

theorem exec_rejoinRequest {s : State} {m : Master} {h : Half} (hm : mayAct s m (CDB_CTL h)) :
    exec (.rejoinRequest m h) s
      = .next ((s.wr (CDB_CTL h) (s.rd (CDB_CTL h) &&& 0xFFFF3)).modCdb h fun b => { b with attemptReq := true }) := by
  have hbit : bitB (s.rd (CDB_CTL h) ||| 4).toNat 2 = true := by
    rw [bitB, BitVec.toNat_or, Nat.testBit_or, Bool.or_eq_true]
    exact Or.inr (by decide)
  show Host.Outcome.next (csGate s m (CDB_CTL h) _) = _
  rw [csGate_mayAct _ _ _ _ hm, cdbCtlWrite, if_pos hbit, rejoinWord]

/-- The state in which both halves have begun an attempt (R190). -/
theorem attemptStart_split {s : State} (hsplit : s.phase .east = phSPLIT) (h : Half) :
    (attemptStart s).regs = s.regs ∧ ((attemptStart s).cdb.get h).attempt = some (s.now h) := by
  unfold attemptStart
  rw [if_pos hsplit]
  exact ⟨rfl, congrArg Cdb.attempt
    (modCdb_both_cdb s (fun h b => { b with attempt := some (s.now h), attemptReq := false }) h)⟩

/-- An attempt that trains in time leads both halves into LOCK (R190, R191). -/
theorem exec_rejoinTrained {s : State} {t0 : Nat} (hat : (s.cdb.get .east).attempt = some t0) (hsplit : s.phase .east = phSPLIT)
    (htrains : bridgeTrains s = true) (hnow : s.now .east ≤ t0 + 15000) :
    ∃ t, exec .rejoinTrained s = .next t ∧ (t.phase .east = phLOCK ∧ t.phase .west = phLOCK)
      ∧ (t.cdb.get .east).attempt = none := by
  show ∃ t, execRejoinTrained s = .next t ∧ _
  unfold execRejoinTrained
  rw [hat]
  dsimp only
  rw [if_pos ⟨hsplit, htrains, hnow⟩]
  have hphase : ∀ u h, (mapAll (setPhase u phLOCK)).phase h = phLOCK := fun u h =>
    (mapAll_phase _ h).trans (setPhase_phase u (by decide) h)
  have hattempt : ∀ u, ((mapAll (setPhase u phLOCK)).cdb.get .east).attempt = (u.cdb.get .east).attempt := fun u =>
    (mapAll_attempt _ _).trans (setPhase_attempt u (by decide) .east)
  refine ⟨_, rfl, ⟨?_, ?_⟩, ?_⟩
  · rw [State.phase, State.modMrd_fget]
    exact hphase _ _
  · rw [State.phase, State.modMrd_fget]
    exact hphase _ _
  · rw [State.modMrd_cdb, hattempt]
    rfl

/-- LOCK ends when the Meridians are no more than 2 ns apart (R191). -/
theorem exec_rejoinLockDone {s : State} (hlock : s.phase .east = phLOCK) (hapart : merApart s ≤ 2 * nsU) (h : Half) :
    ∃ t, exec .rejoinLockDone s = .next t ∧ (t.phase .east = phSYNC ∧ t.phase .west = phSYNC)
      ∧ (t.cdb.get h).lockEnd = some (s.now h) := by
  have hend : ∀ u, ((setPhase u phSYNC).cdb.get h).lockEnd = (u.cdb.get h).lockEnd := fun u =>
    congrArg (fun v => v.cdb.lockEnd) (setPhase_bridge u (by decide) h)
  have hphase : ∀ u k, (setPhase u phSYNC).phase k = phSYNC := fun u k => setPhase_phase u (by decide) k
  refine ⟨_, if_pos ⟨hlock, hapart⟩, ⟨hphase _ _, hphase _ _⟩, (hend _).trans ?_⟩
  exact congrArg Cdb.lockEnd (modCdb_both_cdb s (fun h b => { b with lockEnd := some (s.now h) }) h)

theorem refOnly_cdb {s t : State} (h : refOnly s t) : t.cdb = s.cdb := by
  obtain ⟨-, hframe, -⟩ := h
  rw [hframe]

theorem refOnly_flagStat {s t : State} (h : refOnly s t) (k : Half) (f : Fld) :
    t.flag (CDB_STAT k) f = s.flag (CDB_STAT k) f := by
  rw [State.flag, State.flag, fget_of_rd_eq (refOnly_rd h (by cases k <;> decide) (by cases k <;> decide))]

/-- The mirror of a half whose recorded regions have been copied is protected (R194). -/
theorem exec_mirrorResyncDone {s : State} {h : Half} (hre : (s.cdb.get h).resync = true) :
    ∃ t, exec (.mirrorResyncDone h) s = .next t ∧ (t.cdb.get h).resync = false ∧ (t.cdb.get h).regions = []
      ∧ t.flag (CDB_STAT h) CDB_STAT_MIRROR_UNPROT = false := by
  show ∃ t, execMirrorResyncDone h s = .next t ∧ _
  unfold execMirrorResyncDone
  rw [if_neg (by simp [hre])]
  dsimp only
  split
  · have hraise := raise_evt_refOnly ((((mirrorCopy s h).modCdb h fun b => { b with resync := false, regions := [] })).fset
      (CDB_STAT h) CDB_STAT_MIRROR_UNPROT 0) h 9 5 0 0
    refine ⟨_, rfl, ?_, ?_, ?_⟩
    · rw [refOnly_cdb hraise, State.fset_cdb, modCdb_cdb_same]
    · rw [refOnly_cdb hraise, State.fset_cdb, modCdb_cdb_same]
    · rw [refOnly_flagStat hraise, State.flag, fget_fset_same _ _ _ _ (by decide)]
      rfl
  · next hflag =>
    exact ⟨_, rfl, by rw [modCdb_cdb_same], by rw [modCdb_cdb_same], by simpa using hflag⟩

/-- Settles O33, phase by phase. -/
theorem rejoinSteps : Obligations.RejoinSteps := by
  intro s m h t0 both
  refine ⟨fun hm => ?_, fun htn hauto hsplit => ?_, fun htn => ?_, fun hat hsplit htrains hnow => ?_, fun hlock hapart => ?_,
    fun hrec he hw => ?_, exec_mirrorResyncDone⟩
  · refine ⟨_, exec_rejoinRequest hm, by rw [modCdb_cdb_same], ?_, fun a ha => ?_⟩
    · rw [State.modCdb_rd, rd_wr_same]
    · rw [State.modCdb_rd, rd_wr_ne _ _ ha]
  · have hstart := attemptStart_split hsplit
    exact ⟨_, if_pos ⟨htn, hauto⟩, (hstart .east).1, (hstart .east).2, (hstart .west).2⟩
  · exact if_neg fun hc => htn hc.1
  · exact exec_rejoinTrained hat hsplit htrains hnow
  · exact exec_rejoinLockDone hlock hapart h
  · exact ⟨_, if_pos ⟨hrec, he, hw⟩, rfl, rfl, rfl⟩

end Sys2Proof.Machine
end

section
/-! PROOFS. The bridge goes down, trains again or splits, and crossing entries leave quarantine (R180-R182, R186). -/

namespace Sys2Proof.Machine

open Sys2Proof

/-! ### Crossing entries (R180, R181) -/

/-- In a table in canonical form, what an insertion leaves stands at another key. -/
theorem mem_minsert_wf {α : Type} {m : SMap α} {k : Nat} {x : α} (hw : SMap.wf m = true) {e : Nat × α} (he : e ∈ minsert m k x) :
    e = (k, x) ∨ (e ∈ m ∧ e.1 ≠ k) := by
  induction m with
  | nil => exact Or.inl (List.mem_singleton.mp he)
  | cons a r ih =>
    obtain ⟨i, y⟩ := a
    obtain ⟨hlt, hr⟩ := wf_cons.mp hw
    unfold minsert at he
    split at he
    · next hki =>
      obtain rfl | hmem := List.mem_cons.mp he
      · exact Or.inl rfl
      · refine Or.inr ⟨hmem, ?_⟩
        obtain rfl | hmem := List.mem_cons.mp hmem
        · show i ≠ k
          omega
        · have := hlt e hmem
          omega
    · split at he
      · next hki =>
        obtain rfl | hmem := List.mem_cons.mp he
        · exact Or.inl rfl
        · have := hlt e hmem
          exact Or.inr ⟨List.mem_cons_of_mem _ hmem, by omega⟩
      · next hki =>
        obtain rfl | hmem := List.mem_cons.mp he
        · exact Or.inr ⟨List.mem_cons_self, fun h => hki h.symm⟩
        · exact (ih hr hmem).imp_right fun ⟨h1, h2⟩ => ⟨List.mem_cons_of_mem _ h1, h2⟩

/-- What is left of a table of which some entries are taken away and none changes. -/
theorem mem_mmapOpt_keep {α : Type} {m : SMap α} {f : Nat → α → Option α} (hf : ∀ k x, f k x = none ∨ f k x = some x)
    (e : Nat × α) : e ∈ mmapOpt m f ↔ e ∈ m ∧ f e.1 e.2 = some e.2 := by
  induction m with
  | nil => simp [mmapOpt]
  | cons a r ih =>
    obtain ⟨k, y⟩ := a
    obtain hy | hy := hf k y
    · simp only [mmapOpt, hy, ih, List.mem_cons, or_and_right, iff_or_self]
      rintro ⟨rfl, hsome⟩
      exact absurd (hy.symm.trans hsome) (by simp)
    · simp only [mmapOpt, hy, ih, List.mem_cons, or_and_right]
      exact or_congr_left ⟨fun he => ⟨he, by rw [he]; exact hy⟩, And.left⟩

/-- A live crossing entry ends: its requester is answered, and its number waits in quarantine (R180, R181). -/
def crossEnded (h : Half) (s : State) (e : Nat × CrossEnt) : State :=
  let s := synthReport s e.2.m (levelOf s e.2.m)
  let s := s.fbump (CDB_ERRCNT2 h) CDB_ERRCNT2_XEND_CNT 1
  s.modCdb h fun b => { b with cross := minsert b.cross e.1 { e.2 with quar := some (s.now h) } }

theorem crossEnded_bridge (h : Half) (s : State) (e : Nat × CrossEnt) : bridgeKept (crossEnded h s e)
    = Function.update (bridgeKept s) h ((bridgeKept s h).onCdb fun b =>
        { b with cross := minsert b.cross e.1 { e.2 with quar := some (s.now h) } }) := by
  have hbefore : bridgeKept ((synthReport s e.2.m (levelOf s e.2.m)).fbump (CDB_ERRCNT2 h) CDB_ERRCNT2_XEND_CNT 1)
      = bridgeKept s := by simp
  unfold crossEnded
  dsimp only
  rw [modCdb_bridge _ _ fun _ => rfl, hbefore, kept_now hbefore]

/-- Of the entries that end one after another, none is live at last; no other part of the bridge follows them. -/
theorem crossEnded_foldl (h : Half) (l : List (Nat × CrossEnt)) (s : State) :
    ∃ x, bridgeKept (l.foldl (crossEnded h) s)
        = Function.update (bridgeKept s) h ((bridgeKept s h).onCdb fun b => { b with cross := x })
      ∧ (SMap.wf (s.cdb.get h).cross = true → (∀ e ∈ (s.cdb.get h).cross, e.2.quar = none → e ∈ l) →
          ∀ e ∈ x, e.2.quar ≠ none) := by
  induction l generalizing s with
  | nil =>
    refine ⟨(s.cdb.get h).cross, (Function.update_eq_self h (bridgeKept s)).symm, fun _ hlive e he hq => ?_⟩
    exact absurd (hlive e he hq) List.not_mem_nil
  | cons e r ih =>
    have hstep := crossEnded_bridge h s e
    have hcross : ((crossEnded h s e).cdb.get h).cross
        = minsert (s.cdb.get h).cross e.1 { e.2 with quar := some (s.now h) } := by
      have hview := congrFun hstep h
      rw [Function.update_self] at hview
      exact congrArg (fun v => v.cdb.cross) hview
    obtain ⟨x, hx, hquar⟩ := ih (crossEnded h s e)
    refine ⟨x, ?_, fun hw hlive => hquar (hcross ▸ minsert_wf _ _ _ hw) fun e' he' hq => ?_⟩
    · rw [List.foldl_cons, hx, hstep, Function.update_idem, Function.update_self]
      rfl
    · rw [hcross] at he'
      obtain rfl | ⟨hmem, hne⟩ := mem_minsert_wf hw he'
      · cases hq
      · obtain rfl | hr := List.mem_cons.mp (hlive e' hmem hq)
        · exact absurd rfl hne
        · exact hr

/-- Every live crossing entry of a half ends, and no other part of its bridge follows them. -/
theorem crossEnd_bridge (s : State) (h : Half) :
    ∃ x, bridgeKept (crossEnd s h) = Function.update (bridgeKept s) h ((bridgeKept s h).onCdb fun b => { b with cross := x })
      ∧ (SMap.wf (s.cdb.get h).cross = true → ∀ e ∈ x, e.2.quar ≠ none) := by
  obtain ⟨x, hx, hquar⟩ := crossEnded_foldl h ((s.cdb.get h).cross.filter fun e => e.2.quar.isNone) s
  exact ⟨x, hx, fun hw => hquar hw fun e he hq => List.mem_filter.mpr ⟨he, by rw [hq]; rfl⟩⟩

/-! ### The bridge goes down (R180, R182) -/

@[simp] theorem mirrorLeft_bridge (s : State) (h : Half) : bridgeKept (mirrorLeft s h) = bridgeKept s := by
  simp [mirrorLeft, recordRegions]

@[simp] theorem bridgeDrop_bridge (s : State) (h : Half) (m : Msg) : bridgeKept (bridgeDrop s h m) = bridgeKept s := by
  simp [bridgeDrop]

/-- What a half keeps of a bridge that has gone down at an instant: no group, no SEQ, no XOFF and no cell that is arriving. -/
def downCdb (at_ : Nat) (b : Cdb) : Cdb :=
  { b with grps := [], rxSeq := [], xoffRx := [], xoffTx := [], part := [], naking := [], downAt := some at_ }

/-- A half that goes down: its groups are empty and its crossing entries end, and the other half's stay as they are. -/
theorem downHalf_bridge (s : State) (h : Half) (ids : List Nat) :
    ∃ x, bridgeKept (downHalf s h ids)
        = Function.update (bridgeKept s) h ((bridgeKept s h).onCdb fun b => { downCdb (s.now h) b with cross := x })
      ∧ (SMap.wf (s.cdb.get h).cross = true → ∀ e ∈ x, e.2.quar ≠ none) := by
  unfold downHalf
  extract_lets ms f u1 u2 u3 u4
  have hu1 : bridgeKept u1 = Function.update (bridgeKept s) h ((bridgeKept s h).onCdb (downCdb (s.now h))) :=
    (mirrorLeft_bridge _ _).trans (modCdb_bridge s h fun _ => rfl)
  have hdropped : bridgeKept (ms.foldl (fun s m => bridgeDrop s h m) u2) = bridgeKept u1 :=
    (foldl_bridge (fun s m => bridgeDrop_bridge s h m) ms u2).trans (queuesDrop_bridge u1 h.other ids)
  obtain ⟨x, hx, hquar⟩ := crossEnd_bridge (ms.foldl (fun s m => bridgeDrop s h m) u2) h
  have hcross : ((ms.foldl (fun s m => bridgeDrop s h m) u2).cdb.get h).cross = (s.cdb.get h).cross := by
    rw [kept_cross hdropped h]
    have hview := congrFun hu1 h
    rw [Function.update_self] at hview
    exact congrArg (fun v => v.cdb.cross) hview
  refine ⟨x, ?_, fun hw => hquar (hcross ▸ hw)⟩
  have hraised : bridgeKept (raise u4 h (evt 9 2 0 0)) = bridgeKept u3 :=
    (raise_bridge _ _ _ _ _ _).trans ((fsetStat_bridge _ _ _ (by decide)).trans (fbump_bridge _ _ _ (by simp)))
  rw [hraised]
  refine hx.trans ?_
  rw [hdropped, hu1, Function.update_idem, Function.update_self]
  rfl

@[simp] theorem modCdb_phase (s : State) (h : Half) (f : Cdb → Cdb) (k : Half) : (s.modCdb h f).phase k = s.phase k := rfl

/-- No attempt, no LOCK, no UP to come and no copy of regions outlasts the phase that is left. -/
def phaseLeft (b : Cdb) : Cdb := { b with attempt := none, lockEnd := none, upNext := false, resync := false }

/-- The state in which the halves have left UP, before either drops what has not crossed. -/
def leftUp (s : State) : State := ((setPhase s phRETRAIN).modCdb .east phaseLeft).modCdb .west phaseLeft

theorem leftUp_phase (s : State) (h : Half) : (leftUp s).phase h = phRETRAIN := by
  rw [leftUp, modCdb_phase, modCdb_phase, setPhase_phase s (by decide)]

theorem leftUp_cross (s : State) (h : Half) : ((leftUp s).cdb.get h).cross = (s.cdb.get h).cross := by
  rw [leftUp, modCdb_both_cdb _ fun _ => phaseLeft]
  exact congrArg (fun v => v.cdb.cross) (setPhase_bridge s (ph := phRETRAIN) (by decide) h)

theorem bridgeDown_of_up {s : State} (hup : s.phase .east = phUP) : bridgeDown s
    = downHalf (downHalf (leftUp s) .east (bridgeMsgs (setPhase s phRETRAIN) .east)) .west
        (bridgeMsgs (setPhase s phRETRAIN) .west) := by
  unfold bridgeDown
  dsimp only
  rw [hup, if_neg (by decide), if_pos rfl, if_pos rfl]
  rfl

/-- The bridge goes down from UP: both halves retrain, nothing stays in their groups, and every crossing entry ends (R180). -/
theorem bridgeDown_up {s : State} (hup : s.phase .east = phUP) (h : Half) :
    (bridgeDown s).phase h = phRETRAIN ∧ ((bridgeDown s).cdb.get h).grps = []
      ∧ (SMap.wf (s.cdb.get h).cross = true → ∀ e ∈ ((bridgeDown s).cdb.get h).cross, e.2.quar ≠ none) := by
  rw [bridgeDown_of_up hup]
  generalize bridgeMsgs (setPhase s phRETRAIN) .east = ids
  generalize bridgeMsgs (setPhase s phRETRAIN) .west = ids'
  rw [← leftUp_cross s h, ← leftUp_phase s h]
  generalize leftUp s = u
  obtain ⟨x, hx, hquar⟩ := downHalf_bridge u .east ids
  obtain ⟨y, hy, hquar'⟩ := downHalf_bridge (downHalf u .east ids) .west ids'
  have hother : bridgeKept (downHalf u .east ids) .west = bridgeKept u .west := congrFun hx .west
  cases h with
  | east =>
    have hview := (congrFun hy .east).trans (congrFun hx .east)
    refine ⟨congrArg BridgeKept.phase hview, congrArg (fun v => v.cdb.grps) hview, fun hw => ?_⟩
    have hcross : ((downHalf (downHalf u .east ids) .west ids').cdb.get .east).cross = x :=
      congrArg (fun v => v.cdb.cross) hview
    exact hcross ▸ hquar hw
  | west =>
    have hview := congrFun hy .west
    rw [Function.update_self, hother] at hview
    refine ⟨congrArg BridgeKept.phase hview, congrArg (fun v => v.cdb.grps) hview, fun hw => ?_⟩
    have hbefore : ((downHalf u .east ids).cdb.get .west).cross = (u.cdb.get .west).cross :=
      congrArg (fun v => v.cdb.cross) hother
    have hcross : ((downHalf (downHalf u .east ids) .west ids').cdb.get .west).cross = y :=
      congrArg (fun v => v.cdb.cross) hview
    exact hcross ▸ hquar' (hbefore ▸ hw)

/-! ### The bridge trains again in time (R182, R253) -/

theorem resendAll_bridge (s : State) (h : Half) : bridgeKept (resendAll s h) = bridgeKept s := by
  unfold resendAll
  refine (foldl_bridge (fun s e => ?_) _ _).trans (modCdb_resend_bridge s h fun _ => [])
  unfold resendSnoop
  split <;> simp

theorem exec_bridgeRetrained {s : State} (hph : s.phase .east = phRETRAIN) (htrains : bridgeTrains s = true)
    (hnow : s.now .east ≤ (s.cdb.get .east).downAt.getD 0 + 15000) (h : Half) :
    ∃ t, exec .bridgeRetrained s = .next t ∧ (t.phase .east = phUP ∧ t.phase .west = phUP) ∧ (t.cdb.get h).downAt = none := by
  have hphase : ∀ k, (mapAll (setPhase s phUP)).phase k = phUP := fun k =>
    (mapAll_phase _ k).trans (setPhase_phase s (by decide) k)
  refine ⟨_, if_pos ⟨hph, htrains, hnow⟩, ⟨?_, ?_⟩, ?_⟩
  · rw [kept_phase (resendAll_bridge _ _), kept_phase (resendAll_bridge _ _), modCdb_phase, modCdb_phase, hphase]
  · rw [kept_phase (resendAll_bridge _ _), kept_phase (resendAll_bridge _ _), modCdb_phase, modCdb_phase, hphase]
  · rw [kept_downAt (resendAll_bridge _ _), kept_downAt (resendAll_bridge _ _)]
    cases h <;> rfl

/-! ### The split (R182, R184-R186, R188) -/

@[simp] theorem dropMsg_bridge (s : State) (n : Nat) : bridgeKept (dropMsg s n) = bridgeKept s := rfl

@[simp] theorem mcCut_bridge (s : State) (h : Half) (n : Nat) : bridgeKept (mcCut s h n) = bridgeKept s := by
  unfold mcCut
  split <;> simp

@[simp] theorem farCut_bridge (s : State) (h : Half) : bridgeKept (farCut s h) = bridgeKept s := by
  refine (foldl_bridge (fun s m => ?_) _ _).trans ?_
  · simp
  · simp

@[simp] theorem badLine_bridge (s : State) (h : Half) (m : Msg) (kind : CatKind) : bridgeKept (badLine s h m kind) = bridgeKept s := by
  simp [badLine]

@[simp] theorem snoopAbandon_bridge (s : State) (h : Half) (k : Nat) : bridgeKept (snoopAbandon s h k) = bridgeKept s := by
  unfold snoopAbandon
  dsimp only
  split
  · rfl
  · split
    · split <;> simp [abandonAnswer, snoopTagsEnd]
    · rfl

@[simp] theorem splitCut_bridge (s : State) (h : Half) : bridgeKept (splitCut s h) = bridgeKept s := by
  simp [splitCut, abandonAll]

@[simp] theorem mirrorUnprot_bridge (s : State) (h : Half) : bridgeKept (mirrorUnprot s h) = bridgeKept s := by
  unfold mirrorUnprot
  split
  · rfl
  · rw [raise_bridge, fsetStat_bridge _ _ _ (by decide), mirrorLeft_bridge]

/-- A half that declares the split notes the time and whether it is Islanded; the other half's bridge stays as it is. -/
theorem splitHalf_bridge (s : State) (h : Half) : bridgeKept (splitHalf s h) = Function.update (bridgeKept s) h
    { bridgeKept s h with
      splitAt := s.now h, islanded := (s.auth h != h).toNat, cdb := { (bridgeKept s h).cdb with downAt := none } } := by
  unfold splitHalf
  extract_lets u1 u2 u3 u4
  have hu1 : bridgeKept u1 = Function.update (bridgeKept s) h { bridgeKept s h with splitAt := s.now h } :=
    splitAt_bridge s h (rd64_lt s _)
  have hauth : u1.auth h = s.auth h := by
    have hview := congrFun hu1 h
    rw [Function.update_self] at hview
    exact view_auth (congrArg BridgeKept.auth hview :)
  have hu2 : bridgeKept u2 = Function.update (bridgeKept s) h
      { bridgeKept s h with splitAt := s.now h, islanded := (s.auth h != h).toNat } := by
    rw [← hauth]
    refine (fsetIslanded_bridge u1 h _).trans ?_
    rw [hu1, Function.update_idem, Function.update_self]
  have hu4 : bridgeKept u4 = bridgeKept u2 := (mirrorUnprot_bridge _ _).trans ((raise_bridge _ _ _ _ _ _).trans
    (fsets_bridge _ _ (by simp)))
  rw [catStat_bridge, splitCut_bridge, modCdb_bridge _ _ fun _ => rfl, hu4, hu2, Function.update_idem, Function.update_self]
  rfl

/-- Both halves declare the split once 15 µs have passed since the bridge went down (R182). -/
theorem exec_splitDeclared {s : State} (hph : s.phase .east = phRETRAIN)
    (hnow : (s.cdb.get .east).downAt.getD 0 + 15000 ≤ s.now .east) (h : Half) :
    ∃ t, exec .splitDeclared s = .next t ∧ (t.phase .east = phSPLIT ∧ t.phase .west = phSPLIT)
      ∧ t.rd64 (CDB_SPLIT_AT_LO h) = s.now h ∧ t.flag (CDB_STAT h) CDB_STAT_ISLANDED = (s.auth h != h) := by
  refine ⟨_, if_pos ⟨hph, hnow⟩, ?_⟩
  have hbefore := setPhase_bridge s (ph := phSPLIT) (by decide)
  generalize setPhase s phSPLIT = u at hbefore
  have hnow' : ∀ k, u.now k = s.now k := fun k => congrArg BridgeKept.now (hbefore k)
  have hauth : ∀ k, u.auth k = s.auth k := fun k => view_auth (congrArg BridgeKept.auth (hbefore k) :)
  have hother : bridgeKept (splitHalf u .east) .west = bridgeKept u .west := congrFun (splitHalf_bridge u .east) .west
  have hview : ∀ k, bridgeKept (splitHalf (splitHalf u .east) .west) k = { bridgeKept s k with
      phase := phSPLIT, splitAt := s.now k, islanded := (s.auth k != k).toNat,
      cdb := { (bridgeKept s k).cdb with downAt := none } } := fun k => by
    rw [splitHalf_bridge]
    cases k with
    | east =>
      refine (congrFun (splitHalf_bridge u .east) .east).trans ?_
      rw [Function.update_self, hnow', hauth, hbefore]
    | west =>
      rw [Function.update_self, hother, view_auth (congrArg BridgeKept.auth hother),
        show (splitHalf u .east).now .west = u.now .west from congrArg BridgeKept.now hother, hnow', hauth, hbefore]
  exact ⟨⟨congrArg BridgeKept.phase (hview .east), congrArg BridgeKept.phase (hview .west)⟩,
    congrArg BridgeKept.splitAt (hview h), view_islanded (congrArg BridgeKept.islanded (hview h))⟩

/-! ### Quarantine (R181) -/

theorem exec_crossingQuarantineExpiry (s : State) (h : Half) :
    ∃ t, exec (.crossingQuarantineExpiry h) s = .next t ∧ t = { s with cdb := t.cdb }
      ∧ ∀ e, e ∈ (t.cdb.get h).cross ↔
          e ∈ (s.cdb.get h).cross ∧ ∀ q, e.2.quar = some q → boundaryNs s h < q + 2 * toNs (s.fget (CDB_CTL h) CDB_CTL_XQ) := by
  refine ⟨_, rfl, rfl, fun e => ?_⟩
  rw [modCdb_cdb_same]
  refine (mem_mmapOpt_keep (fun k x => ?_) e).trans (and_congr_right fun _ => ?_)
  · split
    · split <;> simp
    · simp
  · split
    · next q hq => simp [hq]
    · next hq => simp [hq]

/-- Settles O32, command by command. -/
theorem bridgeDownAndSplit : Obligations.BridgeDownAndSplit := by
  intro s h both at0 w
  refine ⟨fun hup he hw => ?_, fun hdown => ?_, fun hph htrains hnow => exec_bridgeRetrained hph htrains hnow h,
    fun hph hnow => ?_, exec_crossingQuarantineExpiry s h⟩
  · obtain ⟨-, hgrps, hquar⟩ := bridgeDown_up hup h
    refine ⟨_, rfl, ⟨(bridgeDown_up hup .east).1, (bridgeDown_up hup .west).1⟩, hgrps, hquar ?_⟩
    cases h
    · exact he
    · exact hw
  · exact congrArg Host.Outcome.next (if_pos hdown)
  · exact exec_splitDeclared hph hnow h

end Sys2Proof.Machine
end

section
/-! PROOFS. Flits of the bridge and their replay, wires that fail or return, and Doze (R166-R178). -/

namespace Sys2Proof.Machine

open Sys2Proof

/-! ### Transmit groups -/

@[simp] theorem bgrp_putBgrp_same (s : State) (h : Half) (g : Nat) (x : BGrp) : bgrp (putBgrp s h g x) h g = x := by
  rw [bgrp, putBgrp, modCdb_cdb_same, mfind_minsert_same]
  rfl

theorem bgrp_congr {s t : State} {h : Half} (hg : (t.cdb.get h).grps = (s.cdb.get h).grps) (g : Nat) : bgrp t h g = bgrp s h g := by
  rw [bgrp, hg, bgrp]

/-- t is s but for the transmit groups and the registers: what sending a flit or taking an ACK changes. -/
def grpsOnly (s t : State) : Prop :=
  t = { s with regs := t.regs, cdb := t.cdb } ∧ ∀ h, t.cdb.get h = { s.cdb.get h with grps := (t.cdb.get h).grps }

theorem grpsOnly_refl (s : State) : grpsOnly s s := ⟨rfl, fun _ => rfl⟩

theorem grpsOnly_trans {s t u : State} (h1 : grpsOnly s t) (h2 : grpsOnly t u) : grpsOnly s u := by
  obtain ⟨ht, hcdb⟩ := h1
  obtain ⟨hu, hcdb'⟩ := h2
  exact ⟨by rw [hu, ht], fun h => by rw [hcdb' h, hcdb h]⟩

theorem grpsOnly_wr (s : State) (a : Nat) (v : Word) : grpsOnly s (s.wr a v) := ⟨rfl, fun _ => rfl⟩

theorem grpsOnly_putBgrp (s : State) (h : Half) (g : Nat) (x : BGrp) : grpsOnly s (putBgrp s h g x) :=
  ⟨rfl, fun k => by cases h <;> cases k <;> rfl⟩

theorem grpsOnly_dozeLeave (s : State) (o : Half) (g : Nat) : grpsOnly s (dozeLeave s o g) := grpsOnly_wr _ _ _

/-- A transmitter that has something to send notes the instant. -/
theorem grpsOnly_notIdle (s : State) (o : Half) (g : Nat) (x : BGrp) : grpsOnly s (notIdle (putBgrp s o g x) o g) :=
  grpsOnly_trans (grpsOnly_putBgrp _ _ _ _) (grpsOnly_putBgrp _ _ _ _)

theorem grpsOnly_flitSend (s : State) (o : Half) (g : Nat) : grpsOnly s (flitSend s o g).2 := by
  have hstall : ∀ s, grpsOnly s (bridgeStall s o g) := fun s => by
    unfold bridgeStall
    dsimp only
    split
    · exact grpsOnly_refl s
    · exact grpsOnly_trans (grpsOnly_putBgrp _ _ _ _) (grpsOnly_wr _ _ _)
  have hleave := grpsOnly_dozeLeave s o g
  unfold flitSend
  dsimp only
  split
  · exact grpsOnly_refl s
  · split
    · exact grpsOnly_trans hleave (grpsOnly_notIdle _ _ _ _)
    · split
      · exact grpsOnly_trans hleave (hstall _)
      · split
        · exact hleave
        · exact grpsOnly_trans hleave (grpsOnly_notIdle _ _ _ _)

/-- A group after an ACK of SEQ a at an instant (R168). -/
def ackedGrp (x : BGrp) (now a : Nat) : BGrp :=
  let n := (x.replay.takeWhile fun f => decide ((a + 256 - f.seq) % 256 < 128)).length
  if n = 0 then x
  else { x with replay := x.replay.drop n, pos := x.pos - n, naks := 0, stalled := false, idle := now }

theorem grpsOnly_bridgeAck (s : State) (o : Half) (g a : Nat) : grpsOnly s (bridgeAck s o g a) := by
  unfold bridgeAck
  dsimp only
  split
  · exact grpsOnly_refl s
  · exact grpsOnly_notIdle _ _ _ _

theorem bgrp_bridgeAck (s : State) (o : Half) (g a : Nat) :
    bgrp (bridgeAck s o g a) o g = ackedGrp (bgrp s o g) (s.now o) a := by
  unfold bridgeAck ackedGrp
  dsimp only
  split
  · rfl
  · rw [notIdle, bgrp_putBgrp_same, bgrp_putBgrp_same]
    rfl

theorem bridgeAck_regs (s : State) (o : Half) (g a : Nat) : (bridgeAck s o g a).regs = s.regs := by
  unfold bridgeAck
  dsimp only
  split <;> rfl

/-! ### What a receiver has of the bridge (R167, R170, R175) -/

/-- What a flit may bring to a half, and what of it rests with what has come: the cells and messages, the last SEQ accepted, the
cells that are arriving, the crossing entries, and XOFF as the other half sends it. -/
structure Received where
  core : Pair Core
  net : Net
  rxSeq : SMap Nat
  part : SMap ((Nat × Cell) × Nat)
  cross : SMap CrossEnt
  xoffTx : List Nat

def received (s : State) (h : Half) : Received :=
  ⟨s.core, s.net, (s.cdb.get h).rxSeq, (s.cdb.get h).part, (s.cdb.get h).cross, (s.cdb.get h.other).xoffTx⟩

/-- A flit that delivers nothing leaves no cell, no message and no SEQ behind. -/
theorem received_nothing {s t : State} {h : Half} (hr : received t h = received s h) :
    t.core = s.core ∧ t.net = s.net ∧ (t.cdb.get h).rxSeq = (s.cdb.get h).rxSeq ∧ (t.cdb.get h).part = (s.cdb.get h).part :=
  ⟨congrArg Received.core hr, congrArg Received.net hr, congrArg Received.rxSeq hr, congrArg Received.part hr⟩

theorem received_grpsOnly {s t : State} (hst : grpsOnly s t) (h : Half) : received t h = received s h := by
  obtain ⟨ht, hcdb⟩ := hst
  have hcore : t.core = s.core := by rw [ht]
  have hnet : t.net = s.net := by rw [ht]
  simp only [received, hcore, hnet, congrArg Cdb.rxSeq (hcdb h), congrArg Cdb.part (hcdb h), congrArg Cdb.cross (hcdb h),
    congrArg Cdb.xoffTx (hcdb h.other)]

theorem received_wparNote (s : State) (h : Half) (g : Nat) (flips : List Nat) : received (wparNote s h g flips) h = received s h := by
  unfold wparNote
  split
  · rfl
  · cases h <;> rfl

theorem received_xoffTake (s : State) (h : Half) : received (xoffTake s h) h = received s h := by
  unfold xoffTake
  dsimp only
  split
  · rfl
  · cases h <;> rfl

theorem xoffTake_xoffRx (s : State) (h : Half) : ((xoffTake s h).cdb.get h).xoffRx = (s.cdb.get h.other).xoffTx := by
  unfold xoffTake
  dsimp only
  split
  · next he => exact he
  · rw [modCdb_cdb_same]

theorem received_xoffStat (s : State) (h : Half) : received (xoffStat s h) h = received s h := by
  unfold xoffStat
  dsimp only
  split
  · rfl
  · cases h <;> rfl

theorem xoffStat_xoffRx (s : State) (h : Half) : ((xoffStat s h).cdb.get h).xoffRx = (s.cdb.get h).xoffRx := by
  unfold xoffStat
  dsimp only
  split
  · rfl
  · rw [modCdb_cdb_same]

/-! ### A flit that is accepted (R167, R170) -/

/-- What of an arriving cell its admission at the bridge station leaves: its messages and its slots. -/
def arrived (e : Nat × Cell) : List Nat × Nat := (e.2.msgs, e.2.slots)

theorem crossBack_noCross {s : State} {h : Half} (hc : (s.cdb.get h).cross = []) (n : Nat) : crossBack s h n = s := by
  have hfind : ∀ m, crossFind s h m = none := fun m => by simp [crossFind, hc]
  unfold crossBack
  split
  · rfl
  · simp [hfind]

/-- Where no request of the half is across, an accepted flit brings its cells and its SEQ, and changes XOFF as seen no further. -/
theorem flitAccept_noCross {s : State} {h : Half} (hc : (s.cdb.get h).cross = []) (g : Nat) (f : BFlit) :
    mfind ((flitAccept s h g f).cdb.get h).rxSeq g = some f.seq
      ∧ ((flitAccept s h g f).cdb.get h).xoffRx = (s.cdb.get h).xoffRx
      ∧ mfind ((flitAccept s h g f).cdb.get h).part g = (bodyTake f.body (mfind (s.cdb.get h).part g)).1
      ∧ (lget ((flitAccept s h g f).core.get h).formed (16 + g)).map arrived
        = (lget (s.core.get h).formed (16 + g) ++ (bodyTake f.body (mfind (s.cdb.get h).part g)).2).map arrived := by
  unfold flitAccept
  extract_lets x cs u1 u2
  have hc2 : (u2.cdb.get h).cross = [] := by
    rw [modCdb_cdb_same]
    exact hc
  rw [foldl_fixed fun n _ => crossBack_noCross hc2 n]
  refine ⟨?_, ?_, ?_, ?_⟩
  · rw [modCdb_cdb_same]
    exact mfind_minsert_same _ _ _
  · rw [modCdb_cdb_same]
    rfl
  · rw [modCdb_cdb_same]
    dsimp only
    cases x.1 with
    | none => exact mfind_merase_same _ _
    | some p => exact mfind_minsert_same _ _ _
  · have hcells : cs.map arrived = x.2.map arrived := by
      rw [List.map_map]
      refine List.map_congr_left fun c _ => ?_
      dsimp only [Function.comp]
      split <;> rfl
    rw [State.modCdb_core, modCore_core_same, lget_lset_same, List.map_append, List.map_append, hcells]

/-! ### A flit is received (R166-R170) -/

/-- The state in which half h has checked the CRC of a flit, and that in which it has taken ACK and XOFF from one that passes. -/
def flitChecked (s : State) (h : Half) (g : Nat) (flips : List Nat) : State := wparNote (flitSend s h.other g).2 h g flips
def flitPassed (s : State) (h : Half) (g : Nat) (flips : List Nat) : State :=
  let u := flitChecked s h g flips
  xoffTake (bridgeAck u h g ((mfind (u.cdb.get h.other).rxSeq g).getD 255)) h

theorem received_flitChecked (s : State) (h : Half) (g : Nat) (flips : List Nat) :
    received (flitChecked s h g flips) h = received s h :=
  (received_wparNote _ _ _ _).trans (received_grpsOnly (grpsOnly_flitSend _ _ _) h)

theorem received_flitPassed (s : State) (h : Half) (g : Nat) (flips : List Nat) :
    received (flitPassed s h g flips) h = received s h :=
  (received_xoffTake _ _).trans ((received_grpsOnly (grpsOnly_bridgeAck _ _ _ _) h).trans (received_flitChecked s h g flips))

theorem flitPassed_xoffRx (s : State) (h : Half) (g : Nat) (flips : List Nat) :
    ((flitPassed s h g flips).cdb.get h).xoffRx = (s.cdb.get h.other).xoffTx :=
  (xoffTake_xoffRx _ _).trans (congrArg Received.xoffTx
    ((received_grpsOnly (grpsOnly_bridgeAck _ _ _ _) h).trans (received_flitChecked s h g flips)))

section

variable {s : State} {h : Half} {g : BitVec 3} {f : BFlit} {flips : List Nat}

theorem exec_flitNone (hw : grpWidth s h g.toNat ≠ 2) (hn : (flitSend s h.other g.toNat).1 = none) :
    exec (.bridgeFlitReceived h g flips) s = .next (flitSend s h.other g.toNat).2 := by
  show execBridgeFlitReceived h g flips s = _
  unfold execBridgeFlitReceived
  dsimp only
  rw [if_neg hw, hn]

variable (hw : grpWidth s h g.toNat ≠ 2) (hf : (flitSend s h.other g.toNat).1 = some f)
include hw hf

/-- A flit that fails its CRC calls for a NAK (R166, R168). -/
theorem exec_flitFailed (hcrc : crcPasses flips = false) : exec (.bridgeFlitReceived h g flips) s
    = .next (if ((flitChecked s h g.toNat flips).cdb.get h).naking.contains g.toNat then flitChecked s h g.toNat flips
        else (flitChecked s h g.toNat flips).modCdb h fun b => { b with naking := g.toNat :: b.naking }) := by
  show execBridgeFlitReceived h g flips s = _
  unfold execBridgeFlitReceived
  dsimp only
  rw [if_neg hw, hf]
  exact if_pos hcrc

/-- A flit that fails its CRC delivers nothing. -/
theorem flitFailed_naks (hcrc : crcPasses flips = false) : ∃ t, exec (.bridgeFlitReceived h g flips) s = .next t
    ∧ (t.core = s.core ∧ t.net = s.net ∧ (t.cdb.get h).rxSeq = (s.cdb.get h).rxSeq ∧ (t.cdb.get h).part = (s.cdb.get h).part)
    ∧ (t.cdb.get h).naking.contains g.toNat = true := by
  have hrec := received_flitChecked s h g.toNat flips
  refine ⟨_, exec_flitFailed hw hf hcrc, ?_⟩
  split
  · next hnaking => exact ⟨received_nothing hrec, hnaking⟩
  · refine ⟨received_nothing (Eq.trans ?_ hrec), ?_⟩
    · cases h <;> rfl
    · rw [modCdb_cdb_same]
      simp

theorem exec_flitPassed (hcrc : crcPasses flips = true) : exec (.bridgeFlitReceived h g flips) s
    = .next (xoffStat (if flitIdle f.body = false ∧ f.seq = ((mfind (s.cdb.get h).rxSeq g.toNat).getD 255 + 1) % 256 then
        flitAccept (flitPassed s h g.toNat flips) h g.toNat f else flitPassed s h g.toNat flips) h) := by
  have hseq : ((flitPassed s h g.toNat flips).cdb.get h).rxSeq = (s.cdb.get h).rxSeq :=
    congrArg Received.rxSeq (received_flitPassed s h g.toNat flips)
  show execBridgeFlitReceived h g flips s = _
  unfold execBridgeFlitReceived
  dsimp only
  rw [if_neg hw, hf]
  dsimp only
  rw [if_neg (by simp [hcrc])]
  rw [← hseq]
  exact (apply_ite (fun u => Host.Outcome.next (xoffStat u h)) _ _ _).symm

/-- A flit in turn brings its cells, its SEQ and XOFF, where no request of the half is across (R167, R170, R175). -/
theorem flitPassed_accepted (hcrc : crcPasses flips = true) (hbusy : flitIdle f.body = false)
    (hturn : f.seq = ((mfind (s.cdb.get h).rxSeq g.toNat).getD 255 + 1) % 256) (hcross : (s.cdb.get h).cross = []) :
    ∃ t, exec (.bridgeFlitReceived h g flips) s = .next t ∧ mfind (t.cdb.get h).rxSeq g.toNat = some f.seq
      ∧ (t.cdb.get h).xoffRx = (s.cdb.get h.other).xoffTx
      ∧ mfind (t.cdb.get h).part g.toNat = (bodyTake f.body (mfind (s.cdb.get h).part g.toNat)).1
      ∧ (lget (t.core.get h).formed (16 + g.toNat)).map arrived
        = (lget (s.core.get h).formed (16 + g.toNat) ++ (bodyTake f.body (mfind (s.cdb.get h).part g.toNat)).2).map arrived := by
  have hrec := received_flitPassed s h g.toNat flips
  have hpart : ((flitPassed s h g.toNat flips).cdb.get h).part = (s.cdb.get h).part := congrArg Received.part hrec
  have hcore : (flitPassed s h g.toNat flips).core = s.core := congrArg Received.core hrec
  obtain ⟨hseq, hxoff, hparts, hcells⟩ := flitAccept_noCross ((congrArg Received.cross hrec).trans hcross) g.toNat f
  obtain ⟨hstatCore, -, hstatSeq, hstatPart⟩ :=
    received_nothing (received_xoffStat (flitAccept (flitPassed s h g.toNat flips) h g.toNat f) h)
  rw [hpart] at hparts hcells
  rw [hcore] at hcells
  refine ⟨_, (exec_flitPassed hw hf hcrc).trans (by rw [if_pos ⟨hbusy, hturn⟩]), ?_, ?_, ?_, ?_⟩
  · rw [hstatSeq, hseq]
  · rw [xoffStat_xoffRx, hxoff, flitPassed_xoffRx]
  · rw [hstatPart, hparts]
  · rw [hstatCore, hcells]

end

/-! ### A NAK (R168, R180) -/

theorem xoffTake_grps (s : State) (h k : Half) : ((xoffTake s h).cdb.get k).grps = (s.cdb.get k).grps := by
  unfold xoffTake
  dsimp only
  split
  · rfl
  · cases h <;> cases k <;> rfl

theorem xoffTake_other (s : State) (h : Half) : (xoffTake s h).cdb.get h.other = s.cdb.get h.other := by
  unfold xoffTake
  dsimp only
  split
  · rfl
  · exact modCdb_cdb_other _ _ _

theorem xoffTake_regs (s : State) (h : Half) : (xoffTake s h).regs = s.regs := by
  unfold xoffTake
  dsimp only
  split <;> rfl

theorem bridgeAck_other (s : State) (h : Half) (g a : Nat) : (bridgeAck s h g a).cdb.get h.other = s.cdb.get h.other := by
  unfold bridgeAck
  dsimp only
  split
  · rfl
  · exact (modCdb_cdb_other _ _ _).trans (modCdb_cdb_other _ _ _)

/-- The state in which half h has taken the NAK of its group and its ACK, before the replay. -/
def nakTaken (s : State) (h : Half) (g : Nat) : State :=
  let u := (dozeLeave s h.other g).modCdb h.other fun b => { b with naking := b.naking.filter (· ≠ g) }
  (bridgeAck u h g ((mfind (u.cdb.get h.other).rxSeq g).getD 255)).fbump (CDB_ERRCNT0 h) CDB_ERRCNT0_NAK_CNT 1

/-- The state in which the replay begins. -/
def nakReplay (s : State) (h : Half) (g : Nat) : State :=
  let x := bgrp (nakTaken s h g) h g
  xoffTake (putBgrp (nakTaken s h g) h g { x with pos := 0, naks := x.naks + 1 }) h

/-- The group of a NAK is as its ACK alone would leave it. -/
theorem nakTaken_bgrp (s : State) (h : Half) (g : Nat) :
    bgrp (nakTaken s h g) h g = bgrp (bridgeAck s h g ((mfind (s.cdb.get h.other).rxSeq g).getD 255)) h g := by
  have hdoze : bridgeKept (dozeLeave s h.other g) = bridgeKept s := fsetStat_bridge _ _ _ (by decide)
  unfold nakTaken
  extract_lets u
  have hgrp : bgrp u h g = bgrp s h g := bgrp_congr (congrArg Cdb.grps (modCdb_other_cdb (dozeLeave s h.other g) h _)) g
  have hnow : u.now h = s.now h := kept_now hdoze h
  have hseq : (u.cdb.get h.other).rxSeq = (s.cdb.get h.other).rxSeq :=
    (congrArg Cdb.rxSeq (modCdb_cdb_same (dozeLeave s h.other g) h.other _)).trans rfl
  rw [bgrp_bridgeAck, ← hseq, ← hgrp, ← hnow]
  exact bgrp_bridgeAck u h g _

theorem nakReplay_bgrp (s : State) (h : Half) (g : Nat) : bgrp (nakReplay s h g) h g
    = { bgrp (nakTaken s h g) h g with pos := 0, naks := (bgrp (nakTaken s h g) h g).naks + 1 } :=
  (bgrp_congr (xoffTake_grps _ h h) g).trans (bgrp_putBgrp_same _ _ _ _)

theorem nakReplay_naking (s : State) (h : Half) (g : Nat) :
    ((nakReplay s h g).cdb.get h.other).naking = (s.cdb.get h.other).naking.filter (· ≠ g) := by
  unfold nakReplay
  dsimp only
  rw [xoffTake_other, putBgrp, modCdb_cdb_other, nakTaken, State.fbump_cdb, bridgeAck_other, modCdb_cdb_same]
  rfl

theorem phase_of_regs {s t : State} (hr : t.regs = s.regs) (k : Half) : t.phase k = s.phase k := by
  rw [State.phase, State.fget, State.rd, hr]
  rfl

theorem nakReplay_phase (s : State) (h : Half) (g : Nat) (k : Half) : (nakReplay s h g).phase k = s.phase k := by
  have htaken : (nakTaken s h g).phase k = s.phase k := by
    unfold nakTaken
    extract_lets u
    refine (kept_phase (fbump_bridge _ _ _ (by simp)) k).trans ((phase_of_regs (bridgeAck_regs _ _ _ _) k).trans ?_)
    exact kept_phase (fsetStat_bridge _ _ _ (by decide)) k
  exact (phase_of_regs (xoffTake_regs _ _) k).trans htaken

theorem exec_bridgeNakReceived {s : State} {h : Half} {g : BitVec 3} (hw : grpWidth s h g.toNat ≠ 2)
    (hremap : (bgrp s h.other g.toNat).remap = false) (hnak : (s.cdb.get h.other).naking.contains g.toNat = true) :
    exec (.bridgeNakReceived h g) s
      = .next (if (bgrp (nakTaken s h g.toNat) h g.toNat).naks + 1 = 16 then bridgeDown (nakReplay s h g.toNat)
          else nakReplay s h g.toNat) := by
  show execBridgeNakReceived h g s = _
  unfold execBridgeNakReceived
  dsimp only
  rw [if_neg (by simp only [hw, hremap, hnak]; decide)]
  rfl

/-! ### Wires (R171-R173) -/

/-- Wire w of a group's receive direction is bit w mod 32 of one of the three words of CDB_WMAP. -/
theorem bitB_wmapNat (s : State) (h : Half) (g : Nat) {w : Nat} (hw : w < 66) :
    bitB (wmapNat s h g) w = (s.rd (CDB_WMAP h g (w / 32))).getLsbD (w % 32) := by
  have h0 := (s.rd (CDB_WMAP h g 0)).isLt
  have h1 := (s.rd (CDB_WMAP h g 1)).isLt
  have hsum : wmapNat s h g = 2 ^ 32 * (2 ^ 32 * ((s.rd (CDB_WMAP h g 2)).toNat % 4) + (s.rd (CDB_WMAP h g 1)).toNat)
      + (s.rd (CDB_WMAP h g 0)).toNat := by
    unfold wmapNat
    omega
  rw [bitB, hsum, Nat.testBit_two_pow_mul_add _ h0, Nat.testBit_two_pow_mul_add _ h1]
  obtain hk | hk | hk : w / 32 = 0 ∨ w / 32 = 1 ∨ w / 32 = 2 := by omega
  · rw [hk, if_pos (by omega), Nat.mod_eq_of_lt (by omega)]
    rfl
  · rw [hk, if_neg (by omega), if_pos (by omega), show w % 32 = w - 32 by omega]
    rfl
  · rw [hk, if_neg (by omega), if_neg (by omega), show w % 32 = w - 32 - 32 by omega,
      show (4 : Nat) = 2 ^ 2 from rfl, Nat.testBit_mod_two_pow]
    simp only [show w - 32 - 32 < 2 by omega, decide_true, Bool.true_and]
    rfl

theorem wmapNat_congr {s t : State} {h : Half} {g : Nat} (hrd : ∀ k < 3, t.rd (CDB_WMAP h g k) = s.rd (CDB_WMAP h g k)) :
    wmapNat t h g = wmapNat s h g := by
  simp only [wmapNat, hrd 0 (by decide), hrd 1 (by decide), hrd 2 (by decide)]

/-- A word of CDB_WMAP that is written holds the wires of its own number alone. -/
theorem bitB_wmapNat_wr (s : State) (h : Half) (g k : Nat) (v : Word) {i : Nat} (hi : i < 66) :
    bitB (wmapNat (s.wr (CDB_WMAP h g k) v) h g) i = if i / 32 = k then v.getLsbD (i % 32) else bitB (wmapNat s h g) i := by
  rw [bitB_wmapNat _ _ _ hi, bitB_wmapNat _ _ _ hi]
  split
  · next hk => rw [hk, rd_wr_same]
  · next hk => rw [rd_wr_ne _ _ (by unfold CDB_WMAP; omega)]

/-- WIDTH and FAILED of a group follow its wires, and change none. -/
theorem grpStat_wmapNat (s : State) (h : Half) {g : Nat} (hg : g < 8) : wmapNat (grpStat s h g) h g = wmapNat s h g :=
  wmapNat_congr fun k _ => rd_fsets_ne _ _ (by unfold CDB_WMAP CDB_GRP; omega)

theorem grpStat_bridge (s : State) (h : Half) {g : Nat} (hg : g < 8) : bridgeKept (grpStat s h g) = bridgeKept s := by
  refine fsets_bridge _ _ ?_
  revert g
  cases h <;> decide

theorem wmapWord_bridge (s : State) (h : Half) {g k : Nat} (hg : g < 8) (hk : k < 3) (v : Word) :
    bridgeKept (s.wr (CDB_WMAP h g k) v) = bridgeKept s := by
  have hwords : ∀ g < 8, ∀ k < 3, bridgeReg (CDB_WMAP h g k) = false := by cases h <;> decide
  exact wr_bridge _ _ (hwords g hg k hk)

theorem askRemap_regs (s : State) (h : Half) (g : Nat) : (askRemap s h g).regs = s.regs := by
  cases h with
  | east =>
    unfold askRemap withdrawWest
    dsimp only
    split <;> rfl
  | west =>
    unfold askRemap
    dsimp only
    split <;> rfl

theorem wmap_refOnly {s t : State} (hst : refOnly s t) (h : Half) {g k : Nat} (hg : g < 8) (hk : k < 3) :
    t.rd (CDB_WMAP h g k) = s.rd (CDB_WMAP h g k) := by
  have hwords : ∀ g < 8, ∀ k < 3, refReg (CDB_WMAP h g k) = false ∧ viralBits (CDB_WMAP h g k) = 0 := by cases h <;> decide
  obtain ⟨hr, hv⟩ := hwords g hg k hk
  exact refOnly_rd hst hr hv

/-- A remap that half h asks for is under way, unless West must wait for East's (R174). -/
theorem askRemap_remap (s : State) (h : Half) (g : Nat) (hfree : h = .east ∨ (bgrp s .west g).remap = false) :
    (bgrp (askRemap s h g) h.other g).remap = true := by
  cases h with
  | east => exact congrArg BGrp.remap (bgrp_putBgrp_same _ .west g _)
  | west =>
    have hwest : (bgrp s .west g).remap = false := hfree.resolve_left (by decide)
    unfold askRemap
    dsimp only
    rw [if_neg (by simp [hwest])]
    exact congrArg BGrp.remap (bgrp_putBgrp_same _ .east g _)

theorem length_filter_or_le {α : Type} (p q : α → Bool) (l : List α) :
    (l.filter fun x => p x || q x).length ≤ (l.filter p).length + (l.filter q).length := by
  induction l with
  | nil => exact Nat.zero_le _
  | cons a r ih =>
    simp only [List.filter_cons]
    cases p a <;> cases q a <;> simp only [Bool.or_true, Bool.or_false, if_true, if_false, Bool.false_eq_true, List.length_cons] <;>
      omega

/-- The state in which a wire is marked failed (R171). -/
def wireMarked (s : State) (h : Half) (g w : Nat) : State :=
  grpStat (s.wr (CDB_WMAP h g (w / 32)) (s.rd (CDB_WMAP h g (w / 32)) ||| BitVec.ofNat 32 (2 ^ (w % 32)))) h g

section

variable (s : State) (h : Half) {g : Nat} (w : Nat) (hg : g < 8)
include hg

theorem wireMarked_bit {i : Nat} (hi : i < 66) :
    bitB (wmapNat (wireMarked s h g w) h g) i = (bitB (wmapNat s h g) i || decide (i = w)) := by
  rw [wireMarked, grpStat_wmapNat _ _ hg, bitB_wmapNat_wr _ _ _ _ _ hi]
  split
  · next hk =>
    have hbit : i % 32 = w % 32 ↔ i = w := by omega
    rw [BitVec.getLsbD_or, BitVec.getLsbD_ofNat, Nat.testBit_two_pow, bitB_wmapNat _ _ _ hi, hk]
    simp only [show i % 32 < 32 by omega, decide_true, Bool.true_and, eq_comm (a := w % 32), hbit]
  · next hk =>
    have hne : i ≠ w := fun he => hk (by rw [he])
    simp [hne]

/-- One wire more has failed, at the most. -/
theorem wireMarked_good : wiresGood s h g ≤ wiresGood (wireMarked s h g w) h g + 1 := by
  have hbits : (List.range 66).filter (fun i => bitB (wmapNat (wireMarked s h g w) h g) i)
      = (List.range 66).filter fun i => bitB (wmapNat s h g) i || decide (i = w) :=
    List.filter_congr fun i hi => wireMarked_bit s h w hg (List.mem_range.mp hi)
  have hone : ((List.range 66).filter fun i => decide (i = w)).length ≤ 1 := by
    rw [← List.countP_eq_length_filter]
    exact List.nodup_iff_count_le_one.mp List.nodup_range w
  have hcount := length_filter_or_le (fun i => bitB (wmapNat s h g) i) (fun i => decide (i = w)) (List.range 66)
  unfold wiresGood wiresFailed
  rw [hbits]
  omega

theorem wireMarked_bridge (hw : w < 66) : bridgeKept (wireMarked s h g w) = bridgeKept s :=
  (grpStat_bridge _ _ hg).trans (wmapWord_bridge _ _ hg (by omega) _)

theorem wireMarked_remapCount : (wireMarked s h g w).fget (CDB_ERRCNT1 h) CDB_ERRCNT1_REMAP_CNT
    = s.fget (CDB_ERRCNT1 h) CDB_ERRCNT1_REMAP_CNT := by
  refine fget_of_rd_eq ((rd_fsets_ne _ _ ?_).trans (rd_wr_ne _ _ ?_)) _
  · unfold CDB_ERRCNT1 CDB_GRP; omega
  · unfold CDB_ERRCNT1 CDB_WMAP; omega

end

/-- A wire in use that fails is marked, and a remap is asked for and counted (R171). -/
theorem exec_wireFailed {s : State} {h : Half} {g : BitVec 3} {w : Nat} {lost : Bool} (hw : w < 66)
    (hgood : bitB (wmapNat s h g.toNat) w = false) (hcause : lost = true ∨ wparOver s h g.toNat w = true)
    (hup : s.phase h = phUP) (h33 : 33 ≤ wiresGood s h g.toNat) (hused : wireUsed s h g.toNat w = true) :
    ∃ u, refOnly ((wireMarked s h g.toNat w).fbump (CDB_ERRCNT1 h) CDB_ERRCNT1_REMAP_CNT 1) u
      ∧ exec (.wireFailed h g w lost) s = .next (askRemap u h g.toNat) := by
  have hphase : (wireMarked s h g.toNat w).phase h = phUP := (kept_phase (wireMarked_bridge s h w g.isLt hw) h).trans hup
  have hleft : ¬ wiresGood (wireMarked s h g.toNat w) h g.toNat < 32 := by
    have := wireMarked_good s h w g.isLt
    omega
  have hfails : ¬ (66 ≤ w ∨ bitB (wmapNat s h g.toNat) w = true ∨ (lost = false ∧ wparOver s h g.toNat w = false)) := by
    obtain hc | hc := hcause <;> simp [hw, hgood, hc]
  show ∃ u, _ ∧ execWireFailed h g w lost s = _
  unfold execWireFailed
  dsimp only
  rw [if_neg hfails, ← wireMarked, if_neg (by rw [hphase]; decide), if_neg hleft, if_neg (by simp [hused])]
  exact ⟨_, raise_evt_refOnly _ _ _ _ _ _, rfl⟩

theorem wireFailed_marks {s : State} {h : Half} {g : BitVec 3} {w : Nat} {lost : Bool} (hw : w < 66)
    (hgood : bitB (wmapNat s h g.toNat) w = false) (hcause : lost = true ∨ wparOver s h g.toNat w = true)
    (hup : s.phase h = phUP) (h33 : 33 ≤ wiresGood s h g.toNat) (hused : wireUsed s h g.toNat w = true) :
    ∃ t, exec (.wireFailed h g w lost) s = .next t ∧ bitB (wmapNat t h g.toNat) w = true
      ∧ (h = .east ∨ (bgrp s .west g.toNat).remap = false → (bgrp t h.other g.toNat).remap = true)
      ∧ t.fget (CDB_ERRCNT1 h) CDB_ERRCNT1_REMAP_CNT
          = min (s.fget (CDB_ERRCNT1 h) CDB_ERRCNT1_REMAP_CNT + 1) (2 ^ CDB_ERRCNT1_REMAP_CNT.width - 1) := by
  obtain ⟨u, hu, hexec⟩ := exec_wireFailed hw hgood hcause hup h33 hused
  have hasked : ∀ a, (askRemap u h g.toNat).rd a = u.rd a := fun a => by rw [State.rd, askRemap_regs, State.rd]
  refine ⟨_, hexec, ?_, fun hfree => ?_, ?_⟩
  · rw [wmapNat_congr (s := wireMarked s h g.toNat w) fun k hk => ?_, wireMarked_bit _ _ _ g.isLt hw]
    · simp
    · rw [hasked, wmap_refOnly hu h g.isLt hk]
      exact rd_fset_ne _ _ _ (by unfold CDB_ERRCNT1 CDB_WMAP; omega)
  · refine askRemap_remap u h g.toNat (hfree.imp_right fun hf => ?_)
    rw [bgrp_congr (s := s) (by rw [refOnly_cdb hu]; rfl)]
    exact hf
  · rw [fget_of_rd_eq (hasked _), fget_of_rd_eq (refOnly_rd hu (by cases h <;> decide) (by cases h <;> decide)), State.fbump,
      fget_fset_same _ _ _ _ (by decide), wireMarked_remapCount s h w g.isLt, Nat.mod_eq_of_lt]
    exact lt_of_le_of_lt (min_le_right _ _) (by decide)

theorem wmapWrite_wmapNat (s : State) (h : Half) {g : Nat} (hg : g < 8) (k : Nat) (v : Word) :
    wmapNat (wmapWrite s h g k v) h g = wmapNat (s.wr (CDB_WMAP h g k) (s.rd (CDB_WMAP h g k) &&& ~~~ v)) h g := by
  have hasked : ∀ u, wmapNat (askRemap u h g) h g = wmapNat u h g := fun u =>
    wmapNat_congr fun k _ => by rw [State.rd, askRemap_regs, State.rd]
  unfold wmapWrite
  dsimp only
  split
  · exact grpStat_wmapNat _ _ hg
  · exact (hasked _).trans (grpStat_wmapNat _ _ hg)

/-- A wire that returns is good again, and no other wire of its group changes (R173). -/
theorem wireReturn_good {s : State} {m : Master} {h : Half} {g : BitVec 3} {v : BitVec 7} (hv : v.toNat < 66)
    (hm : mayAct s m (CDB_WMAP h g.toNat (v.toNat / 32))) :
    ∃ t, exec (.wireReturn m h g v) s = .next t ∧ bitB (wmapNat t h g.toNat) v.toNat = false
      ∧ ∀ i, i < 66 → i ≠ v.toNat → bitB (wmapNat t h g.toNat) i = bitB (wmapNat s h g.toNat) i := by
  have hexec : exec (.wireReturn m h g v) s
      = .next (wmapWrite s h g.toNat (v.toNat / 32) (BitVec.ofNat 32 (2 ^ (v.toNat % 32)))) :=
    (if_neg (by omega)).trans (congrArg Host.Outcome.next (csGate_mayAct _ _ _ _ hm))
  have hbits : ∀ i, i < 66 → bitB (wmapNat (wmapWrite s h g.toNat (v.toNat / 32) (BitVec.ofNat 32 (2 ^ (v.toNat % 32)))) h g.toNat) i
      = (bitB (wmapNat s h g.toNat) i && decide (i ≠ v.toNat)) := fun i hi => by
    rw [wmapWrite_wmapNat _ _ g.isLt, bitB_wmapNat_wr _ _ _ _ _ hi]
    split
    · next hk =>
      have hbit : i % 32 = v.toNat % 32 ↔ i = v.toNat := by omega
      rw [BitVec.getLsbD_and, BitVec.getLsbD_not, BitVec.getLsbD_ofNat, Nat.testBit_two_pow, bitB_wmapNat _ _ _ hi, hk]
      simp only [show i % 32 < 32 by omega, decide_true, Bool.true_and, eq_comm (a := v.toNat % 32), hbit, decide_not]
    · next hk =>
      have hne : i ≠ v.toNat := fun he => hk (by rw [he])
      simp [hne]
  exact ⟨_, hexec, by rw [hbits _ hv]; simp, fun i hi hne => by rw [hbits i hi]; simp [hne]⟩

/-! ### Doze (R177, R178) -/

theorem exec_dozeEnter {s : State} {h : Half} {g : BitVec 3} (hen : s.flag (CDB_CTL h) CDB_CTL_DOZE_EN = true)
    (hwait : (bgrp s h g.toNat).wait = []) (hreplay : (bgrp s h g.toNat).replay = []) (hremap : (bgrp s h g.toNat).remap = false)
    (hwidth : grpWidth s h.other g.toNat ≠ 2) (hxoff : (s.cdb.get h).xoffTx = (s.cdb.get h.other).xoffRx)
    (hidle : (bgrp s h g.toNat).idle + 8 * max 1 (s.fget (CDB_CTL h) CDB_CTL_DOZE_IDLE) ≤ s.now h) :
    exec (.dozeEnter h g) s
      = .next (s.fset (CDB_STAT h) CDB_STAT_DOZE (s.fget (CDB_STAT h) CDB_STAT_DOZE ||| 2 ^ g.toNat)) := by
  refine if_pos ?_
  simp [hen, hwait, hreplay, hremap, hwidth, hxoff, hidle]

/-- The bits of DOZE as they are set. -/
theorem bitB_doze_fset (s : State) (h : Half) (n : Nat) {i : Nat} (hi : i < 8) :
    bitB ((s.fset (CDB_STAT h) CDB_STAT_DOZE n).fget (CDB_STAT h) CDB_STAT_DOZE) i = bitB n i := by
  rw [fget_fset_same _ _ _ _ (by decide), bitB, Nat.testBit_mod_two_pow]
  simp only [show i < CDB_STAT_DOZE.width from hi, decide_true, Bool.true_and]
  rfl

theorem dozeLeave_bits (s : State) (h : Half) {g i : Nat} (hg : g < 8) (hi : i < 8) :
    bitB ((dozeLeave s h g).fget (CDB_STAT h) CDB_STAT_DOZE) i = (bitB (s.fget (CDB_STAT h) CDB_STAT_DOZE) i && i != g) := by
  have hmask : ∀ g < 8, ∀ i < 8, Nat.testBit (255 - 2 ^ g) i = (i != g) := by decide
  rw [dozeLeave, bitB_doze_fset _ _ _ hi, bitB, Nat.testBit_and, hmask g hg i hi]
  rfl

/-- Settles O31, command by command: flits and NAKs, wires, then Doze. -/
theorem bridgeFlitsAndWires : Obligations.BridgeFlitsAndWires := by
  intro s m h g f w lost v flips o G B due rx got after far naks st W sent kept
  refine ⟨exec_flitNone, fun ⟨hw, hf⟩ hcrc => ?_, fun ⟨hw, hf⟩ hcrc hidle hseq hcross => ?_, fun ⟨hw, hf⟩ hcrc hnot => ?_,
    fun ⟨hw, hremap, hnak⟩ hne => ?_, fun ⟨hw, hremap, hnak⟩ hlast hup => ?_, fun hnone => ?_, wireFailed_marks,
    fun hlost hover => ?_, wireReturn_good, fun hremap => ?_, fun hremap => ?_,
    fun hen hwait hreplay hremap hwidth hxoff hidle => ?_, fun hcause => ?_, fun hcause => ?_⟩
  · exact flitFailed_naks hw hf hcrc
  · exact flitPassed_accepted hw hf hcrc hidle hseq hcross
  · have hdead : ¬ (flitIdle f.body = false ∧ f.seq = due) := fun ⟨hbusy, hturn⟩ =>
      hnot.elim (fun hi => by simp [hi] at hbusy) fun hne => hne hturn
    refine ⟨_, (exec_flitPassed hw hf hcrc).trans (by rw [if_neg hdead]), ?_, ?_⟩
    · exact received_nothing ((received_xoffStat _ _).trans (received_flitPassed s h G flips))
    · exact (xoffStat_xoffRx _ _).trans (flitPassed_xoffRx s h G flips)
  · have hgrp : bgrp (nakTaken s h G) h G = after := nakTaken_bgrp s h G
    refine ⟨nakReplay s h G, (exec_bridgeNakReceived hw hremap hnak).trans (by rw [hgrp, if_neg (by omega)]), ?_, ?_⟩
    · rw [nakReplay_bgrp, hgrp]
    · rw [nakReplay_naking]
      simp
  · have hgrp : bgrp (nakTaken s h G) h G = after := nakTaken_bgrp s h G
    have hup' : (nakReplay s h G).phase .east = phUP := (nakReplay_phase s h G .east).trans hup
    refine ⟨bridgeDown (nakReplay s h G), (exec_bridgeNakReceived hw hremap hnak).trans (by rw [hgrp, if_pos (by omega)]), ?_, ?_⟩
    · exact (bridgeDown_up hup' .east).1
    · exact (bridgeDown_up hup' .west).1
  · exact if_pos (Or.inr (Or.inr hnone))
  · exact if_pos (Or.inr (Or.inr ⟨hlost, hover⟩))
  · exact ⟨_, if_pos hremap, bgrp_putBgrp_same _ _ _ _⟩
  · exact if_neg (by rw [hremap]; decide)
  · obtain ⟨honly, -⟩ := onlyField_fset s st CDB_STAT_DOZE (s.fget st CDB_STAT_DOZE ||| 2 ^ G) (by decide)
    refine ⟨_, exec_dozeEnter hen hwait hreplay hremap hwidth hxoff hidle, honly, ?_⟩
    rw [bitB_doze_fset _ _ _ g.isLt, bitB, Nat.testBit_or, Nat.testBit_two_pow_self, Bool.or_true]
  · obtain ⟨honly, -⟩ := onlyField_fset s st CDB_STAT_DOZE (s.fget st CDB_STAT_DOZE &&& (255 - 2 ^ G)) (by decide)
    exact ⟨_, congrArg Host.Outcome.next (if_pos hcause), honly, fun i hi => dozeLeave_bits s h g.isLt hi⟩
  · exact congrArg Host.Outcome.next (if_neg (by rw [hcause]; decide))

end Sys2Proof.Machine
end

section
/-! PROOFS. A CCI command is answered (R205, R206, R475, R484): the answer leaves, the class queue holds one request fewer, and
beside what the Observer keeps nothing else changes. -/

namespace Sys2Proof.Machine

open Sys2Proof

/-! ### One answer -/

/-- The register of the class queue from which the requests of a CCI are taken (R482). -/
def cciQueue (s : State) (cci : Nat) : Nat := OBS_CLS_STAT (cciHalf s cci) (cciClass cci)

/-- A request of a CCI has been answered once: its class queue holds one fewer, the answer is the one thing sent, and nothing else
differs but what the Observer keeps. -/
def answered (s u : State) (cci code ret ext : Nat) (data : List Nat) : Prop :=
  onlyField { s with sent := u.sent, mgt := u.mgt } u (cciQueue s cci) OBS_CLS_STAT_QUEUED
      (s.fget (cciQueue s cci) OBS_CLS_STAT_QUEUED - 1)
    ∧ u.sent = .ans code ret (cci :: ext :: data) :: s.sent

/-- An answer takes one request off the class queue, whatever the Observer has noted and whatever has left before. -/
theorem cciAnswer_onlyField (s : State) (g : Mgt) (l : List Sent) (cci code ret ext : Nat) (data : List Nat) :
    onlyField { s with sent := .ans code ret (cci :: ext :: data) :: l, mgt := g }
      (cciAnswer { s with sent := l, mgt := g } cci code ret ext data) (cciQueue s cci) OBS_CLS_STAT_QUEUED
      (s.fget (cciQueue s cci) OBS_CLS_STAT_QUEUED - 1) := onlyField_fset _ _ _ _ (by decide)

/-- A request is answered, whatever the Observer has noted. -/
theorem cciAnswer_answered (s : State) (g : Mgt) (cci code ret ext : Nat) (data : List Nat) :
    answered s (cciAnswer { s with mgt := g } cci code ret ext data) cci code ret ext data :=
  ⟨cciAnswer_onlyField s g s.sent cci code ret ext data, rfl⟩

/-- A request is answered from the state it found. -/
theorem cciAnswer_reads (s : State) (cci code ret ext : Nat) (data : List Nat) :
    answered s (cciAnswer s cci code ret ext data) cci code ret ext data ∧ (cciAnswer s cci code ret ext data).mgt = s.mgt :=
  ⟨cciAnswer_answered s s.mgt cci code ret ext data, rfl⟩

theorem rd_cciAnswer_ne (s : State) (cci code ret ext : Nat) (data : List Nat) {a : Nat} (ha : a ≠ cciQueue s cci) :
    (cciAnswer s cci code ret ext data).rd a = s.rd a := rd_fset_ne s _ _ ha

/-- The class queues lie in the Observer's block, above every register of the units (R24). -/
theorem rd_cciAnswer_below (s : State) (cci code ret ext : Nat) (data : List Nat) {a : Nat} (ha : a < 0x0F000000) :
    (cciAnswer s cci code ret ext data).rd a = s.rd a :=
  rd_cciAnswer_ne s _ _ _ _ _ (by unfold cciQueue OBS_CLS_STAT; omega)

/-- Only the class queue's register differs after an answer. -/
theorem cciAnswer_onlyRegs (s : State) (cci code ret ext : Nat) (data : List Nat) :
    onlyRegs [cciQueue s cci] { s with sent := (cciAnswer s cci code ret ext data).sent } (cciAnswer s cci code ret ext data) :=
  (cciAnswer_answered s s.mgt cci code ret ext data).1.1

/-! ### The registers that a request needs (R475) -/

@[simp] theorem cciReach_nil (s : State) (cci : Nat) : cciReach s cci [] = true := by simp [cciReach]

theorem cciServe_reached {s : State} {cci : Nat} {hs : List Half} (hr : cciReach s cci hs = true) (code : Nat) (f : State → State) :
    cciServe s cci code hs f = f s := if_pos hr

theorem cciServe_split {s : State} {cci : Nat} {hs : List Half} (hr : cciReach s cci hs = false) (code : Nat) (f : State → State) :
    cciServe s cci code hs f = cciAnswer s cci code rcBUSY exSPLIT [] := if_neg (by simp [hr])

/-- A command that reads registers which its cluster reaches. -/
theorem cciReadCmd_reads {s : State} {cci : Nat} {hs : List Half} (hr : cciReach s cci hs = true) (code : Nat) (data : List Nat) :
    answered s (cciReadCmd s cci code hs data) cci code rcSUCCESS 0 data ∧ (cciReadCmd s cci code hs data).mgt = s.mgt := by
  rw [cciReadCmd, cciServe_reached hr]
  exact cciAnswer_reads s cci code rcSUCCESS 0 data

/-- A command that needs no register of a half and sets what the Observer keeps. -/
theorem cciReadCmd_sets (s : State) (g : Mgt) (cci code : Nat) (data : List Nat) :
    answered s (cciReadCmd { s with mgt := g } cci code [] data) cci code rcSUCCESS 0 data
      ∧ (cciReadCmd { s with mgt := g } cci code [] data).mgt = g := by
  rw [cciReadCmd, cciServe_reached (cciReach_nil _ _)]
  exact ⟨cciAnswer_answered s g cci code rcSUCCESS 0 data, rfl⟩

/-! ### What runs in the background (R206) -/

theorem bgStatus_running {s : State} {cci : Nat} {b : BgOp} (hb : mfind s.mgt.bg cci = some b) : bgStatus s cci = [1, b.code, 0, 0] := by
  rw [bgStatus, hb]

theorem bgStatus_over {s : State} {cci : Nat} {e : Nat × Nat × Nat} (hb : mfind s.mgt.bg cci = none)
    (he : mfind s.mgt.last cci = some e) : bgStatus s cci = [0, e.1, e.2.1, e.2.2] := by
  rw [bgStatus, hb]
  dsimp only
  rw [he]

/-! ### The ports that are enabled (R205) -/

/-- A number made of bits has those bits. -/
theorem testBit_sum_pow (f : Nat → Nat) (hf : ∀ i, f i < 2) (n i : Nat) :
    (((List.range n).map fun p => f p * 2 ^ p).sum).testBit i = (decide (i < n) && f i != 0)
      ∧ ((List.range n).map fun p => f p * 2 ^ p).sum < 2 ^ n := by
  induction n with
  | zero => simp
  | succ n ih =>
    obtain ⟨hbit, hlt⟩ := ih
    have hfn : f n < 2 := hf n
    rw [List.range_succ, List.map_append, List.sum_append, List.map_singleton, List.sum_singleton, Nat.add_comm, Nat.mul_comm (f n)]
    constructor
    · rw [Nat.testBit_two_pow_mul_add _ hlt]
      by_cases hi : i < n
      · simp [hi, hbit, Nat.lt_succ_of_lt hi]
      · obtain hn | hn : f n = 0 ∨ f n = 1 := by omega
        · by_cases he : i = n
          · simp [he, hn]
          · simp [hi, hn, show ¬ i < n + 1 by omega]
        · by_cases he : i = n
          · simp [he, hn]
          · simp [hi, hn, show ¬ i < n + 1 by omega, Nat.testBit_lt_two_pow (show 1 < 2 ^ (i - n) from Nat.one_lt_two_pow (by omega))]
    · rw [Nat.pow_succ]
      have : 2 ^ n * f n ≤ 2 ^ n * 1 := Nat.mul_le_mul_left _ (by omega)
      omega

/-! ### The PPB of a sub-port (R205) -/

/-- A write of a configuration register changes what the Observer keeps and nothing else. -/
theorem cfgWrite_frame (s : State) (t v off x : Nat) : cfgWrite s t v off x = { s with mgt := (cfgWrite s t v off x).mgt } := by
  unfold cfgWrite
  split
  case h_4 => dsimp only; split <;> rfl
  all_goals rfl

/-- A field's value in a word keeps the word within its 32 bits. -/
theorem cfgIns_lt {w : Nat} {f : Nat × Nat × Nat} (hw : w < 2 ^ 32) (hf : f.2.1 ≤ f.1 ∧ f.1 ≤ 31) : cfgIns w f < 2 ^ 32 := by
  obtain ⟨hi, lo, x⟩ := f
  obtain ⟨hlo, hhi⟩ := hf
  dsimp only at hlo hhi
  generalize hk : hi + 1 - lo = k
  have hdvd : bits w hi lo * 2 ^ lo ≤ w / 2 ^ lo * 2 ^ lo := Nat.mul_le_mul_right _ (by
    rw [bits, Nat.shiftRight_eq_div_pow]
    exact Nat.mod_le _ _)
  have hx : x % 2 ^ k < 2 ^ k := Nat.mod_lt _ (Nat.two_pow_pos _)
  have hpow : 2 ^ 32 = 2 ^ (32 - (k + lo)) * (2 ^ k * 2 ^ lo) := by
    rw [← Nat.pow_add, ← Nat.pow_add]
    congr 1
    omega
  -- the bits above the field, of the field and below it
  have hsplit : w = (w / 2 ^ lo / 2 ^ k) * (2 ^ k * 2 ^ lo) + bits w hi lo * 2 ^ lo + w % 2 ^ lo := by
    have h1 := Nat.div_add_mod w (2 ^ lo)
    have h2 := Nat.div_add_mod (w / 2 ^ lo) (2 ^ k)
    rw [bits, Nat.shiftRight_eq_div_pow, hk]
    calc w = 2 ^ lo * (2 ^ k * (w / 2 ^ lo / 2 ^ k) + w / 2 ^ lo % 2 ^ k) + w % 2 ^ lo := by rw [h2, h1]
      _ = _ := by ring
  have hhigh : w / 2 ^ lo / 2 ^ k < 2 ^ (32 - (k + lo)) := by
    rw [Nat.div_div_eq_div_mul, Nat.div_lt_iff_lt_mul (by positivity), Nat.mul_comm (2 ^ lo)]
    omega
  have hlow : w % 2 ^ lo < 2 ^ lo := Nat.mod_lt _ (Nat.two_pow_pos _)
  have hfield : x % 2 ^ k * 2 ^ lo + 2 ^ lo ≤ 2 ^ k * 2 ^ lo := by
    rw [← Nat.succ_mul]
    exact Nat.mul_le_mul_right _ hx
  have habove : w / 2 ^ lo / 2 ^ k * (2 ^ k * 2 ^ lo) + 2 ^ k * 2 ^ lo ≤ 2 ^ 32 := by
    rw [hpow, ← Nat.succ_mul]
    exact Nat.mul_le_mul_right _ hhigh
  rw [cfgIns, hk]
  dsimp only
  omega

/-- Every field that the configuration space states lies within its word. -/
theorem cfgFields_within (s : State) (t v off : Nat) : ∀ f ∈ cfgFields s t v off, f.2.1 ≤ f.1 ∧ f.1 ≤ 31 := by
  unfold cfgFields
  dsimp only
  split
  case h_11 | h_13 | h_15 => split <;> simp
  case h_14 =>
    split
    · simp
    · split <;> simp
  all_goals simp

theorem cfgOver_lt {l : List (Nat × Nat × Nat)} (hl : ∀ f ∈ l, f.2.1 ≤ f.1 ∧ f.1 ≤ 31) (s : State) : (cfgOver l s).1 < 2 ^ 32 := by
  have hfold : ∀ w, w < 2 ^ 32 → l.foldl cfgIns w < 2 ^ 32 := by
    induction l with
    | nil => exact fun _ hw => hw
    | cons f r ih => exact fun w hw => ih (fun g hg => hl g (by simp [hg])) _ (cfgIns_lt hw (hl f (by simp)))
  exact hfold _ (Nat.mod_lt _ (Nat.two_pow_pos _))

theorem ppbRead_lt (s : State) (d off : Nat) : (ppbRead s d off).1 < 2 ^ 32 := by
  refine cfgOver_lt (fun f hf => ?_) s
  split at hf
  · simp at hf
  · exact cfgFields_within _ _ _ _ f hf

theorem exec_fmSendPpbConfigRequest_read {s : State} {cci : Nat} {p : BitVec 5} (hr : cciReach s cci [portHalf p.toNat] = true)
    (k : BitVec 2) (off data : Nat) :
    exec (.fmSendPpbConfigRequest cci p k false off data) s
      = .next (cciAnswer s.draw.2 cci 0x5103 rcSUCCESS 0 [(ppbRead s (subNode p.toNat k.toNat) off).1]) :=
  congrArg Host.Outcome.next (cciServe_reached hr 0x5103 _)

theorem exec_fmSendPpbConfigRequest_write {s : State} {cci : Nat} {p : BitVec 5} (hr : cciReach s cci [portHalf p.toNat] = true)
    (k : BitVec 2) (off data : Nat) :
    exec (.fmSendPpbConfigRequest cci p k true off data) s
      = .next (cciAnswer (cfgWrite s (64 + p.toNat) (33 + k.toNat) off data) cci 0x5103 rcSUCCESS 0 []) :=
  congrArg Host.Outcome.next (cciServe_reached hr 0x5103 _)

/-! ### Registers that the Observer reads as a CS master (R6, R208) -/

/-- A core that may act on a register of one word, with no word latched for it, reads the word, and the read changes that register
alone. -/
theorem csRead_word {s : State} {h : Half} {c a : Nat} {d : RegDesc} (h4 : a % 4 = 0)
    (hkey : copyKey h a = a) (hd : decodeAt (.obs h c) a a = some d) (hlo : d.lo64 = false) (hn : a ≠ MRD_DBG_NONCE 0)
    (hlat : s.latches = []) (hm : mayAct s (.obs h c) a) :
    (csRead s (.obs h c) a).1 = s.rd a ∧ onlyRegs [a] s (csRead s (.obs h c) a).2 := by
  have hread : csRead s (.obs h c) a = (s.rd a, if rcMask d.flds = 0 then s else s.wr a (rcLeft s d a)) := by
    have hreach : reaches s h a = true := hm.2
    simp only [csRead, accessAddr_obs h c h4, State.masterHalf, hkey, hd, dbgGate, hreach, if_true, readReg, latched, hlat,
      List.find?_nil, Option.map_none, hn, if_false, hlo, Bool.false_eq_true]
  rw [hread]
  refine ⟨rfl, ?_⟩
  dsimp only
  split
  · exact ⟨rfl, fun _ _ => rfl⟩
  · exact onlyRegs_wr s a _

/-- SF_TEN_STAT and SF_TEN_ERRCNT as the map has them: one word each, in no half's own copy. -/
theorem tenantWord_decodeAt (h : Half) (t : BitVec 6) {a : Nat} (ha : a = SF_TEN_STAT t.toNat ∨ a = SF_TEN_ERRCNT t.toNat) :
    copyKey h a = a ∧ ∃ d, decodeAt (.obs h 0) a a = some d ∧ d.lo64 = false := by
  have hregs : ∀ h t, ∀ a ∈ [SF_TEN_STAT (BitVec.toNat (w := 6) t), SF_TEN_ERRCNT t.toNat],
      copyKey h a = a ∧ (decodeAt (.obs h 0) a a).any (fun d => !d.lo64) = true := by
    intro h
    cases h <;> decide +kernel
  obtain ⟨hkey, hany⟩ := hregs h t a (by simpa using ha)
  obtain ⟨d, hd, hlo⟩ := (Option.any_eq_true _ _).mp hany
  exact ⟨hkey, d, hd, by simpa using hlo⟩

theorem onlyRegs_sent {l : List Nat} {s u : State} (hu : onlyRegs l s u) : u.sent = s.sent := by rw [hu.1]

theorem mayAct_onlyRegs {s u : State} {h : Half} {c a b : Nat} (hu : onlyRegs [b] s u) (hb : b ≠ CDB_STAT h)
    (hm : mayAct s (.obs h c) a) : mayAct u (.obs h c) a := by
  obtain ⟨hu, hrd⟩ := hu
  have hphase : u.phase h = s.phase h := fget_of_rd_eq (hrd _ (by simp [hb.symm])) _
  have hdome : u.dome = s.dome := by rw [hu]
  refine ⟨nofun, ?_⟩
  have hr : reaches s h a = true := hm.2
  show reaches u h a = true
  unfold reaches at hr ⊢
  rw [hphase, hdome]
  exact hr

/-- GET_TENANT_STATE reads the two registers, each as it stood. -/
theorem getTenantState_reads {s : State} {cci : Nat} {t : BitVec 6} (hr : cciReach s cci [tenantHalf t.toNat] = true)
    (hlat : s.latches = []) (hstat : mayAct s (.obs (cciHalf s cci) 0) (SF_TEN_STAT t.toNat))
    (herr : mayAct s (.obs (cciHalf s cci) 0) (SF_TEN_ERRCNT t.toNat)) :
    ∃ u, exec (.getTenantState cci t) s = .next u ∧ u.sent
      = .ans 0xC021 rcSUCCESS [cci, 0, (s.rd (SF_TEN_STAT t.toNat)).toNat, (s.rd (SF_TEN_ERRCNT t.toNat)).toNat] :: s.sent := by
  obtain ⟨hks, ds, hds, hlos⟩ := tenantWord_decodeAt (cciHalf s cci) t (Or.inl rfl)
  obtain ⟨hke, de, hde, hloe⟩ := tenantWord_decodeAt (cciHalf s cci) t (Or.inr rfl)
  have hplace : ∀ a, a = SF_TEN_STAT t.toNat ∨ a = SF_TEN_ERRCNT t.toNat → a % 4 = 0 ∧ a ≠ MRD_DBG_NONCE 0 := by
    rintro a (rfl | rfl) <;> simp only [SF_TEN_STAT, SF_TEN_ERRCNT, MRD_DBG_NONCE] <;> omega
  obtain ⟨h4s, hns⟩ := hplace _ (Or.inl rfl)
  obtain ⟨h4e, hne⟩ := hplace _ (Or.inr rfl)
  have hcdb : SF_TEN_STAT t.toNat ≠ CDB_STAT (cciHalf s cci) := by
    have := t.isLt
    simp only [SF_TEN_STAT, CDB_STAT]
    omega
  have hmid := csRead_word h4s hks hds hlos hns hlat hstat
  refine ⟨_, congrArg Host.Outcome.next (cciServe_reached hr 0xC021 _), ?_⟩
  revert hmid
  dsimp only
  generalize csRead s (.obs (cciHalf s cci) 0) (SF_TEN_STAT t.toNat) = x
  rintro ⟨hv, hx⟩
  have hend := csRead_word h4e hke hde hloe hne (by rw [hx.1]; exact hlat) (mayAct_onlyRegs hx hcdb herr)
  revert hend
  generalize csRead x.2 (.obs (cciHalf s cci) 0) (SF_TEN_ERRCNT t.toNat) = y
  rintro ⟨hw, hy⟩
  have hsx : x.2.sent = s.sent := onlyRegs_sent hx
  have hsy : y.2.sent = x.2.sent := onlyRegs_sent hy
  show Sent.ans 0xC021 rcSUCCESS [cci, 0, x.1.toNat, y.1.toNat] :: y.2.sent = _
  rw [hv, hw, hsy, hsx, hx.2 _ (by simp [SF_TEN_ERRCNT, SF_TEN_STAT])]

/-! ### O51 -/

/-- Settles O51, command by command. -/
theorem cciCommandsAreAnswered : Obligations.CciCommandsAreAnswered := by
  intro s cci n w o e b all t p k ps T P cls reach done reads
  have hreads : ∀ {hs : List Half} {c : Instr} {code : Nat} {data : List Nat}, cciReach s cci hs = true →
      exec c s = .next (cciReadCmd s cci code hs data) → reads c code data := fun hr hc =>
    have hd := cciReadCmd_reads hr _ _
    ⟨_, hc, hd.1, hd.2⟩
  have hnil : cciReach s cci [] = true := cciReach_nil s cci
  refine ⟨⟨_, _, hreads hnil rfl⟩, fun hb => hreads hnil ?_, fun hb he => hreads hnil ?_, hreads hnil rfl, fun h8 h13 => ?_,
    fun hout => ?_, hreads hnil rfl, ?_, hreads hnil rfl, ?_, ⟨_, _, _, hreads hnil rfl, fun i hi => ?_, rfl⟩, fun hr => hreads hr rfl,
    fun hr => ?_, fun hr => ?_, fun hr => ?_, fun hr => hreads hr rfl, fun hr => hreads hr rfl, fun hr => hreads hr rfl, ?_⟩
  · rw [← bgStatus_running hb]; rfl
  · rw [← bgStatus_over hb he]; rfl
  · obtain ⟨hd, hg⟩ := cciReadCmd_sets s { s.mgt with limit := minsert s.mgt.limit cci n } cci 0x0004 [n]
    exact ⟨_, if_pos ⟨h8, h13⟩, hd, hg ▸ mfind_minsert_same _ _ _⟩
  · exact ⟨_, if_neg (by omega), cciAnswer_reads s cci 0x0004 rcINVALID 0 []⟩
  · exact ⟨_, rfl, cciReadCmd_sets s { s.mgt with events := if all then [] else s.mgt.events.drop n } cci 0x0101 []⟩
  · exact ⟨_, rfl, cciReadCmd_sets s { s.mgt with policy := w } cci 0x0103 []⟩
  · rw [(testBit_sum_pow (fun p => s.fget (PRT_CFG p) PRT_CFG_EN) (fun q => fget_lt s _ PRT_CFG_EN) 32 i).1, decide_eq_true hi]
    rfl
  · exact ⟨_, congrArg Host.Outcome.next (cciServe_split hr 0x5101 _), cciAnswer_reads s cci 0x5101 rcBUSY exSPLIT []⟩
  · refine ⟨_, exec_fmSendPpbConfigRequest_write hr k o w, ?_, rfl⟩
    rw [cfgWrite_frame]
    exact cciAnswer_answered s _ cci 0x5103 rcSUCCESS 0 []
  · exact ⟨_, _, exec_fmSendPpbConfigRequest_read hr k o w, ppbRead_lt _ _ _, rfl, fun a ha => rd_cciAnswer_ne s.draw.2 _ _ _ _ _ ha⟩
  · exact fun hr hlat hstat herr => getTenantState_reads hr hlat hstat herr

end Sys2Proof.Machine
end

section
/-! PROOFS. SF_TEN_CTL (R208, R210): FM_CCI stands in one tenant alone. -/

namespace Sys2Proof.Machine

open Sys2Proof

theorem tenCtl_inj {t u : Nat} (h : SF_TEN_CTL t = SF_TEN_CTL u) : t = u := by unfold SF_TEN_CTL at h; omega

/-- FM_CCI after every tenant of a list but t has lost it. -/
theorem foldl_clearFmCci {t x : Nat} (hx : x ≠ t) (l : List Nat) (s : State) :
    (l.foldl (fun s u => if u = t then s else s.fset (SF_TEN_CTL u) SF_TEN_CTL_FM_CCI 0) s).flag (SF_TEN_CTL x) SF_TEN_CTL_FM_CCI
      = (decide (x ∉ l) && s.flag (SF_TEN_CTL x) SF_TEN_CTL_FM_CCI) := by
  induction l generalizing s with
  | nil => simp
  | cons u r ih =>
    rw [List.foldl_cons, ih]
    by_cases hu : u = x
    · subst hu
      rw [if_neg hx, State.flag, fget_fset_same _ _ _ _ (by decide)]
      simp
    · have hne : (if u = t then s else s.fset (SF_TEN_CTL u) SF_TEN_CTL_FM_CCI 0).flag (SF_TEN_CTL x) SF_TEN_CTL_FM_CCI
          = s.flag (SF_TEN_CTL x) SF_TEN_CTL_FM_CCI := by
        split
        · rfl
        · exact flag_fset_at_ne _ _ _ _ fun h => hu (tenCtl_inj h).symm
      have hmem : x ∈ u :: r ↔ x ∈ r := by simp [Ne.symm hu]
      rw [hne]
      simp only [hmem]

/-- What tenant t's own SF_TEN_CTL holds after a write. -/
theorem tenCtlWrite_rd (s : State) (t : Nat) (v : Word) :
    (tenCtlWrite s t v).rd (SF_TEN_CTL t)
      = (s.fsets (SF_TEN_CTL t) [(SF_TEN_CTL_HP_WAIT, bits v.toNat 23 8), (SF_TEN_CTL_FM_CCI, bits v.toNat 0 0)]).rd (SF_TEN_CTL t) := by
  unfold tenCtlWrite
  dsimp only
  split
  · refine foldl_keeps (State.rd · (SF_TEN_CTL t)) (fun u x _ => ?_) _
    split
    · rfl
    · next hx => exact rd_fset_ne _ _ _ fun h => hx (tenCtl_inj h).symm
  · rfl

theorem tenCtlWrite_hpWait (s : State) (t : Nat) (v : Word) :
    (tenCtlWrite s t v).fget (SF_TEN_CTL t) SF_TEN_CTL_HP_WAIT = bits v.toNat 23 8 := by
  rw [fget_of_rd_eq (tenCtlWrite_rd s t v)]
  show ((s.fset _ SF_TEN_CTL_HP_WAIT _).fset _ SF_TEN_CTL_FM_CCI _).fget _ _ = _
  rw [fget_fset_ne _ _ _ _ _ (by decide) (by decide), fget_fset_same _ _ _ _ (by decide)]
  exact Nat.mod_mod _ _

theorem tenCtlWrite_fmCci (s : State) (t : Nat) (v : Word) :
    (tenCtlWrite s t v).flag (SF_TEN_CTL t) SF_TEN_CTL_FM_CCI = v.getLsbD 0 := by
  rw [flag_of_rd_eq (tenCtlWrite_rd s t v)]
  show (((s.fset _ SF_TEN_CTL_HP_WAIT _).fset _ SF_TEN_CTL_FM_CCI _).fget _ _ != 0) = _
  rw [fget_fset_same _ _ _ _ (by decide), BitVec.getLsbD, Nat.testBit_zero, bits]
  have hbit : v.toNat % 2 = 0 ∨ v.toNat % 2 = 1 := by omega
  simp only [Nat.shiftRight_zero, show SF_TEN_CTL_FM_CCI.width = 1 from rfl]
  obtain hb | hb := hbit <;> simp [hb]

/-- Setting FM_CCI of one tenant clears every other's (R208). -/
theorem tenCtlWrite_others (s : State) {t x : Nat} (v : Word) (hx : x < 64) (hne : x ≠ t) :
    (tenCtlWrite s t v).flag (SF_TEN_CTL x) SF_TEN_CTL_FM_CCI = (!v.getLsbD 0 && s.flag (SF_TEN_CTL x) SF_TEN_CTL_FM_CCI) := by
  have hfsets : ∀ l, (s.fsets (SF_TEN_CTL t) l).flag (SF_TEN_CTL x) SF_TEN_CTL_FM_CCI = s.flag (SF_TEN_CTL x) SF_TEN_CTL_FM_CCI :=
    fun l => flag_of_rd_eq (rd_fsets_ne s l fun h => hne (tenCtl_inj h)) _
  unfold tenCtlWrite
  dsimp only
  split
  · next hv =>
    rw [foldl_clearFmCci hne, decide_eq_false (by simpa using hx), show v.getLsbD 0 = true from hv]
    rfl
  · next hv =>
    rw [hfsets, show v.getLsbD 0 = false from Bool.eq_false_of_not_eq_true hv]
    rfl

end Sys2Proof.Machine
end

section
/-! PROOFS. What tells a host (R115, R209, R212) changes what the Observer keeps and what has been sent, and nothing else. -/

namespace Sys2Proof.Machine

open Sys2Proof

/-- Two states that differ in what the Observer keeps and in what has been sent. -/
def hostOnly (s t : State) : Prop := t = { s with mgt := t.mgt, sent := t.sent }

theorem hostOnly_refl (s : State) : hostOnly s s := rfl

theorem hostOnly_trans {s t u : State} (h1 : hostOnly s t) (h2 : hostOnly t u) : hostOnly s u := by
  unfold hostOnly at *
  rw [h2, h1]

theorem hostOnly_emit (s : State) (x : Sent) : hostOnly s (s.emit x) := rfl

theorem hostOnly_modMgt (s : State) (f : Mgt → Mgt) : hostOnly s (s.modMgt f) := rfl

theorem hostOnly_ite {s a b : State} (c : Prop) [Decidable c] (ha : hostOnly s a) (hb : hostOnly s b) :
    hostOnly s (if c then a else b) := by split <;> assumption

theorem hostOnly_foldl {α : Type} {f : State → α → State} (hf : ∀ s x, hostOnly s (f s x)) (l : List α) (s : State) :
    hostOnly s (l.foldl f s) := by
  induction l generalizing s with
  | nil => exact hostOnly_refl s
  | cons x r ih => exact hostOnly_trans (hf s x) (ih _)

theorem hostOnly_rd {s t : State} (h : hostOnly s t) (a : Nat) : t.rd a = s.rd a := by rw [h]; rfl

theorem hostOnly_binds {s t : State} (h : hostOnly s t) : t.binds = s.binds := by rw [h]

/-- An error that is logged at a vPPB (R115). -/
theorem aerLog_hostOnly (s : State) (t v kind : Nat) (hdr : List Nat) : hostOnly s (aerLog s t v kind hdr) := by
  have hheader : ∀ u : State, hostOnly u (aerHeader u t v hdr) := hostOnly_foldl (fun u x => hostOnly_modMgt u _) _
  unfold aerLog
  extract_lets b st masked fatal u1 u2 u3 u4 told
  have h2 : hostOnly s u2 := hostOnly_ite _ (hostOnly_trans (hostOnly_emit s _) (hheader _)) (hostOnly_emit s _)
  have h4 : hostOnly s u4 := hostOnly_trans (hostOnly_trans h2 (hostOnly_modMgt _ _)) (hostOnly_modMgt _ _)
  exact hostOnly_ite _ (hostOnly_trans h4 (hostOnly_emit _ _)) h4

/-- The error that is logged leaves. -/
theorem mem_sent_aerLog (s : State) (t v kind : Nat) (hdr : List Nat) : .aer t v kind hdr ∈ (aerLog s t v kind hdr).sent := by
  have hheader : ∀ u : State, (aerHeader u t v hdr).sent = u.sent := foldl_keeps State.sent (fun _ _ _ => rfl)
  unfold aerLog
  extract_lets b st masked fatal u1 u2 u3 u4 told
  have h4 : .aer t v kind hdr ∈ u4.sent := by
    show _ ∈ u2.sent
    unfold u2
    split
    · rw [hheader]
      exact List.mem_cons_self
    · exact List.mem_cons_self
  split
  · exact List.mem_cons_of_mem _ h4
  · exact h4

end Sys2Proof.Machine
end

section
/-! PROOFS. FM commands that are passed on to a device, Physical Port Control, AER events, PBR tables and FM_CCI (R205, R208, R214). -/

namespace Sys2Proof.Machine

open Sys2Proof

/-! ### Commands passed on (R205) -/

/-- A command that is passed on leaves its class queue unchanged in all else, and goes to the device with its payload. -/
theorem cciForward_forwards {s : State} {cci d : Nat} (hr : cciReach s cci [nodeHalf d] = true) (code : Nat) (payload : List Nat) :
    let u := cciForward s cci code d payload
    onlyField { s with sent := u.sent } u (cciQueue s cci) OBS_CLS_STAT_QUEUED (s.fget (cciQueue s cci) OBS_CLS_STAT_QUEUED - 1)
      ∧ u.sent = .out outFORWARD (code :: d :: payload) :: s.sent := by
  rw [cciForward, cciServe_reached hr]
  exact ⟨onlyField_fset { s with sent := .out outFORWARD (code :: d :: payload) :: s.sent } _ _ _ (by decide), rfl⟩

/-! ### Physical Port Control (R214) -/

theorem slotStat_below (p : BitVec 5) : PRT_SLOT_STAT p.toNat < 0x0F000000 := by
  have := p.isLt
  unfold PRT_SLOT_STAT
  omega

theorem setPerst_flag (s : State) (p : Nat) (low : Bool) :
    (setPerst s p low).flag (PRT_SLOT_STAT p) PRT_SLOT_STAT_PERST = low := by
  unfold setPerst
  rw [State.flag, State.fsetB, fget_fset_same _ _ _ _ (by decide)]
  cases low <;> rfl

theorem flag_cciAnswer_slot (s : State) (cci code ret ext : Nat) (data : List Nat) (p : BitVec 5) (f : Fld) :
    (cciAnswer s cci code ret ext data).flag (PRT_SLOT_STAT p.toNat) f = s.flag (PRT_SLOT_STAT p.toNat) f :=
  flag_of_rd_eq (rd_cciAnswer_below s _ _ _ _ _ (slotStat_below p)) f

theorem exec_ppcAssertPerst {s : State} {cci : Nat} {p : BitVec 5} (hr : cciReach s cci [portHalf p.toNat] = true) :
    exec (.ppcAssertPerst cci p) s = .next (cciAnswer (setPerst (s.modMgt fun m =>
      { m with perst := p.toNat :: m.perst.filter fun q => q ≠ p.toNat }) p.toNat true) cci opPPC rcSUCCESS 0 []) :=
  congrArg Host.Outcome.next (cciServe_reached hr opPPC _)

/-- The state in which the FM holds a slot's PERST low no more. -/
def perstFreed (s : State) (p : Nat) : State := s.modMgt fun m => { m with perst := m.perst.filter fun q => q ≠ p }

theorem exec_ppcDeassertPerst {s : State} {cci : Nat} {p : BitVec 5} (hr : cciReach s cci [portHalf p.toNat] = true) :
    exec (.ppcDeassertPerst cci p) s = .next (cciAnswer (if perstMay (perstFreed s p.toNat) p.toNat
      then setPerst (perstFreed s p.toNat) p.toNat false else perstFreed s p.toNat) cci opPPC rcSUCCESS 0 []) :=
  congrArg Host.Outcome.next (cciServe_reached hr opPPC _)

theorem exec_ppcResetPpb {s : State} {cci : Nat} {p : BitVec 5} (hr : cciReach s cci [portHalf p.toNat] = true) (k : BitVec 2) :
    exec (.ppcResetPpb cci p k) s = .next (cciAnswer (if mayTrain s (subNode p.toNat k.toNat)
      then subDown s (subNode p.toNat k.toNat) false else s) cci opPPC rcSUCCESS 0 []) :=
  congrArg Host.Outcome.next (cciServe_reached hr opPPC _)

/-- A sub-port that is reset goes to Detect. -/
theorem ppcResetPpb_down {s : State} {cci : Nat} {p : BitVec 5} {k : BitVec 2} (hr : cciReach s cci [portHalf p.toNat] = true)
    (hmay : mayTrain s (subNode p.toNat k.toNat) = true) :
    ∃ u, exec (.ppcResetPpb cci p k) s = .next u ∧ .ans opPPC rcSUCCESS [cci, 0] ∈ u.sent
      ∧ linkPm u (subNode p.toNat k.toNat) = pmDOWN ∧ u.fget (PRT_LNK_STAT p.toNat k.toNat) PRT_LNK_STAT_TWIDTH = 0 := by
  have hbelow : PRT_LNK_STAT p.toNat k.toNat < 0x0F000000 := by
    have := (lnkStat_portReg p k).2
    omega
  obtain ⟨hpm, hwidth, -⟩ := isDown_of_rd_eq (subDown_isDown s p k false)
    (rd_cciAnswer_below (subDown s (subNode p.toNat k.toNat) false) cci opPPC rcSUCCESS 0 [] hbelow)
  refine ⟨_, (exec_ppcResetPpb hr k).trans (by rw [if_pos hmay]), List.mem_cons_self, ?_, hwidth⟩
  rwa [linkPm, subNode_div, subNode_mod]

/-! ### FM_CCI (R208) -/

theorem exec_setSwitchCciTenant {s : State} {cci : Nat} {t : BitVec 6} (hr : cciReach s cci [tenantHalf t.toNat] = true) (on : Bool) :
    exec (.setSwitchCciTenant cci t on) s = .next (cciAnswer (tenCtlWrite s t.toNat
      (fldPut (s.rd (SF_TEN_CTL t.toNat)) SF_TEN_CTL_FM_CCI on.toNat)) cci 0xC022 rcSUCCESS 0 []) :=
  congrArg Host.Outcome.next (cciServe_reached hr 0xC022 _)

theorem setSwitchCciTenant_sets {s : State} {cci : Nat} {t : BitVec 6} (hr : cciReach s cci [tenantHalf t.toNat] = true) (on : Bool) :
    ∃ u, exec (.setSwitchCciTenant cci t on) s = .next u ∧ .ans 0xC022 rcSUCCESS [cci, 0] ∈ u.sent
      ∧ u.flag (SF_TEN_CTL t.toNat) SF_TEN_CTL_FM_CCI = on
      ∧ u.fget (SF_TEN_CTL t.toNat) SF_TEN_CTL_HP_WAIT = s.fget (SF_TEN_CTL t.toNat) SF_TEN_CTL_HP_WAIT
      ∧ ∀ x, x < 64 → x ≠ t.toNat →
          u.flag (SF_TEN_CTL x) SF_TEN_CTL_FM_CCI = (!on && s.flag (SF_TEN_CTL x) SF_TEN_CTL_FM_CCI) := by
  have hrd : ∀ (w : State) x, x < 64 → (cciAnswer w cci 0xC022 rcSUCCESS 0 []).rd (SF_TEN_CTL x) = w.rd (SF_TEN_CTL x) :=
    fun w x hx => rd_cciAnswer_below w _ _ _ _ _ (by unfold SF_TEN_CTL; omega)
  have hbit : (fldPut (s.rd (SF_TEN_CTL t.toNat)) SF_TEN_CTL_FM_CCI on.toNat).getLsbD 0 = on := by
    rw [getLsbD_fldPut]
    cases on <;> rfl
  refine ⟨_, exec_setSwitchCciTenant hr on, List.mem_cons_self, ?_, ?_, fun x hx hne => ?_⟩
  · rw [flag_of_rd_eq (hrd _ _ t.isLt), tenCtlWrite_fmCci, hbit]
  · rw [fget_of_rd_eq (hrd _ _ t.isLt), tenCtlWrite_hpWait]
    exact fldGet_fldPut_ne _ SF_TEN_CTL_FM_CCI SF_TEN_CTL_HP_WAIT _ (by decide) (by decide)
  · rw [flag_of_rd_eq (hrd _ _ hx), tenCtlWrite_others _ _ hx hne, hbit]

/-! ### AER events and PBR tables (R205) -/

/-- An AER event is logged at the vPPB and answered. -/
theorem fmGenerateAerEvent_logs {s : State} {cci : Nat} {t v : BitVec 6} (hr : cciReach s cci [tenantHalf t.toNat] = true)
    (hv : v.toNat ≤ 32) (kind : Nat) :
    ∃ u, exec (.fmGenerateAerEvent cci t v kind) s = .next u ∧ .ans 0x5203 rcSUCCESS [cci, 0] ∈ u.sent
      ∧ .aer t.toNat v.toNat kind [] ∈ u.sent ∧ onlyField { s with sent := u.sent, mgt := u.mgt } u (cciQueue s cci) OBS_CLS_STAT_QUEUED
        (s.fget (cciQueue s cci) OBS_CLS_STAT_QUEUED - 1) := by
  have hexec : exec (.fmGenerateAerEvent cci t v kind) s
      = .next (cciAnswer (aerLog s t.toNat v.toNat kind []) cci 0x5203 rcSUCCESS 0 []) :=
    congrArg Host.Outcome.next ((cciServe_reached hr 0x5203 _).trans (if_neg (by omega)))
  refine ⟨_, hexec, List.mem_cons_self, List.mem_cons_of_mem _ (mem_sent_aerLog s _ _ kind []), ?_⟩
  rw [aerLog_hostOnly s t.toNat v.toNat kind []]
  exact cciAnswer_onlyField s _ _ cci 0x5203 rcSUCCESS 0 []

theorem exec_fmGenerateAerEvent_refused {s : State} {cci : Nat} {t v : BitVec 6} (hr : cciReach s cci [tenantHalf t.toNat] = true)
    (hv : 32 < v.toNat) (kind : Nat) :
    exec (.fmGenerateAerEvent cci t v kind) s = .next (cciAnswer s cci 0x5203 rcINVALID 0 []) :=
  congrArg Host.Outcome.next ((cciServe_reached hr 0x5203 _).trans (if_pos hv))

theorem exec_fmPbrCommand_held {s : State} {tbl idx x : Nat} (hx : mfind s.mgt.pbr (tbl * 2 ^ 32 + idx) = some x) (cci code : Nat) :
    exec (.fmPbrCommand cci code true tbl idx none) s = .next (cciAnswer s cci code rcSUCCESS 0 [x]) := by
  show execFmPbrCommand cci code true tbl idx none s = _
  rw [execFmPbrCommand, if_neg (by decide)]
  dsimp only
  rw [hx]

theorem exec_fmPbrCommand_free {s : State} {tbl idx : Nat} (hx : mfind s.mgt.pbr (tbl * 2 ^ 32 + idx) = none) (cci code : Nat) :
    exec (.fmPbrCommand cci code true tbl idx none) s = .next (cciAnswer s.draw.2 cci code rcSUCCESS 0 [s.draw.1]) := by
  show execFmPbrCommand cci code true tbl idx none s = _
  rw [execFmPbrCommand, if_neg (by decide)]
  dsimp only
  rw [hx]
  rfl

/-! ### O52 -/

/-- Settles O52, command by command. -/
theorem fmForwardsAndControls : Obligations.FmForwardsAndControls := by
  intro s cci code kind payload t v p k ld on tbl idx x T P d cls entry perst forwards answers
  refine ⟨fun hr => ⟨?_, ?_, ?_, ?_⟩, fun hr => ⟨?_, ?_, fun hmay _ => ppcResetPpb_down hr hmay, fun hmay => ?_⟩,
    fun hr => ⟨fun hv => fmGenerateAerEvent_logs hr hv kind, fun hv => ⟨_, exec_fmGenerateAerEvent_refused hr hv kind, rfl⟩,
      setSwitchCciTenant_sets hr on⟩, ?_, fun hx => ?_, fun hx => ?_, ?_, ?_⟩
  · exact ⟨_, rfl, cciForward_forwards hr _ _⟩
  · exact ⟨_, rfl, cciForward_forwards hr _ _⟩
  · exact ⟨_, rfl, cciForward_forwards hr _ _⟩
  · exact ⟨_, rfl, cciForward_forwards hr _ _⟩
  · exact ⟨_, exec_ppcAssertPerst hr, List.mem_cons_self, (flag_cciAnswer_slot _ _ _ _ _ _ p _).trans (setPerst_flag _ _ _),
      List.mem_cons_self⟩
  · refine ⟨_, exec_ppcDeassertPerst hr, List.mem_cons_self, ?_, (flag_cciAnswer_slot _ _ _ _ _ _ p _).trans ?_⟩
    · have hfreed : P ∉ (perstFreed s P).mgt.perst := by simp [perstFreed, State.modMgt]
      show P ∉ (if perstMay (perstFreed s P) P then setPerst (perstFreed s P) P false else perstFreed s P).mgt.perst
      split <;> exact hfreed
    · have hmgt : (cciAnswer (if perstMay (perstFreed s P) P then setPerst (perstFreed s P) P false else perstFreed s P)
          cci opPPC rcSUCCESS 0 []).mgt = (perstFreed s P).mgt := by
        show (if perstMay (perstFreed s P) P then setPerst (perstFreed s P) P false else perstFreed s P).mgt = _
        split <;> rfl
      rw [hmgt]
      show _ = (perst s && !perstMay (perstFreed s P) P)
      split
      · next hmay => rw [setPerst_flag, hmay]; simp
      · next hmay => rw [Bool.eq_false_of_not_eq_true hmay]; exact (Bool.and_true _).symm
  · exact ⟨_, (exec_ppcResetPpb hr k).trans (by rw [if_neg (by rw [hmay]; decide)]), List.mem_cons_self,
      cciAnswer_onlyRegs s cci opPPC rcSUCCESS 0 []⟩
  · obtain ⟨hd, hsent⟩ := cciAnswer_answered s { s.mgt with pbr := minsert s.mgt.pbr entry x } cci code rcSUCCESS 0 [x]
    exact ⟨_, rfl, hsent, hd.1, mfind_minsert_same _ _ _, fun j hj => mfind_minsert_ne _ _ hj⟩
  · exact ⟨_, exec_fmPbrCommand_held hx cci code, rfl, cciAnswer_onlyRegs s cci code rcSUCCESS 0 [x]⟩
  · exact ⟨_, _, exec_fmPbrCommand_free hx cci code, rfl, fun a ha => rd_cciAnswer_ne s.draw.2 _ _ _ _ _ ha⟩
  · exact ⟨_, rfl, rfl, cciAnswer_onlyRegs s cci code rcUNSUPPORTED 0 []⟩
  · exact ⟨_, rfl, rfl, cciAnswer_onlyRegs s cci code rcUNSUPPORTED 0 []⟩

end Sys2Proof.Machine
end

section
/-! PROOFS. Staged rows, the staging ring and vPPBs (R64, R199, R209, R212): what each operation of the Observer changes. -/

namespace Sys2Proof.Machine

open Sys2Proof

/-! ### Writes of registers alone -/

theorem onlyRegs_mgt {l : List Nat} {s u : State} (hu : onlyRegs l s u) : u.mgt = s.mgt := by rw [hu.1]

theorem onlyRegs_refl (l : List Nat) (s : State) : onlyRegs l s s := ⟨rfl, fun _ _ => rfl⟩

theorem onlyRegs_mono {l l' : List Nat} {s u : State} (hl : ∀ a ∈ l, a ∈ l') (hu : onlyRegs l s u) : onlyRegs l' s u :=
  ⟨hu.1, fun a ha => hu.2 a fun h => ha (hl a h)⟩

/-! ### The staging ring (R64) -/

/-- The registers of a half's staging ring that posting an entry may write. -/
def ringRegs (h : Half) : List Nat :=
  TRP_SRING_TAIL h :: (List.range 256).flatMap fun i => (List.range 8).map fun k => TRP_SRING h i k

/-- Registers outside the Tirop pairs' block are none of the staging ring. -/
theorem not_mem_ringRegs {h : Half} {a : Nat} (ha : a < 0x0B000000 ∨ 0x0C000000 ≤ a) : a ∉ ringRegs h := by
  have hi := half_idx_lt h
  simp only [ringRegs, List.mem_cons, List.mem_flatMap, List.mem_map, List.mem_range, not_or, not_exists, not_and]
  refine ⟨by unfold TRP_SRING_TAIL; omega, fun i hn k hk he => ?_⟩
  unfold TRP_SRING at he
  omega

theorem onlyRegs_foldl {α : Type} {l : List Nat} {f : State → α → State} {xs : List α} (hf : ∀ s, ∀ x ∈ xs, onlyRegs l s (f s x)) (s : State) :
    onlyRegs l s (xs.foldl f s) := by
  induction xs generalizing s with
  | nil => exact onlyRegs_refl l s
  | cons x r ih =>
    exact onlyRegs_mono (by simp) (onlyRegs_trans (hf s x (by simp)) (ih (fun u y hy => hf u y (by simp [hy])) (f s x)))

theorem ringPost_onlyRegs (s : State) (h : Half) (what : List Nat) : onlyRegs (ringRegs h) s (ringPost s h what) := by
  have hslot : s.fget (TRP_SRING_TAIL h) TRP_SRING_TAIL_PTR < 256 := fget_lt s _ TRP_SRING_TAIL_PTR
  unfold ringPost
  extract_lets i u
  split
  · exact onlyRegs_refl _ s
  · have hwords : onlyRegs (ringRegs h) s u := onlyRegs_foldl (fun w k hk => onlyRegs_mono (fun b hb => by
      obtain rfl := List.mem_singleton.mp hb
      exact List.mem_cons_of_mem _ (List.mem_flatMap.mpr ⟨i, List.mem_range.mpr hslot, List.mem_map.mpr ⟨k, hk, rfl⟩⟩))
      (onlyRegs_wr w _ _)) s
    refine onlyRegs_mono (fun b hb => ?_) (onlyRegs_trans hwords (onlyRegs_wr u _ _))
    obtain hb | hb := List.mem_append.mp hb
    · exact hb
    · exact List.mem_cons.mpr (Or.inl (List.mem_singleton.mp hb))

theorem ringPost_rd (s : State) (h : Half) (what : List Nat) {a : Nat} (ha : a < 0x0B000000 ∨ 0x0C000000 ≤ a) :
    (ringPost s h what).rd a = s.rd a := (ringPost_onlyRegs s h what).2 a (not_mem_ringRegs ha)

@[simp] theorem ringPost_mgt (s : State) (h : Half) (what : List Nat) : (ringPost s h what).mgt = s.mgt :=
  onlyRegs_mgt (ringPost_onlyRegs s h what)

@[simp] theorem ringPost_sent (s : State) (h : Half) (what : List Nat) : (ringPost s h what).sent = s.sent :=
  onlyRegs_sent (ringPost_onlyRegs s h what)

/-! ### Staged rows (R199, R213) -/

/-- The row at a holds some words, with its TICKET alone in word 2: PENDING and no CANCEL. -/
def rowStaged (u : State) (a : Nat) (ws : List Word) (tk : BitVec 16) : Prop :=
  ∀ i, i < 8 → u.rd (a + 4 * i) = if i = 2 then BitVec.ofNat 32 tk.toNat else ws.getD i 0

theorem rowStaged_congr {u v : State} {a : Nat} {ws : List Word} {tk : BitVec 16} (hu : rowStaged u a ws tk)
    (hrd : ∀ b, a ≤ b → b < a + 32 → v.rd b = u.rd b) : rowStaged v a ws tk :=
  fun i hi => (hrd _ (by omega) (by omega)).trans (hu i hi)

theorem stageRow_staged (s : State) (a : Nat) (ws : List Word) (tk : BitVec 16) :
    rowStaged (stageRow s a ws tk.toNat) a ws tk := by
  intro i hi
  have htk : tk.toNat % 65536 = tk.toNat := Nat.mod_eq_of_lt tk.isLt
  have hlen : ((ws ++ List.replicate 8 (0 : Word)).take 8).length = 8 := by simp
  have hget : ((ws ++ List.replicate 8 (0 : Word)).take 8).getD i 0 = ws.getD i 0 := by
    simp only [List.getD_eq_getElem?_getD, List.getElem?_take, hi, if_true, List.getElem?_append, List.getElem?_replicate]
    split
    · rfl
    · next h => rw [List.getElem?_eq_none (by omega)]; split <;> rfl
  rw [stageRow, rd_wrWords _ _ _ (by simpa [hlen] using hi), htk]
  simp only [List.getD_eq_getElem?_getD, List.getElem?_set, hlen] at hget ⊢
  by_cases h2 : i = 2
  · simp [h2]
  · rw [if_neg (Ne.symm h2), if_neg h2, hget]

theorem stageRow_onlyRegs (s : State) (a : Nat) (ws : List Word) (tk : Nat) :
    onlyRegs ((List.range 8).map fun i => a + 4 * i) s (stageRow s a ws tk) := by
  have hlen : (((ws ++ List.replicate 8 (0 : Word)).take 8).set 2 (BitVec.ofNat 32 (tk % 65536))).length = 8 := by simp
  have h := onlyRegs_wrWords (((ws ++ List.replicate 8 (0 : Word)).take 8).set 2 (BitVec.ofNat 32 (tk % 65536))) s a
  rwa [hlen] at h

theorem stageRow_rd_ne (s : State) {a b : Nat} (ws : List Word) (tk : Nat) (hb : b < a ∨ a + 32 ≤ b) :
    (stageRow s a ws tk).rd b = s.rd b := by
  refine (stageRow_onlyRegs s a ws tk).2 b ?_
  simp only [List.mem_map, List.mem_range, not_exists, not_and]
  omega

@[simp] theorem stageRow_mgt (s : State) (a : Nat) (ws : List Word) (tk : Nat) : (stageRow s a ws tk).mgt = s.mgt :=
  onlyRegs_mgt (stageRow_onlyRegs s a ws tk)

@[simp] theorem stageRow_sent (s : State) (a : Nat) (ws : List Word) (tk : Nat) : (stageRow s a ws tk).sent = s.sent :=
  onlyRegs_sent (stageRow_onlyRegs s a ws tk)

/-- A row outside the Tirop pairs' block stays staged when the Observer posts it. -/
theorem ringPost_staged {s : State} {a : Nat} {ws : List Word} {tk : BitVec 16} (hs : rowStaged s a ws tk)
    (ha : a + 32 ≤ 0x0B000000 ∨ 0x0C000000 ≤ a) (h : Half) (what : List Nat) : rowStaged (ringPost s h what) a ws tk :=
  rowStaged_congr hs fun b _ _ => ringPost_rd s h what (by omega)

/-- Rows of a tenant's binding table lie in the tenants' block (R199). -/
theorem bstage_block {t n : Nat} (ht : t < 64) (hn : n < 128) :
    0x0A000000 ≤ SF_BSTAGE t n 0 ∧ SF_BSTAGE t n 0 + 32 ≤ 0x0B000000 := by
  unfold SF_BSTAGE
  omega

theorem bstage_apart_stat (t n u : Nat) (hn : n < 128) :
    SF_TEN_STAT u < SF_BSTAGE t n 0 ∨ SF_BSTAGE t n 0 + 32 ≤ SF_TEN_STAT u := by
  unfold SF_BSTAGE SF_TEN_STAT
  omega

/-! ### What a vPPB reports (R209, R212) -/

theorem setVp_vp_same (s : State) (t v : Nat) (x : Vp) : (s.setVp t v x).vp t v = x := by
  simp [State.vp, State.setVp, State.modMgt]

theorem hpSignal_hostOnly (s : State) (t v : Nat) (p d : Bool) : hostOnly s (hpSignal s t v p d) := by
  unfold hpSignal
  extract_lets c u
  have hu : hostOnly s u := hostOnly_ite _ (hostOnly_emit s _) (hostOnly_refl s)
  refine hostOnly_ite _ (hostOnly_ite _ ?_ hu) (hostOnly_refl s)
  exact hostOnly_trans hu (hostOnly_trans (hostOnly_modMgt u _) (hostOnly_emit _ _))

theorem cfgOnly_of {m n : Mgt} (k : Mgt) (hk : k = { m with cfg := k.cfg }) (hm : m = n) : k = { n with cfg := k.cfg } := by
  subst hm
  exact hk

/-- The interrupt and the PME of a vPPB change the stored configuration registers alone of what the Observer keeps. -/
theorem hpSignal_mgt (s : State) (t v : Nat) (p d : Bool) :
    (hpSignal s t v p d).mgt = { s.mgt with cfg := (hpSignal s t v p d).mgt.cfg } := by
  unfold hpSignal
  extract_lets c u
  have hu : u.mgt = s.mgt := by
    unfold u
    split <;> rfl
  split
  · split
    · exact cfgOnly_of _ rfl hu
    · rw [hu]
  · rfl

/-- No message that has left is taken back. -/
theorem hpSignal_sent (s : State) (t v : Nat) (p d : Bool) : s.sent ⊆ (hpSignal s t v p d).sent := by
  unfold hpSignal
  extract_lets c u
  have hu : s.sent ⊆ u.sent := by
    unfold u
    split
    · exact List.subset_cons_self _ _
    · exact List.Subset.refl _
  split
  · split
    · exact List.subset_cons_of_subset _ hu
    · exact hu
  · exact List.Subset.refl _

/-- A vPPB after a report: the two states as told, the changes named marked beside those marked before. -/
def reported (x : Vp) (pds dlla p d : Bool) : Vp := { x with pds := pds, dlla := dlla, pdc := x.pdc || p, dllsc := x.dllsc || d }

theorem vpReport_cases (s : State) (t v : Nat) (pds dlla p d : Bool) :
    let u := s.setVp t v (reported (s.vp t v) pds dlla p d)
    vpReport s t v pds dlla p d = u ∨ ∃ x, vpReport s t v pds dlla p d = hpSignal (u.emit x) t v p d := by
  unfold vpReport reported
  dsimp only
  split
  · exact Or.inr ⟨_, rfl⟩
  · exact Or.inl rfl

theorem vpReport_hostOnly (s : State) (t v : Nat) (pds dlla p d : Bool) : hostOnly s (vpReport s t v pds dlla p d) := by
  obtain h | ⟨x, h⟩ := vpReport_cases s t v pds dlla p d
  · rw [h]; exact hostOnly_modMgt s _
  · rw [h]; exact hostOnly_trans (hostOnly_modMgt s _) (hostOnly_trans (hostOnly_emit _ _) (hpSignal_hostOnly _ _ _ _ _))

/-- A report changes the vPPB and the stored configuration registers of what the Observer keeps. -/
theorem vpReport_mgt (s : State) (t v : Nat) (pds dlla p d : Bool) :
    (vpReport s t v pds dlla p d).mgt = { s.mgt with
      vpp := minsert s.mgt.vpp (vpKey t v) (reported (s.vp t v) pds dlla p d), cfg := (vpReport s t v pds dlla p d).mgt.cfg } := by
  obtain h | ⟨x, h⟩ := vpReport_cases s t v pds dlla p d
  · rw [h]; rfl
  · rw [h, hpSignal_mgt]; rfl

theorem vpReport_sent (s : State) (t v : Nat) (pds dlla p d : Bool) : s.sent ⊆ (vpReport s t v pds dlla p d).sent := by
  obtain h | ⟨x, h⟩ := vpReport_cases s t v pds dlla p d
  · rw [h]; exact List.Subset.refl _
  · rw [h]; exact fun y hy => hpSignal_sent _ _ _ _ _ (List.mem_cons_of_mem _ hy)

theorem vpReport_vp_same (s : State) (t v : Nat) (pds dlla p d : Bool) :
    (vpReport s t v pds dlla p d).vp t v = reported (s.vp t v) pds dlla p d := by
  rw [State.vp, vpReport_mgt, mfind_minsert_same, Option.getD_some]

theorem vpReport_vp_ne (s : State) {t v t' v' : Nat} (pds dlla p d : Bool) (h : vpKey t' v' ≠ vpKey t v) :
    (vpReport s t v pds dlla p d).vp t' v' = s.vp t' v' := by
  rw [State.vp, vpReport_mgt, mfind_minsert_ne _ _ h]
  rfl

theorem vpReport_rd (s : State) (t v : Nat) (pds dlla p d : Bool) (a : Nat) : (vpReport s t v pds dlla p d).rd a = s.rd a :=
  hostOnly_rd (vpReport_hostOnly s t v pds dlla p d) a

end Sys2Proof.Machine
end

section
/-! PROOFS. The start of a tenant reset (R217, R218, R255, R373). -/

namespace Sys2Proof.Machine

open Sys2Proof

/-! ### The functions of the tenant -/

theorem modFn_fn_same (s : State) (t n : Nat) (f : Fn → Fn) : (s.modFn t n f).fn t n = f (s.fn t n) := by
  simp [State.modFn, State.fn]

theorem fn_congr {s u : State} (h : u.fns = s.fns) (t n : Nat) : u.fn t n = s.fn t n := by rw [State.fn, h, State.fn]

/-- An FLR that begins is under way (R373). -/
theorem flrBegin_flr (s : State) (t fn : Nat) (withdraw remove : Bool) :
    ((flrBegin s t fn withdraw remove).fn t fn).flr.isSome = true := by
  unfold flrBegin
  extract_lets k f u1 u2 u3
  have h1 : (u1.fn t fn).flr.isSome = true := by
    unfold u1
    split
    · next hsome => exact hsome
    · rw [modFn_fn_same]; rfl
  have h2 : (u2.fn t fn).flr = (u1.fn t fn).flr := by
    unfold u2
    rw [modFn_fn_same]
  have h3 : u3.fns = u2.fns := by
    unfold u3
    split <;> rfl
  rw [setAlive, fn_congr (State.fsets_fns _ _ _) t fn]
  show (u3.fn t fn).flr.isSome = true
  rw [fn_congr h3, h2, h1]

/-- What an FLR's start leaves as it was: all but the functions, their registers and the messages on their way. -/
def fnOnly (s u : State) : Prop := u = { s with regs := u.regs, fns := u.fns, net := u.net }

theorem fnOnly_trans {s t u : State} (h1 : fnOnly s t) (h2 : fnOnly t u) : fnOnly s u := by
  unfold fnOnly at *
  rw [h2, h1]

theorem fnOnly_ite {s a b : State} (c : Prop) [Decidable c] (ha : fnOnly s a) (hb : fnOnly s b) : fnOnly s (if c then a else b) := by
  split <;> assumption

theorem fnOnly_fsets (s : State) (a : Nat) (l : List (Fld × Nat)) : fnOnly s (s.fsets a l) := by
  induction l generalizing s with
  | nil => exact rfl
  | cons x r ih => exact fnOnly_trans (t := s.fset a x.1 x.2) rfl (ih _)

theorem fnOnly_foldl {α : Type} {f : State → α → State} (hf : ∀ s x, fnOnly s (f s x)) (l : List α) (s : State) :
    fnOnly s (l.foldl f s) := by
  induction l generalizing s with
  | nil => exact rfl
  | cons x r ih => exact fnOnly_trans (hf s x) (ih _)

theorem fnOnly_sent {s u : State} (h : fnOnly s u) : u.sent = s.sent := by rw [h]

theorem fnOnly_mgt {s u : State} (h : fnOnly s u) : u.mgt = s.mgt := by rw [h]

theorem flrBegin_fnOnly (s : State) (t fn : Nat) (withdraw remove : Bool) : fnOnly s (flrBegin s t fn withdraw remove) := by
  unfold flrBegin
  extract_lets k f u1 u2 u3
  have h1 : fnOnly s u1 := fnOnly_ite _ rfl rfl
  have h2 : fnOnly s u2 := fnOnly_trans h1 rfl
  have h3 : fnOnly s u3 := fnOnly_ite _ (fnOnly_trans h2 rfl) h2
  exact fnOnly_trans h3 (fnOnly_trans (t := quarFn (u3.fset (SF_FN_STAT t fn) SF_FN_STAT_FLR 1) k false) rfl (fnOnly_fsets _ _ _))

/-- The registers of the functions lie in the hosts' BARs, above Control Space (R345). -/
theorem flrBegin_rd (s : State) (t fn : Nat) (withdraw remove : Bool) {a : Nat} (ha : a < 0x200000000) :
    (flrBegin s t fn withdraw remove).rd a = s.rd a := by
  have hstat : a ≠ SF_FN_STAT t fn := by unfold SF_FN_STAT; omega
  have halive : a ≠ SF_ALIVE t fn := by unfold SF_ALIVE; omega
  unfold flrBegin
  extract_lets k f u1 u2 u3
  have h1 : u1.rd a = s.rd a := by
    unfold u1
    split <;> rfl
  have h3 : u3.rd a = s.rd a := by
    unfold u3
    split
    · exact (rd_fset_ne _ _ _ hstat).trans h1
    · exact h1
  exact (rd_fsets_ne _ _ halive).trans ((rd_fset_ne u3 _ _ hstat).trans h3)

/-! ### The reset of a tenant's functions -/

/-- The state in which the functions of a tenant begin their FLRs: a migration ends, VF Enable and NumVFs are cleared. -/
def pfCleared (s : State) (t : Nat) : State :=
  ((migReset s t).modFn t 0 fun f => { f with
    vfe := false, numvfs := 0, totalVfs := min 255 ((migReset s t).fget (SF_POOL t) SF_POOL_QUOTA) }).fset (SF_PF_STAT t) SF_PF_STAT_NUMVF 0

theorem flrPf_eq (s : State) (t : Nat) (withdraw : Bool) : flrPf s t withdraw
    = flrBegin ((vfsOf (pfCleared s t) t).foldl (fun s v => flrBegin s t v withdraw (!withdraw)) (pfCleared s t)) t 0 withdraw false :=
  rfl

theorem pfCleared_fnOnly (s : State) (t : Nat) : fnOnly s (pfCleared s t) := by
  have hmig : fnOnly s (migReset s t) := fnOnly_ite _ (fnOnly_trans (fnOnly_fsets s _ _) rfl) rfl
  exact fnOnly_trans hmig rfl

theorem pfCleared_rd (s : State) {t a : Nat} (ha : a < 0x200000000) (hne : a ≠ SF_PF_STAT t) : (pfCleared s t).rd a = s.rd a := by
  have hmig : (migReset s t).rd a = s.rd a := by
    unfold migReset
    split
    · exact rd_fsets_ne s _ (by unfold SF_MIG_STAT; omega)
    · rfl
  exact (rd_fset_ne _ _ _ hne).trans hmig

theorem flrPf_fnOnly (s : State) (t : Nat) (withdraw : Bool) : fnOnly s (flrPf s t withdraw) := by
  rw [flrPf_eq]
  exact fnOnly_trans (fnOnly_trans (pfCleared_fnOnly s t) (fnOnly_foldl (fun u v => flrBegin_fnOnly u t v _ _) _ _))
    (flrBegin_fnOnly _ _ _ _ _)

theorem flrPf_rd_pfCleared (s : State) (t : Nat) (withdraw : Bool) {a : Nat} (ha : a < 0x200000000) :
    (flrPf s t withdraw).rd a = (pfCleared s t).rd a := by
  rw [flrPf_eq, flrBegin_rd _ _ _ _ _ ha]
  exact foldl_rd (fun u v => flrBegin_rd u t v _ _ ha) _ _

theorem flrPf_flr (s : State) (t : Nat) (withdraw : Bool) : ((flrPf s t withdraw).fn t 0).flr.isSome = true := by
  rw [flrPf_eq]
  exact flrBegin_flr _ _ _ _ _

theorem flrPf_numvf (s : State) {t : Nat} (ht : t < 64) (withdraw : Bool) :
    (flrPf s t withdraw).fget (SF_PF_STAT t) SF_PF_STAT_NUMVF = 0 := by
  rw [fget_of_rd_eq (flrPf_rd_pfCleared s t withdraw (by unfold SF_PF_STAT; omega)), pfCleared, fget_fset_same _ _ _ _ (by decide)]
  rfl

/-! ### The scrub of the tenant's lines (R255) -/

theorem queueJob_cases (s : State) (h : Half) (j : CatJob) :
    (queueJob s h j = s ∧ j ∈ (s.cat.get h).jobs) ∨
      queueJob s h j = scrubStat (s.modCat h fun c => { c with jobs := c.jobs ++ [j] }) h := by
  unfold queueJob
  split
  · next hj => exact Or.inl ⟨rfl, by simpa using hj⟩
  · exact Or.inr rfl

/-- Queueing a job changes the Catalogue's jobs and CAT_SCRUB. -/
theorem queueJob_frame (s : State) (h : Half) (j : CatJob) :
    queueJob s h j = { s with regs := (queueJob s h j).regs, cat := (queueJob s h j).cat } := by
  obtain ⟨he, -⟩ | he := queueJob_cases s h j
  · rw [he]
  · rw [he]; rfl

@[simp] theorem queueJob_sent (s : State) (h : Half) (j : CatJob) : (queueJob s h j).sent = s.sent := by rw [queueJob_frame]

@[simp] theorem queueJob_mgt (s : State) (h : Half) (j : CatJob) : (queueJob s h j).mgt = s.mgt := by rw [queueJob_frame]

theorem queueJob_rd (s : State) (h : Half) (j : CatJob) {a : Nat} (ha : 0x06000000 ≤ a) : (queueJob s h j).rd a = s.rd a := by
  have hi := half_idx_lt h
  obtain ⟨he, -⟩ | he := queueJob_cases s h j
  · rw [he]
  · rw [he]
    exact rd_wr64_ne _ (by unfold CAT_SCRUB_LO; omega) (by unfold CAT_SCRUB_LO; omega)

theorem queueJob_mem (s : State) (h : Half) (j : CatJob) : j ∈ ((queueJob s h j).cat.get h).jobs := by
  obtain ⟨he, hj⟩ | he := queueJob_cases s h j
  · rwa [he]
  · rw [he]
    show j ∈ ((s.cat.set h { s.cat.get h with jobs := (s.cat.get h).jobs ++ [j] }).get h).jobs
    simp

theorem queueJob_keeps (s : State) (h g : Half) (j k : CatJob) (hk : k ∈ (s.cat.get g).jobs) :
    k ∈ ((queueJob s h j).cat.get g).jobs := by
  obtain ⟨he, -⟩ | he := queueJob_cases s h j
  · rwa [he]
  · rw [he]
    show k ∈ ((s.cat.set h { s.cat.get h with jobs := (s.cat.get h).jobs ++ [j] }).get g).jobs
    by_cases hg : g = h
    · subst hg
      rw [pair_get_set_same]
      exact List.mem_append_left _ hk
    · rw [half_eq_other hg] at hk ⊢
      rw [pair_get_set_other]
      exact hk

/-! ### The start (R217, R218) -/

/-- A tenant reset has begun: RST is set, its Transit noted, the scrub queued in both halves, the Service Function reset. -/
def resetBegun (s u : State) (t : Nat) (h : Half) : Prop :=
  inReset u t = true ∧ mfind u.mgt.rstAt t = some (s.tn (tenantHalf t)) ∧ (.scrub t) ∈ (u.cat.get h).jobs
    ∧ (u.fn t 0).flr.isSome = true ∧ u.fget (SF_PF_STAT t) SF_PF_STAT_NUMVF = 0

/-- The reset that begins, as the Referee has recorded it and the Observer has noted its Transit. -/
def resetNoted (s : State) (t : Nat) : State :=
  (raise (s.fset (SF_TEN_STAT t) SF_TEN_STAT_RST 1) (tenantHalf t) (evt 19 0 t 0)).modMgt fun m => { m with
    rstAt := minsert m.rstAt t ((raise (s.fset (SF_TEN_STAT t) SF_TEN_STAT_RST 1) (tenantHalf t) (evt 19 0 t 0)).tn (tenantHalf t)) }

/-- The vPPBs of a tenant, and their configuration registers, after its reset. -/
def vppsReset (s : State) (t : Nat) : State :=
  (List.range 32).foldl (fun s v =>
    let x := s.vp t v
    if x.pdc || x.dllsc || x.off then s.setVp t v { x with pdc := false, dllsc := false, off := false } else s) (cfgReset s t fun _ => true)

theorem resetStart_eq {s : State} {t : Nat} (hr : inReset s t = false) :
    resetStart s t = flrPf (queueJob (queueJob (vppsReset (resetNoted s t) t) .east (.scrub t)) .west (.scrub t)) t false := by
  unfold resetStart
  rw [if_neg (by rw [hr]; decide)]
  rfl

theorem resetStart_merged {s : State} {t : Nat} (hr : inReset s t = true) : resetStart s t = s := if_pos hr

/-- Only the vPPBs and their configuration registers differ. -/
def vppOnly (s u : State) : Prop := u = { s with mgt := { s.mgt with vpp := u.mgt.vpp, cfg := u.mgt.cfg } }

theorem vppOnly_trans {s t u : State} (h1 : vppOnly s t) (h2 : vppOnly t u) : vppOnly s u := by
  unfold vppOnly at *
  rw [h2, h1]

theorem vppOnly_foldl {α : Type} {f : State → α → State} (hf : ∀ s x, vppOnly s (f s x)) (l : List α) (s : State) :
    vppOnly s (l.foldl f s) := by
  induction l generalizing s with
  | nil => exact rfl
  | cons x r ih => exact vppOnly_trans (hf s x) (ih _)

/-- The reset of the vPPBs changes them and their configuration registers alone. -/
theorem vppsReset_vppOnly (s : State) (t : Nat) : vppOnly s (vppsReset s t) := by
  refine vppOnly_trans (t := cfgReset s t fun _ => true) rfl (vppOnly_foldl (fun u v => ?_) _ _)
  dsimp only
  split
  · exact rfl
  · exact rfl

theorem vppOnly_sent {s u : State} (h : vppOnly s u) : u.sent = s.sent := by rw [h]

theorem vppOnly_bg {s u : State} (h : vppOnly s u) : u.mgt.bg = s.mgt.bg := by rw [h]

theorem resetEvent_recordOnly (s : State) (t cause : Nat) (hc : cause < 2) (h : Half) : recordOnly s (raise s h (evt 19 cause t 0)) :=
  raise_evt_recordOnly s h t 0 (by
    obtain rfl | rfl : cause = 0 ∨ cause = 1 := by omega
    all_goals decide)

theorem recordOnly_mgt {s u : State} (h : recordOnly s u) : u.mgt = s.mgt := by rw [h.1]

theorem recordOnly_sent {s u : State} (h : recordOnly s u) : u.sent = s.sent := by rw [h.1]

theorem recordOnly_viral {s u : State} (h : recordOnly s u) : u.viral = s.viral := by rw [h.1]

theorem tenStat_not_refReg {t : Nat} (ht : t < 64) : refReg (SF_TEN_STAT t) = false := by
  simp only [refReg, SF_TEN_STAT, show ¬ 0x0E000000 ≤ 0xa000004 + 0x10000 * t by omega, decide_false, Bool.false_and, Bool.false_or,
    List.contains_eq_mem, decide_eq_false_iff_not, List.mem_cons, List.not_mem_nil, or_false, MRD_ALERT_CTL, TRP_STAT, TRP_DEFER,
    TRP_SWAP_STAT, QOS_ROT_STAT, CORE_STAT, Half.idx]
  omega

/-- Reporting an event of no unit leaves RST of a tenant as it was. -/
theorem raise_inReset (s : State) (h : Half) (cls cause inst detail : Nat) {t : Nat} (ht : t < 64) :
    inReset (raise s h (evt cls cause inst detail)) t = inReset s t := by
  have hflag : ∀ u : State, inReset u t = (u.rd (SF_TEN_STAT t)).getLsbD 0 := fun u => by
    show ((u.rd (SF_TEN_STAT t)).toNat >>> 0 % 2 ^ 1 != 0) = (u.rd (SF_TEN_STAT t)).toNat.testBit 0
    rw [Nat.testBit_zero, Nat.shiftRight_zero]
    obtain hb | hb : (u.rd (SF_TEN_STAT t)).toNat % 2 = 0 ∨ (u.rd (SF_TEN_STAT t)).toNat % 2 = 1 := by omega
    all_goals simp [hb]
  have hviral : viralBits (SF_TEN_STAT t) = 4 := if_pos (by unfold SF_TEN_STAT; omega)
  rw [hflag, hflag]
  exact refOnly_bit (raise_evt_refOnly s h cls cause inst detail) (tenStat_not_refReg ht) (by rw [hviral]; decide)

/-- Reporting an event of no unit leaves the Transit number of a half as it was. -/
theorem raise_tn (s : State) (h : Half) (cls cause inst detail : Nat) (g : Half) : (raise s h (evt cls cause inst detail)).tn g = s.tn g := by
  have hr := raise_evt_refOnly s h cls cause inst detail
  exact rd64_congr (refOnly_rd hr (by cases g <;> decide) (by cases g <;> decide))
    (refOnly_rd hr (by cases g <;> decide) (by cases g <;> decide))

theorem tn_fset_tenStat (s : State) {t : Nat} (ht : t < 64) (f : Fld) (n : Nat) (g : Half) :
    (s.fset (SF_TEN_STAT t) f n).tn g = s.tn g :=
  rd64_fset_ne s f n (by unfold MRD_TN_LO SF_TEN_STAT; cases g <;> simp only [Half.idx] <;> omega)
    (by unfold MRD_TN_LO SF_TEN_STAT; cases g <;> simp only [Half.idx] <;> omega)

section
variable {s : State} {t : Nat} (ht : t < 64)
include ht

theorem resetNoted_inReset : inReset (resetNoted s t) t = true := by
  have hset : inReset (s.fset (SF_TEN_STAT t) SF_TEN_STAT_RST 1) t = true := by
    rw [inReset, State.flag, fget_fset_same _ _ _ _ (by decide)]
    decide
  exact (raise_inReset _ _ 19 0 t 0 ht).trans hset

theorem resetNoted_rstAt : mfind (resetNoted s t).mgt.rstAt t = some (s.tn (tenantHalf t)) := by
  refine (mfind_minsert_same _ _ _).trans (congrArg some ?_)
  rw [raise_tn, tn_fset_tenStat s ht]

/-- A tenant reset that begins has begun in full (R217, R218). -/
theorem resetStart_begun (hr : inReset s t = false) (h : Half) : resetBegun s (resetStart s t) t h := by
  rw [resetStart_eq hr]
  have hv : _ = _ := vppsReset_vppOnly (resetNoted s t) t
  generalize hw : vppsReset (resetNoted s t) t = w at hv ⊢
  have hqe := queueJob_frame w .east (.scrub t)
  have hqw := queueJob_frame (queueJob w .east (.scrub t)) .west (.scrub t)
  have hf := flrPf_fnOnly (queueJob (queueJob w .east (.scrub t)) .west (.scrub t)) t false
  have hrd : (flrPf (queueJob (queueJob w .east (.scrub t)) .west (.scrub t)) t false).rd (SF_TEN_STAT t)
      = (resetNoted s t).rd (SF_TEN_STAT t) := by
    have hlow : 0x06000000 ≤ SF_TEN_STAT t ∧ SF_TEN_STAT t < 0x200000000 ∧ SF_TEN_STAT t ≠ SF_PF_STAT t := by
      unfold SF_TEN_STAT SF_PF_STAT
      omega
    rw [flrPf_rd_pfCleared _ _ _ hlow.2.1, pfCleared_rd _ hlow.2.1 hlow.2.2, queueJob_rd _ _ _ hlow.1, queueJob_rd _ _ _ hlow.1, hv]
    rfl
  refine ⟨?_, ?_, ?_, flrPf_flr _ _ _, flrPf_numvf _ ht _⟩
  · rw [inReset, flag_of_rd_eq hrd]
    exact resetNoted_inReset ht
  · rw [hf, hqw, hqe, hv]
    exact resetNoted_rstAt ht
  · rw [hf]
    cases h with
    | east => exact queueJob_keeps _ _ _ _ _ (queueJob_mem w .east (.scrub t))
    | west => exact queueJob_mem _ .west _

end

/-- What a tenant reset leaves as it was: what has been sent, and the operations that run in the background. -/
theorem resetStart_keeps (s : State) (t : Nat) : (resetStart s t).sent = s.sent ∧ (resetStart s t).mgt.bg = s.mgt.bg := by
  by_cases hr : inReset s t = true
  · rw [resetStart_merged hr]
    exact ⟨rfl, rfl⟩
  · rw [resetStart_eq (Bool.eq_false_of_not_eq_true hr)]
    have hevent := resetEvent_recordOnly (s.fset (SF_TEN_STAT t) SF_TEN_STAT_RST 1) t 0 (by decide) (tenantHalf t)
    constructor
    · rw [fnOnly_sent (flrPf_fnOnly _ _ _), queueJob_sent, queueJob_sent, vppOnly_sent (vppsReset_vppOnly _ _)]
      show (raise _ _ _).sent = _
      rw [recordOnly_sent hevent]
      rfl
    · rw [fnOnly_mgt (flrPf_fnOnly _ _ _), queueJob_mgt, queueJob_mgt, vppOnly_bg (vppsReset_vppOnly _ _)]
      show (raise _ _ _).mgt.bg = _
      rw [recordOnly_mgt hevent]
      rfl

end Sys2Proof.Machine
end

section
/-! PROOFS. Binding commands (R199, R206-R210, R217): the row is staged with its TICKET, and the operation runs in the background. -/

namespace Sys2Proof.Machine

open Sys2Proof

/-! ### A background operation starts (R206) -/

theorem cciClass_le (cci : Nat) : cciClass cci ≤ 66 := by
  unfold cciClass
  split <;> omega

/-- An answer changes no register outside the Observer's block. -/
theorem rd_cciAnswer_outside (s : State) (cci code ret ext : Nat) (data : List Nat) {a : Nat} (ha : a < 0x0F000000 ∨ 0x10000000 ≤ a) :
    (cciAnswer s cci code ret ext data).rd a = s.rd a := by
  have hi := half_idx_lt (cciHalf s cci)
  have hc := cciClass_le cci
  exact rd_cciAnswer_ne s _ _ _ _ _ (by unfold cciQueue OBS_CLS_STAT; omega)

/-- The operation o of a CCI has been noted and its request answered. -/
def bgStarted (s : State) (cci : Nat) (o : BgOp) : State :=
  cciAnswer (s.modMgt fun m => { m with bg := minsert m.bg cci o }) cci o.code rcSTARTED 0 []

theorem bgStarted_rd (s : State) (cci : Nat) (o : BgOp) {a : Nat} (ha : a < 0x0F000000 ∨ 0x10000000 ≤ a) :
    (bgStarted s cci o).rd a = s.rd a := rd_cciAnswer_outside _ _ _ _ _ _ ha

theorem bgStarted_now (s : State) (cci : Nat) (o : BgOp) (h : Half) : (bgStarted s cci o).now h = s.now h :=
  rd64_congr (bgStarted_rd s cci o (by cases h <;> decide)) (bgStarted_rd s cci o (by cases h <;> decide))

theorem bgStarted_tn (s : State) (cci : Nat) (o : BgOp) (h : Half) : (bgStarted s cci o).tn h = s.tn h :=
  rd64_congr (bgStarted_rd s cci o (by cases h <;> decide)) (bgStarted_rd s cci o (by cases h <;> decide))

section
variable {s : State} {cci : Nat} {hs : List Half}

theorem bgStart_free (hb : mfind s.mgt.bg cci = none) (hr : cciReach s cci hs = true) (o : BgOp) (f : State → State) :
    bgStart s cci hs o f = f (bgStarted s cci o) := by
  rw [bgStart, cciServe_reached hr, hb]
  rfl

theorem bgStart_busy {o' : BgOp} (hb : mfind s.mgt.bg cci = some o') (hr : cciReach s cci hs = true) (o : BgOp) (f : State → State) :
    bgStart s cci hs o f = cciAnswer s cci o.code rcBUSY exBUSY [] := by
  rw [bgStart, cciServe_reached hr, hb]
  rfl

end

/-- The operation o of a CCI runs, and its request has been answered. -/
def bgRuns (u : State) (cci : Nat) (o : BgOp) : Prop := .ans o.code rcSTARTED [cci, 0] ∈ u.sent ∧ mfind u.mgt.bg cci = some o

theorem bgStarted_runs (s : State) (cci : Nat) (o : BgOp) : bgRuns (bgStarted s cci o) cci o :=
  ⟨List.mem_cons_self, mfind_minsert_same _ _ _⟩

theorem bgRuns_congr {u v : State} {cci : Nat} {o : BgOp} (hu : bgRuns u cci o) (hsent : u.sent ⊆ v.sent) (hbg : v.mgt.bg = u.mgt.bg) :
    bgRuns v cci o := ⟨hsent hu.1, by rw [hbg]; exact hu.2⟩

/-! ### A binding row is staged (R199, R206) -/

/-- The operation of a binding row at a runs, and the row is staged with its TICKET. -/
def bindRuns (u : State) (cci : Nat) (o : BgOp) (a : Nat) (ws : List Word) (tk : BitVec 16) : Prop :=
  bgRuns u cci { o with rows := [a] } ∧ rowStaged u a ws tk

theorem bindRuns_congr {u v : State} {cci : Nat} {o : BgOp} {a : Nat} {ws : List Word} {tk : BitVec 16} (hu : bindRuns u cci o a ws tk)
    (hsent : u.sent ⊆ v.sent) (hbg : v.mgt.bg = u.mgt.bg) (hrd : ∀ b, a ≤ b → b < a + 32 → v.rd b = u.rd b) : bindRuns v cci o a ws tk :=
  ⟨bgRuns_congr hu.1 hsent hbg, rowStaged_congr hu.2 hrd⟩

/-- The row of a tenant's binding operation, staged once the operation has started. -/
def bindStaged (s : State) (cci : Nat) (o : BgOp) (n : BitVec 6) (ws : List Word) (tk : BitVec 16) : State :=
  stageRow (bgStarted s cci { o with rows := [SF_BSTAGE o.tenant n.toNat 0] }) (SF_BSTAGE o.tenant n.toNat 0) ws tk.toNat

theorem bindStaged_runs (s : State) (cci : Nat) (o : BgOp) (n : BitVec 6) (ws : List Word) (tk : BitVec 16) :
    bindRuns (bindStaged s cci o n ws tk) cci o (SF_BSTAGE o.tenant n.toNat 0) ws tk :=
  ⟨bgRuns_congr (bgStarted_runs s cci _) (by rw [bindStaged, stageRow_sent]; exact List.Subset.refl _) (by rw [bindStaged, stageRow_mgt]),
    stageRow_staged _ _ _ _⟩

section
variable {s : State} {cci : Nat} {o : BgOp} {n : BitVec 6}

theorem bindOp_ready (hb : mfind s.mgt.bg cci = none) (hr : cciReach s cci [tenantHalf o.tenant] = true)
    (htaken : rowTaken s (SF_BSTAGE o.tenant n.toNat 0) = false) (tk : BitVec 16) (ws : List Word) (f : Nat → State → State) :
    bindOp s cci o n tk ws f = f (SF_BSTAGE o.tenant n.toNat 0) (bindStaged s cci o n ws tk) := by
  rw [bindOp, htaken, if_neg Bool.false_ne_true]
  exact bgStart_free hb hr _ _

theorem bindOp_taken (htaken : rowTaken s (SF_BSTAGE o.tenant n.toNat 0) = true) (tk : BitVec 16) (ws : List Word) (f : Nat → State → State) :
    bindOp s cci o n tk ws f = cciAnswer s cci o.code rcBUSY exBUSY [] := if_pos htaken

theorem bindOp_busy {o' : BgOp} (hb : mfind s.mgt.bg cci = some o') (hr : cciReach s cci [tenantHalf o.tenant] = true)
    (htaken : rowTaken s (SF_BSTAGE o.tenant n.toNat 0) = false) (tk : BitVec 16) (ws : List Word) (f : Nat → State → State) :
    bindOp s cci o n tk ws f = cciAnswer s cci o.code rcBUSY exBUSY [] := by
  rw [bindOp, htaken, if_neg Bool.false_ne_true]
  exact bgStart_busy hb hr _ _

end

section
variable {s : State} {cci : Nat} {o : BgOp} {t n : Nat} {ws : List Word} {tk : BitVec 16} (ht : t < 64) (hn : n < 128)
  (hu : bindRuns s cci o (SF_BSTAGE t n 0) ws tk)
include ht hn hu

/-- The row handed to the program of a half stays as it was staged. -/
theorem ringPost_runs (h : Half) (what : List Nat) : bindRuns (ringPost s h what) cci o (SF_BSTAGE t n 0) ws tk := by
  obtain ⟨hlo, hhi⟩ := bstage_block ht hn
  exact bindRuns_congr hu (by rw [ringPost_sent]; exact List.Subset.refl _) (by rw [ringPost_mgt])
    fun b _ _ => ringPost_rd s h what (by omega)

end

theorem bindStaged_now (s : State) (cci : Nat) {o : BgOp} (ht : o.tenant < 64) (n : BitVec 6) (ws : List Word) (tk : BitVec 16) (h : Half) :
    (bindStaged s cci o n ws tk).now h = s.now h := by
  obtain ⟨hlo, hhi⟩ := bstage_block (n := n.toNat) ht (by omega)
  have hi := half_idx_lt h
  have hnow : MRD_NOW_LO h = 0x100 + 0x100000000 * h.idx := rfl
  refine Eq.trans (rd64_congr (stageRow_rd_ne _ _ _ ?_) (stageRow_rd_ne _ _ _ ?_)) (bgStarted_now s cci _ h)
  all_goals
    rw [hnow]
    obtain hh | hh : h.idx = 0 ∨ h.idx = 1 := by omega
    all_goals rw [hh]; omega

/-- The words of a staged binding row. -/
theorem rowStaged_bindRow {u : State} {a kind v t d ld base len : Nat} {share surp : Bool} {tk : BitVec 16}
    (hs : rowStaged u a (bindRowWords kind share surp v t d ld base len) tk) :
    u.rd a = BitVec.ofNat 32 (kind * 2 ^ 28 + share.toNat * 2 ^ 27 + surp.toNat * 2 ^ 26 + v * 2 ^ 8 + t)
      ∧ u.rd (a + 4) = BitVec.ofNat 32 (d / 4 * 2 ^ 8 + d % 4 * 2 ^ 6 + ld) ∧ u.rd (a + 8) = BitVec.ofNat 32 tk.toNat
      ∧ u.rd (a + 12) = BitVec.ofNat 32 base ∧ u.rd (a + 16) = BitVec.ofNat 32 (base / 2 ^ 32)
      ∧ u.rd (a + 20) = BitVec.ofNat 32 len ∧ u.rd (a + 24) = BitVec.ofNat 32 (len / 2 ^ 32) :=
  ⟨hs 0 (by decide), hs 1 (by decide), hs 2 (by decide), hs 3 (by decide), hs 4 (by decide), hs 5 (by decide), hs 6 (by decide)⟩

/-! ### A managed removal begins (R209) -/

theorem hpStat_rd (s : State) (t : Nat) {a : Nat} (ha : a ≠ SF_TEN_STAT t) : (hpStat s t).rd a = s.rd a := rd_fset_ne s _ _ ha

/-- HP_WAITING follows the managed removals that wait. -/
theorem hpStat_flag (s : State) (t : Nat) :
    (hpStat s t).flag (SF_TEN_STAT t) SF_TEN_STAT_HP_WAITING = s.mgt.managed.any fun e => e.1 == t :=
  flag_fset_toNat s _ _ _ rfl (by decide)

theorem managedStart_rd (s : State) (t v a : Nat) {b : Nat} (hb : b ≠ SF_TEN_STAT t) : (managedStart s t v a).rd b = s.rd b :=
  (hpStat_rd _ t hb).trans (vpReport_rd s t v false (s.vp t v).dlla true false b)

theorem managedStart_sent (s : State) (t v a : Nat) : s.sent ⊆ (managedStart s t v a).sent :=
  vpReport_sent s t v false (s.vp t v).dlla true false

theorem managedStart_mgt (s : State) (t v a : Nat) : (managedStart s t v a).mgt.bg = s.mgt.bg
    ∧ (managedStart s t v a).mgt.managed = s.mgt.managed ++ [(t, v, a, s.now (tenantHalf t))] := by
  show (vpReport s t v false (s.vp t v).dlla true false).mgt.bg = _
    ∧ (vpReport s t v false (s.vp t v).dlla true false).mgt.managed ++ _ = _
  rw [vpReport_mgt]
  exact ⟨rfl, rfl⟩

theorem managedStart_vp (s : State) (t v a : Nat) : (managedStart s t v a).vp t v = reported (s.vp t v) false (s.vp t v).dlla true false :=
  vpReport_vp_same s t v false (s.vp t v).dlla true false

/-- The removal waits: its row is noted, presence has gone, and HP_WAITING is set. -/
def removalWaits (u : State) (t v a now : Nat) : Prop :=
  (t, v, a, now) ∈ u.mgt.managed ∧ (u.vp t v).pds = false ∧ (u.vp t v).pdc = true
    ∧ u.flag (SF_TEN_STAT t) SF_TEN_STAT_HP_WAITING = true

theorem managedStart_waits (s : State) (t v a : Nat) : removalWaits (managedStart s t v a) t v a (s.now (tenantHalf t)) := by
  have hmem : (t, v, a, s.now (tenantHalf t)) ∈ (managedStart s t v a).mgt.managed := by rw [(managedStart_mgt s t v a).2]; simp
  refine ⟨hmem, by rw [managedStart_vp]; rfl, by rw [managedStart_vp]; simp [reported], ?_⟩
  rw [managedStart, hpStat_flag]
  exact List.any_eq_true.mpr ⟨_, hmem, by simp⟩

section
variable {s : State} {cci : Nat} {o : BgOp} {t n : Nat} {ws : List Word} {tk : BitVec 16} (hn : n < 128)
  (hu : bindRuns s cci o (SF_BSTAGE t n 0) ws tk)
include hn hu

theorem managedStart_runs (v a : Nat) : bindRuns (managedStart s t v a) cci o (SF_BSTAGE t n 0) ws tk := by
  have hapart := bstage_apart_stat t n t hn
  exact bindRuns_congr hu (managedStart_sent s t v a) (managedStart_mgt s t v a).1 fun b _ _ => managedStart_rd s t v a (by omega)

end

/-! ### Unbind vPPB (R206, R209) -/

/-- An Unbind vPPB of tenant t as it runs in the background. -/
def unbindBg (t : Nat) : BgOp := ⟨opUNBIND, [], t, false, []⟩

/-- The UNBIND row of a vPPB's binding. -/
def unbindWords (b : VBind) (t v : Nat) (surp : Bool) : List Word :=
  match b.ld with
  | none => bindRowWords 2 false surp v t b.sub 0 0 0
  | some l => bindRowWords 3 b.share surp v t b.sub l 0 0

theorem unbindRow_bound {s : State} {t v : Nat} {b : VBind} (hb : mfind (s.binds.get (tenantHalf t)).vb (vpKey t v) = some b)
    (surp : Bool) : unbindRow s t v surp = some (b, unbindWords b t v surp) := by
  rw [unbindRow, hb, unbindWords]
  dsimp only
  cases b.ld <;> rfl

theorem unbindOp_bound {s : State} {t v : Nat} {b : VBind} (hb : mfind (s.binds.get (tenantHalf t)).vb (vpKey t v) = some b)
    (cci : Nat) (surp : Bool) (n : BitVec 6) (tk : BitVec 16) (f : VBind → Nat → State → State) :
    unbindOp s cci t v surp n tk f = bindOp s cci ⟨opUNBIND, [], t, false, []⟩ n tk (unbindWords b t v surp) (f b) := by
  rw [unbindOp, unbindRow_bound hb]

theorem unbindOp_unbound {s : State} {t v : Nat} (hb : mfind (s.binds.get (tenantHalf t)).vb (vpKey t v) = none)
    (cci : Nat) (surp : Bool) (n : BitVec 6) (tk : BitVec 16) (f : VBind → Nat → State → State) :
    unbindOp s cci t v surp n tk f = cciAnswer s cci opUNBIND rcINVALID stNO_TARGET [] := by
  rw [unbindOp, unbindRow, hb]

theorem refused_cciAnswer (s : State) (cci code ret ext : Nat) :
    (cciAnswer s cci code ret ext []).sent = .ans code ret [cci, ext] :: s.sent
      ∧ onlyRegs [cciQueue s cci] { s with sent := (cciAnswer s cci code ret ext []).sent } (cciAnswer s cci code ret ext []) :=
  ⟨rfl, cciAnswer_onlyRegs s cci code ret ext []⟩

/-! ### Several rows at once (R208) -/

/-- The rows of Stage Binding Rows, in the tenant's table. -/
def stageRows (s : State) (t : Nat) (rows : List (BitVec 6 × List Word)) (tk : Nat) : State :=
  rows.foldl (fun s r => stageRow s (SF_BSTAGE t r.1.toNat 0) r.2 tk) s

theorem stageRows_mgt (s : State) (t : Nat) (rows : List (BitVec 6 × List Word)) (tk : Nat) : (stageRows s t rows tk).mgt = s.mgt :=
  foldl_keeps State.mgt (fun _ _ _ => stageRow_mgt _ _ _ _) s

theorem stageRows_sent (s : State) (t : Nat) (rows : List (BitVec 6 × List Word)) (tk : Nat) : (stageRows s t rows tk).sent = s.sent :=
  foldl_keeps State.sent (fun _ _ _ => stageRow_sent _ _ _ _) s

/-- Rows with other numbers leave a row as it was. -/
theorem stageRows_rd_ne {t a : Nat} {rows : List (BitVec 6 × List Word)} (s : State) (tk : Nat)
    (ha : ∀ r ∈ rows, a < SF_BSTAGE t r.1.toNat 0 ∨ SF_BSTAGE t r.1.toNat 0 + 32 ≤ a) : (stageRows s t rows tk).rd a = s.rd a :=
  foldl_keeps (State.rd · a) (fun _ r hr => stageRow_rd_ne _ _ _ (ha r hr)) s

/-- Rows with different numbers are each staged. -/
theorem stageRows_staged {t : Nat} {tk : BitVec 16} {rows : List (BitVec 6 × List Word)} (hnd : (rows.map Prod.fst).Nodup) (s : State) :
    ∀ r ∈ rows, rowStaged (stageRows s t rows tk.toNat) (SF_BSTAGE t r.1.toNat 0) r.2 tk := by
  induction rows generalizing s with
  | nil => exact fun r hr => absurd hr List.not_mem_nil
  | cons x rest ih =>
    obtain ⟨hx, hrest⟩ := List.nodup_cons.mp hnd
    intro r hr
    obtain rfl | hr := List.mem_cons.mp hr
    · refine rowStaged_congr (stageRow_staged s _ r.2 tk) fun b _ _ => stageRows_rd_ne (rows := rest) _ _ fun y hy => ?_
      have hne : y.1.toNat ≠ r.1.toNat := fun he => hx (List.mem_map.mpr ⟨y, hy, BitVec.eq_of_toNat_eq he⟩)
      unfold SF_BSTAGE at *
      omega
    · exact ih hrest _ r hr

/-- Rows with different numbers lie at different addresses. -/
theorem bstage_nodup {t : Nat} {rows : List (BitVec 6 × List Word)} (hnd : (rows.map Prod.fst).Nodup) :
    (rows.map fun r => SF_BSTAGE t r.1.toNat 0).Nodup := by
  have hinj : Function.Injective fun x : BitVec 6 => SF_BSTAGE t x.toNat 0 := fun x y he => BitVec.eq_of_toNat_eq (by
    simp only [SF_BSTAGE] at he
    omega)
  have h := hnd.map hinj
  rwa [List.map_map] at h

end Sys2Proof.Machine
end

section
/-! PROOFS. Binding commands stage rows and run in the background (O53). -/

namespace Sys2Proof.Machine

open Sys2Proof

section
variable {s : State} {cci : Nat} {t : BitVec 6} {n : BitVec 6} (hb : mfind s.mgt.bg cci = none)
  (hr : cciReach s cci [tenantHalf t.toNat] = true) (hn : rowTaken s (SF_BSTAGE t.toNat n.toNat 0) = false)
include hb hr hn

theorem bindVppb_runs (v p : BitVec 5) (k : BitVec 2) (ld : Option (BitVec 4)) (tk : BitVec 16) :
    ∃ u, exec (.bindVppb cci t v p k ld n tk) s = .next u
      ∧ bindRuns u cci ⟨opBIND, [], t.toNat, false, []⟩ (SF_BSTAGE t.toNat n.toNat 0)
        (match ld with
          | none => bindRowWords 2 false false v.toNat t.toNat (subNode p.toNat k.toNat) 0 0 0
          | some l => bindRowWords 3 false false v.toNat t.toNat (subNode p.toNat k.toNat) l.toNat 0 0) tk :=
  ⟨_, congrArg Host.Outcome.next (bindOp_ready (o := ⟨opBIND, [], t.toNat, false, []⟩) hb hr hn tk _ _),
    ringPost_runs t.isLt (by omega) (bindStaged_runs s cci ⟨opBIND, [], t.toNat, false, []⟩ n _ tk) _ _⟩

theorem initiateDynamicCapacityAdd_runs (p : BitVec 5) (k : BitVec 2) (l : BitVec 4) (base len : Nat) (share : Bool) (tk : BitVec 16) :
    ∃ u o, exec (.initiateDynamicCapacityAdd cci t p k l base len share n tk) s = .next u ∧ o.code = opDCADD ∧ o.tenant = t.toNat
      ∧ bindRuns u cci o (SF_BSTAGE t.toNat n.toNat 0)
        (bindRowWords 4 share false 0 t.toNat (subNode p.toNat k.toNat) l.toNat base len) tk := by
  let o : BgOp := ⟨opDCADD, [], t.toNat, false, [subNode p.toNat k.toNat, l.toNat, base, len, share.toNat]⟩
  exact ⟨_, o, congrArg Host.Outcome.next (bindOp_ready (o := o) hb hr hn tk _ _), rfl, rfl,
    ringPost_runs t.isLt (by omega) (bindStaged_runs s cci o n _ tk) _ _⟩

section
variable {v : BitVec 5} {b : VBind} (hbound : mfind (s.binds.get (tenantHalf t.toNat)).vb (vpKey t.toNat v.toNat) = some b)
include hbound

/-- An Unbind vPPB of a bound vPPB does the rest with its row staged. -/
theorem unbindOp_ready (surp : Bool) (tk : BitVec 16) (f : VBind → Nat → State → State) :
    unbindOp s cci t.toNat v.toNat surp n tk f = f b (SF_BSTAGE t.toNat n.toNat 0)
      (bindStaged s cci (unbindBg t.toNat) n (unbindWords b t.toNat v.toNat surp) tk) := by
  rw [unbindOp_bound hbound]
  exact bindOp_ready (o := unbindBg t.toNat) hb hr hn tk _ _

theorem unbindVppbManaged_waits (tk : BitVec 16) :
    ∃ u, exec (.unbindVppbManaged cci t v n tk) s = .next u
      ∧ bindRuns u cci (unbindBg t.toNat) (SF_BSTAGE t.toNat n.toNat 0) (unbindWords b t.toNat v.toNat false) tk
      ∧ removalWaits u t.toNat v.toNat (SF_BSTAGE t.toNat n.toNat 0) (s.now (tenantHalf t.toNat)) := by
  refine ⟨_, congrArg Host.Outcome.next (unbindOp_ready hb hr hn hbound false tk _),
    managedStart_runs (by omega) (bindStaged_runs s cci (unbindBg t.toNat) n _ tk) _ _, ?_⟩
  rw [← bindStaged_now s cci (o := unbindBg t.toNat) t.isLt n (unbindWords b t.toNat v.toNat false) tk]
  exact managedStart_waits _ _ _ _

theorem unbindVppbSurprise_runs (tk : BitVec 16) :
    ∃ u, exec (.unbindVppbSurprise cci t v n tk) s = .next u
      ∧ bindRuns u cci (unbindBg t.toNat) (SF_BSTAGE t.toNat n.toNat 0) (unbindWords b t.toNat v.toNat true) tk
      ∧ u.mgt.managed = s.mgt.managed := by
  refine ⟨_, congrArg Host.Outcome.next (unbindOp_ready hb hr hn hbound true tk _),
    ringPost_runs t.isLt (by omega) (bindStaged_runs s cci (unbindBg t.toNat) n _ tk) _ _, ?_⟩
  rw [ringPost_mgt, bindStaged, stageRow_mgt]
  rfl

/-- The wait for the link going down: an LD's is a managed removal (R209). -/
theorem unbindVppbWaitLinkDown_waits (tk : BitVec 16) :
    ∃ u, exec (.unbindVppbWaitLinkDown cci t v n tk) s = .next u
      ∧ bindRuns u cci (unbindBg t.toNat) (SF_BSTAGE t.toNat n.toNat 0) (unbindWords b t.toNat v.toNat false) tk
      ∧ (b.ld = none → (SF_BSTAGE t.toNat n.toNat 0, b.sub) ∈ u.mgt.waitDown)
      ∧ (b.ld ≠ none → removalWaits u t.toNat v.toNat (SF_BSTAGE t.toNat n.toNat 0) (s.now (tenantHalf t.toNat))) := by
  have hstaged := bindStaged_runs s cci (unbindBg t.toNat) n (unbindWords b t.toNat v.toNat false) tk
  have hexec : exec (.unbindVppbWaitLinkDown cci t v n tk) s = .next _ :=
    congrArg Host.Outcome.next (unbindOp_ready hb hr hn hbound false tk _)
  cases hld : b.ld with
  | none =>
    rw [if_neg (by simp [hld])] at hexec
    exact ⟨_, hexec, bindRuns_congr hstaged (List.Subset.refl _) rfl fun _ _ _ => rfl, fun _ => by simp [State.modMgt],
      fun h => absurd rfl h⟩
  | some l =>
    rw [if_pos (by simp [hld])] at hexec
    refine ⟨_, hexec, managedStart_runs (by omega) hstaged _ _, fun h => absurd h (by simp), fun _ => ?_⟩
    rw [← bindStaged_now s cci (o := unbindBg t.toNat) t.isLt n (unbindWords b t.toNat v.toNat false) tk]
    exact managedStart_waits _ _ _ _

end

end

/-! ### Dynamic capacity that is released (R207) -/

/-- The device has released the extent of a command that runs: the row of its UNBIND is staged. -/
theorem initiateDynamicCapacityRelease_done {s : State} {cci : Nat} {o : BgOp} {n : BitVec 6} (hb : mfind s.mgt.bg cci = some o)
    (hcode : o.code = opDCREL) (hrows : o.rows = []) {t : Nat} (ho : o.tenant = t) (ht : t < 64)
    (hn : rowTaken s (SF_BSTAGE t n.toNat 0) = false)
    {d l base len : Nat} (hfwd : o.fwd = [d, l, base, len]) (tk : BitVec 16) :
    ∃ u, exec (.initiateDynamicCapacityRelease cci true 0 0 0 0 0 0 n tk) s = .next u
      ∧ mfind u.mgt.bg cci = some { o with rows := [SF_BSTAGE t n.toNat 0] }
      ∧ rowStaged u (SF_BSTAGE t n.toNat 0) (bindRowWords 4 false false 0 t d l base len) tk := by
  subst ho
  obtain ⟨hlo, hhi⟩ := bstage_block (n := n.toNat) ht (by omega)
  have hexec : exec (.initiateDynamicCapacityRelease cci true 0 0 0 0 0 0 n tk) s = .next (ringPost
      (stageRow (s.modMgt fun m => { m with bg := minsert m.bg cci { o with rows := [SF_BSTAGE o.tenant n.toNat 0] } })
        (SF_BSTAGE o.tenant n.toNat 0) (bindRowWords 4 false false 0 o.tenant d l base len) tk.toNat)
      (tenantHalf o.tenant) [SF_BSTAGE o.tenant n.toNat 0]) := by
    show execInitiateDynamicCapacityRelease cci true 0 0 0 0 0 0 n tk s = _
    rw [execInitiateDynamicCapacityRelease, if_neg (by decide), hb]
    dsimp only
    rw [if_neg (by simp [hcode, hrows, hn]), hfwd]
    rfl
  refine ⟨_, hexec, ?_, ringPost_staged (stageRow_staged _ _ _ _) (by omega) _ _⟩
  rw [ringPost_mgt, stageRow_mgt]
  exact mfind_minsert_same _ _ _

/-! ### Stage Binding Rows and Tenant Reset (R208) -/

theorem stageBindingRows_runs {s : State} {cci : Nat} {t : BitVec 6} {rows : List (BitVec 6 × List Word)} {at_ : Option Nat}
    (hb : mfind s.mgt.bg cci = none) (hr : cciReach s cci [tenantHalf t.toNat] = true) (h1 : 1 ≤ rows.length) (h8 : rows.length ≤ 8)
    (hnd : (rows.map Prod.fst).Nodup) (hfree : ∀ r ∈ rows, rowTaken s (SF_BSTAGE t.toNat r.1.toNat 0) = false) (tk : BitVec 16) :
    ∃ u, exec (.stageBindingRows cci t rows tk at_) s = .next u
      ∧ bgRuns u cci ⟨0xC001, rows.map fun r => SF_BSTAGE t.toNat r.1.toNat 0, t.toNat, false, []⟩
      ∧ ∀ r ∈ rows, rowStaged u (SF_BSTAGE t.toNat r.1.toNat 0) r.2 tk := by
  let o : BgOp := ⟨0xC001, rows.map fun r => SF_BSTAGE t.toNat r.1.toNat 0, t.toNat, false, []⟩
  have hexec : exec (.stageBindingRows cci t rows tk at_) s = .next (ringPost (stageRows (bgStarted s cci o) t.toNat rows tk.toNat)
      (tenantHalf t.toNat) (at_.getD 0 :: rows.map fun r => SF_BSTAGE t.toNat r.1.toNat 0)) := by
    show execStageBindingRows cci t rows tk at_ s = _
    have hany : ((rows.map fun r => SF_BSTAGE t.toNat r.1.toNat 0).any fun a => rowTaken s a) = false := by
      simpa [List.any_eq_false] using fun a b hab => hfree (a, b) hab
    rw [execStageBindingRows]
    dsimp only
    rw [if_neg (by omega), hany, if_neg Bool.false_ne_true, (bstage_nodup hnd).dedup, bgStart_free hb hr]
    rfl
  refine ⟨_, hexec, bgRuns_congr (bgStarted_runs s cci o) ?_ ?_, fun r hr => ?_⟩
  · rw [ringPost_sent, stageRows_sent]
    exact List.Subset.refl _
  · rw [ringPost_mgt, stageRows_mgt]
  · obtain ⟨hlo, hhi⟩ := bstage_block (n := r.1.toNat) t.isLt (by omega)
    exact ringPost_staged (stageRows_staged hnd _ r hr) (by omega) _ _

theorem exec_stageBindingRows_size {s : State} {cci : Nat} {t : BitVec 6} {rows : List (BitVec 6 × List Word)}
    (hlen : rows = [] ∨ 8 < rows.length) (tk : BitVec 16) (at_ : Option Nat) :
    exec (.stageBindingRows cci t rows tk at_) s = .next (cciAnswer s cci 0xC001 rcINVALID 0 []) := by
  refine if_pos (hlen.imp_left fun h => ?_)
  rw [h]
  decide

theorem tenantResetCommand_begins {s : State} {cci : Nat} {t : BitVec 6} (hb : mfind s.mgt.bg cci = none)
    (hr : cciReach s cci [tenantHalf t.toNat] = true) (hrst : inReset s t.toNat = false) :
    ∃ u, exec (.tenantResetCommand cci t) s = .next u ∧ bgRuns u cci ⟨opTENRST, [], t.toNat, false, []⟩
      ∧ inReset u t.toNat = true ∧ mfind u.mgt.rstAt t.toNat = some (s.tn (tenantHalf t.toNat)) := by
  let o : BgOp := ⟨opTENRST, [], t.toNat, false, []⟩
  have ht := t.isLt
  have hstarted : inReset (bgStarted s cci o) t.toNat = false := by
    rw [inReset, flag_of_rd_eq (bgStarted_rd s cci o (by unfold SF_TEN_STAT; omega))]
    exact hrst
  have hbegun := resetStart_begun ht hstarted .east
  have hkeeps := resetStart_keeps (bgStarted s cci o) t.toNat
  rw [resetBegun, bgStarted_tn] at hbegun
  exact ⟨_, congrArg Host.Outcome.next (bgStart_free hb hr o _),
    bgRuns_congr (bgStarted_runs s cci o) (by rw [hkeeps.1]; exact List.Subset.refl _) hkeeps.2, hbegun.1, hbegun.2.1⟩

/-! ### O53 -/

/-- Settles O53, command by command. -/
theorem bindingCommandsStageRows : Obligations.BindingCommandsStageRows := by
  intro s cci base len t v p k l n tk b o share rows at_ T V d a cls free ready w staged runs refused bound unbinds leaves
  have hrefused : ∀ code ret ext, refused (cciAnswer s cci code ret ext []) code ret ext := fun code ret ext =>
    refused_cciAnswer s cci code ret ext
  have hruns : ∀ {u : State} {o : BgOp}, bgRuns u cci o → o.tenant = T → runs u o.code o.rows := fun hu ht =>
    ⟨hu.1, _, hu.2, rfl, rfl, ht⟩
  have hunbinds : ∀ {u : State} {surp : Bool}, bindRuns u cci (unbindBg T) a (unbindWords b T V surp) tk → unbinds u surp := by
    intro u surp hu
    refine ⟨hruns hu.1 rfl, fun hld => ?_, fun l hld => ?_⟩
    · have hs := hu.2
      rw [unbindWords, hld] at hs
      obtain ⟨h0, h1, h2, -⟩ := rowStaged_bindRow hs
      exact ⟨by simpa using h0, by simpa using h1, h2⟩
    · have hs := hu.2
      rw [unbindWords, hld] at hs
      obtain ⟨h0, h1, h2, -⟩ := rowStaged_bindRow hs
      exact ⟨h0, h1, h2⟩
  refine ⟨fun hg => ?_, fun hg => ?_, fun ht => ?_, fun ht hr hb => ?_, fun hg hbound => ?_, fun hg hbound => ?_, fun hg hbound => ?_,
    fun hnone => ?_, fun hg => ?_, fun hb hr => ?_, fun hb hcode hrows ht hfwd hn => ?_, fun hg h1 h8 hnd hfree => ?_, fun hlen => ?_,
    fun hg hrst => ?_⟩
  case refine_1 =>
    obtain ⟨⟨hb, hr⟩, hn⟩ := hg
    obtain ⟨u, hu, hbg, hs⟩ := bindVppb_runs hb hr hn v p k none tk
    obtain ⟨h0, h1, h2, -⟩ := rowStaged_bindRow hs
    exact ⟨u, hu, hruns hbg rfl, by simpa using h0, h1.trans (congrArg w (Nat.add_zero _)), h2⟩
  case refine_2 =>
    obtain ⟨⟨hb, hr⟩, hn⟩ := hg
    obtain ⟨u, hu, hbg, hs⟩ := bindVppb_runs hb hr hn v p k (some l) tk
    obtain ⟨h0, h1, h2, -⟩ := rowStaged_bindRow hs
    exact ⟨u, hu, hruns hbg rfl, by simpa using h0, h1, h2⟩
  case refine_3 => exact ⟨_, congrArg Host.Outcome.next (bindOp_taken ht _ _ _), hrefused _ _ _⟩
  case refine_4 => exact ⟨_, congrArg Host.Outcome.next (bindOp_busy hb hr ht _ _ _), hrefused _ _ _⟩
  case refine_5 =>
    obtain ⟨⟨hb, hr⟩, hn⟩ := hg
    obtain ⟨u, hu, hrun, hdown, hwait⟩ := unbindVppbWaitLinkDown_waits hb hr hn hbound tk
    refine ⟨u, hu, hunbinds hrun, ?_⟩
    split
    · next hld => exact hdown hld
    · next hld => exact hwait hld
  case refine_6 =>
    obtain ⟨⟨hb, hr⟩, hn⟩ := hg
    obtain ⟨u, hu, hrun, hwait⟩ := unbindVppbManaged_waits hb hr hn hbound tk
    exact ⟨u, hu, hunbinds hrun, hwait⟩
  case refine_7 =>
    obtain ⟨⟨hb, hr⟩, hn⟩ := hg
    obtain ⟨u, hu, hrun, hmanaged⟩ := unbindVppbSurprise_runs hb hr hn hbound tk
    exact ⟨u, hu, hunbinds hrun, hmanaged⟩
  case refine_8 => exact ⟨_, congrArg Host.Outcome.next (unbindOp_unbound hnone _ _ _ _ _), hrefused _ _ _⟩
  case refine_9 =>
    obtain ⟨⟨hb, hr⟩, hn⟩ := hg
    obtain ⟨u, o, hu, hcode, ho, hbg, hs⟩ := initiateDynamicCapacityAdd_runs hb hr hn p k l base len share tk
    obtain ⟨h0, h1, h2, hext⟩ := rowStaged_bindRow hs
    exact ⟨u, hu, hcode ▸ hruns hbg ho, ⟨by simpa using h0, h1, h2⟩, hext⟩
  case refine_10 =>
    let o : BgOp := ⟨opDCREL, [], T, false, [d, l.toNat, base, len]⟩
    have hsent : bgRuns ((bgStarted s cci o).emit (.out outFORWARD [opDCREL, d, l.toNat, base, len])) cci o :=
      bgRuns_congr (bgStarted_runs s cci o) (List.subset_cons_self _ _) rfl
    exact ⟨_, congrArg Host.Outcome.next (bgStart_free hb hr o _), hruns hsent rfl, List.mem_cons_self⟩
  case refine_11 =>
    obtain ⟨u, hu, hbg, hs⟩ := initiateDynamicCapacityRelease_done hb hcode hrows ht t.isLt hn hfwd tk
    obtain ⟨h0, h1, h2, hext⟩ := rowStaged_bindRow hs
    exact ⟨u, hu, hbg, ⟨by simpa using h0, h1, h2⟩, hext⟩
  case refine_12 =>
    obtain ⟨u, hu, hbg, hs⟩ := stageBindingRows_runs hg.1 hg.2 h1 h8 hnd hfree tk
    exact ⟨u, hu, hruns hbg rfl, fun r hr i hi => hs r hr i hi⟩
  case refine_13 => exact ⟨_, exec_stageBindingRows_size hlen tk at_, hrefused _ _ _⟩
  case refine_14 =>
    obtain ⟨u, hu, hbg, hrest⟩ := tenantResetCommand_begins hg.1 hg.2 hrst
    exact ⟨u, hu, hruns hbg rfl, hrest⟩

end Sys2Proof.Machine
end

section
/-! PROOFS. Tenant resets from every cause, their end, and resets below a vPPB (O35). -/

namespace Sys2Proof.Machine

open Sys2Proof

/-! ### The end of a tenant reset (R218) -/

theorem bgEnd_rstAt (s : State) (cci ret ext : Nat) : (bgEnd s cci ret ext).mgt.rstAt = s.mgt.rstAt := by
  unfold bgEnd
  split <;> rfl

theorem resetOpsEnd_rstAt (s : State) (t : Nat) : (resetOpsEnd s t).mgt.rstAt = s.mgt.rstAt :=
  foldl_keeps (fun u : State => u.mgt.rstAt) (fun u e _ => by
    split
    · exact bgEnd_rstAt u _ _ _
    · rfl) s

/-- The tenant's reset is over but for what the Referee records. -/
def resetOver (s : State) (t : Nat) : State :=
  { (resetOpsEnd (s.modMgt fun m => { m with rstAt := merase m.rstAt t }) t).fset (SF_TEN_STAT t) SF_TEN_STAT_RST 0 with
    viral := (resetOpsEnd (s.modMgt fun m => { m with rstAt := merase m.rstAt t }) t).viral.filter fun x => x ≠ t }

/-- A reset ends at a later Transit with none of the tenant's cells queued. -/
theorem resetEnd_ends {s : State} {t : Nat} (ht : t < 64) (hr : inReset s t = true) (htn : mfind s.mgt.rstAt t ≠ some (s.tn (tenantHalf t)))
    (he : tenantQueued s .east t = false) (hw : tenantQueued s .west t = false) :
    inReset (resetEnd s t) t = false ∧ mfind (resetEnd s t).mgt.rstAt t = none ∧ t ∉ (resetEnd s t).viral := by
  have heq : resetEnd s t = raise (resetOver s t) (tenantHalf t) (evt 19 1 t 0) := if_neg (by simp [hr, htn, he, hw])
  have hrec := resetEvent_recordOnly (resetOver s t) t 1 (by decide) (tenantHalf t)
  rw [heq]
  refine ⟨?_, ?_, ?_⟩
  · rw [raise_inReset _ _ 19 1 t 0 ht, inReset, State.flag, State.fget]
    show (fldGet (((resetOpsEnd _ t).fset (SF_TEN_STAT t) SF_TEN_STAT_RST 0).rd _) _ != 0) = false
    rw [← State.fget, fget_fset_same _ _ _ _ (by decide)]
    rfl
  · rw [recordOnly_mgt hrec]
    show mfind (resetOpsEnd _ t).mgt.rstAt t = none
    rw [resetOpsEnd_rstAt]
    exact mfind_merase_same _ _
  · rw [recordOnly_viral hrec]
    simp [resetOver]

/-- A reset goes on while a half has a cell of the tenant queued. -/
theorem resetEnd_queued {s : State} {t : Nat} {h : Half} (hq : tenantQueued s h t = true) : resetEnd s t = s :=
  if_pos (Or.inr (Or.inr (by cases h <;> simp [hq])))

/-! ### A Secondary Bus Reset below (R220) -/

/-- The vPPB and its configuration registers after a Secondary Bus Reset in it. -/
def vppbReset (s : State) (t v : Nat) : State :=
  cfgReset (s.setVp t v { s.vp t v with pdc := false, dllsc := false, off := false }) t fun u => u == v

theorem vppbReset_vp (s : State) (t v : Nat) : ((vppbReset s t v).vp t v).pdc = false :=
  congrArg Vp.pdc (setVp_vp_same s t v _)

theorem exec_sbrDownstream_service (s : State) (t : BitVec 6) :
    exec (.sbrDownstream t 0) s = .next (flrPf (vppbReset s t.toNat 0) t.toNat false) := rfl

theorem exec_sbrDownstream_bound {s : State} {t : BitVec 6} {v : BitVec 5} {b : VBind} (hv : v ≠ 0)
    (hb : mfind (s.binds.get (tenantHalf t.toNat)).vb (vpKey t.toNat v.toNat) = some b) :
    exec (.sbrDownstream t v) s = .next (match b.ld with
      | none => (vppbReset s t.toNat v.toNat).emit (.out outHOTRST [b.sub])
      | some l => if b.share then vppbReset s t.toNat v.toNat else (vppbReset s t.toNat v.toNat).emit (.out outLDRST [b.sub, l])) := by
  have hbr : (vppbReset s t.toNat v.toNat).binds = s.binds := rfl
  show execSbrDownstream t v s = _
  unfold execSbrDownstream
  dsimp only
  rw [if_neg hv, ← vppbReset, hbr, hb]
  dsimp only
  cases b.ld with
  | none => rfl
  | some l => cases b.share <;> rfl

theorem sbrDownstream_bound {s : State} {t : BitVec 6} {v : BitVec 5} {b : VBind} (hv : v ≠ 0)
    (hb : mfind (s.binds.get (tenantHalf t.toNat)).vb (vpKey t.toNat v.toNat) = some b) :
    ∃ u, exec (.sbrDownstream t v) s = .next u ∧ u.regs = s.regs ∧ (u.vp t.toNat v.toNat).pdc = false
      ∧ (b.ld = none → u.sent = .out outHOTRST [b.sub] :: s.sent)
      ∧ ∀ l, b.ld = some l → u.sent = if b.share then s.sent else .out outLDRST [b.sub, l] :: s.sent := by
  have hpdc := vppbReset_vp s t.toNat v.toNat
  refine ⟨_, exec_sbrDownstream_bound hv hb, ?_⟩
  cases hld : b.ld with
  | none => exact ⟨rfl, hpdc, fun _ => rfl, fun l h => absurd h (by simp)⟩
  | some l =>
    cases hs : b.share with
    | false => exact ⟨rfl, hpdc, fun h => absurd h (by simp), fun l' h => by cases h; rfl⟩
    | true => exact ⟨rfl, hpdc, fun h => absurd h (by simp), fun l' h => by cases h; rfl⟩

/-! ### O35 -/

/-- Settles O35: every cause comes down to the start of one reset. -/
theorem tenantResets : Obligations.TenantResets := by
  intro s m h t p v k w b T d H begun ctl bound
  have ht : T < 64 := t.isLt
  have hbegun : inReset s T = false → begun (resetStart s T) := fun hr => resetStart_begun ht hr h
  refine ⟨fun hr husp => ?_, fun hr => ⟨_, rfl, hbegun hr⟩, fun hm hr hw => ?_, fun hr => ?_,
    fun hr htn he hw => ⟨_, rfl, resetEnd_ends ht hr htn he hw⟩, fun _ hq => ?_, fun hm => ?_, ⟨_, exec_sbrDownstream_service s t, flrPf_flr _ _ _⟩, fun hbound => ?_⟩
  case refine_1 =>
    have hexec : exec (.hotResetReceived p k) s = .next (resetStart s T) := by
      show execHotResetReceived p k s = _
      unfold execHotResetReceived
      dsimp only
      rw [husp]
    exact ⟨_, hexec, hbegun hr⟩
  case refine_2 =>
    have hstart : tenRstWrite s T w = resetStart s T := if_pos hw
    exact ⟨_, congrArg Host.Outcome.next ((csGate_mayAct s m _ _ hm).trans hstart), hbegun hr⟩
  case refine_3 => exact congrArg Host.Outcome.next (resetStart_merged hr)
  case refine_4 => exact congrArg Host.Outcome.next (resetEnd_queued hq)
  case refine_5 =>
    exact ⟨_, congrArg Host.Outcome.next (csGate_mayAct s m _ _ hm), tenCtlWrite_hpWait s T w, tenCtlWrite_fmCci s T w,
      fun x hx hne => tenCtlWrite_others s w hx hne⟩
  case refine_6 =>
    obtain ⟨u, hu, hregs, hpdc, hnone, hsome⟩ := sbrDownstream_bound hbound.1 hbound.2
    refine ⟨u, hu, hregs, hpdc, ?_⟩
    cases hld : b.ld with
    | none => exact hnone hld
    | some l => exact hsome l hld

end Sys2Proof.Machine
end

section
/-! PROOFS. SPDM, firmware transfer and activation, aborts (O58). -/

namespace Sys2Proof.Machine

open Sys2Proof

/-! ### SPDM (R481) -/

/-- The request of a place has left its class queue. -/
def spdmTaken (s : State) (pl : SpdmPlace) : State := clsTake s (placeHalf s pl) 1

theorem exec_spdmMessage_own {pl : SpdmPlace} (hp : placeResponds pl = true) (q : SpdmReq) (s : State) :
    exec (.spdmMessage pl q) s = .next (spdmServe (spdmTaken s pl) (placeNo pl) q) := congrArg Host.Outcome.next (if_pos hp)

theorem measurement_unknown (s : State) {i : Nat} (hi : 5 < i) : measurement s i = none := by
  obtain ⟨n, rfl⟩ : ∃ n, i = n + 6 := ⟨i - 6, by omega⟩
  rfl

theorem certChain_provisioned (s : State) {i : Nat} (hi : 1 ≤ i) : certChain s i = mfind s.spdm.certs i := if_neg (by omega)

section
variable {pl : SpdmPlace} (hp : placeResponds pl = true) (s : State)
include hp

theorem spdmMessage_unknown {i : Nat} (hi : 5 < i) :
    ∃ u, exec (.spdmMessage pl (.measurement i)) s = .next u ∧ u.sent = .out outSPDM [placeNo pl, 0xE0, 1] :: s.sent := by
  refine ⟨_, exec_spdmMessage_own hp _ s, ?_⟩
  rw [spdmServe, measurement_unknown _ hi]
  rfl

theorem spdmMessage_certificate {i a : Nat} (hi : 1 ≤ i) (ha : mfind s.spdm.certs i = some a) :
    ∃ u, exec (.spdmMessage pl (.certificate i)) s = .next u ∧ u.sent = .out outSPDM [placeNo pl, 0x82, 0, a] :: s.sent := by
  have hc : mfind (spdmTaken s pl).spdm.certs i = some a := ha
  refine ⟨_, exec_spdmMessage_own hp _ s, ?_⟩
  rw [spdmServe, certChain_provisioned _ hi, hc]
  rfl

theorem spdmMessage_provisions {i : Nat} (h1 : 1 ≤ i) (h7 : i ≤ 7) (a : Nat) :
    ∃ u, exec (.spdmMessage pl (.setCertificate i a true)) s = .next u ∧ u.sent = .out outSPDM [placeNo pl, 0xEE, 0, i] :: s.sent
      ∧ mfind u.spdm.certs i = some a := by
  refine ⟨_, exec_spdmMessage_own hp _ s, ?_⟩
  rw [spdmServe, if_pos (by simp [h1, h7])]
  exact ⟨rfl, mfind_minsert_same _ _ _⟩

end

/-- A session starts, with Kezen as responder and as requester. -/
theorem spdmMessage_startSession (pl : SpdmPlace) (i : Nat) (s : State) :
    ∃ u, exec (.spdmMessage pl (.startSession i)) s = .next u ∧ (placeNo pl, i) ∈ u.spdm.sessions := by
  refine ⟨_, rfl, ?_⟩
  split
  · exact List.mem_cons_self
  · exact List.mem_cons_self

theorem spdmMessage_endSession (pl : SpdmPlace) (i : Nat) (s : State) :
    ∃ u, exec (.spdmMessage pl (.endSession i)) s = .next u ∧ (placeNo pl, i) ∉ u.spdm.sessions := by
  have hgone : (placeNo pl, i) ∉ (putSession (spdmTaken s pl) (placeNo pl) i false).spdm.sessions := by simp [putSession]
  refine ⟨_, rfl, ?_⟩
  split
  · exact hgone
  · exact hgone

/-! ### Firmware transfer (R488) -/

/-- The offset at which the transfer of a slot's image goes on. -/
def xferNext (s : State) (slot : Nat) : Nat :=
  match s.fw.xfer with
  | some (k, o) => if k = slot then o else 0
  | none => 0

/-- May bytes at an offset of a slot's image be written? -/
def xferFits (s : State) (slot off : Nat) : Prop :=
  (slot = 1 ∨ slot = 2) ∧ slot ≠ slotRunning s ∧ (off = 0 ∨ off = xferNext s slot)

/-- The transfer after `len` bytes at an offset, and the version of an image that is complete. -/
def xferred (s : State) (slot off len : Nat) (last : Bool) (v : Nat) : State :=
  let s := s.modFw fun f => { f with xfer := if last then none else some (slot, off + len) }
  if last then s.modFw fun f => { f with svn := minsert f.svn (slot - 1) v } else s

theorem xferred_sent (s : State) (slot off len : Nat) (last : Bool) (v : Nat) : (xferred s slot off len last v).sent = s.sent := by
  cases last <;> rfl

theorem xferred_xfer (s : State) (slot off len : Nat) (last : Bool) (v : Nat) :
    (xferred s slot off len last v).fw.xfer = if last then none else some (slot, off + len) := by
  cases last <;> rfl

theorem xferred_svn (s : State) (slot off len : Nat) (last : Bool) (v : Nat) :
    nget (xferred s slot off len last v).fw.svn (slot - 1) = if last then v else nget s.fw.svn (slot - 1) := by
  cases last with
  | false => rfl
  | true =>
    show (mfind (minsert s.fw.svn (slot - 1) v) (slot - 1)).getD 0 = v
    rw [mfind_minsert_same]
    rfl

section
variable {s : State} {cci slot off : Nat} (hheld : (s.obs.get .east).held = false) (hr : cciReach s cci [.east] = true)
include hheld hr

theorem exec_transferFw_fits (hfits : xferFits s slot off) (len : Nat) (last : Bool) (v : BitVec 16) :
    exec (.transferFw cci slot off len last v) s = .next (houseAnswer (xferred s slot off len last v.toNat) cci 0x0201 rcSUCCESS 0 []) := by
  obtain ⟨hslot, hrun, hoff⟩ := hfits
  show execTransferFw cci slot off len last v s = _
  unfold execTransferFw
  dsimp only
  rw [if_neg (by simp [hheld]), if_neg (by simp [hr])]
  refine (if_neg ?_).trans rfl
  show ¬ ((slot ≠ 1 ∧ slot ≠ 2) ∨ slot = slotRunning s ∨ (off ≠ 0 ∧ off ≠ xferNext s slot))
  omega

theorem exec_transferFw_refused (hfits : ¬ xferFits s slot off) (len : Nat) (last : Bool) (v : BitVec 16) :
    exec (.transferFw cci slot off len last v) s = .next (houseAnswer s cci 0x0201 rcINVALID 0 []) := by
  unfold xferFits at hfits
  show execTransferFw cci slot off len last v s = _
  unfold execTransferFw
  dsimp only
  rw [if_neg (by simp [hheld]), if_neg (by simp [hr])]
  refine if_pos ?_
  show (slot ≠ 1 ∧ slot ≠ 2) ∨ slot = slotRunning s ∨ (off ≠ 0 ∧ off ≠ xferNext s slot)
  omega

end

/-! ### Activation (R488, R489) -/

/-- An answer of class HOUSE changes the register of its queue alone. -/
theorem rd_houseAnswer_ne (s : State) (cci code ret ext : Nat) (data : List Nat) {a : Nat} (ha : a ≠ OBS_CLS_STAT (cciHalf s cci) 2) :
    (houseAnswer s cci code ret ext data).rd a = s.rd a := rd_fset_ne s _ _ ha

theorem clusterDown_onlyRegs (s : State) (h : Half) :
    onlyRegs ((List.range 67).map fun c => OBS_CLS_STAT h c) (s.modObs h fun o => { o with held := true, halted := [] }) (clusterDown s h) :=
  onlyRegs_foldl (fun u c hc => onlyRegs_mono (fun b hb => by
    obtain rfl := List.mem_singleton.mp hb
    exact List.mem_map.mpr ⟨c, hc, rfl⟩) (onlyRegs_wr u _ _)) _

theorem clusterDown_obs (s : State) (h : Half) :
    (clusterDown s h).obs = s.obs.set h { s.obs.get h with held := true, halted := [] } := by rw [(clusterDown_onlyRegs s h).1]; rfl

theorem clusterDown_fw (s : State) (h : Half) : (clusterDown s h).fw = s.fw := by rw [(clusterDown_onlyRegs s h).1]; rfl

theorem clusterDown_mgt (s : State) (h : Half) : (clusterDown s h).mgt = s.mgt := by rw [(clusterDown_onlyRegs s h).1]; rfl

theorem clusterDown_sent (s : State) (h : Half) : (clusterDown s h).sent = s.sent := by rw [(clusterDown_onlyRegs s h).1]; rfl

/-- The check of an image that is to be activated succeeds (R459). -/
def imageGood (s : State) (slot r v : Nat) : Prop := (slot = 1 ∨ slot = 2) ∧ imageResult s r v = 1

section
variable {s : State} {cci slot : Nat} {r : BitVec 3} {v : BitVec 16}

theorem exec_activateFw_refused {online compat : Bool} (h : ¬ imageGood s slot r.toNat v.toNat ∨ (online = true ∧ compat = false)) :
    exec (.activateFw cci slot online r v compat) s = .next (houseAnswer s cci opACTFW rcINVALID 0 []) := by
  refine if_pos ?_
  obtain hg | ⟨ho, hc⟩ := h
  · unfold imageGood at hg
    by_cases hs : slot ≠ 1 ∧ slot ≠ 2
    · exact Or.inl hs
    · exact Or.inr (Or.inl fun hi => hg ⟨by omega, hi⟩)
  · exact Or.inr (Or.inr (by simp [ho, hc]))

theorem exec_activateFw_good (hg : imageGood s slot r.toNat v.toNat) {online compat : Bool} (hc : online = false ∨ compat = true) :
    exec (.activateFw cci slot online r v compat) s = .next (if online then activateOnline s cci slot v.toNat
      else houseAnswer (s.fsets MRD_BOOT_CTL [(MRD_BOOT_CTL_PREF, slot - 1), (MRD_BOOT_CTL_PREF_V, 1)]) cci opACTFW rcSUCCESS 0 []) := by
  obtain ⟨hslot, himg⟩ := hg
  have hok : (online && !compat) = false := by
    obtain h | h := hc
    all_goals simp [h]
  show execActivateFw cci slot online r v compat s = _
  unfold execActivateFw
  dsimp only
  rw [if_neg (by rw [himg, hok]; simp; omega)]
  cases online <;> rfl

/-- An activation that waits for the next cold reset leaves its preference in MRD_BOOT_CTL. -/
theorem bootCtl_prefers (s : State) (hslot : slot = 1 ∨ slot = 2) :
    let u := houseAnswer (s.fsets MRD_BOOT_CTL [(MRD_BOOT_CTL_PREF, slot - 1), (MRD_BOOT_CTL_PREF_V, 1)]) cci opACTFW rcSUCCESS 0 []
    u.fget MRD_BOOT_CTL MRD_BOOT_CTL_PREF = slot - 1 ∧ u.flag MRD_BOOT_CTL MRD_BOOT_CTL_PREF_V = true := by
  have hrd := rd_houseAnswer_ne (s.fsets MRD_BOOT_CTL [(MRD_BOOT_CTL_PREF, slot - 1), (MRD_BOOT_CTL_PREF_V, 1)]) cci opACTFW rcSUCCESS 0 []
    (a := MRD_BOOT_CTL) (by unfold MRD_BOOT_CTL OBS_CLS_STAT; omega)
  constructor
  · rw [fget_of_rd_eq hrd]
    show ((s.fset _ MRD_BOOT_CTL_PREF _).fset _ MRD_BOOT_CTL_PREF_V _).fget _ _ = _
    rw [fget_fset_ne _ _ _ _ _ (by decide) (by decide), fget_fset_same _ _ _ _ (by decide)]
    obtain rfl | rfl := hslot <;> rfl
  · rw [flag_of_rd_eq hrd]
    show ((s.fset _ MRD_BOOT_CTL_PREF _).fset _ MRD_BOOT_CTL_PREF_V _).flag _ _ = _
    rw [State.flag, fget_fset_same _ _ _ _ (by decide)]
    rfl

end

/-- The activation of a slot has been noted, and the standby of primary p goes down to restart with its image. -/
def activating (s : State) (cci slot svn : Nat) (p : Half) : State :=
  clusterDown ((s.modMgt fun m => { m with bg := minsert m.bg cci ⟨opACTFW, [], 0, false, []⟩ }).modFw fun f =>
    { f with act := some ⟨cci, slot - 1, svn, false⟩ }) p.other

section
variable (s : State) (cci slot svn : Nat) (p : Half)

theorem activating_sent : (activating s cci slot svn p).sent = s.sent := clusterDown_sent _ _

theorem activating_act : (activating s cci slot svn p).fw.act = some ⟨cci, slot - 1, svn, false⟩ := by
  rw [activating, clusterDown_fw]
  rfl

theorem activating_held : ((activating s cci slot svn p).obs.get p.other).held = true := by
  rw [activating, clusterDown_obs]
  cases p <;> rfl

end

/-- A cluster that is not ready answers in class HOUSE. -/
theorem houseAnswer_notReady (u : State) (p : Half) (cci code ret ext : Nat) (data : List Nat) :
    let w := houseAnswer (setReady u p false) cci code ret ext data
    w.sent = .ans code ret (cci :: ext :: data) :: u.sent ∧ w.fw = u.fw ∧ w.obs = u.obs
      ∧ w.flag (OBS_STAT p) OBS_STAT_STANDBY_READY = false := by
  have hq : OBS_STAT p ≠ OBS_CLS_STAT (cciHalf (setReady u p false) cci) 2 := by
    unfold OBS_STAT OBS_CLS_STAT
    omega
  refine ⟨rfl, rfl, rfl, ?_⟩
  rw [flag_of_rd_eq (rd_houseAnswer_ne _ _ _ _ _ _ hq)]
  exact flag_fset_toNat _ _ _ false rfl (by decide)

theorem activateOnline_begins {s : State} {cci : Nat} (hr : cciReach s cci [.east, .west] = true) (hb : mfind s.mgt.bg cci = none)
    (ha : s.fw.act = none) (slot svn : Nat) :
    let u := activateOnline s cci slot svn
    u.sent = .ans opACTFW rcSTARTED [cci, 0] :: s.sent ∧ u.fw.act = some ⟨cci, slot - 1, svn, false⟩
      ∧ (u.obs.get (obsPrimary s).other).held = true ∧ u.flag (OBS_STAT (obsPrimary s)) OBS_STAT_STANDBY_READY = false := by
  have hu : activateOnline s cci slot svn
      = houseAnswer (setReady (activating s cci slot svn (obsPrimary s)) (obsPrimary s) false) cci opACTFW rcSTARTED 0 [] := by
    unfold activateOnline activating
    dsimp only
    rw [if_neg (by simp [hr]), if_neg (by simp [hb, ha])]
  obtain ⟨hsent, hfw, hobs, hready⟩ := houseAnswer_notReady (activating s cci slot svn (obsPrimary s)) (obsPrimary s) cci opACTFW rcSTARTED 0 []
  rw [← hu] at hsent hfw hobs hready
  exact ⟨by rw [hsent, activating_sent], by rw [hfw, activating_act], by rw [hobs, activating_held], hready⟩

/-! ### Security versions (R490) -/

/-- Both clusters run the image of a security version. -/
def bothRun (s : State) (v : Nat) : Prop :=
  v = s.fget MRD_BOOT_STAT MRD_BOOT_STAT_SVN ∧ (s.obs.get .east).img = (s.obs.get .west).img
    ∧ (s.obs.get .east).held = false ∧ (s.obs.get .west).held = false

theorem exec_commitSecurityVersion_both {s : State} {v : BitVec 16} (h : bothRun s v.toNat) (cci : Nat) :
    exec (.commitSecurityVersion cci v) s
      = .next (cciAnswer (s.modFw fun f => { f with minSvn := max f.minSvn v.toNat }) cci 0xC032 rcSUCCESS 0 []) := if_pos h

theorem exec_commitSecurityVersion_refused {s : State} {v : BitVec 16} (h : ¬ bothRun s v.toNat) (cci : Nat) :
    exec (.commitSecurityVersion cci v) s = .next (cciAnswer s cci 0xC032 rcINVALID 0 []) := if_neg h

/-! ### Aborts (R204, R206, R489) -/

theorem obsPrimary_cciAnswer (s : State) (cci code ret ext : Nat) (data : List Nat) :
    obsPrimary (cciAnswer s cci code ret ext data) = obsPrimary s := by
  have hstat : ∀ h : Half, (cciAnswer s cci code ret ext data).flag (OBS_STAT h) OBS_STAT_ROLE = s.flag (OBS_STAT h) OBS_STAT_ROLE := fun h =>
    flag_of_rd_eq (rd_cciAnswer_ne s _ _ _ _ _ (by
      have hc := cciClass_le cci
      unfold cciQueue OBS_STAT OBS_CLS_STAT
      omega)) _
  have hauth : (cciAnswer s cci code ret ext data).fget (CDB_STAT .east) CDB_STAT_AUTH = s.fget (CDB_STAT .east) CDB_STAT_AUTH :=
    fget_of_rd_eq (rd_cciAnswer_ne s _ _ _ _ _ (by
      have hc := cciClass_le cci
      unfold cciQueue CDB_STAT OBS_CLS_STAT
      simp only [Half.idx]
      omega)) _
  unfold obsPrimary State.auth
  rw [hstat, hstat, hauth]

theorem exec_abort_idle {s : State} {cci : Nat} (hb : mfind s.mgt.bg cci = none) :
    exec (.fmRequestAbortBackgroundOp cci) s = .next (cciAnswer s cci 0x0005 rcSUCCESS 0 []) := by
  have hb' : mfind (cciAnswer s cci 0x0005 rcSUCCESS 0 []).mgt.bg cci = none := hb
  show execFmRequestAbortBackgroundOp cci s = _
  unfold execFmRequestAbortBackgroundOp
  dsimp only
  rw [hb']

theorem exec_abort_row {s : State} {cci a w : Nat} {h : Half} {o : BgOp} (hb : mfind s.mgt.bg cci = some o) (hcode : o.code ≠ opACTFW)
    (hrows : o.rows = [a]) (hw : rowWord2 a = some (h, w)) :
    exec (.fmRequestAbortBackgroundOp cci) s = .next (rowCancel (cciAnswer s cci 0x0005 rcSUCCESS 0 []) h w) := by
  have hb' : mfind (cciAnswer s cci 0x0005 rcSUCCESS 0 []).mgt.bg cci = some o := hb
  show execFmRequestAbortBackgroundOp cci s = _
  unfold execFmRequestAbortBackgroundOp
  dsimp only
  rw [hb']
  dsimp only
  rw [if_neg hcode, hrows, List.foldl_cons, List.foldl_nil, hw]

theorem exec_abort_activation {s : State} {cci : Nat} {o : BgOp} (hb : mfind s.mgt.bg cci = some o) (hcode : o.code = opACTFW) :
    exec (.fmRequestAbortBackgroundOp cci) s = .next (abortActivation (cciAnswer s cci 0x0005 rcSUCCESS 0 []) cci o) := by
  have hb' : mfind (cciAnswer s cci 0x0005 rcSUCCESS 0 []).mgt.bg cci = some o := hb
  show execFmRequestAbortBackgroundOp cci s = _
  unfold execFmRequestAbortBackgroundOp
  dsimp only
  rw [hb']
  exact if_pos hcode

/-- CANCEL of a row that has none sets it, and is noted as late once the half's program is sealed. -/
theorem rowCancel_eq {s : State} {w : Nat} (hw : (s.rd w).getLsbD 31 = false) (h : Half) : rowCancel s h w =
    if (s.trp.get h).sealed then (s.wr w (s.rd w ||| 0x80000000)).modMgt fun m => { m with lateCancel := w :: m.lateCancel }
    else s.wr w (s.rd w ||| 0x80000000) := by
  have hbit : ¬ (s.rd w).toNat.testBit 31 = true := by
    rw [BitVec.getLsbD] at hw
    simp [hw]
  exact if_neg hbit

theorem rowCancel_sets {s : State} {w : Nat} (hw : (s.rd w).getLsbD 31 = false) (h : Half) :
    (rowCancel s h w).rd w = s.rd w ||| 0x80000000 ∧ (rowCancel s h w).sent = s.sent := by
  rw [rowCancel_eq hw]
  split
  · exact ⟨rd_wr_same _ _ _, rfl⟩
  · exact ⟨rd_wr_same _ _ _, rfl⟩

theorem bgEnd_runs {s : State} {cci : Nat} {o : BgOp} (hb : mfind s.mgt.bg cci = some o) (ret ext : Nat) :
    bgEnd s cci ret ext = s.modMgt fun m => { m with bg := merase m.bg cci, last := minsert m.last cci (o.code, ret, ext) } := by
  rw [bgEnd, hb]

/-- An activation is given up: the standby goes down, to restart with the image of the primary p. -/
def standbyBack (s : State) (p : Half) : State :=
  clusterDown ((s.modFw fun f => { f with act := none, handover := none }).modObs p.other fun x => { x with img := (s.obs.get p).img }) p.other

theorem standbyBack_act (s : State) (p : Half) : (standbyBack s p).fw.act = none := by
  rw [standbyBack, clusterDown_fw]
  rfl

theorem standbyBack_mgt (s : State) (p : Half) : (standbyBack s p).mgt = s.mgt := clusterDown_mgt _ _

theorem standbyBack_img (s : State) (p : Half) : ((standbyBack s p).obs.get p.other).img = (s.obs.get p).img := by
  rw [standbyBack, clusterDown_obs]
  cases p <;> rfl

theorem abortActivation_eq {s : State} {x : Activation} (hx : s.fw.act = some x) (himg : (s.obs.get (obsPrimary s)).img ≠ x.slot)
    (cci : Nat) (o : BgOp) :
    abortActivation s cci o = bgEnd (setReady (standbyBack s (obsPrimary s)) (obsPrimary s) false) cci rcABORTED 0 := by
  unfold abortActivation
  rw [hx]
  exact if_neg himg

/-- An abort of an activation in time: the standby goes back to the old image, and the operation ends. -/
theorem abortActivation_inTime {s : State} {cci : Nat} {o : BgOp} {x : Activation} (hb : mfind s.mgt.bg cci = some o) (hx : s.fw.act = some x)
    (himg : (s.obs.get (obsPrimary s)).img ≠ x.slot) :
    let u := abortActivation s cci o
    u.fw.act = none ∧ mfind u.mgt.bg cci = none ∧ mfind u.mgt.last cci = some (o.code, rcABORTED, 0)
      ∧ (u.obs.get (obsPrimary s).other).img = (s.obs.get (obsPrimary s)).img := by
  have hact := standbyBack_act s (obsPrimary s)
  have hmgt := standbyBack_mgt s (obsPrimary s)
  have hold := standbyBack_img s (obsPrimary s)
  rw [abortActivation_eq hx himg]
  generalize standbyBack s (obsPrimary s) = w at hact hmgt hold ⊢
  have hbg : mfind (setReady w (obsPrimary s) false).mgt.bg cci = some o := by
    show mfind w.mgt.bg cci = _
    rw [hmgt, hb]
  rw [bgEnd_runs hbg]
  exact ⟨hact, mfind_merase_same _ _, mfind_minsert_same _ _ _, hold⟩

/-- After the handover an abort is too late. -/
theorem abortActivation_late {s : State} {cci : Nat} {x : Activation} (hx : s.fw.act = some x)
    (himg : (s.obs.get (obsPrimary s)).img = x.slot) (o : BgOp) :
    abortActivation s cci o = s.modMgt fun m => { m with bg := minsert m.bg cci { o with late := true } } := by
  unfold abortActivation
  rw [hx]
  exact if_pos himg

/-- The abort of an activation that the primary does not run yet (R489). -/
theorem fmRequestAbort_inTime {s : State} {cci : Nat} {o : BgOp} {x : Activation} (hb : mfind s.mgt.bg cci = some o)
    (hcode : o.code = opACTFW) (hx : s.fw.act = some x) (himg : (s.obs.get (obsPrimary s)).img ≠ x.slot) :
    ∃ u, exec (.fmRequestAbortBackgroundOp cci) s = .next u ∧ u.fw.act = none ∧ mfind u.mgt.bg cci = none
      ∧ mfind u.mgt.last cci = some (opACTFW, rcABORTED, 0) ∧ (u.obs.get (obsPrimary s).other).img = (s.obs.get (obsPrimary s)).img := by
  have hp := obsPrimary_cciAnswer s cci 0x0005 rcSUCCESS 0 []
  have h := abortActivation_inTime (s := cciAnswer s cci 0x0005 rcSUCCESS 0 []) (cci := cci) (o := o) hb hx (by rw [hp]; exact himg)
  rw [hp, hcode] at h
  exact ⟨_, exec_abort_activation hb hcode, h⟩

/-- The abort of an activation that the primary runs already is late (R489). -/
theorem fmRequestAbort_late {s : State} {cci : Nat} {o : BgOp} {x : Activation} (hb : mfind s.mgt.bg cci = some o)
    (hcode : o.code = opACTFW) (hx : s.fw.act = some x) (himg : (s.obs.get (obsPrimary s)).img = x.slot) :
    ∃ u, exec (.fmRequestAbortBackgroundOp cci) s = .next u ∧ u.fw.act = some x ∧ mfind u.mgt.bg cci = some { o with late := true } := by
  refine ⟨_, (exec_abort_activation hb hcode).trans (congrArg Host.Outcome.next (abortActivation_late
    (s := cciAnswer s cci 0x0005 rcSUCCESS 0 []) hx ?_ o)), hx, mfind_minsert_same _ _ _⟩
  rw [obsPrimary_cciAnswer]
  exact himg

/-! ### O58 -/

/-- Settles O58, command by command. -/
theorem firmwareSpdmAndAborts : Obligations.FirmwareSpdmAndAborts := by
  intro s cci slot off len i a w h pl last online compat r v o x p house answers spdm own goes fits east good both
  refine ⟨fun hown => ⟨?_, fun hi => spdmMessage_unknown hown s hi, fun h1 h7 => spdmMessage_provisions hown s h1 h7 a, ?_,
      fun h1 ha => spdmMessage_certificate hown s h1 ha⟩, spdmMessage_startSession pl i s, spdmMessage_endSession pl i s, ?_,
    fun he hfits => ?_, fun he hfits => ?_, fun hbad => ?_, fun hg => ?_, fun hg hc hr hb ha => ?_, fun hboth => ?_, fun hboth => ?_,
    fun hb => ⟨_, exec_abort_idle hb, rfl, rfl⟩, fun hb hcode hrows hw hlow hbit => ?_,
    fun hb hcode hx himg => fmRequestAbort_inTime hb hcode hx himg, fun hb hcode hx himg => fmRequestAbort_late hb hcode hx himg⟩
  case refine_1 => exact ⟨_, exec_spdmMessage_own hown _ s, rfl⟩
  case refine_2 => exact ⟨_, exec_spdmMessage_own hown _ s, rfl, rfl⟩
  case refine_3 => exact ⟨_, rfl, rfl, onlyField_fset _ _ _ _ (by decide)⟩
  case refine_4 =>
    exact ⟨_, exec_transferFw_fits he.1 he.2 hfits len last v, congrArg _ (xferred_sent s slot off len last v.toNat),
      xferred_xfer s slot off len last v.toNat, xferred_svn s slot off len last v.toNat⟩
  case refine_5 => exact ⟨_, exec_transferFw_refused he.1 he.2 hfits len last v, rfl, rfl⟩
  case refine_6 => exact ⟨_, exec_activateFw_refused hbad, rfl, rfl⟩
  case refine_7 =>
    obtain ⟨hpref, hvalid⟩ := bootCtl_prefers (cci := cci) s hg.1
    exact ⟨_, exec_activateFw_good hg (Or.inl rfl), rfl, hpref, hvalid, rfl⟩
  case refine_8 =>
    obtain ⟨hsent, hact, hheld, hready⟩ := activateOnline_begins hr hb ha slot v.toNat
    exact ⟨_, exec_activateFw_good hg (Or.inr hc), hsent, hact, hheld, hready⟩
  case refine_9 => exact ⟨_, exec_commitSecurityVersion_both hboth cci, rfl, rfl⟩
  case refine_10 => exact ⟨_, exec_commitSecurityVersion_refused hboth cci, rfl, rfl⟩
  case refine_11 =>
    have hrd : (cciAnswer s cci 0x0005 rcSUCCESS 0 []).rd w = s.rd w := rd_cciAnswer_below s _ _ _ _ _ hlow
    obtain ⟨hset, hsent⟩ := rowCancel_sets (s := cciAnswer s cci 0x0005 rcSUCCESS 0 []) (by rw [hrd]; exact hbit) h
    exact ⟨_, exec_abort_row hb hcode hrows hw, hsent, by rw [hset, hrd]⟩

end Sys2Proof.Machine
end

section
/-! PROOFS. What the FM and the vPPBs have been told stays told while messages are flushed (R162, R205, R212): what ends a message,
drops it from its queues or reports an event changes no binding, no vPPB and no record sent to the FM. -/

namespace Sys2Proof.Machine

open Sys2Proof

/-- Is a message one of the FM's event records (R205)? -/
def isFmRecord : Sent → Bool
  | .out k _ => k == outFMREC
  | _ => false

/-- The bindings, the vPPBs, and the records that have gone to the FM. -/
def fmKept (s : State) : Pair BindTab × SMap Vp × List Sent := (s.binds, s.mgt.vpp, s.sent.filter isFmRecord)

/-! ### Elementary changes -/

theorem fmKept_congr {s t : State} (hbinds : t.binds = s.binds) (hmgt : t.mgt = s.mgt) (hsent : t.sent = s.sent) : fmKept t = fmKept s := by
  rw [fmKept, hbinds, hmgt, hsent]
  rfl

@[simp] theorem wr_fm (s : State) (b : Nat) (v : Word) : fmKept (s.wr b v) = fmKept s := fmKept_congr rfl rfl rfl
@[simp] theorem fset_fm (s : State) (b : Nat) (f : Fld) (n : Nat) : fmKept (s.fset b f n) = fmKept s := fmKept_congr rfl rfl rfl
@[simp] theorem fsetB_fm (s : State) (b : Nat) (f : Fld) (x : Bool) : fmKept (s.fsetB b f x) = fmKept s := fmKept_congr rfl rfl rfl
@[simp] theorem fbump_fm (s : State) (b : Nat) (f : Fld) (n : Nat) : fmKept (s.fbump b f n) = fmKept s := fmKept_congr rfl rfl rfl
@[simp] theorem wr64_fm (s : State) (b v : Nat) : fmKept (s.wr64 b v) = fmKept s :=
  (wr_fm _ _ _).trans (wr_fm _ _ _)
@[simp] theorem modCdb_fm (s : State) (h : Half) (f : Cdb → Cdb) : fmKept (s.modCdb h f) = fmKept s := fmKept_congr rfl rfl rfl
@[simp] theorem modCore_fm (s : State) (h : Half) (f : Core → Core) : fmKept (s.modCore h f) = fmKept s := fmKept_congr rfl rfl rfl
@[simp] theorem modNet_fm (s : State) (f : Net → Net) : fmKept (s.modNet f) = fmKept s := fmKept_congr rfl rfl rfl
@[simp] theorem modCat_fm (s : State) (h : Half) (f : Cat → Cat) : fmKept (s.modCat h f) = fmKept s := fmKept_congr rfl rfl rfl
@[simp] theorem modUmp_fm (s : State) (h : Half) (f : Ump → Ump) : fmKept (s.modUmp h f) = fmKept s := fmKept_congr rfl rfl rfl
@[simp] theorem modQos_fm (s : State) (h : Half) (f : Qos → Qos) : fmKept (s.modQos h f) = fmKept s := fmKept_congr rfl rfl rfl
@[simp] theorem modFn_fm (s : State) (t n : Nat) (f : Fn → Fn) : fmKept (s.modFn t n f) = fmKept s := fmKept_congr rfl rfl rfl
@[simp] theorem modChan_fm (s : State) (c : Nat) (f : Chan → Chan) : fmKept (s.modChan c f) = fmKept s := fmKept_congr rfl rfl rfl
@[simp] theorem draw_fm (s : State) : fmKept s.draw.2 = fmKept s := fmKept_congr rfl rfl rfl

/-- A message that is no record of the FM's. -/
theorem emit_fm (s : State) {x : Sent} (hx : isFmRecord x = false) : fmKept (s.emit x) = fmKept s := by
  simp only [fmKept, State.emit, List.filter_cons, hx, Bool.false_eq_true, if_false]

@[simp] theorem emitReq_fm (s : State) (d : Nat) (m : Msg) (f : Nat) : fmKept (s.emit (reqSent d m f)) = fmKept s := emit_fm s rfl

@[simp] theorem fmKept_ite (c : Prop) [Decidable c] (s t : State) :
    fmKept (if c then s else t) = if c then fmKept s else fmKept t := apply_ite fmKept c s t

@[simp] theorem foldl_fm {α : Type} {f : State → α → State} (hf : ∀ s x, fmKept (f s x) = fmKept s) (l : List α)
    (s : State) : fmKept (l.foldl f s) = fmKept s := foldl_keeps fmKept (fun s x _ => hf s x) s

@[simp] theorem fsets_fm (s : State) (b : Nat) (l : List (Fld × Nat)) : fmKept (s.fsets b l) = fmKept s := by
  induction l generalizing s with
  | nil => rfl
  | cons x r ih => exact ih (s.fset b x.1 x.2)

/-! ### Events and counting -/

theorem recordOnly_fm {s t : State} (h : recordOnly s t) : fmKept t = fmKept s := by rw [h.1]; rfl

@[simp] theorem record_fm (s : State) (h : Half) (sp : EvSpec) (sev : Nat) : fmKept (record s h sp sev) = fmKept s :=
  recordOnly_fm (record_recordOnly s h sp sev)

@[simp] theorem setViral_fm (s : State) (t : Nat) : fmKept (setViral s t) = fmKept s := by
  unfold setViral
  split
  · rfl
  · exact (record_fm _ _ _ _).trans rfl

/-- An event of no unit, FATAL_DEVICE or not. -/
@[simp] theorem raise_fm (s : State) (h : Half) (cls cause inst detail : Nat) :
    fmKept (raise s h (evt cls cause inst detail)) = fmKept s := by
  have hfatal : fmKept (fatalDevice s h) = fmKept s := by
    unfold fatalDevice
    dsimp only
    rw [setViralAll, foldl_fm setViral_fm]
    split <;> rfl
  unfold raise raiseSev
  split
  · unfold raiseLive
    dsimp only
    exact (record_fm _ _ _ _).trans ((fmKept_ite _ _ _).trans (by rw [hfatal, ite_self]))
  · rfl

@[simp] theorem phmAdd_fm (s : State) (h : Half) (c k : Nat) : fmKept (phmAdd s h c k) = fmKept s := by
  unfold phmAdd
  dsimp only
  split
  · exact wr64_fm _ _ _
  · split
    · exact (raise_fm _ _ _ _ _ _).trans ((wr_fm _ _ _).trans (wr64_fm _ _ _))
    · exact (wr_fm _ _ _).trans (wr64_fm _ _ _)

@[simp] theorem tally_fm (s : State) (h : Half) (u e i k : Nat) : fmKept (tally s h u e i k) = fmKept s :=
  foldl_fm (fun s x => by simp) _ s

@[simp] theorem tallyRise_fm (s : State) (h : Half) (u e i : Nat) : fmKept (tallyRise s h u e i) = fmKept s :=
  foldl_fm (fun s x => by simp) _ s

/-! ### The Umpire and messages on their way (R102-R137, R312-R316) -/

@[simp] theorem setLive_fm (s : State) (h : Half) : fmKept (setLive s h) = fmKept s := by simp [setLive]

@[simp] theorem flightEnd_fm (s : State) (h : Half) (g : Nat) : fmKept (flightEnd s h g) = fmKept s := by
  simp [flightEnd]

@[simp] theorem flightBegin_fm (s : State) (h : Half) (g : Nat) : fmKept (flightBegin s h g) = fmKept s := by
  simp [flightBegin]

@[simp] theorem endFlight_fm (s : State) (m : Msg) : fmKept (endFlight s m) = fmKept s := by simp [endFlight]

@[simp] theorem umpFault_fm (s : State) (h : Half) (t need : Nat) (p : Piece) (rule : Option Nat) :
    fmKept (umpFault s h t need p rule) = fmKept s := by
  simp [umpFault, faultLog]

@[simp] theorem formCells_fm (s : State) (h : Half) (st n flit : Nat) (pack : Bool) :
    fmKept (formCells s h st n flit pack) = fmKept s := by
  unfold formCells
  split <;> rfl

@[simp] theorem originate_fm (s : State) (h : Half) (st : Nat) (m : Msg) : fmKept (originate s h st m) = fmKept s := by
  simp [originate, newMsg]

@[simp] theorem originateStamped_fm (s : State) (h : Half) (st : Nat) (m : Msg) :
    fmKept (originateStamped s h st m) = fmKept s := by
  simp only [originateStamped, originate_fm, stampMsg]
  split
  · rfl
  · split
    · rfl
    · split <;> rfl

@[simp] theorem toCatalogue_fm (s : State) (h : Half) (m : Msg) : fmKept (toCatalogue s h m) = fmKept s := rfl

theorem takeItag_fm {s u : State} {h : Half} {own : IOwner} {t e : Nat} {gen : Option Nat} {io out : Bool}
    (hk : takeItag s h own t gen io out = some (e, u)) : fmKept u = fmKept s := by
  unfold takeItag at hk
  dsimp only at hk
  split at hk
  · cases hk
  · cases hk
    rfl

@[simp] theorem aerLog_fm (s : State) (t v kind : Nat) (hdr : List Nat) : fmKept (aerLog s t v kind hdr) = fmKept s := by
  have hput : ∀ (s : State) off x, fmKept (cfgPut s t v off x) = fmKept s := fun _ _ _ => rfl
  have hhdr : fmKept (aerHeader (s.emit (.aer t v kind hdr)) t v hdr) = fmKept s :=
    (foldl_fm (fun s x => hput s _ _) _ _).trans (emit_fm s rfl)
  unfold aerLog
  extract_lets b st masked fatal u1 u2 u3 u4 told
  have h2 : fmKept u2 = fmKept s := (fmKept_ite _ _ _).trans (by rw [hhdr, emit_fm s rfl, ite_self])
  have h4 : fmKept u4 = fmKept s := (hput _ _ _).trans ((hput _ _ _).trans h2)
  split
  · exact (emit_fm u4 rfl).trans h4
  · exact h4

@[simp] theorem aerMsg_fm (s : State) (t v kind : Nat) (m : Msg) : fmKept (aerMsg s t v kind m) = fmKept s := aerLog_fm s t v kind _

@[simp] theorem synthEnd_fm (s : State) (m : Msg) (dl : Nat) : fmKept (synthEnd s m dl) = fmKept s := by
  have hsend := foldl_fm (f := fun s e => sendRsp s m e.1 e.2 dl) (fun _ _ => rfl) (synthOf m) s
  simp [synthEnd, hsend]

@[simp] theorem synthReport_fm (s : State) (m : Msg) (dl : Nat) : fmKept (synthReport s m dl) = fmKept s := by
  simp [synthReport]

@[simp] theorem postedGone_fm (s : State) (m : Msg) : fmKept (postedGone s m) = fmKept s := by
  unfold postedGone
  split <;> rfl

/-! ### The Catalogue (R229-R252) -/

@[simp] theorem catStat_fm (s : State) (h : Half) : fmKept (catStat s h) = fmKept s := by simp [catStat]

@[simp] theorem mirrorWrite_fm (s : State) (h : Half) (i : Nat) (e : Option CatEnt) :
    fmKept (mirrorWrite s h i e) = fmKept s := by
  simp [mirrorWrite, recordRegions]

@[simp] theorem putEnt_fm (s : State) (h : Half) (i : Nat) (e : Option CatEnt) : fmKept (putEnt s h i e) = fmKept s := by
  simp [putEnt]

@[simp] theorem settleEnt_fm (s : State) (h : Half) (i : Nat) (e : CatEnt) : fmKept (settleEnt s h i e) = fmKept s :=
  putEnt_fm _ _ _ _

@[simp] theorem putTxn_fm (s : State) (h : Half) (k : Nat) (t : Txn) : fmKept (putTxn s h k t) = fmKept s := by
  simp [putTxn]

@[simp] theorem dropTxn_fm (s : State) (h : Half) (k : Nat) : fmKept (dropTxn s h k) = fmKept s := by simp [dropTxn]

@[simp] theorem catTick_fm (s : State) (h : Half) : fmKept (catTick s h).2 = fmKept s := rfl

@[simp] theorem devRead_fm (s : State) (h : Half) (k : Nat) (m : Msg) (op : Op) :
    fmKept (devRead s h k m op) = fmKept s := originate_fm _ _ _ _

@[simp] theorem ownWrite_fm (s : State) (h : Half) (k data : Nat) (bad : Bool) (use : WrUse) :
    fmKept (ownWrite s h k data bad use) = fmKept s := by
  simp [ownWrite, devWrite]

@[simp] theorem slotOut_fm (s : State) (h : Half) (k : Nat) : fmKept (slotOut s h k) = fmKept s := by
  unfold slotOut
  split <;> simp

@[simp] theorem slotFill_fm (s : State) (h : Half) (k way data : Nat) (psn : Bool) :
    fmKept (slotFill s h k way data psn) = fmKept s := by
  unfold slotFill entSlot
  split <;> simp [slotPut]

@[simp] theorem doWrite_fm (s : State) (h : Half) (k : Nat) (t : Txn) (m : Msg) : fmKept (doWrite s h k t m) = fmKept s := by
  unfold doWrite
  dsimp only
  split
  · split <;> simp [mergeWrite]
  · simp

@[simp] theorem getData_fm (s : State) (h : Half) (k : Nat) (t : Txn) (m : Msg) : fmKept (getData s h k t m) = fmKept s := by
  unfold getData
  split <;> simp [slotUse]

@[simp] theorem catRespond_fm (s : State) (h : Half) (m : Msg) (grant : Hold) (data : Nat) (poison : Bool) (load : Nat)
    (ok : Bool) : fmKept (catRespond s h m grant data poison load ok) = fmKept s := by
  unfold catRespond
  dsimp only
  split
  · split <;> simp [freeItagEnt]
  · split <;> simp

@[simp] theorem finishReq_fm (s : State) (h : Half) (k : Nat) (t : Txn) (m : Msg) :
    fmKept (finishReq s h k t m) = fmKept s := by
  have hdraw : ∀ (c : Prop) [Decidable c] (n : Nat), fmKept (if c then s.draw else (n, s)).2 = fmKept s := fun c _ n => by
    split <;> rfl
  unfold finishReq
  dsimp only
  split
  · simp [hdraw]
  · simp only [catRespond_fm, dropTxn_fm]
    split <;> simp [hdraw]

@[simp] theorem reserveWay_fm (s : State) (h : Half) (k set : Nat) : fmKept (reserveWay s h k set) = fmKept s := by
  unfold reserveWay
  split <;> simp

@[simp] theorem waitPool_fm (s : State) (h : Half) (m : Msg) (front : Bool) : fmKept (waitPool s h m front) = fmKept s := by
  have hrise : fmKept (waitRise s h m) = fmKept s := by
    unfold waitRise
    dsimp only
    split
    · rfl
    · split
      · rfl
      · exact foldl_fm (fun s x => by simp) _ _
  simp [waitPool, newMsg, hrise]

@[simp] theorem finishCap_fm (s : State) (h : Half) (k : Nat) (t : Txn) : fmKept (finishCap s h k t) = fmKept s := by
  unfold finishCap
  extract_lets u1 u2
  have hfreed : fmKept u1 = fmKept s := by
    unfold u1
    split <;> simp
  have hdropped : fmKept u2 = fmKept s := (dropTxn_fm u1 h k).trans hfreed
  clear_value u2
  split
  · rw [waitPool_fm]
    split <;> simp [hdropped]
  · exact hdropped

@[simp] theorem finishOwn_fm (s : State) (h : Half) (k : Nat) : fmKept (finishOwn s h k) = fmKept s := by
  unfold finishOwn
  dsimp only
  rw [dropTxn_fm]
  split <;> simp

@[simp] theorem finishTxn_fm (s : State) (h : Half) (k : Nat) (t : Txn) : fmKept (finishTxn s h k t) = fmKept s := by
  unfold finishTxn
  split <;> simp

@[simp] theorem stageStep_fm (s : State) (h : Half) (k : Nat) (t : Txn) : fmKept (stageStep s h k t) = fmKept s := by
  unfold stageStep
  split
  case h_1 | h_2 => rfl
  case h_3 | h_4 => split <;> simp
  case h_5 | h_6 => simp

@[simp] theorem catAdvance_fm (s : State) (h : Half) (k : Nat) : fmKept (catAdvance s h k) = fmKept s :=
  foldl_fm (fun s x => by split <;> simp) _ s

@[simp] theorem devAnswer_fm (s : State) (h : Half) (k load data : Nat) (bad : Bool) :
    fmKept (devAnswer s h k load data bad) = fmKept s := by
  unfold devAnswer
  split <;> simp

@[simp] theorem devLost_fm (s : State) (h : Half) (k : Nat) : fmKept (devLost s h k) = fmKept s := by
  unfold devLost
  split
  · rfl
  · split <;> simp

@[simp] theorem poisonLine_fm (s : State) (h : Half) (k : Nat) : fmKept (poisonLine s h k) = fmKept s := by
  unfold poisonLine
  dsimp only
  split
  · simp
  · split
    · simp
    · split <;> simp

@[simp] theorem lostHolder_fm (s : State) (h : Half) (k t : Nat) : fmKept (lostHolder s h k t) = fmKept s := by
  have hdrop : fmKept (dropHolder s h k t) = fmKept s := by
    unfold dropHolder
    split <;> simp
  unfold lostHolder
  dsimp only
  split
  · rfl
  · split <;> simp [hdrop]

@[simp] theorem snoopFlushed_fm (s : State) (h : Half) (k t : Nat) : fmKept (snoopFlushed s h k t) = fmKept s := by
  simp [snoopFlushed]

@[simp] theorem snoopTimedOut_fm (s : State) (h : Half) (k t : Nat) : fmKept (snoopTimedOut s h k t) = fmKept s := by
  simp [snoopTimedOut]

@[simp] theorem catLost_fm (s : State) (m : Msg) : fmKept (catLost s m) = fmKept s := by
  unfold catLost
  dsimp only
  split
  · split <;> simp
  · simp

/-! ### Service functions: copies, queues and images (R353-R377) -/

@[simp] theorem meterMsg_fm (s : State) (t fn b : Nat) (again : Bool) : fmKept (meterMsg s t fn b again).2 = fmKept s := by
  unfold meterMsg
  split
  · rfl
  · simp [countColour]

@[simp] theorem modDesc_fm (s : State) (t fn i : Nat) (f : Desc → Desc) : fmKept (modDesc s t fn i f) = fmKept s := rfl

@[simp] theorem modMig_fm (s : State) (t : Nat) (f : Mig → Mig) : fmKept (modMig s t f) = fmKept s := rfl

theorem formPart_fm (s : State) (t fn i off : Nat) (g : CopySeg) (data : Option Nat) (again : Bool) :
    fmKept (formPart s t fn i off g data again).state = fmKept s := by
  unfold formPart
  extract_lets h wr p addr pc r u
  have hmeter : fmKept u = fmKept s := meterMsg_fm s t fn (g.len + 16) again
  clear_value p r
  split
  · exact hmeter
  · split
    · simp [Formed.state, hmeter]
    · split
      · simp [Formed.state, hmeter]
      · split
        · exact hmeter
        · split
          · exact hmeter
          · split
            · exact hmeter
            · next hk => simp [Formed.state, hmeter, takeItag_fm hk]

theorem pumpParts_fm (t fn i : Nat) (l : List (Nat × CopySeg × Option Nat)) :
    ∀ (s : State) (red : Bool), fmKept (pumpParts s t fn i red l) = fmKept s := by
  induction l with
  | nil => exact fun _ _ => rfl
  | cons x r ih =>
    obtain ⟨off, g, data⟩ := x
    intro s red
    have hform := formPart_fm s t fn i off g data red
    unfold pumpParts
    split
    · next heq => rw [heq] at hform; exact hform
    · next heq => rw [heq] at hform; exact hform
    · next heq => rw [heq] at hform; exact (ih _ _).trans hform

@[simp] theorem pumpDesc_fm (s : State) (t fn i : Nat) : fmKept (pumpDesc s t fn i) = fmKept s := by
  unfold pumpDesc
  split
  · rfl
  · simp [pumpParts_fm]

@[simp] theorem msixSend_fm (s : State) (t fn v : Nat) : fmKept (msixSend s t fn v) = fmKept s := by
  have hhost : ∀ op fn addr len data, fmKept (toHost s t op fn addr len data) = fmKept s := fun op fn addr len data => by
    unfold toHost
    dsimp only
    split
    · rfl
    · exact originateStamped_fm _ _ _ _
  simp [msixSend, hhost]

@[simp] theorem qLevel_fm (s : State) (t fn q : Nat) : fmKept (qLevel s t fn q) = fmKept s := by simp [qLevel]

@[simp] theorem qAppend_fm (s : State) (t fn q : Nat) (l : List Nat) : fmKept (qAppend s t fn q l) = fmKept s :=
  foldl_fm (fun s x => by simp) _ s

@[simp] theorem flushCq_fm (s : State) (t fn : Nat) : fmKept (flushCq s t fn) = fmKept s := by
  refine foldl_fm (fun s x => ?_) _ s
  dsimp only
  split
  · rfl
  · simp

@[simp] theorem copyRead_fm (s : State) (t fn i off : Nat) (ok poison : Bool) (data : Nat) :
    fmKept (copyRead s t fn i off ok poison data) = fmKept s := by
  simp [copyRead]

theorem imageLine_fm (s : State) (t i : Nat) (data : Option Nat) : fmKept (imageLine s t i data).2 = fmKept s := by
  unfold imageLine
  dsimp only
  split
  · simp
  · split
    · rfl
    · split
      · rfl
      · next hk => simp [takeItag_fm hk]

@[simp] theorem imageRead_fm (s : State) (t i : Nat) (ok : Bool) (data : Nat) : fmKept (imageRead s t i ok data) = fmKept s := by
  have hpump : ∀ s, fmKept (pumpMig s t) = fmKept s := fun s => by
    unfold pumpMig
    split
    · rfl
    · exact foldl_fm (fun s x => by simp [imageLine_fm]) _ _
  unfold imageRead
  split
  · rfl
  · simp [hpump]

/-! ### Messages that end, and queues without them (R162) -/

@[simp] theorem internalLost_fm (s : State) (e : Nat) : fmKept (internalLost s e) = fmKept s := by
  have hflight : ∀ (s : State) (x : ITag), fmKept (itagFlight s x) = fmKept s := fun s x => by
    unfold itagFlight
    split <;> simp
  have howner : ∀ (s : State) (x : ITag), fmKept (ownerLost s x) = fmKept s := fun s x => by
    unfold ownerLost
    split <;> simp [copyError, copyLeft, idonePut]
  unfold internalLost
  split
  · rfl
  · simp [hflight, howner, freeItagEnt]

@[simp] theorem passLost_fm (s : State) (m : Msg) (e : Nat) : fmKept (passLost s m e) = fmKept s := by
  unfold passLost
  split
  · rfl
  · simp [passFree]

@[simp] theorem stkCopyOut_fm (s : State) (d : Nat) (sent : Bool) (m : Msg) : fmKept (stkCopyOut s d sent m) = fmKept s := by
  unfold stkCopyOut
  dsimp only
  split
  · rfl
  · exact foldl_fm (fun s x => by simp) _ _

@[simp] theorem endFlushed_fm (s : State) (m : Msg) (dl : Nat) : fmKept (endFlushed s m dl) = fmKept s := by
  simp [endFlushed]

@[simp] theorem dfUse_fm (s : State) (h : Half) (n : Nat) : fmKept (dfUse s h n) = fmKept s := by
  simp [dfUse, dfFullMark]

@[simp] theorem queuesDrop_fm (s : State) (h : Half) (ids : List Nat) : fmKept (queuesDrop s h ids) = fmKept s := by
  simp [queuesDrop, unspill, modVoq, spilledStat, holdStat]

@[simp] theorem flushWhere_fm (s : State) (h : Half) (f : Msg → Bool) : fmKept (flushWhere s h f) = fmKept s :=
  (foldl_fm (fun s m => endFlushed_fm _ _ _) _ _).trans (by simp)

@[simp] theorem mcClear_fm (s : State) (h : Half) (d : Nat) : fmKept (mcClear s h d) = fmKept s := by
  refine foldl_fm (fun s n => ?_) _ s
  dsimp only
  split
  · rfl
  · simp [dropMsg]

/-- Flushing what is queued for a sub-port (R162) takes nothing back that the FM and the vPPBs have been told. -/
@[simp] theorem flushNode_fm (s : State) (d : Nat) : fmKept (flushNode s d) = fmKept s := by simp [flushNode]

end Sys2Proof.Machine
end

section
/-! PROOFS. CANCEL, managed removal, slot power, presence and PERST (O34). -/

namespace Sys2Proof.Machine

open Sys2Proof

/-! ### CANCEL of a staged row (R204) -/

theorem exec_rowCancel {s : State} {m : Master} {a w : Nat} {h : Half} (hm : mayAct s m a) (ha : a ≠ UMP_GSTAGE .east 0)
    (hw : rowWord2 a = some (h, w)) : exec (.rowCancel m a) s = .next (rowCancel s h w) := by
  show execRowCancel m a s = _
  unfold execRowCancel
  rw [if_neg ha, hw]
  exact congrArg Host.Outcome.next (csGate_mayAct s m a _ hm)

theorem rowCancel_notes {s : State} {w : Nat} (hw : (s.rd w).getLsbD 31 = false) (h : Half) :
    onlyRegs [w] { s with mgt := (rowCancel s h w).mgt } (rowCancel s h w)
      ∧ (rowCancel s h w).mgt.lateCancel = if (s.trp.get h).sealed then w :: s.mgt.lateCancel else s.mgt.lateCancel := by
  rw [rowCancel_eq hw]
  cases (s.trp.get h).sealed with
  | false => exact ⟨onlyRegs_wr _ _ _, rfl⟩
  | true => exact ⟨onlyRegs_wr _ _ _, rfl⟩

/-! ### A managed removal goes on (R209, R210) -/

/-- The removals of a vPPB wait no longer. -/
def removalGone (s : State) (t v : Nat) : State :=
  s.modMgt fun m => { m with managed := m.managed.filter fun e => !(e.1 == t && e.2.1 == v) }

theorem managedGo_cases (s : State) (t v : Nat) :
    (managedGo s t v = s ∧ (s.mgt.managed.find? fun e => e.1 == t && e.2.1 == v) = none)
      ∨ ∃ a, managedGo s t v = hpStat (ringPost (removalGone s t v) (tenantHalf t) [a]) t := by
  unfold managedGo
  split
  · exact Or.inr ⟨_, rfl⟩
  · next hnone => exact Or.inl ⟨rfl, hnone⟩

theorem removalOn_mgt (s : State) (t v a : Nat) :
    (hpStat (ringPost (removalGone s t v) (tenantHalf t) [a]) t).mgt = (removalGone s t v).mgt := ringPost_mgt (removalGone s t v) _ _

theorem managedGo_rd (s : State) (t v : Nat) {b : Nat} (hb : b < 0x0B000000 ∨ 0x0C000000 ≤ b) (hne : b ≠ SF_TEN_STAT t) :
    (managedGo s t v).rd b = s.rd b := by
  obtain ⟨h, -⟩ | ⟨a, h⟩ := managedGo_cases s t v
  · rw [h]
  · rw [h, hpStat_rd _ t hne, ringPost_rd _ _ _ hb]
    rfl

/-- The removal that goes on waits no longer. -/
theorem managedGo_managed (s : State) (t v : Nat) : ∀ x ∈ (managedGo s t v).mgt.managed, ¬ (x.1 = t ∧ x.2.1 = v) := by
  obtain ⟨h, hnone⟩ | ⟨a, h⟩ := managedGo_cases s t v
  · rw [h]
    simpa using hnone
  · rw [h, removalOn_mgt]
    intro x hx
    simpa [imp_iff_not_or] using (List.mem_filter.mp hx).2

theorem managedGo_vp (s : State) (t v : Nat) : (managedGo s t v).mgt.vpp = s.mgt.vpp := by
  obtain ⟨h, -⟩ | ⟨a, h⟩ := managedGo_cases s t v
  · rw [h]
  · rw [h, removalOn_mgt]
    rfl

theorem exec_hpWaitExpiry {s : State} {t : BitVec 6} {v : BitVec 5} {e : Nat × Nat × Nat × Nat}
    (he : (s.mgt.managed.find? fun e => e.1 == t.toNat && e.2.1 == v.toNat) = some e)
    (hlate : e.2.2.2 + max 1 (s.fget (SF_TEN_CTL t.toNat) SF_TEN_CTL_HP_WAIT) * 1000000 ≤ s.now (tenantHalf t.toNat)) :
    exec (.hpWaitExpiry t v) s = .next (managedGo ((s.wr e.2.2.1 (s.rd e.2.2.1 ||| 0x04000000)).fbump (SF_TEN_ERRCNT t.toNat)
      SF_TEN_ERRCNT_HPWAIT_CNT 1) t.toNat v.toNat) := by
  show execHpWaitExpiry t v s = _
  unfold execHpWaitExpiry
  dsimp only
  rw [he]
  exact if_neg (by omega)

/-- The wait has run out: the row tells of a surprise removal, and the removal goes on. -/
theorem hpWaitExpiry_goes {s : State} {t : BitVec 6} {v : BitVec 5} {e : Nat × Nat × Nat × Nat} {i : Nat}
    (he : (s.mgt.managed.find? fun e => e.1 == t.toNat && e.2.1 == v.toNat) = some e) (hrow : e.2.2.1 = SF_BSTAGE t.toNat i 0) (hi : i < 128)
    (hlate : e.2.2.2 + max 1 (s.fget (SF_TEN_CTL t.toNat) SF_TEN_CTL_HP_WAIT) * 1000000 ≤ s.now (tenantHalf t.toNat)) :
    ∃ u, exec (.hpWaitExpiry t v) s = .next u ∧ u.rd e.2.2.1 = s.rd e.2.2.1 ||| 0x04000000
      ∧ (∀ x ∈ u.mgt.managed, ¬ (x.1 = t.toNat ∧ x.2.1 = v.toNat))
      ∧ u.fget (SF_TEN_ERRCNT t.toNat) SF_TEN_ERRCNT_HPWAIT_CNT
        = min (s.fget (SF_TEN_ERRCNT t.toNat) SF_TEN_ERRCNT_HPWAIT_CNT + 1) (2 ^ SF_TEN_ERRCNT_HPWAIT_CNT.width - 1) := by
  obtain ⟨hlo, hhi⟩ := bstage_block t.isLt hi
  have hstat := bstage_apart_stat t.toNat i t.toNat hi
  have hcount : SF_TEN_ERRCNT t.toNat < 0x0B000000 ∧ SF_TEN_ERRCNT t.toNat ≠ SF_TEN_STAT t.toNat
      ∧ SF_TEN_ERRCNT t.toNat ≠ SF_BSTAGE t.toNat i 0 := by
    have ht := t.isLt
    unfold SF_TEN_ERRCNT SF_TEN_STAT SF_BSTAGE
    omega
  obtain ⟨hblock, hcs, hcr⟩ := hcount
  refine ⟨_, exec_hpWaitExpiry he hlate, ?_, managedGo_managed _ _ _, ?_⟩
  · rw [hrow, managedGo_rd _ _ _ (by omega) (by omega)]
    exact (rd_fset_ne _ _ _ hcr.symm).trans (rd_wr_same _ _ _)
  · rw [fget_of_rd_eq (managedGo_rd _ _ _ (Or.inl hblock) hcs), fget_fbump_same _ _ _ _ (by decide), hrow, fget_wr_ne _ _ _ hcr]

/-! ### The power of a slot (R208, R213) -/

/-- The row of a channel's power is staged for an OP, with its TICKET. -/
def powerStaged (u : State) (c op : Nat) (tk : BitVec 16) : Prop :=
  u.rd (SHT_PSTAGE c 0) = BitVec.ofNat 32 (op * 2 ^ 28) ∧ u.rd (SHT_PSTAGE c 0 + 8) = BitVec.ofNat 32 tk.toNat

theorem powerRow_block (c : Nat) : 0x0C000000 ≤ SHT_PSTAGE c 0 := by
  unfold SHT_PSTAGE
  omega

theorem stagePower_staged (s : State) (c op : Nat) (tk : BitVec 16) : powerStaged (stagePower s c op tk.toNat) c op tk := by
  have hs := ringPost_staged (stageRow_staged s (SHT_PSTAGE c 0) [BitVec.ofNat 32 (op * 2 ^ 28)] tk) (Or.inr (powerRow_block c))
    (chanHalf c) [SHT_PSTAGE c 0]
  exact ⟨hs 0 (by decide), hs 2 (by decide)⟩

theorem stagePower_mgt (s : State) (c op ticket : Nat) : (stagePower s c op ticket).mgt = s.mgt := by
  rw [stagePower, ringPost_mgt, stageRow_mgt]

theorem stagePower_sent (s : State) (c op ticket : Nat) : (stagePower s c op ticket).sent = s.sent := by
  rw [stagePower, ringPost_sent, stageRow_sent]

section
variable {s : State} {cci : Nat} {p : BitVec 5}

theorem exec_slotPower_taken (ht : rowTaken s (SHT_PSTAGE p.toNat 0) = true) (on : Bool) (tk : BitVec 16) :
    exec (.slotPower cci p on tk) s = .next (cciAnswer s cci opSLOTPWR rcBUSY exBUSY []) := if_pos ht

theorem slotPower_stages (ht : rowTaken s (SHT_PSTAGE p.toNat 0) = false) (hb : mfind s.mgt.bg cci = none)
    (hr : cciReach s cci [chanHalf p.toNat] = true) (on : Bool) (tk : BitVec 16) :
    ∃ u, exec (.slotPower cci p on tk) s = .next u ∧ powerStaged u p.toNat (if on then 1 else 2) tk
      ∧ bgRuns u cci ⟨opSLOTPWR, [SHT_PSTAGE p.toNat 0], 0, false, []⟩ := by
  have hexec : exec (.slotPower cci p on tk) s = .next (stagePower (bgStarted s cci ⟨opSLOTPWR, [SHT_PSTAGE p.toNat 0], 0, false, []⟩)
      p.toNat (if on then 1 else 2) tk.toNat) := by
    show execSlotPower cci p on tk s = _
    unfold execSlotPower
    dsimp only
    rw [ht, if_neg Bool.false_ne_true, bgStart_free hb hr]
  exact ⟨_, hexec, stagePower_staged _ _ _ _, bgRuns_congr (bgStarted_runs s cci _) (by rw [stagePower_sent]; exact List.Subset.refl _)
    (by rw [stagePower_mgt])⟩

end

/-- A host that owns a slot powers it by its Power Controller Control (R209, R213). -/
theorem hostPowerControlWrite_stages {s : State} {t : BitVec 6} {v p : BitVec 5} (hown : ownsSlot s t.toNat v.toNat = [p.toNat])
    (ht : rowTaken s (SHT_PSTAGE p.toNat 0) = false) (off : Bool) (tk : BitVec 16) :
    ∃ u, exec (.hostPowerControlWrite t v off tk) s = .next u ∧ powerStaged u p.toNat (if off then 2 else 1) tk
      ∧ (u.vp t.toNat v.toNat).off = off := by
  let s' := s.setVp t.toNat v.toNat { s.vp t.toNat v.toNat with off := off }
  let w := stagePower s' p.toNat (if off then 2 else 1) tk.toNat
  have hown' : ownsSlot s' t.toNat v.toNat = [p.toNat] := hown
  have ht' : rowTaken s' (SHT_PSTAGE p.toNat 0) = false := ht
  have hexec : exec (.hostPowerControlWrite t v off tk) s = .next (if off then managedGo w t.toNat v.toNat else w) := by
    show execHostPowerControlWrite t v off tk s = _
    unfold execHostPowerControlWrite
    dsimp only
    rw [hown', List.foldl_cons, List.foldl_nil, ht', if_neg Bool.false_ne_true]
  have hvp : (w.vp t.toNat v.toNat).off = off := by
    rw [State.vp, stagePower_mgt]
    exact congrArg Vp.off (setVp_vp_same s t.toNat v.toNat _)
  have hstaged : powerStaged w p.toNat (if off then 2 else 1) tk := stagePower_staged _ _ _ _
  clear_value w
  refine ⟨_, hexec, ?_⟩
  cases off with
  | false => exact ⟨hstaged, hvp⟩
  | true =>
    have hblock := powerRow_block p.toNat
    have hstat : SF_TEN_STAT t.toNat < 0x0C000000 := by
      have hlt := t.isLt
      unfold SF_TEN_STAT
      omega
    have hrd : ∀ b, SHT_PSTAGE p.toNat 0 ≤ b → (managedGo w t.toNat v.toNat).rd b = w.rd b := fun b hb =>
      managedGo_rd w _ _ (by omega) (by omega)
    refine ⟨⟨(hrd _ (by omega)).trans hstaged.1, (hrd _ (by omega)).trans hstaged.2⟩, ?_⟩
    show ((managedGo w t.toNat v.toNat).vp t.toNat v.toNat).off = true
    rw [State.vp, managedGo_vp]
    exact hvp

/-! ### What the FM and the vPPBs are told -/

/-- What a state comes to have on its way through a list, and keeps, it has in the end. -/
theorem foldl_reaches {α : Type} {f : State → α → State} {I P : State → Prop} {y : α} (hI : ∀ s x, I s → I (f s x))
    (hgain : ∀ s, I s → P (f s y)) (hkeep : ∀ s x, P s → P (f s x)) {l : List α} (hy : y ∈ l) {s : State} (hs : I s) :
    P (l.foldl f s) := by
  induction l generalizing s with
  | nil => exact absurd hy List.not_mem_nil
  | cons x r ih =>
    obtain rfl | hr := List.mem_cons.mp hy
    · exact List.foldlRecOn r f (hgain s hs) fun u hu z _ => hkeep u z hu
    · exact ih hr (hI s x hs)

theorem fm_binds {s t : State} (h : fmKept t = fmKept s) : t.binds = s.binds := congrArg Prod.fst h

theorem fm_vp {s t : State} (h : fmKept t = fmKept s) (a b : Nat) : t.vp a b = s.vp a b := by
  have hv : t.mgt.vpp = s.mgt.vpp := congrArg (fun x => x.2.1) h
  rw [State.vp, hv, State.vp]

theorem fm_mem_sent {s t : State} (h : fmKept t = fmKept s) {x : Sent} (hx : isFmRecord x = true) (hs : x ∈ s.sent) : x ∈ t.sent := by
  have hf : t.sent.filter isFmRecord = s.sent.filter isFmRecord := congrArg (fun x => x.2.2) h
  exact (List.mem_filter.mp (hf ▸ List.mem_filter.mpr ⟨hs, hx⟩)).1

/-- A slot event becomes a record of the FM's and leaves the bindings, the vPPBs and the ports' registers (R205, R211). -/
theorem slotEvent_fm (s : State) (p cause : Nat) : .out outFMREC [18, cause, p] ∈ (slotEvent s p cause).sent
    ∧ (slotEvent s p cause).binds = s.binds ∧ ∀ a, portReg a → (slotEvent s p cause).rd a = s.rd a := by
  refine ⟨List.mem_cons_self, ?_, fun a ha => ?_⟩
  · show (raise _ _ _).binds = _
    rw [fm_binds (raise_fm _ _ 18 cause p 0)]
    rfl
  · show (raise _ _ _).rd a = _
    rw [raise_portRd ha _ _ 18 cause p 0]
    rfl

theorem portNodes_congr {s u : State} {p : Nat} (h : u.rd (PRT_CFG p) = s.rd (PRT_CFG p)) : portNodes u p = portNodes s p := by
  simp only [portNodes, subsOf, State.fget, h]

theorem vppbsOf_congr {s u : State} (h : u.binds = s.binds) (g : Half) (d : Nat) : vppbsOf u g d = vppbsOf s g d := by
  rw [vppbsOf, h, vppbsOf]

section
variable {Q : Vp → Prop} {pds p d : Bool} (hQ : ∀ x dlla, Q (reported x pds dlla p d))
include hQ

theorem vpReport_gains (s : State) (x : Nat × Nat) (dlla : Bool) : Q ((vpReport s x.1 x.2 pds dlla p d).vp x.1 x.2) := by
  rw [vpReport_vp_same]
  exact hQ _ _

theorem vpReport_keeps (s : State) (x e : Nat × Nat) (dlla : Bool) (hs : Q (s.vp x.1 x.2)) :
    Q ((vpReport s e.1 e.2 pds dlla p d).vp x.1 x.2) := by
  by_cases hk : vpKey x.1 x.2 = vpKey e.1 e.2
  · have hsame : ∀ u : State, u.vp x.1 x.2 = u.vp e.1 e.2 := fun u => by rw [State.vp, hk, State.vp]
    rw [hsame]
    exact vpReport_gains hQ s e dlla
  · rw [vpReport_vp_ne _ _ _ _ _ hk]
    exact hs

end

/-- Each vPPB bound to a sub-port reports presence and the changes named. -/
def nodeTold (pds p d : Bool) (dlla : State → Nat × Nat → Bool) (l : List (Nat × Nat)) (s : State) : State :=
  l.foldl (fun s e => vpReport s e.1 e.2 pds (dlla s e) p d) s

section
variable (pds p d : Bool) (dlla : State → Nat × Nat → Bool) (l : List (Nat × Nat)) (s : State)

theorem nodeTold_binds : (nodeTold pds p d dlla l s).binds = s.binds :=
  foldl_keeps State.binds (fun _ _ _ => hostOnly_binds (vpReport_hostOnly _ _ _ _ _ _ _)) s

theorem nodeTold_rd (a : Nat) : (nodeTold pds p d dlla l s).rd a = s.rd a :=
  foldl_keeps (State.rd · a) (fun _ _ _ => vpReport_rd _ _ _ _ _ _ _ a) s

theorem nodeTold_sent {x : Sent} (hx : x ∈ s.sent) : x ∈ (nodeTold pds p d dlla l s).sent :=
  List.foldlRecOn (motive := fun s : State => x ∈ s.sent) l _ hx fun _ hu _ _ => vpReport_sent _ _ _ _ _ _ _ hu

variable {pds p d} {Q : Vp → Prop} (hQ : ∀ x dlla, Q (reported x pds dlla p d))
include hQ

theorem nodeTold_gains {x : Nat × Nat} (hx : x ∈ l) : Q ((nodeTold pds p d dlla l s).vp x.1 x.2) := by
  unfold nodeTold
  refine foldl_reaches (y := x) (I := fun _ => True) (P := fun u => Q (u.vp x.1 x.2)) (fun _ _ _ => trivial) (fun u _ => ?_) (fun u e hu => ?_)
    hx trivial
  · exact vpReport_gains hQ u x (dlla u x)
  · exact vpReport_keeps hQ u x e (dlla u e) hu

theorem nodeTold_keeps {x : Nat × Nat} (hs : Q (s.vp x.1 x.2)) : Q ((nodeTold pds p d dlla l s).vp x.1 x.2) :=
  List.foldlRecOn (motive := fun u : State => Q (u.vp x.1 x.2)) l _ hs fun u hu e _ => vpReport_keeps hQ u x e _ hu

end

/-- The vPPBs bound to some sub-ports report, each sub-port after what is done to it before. -/
def nodesTold (pds p d : Bool) (dlla : Nat → State → Nat × Nat → Bool) (before : State → Nat → State) (ds : List Nat) (s : State) : State :=
  ds.foldl (fun s n => nodeTold pds p d (dlla n) (vppbsOf s (nodeHalf n) n) (before s n)) s

section
variable {before : State → Nat → State} (hbefore : ∀ s n, fmKept (before s n) = fmKept s) (pds p d : Bool)
  (dlla : Nat → State → Nat × Nat → Bool) (ds : List Nat) (s : State)
include hbefore

theorem nodesTold_sent {x : Sent} (hx : isFmRecord x = true) (hs : x ∈ s.sent) : x ∈ (nodesTold pds p d dlla before ds s).sent :=
  List.foldlRecOn (motive := fun u : State => x ∈ u.sent) ds _ hs fun u hu n _ =>
    nodeTold_sent _ _ _ _ _ _ (fm_mem_sent (hbefore u n) hx hu)

variable {pds p d} {Q : Vp → Prop} (hQ : ∀ x dlla, Q (reported x pds dlla p d))
include hQ

/-- Every vPPB bound to one of the sub-ports has reported in the end. -/
theorem nodesTold_told : ∀ n ∈ ds, ∀ x ∈ vppbsOf s (nodeHalf n) n, Q ((nodesTold pds p d dlla before ds s).vp x.1 x.2) := by
  intro n hn x hx
  refine foldl_reaches (f := fun s n => nodeTold pds p d (dlla n) (vppbsOf s (nodeHalf n) n) (before s n))
    (I := fun u => u.binds = s.binds) (P := fun u => Q (u.vp x.1 x.2)) (fun u m hu => ?_) (fun u hu => ?_) (fun u m hu => ?_) hn rfl
  · exact (nodeTold_binds _ _ _ _ _ _).trans ((fm_binds (hbefore u m)).trans hu)
  · exact nodeTold_gains _ _ _ hQ (by rwa [vppbsOf_congr hu])
  · exact nodeTold_keeps _ _ _ hQ (by rwa [fm_vp (hbefore u m)])

end

/-! ### Presence and PERST (R211, R214) -/

theorem slotStat_portReg (p : BitVec 5) : portReg (PRT_SLOT_STAT p.toNat) ∧ portReg (PRT_CFG p.toNat)
    ∧ PRT_CFG p.toNat ≠ PRT_SLOT_STAT p.toNat := by
  have hp := p.isLt
  unfold portReg PRT_SLOT_STAT PRT_CFG
  omega

section
variable {s : State} {p : BitVec 5} {on : Bool}

theorem exec_presenceAccepted_ignored
    (h : s.flag (PRT_SLOT_STAT p.toNat) PRT_SLOT_STAT_PRSNT = on ∨ prsntStable s p.toNat on = false) :
    exec (.presenceAccepted p on) s = .next s := if_pos h

/-- The level that has been accepted is reported to the FM and by each vPPB bound to the port. -/
theorem presenceAccepted_told (hne : s.flag (PRT_SLOT_STAT p.toNat) PRT_SLOT_STAT_PRSNT ≠ on) (hst : prsntStable s p.toNat on = true) :
    ∃ u, exec (.presenceAccepted p on) s = .next u ∧ u.flag (PRT_SLOT_STAT p.toNat) PRT_SLOT_STAT_PRSNT = on
      ∧ .out outFMREC [18, 0, p.toNat] ∈ u.sent
      ∧ ∀ d ∈ portNodes s p.toNat, ∀ x ∈ vppbsOf s (nodeHalf d) d, (u.vp x.1 x.2).pds = on ∧ (u.vp x.1 x.2).pdc = true := by
  obtain ⟨hstat, hcfg, hapart⟩ := slotStat_portReg p
  let s' := slotEvent (s.fsetB (PRT_SLOT_STAT p.toNat) PRT_SLOT_STAT_PRSNT on) p.toNat 0
  obtain ⟨hrec, hbinds, hrd⟩ := slotEvent_fm (s.fsetB (PRT_SLOT_STAT p.toNat) PRT_SLOT_STAT_PRSNT on) p.toNat 0
  have hnodes : portNodes s' p.toNat = portNodes s p.toNat := portNodes_congr ((hrd _ hcfg).trans (rd_fset_ne s _ _ hapart))
  have hexec : exec (.presenceAccepted p on) s
      = .next (nodesTold on true false (fun _ s e => (s.vp e.1 e.2).dlla) (fun s _ => s) (portNodes s p.toNat) s') := by
    rw [← hnodes]
    exact if_neg (by simp [hne, hst])
  refine ⟨_, hexec, ?_, nodesTold_sent (fun _ _ => rfl) _ _ _ _ _ _ rfl hrec, fun d hd x hx => ?_⟩
  · have hkept : (nodesTold on true false (fun _ s e => (s.vp e.1 e.2).dlla) (fun s _ => s) (portNodes s p.toNat) s').rd
        (PRT_SLOT_STAT p.toNat) = (s.fsetB (PRT_SLOT_STAT p.toNat) PRT_SLOT_STAT_PRSNT on).rd (PRT_SLOT_STAT p.toNat) :=
      (foldl_keeps (State.rd · _) (fun _ _ _ => nodeTold_rd _ _ _ _ _ _ _) s').trans (hrd _ hstat)
    rw [flag_of_rd_eq hkept]
    exact flag_fset_toNat s _ _ on rfl (by decide)
  · exact nodesTold_told (Q := fun x => x.pds = on ∧ x.pdc = true) (fun _ _ => rfl) _ _ s' (fun _ _ => ⟨rfl, by simp [reported]⟩) d hd x
      (by rwa [vppbsOf_congr (show s'.binds = s.binds from hbinds)])

theorem exec_perstRelease_held (h : perstMay s p.toNat = false) : exec (.perstRelease p) s = .next s :=
  congrArg Host.Outcome.next (if_neg (by simp [h]))

theorem perstRelease_frees (h : perstMay s p.toNat = true) :
    ∃ u, exec (.perstRelease p) s = .next u ∧ onlyField s u (PRT_SLOT_STAT p.toNat) PRT_SLOT_STAT_PERST 0 :=
  ⟨_, congrArg Host.Outcome.next (if_pos h), onlyField_fset _ _ _ _ (by decide)⟩

end

/-! ### Surprise removal (R215, R216) -/

@[simp] theorem setSht_fm (s : State) (l st : Nat) : fmKept (setSht s l st) = fmKept s := by
  have hpwr : ∀ (u : State) c, fmKept (pwrStat u c) = fmKept u := fun u c => fsetB_fm u _ _ _
  unfold setSht
  dsimp only
  split <;> simp [hpwr]

theorem seqEnd_fm (s : State) (l rs why : Nat) : fmKept (seqEnd s l rs why) = fmKept s := by simp [seqEnd]

/-- A commanded off takes nothing back that the FM and the vPPBs have been told. -/
theorem mainOff_fm (s : State) (l : Nat) : fmKept (mainOff s l) = fmKept s := by
  have hperst : ∀ (u : State) (cs : List Nat), fmKept (cs.foldl (fun s c => setPerst s c true) u) = fmKept u := fun u cs =>
    foldl_fm (fun u c => fsetB_fm u _ _ _) cs u
  unfold mainOff
  dsimp only
  split
  · simp [hperst, seqEnd_fm]
  · split <;> simp [seqEnd_fm]

/-- Has power dropped from a slot by surprise: presence lost, or a link down? -/
def slotDropped (s : State) (p : Nat) (lost : Bool) : Bool :=
  s.flag (PRT_SLOT_STAT p) PRT_SLOT_STAT_PWR
    && (if lost then !s.flag (PRT_SLOT_STAT p) PRT_SLOT_STAT_PRSNT else (portNodes s p).any fun d => !inService s d)

section
variable {s : State} {p : BitVec 5} {lost : Bool}

theorem exec_surpriseRemoval_ignored (h : slotDropped s p.toNat lost = false) : exec (.surpriseRemoval p lost) s = .next s := if_pos h

/-- A removal by surprise is reported to the FM and by each vPPB bound to the port. -/
theorem surpriseRemoval_told (h : slotDropped s p.toNat lost = true) :
    ∃ u, exec (.surpriseRemoval p lost) s = .next u ∧ .out outFMREC [18, 1, p.toNat] ∈ u.sent
      ∧ ∀ d ∈ portNodes s p.toNat, ∀ x ∈ vppbsOf s (nodeHalf d) d,
          (u.vp x.1 x.2).pds = s.flag (PRT_SLOT_STAT p.toNat) PRT_SLOT_STAT_PRSNT ∧ (u.vp x.1 x.2).pdc = true
            ∧ (u.vp x.1 x.2).dllsc = true := by
  let here := s.flag (PRT_SLOT_STAT p.toNat) PRT_SLOT_STAT_PRSNT
  let s' := slotEvent s p.toNat 1
  obtain ⟨hrec, hbinds, hrd⟩ := slotEvent_fm s p.toNat 1
  have hnodes : portNodes s' p.toNat = portNodes s p.toNat := portNodes_congr (hrd _ (slotStat_portReg p).2.1)
  let w := nodesTold here true true (fun n s _ => linkUp s n) flushNode (portNodes s p.toNat) s'
  have hexec : exec (.surpriseRemoval p lost) s
      = .next (if lost && w.flag (PRT_SLOT_CTL p.toNat) PRT_SLOT_CTL_SURPRISE_OFF then mainOff w (leaderOf w p.toNat) else w) := by
    show execSurpriseRemoval p lost s = _
    unfold w
    rw [← hnodes]
    exact if_neg (by rw [← slotDropped, h]; decide)
  have hsent : .out outFMREC [18, 1, p.toNat] ∈ w.sent := nodesTold_sent flushNode_fm _ _ _ _ _ _ rfl hrec
  have htold : ∀ d ∈ portNodes s p.toNat, ∀ x ∈ vppbsOf s (nodeHalf d) d,
      (w.vp x.1 x.2).pds = here ∧ (w.vp x.1 x.2).pdc = true ∧ (w.vp x.1 x.2).dllsc = true := fun d hd x hx =>
    nodesTold_told (Q := fun x => x.pds = here ∧ x.pdc = true ∧ x.dllsc = true) flushNode_fm _ _ s'
      (fun _ _ => ⟨rfl, by simp [reported], by simp [reported]⟩) d hd x (by rwa [vppbsOf_congr (show s'.binds = s.binds from hbinds)])
  have hoff := mainOff_fm w (leaderOf w p.toNat)
  clear_value w
  refine ⟨_, hexec, ?_⟩
  split
  · exact ⟨fm_mem_sent hoff rfl hsent, fun d hd x hx => by rw [fm_vp hoff]; exact htold d hd x hx⟩
  · exact ⟨hsent, htold⟩

end

/-! ### O34 -/

/-- Settles O34, command by command. -/
theorem rowsSlotsAndPresence : Obligations.RowsSlotsAndPresence := by
  intro s m h a w cci i t v p on tk e lost T V P row st staged told here drop
  refine ⟨fun hm ha hw hbit => ⟨_, exec_rowCancel hm ha hw, (rowCancel_notes hbit h).1, (rowCancel_sets hbit h).1, (rowCancel_notes hbit h).2⟩,
    fun he hrow hi hlate => hpWaitExpiry_goes he hrow hi hlate, fun ht hb hr => ?_, fun ht => ?_, fun hown ht => ?_,
    fun hne hst => presenceAccepted_told hne hst, fun h => exec_presenceAccepted_ignored h, fun h => perstRelease_frees h,
    fun h => exec_perstRelease_held h, fun h => surpriseRemoval_told h, fun h => exec_surpriseRemoval_ignored h⟩
  case refine_1 =>
    obtain ⟨u, hu, hs, hrun⟩ := slotPower_stages ht hb hr on tk
    exact ⟨u, hu, hs, hrun⟩
  case refine_2 => exact ⟨_, exec_slotPower_taken ht on tk, List.mem_cons_self, rfl⟩
  case refine_3 =>
    obtain ⟨u, hu, hs, hoff⟩ := hostPowerControlWrite_stages hown ht (!on) tk
    refine ⟨u, hu, ?_, hoff⟩
    have hop : (if (!on) = true then 2 else 1) = if on = true then 1 else 2 := by cases on <;> rfl
    rwa [hop] at hs

end Sys2Proof.Machine
end

section
/-! PROOFS. Below the Photometer's block, recording an event writes MRD_ALERT_CTL and TRP_DEFER alone (R409, R410, R418-R422); so an
event of no unit that is not FATAL_DEVICE, and counting, leave what the Rotation reports (R416, R438). -/

namespace Sys2Proof.Machine

open Sys2Proof

/-- A register below the Photometer's block that recording an event does not write. -/
def unrecorded (a : Nat) : Prop := a < 0x0D000000 ∧ a ≠ MRD_ALERT_CTL ∧ ∀ h, a ≠ TRP_DEFER h

section
variable {a : Nat} (ha : unrecorded a)
include ha

theorem wr_block_rd {b : Nat} (s : State) (v : Word) (hb : 0x0D000000 ≤ b) : (s.wr b v).rd a = s.rd a :=
  rd_wr_ne _ _ (by have := ha.1; omega)

theorem wrWords_block_rd {b : Nat} (s : State) (ws : List Word) (hb : 0x0D000000 ≤ b) : (s.wrWords b ws).rd a = s.rd a :=
  rd_wrWords_lt _ _ (by have := ha.1; omega)

theorem alertCtl_rd (s : State) (f : Fld) (n : Nat) : (s.fset MRD_ALERT_CTL f n).rd a = s.rd a := rd_fset_ne _ _ _ ha.2.1

theorem evqLevel_rd (s : State) (h : Half) : (evqLevel s h).rd a = s.rd a := by
  have hstat : (s.fsetB (REF_STAT h) REF_STAT_EVQ_HI (evqAtHigh s h)).rd a = s.rd a :=
    wr_block_rd ha _ _ (by cases h <;> decide)
  unfold evqLevel
  dsimp only
  split
  · exact hstat
  · split <;> exact hstat

theorem evqPush_rd (s : State) (h : Half) (ws : List Word) : (evqPush s h ws).rd a = s.rd a :=
  (evqLevel_rd ha _ h).trans ((wr_block_rd ha _ _ (by cases h <;> decide)).trans (wrWords_block_rd ha _ _ (evq_block _ _ _)))

theorem evqRecord_rd (s : State) (h : Half) (e : Evt) : (evqRecord s h e).1.rd a = s.rd a := by
  have hdrop : (s.fbump (REF_ERRCNT1 h) REF_ERRCNT1_EVQ_DROP_CNT 1).rd a = s.rd a := wr_block_rd ha _ _ (by cases h <;> decide)
  unfold evqRecord
  dsimp only
  split
  · exact evqPush_rd ha _ _ _
  · split
    · exact (wr_block_rd ha _ _ (evq_block _ _ _)).trans hdrop
    · exact (evqPush_rd ha _ _ _).trans hdrop

theorem sbRecord_rd (s : State) (h : Half) (e : Evt) : (sbRecord s h e).1.rd a = s.rd a := by
  have hptr : ∀ (u : State) f n, (u.fset (REF_SB_PTR h) f n).rd a = u.rd a := fun _ _ _ =>
    wr_block_rd ha _ _ (by cases h <;> decide)
  unfold sbRecord
  dsimp only
  split
  · rfl
  · rw [hptr]
    split
    · exact (hptr _ _ _).trans (wrWords_block_rd ha _ _ (sb_block _ _ _))
    · exact wrWords_block_rd ha _ _ (sb_block _ _ _)

theorem alertRequest_rd (s : State) : (alertRequest s).rd a = s.rd a := by
  unfold alertRequest
  dsimp only
  split
  · split
    · exact alertCtl_rd ha _ _ _
    · rfl
  · exact alertCtl_rd ha _ _ _

theorem putRecord_rd (s : State) (h : Half) (e : Evt) : (putRecord s h e).rd a = s.rd a := by
  have hsb := fun (u : State) n => wrWords_block_rd ha u (recWords e) (sb_block h n 0)
  have hevq := fun (u : State) n => wrWords_block_rd ha u (recWords e) (evq_block h n 0)
  unfold putRecord
  cases e.sbSlot <;> cases e.evqIdx
  · rfl
  · exact hevq _ _
  · exact hsb _ _
  · exact (hevq _ _).trans (hsb _ _)

theorem updateCopies_rd (s : State) (h : Half) (e : Evt) : (updateCopies s h e).rd a = s.rd a := by
  have hsb : (sbCopy s h e).rd a = s.rd a := by
    unfold sbCopy
    split
    · split
      · exact wrWords_block_rd ha _ _ (sb_block _ _ _)
      · rfl
    · rfl
  have hevq : ∀ u : State, (evqCopy u h e).rd a = u.rd a := fun u => by
    unfold evqCopy
    split
    · split
      · exact wrWords_block_rd ha _ _ (evq_block _ _ _)
      · rfl
    · rfl
  exact (hevq _).trans hsb

theorem inOrder_rd (s : State) (h : Half) (e : Evt) (l : List Evt) : (inOrder s h e l).1.rd a = s.rd a := by
  induction l generalizing s e with
  | nil => rfl
  | cons x l ih =>
    simp only [inOrder]
    split
    · exact (ih _ _).trans ((putRecord_rd ha _ _ _).trans (putRecord_rd ha _ _ _))
    · rfl

theorem newRecord_rd (s : State) (h : Half) (sp : EvSpec) (sev : Nat) : (newRecord s h sp sev).rd a = s.rd a := by
  have hseq : ∀ n, (s.fset (REF_SEQ h) REF_SEQ_SEQ n).rd a = s.rd a := fun _ => wr_block_rd ha _ _ (by cases h <;> decide)
  have hlost : ∀ (u : State), (u.fbump (TRP_DEFER h) TRP_DEFER_LOST_CNT 1).rd a = u.rd a := fun _ => rd_wr_ne _ _ (ha.2.2 h)
  have hfst : ∀ (c : Prop) [Decidable c] (p q : State × Option Nat),
      (if c then p else q).1.rd a = if c then p.1.rd a else q.1.rd a := fun c _ p q => by split <;> rfl
  unfold newRecord
  dsimp only
  rw [State.modRef_rd, inOrder_rd ha]
  simp only [rd_ite, State.modTrp_rd, alertRequest_rd ha, hfst, evqRecord_rd ha, sbRecord_rd ha, hlost, hseq, ite_self]

theorem record_rd (s : State) (h : Half) (sp : EvSpec) (sev : Nat) : (record s h sp sev).rd a = s.rd a := by
  unfold record
  split
  · exact updateCopies_rd ha _ _ _
  · exact newRecord_rd ha _ _ _ _

/-- An event of no unit that is not FATAL_DEVICE is recorded, or nothing happens. -/
theorem raise_evt_rd (s : State) (h : Half) {cls cause : Nat} (inst detail : Nat) (hsev : sevOf cls cause ≠ 5) :
    (raise s h (evt cls cause inst detail)).rd a = s.rd a := by
  have hlive : raiseLive s h (evt cls cause inst detail) (sevOf cls cause)
      = record s h (evt cls cause inst detail) (sevOf cls cause) := by
    unfold raiseLive
    rw [if_neg hsev]
    rfl
  unfold raise raiseSev
  split
  · exact (congrArg (State.rd · a) hlive).trans (record_rd ha _ _ _ _)
  · rfl

theorem phmAdd_rd (s : State) (h : Half) (c k : Nat) : (phmAdd s h c k).rd a = s.rd a := by
  have hcnt : ∀ v, (s.wr64 (PHM_CNT_LO h (c % 256)) v).rd a = s.rd a := fun v => by
    have hb : 0x0D000000 ≤ PHM_CNT_LO h (c % 256) := by unfold PHM_CNT_LO; omega
    exact (wr_block_rd ha _ _ (by omega)).trans (wr_block_rd ha _ _ hb)
  have hwrap : ∀ (u : State) v, (u.wr (PHM_WRAP h (c % 256 / 32)) v).rd a = u.rd a := fun _ _ =>
    wr_block_rd ha _ _ (by unfold PHM_WRAP; omega)
  unfold phmAdd
  dsimp only
  split
  · exact hcnt _
  · split
    · exact (raise_evt_rd ha _ _ _ _ (by decide)).trans ((hwrap _ _).trans (hcnt _))
    · exact (hwrap _ _).trans (hcnt _)

theorem tally_rd (s : State) (h : Half) (u e i k : Nat) : (tally s h u e i k).rd a = s.rd a := by
  refine foldl_rd (fun s x => ?_) _ s
  split
  · split
    · rfl
    · exact phmAdd_rd ha _ _ _ _
  · rfl

end

theorem unrecorded_rotStat (h : Half) : unrecorded (QOS_ROT_STAT h) := by
  refine ⟨by cases h <;> decide, by cases h <;> decide, fun g => ?_⟩
  cases h <;> cases g <;> decide

end Sys2Proof.Machine
end

section
/-! PROOFS. What the Catalogue of a half sees of the state, and what each of its operations changes in that view (R223-R250). -/

namespace Sys2Proof.Machine

open Sys2Proof

/-- A register that the Catalogue asks, and that neither its own status and counts nor the recording of events changes: windows, the
state of the image and of the bridge, the taint list, the Meridian, and what the Rotation reports. -/
def askedReg (a : Nat) : Prop :=
  (refReg a = false ∧ viralBits a = 0 ∧ (a < 0x0D000000 ∨ 0x0E000000 ≤ a)
      ∧ ∀ g, a ∉ [CAT_OCC g, CAT_LSOCC g, CAT_REMOTE g, CAT_TRK g, CDB_QLINES g, CAT_ERRCNT2 g])
    ∨ ∃ g, a = QOS_ROT_STAT g

/-- A Catalogue but for its cache, its use stamps and its mirror. -/
def Cat.tables (c : Cat) : Cat := { c with cache := [], clk := 0, mirror := [], mirQ := [] }

/-- What the Catalogue of a half sees: the registers it asks, the bindings, its tables, and the messages. -/
structure CatSees where
  reg : ∀ a, askedReg a → Word
  binds : Pair BindTab
  cat : Cat
  net : Net

def sees (s : State) (h : Half) : CatSees := ⟨fun a _ => s.rd a, s.binds, (s.cat.get h).tables, s.net⟩

/-! ### What is asked -/

theorem asked_stat (h : Half) : askedReg (CAT_STAT h) ∧ askedReg (CDB_STAT h) ∧ askedReg (MRD_TN_LO h)
    ∧ askedReg (MRD_TN_LO h + 4) := by
  refine ⟨.inl ?_, .inl ?_, .inl ?_, .inl ?_⟩ <;>
    exact ⟨by cases h <;> decide, by cases h <;> decide, by cases h <;> decide, fun g => by cases h <;> cases g <;> decide⟩

theorem asked_rotStat (h : Half) : askedReg (QOS_ROT_STAT h) := .inr ⟨h, rfl⟩

/-- The Catalogue's windows and taint list lie above its status registers, in a block that reporting an event leaves alone. -/
theorem asked_block {h : Half} {a : Nat} (h1 : 0x4000080 + 0x1000000 * h.idx ≤ a) (h2 : a < 0x4800000 + 0x1000000 * h.idx) :
    askedReg a := by
  have hi := half_idx_lt h
  have hlow : ¬ 0x0E000000 ≤ a := by omega
  refine .inl ⟨?_, if_neg (by omega), by omega, fun g => ?_⟩
  · simp only [refReg, hlow, decide_false, Bool.false_and, Bool.false_or, List.contains_eq_mem, decide_eq_false_iff_not,
      List.mem_cons, List.not_mem_nil, or_false, MRD_ALERT_CTL, TRP_STAT, TRP_DEFER, TRP_SWAP_STAT, QOS_ROT_STAT, CORE_STAT,
      Half.idx]
    omega
  · have hg := half_idx_lt g
    simp only [List.mem_cons, List.not_mem_nil, or_false, CAT_OCC, CAT_LSOCC, CAT_REMOTE, CAT_TRK, CDB_QLINES, CAT_ERRCNT2]
    omega

theorem asked_window (h : Half) {w : Nat} (hw : w < 64) : askedReg (CAT_WIN_CTL h w) ∧ askedReg (CAT_WIN_BASE_LO h w)
    ∧ askedReg (CAT_WIN_BASE_LO h w + 4) := by
  unfold CAT_WIN_CTL CAT_WIN_BASE_LO
  exact ⟨asked_block (h := h) (by omega) (by omega), asked_block (h := h) (by omega) (by omega),
    asked_block (h := h) (by omega) (by omega)⟩

theorem asked_taint (h : Half) {i : Nat} (hi : i < 16) : askedReg (CAT_TAINT h i) := by
  unfold CAT_TAINT
  exact asked_block (h := h) (by omega) (by omega)

/-! ### Answers that the view determines -/

section
variable {s t : State} {h : Half} (hreg : (sees t h).reg = (sees s h).reg)
include hreg

theorem sees_rd {a : Nat} (ha : askedReg a) : t.rd a = s.rd a := congrFun (congrFun hreg a) ha

theorem sees_phase : t.phase h = s.phase h := fget_of_rd_eq (sees_rd hreg (asked_stat h).2.1) _

theorem sees_tn : t.tn h = s.tn h := rd64_congr (sees_rd hreg (asked_stat h).2.2.1) (sees_rd hreg (asked_stat h).2.2.2)

theorem sees_setOf : setOf t h = setOf s h := by
  funext w l
  rw [setOf, setOf, flag_of_rd_eq (sees_rd hreg (asked_stat h).1)]

theorem sees_winSub {w : Nat} (hw : w < 64) : winSub t h w = winSub s h w := by
  simp only [winSub, State.fget, sees_rd hreg (asked_window h hw).1]

theorem sees_winBase {w : Nat} (hw : w < 64) : winBase t h w = winBase s h w :=
  rd64_congr (sees_rd hreg (asked_window h hw).2.1) (sees_rd hreg (asked_window h hw).2.2)

theorem sees_findWin (sub ld addr : Nat) : findWin t h sub ld addr = findWin s h sub ld addr := by
  unfold findWin
  refine List.find?_congr fun w hw => ?_
  have hw' : w < 64 := List.mem_range.mp hw
  have hctl := sees_rd hreg (asked_window h hw').1
  simp only [winUsed, winLd, winSize, State.flag, State.fget, hctl, sees_winSub hreg hw', sees_winBase hreg hw']
  rfl

theorem sees_tainted (set : Nat) : tainted t h set = tainted s h set := by
  rw [tainted, tainted, Bool.eq_iff_iff, List.any_eq_true, List.any_eq_true]
  refine exists_congr fun i => and_congr_right fun hi => ?_
  rw [State.flag, State.flag, State.fget, State.fget, State.fget, State.fget, sees_rd hreg (asked_taint h (List.mem_range.mp hi))]

theorem sees_rotFenced (r : Nat) : rotFenced t h r = rotFenced s h r := by
  rw [rotFenced, rotFenced, fget_of_rd_eq (sees_rd hreg (asked_rotStat h))]

theorem sees_findEnt (hents : (sees t h).cat.ents = (sees s h).cat.ents) : findEnt t h = findEnt s h := by
  have hents' : (t.cat.get h).ents = (s.cat.get h).ents := hents
  funext k
  rw [findEnt, findEnt, sees_setOf hreg, hents']

theorem sees_quarantined (hbinds : t.binds = s.binds) : quarantined t h = quarantined s h := by
  funext e
  simp only [quarantined, entRemote, remoteTenant, uspOf, sees_phase hreg, hbinds]

end

theorem msgLine_findWin {s t : State} {h : Half} (hreg : (sees t h).reg = (sees s h).reg) (m : Msg) :
    msgLine t h m = msgLine s h m := by
  unfold msgLine
  rw [sees_findWin hreg]
  refine Option.map_congr fun w hw => ?_
  rw [sees_winBase hreg (List.mem_range.mp (List.mem_of_find?_eq_some hw))]

/-! ### What the operations change in the view -/

theorem sees_congr {s t : State} {h : Half} (hreg : ∀ a, askedReg a → t.rd a = s.rd a) (hbinds : t.binds = s.binds)
    (hcat : t.cat = s.cat) (hnet : t.net = s.net) : sees t h = sees s h := by
  unfold sees
  rw [hbinds, hcat, hnet, show (fun a (_ : askedReg a) => t.rd a) = fun a _ => s.rd a from
    funext fun a => funext fun ha => hreg a ha]

theorem sees_wr (s : State) (h : Half) {a : Nat} (v : Word) (ha : ¬ askedReg a) : sees (s.wr a v) h = sees s h :=
  sees_congr (fun _ hb => rd_wr_ne _ _ fun he => ha (he ▸ hb)) rfl rfl rfl

theorem status_not_asked {h : Half} {a : Nat}
    (ha : a ∈ [CAT_OCC h, CAT_LSOCC h, CAT_REMOTE h, CAT_TRK h, CDB_QLINES h, CAT_ERRCNT2 h]) : ¬ askedReg a := by
  rintro (⟨-, -, -, hg⟩ | ⟨g, rfl⟩)
  · exact hg h ha
  · revert ha
    cases h <;> cases g <;> decide

theorem catStat_rd {h : Half} {a : Nat} (ha : a ∉ [CAT_OCC h, CAT_LSOCC h, CAT_REMOTE h, CAT_TRK h, CDB_QLINES h]) (s : State) :
    (catStat s h).rd a = s.rd a := by
  simp only [List.mem_cons, List.not_mem_nil, or_false, not_or] at ha
  obtain ⟨hocc, hls, hrem, htrk, hq⟩ := ha
  unfold catStat
  rw [rd_wr_ne _ _ hq, rd_fsets_ne _ _ htrk, rd_fset_ne _ _ _ hrem, rd_fset_ne _ _ _ hls, rd_fset_ne _ _ _ hocc]

@[simp] theorem catStat_sees (s : State) (h : Half) : sees (catStat s h) h = sees s h := by
  simp only [catStat, State.fsets, List.foldl_cons, List.foldl_nil, State.fset]
  iterate 6 rw [sees_wr _ _ _ (status_not_asked (h := h) (by simp))]

@[simp] theorem tally_sees (s : State) (h g : Half) (u e i k : Nat) : sees (tally s h u e i k) g = sees s g := by
  have hcount := tally_countOnly s h u e i k
  refine sees_congr (fun a ha => ?_) ?_ (countOnly_cat hcount) (countOnly_net hcount)
  · obtain ⟨hr, hv, hblock, -⟩ | ⟨g, rfl⟩ := ha
    · simpa [hv] using hcount.1 a hr hblock
    · exact tally_rd (unrecorded_rotStat g) _ _ _ _ _ _
  · obtain ⟨-, -, hframe, -⟩ := hcount
    rw [hframe]

/-- An event of no unit that is not FATAL_DEVICE. -/
theorem raise_evt_sees (s : State) (h g : Half) {cls cause : Nat} (inst detail : Nat) (hsev : sevOf cls cause ≠ 5) :
    sees (raise s h (evt cls cause inst detail)) g = sees s g := by
  have hraise := raise_evt_refOnly s h cls cause inst detail
  have hframe := hraise.2.1
  refine sees_congr (fun a ha => ?_) (by rw [hframe]) (by rw [hframe]) (by rw [hframe])
  obtain ⟨hr, hv, -, -⟩ | ⟨g, rfl⟩ := ha
  · exact refOnly_rd hraise hr hv
  · exact raise_evt_rd (unrecorded_rotStat g) _ _ _ _ hsev

@[simp] theorem modCat_sees (s : State) (h : Half) (f : Cat → Cat) :
    sees (s.modCat h f) h = { sees s h with cat := (f (s.cat.get h)).tables } := by
  simp only [sees, State.modCat, pair_get_set_same]
  rfl

@[simp] theorem mirrorWrite_sees (s : State) (h : Half) (i : Nat) (e : Option CatEnt) : sees (mirrorWrite s h i e) h = sees s h := by
  unfold mirrorWrite
  split
  · rfl
  · split
    · rfl
    · simp only [modCat_sees]
      rfl

theorem putEnt_rd {h : Half} {a : Nat} (ha : a ∉ [CAT_OCC h, CAT_LSOCC h, CAT_REMOTE h, CAT_TRK h, CDB_QLINES h]) (s : State)
    (i : Nat) (e : Option CatEnt) : (putEnt s h i e).rd a = s.rd a := by
  rw [putEnt, catStat_rd ha, mirrorWrite_rd, State.modCat_rd]

/-- A way of the Catalogue with an entry written or freed. -/
def entSet (m : SMap CatEnt) (i : Nat) (e : Option CatEnt) : SMap CatEnt :=
  match e with
  | some x => minsert m i x
  | none => merase m i

@[simp] theorem mfind_entSet (m : SMap CatEnt) (i : Nat) (e : Option CatEnt) : mfind (entSet m i e) i = e := by
  cases e <;> simp [entSet]

theorem mfind_entSet_ne (m : SMap CatEnt) {i j : Nat} (e : Option CatEnt) (hj : j ≠ i) : mfind (entSet m i e) j = mfind m j := by
  cases e
  · exact mfind_merase_ne _ hj
  · exact mfind_minsert_ne _ _ hj

@[simp] theorem putEnt_sees (s : State) (h : Half) (i : Nat) (e : Option CatEnt) : sees (putEnt s h i e) h
    = { sees s h with cat := { (sees s h).cat with ents := entSet (sees s h).cat.ents i e } } := by
  rw [putEnt, catStat_sees, mirrorWrite_sees, modCat_sees]
  cases e <;> rfl

@[simp] theorem putTxn_sees (s : State) (h : Half) (k : Nat) (t : Txn) : sees (putTxn s h k t) h
    = { sees s h with cat := { (sees s h).cat with txns := minsert (sees s h).cat.txns k t } } := by
  rw [putTxn, catStat_sees, modCat_sees]
  rfl

@[simp] theorem dropTxn_sees (s : State) (h : Half) (k : Nat) : sees (dropTxn s h k) h
    = { sees s h with cat := { (sees s h).cat with txns := merase (sees s h).cat.txns k } } := by
  rw [dropTxn, catStat_sees, modCat_sees]
  rfl

@[simp] theorem slotPut_sees (s : State) (h : Half) (w l way data : Nat) : sees (slotPut s h w l way data) h
    = { sees s h with cat := { (sees s h).cat with
        slots := minsert (sees s h).cat.slots (slotKey w l way) ⟨w, l, data, (s.cat.get h).clk, 0⟩ } } := by
  rw [slotPut, catStat_sees, modCat_sees]
  simp only [catTick, State.modCat, pair_get_set_same]
  rfl

theorem slotPut_data (s : State) (h : Half) (w l way data : Nat) :
    ∃ z, mfind ((slotPut s h w l way data).cat.get h).slots (slotKey w l way) = some z ∧ z.data = data := by
  refine ⟨⟨w, l, data, (s.cat.get h).clk, 0⟩, ?_, rfl⟩
  show mfind (sees _ h).cat.slots _ = _
  rw [slotPut_sees]
  exact mfind_minsert_same _ _ _

@[simp] theorem slotUse_sees (s : State) (h : Half) (sl : LsSlot) (way : Nat) : sees (slotUse s h sl way) h
    = { sees s h with cat := { (sees s h).cat with
        slots := minsert (sees s h).cat.slots (slotKey sl.win sl.l way) { sl with lru := (s.cat.get h).clk } } } := by
  rw [slotUse, modCat_sees]
  simp only [catTick, State.modCat, pair_get_set_same]
  rfl

@[simp] theorem slotFree_sees (s : State) (h : Half) (w l way : Nat) : sees (slotFree s h w l way) h
    = { sees s h with cat := { (sees s h).cat with slots := merase (sees s h).cat.slots (slotKey w l way) } } := by
  rw [slotFree, catStat_sees, modCat_sees]
  rfl

@[simp] theorem formCells_sees (s : State) (h g : Half) (st n flit : Nat) (pack : Bool) :
    sees (formCells s g st n flit pack) h = sees s h := by
  unfold formCells
  split <;> rfl

theorem formCells_cat (s : State) (h : Half) (st n flit : Nat) (pack : Bool) : (formCells s h st n flit pack).cat = s.cat := by
  unfold formCells
  split <;> rfl

theorem formCells_regs (s : State) (h : Half) (st n flit : Nat) (pack : Bool) : (formCells s h st n flit pack).regs = s.regs := by
  unfold formCells
  split <;> rfl

@[simp] theorem originate_cat (s : State) (h : Half) (st : Nat) (m : Msg) : (originate s h st m).cat = s.cat :=
  formCells_cat _ _ _ _ _ _

@[simp] theorem originate_sees (s : State) (h g : Half) (st : Nat) (m : Msg) : sees (originate s g st m) h
    = { sees s h with net := { (sees s h).net with msgs := minsert (sees s h).net.msgs (sees s h).net.next m,
                                                   next := (sees s h).net.next + 1 } } := by
  rw [originate, formCells_sees]
  rfl

end Sys2Proof.Machine
end

section
/-! PROOFS. Entries, transactions and answers of the Catalogue (R233-R250): what its shared operations come to. -/

namespace Sys2Proof.Machine

open Sys2Proof

theorem txnOf_sees (s : State) (h : Half) (k : Nat) : txnOf s h k = mfind (sees s h).cat.txns k := rfl

theorem msg_sees (s : State) (h : Half) (n : Nat) : s.msg n = mfind (sees s h).net.msgs n := rfl

@[simp] theorem txnOf_putTxn_same (s : State) (h : Half) (k : Nat) (t : Txn) : txnOf (putTxn s h k t) h k = some t := by
  simp [txnOf_sees]

@[simp] theorem txnOf_dropTxn_same (s : State) (h : Half) (k : Nat) : txnOf (dropTxn s h k) h k = none := by
  simp [txnOf_sees]

/-- A message that starts at a station is entered under the next number. -/
@[simp] theorem msg_originate (s : State) (h : Half) (st : Nat) (m : Msg) : (originate s h st m).msg s.net.next = some m := by
  rw [msg_sees _ h, originate_sees]
  exact mfind_minsert_same _ _ _

/-! ### The entry of a line (R241) -/

theorem findEnt_eq_some {s : State} {h : Half} {k i : Nat} {e : CatEnt} (hf : findEnt s h k = some (i, e)) :
    i ∈ setKeys (setOf s h (lineWin k) (lineL k)) ∧ mfind (s.cat.get h).ents i = some e
      ∧ e.win = lineWin k ∧ e.l = lineL k := by
  obtain ⟨j, hj, hje⟩ := List.exists_of_findSome?_eq_some hf
  split at hje
  · next x hx =>
    split at hje
    · next hline =>
      cases hje
      exact ⟨hj, hx, hline⟩
    · cases hje
  · cases hje

/-- A search that stops at place i, or finds nothing, stops at i once i holds what is sought. -/
theorem findSome?_stops_at {β : Type} {f g : Nat → Option (Nat × β)} {l : List Nat} {i : Nat} {y : Nat × β} (hi : i ∈ l)
    (hplace : ∀ j ∈ l, ∀ z, f j = some z → z.1 = j) (hg : g i = some y) (hne : ∀ j, j ≠ i → g j = f j)
    (hf : ∀ z, l.findSome? f = some z → z.1 = i) : l.findSome? g = some y := by
  induction l with
  | nil => simp at hi
  | cons j r ih =>
    by_cases hj : j = i
    · rw [hj, List.findSome?_cons, hg]
    · have hfj : f j = none := by
        cases hz : f j with
        | none => rfl
        | some z => exact absurd ((hplace j (by simp) z hz).symm.trans (hf z (by rw [List.findSome?_cons, hz]))) hj
      rw [List.findSome?_cons, hfj] at hf
      rw [List.findSome?_cons, hne j hj, hfj]
      exact ih (List.mem_of_ne_of_mem (Ne.symm hj) hi) (fun x hx => hplace x (by simp [hx])) hf

/-- An entry written for a line at its way, or at a way of its set when it has none, is the line's entry. -/
theorem findEnt_putEnt {s : State} {h : Half} {k i : Nat} {e : CatEnt} (hi : i ∈ setKeys (setOf s h (lineWin k) (lineL k)))
    (he : e.win = lineWin k ∧ e.l = lineL k) (hbefore : ∀ z, findEnt s h k = some z → z.1 = i) :
    findEnt (putEnt s h i (some e)) h k = some (i, e) := by
  have hents : ((putEnt s h i (some e)).cat.get h).ents = entSet (s.cat.get h).ents i (some e) :=
    congrArg (·.cat.ents) (putEnt_sees s h i (some e))
  rw [findEnt, sees_setOf (h := h) (s := s) (by simp), hents]
  refine findSome?_stops_at hi (fun j _ z hz => ?_) ?_ (fun j hj => ?_) hbefore
  · split at hz
    · split at hz
      · cases hz
        rfl
      · cases hz
    · cases hz
  · simp [he]
  · rw [mfind_entSet_ne _ _ hj]

theorem lineSlot_of_findEnt {s : State} {h : Half} {k i : Nat} {e : CatEnt} (hf : findEnt s h k = some (i, e)) :
    lineSlot s h k = (slotOf s h e).map fun x => (e, x) := by
  rw [lineSlot, hf]

theorem slotOf_of_slot {s : State} {h : Half} {e : CatEnt} {way : Nat} (hs : e.slot = some way) :
    slotOf s h e = mfind (s.cat.get h).slots (slotKey e.win e.l way) := by
  rw [slotOf, hs]

theorem slotOf_none {s : State} {h : Half} {e : CatEnt} (hs : e.slot = none) : slotOf s h e = none := by
  rw [slotOf, hs]

/-! ### A transaction's stages (R233-R235) -/

/-- A stage of the transaction of line k, if there is one. -/
def advanceOnce (s : State) (h : Half) (k : Nat) : State :=
  match txnOf s h k with
  | some t => stageStep s h k t
  | none => s

theorem catAdvance_eq (s : State) (h : Half) (k : Nat) :
    catAdvance s h k = advanceOnce (advanceOnce (advanceOnce s h k) h k) h k := rfl

theorem advanceOnce_some {s : State} {h : Half} {k : Nat} {t : Txn} (ht : txnOf s h k = some t) :
    advanceOnce s h k = stageStep s h k t := by
  rw [advanceOnce, ht]

theorem advanceOnce_none {s : State} {h : Half} {k : Nat} (ht : txnOf s h k = none) : advanceOnce s h k = s := by
  rw [advanceOnce, ht]

theorem advanceOnce_waits {s : State} {h : Half} {k : Nat} {t : Txn} (ht : txnOf s h k = some t)
    (hstage : stageOf s h k t = .snoops ∨ stageOf s h k t = .device) : advanceOnce s h k = s := by
  rw [advanceOnce_some ht, stageStep]
  obtain hs | hs := hstage <;> rw [hs]

theorem catAdvance_waits {s : State} {h : Half} {k : Nat} {t : Txn} (ht : txnOf s h k = some t)
    (hstage : stageOf s h k t = .snoops ∨ stageOf s h k t = .device) : catAdvance s h k = s := by
  rw [catAdvance_eq, advanceOnce_waits ht hstage, advanceOnce_waits ht hstage, advanceOnce_waits ht hstage]

theorem catAdvance_finishes {s : State} {h : Half} {k : Nat} {t : Txn} (ht : txnOf s h k = some t)
    (hstage : stageOf s h k t = .finish) (hend : txnOf (finishTxn s h k t) h k = none) :
    catAdvance s h k = finishTxn s h k t := by
  have hstep : advanceOnce s h k = finishTxn s h k t := by rw [advanceOnce_some ht, stageStep, hstage]
  rw [catAdvance_eq, hstep, advanceOnce_none hend, advanceOnce_none hend]

theorem stageOf_snoops {s : State} {h : Half} {k : Nat} {t : Txn} (hp : t.pend ≠ []) : stageOf s h k t = .snoops := if_pos hp

/-! ### The end of a transaction of Kezen's own (R249, R254, R260) -/

@[simp] theorem txnOf_finishOwn (s : State) (h : Half) (k : Nat) : txnOf (finishOwn s h k) h k = none := txnOf_dropTxn_same _ _ _

/-- What is kept of an entry: one with neither holder nor slot is freed (R232). -/
def entLeft (e : CatEnt) : Option CatEnt := if e.hold = 0 ∧ e.slot.isNone then none else some e

theorem finishOwn_sees {s : State} {h : Half} {k i : Nat} {e : CatEnt} (hf : findEnt s h k = some (i, e)) :
    sees (finishOwn s h k) h = { sees s h with cat := { (sees s h).cat with
      ents := entSet (sees s h).cat.ents i (entLeft e), txns := merase (sees s h).cat.txns k } } := by
  simp only [finishOwn, hf, settleEnt, dropTxn_sees, putEnt_sees]
  rfl

theorem finishOwn_of_none {s : State} {h : Half} {k : Nat} (hf : findEnt s h k = none) : finishOwn s h k = dropTxn s h k := by
  rw [finishOwn, hf]

/-- A transaction of Kezen's own for which nothing is awaited any more ends. -/
theorem catAdvance_own {s : State} {h : Half} {k : Nat} {t : Txn} (ht : txnOf s h k = some t)
    (hkind : t.kind = .recall ∨ t.kind = .lsEvict) (hp : t.pend = []) (hw : t.writes = []) (hrd : t.devRd = 0)
    (hwr : t.devWr = false) : catAdvance s h k = finishOwn s h k := by
  have hstage : stageOf s h k t = .finish := by
    obtain hk | hk := hkind <;> simp [stageOf, hk, hp, hw, hrd, hwr, needsData]
  have hfinish : finishTxn s h k t = finishOwn s h k := by
    obtain hk | hk := hkind <;> simp [finishTxn, hk]
  rw [catAdvance_finishes ht hstage (by rw [hfinish, txnOf_finishOwn]), hfinish]

/-- Of the registers, a transaction of Kezen's own changes the status registers alone as it ends. -/
theorem finishOwn_rd {h : Half} {a : Nat} (ha : a ∉ [CAT_OCC h, CAT_LSOCC h, CAT_REMOTE h, CAT_TRK h, CDB_QLINES h]) (s : State)
    (k : Nat) : (finishOwn s h k).rd a = s.rd a := by
  rw [finishOwn, dropTxn, catStat_rd ha, State.modCat_rd]
  split
  · rw [settleEnt, putEnt_rd ha]
  · rfl

/-! ### The start of a transaction without snoops (R234) -/

theorem isWriteBack_of_idle {s : State} {h : Half} {k : Nat} {t : Txn} (ht : txnOf s h k = some t) (hp : t.pend = []) (m : Msg) :
    isWriteBack s h k m = false := by
  simp [isWriteBack, ht, hp]

theorem isWriteBack_of_op {m : Msg} (hm : m.op ≠ .memWr) (s : State) (h : Half) (k : Nat) : isWriteBack s h k m = false := by
  unfold isWriteBack
  split <;> simp [hm]

/-- No write-back that waits is one that a transaction without snoops awaits (R237). -/
theorem poolWriteBacks_idle {s : State} {h : Half} {k : Nat} {t : Txn} (ht : txnOf s h k = some t) (hp : t.pend = []) :
    poolWriteBacks s h k = s := by
  refine foldl_fixed fun n _ => ?_
  split
  · rfl
  · exact if_neg fun hc => by simp [isWriteBack_of_idle ht hp] at hc

theorem beginTxn_unsnooped (s : State) (h : Half) (k : Nat) (t : Txn) (snp : Snp) :
    beginTxn s h k t snp [] = catAdvance (putTxn s h k { t with snp := snp, pend := [] }) h k := by
  rw [beginTxn, poolWriteBacks_idle (txnOf_putTxn_same _ _ _ _) rfl]
  rfl

/-! ### Answers (R128, R185, R235) -/

/-- Nothing keeps an answer to a request from its sub-port: it lies in this half, or the bridge carries it, now or once it is up
again (R180, R185). -/
def answerable (s : State) (h : Half) (m : Msg) : Prop := nodeHalf m.src = h ∨ s.phase h = phUP ∨ s.phase h = phRETRAIN

theorem answerable.of_sees {s t : State} {h : Half} {m : Msg} (hreg : (sees t h).reg = (sees s h).reg) (hs : answerable s h m) :
    answerable t h m := by
  unfold answerable
  rwa [sees_phase hreg]

/-- A host's read or write is answered by the response that R235 names, entered as the next message. -/
theorem catRespond_originates {s : State} {h : Half} {m : Msg} (hop : m.op = .memRd ∨ m.op = .memWr) (hi : m.itag = none)
    (hsrc : m.src < 128) (hway : answerable s h m) (grant : Hold) (data : Nat) (poison : Bool) (load : Nat) (ok : Bool) :
    ∃ r, catRespond s h m grant data poison load ok = originate s h 30 r ∧ r.op = rspOp m.op ∧ r.dst = m.src ∧ r.tag = m.tag
      ∧ r.data = data ∧ r.hold = grant ∧ r.poison = poison := by
  have hcarried : ∀ r, ¬ (nodeHalf m.src ≠ h ∧ s.phase h ≠ phRETRAIN ∧ bridgeCarries s h r = false) := by
    rintro r ⟨h1, h2, h3⟩
    obtain hh | hh | hh := hway
    · exact h1 hh
    · simp [bridgeCarries, hh] at h3
    · exact h2 hh
  have hnear : ¬ 128 ≤ m.src := by omega
  obtain hm | hm := hop
  all_goals
    simp only [catRespond, hi, hm, hnear, hcarried, if_false]
    exact ⟨_, rfl, rfl, rfl, rfl, rfl, rfl, rfl⟩

end Sys2Proof.Machine
end

section
/-! PROOFS. Shared reads at the Catalogue (R229-R235, R246): of a line that it does not hold, and of one with a slot. -/

namespace Sys2Proof.Machine

open Sys2Proof

/-- A shared read of a host that no transaction of Kezen's own stands behind, and that its Umpire has let pass (R229, R304). -/
structure SharedRead (m : Msg) : Prop where
  op : m.op = .memRd
  hold : m.hold = .s
  itag : m.itag = none
  src : m.src < 128
  deny : m.deny = false

/-- The entry of a way that has just been taken for a line (R246). -/
def newEnt (k : Nat) : CatEnt := ⟨lineWin k, lineL k, 0, false, none, false, 2⟩

/-- The transaction of a shared read; `asI`: the line was in state I (R234). -/
def readTxn (m : Msg) (asI : Bool) : Txn := { newTxn .rdS (some m) with asI := asI }

theorem catKind_sharedRead {m : Msg} (hm : SharedRead m) (own : Bool) : catKind m own = .rdS := by
  simp [catKind, hm.op, hm.hold]

/-! ### The read's data (R234) -/

theorem stageOf_read {s : State} {h : Half} {k : Nat} (m : Msg) (asI : Bool) : stageOf s h k (readTxn m asI) = .read := by
  simp [stageOf, readTxn, newTxn, needsData]

/-- A line with no slot is read from its device. -/
theorem catAdvance_devRead {s : State} {h : Half} {k : Nat} {m : Msg} {asI : Bool} (ht : txnOf s h k = some (readTxn m asI))
    (hslot : lineSlot s h k = none) :
    catAdvance s h k = putTxn (devRead s h k m .memRd) h k { readTxn m asI with devRd := 1 } := by
  have hread : advanceOnce s h k = putTxn (devRead s h k m .memRd) h k { readTxn m asI with devRd := 1 } := by
    rw [advanceOnce_some ht, stageStep, stageOf_read]
    simp only [readTxn, newTxn, getData, hslot]
  have hwait := advanceOnce_waits (txnOf_putTxn_same (devRead s h k m .memRd) h k { readTxn m asI with devRd := 1 })
    (.inr (by simp [stageOf, readTxn, newTxn]))
  rw [catAdvance_eq, hread, hwait, hwait]

theorem devRead_originates (s : State) (h : Half) (k : Nat) (m : Msg) :
    ∃ q, devRead s h k m .memRd = originate s h 30 q ∧ q.op = .memRd ∧ q.dst = winSub s h (lineWin k) ∧ q.tag = k
      ∧ q.len = 64 ∧ q.tgt.addr = winBase s h (lineWin k) + 64 * lineL k := ⟨_, rfl, rfl, rfl, rfl, rfl, rfl⟩

/-! ### A line that the Catalogue does not hold -/

/-- The Catalogue has asked a line's device for the data of a request: the transaction waits for it, the line has a way with
AGE 2 and no holder yet, and the read of 64 bytes is on its way. -/
def asksDevice (s : State) (h : Half) (k : Nat) (m : Msg) (u : State) : Prop :=
  (∃ y, txnOf u h k = some y ∧ y.kind = .rdS ∧ y.msg = some m ∧ y.devRd = 1 ∧ y.pend = [])
    ∧ (findEnt u h k).any (fun z => z.2.hold = 0 ∧ z.2.slot = none ∧ z.2.age = 2) = true
    ∧ ∃ q, u.msg s.net.next = some q ∧ q.op = .memRd ∧ q.dst = winSub s h (lineWin k) ∧ q.tag = k ∧ q.len = 64
        ∧ q.tgt.addr = winBase s h (lineWin k) + 64 * lineL k

/-- The Catalogue has no entry of line k, its set is not tainted and has a free way. -/
structure FreshLine (s : State) (h : Half) (k : Nat) : Prop where
  window : lineWin k < 64
  none : findEnt s h k = none
  untainted : tainted s h (setOf s h (lineWin k) (lineL k)) = false
  way : (freeWay s h (setOf s h (lineWin k) (lineL k))).isSome = true

theorem FreshLine.congr {s t : State} {h : Half} {k : Nat} (hreg : (sees t h).reg = (sees s h).reg)
    (hents : (sees t h).cat.ents = (sees s h).cat.ents) (hl : FreshLine s h k) : FreshLine t h k := by
  refine ⟨hl.window, ?_, ?_, ?_⟩
  · rw [sees_findEnt hreg hents]
    exact hl.none
  · rw [sees_tainted hreg, sees_setOf hreg]
    exact hl.untainted
  · rw [freeWay, show (t.cat.get h).ents = (s.cat.get h).ents from hents, sees_setOf hreg]
    exact hl.way

theorem asksDevice.congr {s t u : State} {h : Half} {k : Nat} {m : Msg} (hreg : (sees t h).reg = (sees s h).reg)
    (hnext : t.net.next = s.net.next) (hw : lineWin k < 64) (ha : asksDevice t h k m u) : asksDevice s h k m u := by
  unfold asksDevice at ha
  rwa [hnext, sees_winSub hreg hw, sees_winBase hreg hw] at ha

/-- A shared read of a fresh line takes a way, and its data is read from the device. -/
theorem serveReq_fresh {s : State} {h : Half} {k : Nat} {m : Msg} (hm : SharedRead m) (hl : FreshLine s h k) (front : Bool) :
    ∃ i ∈ setKeys (setOf s h (lineWin k) (lineL k)), serveReq s h k m front
      = putTxn (devRead (putTxn (putEnt s h i (some (newEnt k))) h k (readTxn m true)) h k m .memRd) h k
          { readTxn m true with devRd := 1 } := by
  obtain ⟨i, hi⟩ := Option.isSome_iff_exists.mp hl.way
  have hmem := List.mem_of_find?_eq_some hi
  have hneeds : needsWay m .rdS = true := rfl
  let s' := putTxn (putEnt s h i (some (newEnt k))) h k (readTxn m true)
  have hents : findEnt (putEnt s h i (some (newEnt k))) h k = some (i, newEnt k) :=
    findEnt_putEnt hmem ⟨rfl, rfl⟩ fun z hz => by simp [hl.none] at hz
  have hent : findEnt s' h k = some (i, newEnt k) := by
    rw [sees_findEnt (h := h) (s := putEnt s h i (some (newEnt k))) (by simp [s']) (by simp [s'])]
    exact hents
  have hslot : lineSlot s' h k = none := by
    rw [lineSlot_of_findEnt hent, slotOf_none rfl]
    rfl
  refine ⟨i, hmem, ?_⟩
  have hserve : serveReq s h k m front = beginTxn (putEnt s h i (some (newEnt k))) h k (readTxn m true) .none [] := by
    simp only [serveReq, hl.none, catKind_sharedRead hm, hl.untainted, hneeds, hi, reserveWay]
    rfl
  rw [hserve, beginTxn_unsnooped]
  exact catAdvance_devRead (txnOf_putTxn_same _ _ _ _) hslot

theorem serveReq_asksDevice {s : State} {h : Half} {k : Nat} {m : Msg} (hm : SharedRead m) (hl : FreshLine s h k) (front : Bool) :
    asksDevice s h k m (serveReq s h k m front) ∧ ((serveReq s h k m front).cat.get h).wait = (s.cat.get h).wait := by
  obtain ⟨i, hi, hserve⟩ := serveReq_fresh hm hl front
  rw [hserve]
  let s' := putTxn (putEnt s h i (some (newEnt k))) h k (readTxn m true)
  have hreg : (sees s' h).reg = (sees s h).reg := by simp [s']
  have hnext : (sees s' h).net.next = (sees s h).net.next := by simp [s']
  obtain ⟨q, hq, hop, hdst, htag, hlen, haddr⟩ := devRead_originates s' h k m
  have hent : findEnt (putTxn (devRead s' h k m .memRd) h k { readTxn m true with devRd := 1 }) h k = some (i, newEnt k) := by
    rw [sees_findEnt (h := h) (s := putEnt s h i (some (newEnt k))) (by simp [s', devRead]) (by simp [s', devRead])]
    exact findEnt_putEnt hi ⟨rfl, rfl⟩ fun z hz => by simp [hl.none] at hz
  refine ⟨⟨⟨_, txnOf_putTxn_same _ _ _ _, rfl, rfl, rfl, rfl⟩, ?_, q, ?_, hop, ?_, htag, hlen, ?_⟩, ?_⟩
  · rw [hent]
    rfl
  · rw [msg_sees _ h, putTxn_sees, hq, show s.net.next = s'.net.next from hnext.symm]
    exact msg_originate s' h 30 q
  · rw [hdst, sees_winSub hreg hl.window]
  · rw [haddr, sees_winBase hreg hl.window]
  · show (sees _ h).cat.wait = (sees s h).cat.wait
    simp [devRead]

/-! ### A line with a slot -/

/-- The transaction of a shared read that has its data from the Line Store. -/
def suppliedTxn (m : Msg) (asI : Bool) (data : Nat) : Txn := { readTxn m asI with devRd := 2, data := data }

/-- An entry with one more shared holder. -/
def joined (e : CatEnt) (t : Nat) : CatEnt := { e with hold := holdSet e.hold t, excl := false }

theorem stageOf_supplied (s : State) (h : Half) (k : Nat) (m : Msg) (asI : Bool) (data : Nat) :
    stageOf s h k (suppliedTxn m asI data) = .finish := by
  simp [stageOf, suppliedTxn, readTxn, newTxn]

theorem advanceOnce_lineStore {s : State} {h : Half} {k i way : Nat} {m : Msg} {asI : Bool} {e : CatEnt} {sl : LsSlot}
    (ht : txnOf s h k = some (readTxn m asI)) (hf : findEnt s h k = some (i, e)) (hslot : e.slot = some way)
    (hsl : mfind (s.cat.get h).slots (slotKey e.win e.l way) = some sl) :
    advanceOnce s h k = putTxn (slotUse s h sl way) h k (suppliedTxn m asI sl.data) := by
  have hsource : lineSlot s h k = some (e, sl) := by
    rw [lineSlot_of_findEnt hf, slotOf_of_slot hslot, hsl]
    rfl
  rw [advanceOnce_some ht, stageStep, stageOf_read]
  simp only [readTxn, newTxn, getData, hsource, hslot]
  rfl

/-- The end of a shared read that has been supplied from the Line Store: its host is a holder and the answer is on its way. -/
theorem finishReq_supplied {s : State} {h : Half} {k i way : Nat} {m : Msg} {asI : Bool} {data : Nat} {e : CatEnt}
    (hm : SharedRead m) (hway : answerable s h m) (hf : findEnt s h k = some (i, e)) (hslot : e.slot = some way) :
    ∃ r, finishReq s h k (suppliedTxn m asI data) m = originate (dropTxn (putEnt s h i (some (joined e m.tenant))) h k) h 30 r
      ∧ r.op = .drs ∧ r.dst = m.src ∧ r.tag = m.tag ∧ r.data = lineSlice data m.tgt.addr m.len ∧ r.hold = .s
      ∧ r.poison = e.psn := by
  let m' : Msg := { m with tc := tcCat s h }
  let v := dropTxn (putEnt s h i (some (joined e m.tenant))) h k
  have hwayv : answerable v h m' := answerable.of_sees (s := s) (by simp [v]) hway
  have hholder : reqHolder m' = some m.tenant := by
    have hnear : ¬ 128 ≤ m.src := by have := hm.src; omega
    simp [reqHolder, m', hm.op, opIsIo, hnear]
  have hfinal : finalEnt (suppliedTxn m asI data) m' e = joined e m.tenant := by
    simp only [finalEnt, hholder]
    rfl
  have hkept : settleEnt s h i (joined e m.tenant) = putEnt s h i (some (joined e m.tenant)) := by
    simp [settleEnt, joined, hslot]
  have hfinish : finishReq s h k (suppliedTxn m asI data) m
      = catRespond v h m' .s (lineSlice data m.tgt.addr m.len) e.psn 0 true := by
    have hatomic : m.op ≠ .atomic := by simp [hm.op]
    unfold finishReq
    rw [if_pos (show (suppliedTxn m asI data).devRd = 2 from rfl)]
    dsimp only
    rw [if_neg hatomic]
    dsimp only
    rw [hf]
    dsimp only
    rw [show { m with tc := tcCat s h } = m' from rfl, hfinal, hkept]
    rfl
  obtain ⟨r, hr, hrop, hrest⟩ := catRespond_originates (m := m') (.inl hm.op) hm.itag hm.src hwayv .s
    (lineSlice data m.tgt.addr m.len) e.psn 0 true
  exact ⟨r, hfinish.trans hr, hrop.trans (congrArg rspOp hm.op), hrest⟩

/-- What the Line Store's supply of a shared read leaves: no transaction, the answer on its way, its host a holder of the line. -/
theorem catAdvance_supplies {s : State} {h : Half} {k i way : Nat} {m : Msg} {asI : Bool} {e : CatEnt} {sl : LsSlot}
    (hm : SharedRead m) (hway : answerable s h m) (ht : txnOf s h k = some (readTxn m asI)) (hf : findEnt s h k = some (i, e))
    (hslot : e.slot = some way) (hsl : mfind (s.cat.get h).slots (slotKey e.win e.l way) = some sl) :
    txnOf (catAdvance s h k) h k = none ∧ mfind ((catAdvance s h k).cat.get h).ents i = some (joined e m.tenant)
      ∧ ∃ r, (catAdvance s h k).msg s.net.next = some r ∧ r.op = .drs ∧ r.dst = m.src ∧ r.tag = m.tag
          ∧ r.data = lineSlice sl.data m.tgt.addr m.len ∧ r.hold = .s ∧ r.poison = e.psn := by
  let u := putTxn (slotUse s h sl way) h k (suppliedTxn m asI sl.data)
  have hfu : findEnt u h k = some (i, e) := by
    rw [sees_findEnt (h := h) (s := s) (by simp [u]) (by simp [u])]
    exact hf
  have hwayu : answerable u h m := hway.of_sees (by simp [u])
  obtain ⟨r, hr, hrest⟩ := finishReq_supplied (asI := asI) (data := sl.data) hm hwayu hfu hslot
  let v := dropTxn (putEnt u h i (some (joined e m.tenant))) h k
  have hend : txnOf (originate v h 30 r) h k = none := by
    rw [txnOf_sees, originate_sees]
    exact txnOf_dropTxn_same _ _ _
  have hadvance : catAdvance s h k = originate v h 30 r := by
    rw [catAdvance_eq, advanceOnce_lineStore ht hf hslot hsl, advanceOnce_some (txnOf_putTxn_same _ _ _ _), stageStep,
      stageOf_supplied]
    exact (congrArg (advanceOnce · h k) hr).trans (advanceOnce_none hend)
  have hnext : (sees v h).net.next = (sees s h).net.next := by simp [v, u]
  rw [hadvance]
  refine ⟨hend, ?_, r, ?_, hrest⟩
  · show mfind (sees _ h).cat.ents i = _
    simp [v]
  · rw [show s.net.next = v.net.next from hnext.symm]
    exact msg_originate _ _ _ _

end Sys2Proof.Machine
end

section
/-! PROOFS. CATALOGUE_REQUEST and WAIT_POOL_RESUME (R231-R234, R246, R254-R256, R416): when a shared read is served. -/

namespace Sys2Proof.Machine

open Sys2Proof

/-! ### The messages at a station -/

/-- Message n is the only one at the Catalogue's station. -/
def aloneAt (s : State) (h : Half) (n : Nat) (m : Msg) : Prop := lget (s.core.get h).inbox 30 = [n] ∧ s.msg n = some m

theorem inboxFind_alone {s : State} {h : Half} {n : Nat} {m : Msg} (ha : aloneAt s h n m) {f : Msg → Bool} (hf : f m = true) :
    inboxFind s h 30 f = some (n, m) := by
  simp [inboxFind, ha.1, ha.2, hf]

@[simp] theorem inboxTake_sees (s : State) (h : Half) (st n : Nat) :
    sees (inboxTake s h st n) h = { sees s h with net := { (sees s h).net with msgs := merase (sees s h).net.msgs n } } := rfl

theorem inboxTake_findEnt (s : State) (h : Half) (st n : Nat) : findEnt (inboxTake s h st n) h = findEnt s h :=
  sees_findEnt (by simp) (by simp)

theorem msg_of_merase {s : State} {n j : Nat} {m : Msg} (hj : mfind (merase s.net.msgs n) j = some m) : s.msg j = some m := by
  by_cases hn : j = n
  · rw [hn, mfind_merase_same] at hj
    cases hj
  · rwa [mfind_merase_ne _ hn] at hj

/-! ### A lookup (R246) -/

theorem touchEnt_findEnt (s : State) (h : Half) (k : Nat) :
    findEnt (touchEnt s h k) h k = (findEnt s h k).map fun z => (z.1, { z.2 with age := 3 }) := by
  unfold touchEnt
  cases hf : findEnt s h k with
  | none => exact hf
  | some z =>
    obtain ⟨i, e⟩ := z
    dsimp only
    split
    · next hage =>
      rw [hf, ← hage]
      rfl
    · obtain ⟨hi, -, hline⟩ := findEnt_eq_some hf
      exact findEnt_putEnt hi hline fun z hz => by rw [hf] at hz; cases hz; rfl

theorem touchEnt_of_none {s : State} {h : Half} {k : Nat} (hf : findEnt s h k = none) : touchEnt s h k = s := by
  rw [touchEnt, hf]

/-- What a hit changes of the view: entries alone. -/
theorem touchEnt_sees (s : State) (h : Half) (k : Nat) :
    ∃ x, sees (touchEnt s h k) h = { sees s h with cat := { (sees s h).cat with ents := x } } := by
  unfold touchEnt
  split
  · split
    · exact ⟨_, rfl⟩
    · exact ⟨_, putEnt_sees _ _ _ _⟩
  · exact ⟨_, rfl⟩

/-- A lookup is counted, then it touches the line's entry. -/
theorem lookup_touches (s : State) (h : Half) (k set : Nat) :
    ∃ s', lookup s h k set = touchEnt s' h k ∧ sees s' h = sees s h := by
  refine ⟨_, rfl, ?_⟩
  split
  · rw [tally_sees, modCat_sees]
    rfl
  · exact tally_sees _ _ _ _ _ _ _

theorem lookup_findEnt (s : State) (h : Half) (k set : Nat) :
    findEnt (lookup s h k set) h k = (findEnt s h k).map fun z => (z.1, { z.2 with age := 3 }) := by
  obtain ⟨s', hs, hv⟩ := lookup_touches s h k set
  rw [hs, touchEnt_findEnt, sees_findEnt (h := h) (s := s) (by rw [hv]) (by rw [hv])]

theorem lookup_sees (s : State) (h : Half) (k set : Nat) :
    ∃ x, sees (lookup s h k set) h = { sees s h with cat := { (sees s h).cat with ents := x } } := by
  obtain ⟨s', hs, hv⟩ := lookup_touches s h k set
  rw [hs, ← hv]
  exact touchEnt_sees s' h k

theorem lookup_sees_of_none {s : State} {h : Half} {k : Nat} (hf : findEnt s h k = none) (set : Nat) :
    sees (lookup s h k set) h = sees s h := by
  obtain ⟨s', hs, hv⟩ := lookup_touches s h k set
  rw [hs, touchEnt_of_none, hv]
  rwa [sees_findEnt (h := h) (s := s) (by rw [hv]) (by rw [hv])]

/-! ### What a request waits for (R233, R256, R416) -/

/-- Nothing makes a request for line k wait, and no pass walks its set. -/
structure Calm (s : State) (h : Half) (k : Nat) (m : Msg) : Prop where
  room : catRoom s h = true
  pass : (s.cat.get h).pass = none
  taintFull : (s.cat.get h).taintFull = false
  scrub : scrubQueued s h m.tenant = false
  fenced : slotFenced s h k = false
  unlocked : txnOf s h k = none
  ahead : lineAwaited s h k = false

theorem slotFenced_congr {s t : State} {h : Half} {k : Nat} (hreg : (sees t h).reg = (sees s h).reg)
    (hslot : (findEnt t h k).any (fun x => x.2.slot.isSome) = (findEnt s h k).any fun x => x.2.slot.isSome) :
    slotFenced t h k = slotFenced s h k := by
  rw [slotFenced, slotFenced, sees_rotFenced hreg, hslot]

/-- Fewer messages make no line awaited. -/
theorem lineAwaited_mono {s t : State} {h : Half} {k : Nat} (hreg : (sees t h).reg = (sees s h).reg)
    (hcat : ∃ x, (sees t h).cat = { (sees s h).cat with ents := x }) (hmsg : ∀ n m, t.msg n = some m → s.msg n = some m)
    (hs : lineAwaited s h k = false) : lineAwaited t h k = false := by
  obtain ⟨x, hcat⟩ := hcat
  have hwait : (t.cat.get h).wait = (s.cat.get h).wait := congrArg (·.wait) hcat
  have htxns : (t.cat.get h).txns = (s.cat.get h).txns := congrArg (·.txns) hcat
  have hjobs : (t.cat.get h).jobs = (s.cat.get h).jobs := congrArg (·.jobs) hcat
  unfold lineAwaited scrubQueued at hs ⊢
  simp only [hwait, htxns, hjobs, msgLine_findWin hreg, Bool.or_eq_false_iff, List.any_eq_false] at hs ⊢
  obtain ⟨hpool, hcap⟩ := hs
  refine ⟨fun n hn hany => hpool n hn ?_, hcap⟩
  rw [Option.any_eq_true] at hany ⊢
  obtain ⟨m, hm, hline⟩ := hany
  exact ⟨m, hmsg n m hm, hline⟩

theorem Calm.mono {s t : State} {h : Half} {k : Nat} {m : Msg} (hreg : (sees t h).reg = (sees s h).reg)
    (hcat : ∃ x, (sees t h).cat = { (sees s h).cat with ents := x }) (hmsg : ∀ n m, t.msg n = some m → s.msg n = some m)
    (hslot : (findEnt t h k).any (fun x => x.2.slot.isSome) = (findEnt s h k).any fun x => x.2.slot.isSome)
    (hc : Calm s h k m) : Calm t h k m := by
  obtain ⟨x, hx⟩ := hcat
  have htables : (t.cat.get h).tables = { (s.cat.get h).tables with ents := x } := hx
  refine ⟨?_, ?_, ?_, ?_, ?_, ?_, lineAwaited_mono hreg ⟨x, hx⟩ hmsg hc.ahead⟩
  · rw [catRoom, show (t.cat.get h).txns = _ from congrArg (·.txns) htables,
      show (t.cat.get h).wait = _ from congrArg (·.wait) htables]
    exact hc.room
  · exact (congrArg (·.pass) htables).trans hc.pass
  · exact (congrArg (·.taintFull) htables).trans hc.taintFull
  · rw [scrubQueued, show (t.cat.get h).jobs = _ from congrArg (·.jobs) htables]
    exact hc.scrub
  · rw [slotFenced_congr hreg hslot]
    exact hc.fenced
  · rw [txnOf, show (t.cat.get h).txns = _ from congrArg (·.txns) htables]
    exact hc.unlocked

theorem Calm.lookup {s : State} {h : Half} {k : Nat} {m : Msg} (hc : Calm s h k m) (set : Nat) :
    Calm (Machine.lookup s h k set) h k m := by
  obtain ⟨x, hx⟩ := lookup_sees s h k set
  refine hc.mono (by rw [hx]) ⟨x, by rw [hx]⟩ (fun n m hn => ?_) ?_
  · rwa [msg_sees _ h, hx] at hn
  · rw [lookup_findEnt, Option.any_map]

/-- Taking a message from the station's input. -/
theorem Calm.inboxTake {s : State} {h : Half} {k : Nat} {m : Msg} (hc : Calm s h k m) (n : Nat) :
    Calm (Machine.inboxTake s h 30 n) h k m :=
  hc.mono (s := s) (by simp) ⟨_, rfl⟩ (fun _ _ hj => msg_of_merase (s := s) (n := n) hj) (by rw [inboxTake_findEnt])

theorem walkSet_of_no_pass {s : State} {h : Half} (hp : (s.cat.get h).pass = none) (set : Nat) : walkSet s h set = s := by
  rw [walkSet, hp]

/-- A shared read that nothing makes wait is served. -/
theorem catRequest_serves {s : State} {h : Half} {m : Msg} {w k : Nat} (hm : SharedRead m)
    (hk : k = lineKey w ((m.tgt.addr - winBase s h w) / 64)) (hc : Calm s h k m) (late : Bool) :
    catRequest s h m w late = serveReq (lookup s h k (setOf s h w (lineL k))) h k m false := by
  have hc' := hc.lookup (setOf s h w (lineL k))
  have hlock : lockFree (lookup s h k (setOf s h w (lineL k))) h = true := by
    have := hc'.room
    rw [catRoom, Bool.and_eq_true] at this
    exact this.1
  have hwb := isWriteBack_of_op (by simp [hm.op] : m.op ≠ .memWr) (lookup s h k (setOf s h w (lineL k))) h k
  unfold catRequest
  simp only [← hk, walkSet_of_no_pass hc.pass]
  simp [hm.op, hm.deny, hc'.taintFull, hwb, hc'.scrub, hc'.fenced, hc'.unlocked, hc'.ahead, hlock]

/-- The request's line, in a window in use (R224, R240). -/
def lineAt (s : State) (h : Half) (m : Msg) (w k : Nat) : Prop :=
  findWin s h (memSub m.tgt.idx) (memLd m.tgt.idx) m.tgt.addr = some w ∧ k = lineKey w ((m.tgt.addr - winBase s h w) / 64)

/-- A shared read that is the only message at the Catalogue, and that nothing makes wait, is taken and served. -/
theorem exec_catalogueRequest_serves {s : State} {h : Half} {n w k : Nat} {m : Msg} (ha : aloneAt s h n m) (hm : SharedRead m)
    (hline : lineAt s h m w k) (hc : Calm s h k m) :
    exec (.catalogueRequest h .clean) s
      = .next (serveReq (lookup (inboxTake s h 30 n) h k (setOf s h w (lineL k))) h k m false) := by
  obtain ⟨hwin, hk⟩ := hline
  have hreg : (sees (inboxTake s h 30 n) h).reg = (sees s h).reg := by simp
  have hw : w < 64 := List.mem_range.mp (List.mem_of_find?_eq_some hwin)
  show execCatalogueRequest h .clean s = _
  unfold execCatalogueRequest
  rw [inboxFind_alone ha (by simp [hm.op])]
  dsimp only
  rw [if_neg (by simp [hc.room]), sees_findWin hreg, hwin]
  dsimp only [catEcc]
  rw [catRequest_serves hm (by rw [sees_winBase hreg hw]; exact hk) (hc.inboxTake n), sees_setOf hreg]

theorem exec_catalogueRequest_full {s : State} {h : Half} {n : Nat} {m : Msg} (ha : aloneAt s h n m) (hop : m.op ≠ .biRsp)
    (hroom : catRoom s h = false) : exec (.catalogueRequest h .clean) s = .next s := by
  show execCatalogueRequest h .clean s = _
  unfold execCatalogueRequest
  rw [inboxFind_alone ha (by simp [hop])]
  exact if_pos hroom

/-! ### The two ways of a shared read -/

/-- A shared read of a line that the Catalogue does not hold is read from the device. -/
theorem catalogueRequest_asksDevice {s : State} {h : Half} {n w k : Nat} {m : Msg} (ha : aloneAt s h n m) (hm : SharedRead m)
    (hline : lineAt s h m w k) (hc : Calm s h k m) (hl : FreshLine s h k) :
    ∃ u, exec (.catalogueRequest h .clean) s = .next u ∧ asksDevice s h k m u := by
  have hl₁ : FreshLine (inboxTake s h 30 n) h k := hl.congr (by simp) (by simp)
  have hv := lookup_sees_of_none hl₁.none (setOf s h w (lineL k))
  have hl₂ := hl₁.congr (t := lookup (inboxTake s h 30 n) h k (setOf s h w (lineL k))) (by rw [hv]) (by rw [hv])
  exact ⟨_, exec_catalogueRequest_serves ha hm hline hc, (serveReq_asksDevice hm hl₂ false).1.congr (by simp [hv])
    (congrArg (·.net.next) hv) hl.window⟩

/-- A shared read of a line that a host does not hold exclusively, and that is not quarantined, needs no snoop (R234). -/
theorem serveReq_hit {s : State} {h : Half} {k i : Nat} {m : Msg} {e : CatEnt} (hm : SharedRead m)
    (hf : findEnt s h k = some (i, e)) (hexcl : e.excl = false) (hq : quarantined s h e = false) (hslot : e.slot.isSome = true)
    (front : Bool) : serveReq s h k m front = catAdvance (putTxn s h k (readTxn m false)) h k := by
  have hvalid : entValid e = true := by simp [entValid, hslot]
  have hplan : snoopPlan m .rdS e = (.none, []) := if_neg (by simp [hexcl])
  unfold serveReq
  simp only [hf, catKind_sharedRead hm, hexcl, hq, hvalid, hplan, beginTxn_unsnooped]
  rfl

/-- A shared read of a line with a slot is supplied from the Line Store. -/
theorem catalogueRequest_supplies {s : State} {h : Half} {n w k i way : Nat} {m : Msg} {e : CatEnt} {sl : LsSlot}
    (ha : aloneAt s h n m) (hm : SharedRead m) (hway : answerable s h m) (hline : lineAt s h m w k) (hc : Calm s h k m)
    (hf : findEnt s h k = some (i, e)) (hexcl : e.excl = false) (hq : quarantined s h e = false) (hslot : e.slot = some way)
    (hsl : mfind (s.cat.get h).slots (slotKey e.win e.l way) = some sl) :
    ∃ u, exec (.catalogueRequest h .clean) s = .next u ∧ txnOf u h k = none
      ∧ mfind (u.cat.get h).ents i = some (joined { e with age := 3 } m.tenant)
      ∧ ∃ r, u.msg s.net.next = some r ∧ r.op = .drs ∧ r.dst = m.src ∧ r.tag = m.tag
          ∧ r.data = lineSlice sl.data m.tgt.addr m.len ∧ r.hold = .s ∧ r.poison = e.psn := by
  let s₂ := lookup (inboxTake s h 30 n) h k (setOf s h w (lineL k))
  let e₂ : CatEnt := { e with age := 3 }
  obtain ⟨x, hv⟩ := lookup_sees (inboxTake s h 30 n) h k (setOf s h w (lineL k))
  have hreg : (sees s₂ h).reg = (sees s h).reg := by simp [s₂, hv]
  have hf₂ : findEnt s₂ h k = some (i, e₂) := by
    rw [lookup_findEnt, inboxTake_findEnt, hf]
    rfl
  have hq₂ : quarantined s₂ h e₂ = false := by
    rw [sees_quarantined hreg (congrArg (·.binds) hv)]
    exact hq
  let s₃ := putTxn s₂ h k (readTxn m false)
  have hserve := serveReq_hit hm hf₂ hexcl hq₂ (by simp [e₂, hslot]) false
  have hf₃ : findEnt s₃ h k = some (i, e₂) := by
    rw [sees_findEnt (h := h) (s := s₂) (by simp [s₃]) (by simp [s₃]), hf₂]
  have hsl₃ : mfind (s₃.cat.get h).slots (slotKey e₂.win e₂.l way) = some sl := by
    have hslots : (sees s₃ h).cat.slots = (sees s h).cat.slots := by simp [s₃, s₂, hv]
    exact (congrArg (mfind · _) hslots).trans hsl
  have hway₃ : answerable s₃ h m := hway.of_sees (by simp [s₃, hreg])
  have hnext : (sees s₃ h).net.next = (sees s h).net.next := by simp [s₃, s₂, hv]
  obtain ⟨htxn, hent, r, hr, hrest⟩ := catAdvance_supplies hm hway₃ (txnOf_putTxn_same _ _ _ _) hf₃ hslot hsl₃
  refine ⟨_, exec_catalogueRequest_serves ha hm hline hc, ?_⟩
  rw [show serveReq (lookup (inboxTake s h 30 n) h k (setOf s h w (lineL k))) h k m false = _ from hserve]
  exact ⟨htxn, hent, r, by rwa [show s₃.net.next = s.net.next from hnext] at hr, hrest⟩

/-- A waiting shared read of a line that the Catalogue does not hold is read from the device, and leaves the wait pool. -/
theorem waitPoolResume_asksDevice {s : State} {h : Half} {n k : Nat} {m : Msg} (hnext : waitNext s h = some (n, m))
    (hline : msgLine s h m = some k) (hpass : (s.cat.get h).pass = none) (hm : SharedRead m) (hl : FreshLine s h k) :
    ∃ u, exec (.waitPoolResume h) s = .next u ∧ asksDevice s h k m u ∧ (u.cat.get h).wait = (s.cat.get h).wait.erase n := by
  let s₁ := catStat ((dropMsg s n).modCat h fun c => { c with wait := c.wait.erase n }) h
  have hv : sees s₁ h = { sees s h with cat := { (sees s h).cat with wait := (s.cat.get h).wait.erase n },
                                        net := { s.net with msgs := merase s.net.msgs n } } := by
    simp only [s₁, catStat_sees, modCat_sees]
    rfl
  have hreg : (sees s₁ h).reg = (sees s h).reg := by rw [hv]
  have hl₁ : FreshLine s₁ h k := hl.congr hreg (by rw [hv])
  have hpass₁ : (s₁.cat.get h).pass = none := (congrArg (·.cat.pass) hv).trans hpass
  obtain ⟨hasks, hwait⟩ := serveReq_asksDevice hm hl₁ true
  refine ⟨serveReq s₁ h k m true, ?_, hasks.congr hreg (congrArg (·.net.next) hv) hl.window,
    hwait.trans (congrArg (·.cat.wait) hv)⟩
  show execWaitPoolResume h s = _
  unfold execWaitPoolResume
  rw [hnext]
  dsimp only
  rw [show msgLine s₁ h m = some k from (msgLine_findWin hreg m).trans hline]
  dsimp only
  rw [walkSet_of_no_pass hpass₁, touchEnt_of_none hl₁.none]

end Sys2Proof.Machine
end

section
/-! PROOFS. Snoop responses, write-backs and Kezen's own device writes at the Catalogue, and BIConflict (R234-R239, R249, R250). -/

namespace Sys2Proof.Machine

open Sys2Proof

/-! ### Snoop responses (R236) -/

/-- An entry that tenant t no longer holds. -/
def leftBy (e : CatEnt) (t : Nat) : CatEnt :=
  { e with hold := holdClr e.hold t, excl := if bitB e.hold t then false else e.excl }

theorem dropHolder_of_findEnt {s : State} {h : Half} {k i : Nat} {e : CatEnt} (hf : findEnt s h k = some (i, e)) (t : Nat) :
    dropHolder s h k t = putEnt s h i (some (leftBy e t)) := by
  rw [dropHolder, hf]
  rfl

/-- A transaction to whose snoop tenant t has answered BIRspI. -/
def answeredBy (x : Txn) (t : Nat) : Txn := { x with pend := x.pend.erase t, keep := .i }

@[simp] theorem holdClr_two_pow (t : Nat) : holdClr (2 ^ t) t = 0 := by
  simp [holdClr, bitB, Nat.testBit_two_pow_self]

/-- A holder's BIRspI to a BISnpInv takes it out of the line's entry, and the transaction goes on without it. -/
theorem snoopRsp_invalidated {s : State} {h : Half} {k i t : Nat} {x : Txn} {e : CatEnt} (ht : txnOf s h k = some x)
    (hsnp : x.snp = .inv) (hmem : t ∈ x.pend) (hf : findEnt s h k = some (i, e)) :
    snoopRsp s h k t .i
      = catAdvance (putTxn (putEnt s h i (some (leftBy e t))) h k (answeredBy x t)) h k := by
  have htreat : rspTreat x.snp .i = (.i, true) := by rw [hsnp]; rfl
  unfold snoopRsp
  simp only [ht]
  rw [if_neg (by simp [hmem]), htreat]
  show catAdvance (putTxn (dropHolder s h k t) h k _) h k = _
  rw [dropHolder_of_findEnt hf]
  rfl

theorem wbFind_of_op {s : State} {h : Half} {n : Nat} {m : Msg} (ha : aloneAt s h n m) (hm : m.op ≠ .memWr)
    (f : Nat → Msg → Bool) : wbFind s h f = none := by
  simp [wbFind, ha.1, ha.2, isWriteBack_of_op hm]

theorem exec_snoopResponseReceived_alone {s : State} {h : Half} {n : Nat} {m : Msg} (ha : aloneAt s h n m) (hop : m.op = .biRsp) :
    exec (.snoopResponseReceived h) s = .next (snoopRsp (inboxTake s h 30 n) h m.tag m.tenant m.hold) := by
  show execSnoopResponseReceived h s = _
  unfold execSnoopResponseReceived
  rw [inboxFind_alone ha (by simp [hop])]
  simp only [ha.1, List.length_singleton, wbAhead, wbFind_of_op ha (by simp [hop] : m.op ≠ .memWr)]

section
variable {s : State} {h : Half} {n k i t : Nat} {m : Msg} {x : Txn} {e : CatEnt} (ha : aloneAt s h n m) (hop : m.op = .biRsp)
  (htag : m.tag = k) (hten : m.tenant = t) (hhold : m.hold = .i) (ht : txnOf s h k = some x) (hsnp : x.snp = .inv)
  (hmem : t ∈ x.pend) (hf : findEnt s h k = some (i, e))
include ha hop htag hten hhold ht hsnp hmem hf

theorem exec_snoopResponseReceived_invalidated : exec (.snoopResponseReceived h) s
    = .next (catAdvance (putTxn (putEnt (inboxTake s h 30 n) h i (some (leftBy e t))) h k (answeredBy x t)) h k) := by
  have hf' : findEnt (inboxTake s h 30 n) h k = some (i, e) := by rw [inboxTake_findEnt, hf]
  rw [exec_snoopResponseReceived_alone ha hop, htag, hten, hhold, snoopRsp_invalidated (by exact ht) hsnp hmem hf']

/-- While other holders have still to answer, the transaction waits for them. -/
theorem snoopResponse_waits (hp : x.pend.erase t ≠ []) : ∃ u, exec (.snoopResponseReceived h) s = .next u
    ∧ txnOf u h k = some (answeredBy x t) ∧ mfind (u.cat.get h).ents i = some (leftBy e t) := by
  refine ⟨_, exec_snoopResponseReceived_invalidated ha hop htag hten hhold ht hsnp hmem hf, ?_⟩
  rw [catAdvance_waits (txnOf_putTxn_same _ _ _ _) (.inl (stageOf_snoops hp))]
  refine ⟨txnOf_putTxn_same _ _ _ _, ?_⟩
  show mfind (sees _ h).cat.ents i = _
  simp

/-- The last answer ends a recall, and the entry of a line that nobody holds any more is free. -/
theorem snoopResponse_ends (hp : x.pend = [t]) (hk : x.kind = .recall) (hrd : x.devRd = 0) (hwr : x.devWr = false)
    (hw : x.writes = []) (hone : e.hold = 2 ^ t) (hslot : e.slot = none) : ∃ u, exec (.snoopResponseReceived h) s = .next u
      ∧ txnOf u h k = none ∧ mfind (u.cat.get h).ents i = none := by
  let s₁ := putEnt (inboxTake s h 30 n) h i (some (leftBy e t))
  obtain ⟨hi, -, hline⟩ := findEnt_eq_some hf
  have hset : setOf (inboxTake s h 30 n) h = setOf s h := sees_setOf (by simp)
  have hf₁ : findEnt s₁ h k = some (i, leftBy e t) :=
    findEnt_putEnt (by rw [hset]; exact hi) hline fun z hz => by rw [inboxTake_findEnt, hf] at hz; cases hz; rfl
  have hf₂ : findEnt (putTxn s₁ h k (answeredBy x t)) h k = some (i, leftBy e t) := by
    rw [sees_findEnt (h := h) (s := s₁) (by simp) (by simp), hf₁]
  have hfree : entLeft (leftBy e t) = none := by simp [entLeft, leftBy, hone, hslot]
  refine ⟨_, exec_snoopResponseReceived_invalidated ha hop htag hten hhold ht hsnp hmem hf, ?_⟩
  rw [catAdvance_own (t := answeredBy x t) (txnOf_putTxn_same _ _ _ _) (.inl hk) (by simp [answeredBy, hp]) hw hrd hwr]
  refine ⟨txnOf_finishOwn _ _ _, ?_⟩
  show mfind (sees _ h).cat.ents i = _
  rw [finishOwn_sees hf₂, hfree]
  exact mfind_merase_same _ _

end

/-! ### Write-backs (R237, R238) -/

theorem isWriteBack_facts {s : State} {h : Half} {k : Nat} {m : Msg} (hwb : isWriteBack s h k m = true) :
    m.op = .memWr ∧ m.src < 128 := by
  unfold isWriteBack at hwb
  split at hwb
  · simp only [Bool.and_eq_true, decide_eq_true_eq] at hwb
    obtain ⟨⟨⟨hop, -⟩, -⟩, hsrc⟩ := hwb
    exact ⟨hop, hsrc⟩
  · cases hwb

theorem exec_writeBackReceived_alone {s : State} {h : Half} {n k : Nat} {m : Msg} (ha : aloneAt s h n m)
    (hline : msgLine s h m = some k) (hwb : isWriteBack s h k m = true) :
    exec (.writeBackReceived h) s = .next (takeWriteBack (inboxTake s h 30 n) h k m) := by
  have hfind : wbFind s h (fun _ _ => true) = some (n, k, m) := by simp [wbFind, ha.1, ha.2, hline, hwb, behindRsp]
  show execWriteBackReceived h s = _
  unfold execWriteBackReceived
  rw [hfind]

/-- The transaction of a line whose write-back has come. -/
def withData (x : Txn) (m : Msg) : Txn := { x with wb := some m.data, data := m.data, poison := m.poison }

theorem slotFill_of_findEnt {s : State} {h : Half} {k i : Nat} {e : CatEnt} (hf : findEnt s h k = some (i, e)) (way data : Nat)
    (psn : Bool) : slotFill s h k way data psn
      = putEnt (slotPut s h (lineWin k) (lineL k) way data) h i (some { e with slot := some way, psn := psn }) := by
  rw [slotFill, entSlot, sees_findEnt (h := h) (s := s) (by simp) (by simp), hf]

/-- A write-back of a line with a slot goes into the slot and is answered. -/
theorem takeWriteBack_slot {s : State} {h : Half} {k i way : Nat} {m : Msg} {x : Txn} {e : CatEnt} (ht : txnOf s h k = some x)
    (hf : findEnt s h k = some (i, e)) (hslot : e.slot = some way) :
    takeWriteBack s h k m = catRespond (putEnt (slotPut (putTxn s h k (withData x m)) h (lineWin k) (lineL k) way m.data) h i
      (some { e with slot := some way, psn := m.poison })) h m .noop 0 false 0 true := by
  have hf' : findEnt (putTxn s h k (withData x m)) h k = some (i, e) := by
    rw [sees_findEnt (h := h) (s := s) (by simp) (by simp), hf]
  have hnote : wbNote s h k m = putTxn s h k (withData x m) := by
    rw [wbNote, ht]
    rfl
  rw [takeWriteBack, hnote, absorb]
  simp only [hf', hslot, slotFill_of_findEnt hf']

theorem writeBackReceived_joins {s : State} {h : Half} {n k i way : Nat} {m : Msg} {x : Txn} {e : CatEnt} (ha : aloneAt s h n m)
    (hline : msgLine s h m = some k) (hwb : isWriteBack s h k m = true) (hi : m.itag = none) (hway : answerable s h m)
    (ht : txnOf s h k = some x) (hf : findEnt s h k = some (i, e)) (hslot : e.slot = some way) :
    ∃ u, exec (.writeBackReceived h) s = .next u
      ∧ (∃ q, u.msg s.net.next = some q ∧ q.op = .ndr ∧ q.dst = m.src ∧ q.tag = m.tag)
      ∧ (∃ z, mfind (u.cat.get h).slots (slotKey e.win e.l way) = some z ∧ z.data = m.data)
      ∧ txnOf u h k = some (withData x m) ∧ mfind (u.cat.get h).ents i = some { e with slot := some way, psn := m.poison } := by
  obtain ⟨hop, hsrc⟩ := isWriteBack_facts hwb
  obtain ⟨-, -, hwin, hl⟩ := findEnt_eq_some hf
  let s₁ := inboxTake s h 30 n
  have hf₁ : findEnt s₁ h k = some (i, e) := by rw [inboxTake_findEnt, hf]
  let u := putEnt (slotPut (putTxn s₁ h k (withData x m)) h (lineWin k) (lineL k) way m.data) h i
    (some { e with slot := some way, psn := m.poison })
  have hwayu : answerable u h m := hway.of_sees (by simp [u, s₁])
  have hnext : (sees u h).net.next = (sees s h).net.next := by simp [u, s₁]
  obtain ⟨r, hr, hrop, hrdst, hrtag, -⟩ := catRespond_originates (.inr hop) hi hsrc hwayu .noop 0 false 0 true
  refine ⟨_, exec_writeBackReceived_alone ha hline hwb, ?_⟩
  rw [takeWriteBack_slot (s := s₁) ht hf₁ hslot, hr]
  obtain ⟨z, hz, hdata⟩ := slotPut_data (putTxn s₁ h k (withData x m)) h (lineWin k) (lineL k) way m.data
  refine ⟨⟨r, ?_, by rw [hrop, hop]; rfl, hrdst, hrtag⟩, ⟨z, ?_, hdata⟩, ?_, ?_⟩
  · rw [show s.net.next = u.net.next from hnext.symm]
    exact msg_originate _ _ _ _
  · show mfind (sees _ h).cat.slots (slotKey e.win e.l way) = _
    rw [hwin, hl, originate_sees, putEnt_sees]
    exact hz
  · rw [txnOf_sees]
    simp [u]
  · show mfind (sees _ h).cat.ents i = _
    simp [u]

/-! ### Device writes of Kezen's own (R249, R250) -/

/-- A write of the Catalogue is the one internal request that has ended. -/
def writeEnded (s : State) (h : Half) (k id : Nat) (r : IDone) : Prop :=
  s.net.idone = [r] ∧ r.half = h ∧ r.own = .catWrite k id

theorem exec_deviceWriteComplete_ended {s : State} {h : Half} {k id : Nat} {r : IDone} (hr : writeEnded s h k id r) :
    exec (.deviceWriteComplete h) s
      = .next (if r.ok then ownWriteDone (idoneTake s r) h k id else ownWriteFailed (idoneTake s r) h k id) := by
  obtain ⟨hone, hhalf, hown⟩ := hr
  show execDeviceWriteComplete h s = _
  simp only [execDeviceWriteComplete, idoneFind, hone, List.find?_cons, hhalf, hown, and_self, decide_true]

@[simp] theorem idoneTake_sees (s : State) (h : Half) (r : IDone) :
    sees (idoneTake s r) h = { sees s h with net := { (sees s h).net with idone := (sees s h).net.idone.erase r } } := rfl

theorem writeEnd_single {s : State} {h : Half} {k id : Nat} {x : Txn} {cw : CatWr} (ht : txnOf s h k = some x)
    (hw : x.writes = [cw]) (hid : cw.id = id) : writeEnd s h k id = some (cw, putTxn s h k { x with writes := [] }) := by
  simp [writeEnd, ht, hw, hid]

/-- A line whose one device write has ended, its transaction without it. -/
theorem ended_findEnt {s : State} {h : Half} {k : Nat} {r : IDone} {x : Txn} :
    findEnt (putTxn (idoneTake s r) h k x) h = findEnt s h := sees_findEnt (by simp) (by simp)

/-- The way of a slot is barred for 1,024 Transits. -/
def slotBarred (s : State) (h : Half) (key : Nat) (sl : LsSlot) : State :=
  s.modCat h fun c => { c with slots := minsert c.slots key { sl with barred := s.tn h + 1024 } }

theorem slotBarred_slot (s : State) (h : Half) (key : Nat) (sl : LsSlot) :
    mfind ((slotBarred s h key sl).cat.get h).slots key = some { sl with barred := s.tn h + 1024 } := by
  simp [slotBarred, State.modCat]

theorem slotBarred_findEnt (s : State) (h : Half) (key : Nat) (sl : LsSlot) :
    findEnt (slotBarred s h key sl) h = findEnt s h :=
  sees_findEnt (by simp [slotBarred]) (by rw [slotBarred, modCat_sees]; rfl)

/-- A Line Store eviction whose device write failed ends with the line's slot and entry kept (R250). -/
theorem evictFailed_lsEvict {s : State} {h : Half} {k i way : Nat} {t : Txn} {e : CatEnt} {sl : LsSlot}
    (ht : txnOf s h k = some t) (hk : t.kind = .lsEvict) (hf : findEnt s h k = some (i, e)) (hslot : e.slot = some way)
    (hsl : mfind (s.cat.get h).slots (slotKey e.win e.l way) = some sl) :
    evictFailed s h k = finishOwn (slotBarred s h (slotKey e.win e.l way) sl) h k := by
  have hsource : lineSlot s h k = some (e, sl) := by
    rw [lineSlot_of_findEnt hf, slotOf_of_slot hslot, hsl]
    rfl
  have htxn : txnOf (slotBarred s h (slotKey e.win e.l way) sl) h k = some t := by
    rw [txnOf_sees, slotBarred, modCat_sees]
    exact ht
  unfold evictFailed
  simp only [hsource, hslot, Option.getD_some]
  rw [show txnOf (s.modCat h _) h k = some t from htxn]
  simp only [hk]
  rfl

section
variable {s : State} {h : Half} {k id i way : Nat} {r : IDone} {x : Txn} {cw : CatWr} {e : CatEnt} {sl : LsSlot}
  (hr : writeEnded s h k id r) (ht : txnOf s h k = some x) (hk : x.kind = .lsEvict) (hp : x.pend = []) (hw : x.writes = [cw])
  (hid : cw.id = id) (huse : cw.use = .slot) (hrd : x.devRd = 0) (hwr : x.devWr = false) (hf : findEnt s h k = some (i, e))
  (hhold : e.hold ≠ 0) (hslot : e.slot = some way)
include hr ht hk hp hw hid huse hrd hwr hf hhold hslot

omit hp hrd hwr in
/-- A failed device write leaves the slot, and bars its way until 1,024 Transits have passed (R250). -/
theorem evictionWrite_fails (hsl : mfind (s.cat.get h).slots (slotKey e.win e.l way) = some sl) (hok : r.ok = false) :
    ∃ u, exec (.deviceWriteComplete h) s = .next u ∧ txnOf u h k = none
      ∧ mfind (u.cat.get h).slots (slotKey e.win e.l way) = some { sl with barred := s.tn h + 1024 }
      ∧ mfind (u.cat.get h).ents i = some e
      ∧ u.fget (CAT_ERRCNT2 h) CAT_ERRCNT2_LSWB_FAIL
          = min (s.fget (CAT_ERRCNT2 h) CAT_ERRCNT2_LSWB_FAIL + 1) (2 ^ CAT_ERRCNT2_LSWB_FAIL.width - 1) := by
  let s₁ := putTxn (idoneTake s r) h k { x with writes := [] }
  let s₂ := raise (s₁.fbump (CAT_ERRCNT2 h) CAT_ERRCNT2_LSWB_FAIL 1) h (evt 10 2 0 k)
  have hv₂ : sees s₂ h = sees s₁ h :=
    (raise_evt_sees _ _ _ _ _ (by decide)).trans (sees_wr _ _ _ (status_not_asked (h := h) (by simp)))
  have hf₂ : findEnt s₂ h k = some (i, e) := by
    rw [sees_findEnt (h := h) (s := s₁) (by rw [hv₂]) (by rw [hv₂]), ended_findEnt, hf]
  have ht₂ : txnOf s₂ h k = some { x with writes := [] } := by
    rw [txnOf_sees, hv₂]
    simp [s₁]
  have hslots : (sees s₂ h).cat.slots = (sees s h).cat.slots := by rw [hv₂]; simp [s₁]
  have htn : s₂.tn h = s.tn h := sees_tn (by rw [hv₂]; simp [s₁])
  have hsl₂ : mfind (s₂.cat.get h).slots (slotKey e.win e.l way) = some sl := (congrArg (mfind · _) hslots).trans hsl
  let s₃ := slotBarred s₂ h (slotKey e.win e.l way) sl
  have hf₃ : findEnt s₃ h k = some (i, e) := by rw [slotBarred_findEnt, hf₂]
  have hleft : entLeft e = some e := by simp [entLeft, hhold]
  have hdone : ownWriteFailed (idoneTake s r) h k id = finishOwn s₃ h k := by
    rw [ownWriteFailed, writeEnd_single (s := idoneTake s r) ht hw hid]
    simp only [huse]
    exact evictFailed_lsEvict ht₂ hk hf₂ hslot hsl₂
  refine ⟨_, exec_deviceWriteComplete_ended hr, ?_⟩
  rw [if_neg (by simp [hok]), hdone]
  refine ⟨txnOf_finishOwn _ _ _, ?_, ?_, ?_⟩
  · show mfind (sees _ h).cat.slots _ = _
    rw [finishOwn_sees hf₃, ← htn]
    exact slotBarred_slot _ _ _ _
  · show mfind (sees _ h).cat.ents i = _
    rw [finishOwn_sees hf₃, hleft]
    exact mfind_minsert_same _ _ _
  · have hne : CAT_ERRCNT2 h ∉ [CAT_OCC h, CAT_LSOCC h, CAT_REMOTE h, CAT_TRK h, CDB_QLINES h] := by cases h <;> decide
    have hbumped : s₂.rd (CAT_ERRCNT2 h) = (s₁.fbump (CAT_ERRCNT2 h) CAT_ERRCNT2_LSWB_FAIL 1).rd (CAT_ERRCNT2 h) :=
      refOnly_rd (raise_evt_refOnly _ _ _ _ _ _) (by cases h <;> decide) (by cases h <;> decide)
    have hbefore : s₁.rd (CAT_ERRCNT2 h) = s.rd (CAT_ERRCNT2 h) := catStat_rd hne _
    rw [fget_of_rd_eq ((finishOwn_rd hne s₃ k).trans hbumped), State.fbump, fget_fset_same _ _ _ _ (by decide),
      fget_of_rd_eq hbefore]
    exact Nat.mod_eq_of_lt (lt_of_le_of_lt (min_le_right _ _) (by decide))

/-- A device write that completes ends the eviction, and the slot is free (R249). -/
theorem evictionWrite_completes (hok : r.ok = true) : ∃ u, exec (.deviceWriteComplete h) s = .next u ∧ txnOf u h k = none
    ∧ mfind (u.cat.get h).slots (slotKey e.win e.l way) = none
    ∧ mfind (u.cat.get h).ents i = some { e with slot := none, psn := false } := by
  let s₁ := putTxn (idoneTake s r) h k { x with writes := [] }
  let e' : CatEnt := { e with slot := none, psn := false }
  obtain ⟨hi, -, hline⟩ := findEnt_eq_some hf
  have hf₁ : findEnt s₁ h k = some (i, e) := by rw [ended_findEnt, hf]
  let s₂ := putEnt (slotFree s₁ h e.win e.l way) h i (some e')
  have hgone : slotGone s₁ h k = s₂ := by
    rw [slotGone, hf₁]
    simp only [hslot]
    rfl
  have hff : findEnt (slotFree s₁ h e.win e.l way) h = findEnt s₁ h := sees_findEnt (by simp) (by simp)
  have hset : setOf (slotFree s₁ h e.win e.l way) h = setOf s h := sees_setOf (by simp [s₁])
  have hf₂ : findEnt s₂ h k = some (i, e') :=
    findEnt_putEnt (by rw [hset]; exact hi) hline fun z hz => by rw [hff, hf₁] at hz; cases hz; rfl
  have ht₂ : txnOf s₂ h k = some { x with writes := [] } := by
    rw [txnOf_sees]
    simp [s₂, s₁]
  have hleft : entLeft e' = some e' := by simp [entLeft, e', hhold]
  have hdone : ownWriteDone (idoneTake s r) h k id = finishOwn s₂ h k := by
    rw [ownWriteDone, writeEnd_single (s := idoneTake s r) ht hw hid]
    simp only [huse, if_true]
    show catAdvance (slotGone s₁ h k) h k = _
    rw [hgone, catAdvance_own ht₂ (.inr hk) hp rfl hrd hwr]
  refine ⟨_, exec_deviceWriteComplete_ended hr, ?_⟩
  rw [if_pos hok, hdone]
  refine ⟨txnOf_finishOwn _ _ _, ?_, ?_⟩
  · show mfind (sees _ h).cat.slots _ = _
    rw [finishOwn_sees hf₂]
    simp [s₂]
  · show mfind (sees _ h).cat.ents i = _
    rw [finishOwn_sees hf₂, hleft]
    exact mfind_minsert_same _ _ _

end

/-- A device write of absorbed data that completes answers its write-back, and ends the recall that it belonged to. -/
theorem absorbedWrite_completes {s : State} {h : Half} {k id : Nat} {r : IDone} {x : Txn} {cw : CatWr} {m : Msg}
    (hr : writeEnded s h k id r) (hok : r.ok = true) (ht : txnOf s h k = some x) (hk : x.kind = .recall) (hp : x.pend = [])
    (hw : x.writes = [cw]) (hid : cw.id = id) (huse : cw.use = .absorb (some m)) (hrd : x.devRd = 0) (hwr : x.devWr = false)
    (hop : m.op = .memWr) (hi : m.itag = none) (hsrc : m.src < 128) (hway : answerable s h m) (hf : findEnt s h k = none) :
    ∃ u, exec (.deviceWriteComplete h) s = .next u ∧ txnOf u h k = none
      ∧ ∃ q, u.msg s.net.next = some q ∧ q.op = .ndr ∧ q.dst = m.src ∧ q.tag = m.tag := by
  let s₁ := putTxn (idoneTake s r) h k { x with writes := [] }
  have hway₁ : answerable s₁ h m := hway.of_sees (by simp [s₁])
  obtain ⟨q, hq, hqop, hqdst, hqtag, -⟩ := catRespond_originates (.inr hop) hi hsrc hway₁ .noop 0 false 0 true
  have hf₁ : findEnt s₁ h k = none := by rw [ended_findEnt, hf]
  let s₂ := originate s₁ h 30 q
  have hf₂ : findEnt s₂ h k = none := by rw [sees_findEnt (h := h) (s := s₁) (by simp [s₂]) (by simp [s₂]), hf₁]
  have ht₂ : txnOf s₂ h k = some { x with writes := [] } := by
    rw [txnOf_sees, originate_sees]
    exact txnOf_putTxn_same _ _ _ _
  have hdone : ownWriteDone (idoneTake s r) h k id = dropTxn s₂ h k := by
    rw [ownWriteDone, writeEnd_single (s := idoneTake s r) ht hw hid]
    simp only [huse]
    show catAdvance (catRespond s₁ h m .noop 0 false 0 true) h k = _
    rw [hq, catAdvance_own ht₂ (.inl hk) hp rfl hrd hwr, finishOwn_of_none hf₂]
  have hnext : (sees s₁ h).net.next = (sees s h).net.next := by simp [s₁]
  refine ⟨_, exec_deviceWriteComplete_ended hr, ?_⟩
  rw [if_pos hok, hdone]
  refine ⟨txnOf_dropTxn_same _ _ _, q, ?_, by rw [hqop, hop]; rfl, hqdst, hqtag⟩
  rw [msg_sees _ h, dropTxn_sees, show s.net.next = s₁.net.next from hnext.symm]
  exact msg_originate _ _ _ _

/-! ### BIConflict (R239) -/

/-- A BIConflict is acknowledged on the NDR channel behind every response that was made before it. -/
theorem biconflictReceived_acknowledged {s : State} {h : Half} {t d : Nat} (hd : uspOf s h t = some d) (k : Nat) :
    ∃ u q, exec (.biconflictReceived h t k) s = .next u ∧ u.msg s.net.next = some q ∧ q.op = .ndr ∧ q.dst = d ∧ q.tag = k
      ∧ q.snp = .cur ∧ q.gen = s.net.next ∧ u.cat = s.cat ∧ u.regs = s.regs := by
  let q : Msg := { blankMsg .ndr (unitNode h 30) d k t (tcCat s h) with snp := .cur, gen := s.net.next }
  refine ⟨originate s h 30 q, q, ?_, msg_originate _ _ _ _, rfl, rfl, rfl, rfl, rfl, originate_cat _ _ _ _,
    formCells_regs _ _ _ _ _ _⟩
  show execBiconflictReceived h t k s = _
  rw [execBiconflictReceived, hd]

/-! ### O36 -/

/-- Settles O36, command by command. -/
theorem catalogueServesRequests : Obligations.CatalogueServesRequests := by
  intro s h n w k i id t d m e sl x way r cw c set alone carried shared line calm fresh asked answer slot held entry failed
  have hread : shared → SharedRead m ∧ answerable s h m := fun ⟨hop, hhold, hi, hsrc, hdeny, hcar⟩ =>
    ⟨⟨hop, hhold, hi, hsrc, hdeny⟩, hcar⟩
  have hcalm : calm → Calm s h k m := fun ⟨hroom, hpass, htaint, hscrub, hfence, htxn, hahead⟩ =>
    ⟨hroom, hpass, htaint, hscrub, hfence, htxn, hahead⟩
  have hfresh : fresh → FreshLine s h k := fun ⟨hw, hnone, htaint, hway⟩ => ⟨hw, hnone, htaint, hway⟩
  refine ⟨fun ha hs hl hc hf => ?_, fun ha hs hl hc hheld hexcl hq hslot hsl => ?_, fun ha hs hroom => ?_,
    fun hnext hline hpass hs hf => ?_,
    fun ha hop htag hten hhold htxn hsnp hmem hheld => ⟨fun hp => ?_, fun hp hk hrd hwr hw hone hslot => ?_⟩,
    fun ha hline hwb hi hcar htxn hheld hslot => ?_,
    fun hone hhalf hown htxn hk hp hw hid huse hrd hwr hheld hhold hslot hsl => ?_,
    fun hone hhalf hown hok htxn hk hp hw hid huse hrd hwr hop hi hsrc hcar hnone => ?_,
    fun hd => biconflictReceived_acknowledged hd k⟩
  case refine_1 => exact catalogueRequest_asksDevice ha (hread hs).1 ⟨hl.1, hl.2.1⟩ (hcalm hc) (hfresh hf)
  case refine_2 =>
    obtain ⟨hm, hway⟩ := hread hs
    obtain ⟨u, hu, htxn, hent, q, hq, hop, hdst, htag, hdata, hhold, hpsn⟩ :=
      catalogueRequest_supplies ha hm hway ⟨hl.1, hl.2.1⟩ (hcalm hc) hheld hexcl hq hslot hsl
    refine ⟨u, hu, ⟨q, hq, hop, hdst, htag, fun _ => ⟨hdata, hhold, hpsn⟩⟩, htxn, ?_⟩
    show (mfind (u.cat.get h).ents i).any _ = true
    rw [hent]
    simp [joined, holdSet, bitB, Nat.testBit_two_pow_self]
  case refine_3 => exact exec_catalogueRequest_full ha (by rw [(hread hs).1.op]; decide) hroom
  case refine_4 => exact waitPoolResume_asksDevice hnext hline hpass (hread hs).1 (hfresh hf)
  case refine_5 =>
    obtain ⟨u, hu, htxn', hent⟩ := snoopResponse_waits ha hop htag hten hhold htxn hsnp hmem hheld hp
    refine ⟨u, hu, htxn', ?_⟩
    show (mfind (u.cat.get h).ents i).any _ = true
    rw [hent]
    simp [leftBy]
  case refine_6 => exact snoopResponse_ends ha hop htag hten hhold htxn hsnp hmem hheld hp hk hrd hwr hw hone hslot
  case refine_7 =>
    obtain ⟨u, hu, ⟨q, hq, hop, hdst, htag⟩, ⟨z, hz, hdata⟩, htxn', hent⟩ :=
      writeBackReceived_joins ha hline hwb hi hcar htxn hheld hslot
    refine ⟨u, hu, ⟨q, hq, hop, hdst, htag, fun hdrs => nomatch hdrs⟩, ?_, htxn', hent⟩
    show (mfind (u.cat.get h).slots _).any _ = true
    rw [hz]
    simpa using hdata
  case refine_8 =>
    have hr : writeEnded s h k id r := ⟨hone, hhalf, hown⟩
    cases hok : r.ok with
    | true =>
      obtain ⟨u, hu, htxn', hfree, hent⟩ := evictionWrite_completes hr htxn hk hp hw hid huse hrd hwr hheld hhold hslot hok
      exact ⟨u, hu, htxn', fun _ => ⟨hfree, hent⟩, fun hfalse => nomatch hfalse⟩
    | false =>
      obtain ⟨u, hu, htxn', hbar, hent, hfail⟩ :=
        evictionWrite_fails hr htxn hk hw hid huse hheld hhold hslot hsl hok
      exact ⟨u, hu, htxn', fun htrue => absurd htrue Bool.false_ne_true, fun _ => ⟨hbar, hent, hfail⟩⟩
  case refine_9 =>
    obtain ⟨u, hu, htxn', q, hq, hop', hdst, htag⟩ :=
      absorbedWrite_completes ⟨hone, hhalf, hown⟩ hok htxn hk hp hw hid huse hrd hwr hop hi hsrc hcar hnone
    exact ⟨u, hu, htxn', q, hq, hop', hdst, htag, fun hdrs => nomatch hdrs⟩

end Sys2Proof.Machine
end

section
/-! PROOFS. What the walker does at a set leaves the pass as it is (R254): none of the Catalogue's shared operations starts or ends
one. -/

namespace Sys2Proof.Machine

open Sys2Proof

/-- The jobs of the pass that runs in a half, if one does. -/
def passOf (s : State) (h : Half) : Option (List CatJob) := (s.cat.get h).pass

theorem passOf_sees (s : State) (h : Half) : passOf s h = (sees s h).cat.pass := rfl

theorem passOf_congr {s t : State} (hcat : t.cat = s.cat) (h : Half) : passOf t h = passOf s h := by rw [passOf, passOf, hcat]

@[simp] theorem passOf_ite (c : Prop) [Decidable c] (s t : State) (h : Half) :
    passOf (if c then s else t) h = if c then passOf s h else passOf t h := apply_ite (passOf · h) c s t

@[simp] theorem foldl_pass {α : Type} {h : Half} {f : State → α → State} (hf : ∀ s x, passOf (f s x) h = passOf s h)
    (l : List α) (s : State) : passOf (l.foldl f s) h = passOf s h := foldl_keeps (passOf · h) (fun s x _ => hf s x) s

/-! ### Elementary changes -/

@[simp] theorem modCat_pass (s : State) (h : Half) (f : Cat → Cat) : passOf (s.modCat h f) h = (f (s.cat.get h)).pass := by
  simp [passOf, State.modCat]

@[simp] theorem modNet_pass (s : State) (h : Half) (f : Net → Net) : passOf (s.modNet f) h = passOf s h := rfl
@[simp] theorem fbump_pass (s : State) (h : Half) (a : Nat) (f : Fld) (n : Nat) : passOf (s.fbump a f n) h = passOf s h := rfl
@[simp] theorem wr64_pass (s : State) (h : Half) (a v : Nat) : passOf (s.wr64 a v) h = passOf s h := rfl
@[simp] theorem draw_pass (s : State) (h : Half) : passOf s.draw.2 h = passOf s h := rfl
@[simp] theorem catStat_pass (s : State) (h : Half) : passOf (catStat s h) h = passOf s h := by simp [passOf_sees]
@[simp] theorem tally_pass (s : State) (h g : Half) (u e i k : Nat) : passOf (tally s g u e i k) h = passOf s h := by
  simp [passOf_sees]
@[simp] theorem phmAdd_pass (s : State) (h g : Half) (c k : Nat) : passOf (phmAdd s g c k) h = passOf s h :=
  passOf_congr (countOnly_cat (phmAdd_countOnly _ _ _ _)) h
@[simp] theorem originate_pass (s : State) (h g : Half) (st : Nat) (m : Msg) : passOf (originate s g st m) h = passOf s h :=
  passOf_congr (originate_cat _ _ _ _) h
@[simp] theorem endFlight_pass (s : State) (h : Half) (m : Msg) : passOf (endFlight s m) h = passOf s h := by
  unfold endFlight
  split <;> rfl

@[simp] theorem putEnt_pass (s : State) (h : Half) (i : Nat) (e : Option CatEnt) : passOf (putEnt s h i e) h = passOf s h := by
  simp [passOf_sees]
@[simp] theorem settleEnt_pass (s : State) (h : Half) (i : Nat) (e : CatEnt) : passOf (settleEnt s h i e) h = passOf s h :=
  putEnt_pass _ _ _ _
@[simp] theorem putTxn_pass (s : State) (h : Half) (k : Nat) (t : Txn) : passOf (putTxn s h k t) h = passOf s h := by
  simp [passOf_sees]
@[simp] theorem dropTxn_pass (s : State) (h : Half) (k : Nat) : passOf (dropTxn s h k) h = passOf s h := by simp [passOf_sees]
@[simp] theorem slotPut_pass (s : State) (h : Half) (w l way data : Nat) : passOf (slotPut s h w l way data) h = passOf s h := by
  simp [passOf_sees]
@[simp] theorem slotUse_pass (s : State) (h : Half) (sl : LsSlot) (way : Nat) : passOf (slotUse s h sl way) h = passOf s h := by
  simp [passOf_sees]

/-! ### Slots and the Catalogue's own writes (R248-R251) -/

@[simp] theorem ownWrite_pass (s : State) (h : Half) (k data : Nat) (bad : Bool) (use : WrUse) :
    passOf (ownWrite s h k data bad use) h = passOf s h := by
  simp only [ownWrite, devWrite, originate_pass, putTxn_pass, catTick, modCat_pass]
  rfl

@[simp] theorem devRead_pass (s : State) (h : Half) (k : Nat) (m : Msg) (op : Op) : passOf (devRead s h k m op) h = passOf s h :=
  originate_pass _ _ _ _ _

@[simp] theorem slotOut_pass (s : State) (h : Half) (k : Nat) : passOf (slotOut s h k) h = passOf s h := by
  unfold slotOut
  split <;> simp

@[simp] theorem slotFill_pass (s : State) (h : Half) (k way data : Nat) (psn : Bool) :
    passOf (slotFill s h k way data psn) h = passOf s h := by
  unfold slotFill entSlot
  split <;> simp

@[simp] theorem lsAlloc_pass (s : State) (h : Half) (w l : Nat) : passOf (lsAlloc s h w l).2 h = passOf s h := by
  unfold lsAlloc
  split
  · rfl
  · split
    · simp [lsEvictStart]
    · rfl

@[simp] theorem poisonLine_pass (s : State) (h : Half) (k : Nat) : passOf (poisonLine s h k) h = passOf s h := by
  unfold poisonLine
  dsimp only
  split
  · simp
  · split
    · simp
    · split <;> simp

/-! ### Transactions and their ends (R233-R247) -/

@[simp] theorem catRespond_pass (s : State) (h : Half) (m : Msg) (grant : Hold) (data : Nat) (poison : Bool) (load : Nat)
    (ok : Bool) : passOf (catRespond s h m grant data poison load ok) h = passOf s h := by
  unfold catRespond
  dsimp only
  split
  · split <;> simp [freeItagEnt]
  · split <;> simp

@[simp] theorem reserveWay_pass (s : State) (h : Half) (k set : Nat) : passOf (reserveWay s h k set) h = passOf s h := by
  unfold reserveWay
  split <;> simp

@[simp] theorem waitPool_pass (s : State) (h : Half) (m : Msg) (front : Bool) : passOf (waitPool s h m front) h = passOf s h := by
  have hrise : passOf (waitRise s h m) h = passOf s h := by
    unfold waitRise
    dsimp only
    split
    · rfl
    · split
      · rfl
      · exact foldl_pass (fun s x => by simp) _ _
  simp only [waitPool, catStat_pass, modCat_pass]
  exact hrise

@[simp] theorem getData_pass (s : State) (h : Half) (k : Nat) (t : Txn) (m : Msg) : passOf (getData s h k t m) h = passOf s h := by
  unfold getData
  split <;> simp

@[simp] theorem doWrite_pass (s : State) (h : Half) (k : Nat) (t : Txn) (m : Msg) : passOf (doWrite s h k t m) h = passOf s h := by
  unfold doWrite
  dsimp only
  split
  · split <;> simp [mergeWrite]
  · simp

@[simp] theorem finishOwn_pass (s : State) (h : Half) (k : Nat) : passOf (finishOwn s h k) h = passOf s h := by
  unfold finishOwn
  dsimp only
  rw [dropTxn_pass]
  split <;> simp

@[simp] theorem finishCap_pass (s : State) (h : Half) (k : Nat) (t : Txn) : passOf (finishCap s h k t) h = passOf s h := by
  unfold finishCap
  extract_lets u1 u2
  have hdropped : passOf u2 h = passOf s h := by
    unfold u2 u1
    rw [dropTxn_pass]
    split <;> simp
  clear_value u2
  split
  · rw [waitPool_pass]
    split <;> simp [hdropped]
  · exact hdropped

@[simp] theorem finishReq_pass (s : State) (h : Half) (k : Nat) (t : Txn) (m : Msg) :
    passOf (finishReq s h k t m) h = passOf s h := by
  have hdraw : ∀ (c : Prop) [Decidable c] (n : Nat), passOf (if c then s.draw else (n, s)).2 h = passOf s h := fun c _ n => by
    split <;> rfl
  unfold finishReq
  dsimp only
  split
  · simp [hdraw]
  · simp only [catRespond_pass, dropTxn_pass]
    split <;> simp [hdraw]

@[simp] theorem stageStep_pass (s : State) (h : Half) (k : Nat) (t : Txn) : passOf (stageStep s h k t) h = passOf s h := by
  have hfinish : passOf (finishTxn s h k t) h = passOf s h := by
    unfold finishTxn
    split <;> simp
  unfold stageStep
  split
  case h_1 | h_2 => rfl
  case h_3 | h_4 => split <;> simp
  case h_5 => simp
  case h_6 => exact hfinish

@[simp] theorem catAdvance_pass (s : State) (h : Half) (k : Nat) : passOf (catAdvance s h k) h = passOf s h :=
  foldl_pass (fun s x => by split <;> simp) _ s

/-! ### Snoops and write-backs (R236-R238, R252) -/

@[simp] theorem absorb_pass (s : State) (h : Half) (k data : Nat) (bad : Bool) (wb : Option Msg) :
    passOf (absorb s h k data bad wb) h = passOf s h := by
  unfold absorb
  dsimp only
  split
  · simp
  · split
    · cases wb <;> simp
    · split
      · split
        · cases wb <;> simp
        · simp
      · simp

@[simp] theorem takeWriteBack_pass (s : State) (h : Half) (k : Nat) (m : Msg) : passOf (takeWriteBack s h k m) h = passOf s h := by
  have hnote : passOf (wbNote s h k m) h = passOf s h := by
    unfold wbNote
    split <;> simp
  simp [takeWriteBack, hnote]

@[simp] theorem poolWriteBacks_pass (s : State) (h : Half) (k : Nat) : passOf (poolWriteBacks s h k) h = passOf s h := by
  refine foldl_pass (fun s n => ?_) _ s
  split
  · rfl
  · split
    · simp only [takeWriteBack_pass, catStat_pass, modCat_pass]
      rfl
    · rfl

@[simp] theorem lostHolder_pass (s : State) (h : Half) (k t : Nat) : passOf (lostHolder s h k t) h = passOf s h := by
  have hdrop : passOf (dropHolder s h k t) h = passOf s h := by
    unfold dropHolder
    split <;> simp
  unfold lostHolder
  dsimp only
  split
  · rfl
  · split <;> simp [hdrop]

@[simp] theorem sendSnoops_pass (s : State) (h : Half) (k : Nat) (snp : Snp) (ts : List Nat) :
    passOf (sendSnoops s h k snp ts) h = passOf s h := by
  unfold sendSnoops
  dsimp only
  split <;> simp

@[simp] theorem beginTxn_pass (s : State) (h : Half) (k : Nat) (t : Txn) (snp : Snp) (ts : List Nat) :
    passOf (beginTxn s h k t snp ts) h = passOf s h := by
  have hlost := foldl_pass (h := h) (f := fun s x => lostHolder s h k x) fun s x => lostHolder_pass s h k x
  simp [beginTxn, hlost]

/-! ### The walker (R254) -/

@[simp] theorem queueJob_pass (s : State) (h : Half) (j : CatJob) : passOf (queueJob s h j) h = passOf s h := by
  unfold queueJob scrubStat
  split
  · rfl
  · simp only [wr64_pass, modCat_pass]
    rfl

@[simp] theorem scrubEnt_pass (s : State) (h : Half) (i : Nat) (e : CatEnt) (t : Nat) :
    passOf (scrubEnt s h i e t) h = passOf s h := by
  unfold scrubEnt
  dsimp only
  split
  · rfl
  · split
    · simp
    · split <;> simp

@[simp] theorem disableEnt_pass (s : State) (h : Half) (i : Nat) (e : CatEnt) : passOf (disableEnt s h i e) h = passOf s h := by
  unfold disableEnt
  split
  · simp
  · split <;> simp

@[simp] theorem jobEnt_pass (s : State) (h : Half) (i : Nat) (j : CatJob) : passOf (jobEnt s h i j) h = passOf s h := by
  unfold jobEnt
  split
  · rfl
  · split
    · simp
    · split
      · split <;> simp
      · rfl
    · split <;> simp

/-- A pass that treats a set goes on with its jobs. -/
@[simp] theorem walkSet_pass (s : State) (h : Half) (set : Nat) : passOf (walkSet s h set) h = passOf s h := by
  unfold walkSet
  split
  · rfl
  · split
    · rfl
    · rw [foldl_pass fun s j => foldl_pass (fun s i => jobEnt_pass s h i j) _ s, modCat_pass]
      rfl

end Sys2Proof.Machine
end

section
/-! PROOFS. The taint list, the walker's passes and the Catalogue's image (R242-R245, R254, R255, R258), and O37. -/

namespace Sys2Proof.Machine

open Sys2Proof

theorem catStat_cat (s : State) (h : Half) : (catStat s h).cat = s.cat := rfl

/-! ### The taint list (R245) -/

theorem taint_ne_stat (h : Half) (i : Nat) : CAT_TAINT h i ≠ CAT_STAT h := by
  unfold CAT_TAINT CAT_STAT
  omega

theorem taint_inj {h : Half} {i j : Nat} : CAT_TAINT h i = CAT_TAINT h j ↔ i = j := by
  unfold CAT_TAINT
  omega

/-- A lifted entry of the taint list is no longer valid, and TAINTED follows the others. -/
theorem taintLift_lifts {s : State} {m : Master} {h : Half} {j : BitVec 4} (hm : mayAct s m (CAT_TAINT h j.toNat)) :
    ∃ u, exec (.taintLift m h j) s = .next u ∧ onlyRegs [CAT_TAINT h j.toNat, CAT_STAT h] s u
      ∧ u.flag (CAT_TAINT h j.toNat) CAT_TAINT_VALID = false
      ∧ u.flag (CAT_STAT h) CAT_STAT_TAINTED
          = (List.range 16).any fun i => i != j.toNat && s.flag (CAT_TAINT h i) CAT_TAINT_VALID := by
  let s₁ := s.fset (CAT_TAINT h j.toNat) CAT_TAINT_VALID 0
  have hcleared : s₁.flag (CAT_TAINT h j.toNat) CAT_TAINT_VALID = false :=
    flag_fset_toNat s (CAT_TAINT h j.toNat) CAT_TAINT_VALID false rfl (by decide)
  refine ⟨taintStat s₁ h, ?_, ?_, ?_, ?_⟩
  · show execTaintLift m h j s = _
    rw [execTaintLift, csGate_mayAct _ _ _ _ hm]
  · exact onlyRegs_trans (onlyRegs_wr s _ _) (onlyRegs_wr s₁ _ _)
  · exact (flag_fset_at_ne _ _ _ _ (taint_ne_stat h _)).trans hcleared
  · refine (flag_fset_toNat _ _ _ _ rfl (by decide)).trans ?_
    refine congrArg (List.any (List.range 16)) (funext fun i => ?_)
    by_cases hi : i = j.toNat
    · rw [hi, hcleared]
      simp
    · rw [flag_fset_at_ne _ _ _ _ (mt taint_inj.mp hi)]
      simp [hi]

/-! ### Passes (R254) -/

theorem flag_scrubStat (s : State) (h : Half) (f : Fld) : (scrubStat s h).flag (CAT_STAT h) f = s.flag (CAT_STAT h) f :=
  flag_of_rd_eq (rd_wr64_ne _ (by cases h <;> decide) (by cases h <;> decide)) _

/-- A pass starts with every queued job that goes. -/
theorem passStart_starts {s : State} {h : Half} (hp : (s.cat.get h).pass = none)
    (hgo : (s.cat.get h).jobs.filter (jobGoes s h) ≠ []) :
    ∃ u, exec (.passStart h) s = .next u ∧ (u.cat.get h).pass = some ((s.cat.get h).jobs.filter (jobGoes s h))
      ∧ (u.cat.get h).jobs = (s.cat.get h).jobs.filter (fun j => !jobGoes s h j)
      ∧ u.flag (CAT_STAT h) CAT_STAT_PASS = true := by
  refine ⟨_, if_neg (by simp [hp, hgo]), ?_, ?_, ?_⟩
  · simp [scrubStat, State.modCat]
  · simp [scrubStat, State.modCat]
  · rw [flag_scrubStat]
    exact flag_fset_toNat _ _ _ true rfl (by decide)

theorem exec_passStart_idle {s : State} {h : Half}
    (hidle : (s.cat.get h).pass.isSome = true ∨ (s.cat.get h).jobs.filter (jobGoes s h) = []) :
    exec (.passStart h) s = .next s := if_pos hidle

/-- Every set that holds an entry has been treated. -/
def walked (s : State) (h : Half) : State := (usedSets s h).foldl (fun s set => walkSet s h set) s

/-- The windows of a pass's disable jobs leave use. -/
def windowsLeave (s : State) (h : Half) (js : List CatJob) : State :=
  js.foldl (fun s j => match j with
    | .disable w _ => windowLeaves s h w
    | _ => s) s

/-- With no window in use, the taint list need not refuse any more. -/
def taintFreed (s : State) (h : Half) : State :=
  if (List.range 64).any fun w => winUsed s h w then s else s.modCat h fun c => { c with taintFull := false }

/-- A pass whose walk is done has ended. -/
def passEnded (s : State) (h : Half) (js : List CatJob) : State :=
  scrubStat ((taintFreed (windowsLeave (s.modCat h fun c => { c with pass := none, passDone := [] }) h js) h).fset
    (CAT_STAT h) CAT_STAT_PASS 0) h

theorem exec_passEnd_some {s : State} {h : Half} {js : List CatJob} (hp : (s.cat.get h).pass = some js) :
    exec (.passEnd h) s
      = .next (if disabling (walked s h) h then walked s h else passEnded (walked s h) h js) := by
  show execPassEnd h s = _
  unfold execPassEnd
  rw [hp]
  dsimp only
  rw [apply_ite Host.Outcome.next]
  rfl

theorem exec_passEnd_none {s : State} {h : Half} (hp : (s.cat.get h).pass = none) : exec (.passEnd h) s = .next s := by
  show execPassEnd h s = _
  rw [execPassEnd, hp]

theorem walked_pass (s : State) (h : Half) : passOf (walked s h) h = passOf s h := foldl_pass (fun s x => walkSet_pass s h x) _ s

/-- The pass, and the transactions of a half. -/
def passAndTxns (s : State) (h : Half) : Option (List CatJob) × SMap Txn := ((s.cat.get h).pass, (s.cat.get h).txns)

theorem windowLeaves_keeps (s : State) (h : Half) (w : Nat) : passAndTxns (windowLeaves s h w) h = passAndTxns s h := by
  unfold windowLeaves queueJob scrubStat
  split
  · split
    · rfl
    · simp [passAndTxns, State.modCat]
  · rfl

theorem windowsLeave_keeps (s : State) (h : Half) (js : List CatJob) : passAndTxns (windowsLeave s h js) h = passAndTxns s h := by
  refine foldl_keeps (passAndTxns · h) (fun s j _ => ?_) s
  split
  · exact windowLeaves_keeps s h _
  · rfl

theorem passEnded_keeps (s : State) (h : Half) (js : List CatJob) :
    passAndTxns (passEnded s h js) h = (none, (s.cat.get h).txns) := by
  have hfreed : ∀ u : State, passAndTxns (taintFreed u h) h = passAndTxns u h := fun u => by
    unfold taintFreed
    split
    · rfl
    · simp [passAndTxns, State.modCat]
  show passAndTxns (taintFreed _ h) h = _
  rw [hfreed, windowsLeave_keeps]
  simp [passAndTxns, State.modCat]

theorem disabling_congr {s t : State} {h : Half} (ht : (t.cat.get h).txns = (s.cat.get h).txns) : disabling t h = disabling s h := by
  rw [disabling, disabling, ht]

theorem flag_passEnded (s : State) (h : Half) (js : List CatJob) : (passEnded s h js).flag (CAT_STAT h) CAT_STAT_PASS = false := by
  unfold passEnded
  rw [flag_scrubStat]
  exact flag_fset_toNat _ _ _ false rfl (by decide)

/-- A window none of whose lines is left leaves use with the pass (R255). -/
theorem rd_passEnded_disable {s : State} {h : Half} {w : Nat} (hents : (s.cat.get h).ents = []) (late : Bool) :
    (passEnded s h [.disable w late]).rd (CAT_WIN_CTL h w) = s.rd (CAT_WIN_CTL h w) &&& 0x5FFFFFFF := by
  have hi := half_idx_lt h
  let s₁ := s.modCat h fun c => { c with pass := none, passDone := [] }
  have hnone : (s₁.cat.get h).ents = [] := by simpa [s₁, State.modCat] using hents
  have hfreed : ∀ u : State, (taintFreed u h).rd (CAT_WIN_CTL h w) = u.rd (CAT_WIN_CTL h w) := fun u => by
    unfold taintFreed
    split <;> rfl
  have hleaves : windowLeaves s₁ h w = s₁.wr (CAT_WIN_CTL h w) (s₁.rd (CAT_WIN_CTL h w) &&& 0x5FFFFFFF) := by
    simp [windowLeaves, hnone]
  calc (passEnded s h [.disable w late]).rd (CAT_WIN_CTL h w)
      = ((taintFreed (windowLeaves s₁ h w) h).fset (CAT_STAT h) CAT_STAT_PASS 0).rd (CAT_WIN_CTL h w) :=
        rd_wr64_ne _ (by unfold CAT_WIN_CTL CAT_SCRUB_LO; omega) (by unfold CAT_WIN_CTL CAT_SCRUB_LO; omega)
    _ = (taintFreed (windowLeaves s₁ h w) h).rd (CAT_WIN_CTL h w) :=
        rd_fset_ne _ _ _ (by unfold CAT_WIN_CTL CAT_STAT; omega)
    _ = s.rd (CAT_WIN_CTL h w) &&& 0x5FFFFFFF := by rw [hfreed, hleaves, rd_wr_same]; rfl

/-- A pass ends once the writes of its disable jobs have completed; until then it goes on. -/
theorem passEnd_ends {s : State} {h : Half} {js : List CatJob} (hp : (s.cat.get h).pass = some js) :
    ∃ u, exec (.passEnd h) s = .next u ∧ (u.cat.get h).pass = (if disabling u h then some js else none)
      ∧ (disabling u h = false → u.flag (CAT_STAT h) CAT_STAT_PASS = false)
      ∧ ∀ w late, js = [.disable w late] → (s.cat.get h).ents = [] → (s.cat.get h).txns = [] →
          u.rd (CAT_WIN_CTL h w) = s.rd (CAT_WIN_CTL h w) &&& 0x5FFFFFFF := by
  have hexec := exec_passEnd_some hp
  cases hd : disabling (walked s h) h with
  | true =>
    rw [hd, if_pos rfl] at hexec
    refine ⟨_, hexec, ?_, fun hf => ?_, fun w late hjs hents htxns => ?_⟩
    · rw [hd, if_pos rfl]
      exact (walked_pass s h).trans hp
    · rw [hd] at hf
      cases hf
    · have hstill : walked s h = s := by simp [walked, usedSets, hents]
      rw [hstill] at hd
      simp [disabling, htxns] at hd
  | false =>
    rw [hd, if_neg (by decide)] at hexec
    obtain ⟨hpass, htxns⟩ := Prod.mk.inj (passEnded_keeps (walked s h) h js)
    refine ⟨_, hexec, ?_, fun _ => flag_passEnded _ _ _, fun w late hjs hents _ => ?_⟩
    · rw [disabling_congr htxns, hd]
      exact hpass
    · have hstill : walked s h = s := by simp [walked, usedSets, hents]
      rw [hjs, hstill]
      exact rd_passEnded_disable hents late

/-! ### The image (R258) -/

/-- IMG_EN starts the copy. -/
theorem imageEnable_starts {s : State} {m : Master} {h : Half} (hm : mayAct s m (CAT_CTL h)) (hfin : finderOnly s = false)
    (hoff : s.flag (CAT_CTL h) CAT_CTL_IMG_EN = false) :
    ∃ u, exec (.imageEnable m h) s = .next u ∧ onlyField { s with cat := u.cat } u (CAT_CTL h) CAT_CTL_IMG_EN 1
      ∧ (u.cat.get h).copying = true := by
  refine ⟨(s.fset (CAT_CTL h) CAT_CTL_IMG_EN 1).modCat h fun c => { c with copying := true }, ?_, ?_, ?_⟩
  · show execImageEnable m h s = _
    rw [execImageEnable, csGate_mayAct _ _ _ _ hm, imageEnable, finderGate, if_neg (by simp [hfin]), if_neg (by simp [hoff])]
  · exact onlyField_fset _ (CAT_CTL h) CAT_CTL_IMG_EN 1 (by decide)
  · simp [State.modCat]

/-- A table of the image: in canonical form, each entry in its set. -/
def Placed (m : SMap CatEnt) : Prop := SMap.wf m = true ∧ ∀ e ∈ m, e.1 ∈ setKeys (setFull e.2.win e.2.l)

theorem Placed.imagePlace {m : SMap CatEnt} (hm : Placed m) (e : CatEnt) : Placed (Machine.imagePlace m e) := by
  unfold Machine.imagePlace
  split
  · next i hi =>
    refine ⟨minsert_wf _ _ _ hm.1, fun x hx => ?_⟩
    obtain rfl | hx := mem_minsert _ _ _ hx
    · exact List.mem_of_find?_eq_some hi
    · exact hm.2 x hx
  · exact hm

theorem placed_foldl (l : List CatEnt) {m : SMap CatEnt} (hm : Placed m) : Placed (l.foldl imagePlace m) := by
  induction l generalizing m with
  | nil => exact hm
  | cons e r ih => exact ih (hm.imagePlace e)

/-- Entries written one after the other leave every other key alone. -/
theorem mfind_foldl_minsert_ne {α β : Type} (f : α → β) {l : SMap α} {k : Nat} (hl : ∀ e ∈ l, k ≠ e.1) (m : SMap β) :
    mfind (l.foldl (fun m e => minsert m e.1 (f e.2)) m) k = mfind m k := by
  induction l generalizing m with
  | nil => rfl
  | cons e r ih =>
    exact (ih (fun x hx => hl x (by simp [hx])) _).trans (mfind_minsert_ne _ _ (hl e (by simp)))

/-- Each entry of a table in canonical form, written to another table, is found there. -/
theorem mfind_foldl_minsert {α β : Type} (f : α → β) {l : SMap α} (hl : SMap.wf l = true) {e : Nat × α} (he : e ∈ l)
    (m : SMap β) : mfind (l.foldl (fun m e => minsert m e.1 (f e.2)) m) e.1 = some (f e.2) := by
  induction l generalizing m with
  | nil => simp at he
  | cons x r ih =>
    obtain ⟨hlt, hr⟩ := wf_cons.mp hl
    obtain rfl | he := List.mem_cons.mp he
    · exact (mfind_foldl_minsert_ne f (fun y hy => (hlt y hy).ne) _).trans (mfind_minsert_same _ _ _)
    · exact ih hr he _

/-- The entries of a half, each in its set of the image. -/
def imageOf (s : State) (h : Half) : SMap CatEnt := ((s.cat.get h).ents.map fun e => e.2).foldl imagePlace []

/-- The entries stand in the image, their regions are recorded, and IMG is 1; nothing is in the mirror yet. -/
def imageFilled (s : State) (h : Half) : State :=
  (recordRegions (s.modCat h fun c =>
    { c with copying := false, ents := imageOf s h, mirror := [], mirQ := [],
             cache := ((imageOf s h).map fun e => e.1 / 16).dedup.foldl (fun l x => (cacheLook l x).2) [] }) h
    ((imageOf s h).map fun e => regionOf e.1)).fset (CAT_STAT h) CAT_STAT_IMG 1

theorem exec_imageCopyDone_copying {s : State} {h : Half} (hc : (s.cat.get h).copying = true) :
    exec (.imageCopyDone h) s = .next (catStat (if mirrorAway (imageFilled s h) h then imageFilled s h
      else (mirrorCopy (imageFilled s h) h).modCdb h fun b => { b with regions := [] }) h) := if_pos hc

theorem exec_imageCopyDone_idle {s : State} {h : Half} (hc : (s.cat.get h).copying = false) : exec (.imageCopyDone h) s = .next s :=
  if_neg (by simp [hc])

theorem imageFilled_cat (s : State) (h : Half) : ((imageFilled s h).cat.get h).ents = imageOf s h
    ∧ ((imageFilled s h).cat.get h).copying = false ∧ ((imageFilled s h).cat.get h).mirror = [] := by
  simp [imageFilled, recordRegions, State.modCdb, State.modCat]

theorem imageFilled_regions (s : State) (h : Half) {e : Nat × CatEnt} (he : e ∈ imageOf s h) :
    regionOf e.1 ∈ ((imageFilled s h).cdb.get h).regions := by
  have hregions : ((imageFilled s h).cdb.get h).regions
      = ((imageOf s h).map (fun e => regionOf e.1) ++ (s.cdb.get h).regions).dedup := by
    simp [imageFilled, recordRegions, State.modCat]
  rw [hregions, List.mem_dedup]
  exact List.mem_append_left _ (List.mem_map_of_mem he)

theorem mirrorAway_imageFilled (s : State) (h : Half) : mirrorAway (imageFilled s h) h = mirrorAway s h := by
  have hrd : (imageFilled s h).rd (CDB_STAT h) = s.rd (CDB_STAT h) := rd_fset_ne _ _ _ (by cases h <;> decide)
  rw [mirrorAway, mirrorAway, flag_of_rd_eq hrd, State.phase, State.phase, fget_of_rd_eq hrd]

/-- The copy of the recorded regions brings every entry of the image to the mirror. -/
theorem mirrorCopy_imageFilled (s : State) (h : Half) {e : Nat × CatEnt} (he : e ∈ imageOf s h)
    (hwf : SMap.wf (imageOf s h) = true) :
    mfind ((mirrorCopy (imageFilled s h) h).cat.get h).mirror e.1 = some (entWord (some e.2)) := by
  obtain ⟨hents, -, hmirror⟩ := imageFilled_cat s h
  have hall : (imageOf s h).filter (fun e => ((imageFilled s h).cdb.get h).regions.contains (regionOf e.1)) = imageOf s h :=
    List.filter_eq_self.mpr fun x hx => by simpa using imageFilled_regions s h hx
  have hcopied : ((mirrorCopy (imageFilled s h) h).cat.get h).mirror
      = (imageOf s h).foldl (fun m e => minsert m e.1 (entWord (some e.2))) [] := by
    simp only [mirrorCopy, State.modCat, pair_get_set_same, hents, hmirror, hall, List.filter_nil]
  rw [hcopied]
  exact mfind_foldl_minsert (fun x => entWord (some x)) hwf he []

/-- The copy done, IMG is 1, every entry stands in its set of the image, and in the mirror if it can be reached. -/
theorem imageCopyDone_fills {s : State} {h : Half} (hc : (s.cat.get h).copying = true) :
    ∃ u, exec (.imageCopyDone h) s = .next u ∧ u.flag (CAT_STAT h) CAT_STAT_IMG = true ∧ (u.cat.get h).copying = false
      ∧ (∀ e ∈ (u.cat.get h).ents, e.1 ∈ setKeys (setFull e.2.win e.2.l))
      ∧ (mirrorAway s h = false → ∀ e ∈ (u.cat.get h).ents, mfind (u.cat.get h).mirror e.1 = some (entWord (some e.2)))
      ∧ (mirrorAway s h = true → ∀ e ∈ (u.cat.get h).ents, regionOf e.1 ∈ (u.cdb.get h).regions) := by
  obtain ⟨hwf, hset⟩ : Placed (imageOf s h) := placed_foldl _ ⟨rfl, by simp⟩
  obtain ⟨hents, hcopying, -⟩ := imageFilled_cat s h
  have himg : (imageFilled s h).flag (CAT_STAT h) CAT_STAT_IMG = true := flag_fset_toNat _ _ _ true rfl (by decide)
  have hstat : ∀ u : State, (catStat u h).rd (CAT_STAT h) = u.rd (CAT_STAT h) := catStat_rd (by cases h <;> decide)
  have hexec := exec_imageCopyDone_copying hc
  rw [mirrorAway_imageFilled] at hexec
  cases haway : mirrorAway s h with
  | true =>
    rw [haway, if_pos rfl] at hexec
    refine ⟨_, hexec, ?_, hcopying, ?_, fun hf => absurd hf (by decide), fun _ => ?_⟩
    · rw [flag_of_rd_eq (hstat _), himg]
    · rw [catStat_cat, hents]
      exact hset
    · rw [catStat_cat, hents]
      exact fun e he => imageFilled_regions s h he
  | false =>
    rw [haway, if_neg (by decide)] at hexec
    have hkept : ((mirrorCopy (imageFilled s h) h).cat.get h).ents = imageOf s h
        ∧ ((mirrorCopy (imageFilled s h) h).cat.get h).copying = false := by
      simp [mirrorCopy, State.modCat, hents, hcopying]
    refine ⟨_, hexec, ?_, hkept.2, ?_, fun _ => ?_, fun hf => absurd hf (by decide)⟩
    · rw [flag_of_rd_eq (hstat _)]
      exact himg
    · show ∀ e ∈ ((mirrorCopy (imageFilled s h) h).cat.get h).ents, _
      rw [hkept.1]
      exact hset
    · show ∀ e ∈ ((mirrorCopy (imageFilled s h) h).cat.get h).ents,
        mfind ((mirrorCopy (imageFilled s h) h).cat.get h).mirror e.1 = _
      rw [hkept.1]
      exact fun e he => mirrorCopy_imageFilled s h he hwf

/-! ### O37 -/

/-- Settles O37, command by command. -/
theorem catalogueWalkerAndImage : Obligations.CatalogueWalkerAndImage := by
  intro s m h j w late js c st tn I ctl go
  refine ⟨fun hm => taintLift_lifts hm, fun hp hgo => passStart_starts hp hgo, fun hidle => exec_passStart_idle hidle, fun hp => ?_,
    fun hp => exec_passEnd_none hp, fun hm hfin hoff => imageEnable_starts hm hfin hoff, fun hc => imageCopyDone_fills hc,
    fun hc => exec_imageCopyDone_idle hc⟩
  obtain ⟨u, hu, hpass, hflag, hleave⟩ := passEnd_ends hp
  exact ⟨u, hu, hpass, hflag, fun hjs _ => hleave w late hjs⟩

end Sys2Proof.Machine
end
